-- ==== Sys2Proof/Word.lean ====
section
/-! DEFINITION. The words of the Jubry 9: bytes, 32-bit registers, 64-bit quantities (R7). -/
namespace Sys2Proof

/-- One byte of memory. -/
abbrev Byte := BitVec 8
/-- A register (R7). -/
abbrev W32 := BitVec 32
/-- A device physical address (R27). -/
abbrev Addr := BitVec 48
/-- A 64-bit quantity, held in a pair of registers (R13) or in a scalar (R341). -/
abbrev W64 := BitVec 64

end Sys2Proof
end

