-- ==== Sys2Proof/Syntax.lean ====
section
/-! DEFINITION. The commands of the block: one constructor of `Instr` for each row of spec/opcode_table.json, with the
operands the row's rule names. A sequencer command's own operand fields are not operands here: they lie in the
command ring in scratchpad, whence the sequencer fetches them (R342, R347). -/
namespace Sys2Proof

/-- A core, 0 to 255 (R19). -/
abbrev CoreId := Fin 256
/-- A tile handle TH0 to TH7 (R341). -/
abbrev Handle := Fin 8
/-- A brick, 0 to 15: sixteen in the tall shape (R82). -/
abbrev BrickId := Fin 16
/-- A slot or window, 0 to 63 (R270, R285). -/
abbrev SlotId := Fin 64
/-- A DMA channel (R303). -/
abbrev ChanId := Fin 16
/-- A dispenser (R322). -/
abbrev DispId := Fin 64
/-- A partition (R379). -/
abbrev PartId := Fin 64
/-- A quadrant (R19). -/
abbrev QuadId := Fin 4
/-- A Tchiuth port (R418). -/
abbrev PortId := Fin 6
/-- A host Ethernet port, or 4 for the management port (R443, R445). -/
abbrev EthId := Fin 5
/-- A reduction group (R387). -/
abbrev GroupId := Fin 256
/-- A host session (R451). -/
abbrev SessId := Fin 65536
/-- A session context: a host session, or 65,536 + k for management session k (R445). -/
abbrev CtxId := Fin 65540

/-- Who makes a register or memory access. -/
inductive Req where
  | hub                  -- the hub firmware
  | porch                -- the Porch
  | core (c : CoreId)
  | session (n : SessId)
  | mgmt (n : Fin 4)     -- a management session (R445)
  | remote (d : Fin 4096)
  deriving DecidableEq, Repr

/-- What SECDED found in the access that a command makes (R535), with the structure number and the word offset. -/
inductive SramErr where
  | none
  | ce (structure_ : Fin 17) (off : Nat)
  | ue (structure_ : Fin 17) (off : Nat)
  deriving DecidableEq, Repr

/-- The erroneous symbols of the RS(10,8) codewords of a Cellar line as it is read: subchannel, codeword, device (R405). -/
abbrev DramErr := List (Bool × Fin 8 × Fin 10)

/-- The errors that a command's read of the Cellar meets, by the place of the line among those it reads (R405). -/
abbrev LineErrs := List (Nat × DramErr)

/-- A memory module as its SPD hub describes it (R402, R403): DDR5 MRDIMM or another kind, the data width of its DRAM devices, ECC,
capacity in GiB, and the transfer rates in MT/s that it supports. -/
structure Module where
  mrdimm : Bool
  width : Nat
  ecc : Bool
  gib : Nat
  rates : List Nat
  deriving DecidableEq, Repr

/-- An access from outside a core (R285): data reads and writes, and SIGNAL transactions (R361). -/
inductive Access where
  | read (len : Nat)
  | write (data : List Byte)
  | full
  | release
  deriving DecidableEq, Repr

/-- The engines with one queue place each (R345). -/
inductive Engine where
  | vprog | rake | conv | sort | merge
  deriving DecidableEq, Repr

/-- How Tchiuth or Ethernet training ends (R416, R443). -/
inductive TrainResult where
  | up (peer : Fin 4096) (peerPort : Fin 8) (topo : BitVec 12) (rttNs : Nat)
  | phyFail
  deriving DecidableEq, Repr

/-- An HXT frame, its fields those of R451; the payload and the tag are the bytes on the wire, encrypted in a frame of an OPEN
session (R454). -/
structure HxtFrame where
  ver : Nat
  typ : Nat
  resp : Bool
  ackonly : Bool
  resvBit : Bool
  tx : Nat
  session : Nat
  kepoch : Nat
  seq : Nat
  ack : Nat
  sack : W64
  frag : Nat
  nfrag : Nat
  len : Nat
  payload : List Byte
  tag : List Byte
  deriving DecidableEq, Repr

/-- What an Ethernet frame carries (R444). -/
inductive FrameBody where
  | arp (ip4 : W32)                     -- an ARP request for an address
  | ns (ip6 : BitVec 128)               -- an IPv6 Neighbor Solicitation
  | echo4 (ip4 : W32) (data : List Byte)
  | echo6 (ip6 : BitVec 128) (data : List Byte)
  | hxtUdp4 (ip4 : W32) (port : Nat) (h : HxtFrame)
  | hxtUdp6 (ip6 : BitVec 128) (port : Nat) (h : HxtFrame)
  | hxtEty (h : HxtFrame)               -- EtherType 0x88B5
  | other                               -- anything else, IP fragments and options included
  deriving DecidableEq, Repr

/-- An Ethernet frame on a port: destination MAC, 802.1Q tag, length in bytes including FCS, FCS good or bad. -/
structure Frame where
  da : BitVec 48
  tagged : Bool
  pcp : Fin 8
  vid : Fin 4096
  bytes : Nat
  fcsOk : Bool
  body : FrameBody
  deriving DecidableEq, Repr

/-- The Porch's readings in one sample period (R513): raw values by sensor number. -/
structure Readings where
  temp : List Int      -- 64 diodes, 1/8 degree C
  cur : List Nat       -- 16 current points, 1/16 A
  volt : List Nat      -- 24 monitors, mV
  deriving DecidableEq, Repr

/-- A gPTP sync (R520): the port it came on, the offset of the counter from the source in ns (positive: the counter
is ahead) and the measured rate ratio's deviation in units of 2^-32. -/
structure Sync where
  port : Fin 5
  offset : Int
  rate : Int
  deriving DecidableEq, Repr

/-- The commands (spec/opcode_table.json), in the table's order. -/
inductive Instr where
  -- registers (R11 to R17, R577)
  | registerWrite (r : Req) (a : Addr) (size : Nat) (v : W32)
  | registerReadClear (r : Req) (a : Addr) (size : Nat)
  | loHalfRead (r : Req) (a : Addr)
  -- array
  | brickStepBegin (c : CoreId) (b : BrickId) (promo : Nat) (e : SramErr)
  | brickStepComplete (c : CoreId) (b : BrickId)
  | brickSwap (c : CoreId) (b : BrickId) (full : Nat)
  | anchorTableWritten (c : CoreId) (h : Handle) (step : Nat) (at_ : Nat)
  | groupPartialAdd (c : CoreId) (h : Handle) (step group pass : Nat) (residue : List Nat) (e : SramErr)
  | arrCntclr (c : CoreId)
  -- Gauge
  | gaugeSampleStart (c : CoreId) (h : Handle)
  | gaugeSampleDone (c : CoreId) (h : Handle) (waited : Nat)
  -- output path
  | outputChunk (c : CoreId) (h : Handle) (denied : Nat) (e : SramErr)
  | outputPathEnd (c : CoreId) (h : Handle)
  -- Sieve
  | imatchRowEnd (c : CoreId) (h : Handle)
  | mergeTreeDone (c : CoreId) (cmd : Bool)
  | hubMergeDeliver (d : DispId) (row : Nat)
  | scoutPassDone (c : CoreId) (h : Handle)
  -- vector engine and Rake
  | programStoreLoad (c : CoreId)
  | engineQueueAdmit (c : CoreId) (e : Engine)
  | vprogStart (c : CoreId)
  | vprogDone (c : CoreId)
  | rakeDone (c : CoreId)
  -- slots and windows
  | slotDeclare (c : CoreId) (n : SlotId) (cfg : Bool) (v : W32)
  | slotClear (c : CoreId) (n : SlotId)
  | slotAccessResume (c : CoreId) (i : Nat)
  | slotTimeout (c : CoreId) (i : Nat)
  | inboundAccess (r : Req) (c : CoreId) (off : BitVec 20) (x : Access)
  -- DMA
  | dmaGo (r : Req) (c : CoreId) (ch : ChanId)
  | dmaHalt (r : Req) (c : CoreId) (ch : ChanId)
  | dmaRowComplete (c : CoreId) (ch : ChanId) (e : SramErr) (de : LineErrs)
  | dmaDescriptorComplete (c : CoreId) (ch : ChanId)
  | stagingHalfRefill (c : CoreId) (h : Handle) (weight : Bool) (de : LineErrs)
  -- Pantry
  | pantryWb (r : Req) (g : Fin 64)
  | pantryWbinv (r : Req) (g : Fin 64)
  | pantryInvz (r : Req) (g : Fin 64)
  | pantryOpDone
  | pantryCntsel (r : Req) (g : Fin 64)
  -- Seed Tray
  | dispenserPresent (c : CoreId)
  | deferredArm (d : DispId)
  | claimServe (d : DispId)
  | commitResolve (c : CoreId) (h : Handle)
  | partialSumArrival (c : CoreId) (h : Handle)
  | bump (r : Req) (d : DispId)
  | rewind (r : Req) (d : DispId)
  | disarm (r : Req) (d : DispId)
  -- sequencer
  | ringWriteIndex (r : Req) (c : CoreId) (idx : Byte)
  | layer (c : CoreId)
  | layerContextFree (c : CoreId)
  | setprec (c : CoreId)
  | claim (c : CoreId)
  | loadw (c : CoreId)
  | loada (c : CoreId)
  | preload (c : CoreId)
  | scout (c : CoreId)
  | step (c : CoreId)
  | tileOpen (c : CoreId) (h : Handle)
  | drain (c : CoreId)
  | commit (c : CoreId)
  | commitSend (c : CoreId) (h : Handle)
  | commitStore (c : CoreId) (h : Handle)
  | reducePart (c : CoreId)
  | reduceSum (c : CoreId)
  | reduceGroup (c : CoreId)
  | contributionSend (c : CoreId) (h : Handle)
  | gaugeForce (c : CoreId)
  | gaugeSkip (c : CoreId)
  | vprog (c : CoreId)
  | rake (c : CoreId)
  | conv (c : CoreId)
  | dma (c : CoreId)
  | sort (c : CoreId)
  | merge (c : CoreId)
  | nop (c : CoreId)
  | waitslot (c : CoreId)
  | waitslotResume (c : CoreId)
  | signalFull (c : CoreId)
  | signalRelease (c : CoreId)
  | signalRemoteFull (c : CoreId)
  | signalRemoteRelease (c : CoreId)
  | fence (c : CoreId)
  | fenceRelease (c : CoreId)
  | branch (c : CoreId)
  | loopStart (c : CoreId)
  | loopEnd (c : CoreId)
  | event (c : CoreId)
  | halt (c : CoreId)
  | seqGo (r : Req) (c : CoreId)
  | seqStop (r : Req) (c : CoreId)
  | seqClr (r : Req) (c : CoreId)
  -- trellis loader
  | trlGo (r : Req) (flash : Bool)
  | trlImageReadDone (flash : List Byte)
  | trlVerifyDone
  | cellarTrainDone (failed : List (Fin 16))    -- the channels that fail to train
  | quiescePoint
  | quiesceTimeout
  | partitionApplyDone
  -- Cellar
  | patrolScrubLine (e : DramErr)
  | moduleThermal (ch : Fin 16) (degC : Int)
  | cellarFillGo (r : Req)
  | cellarFillHalt (r : Req)
  | cellarFillDone
  -- Tchiuth
  | flitReceive (p : PortId) (flit : List Byte) (fecCorrected fecUncorrectable : Bool)
  | flitRetryTimeout (p : PortId)
  | tchRetrain (r : Req) (p : PortId)
  | tchDisable (r : Req) (p : PortId)
  | tchTrainDone (p : PortId) (t : TrainResult)
  | tchLinkDown (p : PortId)
  | tchForward (p : PortId)
  | tchWrite (p : PortId)
  | tchRead (p : PortId)
  | tchSignal (p : PortId)
  | tchWack (p : PortId)
  | tchRdata (p : PortId)
  | tchSack (p : PortId)
  | tchNack (p : PortId)
  | tchTimeout (tag : Fin 65536)
  | tchSum (p : PortId)
  | tchResult (p : PortId)
  | tchStaged (p : PortId)
  | tchCommit (p : PortId)
  | tchAbort (p : PortId)
  | tchBarup (p : PortId)
  | tchBardown (p : PortId)
  | groupOpen (r : Req) (g : GroupId) (epoch : Fin 65536)
  | groupAbort (r : Req) (g : GroupId)
  | roundTimeout (g : GroupId) (tile : Nat)
  -- host ports and Hacor Transport
  | ethFrameReceive (p : Fin 4) (f : Frame) (e : SramErr)
  | hxtOpen (assign : SessId) (inRate : Bool)
  | hxtAuth
  | hxtClose
  | hxtWrite
  | hxtRead (de : LineErrs)
  | submitRing
  | submitReg
  | submitSignal
  | submitAperture
  | submitBindkey
  | hxtFence
  | hxtKill
  | hxtStat
  | orderedMessageStart (n : CtxId)
  | hxtMessageComplete (n : CtxId) (seq : Nat)
  | hxtAckonly
  | ackTimer (n : CtxId)
  | hxtRtoExpiry (n : CtxId) (seq : Nat)
  | eventMessageSend (n : CtxId)
  | halfopenTimeout (n : CtxId)
  | lingerExpiry (n : CtxId)
  | authLockoutExpiry (tenant : W32)
  | gateEntryExpiry (p : Fin 4)
  | egressFrameDone (p : Fin 4)
  | sesKillGo (r : Req) (n : SessId)
  | tenantWrite (r : Req) (i : Fin 4096)
  | tenantClear (r : Req) (i : Fin 4096)
  -- security
  | provisionOwner (hash : BitVec 512)
  | rollbackAdvance (r : Req) (i : Fin 64)
  | partitionKill (r : Req) (p : PartId)
  | killScrubDone (p : PartId)
  | debugUnlock (r : Req)
  | vendorUnlockEffect
  | debugExpiry
  | attestationReport (r : Req)
  | attestationDone
  | coldReset (mods : List (Fin 16 × Module))    -- the modules in place, with their channels
  | porchFirmwareLoaded (copyA copyB : List Byte) (pufOk : Bool)
  | hubFirmwareLoaded (copyA copyB : List Byte)
  | sramZeroFillDone
  -- power, Porch and Meter
  | quadGate (q : QuadId)
  | quadUngate (q : QuadId)
  | qoff (r : Req) (q : QuadId) (alsoOn : Bool)
  | qon (r : Req) (q : QuadId) (alsoOff : Bool)
  | quadPowerOnDone (q : QuadId)
  | d3Request (r : Req)
  | d3EntryDone
  | wakeMgmtFrame (f : HxtFrame)
  | wakePin (pclk : Nat)
  | wakeTimer
  | d3WakeDone
  | sensorSample (x : Readings)
  | thermalStepTick
  | prochotIn (pclk : Nat)
  | i3cRead (off : BitVec 16) (len : Nat)
  | i3cWrite (off : BitVec 16) (data : List Byte)
  | i3cAddressAssign (setdasa : Bool) (static_ dyn : BitVec 7)
  | ptpSync (x : Sync)
  | ptpSyncLoss
  | meterCharge
  | calscaleUpdate (railsEnergy packageEnergy : Nat)
  | budgetWindowBoundary (session : Bool) (i : Nat)
  | sessionBudgetWrite (r : Req) (lo : Bool) (v : W32)
  | hubWatchdog
  -- reliability and reset
  | evtRdidxWrite (r : Req) (v : W32)
  | warmReset (r : Req) (alsoPreset : Bool)
  | wrstPin (pclk : Nat)
  | partitionReset (r : Req) (p : PartId)
  | coreQuiesce (r : Req) (c : CoreId) (force alsoEnable : Bool)
  | coreQuiesceForce (r : Req) (c : CoreId)
  | coreQuiesceScrub (c : CoreId)
  | coreEnable (r : Req) (c : CoreId)
  | tileForce (r : Req) (c : CoreId)
  | suspectClear (r : Req) (c : CoreId)
  -- electrical
  | pmbusAlert (pclk : Nat) (faults : List (Fin 10))
  | railInTolerance (rail : Fin 10)
  | railSequenceTimeout (rail : Fin 10)
  | avsUpdate (q : QuadId) (targetMv : Nat)
  -- links and the table's last rows
  | ethLinkTrainDone (p : EthId) (ok preempt : Bool)
  | ethLinkLoss (p : EthId)
  | mgmtFrameReceive (f : Frame) (assign : Fin 4)
  | rekeyTimeout (n : CtxId)
  | convDone (c : CoreId)
  | sortDone (c : CoreId)
  | coreScrubDone (c : CoreId)
  | debugTokenCheckDone
  | porstNAssert
  | standbyPowerLoss
  | prochotNRelease
  | cbsCreditRecovered (p : Fin 4) (q : Fin 8)
  | decommission
  deriving DecidableEq, Repr

end Sys2Proof
end

