-- ==== Sys2Proof/Config.lean ====
section
/-! DEFINITION. What the manual leaves open, as constants without a body: nothing in Lean can evaluate them, so a
statement about the model holds whatever they are (guide: free values). -/
namespace Sys2Proof

/-- Free value number `n` of the run (DESIGN CHOICE, log 8): drawn seeds, keys, nonces and challenges (R354, R410, R492), sums that
R230 leaves undefined, erased or undefined bytes read by an outside observer. `State.free` counts `n` up. -/
opaque Config.freeWord : Nat → Nat

/-- The key that the random generator draws for a key version: 512 bits, the data key in the low half (R409, R410, R492).
(DESIGN CHOICE, log 13) -/
opaque Config.lineKey : Nat → BitVec 512

/-- What a byte of the Cellar reads as that the DRAM may have lost at a cold reset (R489), by the era it was written in and
its address. (DESIGN CHOICE, log 6; DEDUCED, log 90) (DESIGN CHOICE, log 120) -/
opaque Config.lostByte : Nat → Nat → Byte

/-- SALT and ITER with which an OPEN that names no tenant is answered (R469), by the tenant ID asked.
(DESIGN CHOICE, log 120) -/
opaque Config.fakeSalt : Nat → Nat

/-- The 256-bit secret that a device reconstructs from its PUF and PUFHELP (R490). (DESIGN CHOICE, log 5) -/
opaque Config.pufSecret : BitVec 256
/-- The identity key where none of the candidates that HKDF can give is in range (R490), by those candidates.
(DESIGN CHOICE, log 120) -/
opaque Config.lateKey : List Byte → Nat

/-- The fuse fields burned at manufacture (R483), one value per part (DESIGN CHOICE, log 5). -/
opaque Config.serial : W64
/-- MACBASE (R483). (DESIGN CHOICE, log 5) -/
opaque Config.macBase : BitVec 48
/-- VENDORHASH (R483), byte 0 in the low bits. (DESIGN CHOICE, log 5) -/
opaque Config.vendorHash : BitVec 512
/-- The identity certificate's bytes in flash (R491). (DESIGN CHOICE, log 120) -/
opaque Config.certificate : List Byte
/-- The ROM version that the attestation report carries (R494). (DESIGN CHOICE, log 120) -/
opaque Config.romVersion : W32
/-- The AVS code of a quadrant at its cold-boot calibration, in mV (R563, R567), quadrant by quadrant.
(DESIGN CHOICE, log 120) -/
opaque Config.avsCode : Nat → Nat

/-- Mesh links between a core and its die bridge; the spec does not say where the bridge meets the mesh (R21, R522).
(DESIGN CHOICE, log 120) -/
opaque Config.bridgeLinks : Nat → Nat

/-- The 16-bit type of an attestation log entry and the stage number it carries, by the kind of entry (R493; kinds:
`Machine.attSTAGE` and after). The spec gives neither code. (DESIGN CHOICE, log 23) -/
opaque Config.attestType : Nat → Nat
/-- The detail bytes of an attestation log entry, by the number of the entry (R493). (DESIGN CHOICE, log 23) -/
opaque Config.attestDetail : Nat → Nat

end Sys2Proof
end

