-- ==== Sys2Proof/Machine/State.lean ====
section
/-! DEFINITION. The state of the block: every register, memory, queue, counter, mode and pin the spec gives it, as plain
data. Registers live in `State.regs` by device physical address, except the read-only fields whose home is one of the
structures below (their register shows them: Machine/RegView.lean). -/
namespace Sys2Proof.Machine

/-! ### Slots, stalled accesses and DMA (R270 to R292) -/

/-- Slot states (R273). -/
inductive SlotSt where
  | empty | filling | full | draining
  deriving DecidableEq, Repr

/-- A slot's running state: its state and the CMASK bits that have released since it became FULL (R273). -/
structure Slot where
  st : SlotSt := .empty
  rel : Nat := 0
  deriving DecidableEq, Repr

/-- The engine whose access to a slot stalls (R275). -/
inductive StallBy where
  | tile (h : Nat) (weight : Bool)
  | out (h : Nat)                  -- the output path, with tile h
  | anch (h row : Nat)             -- the anchor unit, with a step row of tile h
  | eng (e : Engine)               -- an engine with a command
  | prog                           -- the vector engine, loading program store 0
  | desc                           -- the sequencer, with a layer descriptor
  | dma (ch : Nat)
  | seq
  | inbound (r : Req)
  deriving DecidableEq, Repr

/-- A stalled slot access (R275): who, which slot, read or write, where, and the data of a write. (DEDUCED, log 54) -/
structure Stall where
  who : StallBy
  slot : Nat
  wr : Bool
  off : Nat
  len : Nat
  data : List Byte
  tag : Option Nat := none   -- an access from outside: its message's SEQ or its packet's TAG
  at_ : Option Nat := none   -- the core whose slot it is, where that is another core
  pos : Nat := 0             -- an HXT access: its place in the message's payload
  deriving DecidableEq, Repr

/-- DMA channel states (R306). -/
inductive ChSt where
  | idle | run | wait | halted
  deriving DecidableEq, Repr

/-- What a channel's transfer serves: a descriptor chain (R277), a tile's operand fetch (R356), a COMMIT store (R364). -/
inductive ChUse where
  | chain
  | fetch (h : Nat) (weight : Bool)
  | store (h : Nat)
  deriving DecidableEq, Repr

/-- A DMA channel (R277 to R284, R306). -/
structure Chan where
  st : ChSt := .idle
  err : Nat := 0
  rows : Nat := 0            -- rows completed in the current descriptor
  desc : BitVec 512 := 0     -- the descriptor in force
  daddr : Nat := 0           -- its address
  loaded : Bool := false     -- the descriptor has been read
  zoff : Nat := 0            -- ZENC: data bytes written so far
  halt : Bool := false       -- HALT written, the row in flight not yet over (R292)
  use_ : ChUse := .chain
  acks : Nat := 0            -- remote acknowledgements outstanding (R284)
  go : Nat := 0              -- chain length started, counted (a GO begins a chain)
  rbuf : List Byte := []     -- ZENC, ZDEC: data of the row that has come from a remote source (R277)
  roff : List Byte := []     -- ZDEC: the row's two ROWOFF entries from a remote source
  rgot : Nat := 0            -- what of the row was asked of a remote source: 0 nothing, 1 its ROWOFF entries, 2 its data
  sent : Bool := false       -- the row's remote writes are sent and not all acknowledged (R283, R284)
  deriving DecidableEq, Repr

/-! ### Array, tiles, Gauge, Sieve and output path -/

/-- One output's accumulator (R115, R106): value in window units, marks, aligned group partials, anchor (R102). -/
structure Acc where
  val : Int := 0
  nan : Bool := false
  sat : Bool := false
  cnt : Nat := 0
  anchor : Int := 0
  anch : Bool := false       -- its anchor is written (R104)
  active : Bool := true      -- scout mask bit (R212)
  deriving DecidableEq, Repr

/-- A tile's operand binding by LOADW or LOADA (R356). Fetched data is kept per chunk as the stored codes, one list
per row (DEDUCED, log 14); a chunk's row also says which of its 16-element blocks were malformed away. -/
structure Binding where
  bound : Bool := false
  fetch : Bool := false
  ch : Nat := 0
  sbase : Nat := 0
  slen : Nat := 0
  kch : Nat := 0
  dslot : Nat := 0
  sslot : Nat := 0
  scales : List Byte := []            -- block-scale bytes of the tile's rows over the full K
  sels : List Nat := []               -- table selects (R46)
  scaled : Bool := false              -- the scale bytes have been fetched
  chunks : List (List (List Nat)) := []
  failed : Bool := false              -- the channel halted before the range was filled (R578)
  asStored : List Nat := []           -- slots, as 64 c + n, whose stalled read timed out: their data is read as stored (R275)
  deriving DecidableEq, Repr

/-- Handle states (R355). -/
inductive HSt where
  | free | claimed | opened | output
  deriving DecidableEq, Repr

/-- Gauge progress of an attempt (R149, R150). -/
inductive GaugeSt where
  | none | due | running | finished
  deriving DecidableEq, Repr

/-- Scout progress of an attempt (R209). -/
inductive ScoutSt where
  | off | due | running | done
  deriving DecidableEq, Repr

/-- Output-path progress (R224). -/
inductive OutSt where
  | idle | running | ended
  deriving DecidableEq, Repr

/-- A run of the index-match path (R202): its row and its records (column, sum), ascending. -/
structure Run where
  row : Nat
  recs : List (Nat × Int)
  deriving DecidableEq, Repr

/-- A COMMIT waiting on a tile (R355). -/
structure CommitReq where
  sd : Nat
  store : Bool
  ch : Nat
  sent : Bool := false
  accepted : Option Bool := none
  deriving DecidableEq, Repr

/-- Settings a tile runs under, latched when STEP opens it (R555). -/
structure Latched where
  skipdis : Bool := false
  lockstep : Bool := false
  zskdis : Bool := false
  scdis : Bool := false
  gdis : Bool := false
  deriving DecidableEq, Repr

/-- One tile, by handle (R355). -/
structure Tile where
  st : HSt := .free
  heldAt : Option Nat := none          -- a requeue or rerun that the Meter holds (R158), by arrival
  streamed : Bool := false             -- every brick has completed its last step
  rigor : Bool := false                -- the rerun of R156 has had a rigorous miss too
  ctx : Nat := 0                       -- the layer context it belongs to
  rec_ : BitVec 128 := 0               -- the claim record (R324)
  setRung : Nat := 0                   -- rung set by SETPREC (R357)
  rung : Nat := 0                      -- rung of the attempt
  reran : Bool := false                -- R156: this attempt is the rerun at the same rung
  began : Bool := false                -- its first attempt has opened: it counts among the tiles in progress (R117)
  opened : Bool := false               -- the accumulators are open
  guarded : Bool := false              -- an attempt of it has begun after SPEC_REPLAY (R215)
  bindA : Binding := {}
  bindW : Binding := {}
  pre : Option (Bool × Nat × Nat) := none   -- PRELOAD: residual?, FMT, PSLOT
  gforce : Bool := false
  gskip : Bool := false
  latched : Latched := {}
  acc : List Acc := []
  added : List (Nat × Nat × Nat) := []      -- (step, group, pass) already added
  ended : Bool := false                -- accumulation has ended
  tsw : BitVec 32 := 0                 -- flags gathered by this attempt (R121)
  gst : GaugeSt := .none
  checked : Bool := false              -- step 3 of R169 has let the attempt continue
  sst : ScoutSt := .off
  oslot : Option Nat := none           -- DRAIN's output slot
  pass2 : Bool := false                -- scouted: the full pass streams (R209)
  aslots : List Nat := []              -- slots its auxiliary operand was read from (class VEC)
  outStored : List Nat := []           -- slots, as 64 c + n, whose read by the output path timed out (R275)
  outSt : OutSt := .idle
  chunk : Nat := 0                     -- next chunk of R223
  res : List (W32 × W32) := []         -- results (E0, E1) of the chunks issued, step-major
  jit : Bool := false                  -- the pass in the output path is the JIT rerun (R162)
  nzIn : Nat := 0                      -- values non-zero on entry to the converter (R161)
  nzLost : Nat := 0                    -- of these, written as the code for zero
  satOut : Bool := false               -- an element of this pass saturated (R160)
  zoff : Nat := 0                      -- bytes of ZRL streams this pass has written (R182)
  amax : W32 := 0                      -- amax of the pass, FP32 (R164)
  top : Bool := false                  -- this attempt has raised LADDER_TOP
  partSent : Nat := 0                  -- REDUCE PART: 0 none, 1 issued, 2 arrived at the tree
  sumFrom : Bool := false              -- REDUCE SUM filled the accumulators
  grp : Option Nat := none             -- REDUCE GROUP's group
  contributed : Bool := false
  released : Bool := false             -- the group's round has committed: the held DRAIN goes on (R431)
  commit : Option CommitReq := none
  row : Nat := 0                       -- index-match: rows ended
  runs : List Run := []                -- index-match: runs not yet merged into a row's final run
  finals : List Run := []              -- index-match: final runs of ended rows
  imNan : List (Nat × Nat) := []       -- index-match: (row, column) of outputs that a NaN operand has reached (DESIGN CHOICE, log 131)
  deriving DecidableEq, Repr

/-- One brick (R79 to R89). Times count ACLK from the tile's start. -/
structure Brick where
  begun : Nat := 0           -- steps begun
  done : Nat := 0            -- steps completed
  beginT : Nat := 0
  doneT : Nat := 0
  cost : Nat := 0            -- cost of the step in progress
  fetched : Bool := false    -- the step in progress received a vector (R91)
  promo : Nat := 0           -- ACLK of its early promotions (R99)
  active : Option Nat := none    -- the load (by order of loading) in the active registers
  ready : Nat := 0           -- when that load's registers were full
  swapT : Nat := 0           -- when it swapped that load in (R81)
  fulls : List Nat := []     -- when its shadow registers were full, for each swap of this streaming, oldest first (R80)
  lanes : List (List Nat) := []      -- active registers: 16 rows, by physical column; what is not listed is 0 (R79)
  shadow : List (List Nat) := []     -- shadow registers, likewise
  deriving DecidableEq, Repr

/-- Book-keeping of one step over all bricks (R86, R89). -/
structure StepInfo where
  bricks : Nat := 0          -- bricks that have completed it
  lastT : Nat := 0           -- latest completion
  deriving DecidableEq, Repr

/-- The array of a core. -/
structure Arr where
  cur : Option Nat := none   -- the handle whose tile streams
  queue : List Nat := []     -- opened tiles that wait to stream
  bricks : Sparse Brick := []
  steps : Sparse StepInfo := []
  anchT : Sparse Nat := []   -- by step row: the ACLK after its last anchor was written; 0 before the tile's start
  lstall : List (Nat × Nat) := []    -- the ACLK already counted in ARR_LSTALL, as disjoint intervals (first, one past the last)
  deriving DecidableEq, Repr

/-! ### Sequencer (R341 to R371) -/

/-- A layer context (R341, R351): the descriptor and what LAYER resolved. -/
structure Ctx where
  id : Nat := 0
  desc : BitVec 2048 := 0
  alen : Nat := 0
  bkt : Nat := 0
  lseed : W64 := 0
  gseed : W64 := 0
  defreg : Nat := 0          -- default regime recorded by the dispenser (R396)
  gdef : Nat := 0            -- GRATE, GS, GMODE, GQ, UL in force, laid out as GAU_DEFAULT
  exact_ : Bool := false
  nextRung : Nat := 0        -- SETPREC NEXT
  prog : Bool := false       -- program store 0 holds its image (R353)
  deriving DecidableEq, Repr

/-- What a blocking command waits for (R345). -/
inductive Wait where
  | none
  | present (x : Ctx)                  -- LAYER: presented, the dispenser has not answered
  | layerBusy (x : Ctx)                -- LAYER: the dispenser holds another LSEQ (R322)
  | layerCtx (x : Ctx)                 -- LAYER: no free context (R352)
  | claim (h sd raddr : Nat)
  | channel                            -- LOADW, LOADA or DMA: the channel is busy
  | scout (h sd : Nat)
  | commit (h : Nat)
  | slot (n : Nat)                     -- WAITSLOT, its operands read again at resume
  | fence
  | engine (e : Engine)                -- the engine's queue place is taken
  | branch                             -- VPROG and RAKE issued before are not complete
  deriving DecidableEq, Repr

/-- A loop: remaining count and start index (R366). -/
structure Loop where
  cnt : Nat
  start : Nat
  deriving DecidableEq, Repr

/-- A VPROG, RAKE, CONV, SORT or MERGE at its engine (R345). -/
structure Job where
  eng : Engine
  cmd : BitVec 128
  vlen : Nat
  ctx : Nat
  running : Bool := false
  asStored : List Nat := []  -- slots, as 64 c + n, whose stalled read timed out: their data is read as stored (R275)
  deriving DecidableEq, Repr

/-- The sequencer of a core. -/
structure Seq where
  halted : Bool := true
  fault : Bool := false
  rd : Nat := 0
  wr : Nat := 0
  loops : List Loop := []    -- L0 first
  tout : Bool := false   -- TO, a WAITSLOT that ran out (R360)
  wait : Wait := .none
  stop : Bool := false       -- STOP during a blocking command other than WAITSLOT (R367)
  ctxs : List Ctx := []      -- older first, at most two
  nextCtx : Nat := 0
  barriers : Nat := 0        -- partition barriers passed (R363)
  atBarrier : Bool := false  -- waits at a PART fence with its own conditions met
  jobs : List Job := []
  sigs : Nat := 0            -- SIGNALs not yet acknowledged (R363)
  reds : Nat := 0            -- partial-sum messages not yet acknowledged
  parts : List Nat := []     -- handles whose partial-sum message is under way, in the order in which they were sent (R22)
  lasterr : W32 := 0
  asStored : List Nat := []  -- slots, likewise, whose wait by the LAYER at the read index timed out (DESIGN CHOICE, log 133)
  deriving DecidableEq, Repr

/-- Summary of a VPROG or RAKE before it is latched (R250). -/
structure Summary where
  smax : W32 := 0
  ssum : W32 := 0
  scnt : W32 := 0
  sflg : W32 := 0
  deriving DecidableEq, Repr

/-- The vector engine and the Rake of a core (R237, R250). -/
structure Vec where
  tregs : Sparse W32 := []      -- T0 to T7: element i of Tn at 1,024 n + i
  masks : Sparse Bool := []     -- M0 to M7, likewise
  eregs : List W32 := List.replicate 8 0   -- E0 to E7, as the last element that ran a program left them
  store0 : BitVec 1408 := 0     -- program stores (R236)
  store1 : BitVec 1408 := 0
  cost0 : Nat := 0              -- costs of the programs loaded into them; 0: none (R258)
  cost1 : Nat := 0
  asStored : List Nat := []     -- slots whose wait by the load of store 0 timed out, as 64 c + n (R275)
  deriving DecidableEq, Repr

/-- EVT_CSTATE (R561). -/
inductive CoreSt where
  | active
  | quiescing (force : Bool) (leave : Bool)   -- leave: the quiesce of R393, which takes the core out of its partition
  | disabled
  | fenced
  deriving DecidableEq, Repr

/-- One core (R19). -/
structure Core where
  cst : CoreSt := .fenced
  scrub : Bool := false              -- its scrub of R548 runs
  owner : Option Nat := none         -- owning session (R477)
  lastFloor : Nat := 0               -- floor rung of its last claim record (R175)
  arr : Arr := {}
  tiles : Sparse Tile := []          -- by handle
  gauge : List Nat := []             -- sampled tiles in order: the Gauge holds the first two and computes the first (R150)
  imTable : List (Nat × Int) := []   -- index-match table (R200): column, sum; at most 256
  seq : Seq := {}
  vec : Vec := {}
  slots : Sparse Slot := []
  stalls : List Stall := []
  chans : Sparse Chan := []
  cb : Sparse Byte := []             -- codebook and table memory, 16 KiB (R45, R243)
  act : Sparse Nat := []             -- activity counts of the Meter's running period, by class (R522)
  ceCnt : Sparse Nat := []           -- SRAM_CE corrections since the last record, by structure (R536)
  ceTime : Sparse (Option Nat) := []   -- time of the last SRAM_CE record, by structure (R536)
  deriving DecidableEq, Repr

/-! ### Seed Tray (R312 to R340) -/

/-- Dispenser states (R322). -/
inductive DispSt where
  | idle | armed | draining
  deriving DecidableEq, Repr

/-- An item of the return queue: a returned tile or a close item (R327, R328). (DESIGN CHOICE, log 20) -/
structure QItem where
  tile : Nat
  close : Bool := false
  deriving DecidableEq, Repr

/-- A claim that has reached the dispenser and is not answered (R325, R326). -/
structure ClaimReq where
  core : Nat
  h : Nat
  arr : Nat := 0             -- its arrival, counted over the Seed Tray
  held : Bool := false       -- held by the Meter
  deriving DecidableEq, Repr

/-- A dispenser. -/
structure Disp where
  st : DispSt := .idle
  lseq : Nat := 0
  complete : Bool := false   -- IDLE holding a complete layer (R322)
  desc : BitVec 2048 := 0    -- descriptor of the armed layer
  alen : Nat := 0
  bkt : Nat := 0
  epoch : Nat := 0
  next : Nat := 0            -- issue counter
  queue : List QItem := []
  claims : List ClaimReq := []
  waiting : List Nat := []   -- cores whose LAYER waits for IDLE, in order of arrival
  done : Nat := 0
  retry : Nat := 0
  spec : Nat := 0
  floor : Nat := 0
  guard : Bool := false
  escd : Bool := false
  defreg : Nat := 0          -- the partition's default regime when it armed (R396)
  lseed : W64 := 0
  gseed : W64 := 0
  parts : Sparse Nat := []   -- accepted part commits by output tile, keyed by its part-0 index (R328)
  quiesced : Bool := false   -- claims held for a partial load (R393)
  deriving DecidableEq, Repr

/-- An entry of the claim table (R323). -/
structure Claim where
  core : Nat
  h : Nat
  disp : Nat
  tile : Nat
  close : Bool
  epoch : Nat
  stale : Bool := false
  deriving DecidableEq, Repr

/-- A part's partial sums in the partition tree (R328), held apart until its commit is accepted. -/
structure PartSum where
  disp : Nat
  tile : Nat
  epoch : Nat
  ptag : Nat
  regime : Nat
  flags : Nat
  acc : List Acc
  deriving DecidableEq, Repr

/-- A row of the hub merge table (R206): its count of accepted parts and the core that committed the last one. A row whose parts are
all accepted has left the table's count and keeps its layer, as the dispenser held it, until it is delivered. -/
structure HubRow where
  disp : Nat
  row : Nat
  cnt : Nat
  core : Nat := 0
  h : Nat := 0
  full : Bool := false
  layer : Disp := {}
  deriving DecidableEq, Repr

/-- The amax of a tile whose rows the hub merge delivers (R164): over the rows delivered so far. -/
structure HubAmax where
  disp : Nat
  lseq : Nat
  tile : Nat
  amax : W32
  deriving DecidableEq, Repr

/-- The Seed Tray. -/
structure Sdt where
  disps : Sparse Disp := []
  arrived : Nat := 0             -- claims arrived so far
  claims : List Claim := []
  partSums : List PartSum := []
  sums : List PartSum := []      -- sums of output tiles, keyed by the part-0 index
  hub : List HubRow := []
  hubAmax : List HubAmax := []
  commits : List (Nat × Nat) := []   -- commits sent and not resolved, oldest first: (core, handle)
  deriving DecidableEq, Repr

/-! ### Pantry and Cellar (R288 to R291, R402 to R412) -/

/-- A Pantry line (R288): its line number, its 128 bytes, dirty and poison marks (R407). -/
structure PLine where
  line : Nat
  data : List Byte
  dirty : Bool
  poison : Bool := false
  deriving DecidableEq, Repr

/-- A maintenance operation (R291). -/
inductive POp where
  | wb | wbinv | invz
  deriving DecidableEq, Repr

/-- The Pantry: lines keyed by (slice * 768 + set) * 16 + way, pseudo-LRU bits keyed by slice * 768 + set. -/
structure Pantry where
  lines : Sparse (Option PLine) := []
  plru : Sparse Nat := []
  op : Option (POp × Nat) := none      -- the operation PNT_OPCTL started, with its group
  lastGroup : Nat := 0
  deriving DecidableEq, Repr

/-- The fill engine's user (R412). -/
inductive FillFor where
  | soft
  | zkill (kslot : Nat) (plain : Bool) (part : Nat)
  deriving DecidableEq, Repr

/-- A fill: who asked for it, first address, length. -/
structure Fill where
  who : FillFor
  base : Nat
  size : Nat
  pat : W32
  deriving DecidableEq, Repr

/-- State of a key slot (R440). -/
inductive KeySt where
  | unused | partition | session | locked
  deriving DecidableEq, Repr

/-- A key slot: its state and which of the keys drawn so far it holds (DESIGN CHOICE, log 13). -/
structure KSlot where
  st : KeySt := .unused
  ver : Nat := 0
  bound : Option Nat := none     -- the session a session key is bound to (R463)
  deriving DecidableEq, Repr

/-- The Cellar controllers. -/
structure Cellar where
  rate : Nat := 0              -- CLR_CFG.RATE; 0 untrained
  gib : Nat := 0
  mods : List (Fin 16 × Module) := []  -- the modules read at cold reset, with their channels (R403)
  initerr : Nat := 0
  sref : Bool := false
  poison : List Nat := []      -- poisoned line numbers on the DRAM (R407)
  keyOf : Sparse Nat := []     -- by line number: 0 written as plaintext, else the key version it was written under
  kslots : Sparse KSlot := []
  vers : Nat := 0              -- key versions drawn so far
  era : Nat := 0               -- how often the DRAM may have lost its contents (R489)
  eraOf : Sparse Nat := []     -- by line number: the era it was last written in
  patrol : Nat := 0            -- next line of the patrol pass, in channel address order
  passes : Nat := 0
  hot : List Nat := []         -- channels throttled (R408)
  warm : List Nat := []        -- channels at doubled refresh
  ceTime : Sparse (Option Nat) := []   -- by channel: time of the last CELLAR_CE record (R406)
  fill : Option Fill := none           -- the software fill that runs or waits behind kill fills
  fillSt : Nat := 0            -- CLR_FILLSTAT.STATE
  fillErr : Nat := 0
  kills : List Fill := []      -- kill fills, the first one running (R412)
  deriving DecidableEq, Repr

/-! ### Tchiuth (R413 to R442) -/

/-- A packet (R420), fields by their names there. -/
structure Packet where
  typ : Nat
  dst : Nat
  src : Nat
  tag : Nat := 0
  len : Nat := 0
  addr : Nat := 0
  status : Nat := 0
  grp : Nat := 0
  epoch : Nat := 0
  ptag : Nat := 0
  regime : Nat := 0
  tile : Nat := 0
  tdigest : Nat := 0
  first : Nat := 0
  cntm1 : Nat := 0
  flags : Nat := 0
  gcnt : Nat := 0
  payload : List Byte := []
  deriving DecidableEq, Repr

/-- A flit the sender keeps (R415): its sequence number, its bytes and how often it has been sent. -/
structure Flit where
  seq : Nat
  bytes : List Byte
  sent : Nat
  deriving DecidableEq, Repr

/-- Port states (R442). -/
inductive PortSt where
  | down | training | up | failed
  deriving DecidableEq, Repr

/-- A Tchiuth port. (DESIGN CHOICE, log 58) -/
structure Port where
  st : PortSt := .down
  err : Nat := 0
  peer : Nat := 0
  peerPort : Nat := 0
  rtt : Nat := 0
  tries : Nat := 0
  txSeq : Nat := 0
  rxSeq : Nat := 0               -- next FSEQ expected
  rxAny : Bool := false          -- a flit has been received in order
  unacked : List Flit := []
  rxBuf : List Byte := []        -- packet bytes not yet a whole packet
  rxq : List Packet := []        -- packets delivered to the packet layer, oldest first
  credits : Sparse Nat := []     -- buffer credits returned, by virtual channel
  deriving DecidableEq, Repr

/-- What an outstanding remote request is for (R423). -/
inductive ReqFor where
  | dma (core ch : Nat)
  | signal (core : Nat)
  deriving DecidableEq, Repr

/-- An outstanding request (R423). `dest` is where the data of a READ goes. -/
structure OutReq where
  tag : Nat
  for_ : ReqFor
  dst : Nat
  addr : Nat
  dest : Nat := 0
  read : Bool := false
  deriving DecidableEq, Repr

/-- Group states (R442). -/
inductive GrpSt where
  | closed | opened | done | aborted
  deriving DecidableEq, Repr

/-- A reduction round at this member (R427 to R431). -/
structure Round where
  tile : Nat
  ptag : Nat := 0
  regime : Nat := 0
  flags : Nat := 0
  gcnt : Nat := 0
  acc : List Acc := []
  local_ : Option (Nat × Nat) := none     -- contributing core and handle
  got : Sparse Nat := []                  -- outputs received, by child device ID
  sentUp : Bool := false
  resGot : Nat := 0                       -- outputs of the RESULT received
  staged : Bool := false
  stagedKids : List Nat := []
  stagedUp : Bool := false
  committed : Bool := false
  deriving DecidableEq, Repr

/-- A group: its image record (R387) and its epoch. -/
structure Group where
  valid : Bool := false
  part : Nat := 0
  parent : Nat := 0xFFF
  pport : Nat := 0
  kids : List (Nat × Nat) := []           -- child device IDs with their ports
  tdigest : Nat := 0
  st : GrpSt := .closed
  cause : Nat := 0
  epoch : Nat := 0
  rounds : List Round := []
  committed : Nat := 0
  barLocal : Bool := false                -- this member has arrived at the barrier
  barKids : List Nat := []
  barUp : Bool := false
  deriving DecidableEq, Repr

/-- The Tchiuth block. -/
structure Tch where
  ports : Sparse Port := []
  reqs : List OutReq := []
  nextTag : Nat := 0
  groups : Sparse Group := []
  deriving DecidableEq, Repr

/-! ### Event log (R536 to R542) -/

/-- A record (R540). -/
structure Event where
  code : Nat
  cls : Nat
  part : Option Nat := none
  session : Option Nat := none
  core : Option Nat := none
  time : Nat := 0
  tile : Nat := 0
  epoch : Nat := 0
  disp : Nat := 0
  detail : Nat := 0
  deriving DecidableEq, Repr

/-! ### Host ports, transport and sessions (R443 to R482) -/

/-- Link states (R482). -/
inductive LinkSt where
  | down | training | up | failed
  deriving DecidableEq, Repr

/-- A frame in a host port's egress queue: queue number, length in bytes, the HXT frame or another answer. -/
structure EFrame where
  q : Nat
  bytes : Nat
  hxt : Option HxtFrame := none
  answer : Option FrameBody := none
  deriving DecidableEq, Repr

/-- An Ethernet port; number 4 is the management port. -/
structure Eth where
  link : LinkSt := .down
  speed : Nat := 0
  pver : Bool := false
  qmap : Nat := 0                 -- priority-to-queue map, 3 bits per priority (R388)
  owners : Nat := 0               -- owner bytes, 8 per queue (R388)
  cycle : Nat := 0
  baseofs : Nat := 0
  gcl : List (Nat × Nat) := []    -- gate states and interval in ns
  pos : Nat := 0                  -- entry in force
  egress : List EFrame := []      -- waiting frames, oldest first
  cur : Option EFrame := none     -- the frame in transmission
  neg : List Nat := []            -- queues whose shaper credit is negative (R448)
  deriving DecidableEq, Repr

/-- Session states (R473). -/
inductive SesSt where
  | free | halfopen | opened | rekey | closing | lost
  deriving DecidableEq, Repr

/-- A message from the host that is not yet complete (R457, R459). -/
structure InMsg where
  seq : Nat
  typ : Nat
  nfrag : Nat
  len : Nat
  frags : List Nat := []          -- fragments arrived
  head : List Byte := []          -- fragment 0's payload
  status : Nat := 0               -- STATUS so far
  data : List Byte := []          -- response data gathered
  begun : Bool := false           -- it has begun (R459); an ordered message: its frame has been taken
  no : Bool := false              -- its address or length is refused as a whole (R460)
  deriving DecidableEq, Repr

/-- A message of the device that is not yet acknowledged (R458). -/
structure OutMsg where
  seq : Nat
  typ : Nat
  resp : Bool
  payload : List Byte
  src : Option (Nat × Nat) := none    -- a READ's source, read again at retransmission: address, length
  tx : Nat := 0
  at_ : Nat := 0                      -- time of its first sending (R458)
  deriving DecidableEq, Repr

/-- A Cellar aperture (R463). -/
structure Aperture where
  rd : Bool
  wr : Bool
  base : Nat
  size : Nat
  deriving DecidableEq, Repr

/-- A session context. -/
structure Session where
  st : SesSt := .free
  tenant : Nat := 0              -- tenant record index
  tid : W32 := 0                 -- tenant ID asked
  known : Bool := false          -- a valid record suits the port (R469)
  part : Nat := 0
  rights : Nat := 0
  asked : Nat := 0
  fragsz : Nat := 1024
  txq : Nat := 0                 -- egress queue of its tenant (R466)
  port : Nat := 0
  kepoch : Nat := 0
  hn : List Byte := []           -- host nonce of the OPEN in progress
  opened : List Byte := []       -- its payload (R467), until AUTH is answered
  eph : Nat := 0                 -- the device's ephemeral private key, until AUTH is answered (R471)
  keys : List Byte := []         -- keys and salts of both directions (R471)
  resp : List Byte := []         -- the OPEN response sent
  wasLost : Bool := false        -- REKEY came from LOST
  inSeq : Nat := 0               -- next message number expected
  sack : List Nat := []          -- numbers above inSeq received
  inMsgs : List InMsg := []
  outSeq : Nat := 0              -- next device message number
  outMsgs : List OutMsg := []
  queued : List OutMsg := []     -- messages that REKEY or LOST holds back (R475)
  hostAck : Nat := 0             -- last ACK received
  unackedIn : Nat := 0           -- messages received since the device last sent a frame (R456)
  ackCtr : Nat := 0
  srtt : Nat := 0                -- ns
  rttvar : Nat := 0
  rto : Nat := 50000             -- ns
  closeSeq : Option Nat := none
  events : List Event := []
  discarded : Nat := 0           -- since the last EVENT message
  lost : Nat := 0                -- events lost in all
  aps : Sparse (Option Aperture) := []
  led : Nat := 0                 -- ledger, 2^-16 pJ
  t0 : Nat := 0                  -- budget window start
  spend : Nat := 0
  swin : W32 := 1                -- MTR_SWIN
  sbud : W64 := 0                -- MTR_SBUD
  deriving DecidableEq, Repr

/-- A tenant record (R466), 128 bytes as one number. -/
abbrev Tenant := BitVec 1024

/-- Transport and tenants. -/
structure Ses where
  ctx : Sparse Session := []
  mgmt : Sparse Session := []          -- the management sessions
  tenants : Sparse Tenant := []
  fails : Sparse Nat := []             -- consecutive AUTH failures by tenant ID
  locked : List Nat := []              -- tenant IDs answered BUSY (R470)
  inq : List (Nat × HxtFrame) := []    -- frames that passed R455, with their port, oldest first
  deriving DecidableEq, Repr

/-! ### Security (R483 to R504) -/

/-- Stage of the boot chain (R487, R488). -/
inductive Boot where
  | held            -- PORST_N low
  | rom             -- the Porch ROM reads
  | rails           -- the Porch firmware sequences the rails
  | zero            -- SRAM zero-fill
  | hubfw           -- the hub firmware is read and checked
  | image           -- the hub firmware loads the trellis image
  | ran             -- boot has ended
  | stopped         -- a stage stopped (R487, R490, R568)
  deriving DecidableEq, Repr

/-- Scrub of a partition (R500, R547). -/
structure Scrub where
  part : Nat
  kill : Bool
  invz : List Nat := []           -- slice groups whose INVZ still runs
  deriving DecidableEq, Repr

/-- An entry of the attestation log (R493). -/
structure Attest where
  typ : Nat
  stage : Nat
  time : Nat
  detail : Nat
  deriving DecidableEq, Repr

/-- The security block. (DESIGN CHOICE, log 5) -/
structure Sec where
  serial : W64 := Config.serial    -- fuses (R483)
  puf : BitVec 256 := Config.pufSecret  -- the secret of the PUF and PUFHELP (R490)
  vendorHash : BitVec 512 := Config.vendorHash  -- fuse: of the vendor debug key (R483)
  ownerHash : BitVec 512 := 0
  lc : BitVec 3 := 1
  dbgdis : BitVec 2 := 0
  rbctr : Sparse Nat := []
  boot : Boot := .rom
  bootCode : Nat := 0
  idkey : Bool := false
  log : List Attest := []
  logCnt : Nat := 0
  digest : BitVec 512 := 0
  porchRb : Option Nat := none     -- RBVAL of the running Porch firmware
  hubRb : Option Nat := none
  porchHash : BitVec 512 := 0
  hubHash : BitVec 512 := 0
  scrubs : List Scrub := []
  chal : W64 := 0
  tokBusy : Bool := false
  tokRes : Nat := 0
  tok : List Byte := []            -- the token being checked
  tokChal : W64 := 0               -- the challenge it is checked against
  dbg : Nat := 0                   -- debug levels open: bit 0 owner, bit 1 vendor
  dbgSession : Option Nat := none  -- the session an owner token names
  dbgJtag : Bool := false
  expiry : Nat := 0
  vendorDue : Bool := false        -- an accepted vendor token waits (R498)
  attBusy : Bool := false
  nonce : List Byte := []
  deriving DecidableEq, Repr

/-! ### Trellis loader (R372 to R401) -/

/-- A region (R386). -/
structure Region where
  base : Nat
  size : Nat
  part : Nat
  hub : Bool
  group : Nat
  nocache : Bool
  kslot : Nat
  ksrc : Nat
  zkill : Bool
  deriving DecidableEq, Repr

/-- The configuration an image gives (R374): what is in force, and what is retained (R509). -/
structure Cfg where
  parts : Sparse (BitVec 256) := []      -- PARTITION records in force, by PARTID (0: none)
  fence : BitVec 256 := 0
  shape : BitVec 512 := 0
  wheels : Sparse (BitVec 128) := []     -- WHEEL records by core
  pantry : Sparse W32 := []
  disps : Sparse W32 := []
  regions : List Region := []
  tports : Sparse (BitVec 64) := []
  groups : Sparse Group := []
  eths : Sparse Eth := []                -- port blocks
  meter : BitVec 512 := 0
  devid : Nat := 0
  imgver : W64 := 0
  rbidx : Nat := 0
  rbval : Nat := 0
  pseq : Nat := 0
  hash : BitVec 512 := 0
  phash : BitVec 512 := 0
  deriving DecidableEq, Repr

/-- TRL_STATUS.STATE and PHASE (R400). -/
inductive TrlSt where
  | idle | read | verify | train | scrub | quiesce | apply | done | failed
  deriving DecidableEq, Repr

/-- The trellis loader. -/
structure Trl where
  st : TrlSt := .idle
  err : Nat := 0
  flash : Bool := false
  src : Nat := 0
  len : Nat := 0                   -- LENGTH of the image's header, as GO found it in a Cellar region
  img : List Byte := []
  partial_ : Bool := false
  new : Cfg := {}                  -- the configuration being loaded
  changed : List Nat := []         -- changed partitions still to apply, ascending
  moved : List Nat := []           -- cores whose scrub of step 7 still runs
  wbinv : List Nat := []           -- slice groups whose WBINV of step 8 still runs
  fallback : Bool := false         -- the load is the fallback of R551
  boot : Bool := false             -- the load belongs to boot
  deferred : List (Nat × Nat × Bool) := []   -- kills and resets that wait for an apply (R398): partition, cause, kill
  deriving DecidableEq, Repr

/-! ### Porch, Meter and reset -/

/-- Quadrant states (R505, R532). -/
inductive QuadSt where
  | off | gated | on | powering
  deriving DecidableEq, Repr

/-- D3 entry and wake (R511, R512). -/
inductive D3St where
  | none | entering | asleep | waking
  deriving DecidableEq, Repr

/-- The Porch. (DESIGN CHOICE, log 121) -/
structure Prc where
  time : Nat := 0                -- ns (R520)
  frac : Nat := 0                -- in 2^-32 ns
  rate : Int := 0                -- deviation from 40 ns per edge, in 2^-32
  slew : Nat := 0                -- still to be slewed back, in 2^-32 ns (R520)
  good : Nat := 0                -- consecutive syncs within 100 ns
  lock : Bool := false
  hold : Bool := false
  offset : Int := 0
  quads : Sparse QuadSt := []    -- default ON
  d3 : D3St := .none
  d3ops : List Nat := []         -- slice groups whose WBINV of D3 entry still runs
  wakeSeen : Nat := 0            -- a wake source that arrived during entry, coded as LAST
  last : Nat := 4
  temp : Sparse Int := []        -- filtered, in 1/8 degree C times 2^8
  rawT : Sparse Int := []
  hotT : List Nat := []          -- diodes at 110 degree C or more in the previous sample
  cur : Sparse Nat := []         -- filtered, in 1/16 A times 2^8
  volt : Sparse Nat := []        -- filtered, in mV times 2^8
  badV : List Nat := []          -- monitors out of band in the previous sample
  railFault : List Nat := []     -- monitors whose RAIL_FAULT condition persists
  power : Nat := 0               -- P in 2^-20 mW
  kt : Sparse Nat := []          -- thermal step by die, 4 the hub
  throttling : Bool := false     -- an episode of R515
  exthot : Bool := false
  tripped : Bool := false
  kp : Nat := 0
  credit : Nat := 0              -- peak credit, 2^-20 mW times 100 us
  fresh : Bool := true           -- no image has given C_max since cold reset
  full : Bool := true            -- L is PPEAK
  ovr : Nat := 0                -- consecutive periods at step 12 with P > L
  pkhold : Bool := false
  rails : List Nat := []         -- PMBus rails held on, by regulator 0 to 9 (0x40 to 0x49)
  raising : Option Nat := none   -- the rail commanded on that is not yet within tolerance
  sets : Sparse Nat := []        -- setpoints in mV that rails were last commanded to
  onAt : Sparse Nat := []        -- by rail: when it was commanded on (R518)
  avsAt : Sparse Nat := []       -- by quadrant: when its setpoint last changed (R563)
  i3c : Option Nat := none       -- dynamic address
  standby : Bool := true         -- VDD_PORCH and VDD_IO present
  porst : Bool := false          -- PORST_N low
  extProchot : Bool := false     -- the board holds PROCHOT_N low
  thermtrip : Bool := false      -- THERMTRIP_N driven low
  periods : Nat := 0             -- sample periods counted (for the Meter's 100 us and 1 s)
  deriving DecidableEq, Repr

/-- The Meter (R521 to R534). Ledgers in 2^-16 pJ. -/
structure Mtr where
  dev : Nat := 0
  cores : Sparse Nat := []
  parts : Sparse Nat := []
  calscale : Nat := 0x10000
  qSec : Nat := 0                -- uncalibrated charges of the Q classes in the running second
  allSec : Nat := 0              -- all charges of the running second
  spend : Sparse Nat := []       -- partition spends, uJ
  t0 : Sparse Nat := []          -- window starts of partition budgets
  sessAct : Sparse Nat := []     -- Ethernet bytes by session in the period
  partAct : Sparse Nat := []     -- activity of the period charged to partition p alone, class j at 16p + j
  deriving DecidableEq, Repr

/-- Reset control and the event log (R536 to R561). -/
structure Evt where
  log : Sparse (Option Event) := []    -- by slot, 0 to 8,191
  cnt : Nat := 0                       -- records appended
  unread : Nat := 0
  dfault : Bool := false
  bare : Bool := false
  fallback : Bool := false
  lastrst : Nat := 0
  warm : Option Nat := none            -- a warm reset in progress, with its LASTRST code
  warmBare : Bool := false             -- R551 applies to it
  ceCnt : Sparse Nat := []             -- SRAM_CE corrections of the hub since the last record, by structure (R536)
  ceTime : Sparse (Option Nat) := []   -- time of the last SRAM_CE record, by structure
  deriving DecidableEq, Repr

/-! ### What the device sends -/

/-- Something the device has sent outward (DESIGN CHOICE, log 12). -/
inductive Out where
  | regData (r : Req) (v : W32)             -- data of a register read
  | data (r : Req) (bs : List Byte)         -- data of a memory read
  | refused (r : Req) (addr : Nat)          -- a refused access, to its requester
  | done (r : Req)                          -- a write or signal completed
  | i3c (bs : List Byte)
  | i3cNack
  | flit (port : Nat) (bs : List Byte)
  | frame (port : Nat) (f : EFrame)
  | mgmt (f : HxtFrame)
  | pmbus (rail : Nat) (on : Bool) (mv : Nat)
  deriving DecidableEq, Repr

/-! ### The machine -/

/-- The state of the block. `pending` is the queue of commands that wait, first in first out. -/
structure State where
  pending : List Instr := []
  free : Nat := 0                       -- the model's own: free values taken so far (DESIGN CHOICE, log 8)
  outbox : List Out := []               -- what has been sent, oldest first (DESIGN CHOICE, log 12)
  regs : Sparse W32 := []               -- registers by device physical address; unlisted: the reset value
  latchRd : Sparse (Option W32) := []   -- R13: latched high halves, by the address of _LO
  latchWr : Sparse W32 := []            -- R13: _HI values last written, by the address of _LO
  mem : List (Nat × Byte) := []         -- Cellar DRAM and scratchpads; unlisted: 0 (DESIGN CHOICE, log 6)
  cores : Sparse Core := []
  sdt : Sdt := {}
  pnt : Pantry := {}
  clr : Cellar := {}
  tch : Tch := {}
  eth : Sparse Eth := []
  ses : Ses := {}
  sec : Sec := {}
  trl : Trl := {}
  cfg : Cfg := {}                       -- the configuration in force
  retained : Cfg := {}                  -- the retained configuration (R509)
  prc : Prc := {}
  mtr : Mtr := {}
  evt : Evt := {}
  deriving DecidableEq, Repr

/-- Right after cold reset: every field at its reset value, nothing configured, no command waiting (R17, R544).
(DESIGN CHOICE, log 3; DESIGN CHOICE, log 4) -/
def State.reset : State := {}

/-- Why a command stops the model. -/
inductive Fault where
  /-- Raised by a command whose operand no interface of the device can carry (a flit that is not 256 bytes, a payload
  longer than its length field can say). Safe: the hardware never meets it. -/
  | malformedOperand
  deriving DecidableEq, Repr

/-- Why a command has no meaning. -/
inductive Refusal where
  /-- Raised only by `exec` for a command not modelled yet, by its name. Safe. -/
  | notModelled (mnemonic : String)
  deriving DecidableEq, Repr

end Sys2Proof.Machine
end

