-- ==== Sys2Proof/Machine/Clock.lean ====
section
/-! DEFINITION. One edge of PCLK: what the block does while no command waits (DESIGN CHOICE, log 1). -/
namespace Sys2Proof.Machine

/-- What one PCLK edge adds to the time counter, in 2^-32 ns: 40 ns scaled by the rate correction in force (R520).
(DESIGN CHOICE, log 1) -/
def Prc.edge (p : Prc) : Nat := (40 * 2 ^ 32 + p.rate).toNat

/-- What one edge takes off while a backward phase error is slewed at 500 ppm (R520), in 2^-32 ns.
(DESIGN CHOICE, log 1; DEDUCED, log 95) -/
def Prc.slewed (p : Prc) : Nat := min p.slew (p.edge * 500 / 1000000)

/-- The time counter after one PCLK edge: nanoseconds and fraction, nothing lost (R520). (DESIGN CHOICE, log 1) -/
def Prc.tick (p : Prc) : Prc :=
  let t := p.frac + (p.edge - p.slewed)
  { p with time := (p.time + t / 2 ^ 32) % 2 ^ 64, frac := t % 2 ^ 32, slew := p.slew - p.slewed }

/-- One PCLK edge. The Porch stands still while PORST_N is low or its supply is off (R566, R568). (DESIGN CHOICE, log 1) -/
def State.idle (s : State) : State :=
  if s.prc.porst || !s.prc.standby then s else { s with prc := s.prc.tick }

end Sys2Proof.Machine
end

