-- ==== Sys2Proof/Machine/Bits.lean ====
section
/-! DEFINITION. Bit fields, byte order and sign extension: the small functions every other file reads the spec's layouts
with (R6, R7). -/
namespace Sys2Proof.Machine

/-- Bits `lo + n - 1` to `lo` of a number (R6). -/
def bits (x lo n : Nat) : Nat := (x >>> lo) % 2 ^ n

/-- Bit `i` of a number. -/
def bit (x i : Nat) : Bool := x.testBit i

/-- Field [hi:lo] of a bit vector, as a number. -/
def fld {w : Nat} (d : BitVec w) (hi lo : Nat) : Nat := bits d.toNat lo (hi + 1 - lo)

/-- Bit `i` of a bit vector. -/
def flag {w : Nat} (d : BitVec w) (i : Nat) : Bool := d.toNat.testBit i

/-- A Bool as a number. -/
def b2n (b : Bool) : Nat := if b then 1 else 0

/-- Two's complement reading of the low `n` bits. -/
def sext (n x : Nat) : Int :=
  let y := x % 2 ^ n
  if 2 ^ (n - 1) ≤ y then (y : Int) - 2 ^ n else y

/-- Two's complement writing in `n` bits. -/
def ofInt (n : Nat) (i : Int) : Nat := (i % (2 ^ n : Int)).toNat

/-- The number little-endian bytes spell (R7). -/
def ofLe : List Byte → Nat
  | [] => 0
  | b :: bs => b.toNat + 256 * ofLe bs

/-- `n` little-endian bytes of a number (R7). -/
def toLe : Nat → Nat → List Byte
  | 0, _ => []
  | n + 1, x => BitVec.ofNat 8 x :: toLe n (x / 256)

/-- The field of `n` bytes at offset `o` of a byte string, little-endian; bytes past the end read 0. -/
def leAt (bs : List Byte) (o n : Nat) : Nat := ofLe ((bs.drop o).take n)

/-- A field set into a number: bits `lo + n - 1` to `lo` replaced by those of `v`. -/
def setBits (x lo n v : Nat) : Nat := x - (bits x lo n <<< lo) + ((v % 2 ^ n) <<< lo)

/-- Fields packed from bit 0 upward: (width, value). -/
def pack : List (Nat × Nat) → Nat
  | [] => 0
  | (n, v) :: fs => v % 2 ^ n + 2 ^ n * pack fs

/-- Addition that holds at the greatest value of `n` bits. -/
def satAdd (n x y : Nat) : Nat := min (x + y) (2 ^ n - 1)

/-- The indices 0 to n - 1. -/
def upTo (n : Nat) : List Nat := List.range n

/-- Ceiling of a quotient; 0 where the divisor is 0. -/
def ceilDiv (a b : Nat) : Nat := if b = 0 then 0 else (a + b - 1) / b

/-- The numbers of the set bits of a number below bit `n`, ascending. -/
def setBitsOf (n x : Nat) : List Nat := (upTo n).filter (fun i => x.testBit i)

/-- The first `n` bytes, filled up with zeros. -/
def padTo (n : Nat) (bs : List Byte) : List Byte := bs.take n ++ List.replicate (n - bs.length) 0

/-- Bytes with `n` bits from bit `at_` on replaced by the first `n` bits of `new`. -/
def mergeBits (old new : List Byte) (at_ n : Nat) : List Byte := toLe old.length (setBits (ofLe old) at_ n (ofLe new))

/-- Zero bytes. -/
def zeros (n : Nat) : List Byte := List.replicate n 0

/-- The list with element `i` replaced. -/
def setAt {α : Type} (l : List α) (i : Nat) (x : α) : List α := l.set i x

/-- Lists of `n` elements each; what is left at the end makes a shorter one. `fuel` bounds the number of lists. -/
def chunksOf {α : Type} (n : Nat) : Nat → List α → List (List α)
  | 0, _ => []
  | _, [] => []
  | fuel + 1, l => l.take n :: chunksOf n fuel (l.drop n)

/-- Insertion into an ascending list without repeats. -/
def insertAsc (x : Nat) : List Nat → List Nat
  | [] => [x]
  | y :: ys => if x < y then x :: y :: ys else if x = y then y :: ys else y :: insertAsc x ys

end Sys2Proof.Machine
end

