-- ==== Sys2Proof/Machine/Sha512.lean ====
section
/-! DEFINITION. SHA-512 of FIPS 180-4, which the spec uses for image hashes, key hashes and the log digest (R376, R378,
R387, R485, R493). -/
namespace Sys2Proof.Machine

/-! ### Constants: the first 64 bits after the point of roots of primes -/

/-- The bits of the `k`-th root of `n`, rounded down, from bit `i` - 1 on below those of `r`. -/
def rootFrom (k n : Nat) : Nat → Nat → Nat
  | 0, r => r
  | i + 1, r => rootFrom k n i (if (r + 2 ^ i) ^ k ≤ n then r + 2 ^ i else r)

/-- The first 64 bits after the point of the `k`-th root of `p`, which is below 16. -/
def rootWord (k p : Nat) : Nat := rootFrom k (p * 2 ^ (64 * k)) 68 0 % 2 ^ 64

/-- The primes below 410: the first 80. -/
def shaPrimes : List Nat := (upTo 410).filter (fun p => 1 < p && (upTo 21).all (fun d => d < 2 || p ≤ d || p % d ≠ 0))

/-- The initial hash value: square roots. -/
def shaStart : List Nat := (shaPrimes.take 8).map (rootWord 2)
/-- The constants of the 80 rounds: cube roots. -/
def shaConsts : List Nat := shaPrimes.map (rootWord 3)

/-! ### One block -/

/-- A 64-bit word turned right by `n` bits. -/
def turn (x n : Nat) : Nat := x / 2 ^ n + x % 2 ^ n * 2 ^ (64 - n)
/-- A word turned by each of some amounts, and shifted where there is one, all added bit by bit. -/
def mix (turns : List Nat) (shift : Option Nat) (x : Nat) : Nat :=
  turns.foldl (fun y n => y ^^^ turn x n) (match shift with | some n => x / 2 ^ n | none => 0)

/-- The working variables. -/
structure ShaVars where
  a : Nat
  b : Nat
  c : Nat
  d : Nat
  e : Nat
  f : Nat
  g : Nat
  h : Nat
  deriving DecidableEq, Repr

/-- The variables that eight words spell. -/
def ShaVars.of (l : List Nat) : ShaVars :=
  { a := l.getD 0 0, b := l.getD 1 0, c := l.getD 2 0, d := l.getD 3 0, e := l.getD 4 0, f := l.getD 5 0, g := l.getD 6 0
    h := l.getD 7 0 }

/-- The eight words. -/
def ShaVars.words (v : ShaVars) : List Nat := [v.a, v.b, v.c, v.d, v.e, v.f, v.g, v.h]

/-- A round with its constant `k` and the schedule's word `w`. -/
def ShaVars.round (v : ShaVars) (k w : Nat) : ShaVars :=
  let pick := v.g ^^^ (v.e &&& (v.f ^^^ v.g))
  let most := (v.a &&& v.b) ||| (v.c &&& (v.a ||| v.b))
  let up := v.h + k + w + pick + mix [14, 18, 41] none v.e
  { a := (up + most + mix [28, 34, 39] none v.a) % 2 ^ 64, b := v.a, c := v.b, d := v.c
    e := (v.d + up) % 2 ^ 64, f := v.e, g := v.f, h := v.g }

/-- The schedule's next 16 words from its last 16, oldest first: the oldest leaves and its successor by 16 joins. -/
def shaSlide (w : List Nat) : List Nat :=
  w.drop 1 ++ [(w.getD 0 0 + mix [1, 8] (some 7) (w.getD 1 0) + w.getD 9 0 + mix [19, 61] (some 6) (w.getD 14 0)) % 2 ^ 64]

/-- The rounds of a block, the schedule sliding along. -/
def shaRounds : List Nat → List Nat → ShaVars → ShaVars
  | [], _, v => v
  | k :: ks, w, v => shaRounds ks (shaSlide w) (v.round k (w.getD 0 0))

/-- The big-endian words of a block of 128 bytes. -/
def blockWords (bs : List Byte) : List Nat := (chunksOf 8 16 bs).map (fun b => ofLe b.reverse)

/-- The hash value after one more block. -/
def shaNext (h : List Nat) (bs : List Byte) : List Nat :=
  (h.zip (shaRounds shaConsts (blockWords bs) (ShaVars.of h)).words).map (fun x => (x.1 + x.2) % 2 ^ 64)

/-! ### A message -/

/-- What follows a message of `n` bytes: a 1 bit, zeros to the end of a block, and in its last 16 bytes the count of bits. -/
def shaTail (n : Nat) : List Byte := 0x80 :: zeros ((239 - n % 128) % 128) ++ (toLe 16 (8 * n)).reverse

/-- The 64 bytes of the SHA-512 of a byte string. -/
def sha512 (bs : List Byte) : List Byte :=
  let p := bs ++ shaTail bs.length
  ((chunksOf 128 (p.length / 128) p).foldl shaNext shaStart).flatMap (fun x => (toLe 8 x).reverse)

/-- A digest as one number, byte 0 in the low bits. (DESIGN CHOICE, log 7) -/
def digestOf (bs : List Byte) : BitVec 512 := BitVec.ofNat 512 (ofLe (sha512 bs))

end Sys2Proof.Machine
end

