-- ==== Sys2Proof/Machine/Ecdsa.lean ====
section
/-! DEFINITION. The check of an ECDSA signature over the SHA-512 of a message under a P-521 key: images, firmware and tokens
are signed so (R375, R376, R485, R486, R497). The curve and the order of its base point are those of FIPS 186-5 and
SP 800-186, which the spec names and does not print. (PRESUMED, log 136) -/
namespace Sys2Proof.Machine

/-! ### The field and the curve y² = x³ - 3x + b -/

/-- The prime of the field. -/
def p521 : Nat := 2 ^ 521 - 1
/-- The curve's constant b. -/
def b521 : Nat :=
  0x0051953EB9618E1C9A1F929A21A0B68540EEA2DA725B99B315F3B8B489918EF109E156193951EC7E937B1652C0BD3BB1BF073573DF883D2C34F1EF451FD46B503F00
/-- The order n of the base point (R376). -/
def n521 : Nat :=
  0x01FFFFFFFFFFFFFFFFFFFFFFFFFFFFFFFFFFFFFFFFFFFFFFFFFFFFFFFFFFFFFFFFFA51868783BF2F966B7FCC0148F709A5D03BB5C9B8899C47AEBB6FB71E91386409

/-- `f n`, the number first brought to a numeral: what keeps a long computation flat. -/
def forced {α : Type} (n : Nat) (f : Nat → α) : α :=
  match n with
  | 0 => f 0
  | m + 1 => f (m + 1)

theorem forced_eq {α : Type} (n : Nat) (f : Nat → α) : forced n f = f n := by cases n <;> rfl

/-- A point in Jacobian coordinates, each below the prime: x / z², y / z³; no affine point where z is 0. -/
structure JPoint where
  x : Nat
  y : Nat
  z : Nat
  deriving DecidableEq, Repr

/-- A point whose coordinates are brought below the prime. -/
def JPoint.of (x y z : Nat) : JPoint :=
  forced (x % p521) (fun x => forced (y % p521) (fun y => forced (z % p521) (fun z => { x := x, y := y, z := z })))

/-- A difference in the field, of numbers below the prime. -/
def subP (a b : Nat) : Nat := (a + p521 - b) % p521

/-- The base point. -/
def basePoint : JPoint :=
  { x := 0x00C6858E06B70404E9CD9E3ECB662395B4429C648139053FB521F828AF606B4D3DBAA14B5E77EFE75928FE1DC127A2FFA8DE3348B3C1856A429BF97E7E31C2E5BD66
    y := 0x011839296A789A3BC0045C8A5FB42C7D1BD998F54449579B446817AFBD17273E662C97EE72995EF42640C550B9013FAD0761353C7086A272C24088BE94769FD16650
    z := 1 }

/-- An affine point lies on the curve. -/
def onCurve (x y : Nat) : Bool := x < p521 && y < p521 && y * y % p521 = (x * x * x + (p521 - 3) * x + b521) % p521

/-- A point added to itself. -/
def JPoint.double (a : JPoint) : JPoint :=
  forced (a.z * a.z % p521) (fun zz =>
  forced (a.y * a.y % p521) (fun yy =>
  forced (a.x * yy % p521) (fun b =>
  forced (3 * subP a.x zz * (a.x + zz) % p521) (fun m =>
  forced (subP (m * m % p521) (8 * b % p521)) (fun x =>
  JPoint.of x (m * subP (4 * b % p521) x + p521 * p521 - 8 * yy * yy % p521) (2 * a.y * a.z))))))

/-- The sum of two points. -/
def JPoint.add (a b : JPoint) : JPoint :=
  if a.z = 0 then b
  else if b.z = 0 then a
  else
    forced (a.z * a.z % p521) (fun za =>
    forced (b.z * b.z % p521) (fun zb =>
    forced (a.x * zb % p521) (fun u =>
    forced (a.y * zb % p521 * b.z % p521) (fun s =>
    forced (subP (b.x * za % p521) u) (fun h =>
    forced (subP (b.y * za % p521 * a.z % p521) s) (fun r =>
    if h = 0 then if r = 0 then a.double else { x := 1, y := 1, z := 0 }
    else
      forced (h * h % p521) (fun hh =>
      forced (hh * h % p521) (fun hhh =>
      forced (u * hh % p521) (fun v =>
      forced (subP (r * r % p521) ((hhh + 2 * v) % p521)) (fun x =>
      JPoint.of x (r * subP v x + p521 * p521 - s * hhh % p521) (h * a.z % p521 * b.z)))))))))))

/-- From bit `n` - 1 down: the point doubled, and to it added `g` and `q` where their multiplier's bit is set. -/
def twoMults (i j : Nat) (g q gq : JPoint) : Nat → JPoint → JPoint
  | 0, a => a
  | n + 1, a =>
    let d := a.double
    twoMults i j g q gq n
      (match i.testBit n, j.testBit n with
        | false, false => d
        | true, false => d.add g
        | false, true => d.add q
        | true, true => d.add gq)

/-- A power modulo `m`, the exponent's bits from bit `n` - 1 down. -/
def powMod (m b e : Nat) : Nat → Nat → Nat
  | 0, a => a
  | n + 1, a => forced (a * a % m * (if e.testBit n then b else 1) % m) (powMod m b e n)

/-- A point times a number. -/
def JPoint.times (q : JPoint) (k : Nat) : JPoint := twoMults k 0 q q q 521 { x := 1, y := 1, z := 0 }

/-- The affine coordinates of a point whose z is not 0. -/
def JPoint.affine (a : JPoint) : Nat × Nat :=
  forced (powMod p521 a.z (p521 - 2) 521 1) (fun w =>
  forced (w * w % p521) (fun ww => (a.x * ww % p521, a.y * ww % p521 * w % p521)))

/-! ### Keys and signatures -/

/-- The number big-endian bytes spell. -/
def ofBe (bs : List Byte) : Nat := ofLe bs.reverse
/-- `n` big-endian bytes of a number. -/
def toBe (n x : Nat) : List Byte := (toLe n x).reverse

/-- The uncompressed public key of a private key: 133 bytes. -/
def publicKey (d : Nat) : List Byte :=
  let q := (basePoint.times d).affine
  4 :: toBe 66 q.1 ++ toBe 66 q.2

/-- An uncompressed key is a point of the curve. -/
def keyPoint (key : List Byte) : Bool :=
  key.length = 133 && leAt key 0 1 = 4 && onCurve (ofBe ((key.drop 1).take 66)) (ofBe ((key.drop 67).take 66))

/-- The x-coordinate of the point that a private and a public key share: 66 bytes (R471). -/
def sharedX (d : Nat) (key : List Byte) : List Byte :=
  toBe 66 (JPoint.times { x := ofBe ((key.drop 1).take 66), y := ofBe ((key.drop 67).take 66), z := 1 } d).affine.1

/-- A private key's signature over the SHA-512 of a message, made with the secret number `k`: r and s in 66 bytes each. -/
def signWith (d k : Nat) (msg : List Byte) : List Byte :=
  let r := (basePoint.times k).affine.1 % n521
  toBe 66 r ++ toBe 66 (powMod n521 k (n521 - 2) 521 1 * (ofBe (sha512 msg) + r * d) % n521)

/-- (r, s) is a signature over the SHA-512 of a message under the uncompressed key of 133 bytes; r and s are each in 1 to
n - 1 and lie big-endian in 66 bytes each (R375, R376). (PRESUMED, log 136) -/
def signedBy (key msg sig : List Byte) : Bool :=
  forced (ofBe ((key.drop 1).take 66)) (fun qx =>
  forced (ofBe ((key.drop 67).take 66)) (fun qy =>
  forced (ofBe (sig.take 66)) (fun r =>
  forced (ofBe ((sig.drop 66).take 66)) (fun s =>
  if !keyPoint key || r = 0 || n521 ≤ r || s = 0 || n521 ≤ s then false
  else
    forced (powMod n521 s (n521 - 2) 521 1) (fun w =>
    forced (ofBe (sha512 msg) % n521 * w % n521) (fun i =>
    forced (r * w % n521) (fun j =>
    let q : JPoint := { x := qx, y := qy, z := 1 }
    let a := twoMults i j basePoint q (basePoint.add q) 521 { x := 1, y := 1, z := 0 }
    let at_ (v : Nat) : Bool := v < p521 && a.x = v * (a.z * a.z % p521) % p521
    a.z ≠ 0 && (at_ r || at_ (r + n521)))))))))

end Sys2Proof.Machine
end

