-- ==== Sys2Proof/Machine/Aes.lean ====
section
/-! DEFINITION. AES-256, its XTS mode for the lines of an encrypted region, and its GCM mode for the frames of a session
(R409, R454). The block cipher and its modes are those of FIPS 197, IEEE 1619 and SP 800-38D, which the spec names and does not
print. (PRESUMED, log 136) -/
namespace Sys2Proof.Machine

/-! ### The block cipher: a block is its 16 bytes as numbers, in order -/

/-- The substitution of FIPS 197, the value for byte x in bits 8x + 7 to 8x. -/
def aesBox : Nat :=
  0x16BB54B00F2D99416842E6BF0D89A18CDF2855CEE9871E9B948ED9691198F8E19E1DC186B95735610EF6034866B53E708A8BBD4B1F74DDE8C6B4A61C2E2578BA * 2 ^ 1536 +
  0x08AE7A65EAF4566CA94ED58D6D37C8E779E4959162ACD3C25C2406490A3A32E0DB0B5EDE14B8EE4688902A22DC4F816073195D643D7EA7C41744975FEC130CCD * 2 ^ 1024 +
  0xD2F3FF1021DAB6BCF5389D928F40A351A89F3C507F02F94585334D43FBAAEFD0CF584C4A39BECB6A5BB1FC20ED00D153842FE329B3D63B52A05A6E1B1A2C8309 * 2 ^ 512 +
  0x75B227EBE28012079A059618C323C7041531D871F1E5A534CCF73F362693FDB7C072A49CAFA2D4ADF04759FA7DC982CA76ABD7FE2B670130C56F6BF27B777C63
/-- Its inverse. -/
def aesUnbox : Nat :=
  0x7D0C2155631469E126D677BA7E042B17619953833CBBEBC8B0F52AAE4D3BE0A0EF9CC9939F7AE52D0D4AB519A97F51605FEC8027591012B131C7078833A8DD1F * 2 ^ 1536 +
  0xF45ACD78FEC0DB9A2079D2C64B3E56FC1BBE18AA0E62B76F89C5291D711AF1476EDF751CE837F9E28535ADE72274AC9673E6B4F0CECFF297EADC674F4111913A * 2 ^ 1024 +
  0x6B8A130103BDAFC1020F3FCA8F1E2CD00645B3B80558E4F70AD3BC8C00ABD890849D8DA75746155EDAB9EDFD5048706C92B6655DCC5CA4D41698688664F6F872 * 2 ^ 512 +
  0x25D18B6D49A25B76B224D92866A12E084EC3FA420B954CEE3D23C2A632947B54CBE9DEC444438E3487FF2F9B8239E37CFBD7F3819EA340BF38A53630D56A0952
/-- A byte substituted by a table. -/
def boxed (t x : Nat) : Nat := bits t (8 * x) 8

/-- A byte times 2 in the cipher's field. -/
def twice (x : Nat) : Nat := if x < 128 then 2 * x else (2 * x) ^^^ 0x11B

/-- `k l`, every number of the list first brought to a numeral. -/
def settled {α : Type} : List Nat → (List Nat → α) → α
  | [], k => k []
  | x :: xs, k => forced x (fun y => settled xs (fun ys => k (y :: ys)))

/-- Two byte strings added. -/
def xored (a b : List Nat) : List Nat := (a.zip b).map (fun x => x.1 ^^^ x.2)

/-- Each column of a block times the cipher's matrix. -/
def mixed (s : List Nat) : List Nat :=
  (upTo 16).map (fun i =>
    let at_ (k : Nat) : Nat := s.getD (i / 4 * 4 + (i + k) % 4) 0
    twice (at_ 0) ^^^ twice (at_ 1) ^^^ at_ 1 ^^^ at_ 2 ^^^ at_ 3)

/-- A block whose byte i comes from where row i mod 4 shifted by `d` columns a row takes it, through a table. -/
def shifted (t d : Nat) (s : List Nat) : List Nat :=
  (upTo 16).map (fun i => boxed t (s.getD ((i + 4 * d * (i % 4)) % 16) 0))

/-- The key schedule goes on by `n` words; the last eight words, the newest first, and the round constant. -/
def keyWords : Nat → Nat → Nat → List (List Nat) → List (List Nat)
  | 0, _, _, _ => []
  | n + 1, i, rc, last =>
    let t := last.getD 0 []
    let u := if i % 8 = 0 then
        (match (t.drop 1 ++ t.take 1).map (boxed aesBox) with
          | [] => []
          | x :: xs => (x ^^^ rc) :: xs)
      else if i % 8 = 4 then t.map (boxed aesBox) else t
    settled (xored (last.getD 7 []) u) (fun w =>
      w :: keyWords n (i + 1) (if i % 8 = 0 then twice rc else rc) (w :: last.take 7))

/-- The fifteen round keys of a key of 32 bytes. -/
def roundKeys (key : List Nat) : List (List Nat) :=
  let w := chunksOf 4 8 key
  (chunksOf 4 15 (w ++ keyWords 52 8 1 w.reverse)).map List.flatten

/-- The rounds of the cipher; the last one does not mix columns. -/
def aesRounds : List (List Nat) → List Nat → List Nat
  | [], s => s
  | [k], s => settled (xored (shifted aesBox 1 s) k) id
  | k :: ks, s => settled (shifted aesBox 1 s) (fun t => settled (xored (mixed t) k) (aesRounds ks))

/-- The rounds of its inverse, from the last round key on. The matrix's fourth power is the identity. -/
def aesUnrounds : List (List Nat) → List Nat → List Nat
  | [], s => s
  | [k], s => settled (xored s k) id
  | k :: ks, s =>
    settled (xored s k) (fun t => settled (mixed t) (fun t => settled (mixed t) (fun t => settled (mixed t) (fun t =>
      settled (shifted aesUnbox 3 t) (aesUnrounds ks)))))

/-- A block encrypted under round keys. -/
def aesEnc (ks : List (List Nat)) (b : List Nat) : List Nat :=
  match ks with
  | [] => b
  | k :: r => settled (xored b k) (aesRounds r)

/-- A block decrypted under round keys. -/
def aesDec (ks : List (List Nat)) (b : List Nat) : List Nat :=
  match ks.reverse with
  | [] => b
  | k :: r => settled (xored b k) (fun t => settled (shifted aesUnbox 3 t) (aesUnrounds r))

/-- Bytes as numbers, and back. -/
def nats (bs : List Byte) : List Nat := bs.map BitVec.toNat
def ofNats (l : List Nat) : List Byte := l.map (BitVec.ofNat 8)

/-! ### XTS over a line (R409) -/

/-- A tweak for the next block: times x in the field of the mode, its bytes little-endian. -/
def nextTweak (t : Nat) : Nat := if t < 2 ^ 127 then 2 * t else (2 * (t - 2 ^ 127)) ^^^ 0x87

/-- Blocks run through a cipher between two additions of their tweak. -/
def xtsBlocks (f : List Nat → List Nat) : List (List Nat) → Nat → List Nat
  | [], _ => []
  | b :: bs, t =>
    let w := nats (toLe 16 t)
    settled (xored (f (xored b w)) w) (fun c => c ++ forced (nextTweak t) (xtsBlocks f bs))

/-- A line of 128 bytes under a key of 64 bytes, the data key first; the tweak is the line's number (R409). -/
def xtsLine (enc : Bool) (key : List Byte) (l : Nat) (bs : List Byte) : List Byte :=
  let dk := roundKeys (nats (key.take 32))
  let t := ofLe (ofNats (aesEnc (roundKeys (nats (key.drop 32))) (nats (toLe 16 l))))
  ofNats (xtsBlocks (if enc then aesEnc dk else aesDec dk) (chunksOf 16 8 (nats bs)) t)

/-! ### GCM (R454) -/

/-- A product in the field of the mode: blocks as big-endian numbers, the first bit the coefficient of 1. -/
def gfMul (x : Nat) : Nat → Nat → Nat → Nat
  | 0, _, z => z
  | n + 1, v, z =>
    forced (if x.testBit n then z ^^^ v else z) (fun z =>
      forced (if v % 2 = 1 then (v / 2) ^^^ (0xE1 * 2 ^ 120) else v / 2) (fun v => gfMul x n v z))

/-- The mode's hash of a byte string cut into blocks, the last filled up with zeros. -/
def ghash (h : Nat) : List (List Byte) → Nat → Nat
  | [], y => y
  | b :: bs, y => forced (gfMul (y ^^^ ofBe (padTo 16 b)) 128 h 0) (ghash h bs)

/-- Blocks of 16 bytes, the last one maybe shorter. -/
def blocks16 (bs : List Byte) : List (List Byte) := chunksOf 16 (ceilDiv bs.length 16) bs

/-- The key stream's block number `i` for a nonce of 12 bytes. -/
def gcmBlock (ks : List (List Nat)) (nonce : List Byte) (i : Nat) : List Byte :=
  ofNats (aesEnc ks (nats (nonce ++ (toLe 4 i).reverse)))

/-- Bytes under the key stream, from block 2 on: encryption and decryption alike. -/
def gcmCrypt (ks : List (List Nat)) (nonce bs : List Byte) : List Byte :=
  let bl := blocks16 bs
  ((upTo bl.length).zip bl).flatMap (fun x => (x.2.zip (gcmBlock ks nonce (x.1 + 2))).map (fun y => y.1 ^^^ y.2))

/-- The tag of 16 bytes over associated data and ciphertext. -/
def gcmTag (ks : List (List Nat)) (nonce aad ct : List Byte) : List Byte :=
  let h := ofBe (ofNats (aesEnc ks (List.replicate 16 0)))
  let lens := (toLe 8 (8 * ct.length) ++ toLe 8 (8 * aad.length)).reverse
  let y := ghash h (blocks16 aad ++ blocks16 ct ++ [lens]) 0
  ((toLe 16 y).reverse.zip (gcmBlock ks nonce 1)).map (fun x => x.1 ^^^ x.2)

end Sys2Proof.Machine
end

