-- ==== Sys2Proof/Machine/Mac.lean ====
section
/-! DEFINITION. HMAC and HKDF with SHA-512, and what the spec makes with them: the identity key, the check of an AUTH and the keys
of a session (R470, R471, R490). Both functions are those of RFC 2104 and RFC 5869, which the spec names and does not print.
(PRESUMED, log 136) -/
namespace Sys2Proof.Machine

/-- A key laid out over a block of the hash, each byte added to a constant. -/
def padKey (key : List Byte) (c : Byte) : List Byte :=
  (padTo 128 (if 128 < key.length then sha512 key else key)).map (· ^^^ c)

/-- HMAC-SHA-512: 64 bytes. -/
def hmac (key msg : List Byte) : List Byte := sha512 (padKey key 0x5C ++ sha512 (padKey key 0x36 ++ msg))

/-- The blocks that HKDF-Expand strings together, from block `i` on. -/
def hkdfBlocks (prk info : List Byte) : Nat → Nat → List Byte → List Byte
  | 0, _, _ => []
  | n + 1, i, last =>
    let b := hmac prk (last ++ info ++ toLe 1 i)
    b ++ hkdfBlocks prk info n (i + 1) b

/-- HKDF-SHA-512: `n` bytes, at most 16,320. -/
def hkdf (salt ikm info : List Byte) (n : Nat) : List Byte :=
  (hkdfBlocks (hmac salt ikm) info (ceilDiv n 64) 1 []).take n

/-- Bytes of ASCII letters. -/
def ascii (s : String) : List Byte := s.toList.map (fun c => BitVec.ofNat 8 c.toNat)

/-- The identity's private key from the PUF's secret and the serial number: the first of HKDF's candidates of 66 bytes in 1 to
n - 1 (R490). One that RFC 5869's length does not reach is open. (DEDUCED, log 119; DESIGN CHOICE, log 120) -/
def identityKey (puf : List Byte) (serial : W64) : Nat :=
  let okm := hkdf (toLe 8 serial.toNat) puf (ascii "JB9-ID") 16320
  match ((chunksOf 66 247 okm).map ofBe).find? (fun d => d ≠ 0 && d < n521) with
  | some d => d
  | none => 1 + Config.lateKey okm % (n521 - 1)

/-- What AUTH carries: HMAC under the credential over the SHA-512 of the transcript (R470). -/
def authMac (ck transcript : List Byte) : List Byte := hmac ck (sha512 transcript)

/-- The 72 bytes of keys and salts of a session (R471). -/
def sessionKeys (transcript auth z ck : List Byte) (kepoch : Nat) : List Byte :=
  hkdf (sha512 (transcript ++ auth)) (z ++ ck) (ascii "HXT1" ++ toLe 2 kepoch) 72

end Sys2Proof.Machine
end

