-- ==== Sys2Proof/Machine/RegTable.lean ====
section
/-! DEFINITION. The register map (R31 to R33 and each block's tables): for every register its block, its offset, how often
it repeats, and its fields with their access types, reset values and reserved codes. -/
namespace Sys2Proof.Machine

/-- The register blocks: the eight of a core's control space (R31) and the eleven of the hub (R32). -/
inductive Blk where
  | arr | sve | rke | vec | seq | spd | dma | gau | sdt | mtr | pnt | clr | tch | eth | ses | sec | prc | trl | evt
  deriving DecidableEq, Repr

/-- Access types (R14). -/
inductive Acc6 where
  | ro | rw | wo | w1c | rc | img
  deriving DecidableEq, Repr

/-- A field: lowest bit, width, access, reset value, and the ranges of its reserved codes (R12). -/
structure Field where
  lo : Nat
  n : Nat
  acc : Acc6
  rst : Nat := 0
  bad : List (Nat × Nat) := []
  deriving DecidableEq, Repr

/-- A register or an array of registers: block, offset, instances and stride in up to two dimensions, whether it is a
64-bit pair (R13), its fields, and those of its _HI half. -/
structure Row where
  b : Blk
  off : Nat
  cnt : Nat := 1
  str : Nat := 4
  cnt2 : Nat := 1
  str2 : Nat := 4
  pair : Bool := false
  fs : List Field := []
  hi : List Field := []
  deriving DecidableEq, Repr

/-- The registers' names. -/
inductive RegName where
  | arrCtrl | arrShape | arrStatus | arrLasttsw | arrBcyc | arrBstep | arrZskip | arrWait
  | arrLstall | arrPstall | arrCntclr | arrReserr | arrOtag | gauCtrl | gauDefault | gauPerm
  | gauStatus | gauSamples | gauFmiss | gauBmiss | gauRetries | gauTop | gauJit | gauWait
  | gauMisstile | gauMisspos | sveCtrl | sveStatus | sveZblk | sveOvfl | sveIoob | sveZrlerr
  | sveSpill | sveScin | sveScsamp | sveSpecmiss | sveLasterr | rkeStatus | rkeRecords | rkeRsat
  | rkeRnan | rkeXmis | vecCtrl | vecStatus | vecVlen | vecSmax | vecSsum | vecScnt
  | vecSflg | vecObusy | vecOstall | spdWheela | spdWheelb | spdSpare | spdSlto | spdStatus
  | spdColl | spdLasterr | spdSlotBase | spdSlotCfg | spdWinBase | spdWinCfg | dmaDesc | dmaCtrl
  | dmaStatus | dmaBusy | dmaErrcnt | pntGrp | pntOpctl | pntOpstat | pntCntsel | pntHit
  | pntMiss | sdtCtrl | sdtCfg | sdtStat | sdtEpoch | sdtNext | sdtTotal | sdtDone
  | sdtQueue | sdtRetry | sdtSpec | sdtDup | sdtLastdup | sdtRewto | sdtAlen | sdtHmrg
  | sdtTbluse | seqCtrl | seqStatus | seqRing | seqLasterr | seqIssued | seqLayer | seqSeed
  | seqLoop | seqS | trlCtrl | trlSrc | trlStatus | trlImgver | trlPseq | trlRb
  | trlRbval | trlHash | trlPhash | trlPart | trlFence | clrCfg | clrCap | clrScrub
  | clrScrubpos | clrFillctl | clrFillstat | clrFillbase | clrFillsize | clrFillpat | clrUecnt | clrLastue
  | clrCe | clrKslot | tchTopo | tchId | tchRto | tchBadpkt | tchCtrl | tchStatus
  | tchFeccor | tchFecunc | tchCrcerr | tchRetry | tchDown | grpCtrl | grpStatus | grpTbase
  | grpTcount | grpArea | grpSlot | grpBar | sesCfg | sesStatus | sesHsdrop | sesAuthfail
  | sesTagfail | sesBadfrm | sesSel | sesCtxstat | sesKill | sesTnctl | sesTnstat | sesTndata
  | ethPtpsel | ethStatus | ethTsn | ethMac | ethIp4 | ethIp6 | ethRxdrop | ethGatedrop
  | ethFcserr | ethIdle | ethFilt0 | ethFilt1 | ethFilt2 | ethFilt3 | ethGate | ethGateIv
  | secStatus | secSerial | secOwnhash | secIdhash | secLogdig | secRb | secRbadv | secKill
  | secLogcnt | secDbgchal | secDbgctl | secDbgaddr | secAttctl | secAttaddr | secPstate | prcDevid
  | prcState | prcPctl | prcPwrcfg | prcFilt | prcWakecfg | prcTime | prcWaket | prcTsync
  | prcPkgpwr | prcStretch | prcTemp | prcCur | prcVolt | mtrStatus | mtrCap | mtrClane
  | mtrCbyte | mtrCal | mtrDev | mtrCoef | mtrCore | mtrLedg | mtrSpend | mtrBud
  | mtrWin | mtrSsel | mtrSwin | mtrSbud | mtrSledg | mtrSspend | evtStatus | evtWrcnt
  | evtRdidx | evtLost | evtCntC | evtCntT | evtCntP | evtCntD | evtRstctl | evtRstcfg
  | evtCqctl | evtForce | evtSuspth | evtCstate | evtCflt | evtRec
  deriving DecidableEq, Repr

/-- The rows of the register tables. -/
def RegName.row : RegName → Row
  | .arrCtrl => { b := .arr, off := 0x0, fs := [⟨0, 1, .rw, 0, []⟩, ⟨1, 1, .rw, 0, []⟩] }
  | .arrShape => { b := .arr, off := 0x4, fs := [⟨0, 2, .img, 0, []⟩, ⟨2, 1, .img, 0, []⟩, ⟨3, 1, .img, 0, []⟩, ⟨4, 2, .img, 0, []⟩] }
  | .arrStatus => { b := .arr, off := 0x8, fs := [⟨0, 9, .ro, 0, []⟩] }
  | .arrLasttsw => { b := .arr, off := 0xc, fs := [⟨0, 32, .ro, 0, []⟩] }
  | .arrBcyc => { b := .arr, off := 0x10, pair := true, fs := [⟨0, 32, .ro, 0, []⟩], hi := [⟨0, 32, .ro, 0, []⟩] }
  | .arrBstep => { b := .arr, off := 0x18, pair := true, fs := [⟨0, 32, .ro, 0, []⟩], hi := [⟨0, 32, .ro, 0, []⟩] }
  | .arrZskip => { b := .arr, off := 0x20, pair := true, fs := [⟨0, 32, .ro, 0, []⟩], hi := [⟨0, 32, .ro, 0, []⟩] }
  | .arrWait => { b := .arr, off := 0x28, pair := true, fs := [⟨0, 32, .ro, 0, []⟩], hi := [⟨0, 32, .ro, 0, []⟩] }
  | .arrLstall => { b := .arr, off := 0x30, pair := true, fs := [⟨0, 32, .ro, 0, []⟩], hi := [⟨0, 32, .ro, 0, []⟩] }
  | .arrPstall => { b := .arr, off := 0x38, pair := true, fs := [⟨0, 32, .ro, 0, []⟩], hi := [⟨0, 32, .ro, 0, []⟩] }
  | .arrCntclr => { b := .arr, off := 0x40, fs := [⟨0, 1, .wo, 0, []⟩] }
  | .arrReserr => { b := .arr, off := 0x44, fs := [⟨0, 16, .rc, 0, []⟩] }
  | .arrOtag => { b := .arr, off := 0x48, cnt := 8, str := 0x4, fs := [⟨0, 32, .ro, 0, []⟩] }
  | .gauCtrl => { b := .gau, off := 0x0, fs := [⟨0, 1, .rw, 0, []⟩] }
  | .gauDefault => { b := .gau, off := 0x4, fs := [⟨0, 4, .img, 0, []⟩, ⟨4, 4, .img, 0, []⟩, ⟨8, 1, .img, 0, []⟩, ⟨9, 4, .img, 0, []⟩, ⟨13, 4, .img, 0, []⟩] }
  | .gauPerm => { b := .gau, off := 0x8, fs := [⟨0, 1, .img, 0, []⟩, ⟨1, 1, .img, 0, []⟩, ⟨2, 1, .img, 0, []⟩] }
  | .gauStatus => { b := .gau, off := 0xc, fs := [⟨0, 6, .ro, 0, []⟩] }
  | .gauSamples => { b := .gau, off := 0x10, fs := [⟨0, 32, .rc, 0, []⟩] }
  | .gauFmiss => { b := .gau, off := 0x14, fs := [⟨0, 32, .rc, 0, []⟩] }
  | .gauBmiss => { b := .gau, off := 0x18, fs := [⟨0, 32, .rc, 0, []⟩] }
  | .gauRetries => { b := .gau, off := 0x1c, fs := [⟨0, 32, .rc, 0, []⟩] }
  | .gauTop => { b := .gau, off := 0x20, fs := [⟨0, 32, .rc, 0, []⟩] }
  | .gauJit => { b := .gau, off := 0x24, fs := [⟨0, 32, .rc, 0, []⟩] }
  | .gauWait => { b := .gau, off := 0x28, fs := [⟨0, 32, .rc, 0, []⟩] }
  | .gauMisstile => { b := .gau, off := 0x2c, fs := [⟨0, 32, .ro, 0, []⟩] }
  | .gauMisspos => { b := .gau, off := 0x30, fs := [⟨0, 30, .ro, 0, []⟩] }
  | .sveCtrl => { b := .sve, off := 0x0, fs := [⟨0, 1, .rw, 0, []⟩, ⟨1, 1, .rw, 0, []⟩] }
  | .sveStatus => { b := .sve, off := 0x4, fs := [⟨0, 12, .ro, 0, []⟩] }
  | .sveZblk => { b := .sve, off := 0x8, pair := true, fs := [⟨0, 32, .ro, 0, []⟩], hi := [⟨0, 32, .ro, 0, []⟩] }
  | .sveOvfl => { b := .sve, off := 0x10, fs := [⟨0, 32, .rc, 0, []⟩] }
  | .sveIoob => { b := .sve, off := 0x14, fs := [⟨0, 32, .rc, 0, []⟩] }
  | .sveZrlerr => { b := .sve, off := 0x18, fs := [⟨0, 32, .rc, 0, []⟩] }
  | .sveSpill => { b := .sve, off := 0x1c, fs := [⟨0, 32, .rc, 0, []⟩] }
  | .sveScin => { b := .sve, off := 0x20, fs := [⟨0, 32, .rc, 0, []⟩] }
  | .sveScsamp => { b := .sve, off := 0x24, fs := [⟨0, 32, .rc, 0, []⟩] }
  | .sveSpecmiss => { b := .sve, off := 0x28, fs := [⟨0, 32, .rc, 0, []⟩] }
  | .sveLasterr => { b := .sve, off := 0x2c, fs := [⟨0, 32, .ro, 0, []⟩] }
  | .rkeStatus => { b := .rke, off := 0x0, fs := [⟨0, 3, .ro, 0, []⟩] }
  | .rkeRecords => { b := .rke, off := 0x4, fs := [⟨0, 32, .rc, 0, []⟩] }
  | .rkeRsat => { b := .rke, off := 0x8, fs := [⟨0, 32, .rc, 0, []⟩] }
  | .rkeRnan => { b := .rke, off := 0xc, fs := [⟨0, 32, .rc, 0, []⟩] }
  | .rkeXmis => { b := .rke, off := 0x10, fs := [⟨0, 32, .rc, 0, []⟩] }
  | .vecCtrl => { b := .vec, off := 0x0, fs := [⟨0, 8, .rw, 0, []⟩] }
  | .vecStatus => { b := .vec, off := 0x4, fs := [⟨0, 19, .ro, 0, []⟩] }
  | .vecVlen => { b := .vec, off := 0x8, fs := [⟨0, 32, .rw, 0, []⟩] }
  | .vecSmax => { b := .vec, off := 0xc, fs := [⟨0, 32, .ro, 0, []⟩] }
  | .vecSsum => { b := .vec, off := 0x10, fs := [⟨0, 32, .ro, 0, []⟩] }
  | .vecScnt => { b := .vec, off := 0x14, fs := [⟨0, 32, .ro, 0, []⟩] }
  | .vecSflg => { b := .vec, off := 0x18, fs := [⟨0, 5, .ro, 0, []⟩] }
  | .vecObusy => { b := .vec, off := 0x1c, pair := true, fs := [⟨0, 32, .ro, 0, []⟩], hi := [⟨0, 32, .ro, 0, []⟩] }
  | .vecOstall => { b := .vec, off := 0x24, pair := true, fs := [⟨0, 32, .ro, 0, []⟩], hi := [⟨0, 32, .ro, 0, []⟩] }
  | .spdWheela => { b := .spd, off := 0x0, fs := [⟨0, 32, .img, 0, []⟩] }
  | .spdWheelb => { b := .spd, off := 0x4, fs := [⟨0, 32, .img, 0, []⟩] }
  | .spdSpare => { b := .spd, off := 0x8, fs := [⟨0, 4, .img, 0, []⟩, ⟨4, 4, .img, 0, []⟩] }
  | .spdSlto => { b := .spd, off := 0xc, fs := [⟨0, 5, .rw, 0x10, [(0, 9), (25, 31)]⟩] }
  | .spdStatus => { b := .spd, off := 0x10, fs := [⟨0, 7, .ro, 0, []⟩] }
  | .spdColl => { b := .spd, off := 0x14, fs := [⟨0, 32, .rc, 0, []⟩] }
  | .spdLasterr => { b := .spd, off := 0x18, fs := [⟨0, 11, .ro, 0, []⟩] }
  | .spdSlotBase => { b := .spd, off := 0x100, cnt := 64, str := 0x8, fs := [⟨0, 14, .rw, 0, []⟩, ⟨14, 14, .rw, 0, []⟩] }
  | .spdSlotCfg => { b := .spd, off := 0x104, cnt := 64, str := 0x8, fs := [⟨0, 1, .rw, 0, []⟩, ⟨1, 3, .rw, 0, [(5, 7)]⟩, ⟨4, 8, .rw, 0, []⟩, ⟨12, 1, .rw, 0, []⟩, ⟨13, 2, .ro, 0, []⟩, ⟨15, 1, .wo, 0, []⟩] }
  | .spdWinBase => { b := .spd, off := 0x300, cnt := 64, str := 0x8, fs := [⟨0, 14, .rw, 0, []⟩, ⟨14, 14, .rw, 0, []⟩] }
  | .spdWinCfg => { b := .spd, off := 0x304, cnt := 64, str := 0x8, fs := [⟨0, 2, .rw, 0, []⟩, ⟨2, 1, .rw, 0, []⟩, ⟨3, 1, .rw, 0, []⟩, ⟨4, 1, .rw, 0, []⟩, ⟨5, 16, .rw, 0, []⟩] }
  | .dmaDesc => { b := .dma, off := 0x0, cnt := 16, str := 0x10, pair := true, fs := [⟨0, 32, .rw, 0, []⟩], hi := [⟨0, 16, .rw, 0, []⟩] }
  | .dmaCtrl => { b := .dma, off := 0x8, cnt := 16, str := 0x10, fs := [⟨0, 1, .wo, 0, []⟩, ⟨1, 1, .wo, 0, []⟩] }
  | .dmaStatus => { b := .dma, off := 0xc, cnt := 16, str := 0x10, fs := [⟨0, 32, .ro, 0, []⟩] }
  | .dmaBusy => { b := .dma, off := 0x100, fs := [⟨0, 16, .ro, 0, []⟩] }
  | .dmaErrcnt => { b := .dma, off := 0x104, fs := [⟨0, 32, .rc, 0, []⟩] }
  | .pntGrp => { b := .pnt, off := 0x0, cnt := 64, str := 0x4, fs := [⟨0, 6, .img, 0, []⟩, ⟨6, 3, .img, 0, []⟩, ⟨9, 1, .img, 0, []⟩, ⟨10, 6, .img, 0, []⟩] }
  | .pntOpctl => { b := .pnt, off := 0x100, fs := [⟨0, 2, .wo, 0, []⟩, ⟨2, 6, .wo, 0, []⟩] }
  | .pntOpstat => { b := .pnt, off := 0x104, fs := [⟨0, 7, .ro, 0, []⟩] }
  | .pntCntsel => { b := .pnt, off := 0x108, fs := [⟨0, 6, .rw, 0, []⟩] }
  | .pntHit => { b := .pnt, off := 0x10c, pair := true, fs := [⟨0, 32, .ro, 0, []⟩], hi := [⟨0, 32, .ro, 0, []⟩] }
  | .pntMiss => { b := .pnt, off := 0x114, pair := true, fs := [⟨0, 32, .ro, 0, []⟩], hi := [⟨0, 32, .ro, 0, []⟩] }
  | .sdtCtrl => { b := .sdt, off := 0x0, cnt := 64, str := 0x100, fs := [⟨0, 1, .wo, 0, []⟩, ⟨1, 1, .wo, 0, []⟩, ⟨2, 1, .wo, 0, []⟩] }
  | .sdtCfg => { b := .sdt, off := 0x4, cnt := 64, str := 0x100, fs := [⟨0, 6, .img, 0, []⟩, ⟨6, 1, .img, 0, []⟩] }
  | .sdtStat => { b := .sdt, off := 0x8, cnt := 64, str := 0x100, fs := [⟨0, 18, .ro, 0, []⟩] }
  | .sdtEpoch => { b := .sdt, off := 0xc, cnt := 64, str := 0x100, fs := [⟨0, 32, .ro, 0, []⟩] }
  | .sdtNext => { b := .sdt, off := 0x10, cnt := 64, str := 0x100, fs := [⟨0, 32, .ro, 0, []⟩] }
  | .sdtTotal => { b := .sdt, off := 0x14, cnt := 64, str := 0x100, fs := [⟨0, 32, .ro, 0, []⟩] }
  | .sdtDone => { b := .sdt, off := 0x18, cnt := 64, str := 0x100, fs := [⟨0, 32, .ro, 0, []⟩] }
  | .sdtQueue => { b := .sdt, off := 0x1c, cnt := 64, str := 0x100, fs := [⟨0, 24, .ro, 0, []⟩] }
  | .sdtRetry => { b := .sdt, off := 0x20, cnt := 64, str := 0x100, fs := [⟨0, 32, .ro, 0, []⟩] }
  | .sdtSpec => { b := .sdt, off := 0x24, cnt := 64, str := 0x100, fs := [⟨0, 32, .ro, 0, []⟩] }
  | .sdtDup => { b := .sdt, off := 0x28, cnt := 64, str := 0x100, fs := [⟨0, 32, .rc, 0, []⟩] }
  | .sdtLastdup => { b := .sdt, off := 0x2c, cnt := 64, str := 0x100, fs := [⟨0, 32, .ro, 0, []⟩] }
  | .sdtRewto => { b := .sdt, off := 0x30, cnt := 64, str := 0x100, fs := [⟨0, 32, .rw, 0, []⟩] }
  | .sdtAlen => { b := .sdt, off := 0x34, cnt := 64, str := 0x100, fs := [⟨0, 32, .ro, 0, []⟩] }
  | .sdtHmrg => { b := .sdt, off := 0x38, cnt := 64, str := 0x100, fs := [⟨0, 32, .ro, 0, []⟩] }
  | .sdtTbluse => { b := .sdt, off := 0x4000, fs := [⟨0, 12, .ro, 0, []⟩] }
  | .seqCtrl => { b := .seq, off := 0x0, fs := [⟨0, 1, .wo, 0, []⟩, ⟨1, 1, .wo, 0, []⟩, ⟨2, 1, .wo, 0, []⟩] }
  | .seqStatus => { b := .seq, off := 0x4, fs := [⟨0, 31, .ro, 0, []⟩] }
  | .seqRing => { b := .seq, off := 0x8, fs := [⟨0, 14, .rw, 0, []⟩] }
  | .seqLasterr => { b := .seq, off := 0xc, fs := [⟨0, 24, .ro, 0, []⟩] }
  | .seqIssued => { b := .seq, off := 0x10, fs := [⟨0, 32, .rc, 0, []⟩] }
  | .seqLayer => { b := .seq, off := 0x14, fs := [⟨0, 24, .ro, 0, []⟩] }
  | .seqSeed => { b := .seq, off := 0x18, pair := true, fs := [⟨0, 32, .ro, 0, []⟩], hi := [⟨0, 32, .ro, 0, []⟩] }
  | .seqLoop => { b := .seq, off := 0x20, cnt := 4, str := 0x4, fs := [⟨0, 32, .ro, 0, []⟩] }
  | .seqS => { b := .seq, off := 0x40, cnt := 8, str := 0x8, pair := true, fs := [⟨0, 32, .rw, 0, []⟩], hi := [⟨0, 32, .rw, 0, []⟩] }
  | .trlCtrl => { b := .trl, off := 0x0, fs := [⟨0, 1, .wo, 0, []⟩, ⟨1, 1, .wo, 0, []⟩] }
  | .trlSrc => { b := .trl, off := 0x4, pair := true, fs := [⟨0, 32, .rw, 0, []⟩], hi := [⟨0, 16, .rw, 0, []⟩] }
  | .trlStatus => { b := .trl, off := 0xc, fs := [⟨0, 14, .ro, 0, []⟩] }
  | .trlImgver => { b := .trl, off := 0x10, pair := true, fs := [⟨0, 32, .ro, 0, []⟩], hi := [⟨0, 32, .ro, 0, []⟩] }
  | .trlPseq => { b := .trl, off := 0x18, fs := [⟨0, 16, .ro, 0, []⟩] }
  | .trlRb => { b := .trl, off := 0x1c, fs := [⟨0, 6, .ro, 0, []⟩] }
  | .trlRbval => { b := .trl, off := 0x20, fs := [⟨0, 32, .ro, 0, []⟩] }
  | .trlHash => { b := .trl, off := 0x40, cnt := 16, str := 0x4, fs := [⟨0, 32, .ro, 0, []⟩] }
  | .trlPhash => { b := .trl, off := 0x80, cnt := 16, str := 0x4, fs := [⟨0, 32, .ro, 0, []⟩] }
  | .trlPart => { b := .trl, off := 0x100, cnt := 64, str := 0x4, fs := [⟨0, 29, .ro, 0, []⟩] }
  | .trlFence => { b := .trl, off := 0x200, cnt := 8, str := 0x4, fs := [⟨0, 32, .img, 0, []⟩] }
  | .clrCfg => { b := .clr, off := 0x0, fs := [⟨0, 9, .ro, 0, []⟩] }
  | .clrCap => { b := .clr, off := 0x4, fs := [⟨0, 11, .ro, 0, []⟩] }
  | .clrScrub => { b := .clr, off := 0x8, fs := [⟨0, 8, .rw, 0x18, []⟩] }
  | .clrScrubpos => { b := .clr, off := 0xc, fs := [⟨0, 32, .ro, 0, []⟩] }
  | .clrFillctl => { b := .clr, off := 0x10, fs := [⟨0, 1, .wo, 0, []⟩, ⟨1, 1, .wo, 0, []⟩] }
  | .clrFillstat => { b := .clr, off := 0x14, fs := [⟨0, 6, .ro, 0, []⟩] }
  | .clrFillbase => { b := .clr, off := 0x18, pair := true, fs := [⟨0, 32, .rw, 0, []⟩], hi := [⟨0, 16, .rw, 0, []⟩] }
  | .clrFillsize => { b := .clr, off := 0x20, pair := true, fs := [⟨0, 32, .rw, 0, []⟩], hi := [⟨0, 16, .rw, 0, []⟩] }
  | .clrFillpat => { b := .clr, off := 0x28, fs := [⟨0, 32, .rw, 0, []⟩] }
  | .clrUecnt => { b := .clr, off := 0x2c, fs := [⟨0, 32, .rc, 0, []⟩] }
  | .clrLastue => { b := .clr, off := 0x30, pair := true, fs := [⟨0, 32, .ro, 0, []⟩], hi := [⟨0, 32, .ro, 0, []⟩] }
  | .clrCe => { b := .clr, off := 0x40, cnt := 16, str := 0x4, fs := [⟨0, 16, .rc, 0, []⟩, ⟨16, 4, .ro, 0, []⟩, ⟨20, 1, .ro, 0, []⟩] }
  | .clrKslot => { b := .clr, off := 0x1000, cnt := 1024, str := 0x4, fs := [⟨0, 2, .ro, 0, []⟩] }
  | .tchTopo => { b := .tch, off := 0x0, fs := [⟨0, 4, .rw, 0, []⟩, ⟨4, 4, .rw, 0, []⟩, ⟨8, 4, .rw, 0, []⟩] }
  | .tchId => { b := .tch, off := 0x4, fs := [⟨0, 12, .img, 0, []⟩] }
  | .tchRto => { b := .tch, off := 0x8, fs := [⟨0, 5, .rw, 7, [(0, 3), (17, 31)]⟩] }
  | .tchBadpkt => { b := .tch, off := 0xc, fs := [⟨0, 32, .rc, 0, []⟩] }
  | .tchCtrl => { b := .tch, off := 0x100, cnt := 6, str := 0x20, fs := [⟨0, 1, .wo, 0, []⟩, ⟨1, 1, .wo, 0, []⟩] }
  | .tchStatus => { b := .tch, off := 0x104, cnt := 6, str := 0x20, fs := [⟨0, 29, .ro, 0, []⟩] }
  | .tchFeccor => { b := .tch, off := 0x108, cnt := 6, str := 0x20, fs := [⟨0, 32, .rc, 0, []⟩] }
  | .tchFecunc => { b := .tch, off := 0x10c, cnt := 6, str := 0x20, fs := [⟨0, 32, .rc, 0, []⟩] }
  | .tchCrcerr => { b := .tch, off := 0x110, cnt := 6, str := 0x20, fs := [⟨0, 32, .rc, 0, []⟩] }
  | .tchRetry => { b := .tch, off := 0x114, cnt := 6, str := 0x20, fs := [⟨0, 32, .rc, 0, []⟩] }
  | .tchDown => { b := .tch, off := 0x118, cnt := 6, str := 0x20, fs := [⟨0, 32, .rc, 0, []⟩] }
  | .grpCtrl => { b := .tch, off := 0x1000, cnt := 256, str := 0x20, fs := [⟨0, 1, .wo, 0, []⟩, ⟨1, 1, .wo, 0, []⟩, ⟨16, 16, .wo, 0, []⟩] }
  | .grpStatus => { b := .tch, off := 0x1004, cnt := 256, str := 0x20, fs := [⟨0, 32, .ro, 0, []⟩] }
  | .grpTbase => { b := .tch, off := 0x1008, cnt := 256, str := 0x20, fs := [⟨0, 32, .rw, 0, []⟩] }
  | .grpTcount => { b := .tch, off := 0x100c, cnt := 256, str := 0x20, fs := [⟨0, 32, .rw, 0, []⟩] }
  | .grpArea => { b := .tch, off := 0x1010, cnt := 256, str := 0x20, pair := true, fs := [⟨0, 32, .rw, 0, []⟩], hi := [⟨0, 16, .rw, 0, []⟩] }
  | .grpSlot => { b := .tch, off := 0x1018, cnt := 256, str := 0x20, fs := [⟨0, 24, .rw, 0, []⟩, ⟨24, 5, .rw, 0xe, [(0, 9), (21, 31)]⟩] }
  | .grpBar => { b := .tch, off := 0x101c, cnt := 256, str := 0x20, fs := [⟨0, 8, .rw, 0, []⟩, ⟨8, 6, .rw, 0, []⟩, ⟨14, 1, .rw, 0, []⟩] }
  | .sesCfg => { b := .ses, off := 0x0, fs := [⟨0, 16, .rw, 0x4858, []⟩, ⟨16, 1, .rw, 1, []⟩, ⟨17, 1, .rw, 1, []⟩, ⟨18, 8, .rw, 0xa, [(0, 0)]⟩] }
  | .sesStatus => { b := .ses, off := 0x4, fs := [⟨0, 28, .ro, 0, []⟩] }
  | .sesHsdrop => { b := .ses, off := 0x8, fs := [⟨0, 32, .rc, 0, []⟩] }
  | .sesAuthfail => { b := .ses, off := 0xc, fs := [⟨0, 32, .rc, 0, []⟩] }
  | .sesTagfail => { b := .ses, off := 0x10, fs := [⟨0, 32, .rc, 0, []⟩] }
  | .sesBadfrm => { b := .ses, off := 0x14, fs := [⟨0, 32, .rc, 0, []⟩] }
  | .sesSel => { b := .ses, off := 0x18, fs := [⟨0, 16, .rw, 0, []⟩] }
  | .sesCtxstat => { b := .ses, off := 0x1c, fs := [⟨0, 26, .ro, 0, []⟩] }
  | .sesKill => { b := .ses, off := 0x20, fs := [⟨0, 16, .wo, 0, []⟩, ⟨16, 1, .wo, 0, []⟩] }
  | .sesTnctl => { b := .ses, off := 0x24, fs := [⟨0, 12, .wo, 0, []⟩, ⟨12, 1, .wo, 0, []⟩, ⟨13, 1, .wo, 0, []⟩] }
  | .sesTnstat => { b := .ses, off := 0x28, fs := [⟨0, 13, .ro, 0, []⟩] }
  | .sesTndata => { b := .ses, off := 0x80, cnt := 32, str := 0x4, fs := [⟨0, 32, .wo, 0, []⟩] }
  | .ethPtpsel => { b := .eth, off := 0x0, fs := [⟨0, 3, .rw, 4, [(5, 7)]⟩] }
  | .ethStatus => { b := .eth, off := 0x100, cnt := 4, str := 0x80, fs := [⟨0, 6, .ro, 0, []⟩] }
  | .ethTsn => { b := .eth, off := 0x104, cnt := 4, str := 0x80, fs := [⟨0, 8, .rw, 0xff, []⟩, ⟨8, 8, .rw, 0, []⟩, ⟨16, 1, .rw, 1, []⟩] }
  | .ethMac => { b := .eth, off := 0x108, cnt := 4, str := 0x80, pair := true, fs := [⟨0, 32, .ro, 0, []⟩], hi := [⟨0, 16, .ro, 0, []⟩] }
  | .ethIp4 => { b := .eth, off := 0x110, cnt := 4, str := 0x80, fs := [⟨0, 32, .rw, 0, []⟩] }
  | .ethIp6 => { b := .eth, off := 0x114, cnt := 4, str := 0x80, cnt2 := 4, str2 := 0x4, fs := [⟨0, 32, .rw, 0, []⟩] }
  | .ethRxdrop => { b := .eth, off := 0x124, cnt := 4, str := 0x80, fs := [⟨0, 32, .rc, 0, []⟩] }
  | .ethGatedrop => { b := .eth, off := 0x128, cnt := 4, str := 0x80, fs := [⟨0, 32, .rc, 0, []⟩] }
  | .ethFcserr => { b := .eth, off := 0x12c, cnt := 4, str := 0x80, fs := [⟨0, 32, .rc, 0, []⟩] }
  | .ethIdle => { b := .eth, off := 0x130, cnt := 4, str := 0x80, cnt2 := 8, str2 := 0x4, fs := [⟨0, 20, .rw, 0, []⟩] }
  | .ethFilt0 => { b := .eth, off := 0x10000, cnt := 4, str := 0x4000, cnt2 := 1024, str2 := 0x10, fs := [⟨0, 32, .rw, 0, []⟩] }
  | .ethFilt1 => { b := .eth, off := 0x10004, cnt := 4, str := 0x4000, cnt2 := 1024, str2 := 0x10, fs := [⟨0, 32, .rw, 0, []⟩] }
  | .ethFilt2 => { b := .eth, off := 0x10008, cnt := 4, str := 0x4000, cnt2 := 1024, str2 := 0x10, fs := [⟨0, 8, .rw, 0, []⟩, ⟨16, 16, .rw, 0, []⟩] }
  | .ethFilt3 => { b := .eth, off := 0x1000c, cnt := 4, str := 0x4000, cnt2 := 1024, str2 := 0x10, fs := [] }
  | .ethGate => { b := .eth, off := 0x20000, cnt := 4, str := 0x2000, cnt2 := 1024, str2 := 0x8, fs := [⟨0, 1, .rw, 0, []⟩] }
  | .ethGateIv => { b := .eth, off := 0x20004, cnt := 4, str := 0x2000, cnt2 := 1024, str2 := 0x8, fs := [⟨0, 32, .rw, 0, []⟩] }
  | .secStatus => { b := .sec, off := 0x0, fs := [⟨0, 10, .ro, 0, []⟩] }
  | .secSerial => { b := .sec, off := 0x4, pair := true, fs := [⟨0, 32, .ro, 0, []⟩], hi := [⟨0, 32, .ro, 0, []⟩] }
  | .secOwnhash => { b := .sec, off := 0x40, cnt := 16, str := 0x4, fs := [⟨0, 32, .ro, 0, []⟩] }
  | .secIdhash => { b := .sec, off := 0x80, cnt := 16, str := 0x4, fs := [⟨0, 32, .ro, 0, []⟩] }
  | .secLogdig => { b := .sec, off := 0xc0, cnt := 16, str := 0x4, fs := [⟨0, 32, .ro, 0, []⟩] }
  | .secRb => { b := .sec, off := 0x100, cnt := 64, str := 0x4, fs := [⟨0, 8, .ro, 0, []⟩] }
  | .secRbadv => { b := .sec, off := 0x200, fs := [⟨0, 6, .wo, 0, []⟩] }
  | .secKill => { b := .sec, off := 0x204, fs := [⟨0, 6, .wo, 0, []⟩, ⟨6, 1, .wo, 0, []⟩] }
  | .secLogcnt => { b := .sec, off := 0x208, fs := [⟨0, 32, .ro, 0, []⟩] }
  | .secDbgchal => { b := .sec, off := 0x20c, pair := true, fs := [⟨0, 32, .ro, 0, []⟩], hi := [⟨0, 32, .ro, 0, []⟩] }
  | .secDbgctl => { b := .sec, off := 0x214, fs := [⟨0, 1, .wo, 0, []⟩, ⟨1, 1, .ro, 0, []⟩, ⟨2, 3, .ro, 0, []⟩] }
  | .secDbgaddr => { b := .sec, off := 0x218, pair := true, fs := [⟨0, 32, .rw, 0, []⟩], hi := [⟨0, 16, .rw, 0, []⟩] }
  | .secAttctl => { b := .sec, off := 0x220, fs := [⟨0, 1, .wo, 0, []⟩, ⟨1, 1, .ro, 0, []⟩] }
  | .secAttaddr => { b := .sec, off := 0x224, pair := true, fs := [⟨0, 32, .rw, 0, []⟩], hi := [⟨0, 16, .rw, 0, []⟩] }
  | .secPstate => { b := .sec, off := 0x230, cnt := 4, str := 0x4, fs := [⟨0, 32, .ro, 0, []⟩] }
  | .prcDevid => { b := .prc, off := 0x0, fs := [⟨0, 28, .ro, 0x19256b0, []⟩] }
  | .prcState => { b := .prc, off := 0x4, fs := [⟨0, 13, .ro, 0, []⟩] }
  | .prcPctl => { b := .prc, off := 0x8, fs := [⟨0, 4, .wo, 0, []⟩, ⟨4, 4, .wo, 0, []⟩, ⟨8, 1, .wo, 0, []⟩] }
  | .prcPwrcfg => { b := .prc, off := 0xc, fs := [⟨0, 10, .rw, 0x32, []⟩, ⟨10, 7, .rw, 0x5f, [(0, 84), (101, 127)]⟩] }
  | .prcFilt => { b := .prc, off := 0x10, fs := [⟨0, 4, .rw, 2, [(9, 15)]⟩, ⟨4, 4, .rw, 0, [(9, 15)]⟩, ⟨8, 4, .rw, 1, [(9, 15)]⟩] }
  | .prcWakecfg => { b := .prc, off := 0x14, fs := [⟨0, 1, .rw, 1, []⟩, ⟨1, 1, .rw, 1, []⟩, ⟨2, 1, .rw, 0, []⟩, ⟨3, 3, .ro, 4, []⟩] }
  | .prcTime => { b := .prc, off := 0x18, pair := true, fs := [⟨0, 32, .ro, 0, []⟩], hi := [⟨0, 32, .ro, 0, []⟩] }
  | .prcWaket => { b := .prc, off := 0x20, pair := true, fs := [⟨0, 32, .rw, 0, []⟩], hi := [⟨0, 32, .rw, 0, []⟩] }
  | .prcTsync => { b := .prc, off := 0x28, fs := [⟨0, 24, .ro, 0, []⟩] }
  | .prcPkgpwr => { b := .prc, off := 0x2c, fs := [⟨0, 29, .ro, 0, []⟩] }
  | .prcStretch => { b := .prc, off := 0x30, fs := [⟨0, 24, .ro, 0, []⟩] }
  | .prcTemp => { b := .prc, off := 0x100, cnt := 64, str := 0x4, fs := [⟨0, 24, .ro, 0, []⟩] }
  | .prcCur => { b := .prc, off := 0x200, cnt := 16, str := 0x4, fs := [⟨0, 16, .ro, 0, []⟩] }
  | .prcVolt => { b := .prc, off := 0x240, cnt := 24, str := 0x4, fs := [⟨0, 12, .ro, 0, []⟩] }
  | .mtrStatus => { b := .mtr, off := 0x0, fs := [⟨0, 13, .ro, 0, []⟩] }
  | .mtrCap => { b := .mtr, off := 0x4, fs := [⟨0, 10, .img, 0, []⟩, ⟨10, 10, .img, 0, []⟩] }
  | .mtrClane => { b := .mtr, off := 0x8, fs := [⟨0, 32, .img, 0, []⟩] }
  | .mtrCbyte => { b := .mtr, off := 0xc, fs := [⟨0, 32, .img, 0, []⟩] }
  | .mtrCal => { b := .mtr, off := 0x10, fs := [⟨0, 32, .ro, 0x10000, []⟩] }
  | .mtrDev => { b := .mtr, off := 0x18, pair := true, fs := [⟨0, 32, .ro, 0, []⟩], hi := [⟨0, 32, .ro, 0, []⟩] }
  | .mtrCoef => { b := .mtr, off := 0x40, cnt := 12, str := 0x4, fs := [⟨0, 32, .img, 0, []⟩] }
  | .mtrCore => { b := .mtr, off := 0x100, cnt := 256, str := 0x8, pair := true, fs := [⟨0, 32, .ro, 0, []⟩], hi := [⟨0, 32, .ro, 0, []⟩] }
  | .mtrLedg => { b := .mtr, off := 0x900, cnt := 64, str := 0x20, pair := true, fs := [⟨0, 32, .ro, 0, []⟩], hi := [⟨0, 32, .ro, 0, []⟩] }
  | .mtrSpend => { b := .mtr, off := 0x908, cnt := 64, str := 0x20, pair := true, fs := [⟨0, 32, .ro, 0, []⟩], hi := [⟨0, 32, .ro, 0, []⟩] }
  | .mtrBud => { b := .mtr, off := 0x910, cnt := 64, str := 0x20, pair := true, fs := [⟨0, 32, .img, 0, []⟩], hi := [⟨0, 32, .img, 0, []⟩] }
  | .mtrWin => { b := .mtr, off := 0x918, cnt := 64, str := 0x20, fs := [⟨0, 14, .img, 0, []⟩, ⟨14, 12, .ro, 0, []⟩] }
  | .mtrSsel => { b := .mtr, off := 0x1100, fs := [⟨0, 16, .rw, 0, []⟩] }
  | .mtrSwin => { b := .mtr, off := 0x1104, fs := [⟨0, 14, .rw, 1, [(0, 0), (10001, 16383)]⟩, ⟨14, 1, .rw, 0, []⟩] }
  | .mtrSbud => { b := .mtr, off := 0x1108, pair := true, fs := [⟨0, 32, .rw, 0, []⟩], hi := [⟨0, 32, .rw, 0, []⟩] }
  | .mtrSledg => { b := .mtr, off := 0x1110, pair := true, fs := [⟨0, 32, .ro, 0, []⟩], hi := [⟨0, 32, .ro, 0, []⟩] }
  | .mtrSspend => { b := .mtr, off := 0x1118, pair := true, fs := [⟨0, 32, .ro, 0, []⟩], hi := [⟨0, 32, .ro, 0, []⟩] }
  | .evtStatus => { b := .evt, off := 0x0, fs := [⟨0, 6, .ro, 0, []⟩] }
  | .evtWrcnt => { b := .evt, off := 0x4, fs := [⟨0, 32, .ro, 0, []⟩] }
  | .evtRdidx => { b := .evt, off := 0x8, fs := [⟨0, 13, .rw, 0, []⟩] }
  | .evtLost => { b := .evt, off := 0xc, fs := [⟨0, 32, .rc, 0, []⟩] }
  | .evtCntC => { b := .evt, off := 0x10, fs := [⟨0, 32, .rc, 0, []⟩] }
  | .evtCntT => { b := .evt, off := 0x14, fs := [⟨0, 32, .rc, 0, []⟩] }
  | .evtCntP => { b := .evt, off := 0x18, fs := [⟨0, 32, .rc, 0, []⟩] }
  | .evtCntD => { b := .evt, off := 0x1c, fs := [⟨0, 32, .rc, 0, []⟩] }
  | .evtRstctl => { b := .evt, off := 0x20, fs := [⟨0, 1, .wo, 0, []⟩, ⟨1, 1, .wo, 0, []⟩, ⟨2, 6, .wo, 0, []⟩] }
  | .evtRstcfg => { b := .evt, off := 0x24, fs := [⟨0, 1, .rw, 0, []⟩, ⟨1, 15, .rw, 0, []⟩] }
  | .evtCqctl => { b := .evt, off := 0x28, fs := [⟨0, 8, .wo, 0, []⟩, ⟨8, 1, .wo, 0, []⟩, ⟨9, 1, .wo, 0, []⟩, ⟨10, 1, .wo, 0, []⟩] }
  | .evtForce => { b := .evt, off := 0x2c, fs := [⟨0, 8, .wo, 0, []⟩, ⟨8, 1, .wo, 0, []⟩] }
  | .evtSuspth => { b := .evt, off := 0x30, fs := [⟨0, 8, .rw, 8, []⟩] }
  | .evtCstate => { b := .evt, off := 0x100, cnt := 16, str := 0x4, fs := [⟨0, 32, .ro, 0, []⟩] }
  | .evtCflt => { b := .evt, off := 0x200, cnt := 256, str := 0x4, fs := [⟨0, 16, .ro, 0, []⟩, ⟨16, 1, .w1c, 0, []⟩] }
  | .evtRec => { b := .evt, off := 0x10000, cnt := 8192, str := 0x20, cnt2 := 8, str2 := 0x4, fs := [⟨0, 32, .ro, 0, []⟩] }

/-- The ARR block. -/
def arrRegs : List RegName :=
  [.arrCtrl, .arrShape, .arrStatus, .arrLasttsw, .arrBcyc, .arrBstep, .arrZskip, .arrWait, .arrLstall, .arrPstall, .arrCntclr, .arrReserr, .arrOtag]
/-- The SVE block. -/
def sveRegs : List RegName :=
  [.sveCtrl, .sveStatus, .sveZblk, .sveOvfl, .sveIoob, .sveZrlerr, .sveSpill, .sveScin, .sveScsamp, .sveSpecmiss, .sveLasterr]
/-- The RKE block. -/
def rkeRegs : List RegName :=
  [.rkeStatus, .rkeRecords, .rkeRsat, .rkeRnan, .rkeXmis]
/-- The VEC block. -/
def vecRegs : List RegName :=
  [.vecCtrl, .vecStatus, .vecVlen, .vecSmax, .vecSsum, .vecScnt, .vecSflg, .vecObusy, .vecOstall]
/-- The SEQ block. -/
def seqRegs : List RegName :=
  [.seqCtrl, .seqStatus, .seqRing, .seqLasterr, .seqIssued, .seqLayer, .seqSeed, .seqLoop, .seqS]
/-- The SPD block. -/
def spdRegs : List RegName :=
  [.spdWheela, .spdWheelb, .spdSpare, .spdSlto, .spdStatus, .spdColl, .spdLasterr, .spdSlotBase, .spdSlotCfg, .spdWinBase, .spdWinCfg]
/-- The DMA block. -/
def dmaRegs : List RegName :=
  [.dmaDesc, .dmaCtrl, .dmaStatus, .dmaBusy, .dmaErrcnt]
/-- The GAU block. -/
def gauRegs : List RegName :=
  [.gauCtrl, .gauDefault, .gauPerm, .gauStatus, .gauSamples, .gauFmiss, .gauBmiss, .gauRetries, .gauTop, .gauJit, .gauWait, .gauMisstile, .gauMisspos]
/-- The SDT block. -/
def sdtRegs : List RegName :=
  [.sdtCtrl, .sdtCfg, .sdtStat, .sdtEpoch, .sdtNext, .sdtTotal, .sdtDone, .sdtQueue, .sdtRetry, .sdtSpec, .sdtDup, .sdtLastdup, .sdtRewto, .sdtAlen, .sdtHmrg, .sdtTbluse]
/-- The MTR block. -/
def mtrRegs : List RegName :=
  [.mtrStatus, .mtrCap, .mtrClane, .mtrCbyte, .mtrCal, .mtrDev, .mtrCoef, .mtrCore, .mtrLedg, .mtrSpend, .mtrBud, .mtrWin, .mtrSsel, .mtrSwin, .mtrSbud, .mtrSledg, .mtrSspend]
/-- The PNT block. -/
def pntRegs : List RegName :=
  [.pntGrp, .pntOpctl, .pntOpstat, .pntCntsel, .pntHit, .pntMiss]
/-- The CLR block. -/
def clrRegs : List RegName :=
  [.clrCfg, .clrCap, .clrScrub, .clrScrubpos, .clrFillctl, .clrFillstat, .clrFillbase, .clrFillsize, .clrFillpat, .clrUecnt, .clrLastue, .clrCe, .clrKslot]
/-- The TCH block. -/
def tchRegs : List RegName :=
  [.tchTopo, .tchId, .tchRto, .tchBadpkt, .tchCtrl, .tchStatus, .tchFeccor, .tchFecunc, .tchCrcerr, .tchRetry, .tchDown, .grpCtrl, .grpStatus, .grpTbase, .grpTcount, .grpArea, .grpSlot, .grpBar]
/-- The ETH block. -/
def ethRegs : List RegName :=
  [.ethPtpsel, .ethStatus, .ethTsn, .ethMac, .ethIp4, .ethIp6, .ethRxdrop, .ethGatedrop, .ethFcserr, .ethIdle, .ethFilt0, .ethFilt1, .ethFilt2, .ethFilt3, .ethGate, .ethGateIv]
/-- The SES block. -/
def sesRegs : List RegName :=
  [.sesCfg, .sesStatus, .sesHsdrop, .sesAuthfail, .sesTagfail, .sesBadfrm, .sesSel, .sesCtxstat, .sesKill, .sesTnctl, .sesTnstat, .sesTndata]
/-- The SEC block. -/
def secRegs : List RegName :=
  [.secStatus, .secSerial, .secOwnhash, .secIdhash, .secLogdig, .secRb, .secRbadv, .secKill, .secLogcnt, .secDbgchal, .secDbgctl, .secDbgaddr, .secAttctl, .secAttaddr, .secPstate]
/-- The PRC block. -/
def prcRegs : List RegName :=
  [.prcDevid, .prcState, .prcPctl, .prcPwrcfg, .prcFilt, .prcWakecfg, .prcTime, .prcWaket, .prcTsync, .prcPkgpwr, .prcStretch, .prcTemp, .prcCur, .prcVolt]
/-- The TRL block. -/
def trlRegs : List RegName :=
  [.trlCtrl, .trlSrc, .trlStatus, .trlImgver, .trlPseq, .trlRb, .trlRbval, .trlHash, .trlPhash, .trlPart, .trlFence]
/-- The EVT block. -/
def evtRegs : List RegName :=
  [.evtStatus, .evtWrcnt, .evtRdidx, .evtLost, .evtCntC, .evtCntT, .evtCntP, .evtCntD, .evtRstctl, .evtRstcfg, .evtCqctl, .evtForce, .evtSuspth, .evtCstate, .evtCflt, .evtRec]

/-- The registers of a block. -/
def Blk.regs : Blk → List RegName
  | .arr => arrRegs
  | .sve => sveRegs
  | .rke => rkeRegs
  | .vec => vecRegs
  | .seq => seqRegs
  | .spd => spdRegs
  | .dma => dmaRegs
  | .gau => gauRegs
  | .sdt => sdtRegs
  | .mtr => mtrRegs
  | .pnt => pntRegs
  | .clr => clrRegs
  | .tch => tchRegs
  | .eth => ethRegs
  | .ses => sesRegs
  | .sec => secRegs
  | .prc => prcRegs
  | .trl => trlRegs
  | .evt => evtRegs

/-- A block lies in a core's control space. -/
def Blk.isCore : Blk → Bool
  | .arr | .sve | .rke | .vec | .seq | .spd | .dma | .gau => true
  | _ => false

/-- Base of a block: within a core's control space (R31), or as a device physical address (R32). -/
def Blk.base : Blk → Nat
  | .arr => 0x0
  | .sve => 0x1000
  | .rke => 0x2000
  | .vec => 0x3000
  | .seq => 0x4000
  | .spd => 0x5000
  | .dma => 0x6000
  | .gau => 0x7000
  | .sdt => 0x21000000000
  | .mtr => 0x21000100000
  | .pnt => 0x21000200000
  | .clr => 0x21000300000
  | .tch => 0x21000400000
  | .eth => 0x21000500000
  | .ses => 0x21000600000
  | .sec => 0x21000700000
  | .prc => 0x21000800000
  | .trl => 0x21000900000
  | .evt => 0x21000a00000

/-- The core block at an offset of a core's control space. -/
def coreBlkAt (off : Nat) : Option Blk :=
  match off / 0x1000 with
  | 0 => some .arr
  | 1 => some .sve
  | 2 => some .rke
  | 3 => some .vec
  | 4 => some .seq
  | 5 => some .spd
  | 6 => some .dma
  | 7 => some .gau
  | _ => none

/-- The hub block number `i` (R32). -/
def hubBlkAt : Nat → Option Blk
  | 0 => some .sdt
  | 1 => some .mtr
  | 2 => some .pnt
  | 3 => some .clr
  | 4 => some .tch
  | 5 => some .eth
  | 6 => some .ses
  | 7 => some .sec
  | 8 => some .prc
  | 9 => some .trl
  | 10 => some .evt
  | _ => none

/-- A register: its name, its core (0 for a hub register), its instance, and for a pair the half. -/
structure RegRef where
  n : RegName
  c : Nat := 0
  i : Nat := 0
  j : Nat := 0
  hi : Bool := false
  deriving DecidableEq, Repr

/-- Start of a core's control space (R31). -/
def ctlBase (c : Nat) : Nat := 0x020000000000 + c * 0x10000

/-- The address of a register. -/
def regAddr (n : RegName) (c i j : Nat) : Nat :=
  let r := n.row
  (if r.b.isCore then ctlBase c else 0) + r.b.base + r.off + i * r.str + j * r.str2

/-- The address of a register. -/
def RegRef.addr (r : RegRef) : Nat := regAddr r.n r.c r.i r.j + (if r.hi then 4 else 0)

/-- Where in a row an offset of its block lies: instance indices and half. -/
def Row.at_ (r : Row) (off : Nat) : Option (Nat × Nat × Bool) :=
  if off < r.off then none
  else
    let o := off - r.off
    let i := if r.cnt = 1 then 0 else o / r.str
    let o1 := o - i * r.str
    let j := if r.cnt2 = 1 then 0 else o1 / r.str2
    let o2 := o1 - j * r.str2
    if i < r.cnt ∧ j < r.cnt2 then
      if o2 = 0 then some (i, j, false) else if r.pair ∧ o2 = 4 then some (i, j, true) else none
    else none

/-- The register among `ns` at an offset of their block. -/
def findReg (c off : Nat) : List RegName → Option RegRef
  | [] => none
  | n :: ns =>
    match n.row.at_ off with
    | some (i, j, h) => some { n := n, c := c, i := i, j := j, hi := h }
    | none => findReg c off ns

/-- The register at a device physical address, if one is there (R31, R32). -/
def regAt (a : Nat) : Option RegRef :=
  if 0x020000000000 ≤ a ∧ a < 0x020001000000 then
    let o := a - 0x020000000000
    match coreBlkAt (o % 0x10000) with
    | some b => findReg (o / 0x10000) (o % 0x1000) b.regs
    | none => none
  else if 0x021000000000 ≤ a then
    let o := a - 0x021000000000
    match hubBlkAt (o / 0x100000) with
    | some b => findReg 0 (o % 0x100000) b.regs
    | none => none
  else none

/-- The fields of a register. -/
def RegRef.fields (r : RegRef) : List Field := if r.hi then r.n.row.hi else r.n.row.fs

/-- Reset value of a register: its fields' reset values (R17). Where an entry of the spec is IMG, fuses or X this is
0 (DESIGN CHOICE, log 3, DESIGN CHOICE, log 4, DESIGN CHOICE, log 5). -/
def resetOf (fs : List Field) : W32 := fs.foldl (fun v f => v ||| BitVec.ofNat 32 ((f.rst % 2 ^ f.n) <<< f.lo)) 0

/-- The bits of the fields of an access type. -/
def maskOf (fs : List Field) (p : Acc6 → Bool) : W32 :=
  fs.foldl (fun v f => if p f.acc then v ||| BitVec.ofNat 32 ((2 ^ f.n - 1) <<< f.lo) else v) 0

/-- A write carries a reserved code in a field that software writes (R12). -/
def reservedIn (fs : List Field) (v : Nat) : Bool :=
  fs.any (fun f => f.bad.any (fun r => r.1 ≤ bits v f.lo f.n && bits v f.lo f.n ≤ r.2))

/-- Some field is of an access type. -/
def hasAcc (fs : List Field) (x : Acc6) : Bool := fs.any (fun f => f.acc = x)

end Sys2Proof.Machine
end

