-- ==== Sys2Proof/Machine/Ops.lean ====
section
/-! DEFINITION. The named operations the families share: raw registers, the units of a state, what the configuration
says, powered and open address ranges, and events. -/
namespace Sys2Proof.Machine

/-! ### Registers as stored -/

/-- The stored value of a register: what was written or set, else its reset value. (DESIGN CHOICE, log 3) -/
def State.rg (s : State) (n : RegName) (c i j : Nat := 0) : W32 :=
  Sparse.get (resetOf n.row.fs) s.regs (regAddr n c i j)

/-- The stored value of a register set. -/
def State.setRg (s : State) (n : RegName) (c i j : Nat) (v : W32) : State :=
  { s with regs := Sparse.put (resetOf n.row.fs) s.regs (regAddr n c i j) v }

/-- The stored high half of a pair. -/
def State.rgHi (s : State) (n : RegName) (c i j : Nat := 0) : W32 :=
  Sparse.get (resetOf n.row.hi) s.regs (regAddr n c i j + 4)

/-- The stored high half of a pair set. -/
def State.setRgHi (s : State) (n : RegName) (c i j : Nat) (v : W32) : State :=
  { s with regs := Sparse.put (resetOf n.row.hi) s.regs (regAddr n c i j + 4) v }

/-- The 64-bit quantity of a pair (R13). -/
def State.rg64 (s : State) (n : RegName) (c i j : Nat := 0) : Nat :=
  (s.rg n c i j).toNat + 2 ^ 32 * (s.rgHi n c i j).toNat

/-- The 64-bit quantity of a pair set. -/
def State.setRg64 (s : State) (n : RegName) (c i j v : Nat) : State :=
  (s.setRg n c i j (BitVec.ofNat 32 v)).setRgHi n c i j (BitVec.ofNat 32 (v / 2 ^ 32))

/-- Field `n` bits from `lo` of a stored register. -/
def State.rf (s : State) (r : RegName) (c i lo n : Nat) : Nat := bits (s.rg r c i).toNat lo n

/-- A 32-bit counter counts `k` up and holds at its greatest value. -/
def State.count (s : State) (n : RegName) (c i k : Nat) : State :=
  s.setRg n c i 0 (BitVec.ofNat 32 (satAdd 32 (s.rg n c i).toNat k))

/-- A 16-bit counter in the low half of its register counts `k` up and holds at its greatest value. -/
def State.count16 (s : State) (n : RegName) (c i k : Nat) : State :=
  let v := (s.rg n c i).toNat
  s.setRg n c i 0 (BitVec.ofNat 32 (setBits v 0 16 (satAdd 16 (bits v 0 16) k)))

/-- A 64-bit counter counts `k` up and wraps. -/
def State.count64 (s : State) (n : RegName) (c k : Nat) : State := s.setRg64 n c 0 0 ((s.rg64 n c + k) % 2 ^ 64)

/-! ### Units -/

/-- Core `c`. -/
def State.core (s : State) (c : Nat) : Core := Sparse.get {} s.cores c
/-- Core `c` replaced. -/
def State.setCore (s : State) (c : Nat) (x : Core) : State := { s with cores := Sparse.put {} s.cores c x }
/-- Core `c` changed. -/
def State.modCore (s : State) (c : Nat) (f : Core → Core) : State := s.setCore c (f (s.core c))

/-- The tile of handle `h`. -/
def Core.tile (k : Core) (h : Nat) : Tile := Sparse.get {} k.tiles h
/-- The tile of handle `h` changed. -/
def Core.modTile (k : Core) (h : Nat) (f : Tile → Tile) : Core :=
  { k with tiles := Sparse.put {} k.tiles h (f (k.tile h)) }
/-- The tile of core `c` and handle `h`. -/
def State.tile (s : State) (c h : Nat) : Tile := (s.core c).tile h
/-- The tile of core `c` and handle `h` changed. -/
def State.modTile (s : State) (c h : Nat) (f : Tile → Tile) : State := s.modCore c (·.modTile h f)

/-- The sequencer of core `c` changed. -/
def State.modSeq (s : State) (c : Nat) (f : Seq → Seq) : State := s.modCore c (fun k => { k with seq := f k.seq })
/-- The array of core `c` changed. -/
def State.modArr (s : State) (c : Nat) (f : Arr → Arr) : State := s.modCore c (fun k => { k with arr := f k.arr })
/-- The vector engine of core `c` changed. -/
def State.modVec (s : State) (c : Nat) (f : Vec → Vec) : State := s.modCore c (fun k => { k with vec := f k.vec })

/-- DMA channel `ch` of core `c`. -/
def State.chan (s : State) (c ch : Nat) : Chan := Sparse.get {} (s.core c).chans ch
/-- DMA channel `ch` of core `c` changed. -/
def State.modChan (s : State) (c ch : Nat) (f : Chan → Chan) : State :=
  s.modCore c (fun k => { k with chans := Sparse.put {} k.chans ch (f (Sparse.get {} k.chans ch)) })

/-- Slot `n` of core `c`: its running state. -/
def State.slot (s : State) (c n : Nat) : Slot := Sparse.get {} (s.core c).slots n
/-- Slot `n` of core `c` set. -/
def State.setSlot (s : State) (c n : Nat) (x : Slot) : State :=
  s.modCore c (fun k => { k with slots := Sparse.put {} k.slots n x })

/-- Dispenser `d`. -/
def State.disp (s : State) (d : Nat) : Disp := Sparse.get {} s.sdt.disps d
/-- Dispenser `d` changed. -/
def State.modDisp (s : State) (d : Nat) (f : Disp → Disp) : State :=
  { s with sdt := { s.sdt with disps := Sparse.put {} s.sdt.disps d (f (s.disp d)) } }

/-- The slice group whose maintenance operation runs: one of PNT_OPCTL, the INVZ of a kill or reset, the WBINV of a resize or of D3
entry (R291, R310). -/
def State.pantryRuns (s : State) : Option Nat :=
  ((s.pnt.op.map (·.2)).or (s.sec.scrubs.flatMap (·.invz)).head?).or (s.trl.wbinv.head?.or s.prc.d3ops.head?)

/-- Tchiuth port `p`. -/
def State.port (s : State) (p : Nat) : Port := Sparse.get {} s.tch.ports p
/-- Tchiuth port `p` changed. -/
def State.modPort (s : State) (p : Nat) (f : Port → Port) : State :=
  { s with tch := { s.tch with ports := Sparse.put {} s.tch.ports p (f (s.port p)) } }

/-- Reduction group `g`. -/
def State.group (s : State) (g : Nat) : Group := Sparse.get {} s.tch.groups g
/-- Reduction group `g` changed. -/
def State.modGroup (s : State) (g : Nat) (f : Group → Group) : State :=
  { s with tch := { s.tch with groups := Sparse.put {} s.tch.groups g (f (s.group g)) } }

/-- Ethernet port `p`; 4 is the management port. -/
def State.ethp (s : State) (p : Nat) : Eth := Sparse.get {} s.eth p
/-- Ethernet port `p` changed. -/
def State.modEth (s : State) (p : Nat) (f : Eth → Eth) : State :=
  { s with eth := Sparse.put {} s.eth p (f (s.ethp p)) }

/-- Session `n`: a host session below 65,536, above them the four management sessions (R445). -/
def State.sess (s : State) (n : Nat) : Session :=
  if n < 65536 then Sparse.get {} s.ses.ctx n else Sparse.get {} s.ses.mgmt (n - 65536)
/-- Session `n` changed. -/
def State.modSess (s : State) (n : Nat) (f : Session → Session) : State :=
  if n < 65536 then { s with ses := { s.ses with ctx := Sparse.put {} s.ses.ctx n (f (s.sess n)) } }
  else { s with ses := { s.ses with mgmt := Sparse.put {} s.ses.mgmt (n - 65536) (f (s.sess n)) } }

/-- The keys of the host sessions that are not FREE. -/
def State.sessions (s : State) : List Nat := s.ses.ctx.map (·.1)
/-- The keys of the management sessions that are not FREE. -/
def State.mgmtSessions (s : State) : List Nat := s.ses.mgmt.map (·.1 + 65536)

/-- The security block set. -/
def State.setSec (s : State) (x : Sec) : State := { s with sec := x }

/-- Something is sent outward (DESIGN CHOICE, log 12). -/
def State.send (s : State) (o : Out) : State := { s with outbox := s.outbox ++ [o] }

/-- A free value taken (DESIGN CHOICE, log 8). -/
def State.draw (s : State) : Nat × State := (Config.freeWord s.free, { s with free := s.free + 1 })

/-- Fold a change over a list. -/
def State.each {α : Type} (s : State) (l : List α) (f : State → α → State) : State := l.foldl f s

/-- Activity of a core counted for the Meter, by class (R522). (DEDUCED, log 45) -/
def State.act (s : State) (c j n : Nat) : State :=
  s.modCore c (fun k => { k with act := Sparse.upd 0 k.act j (· + n) })

/-! ### Cores, quadrants, partitions -/

/-- Quadrant of a core (R19). -/
def quadOf (c : Nat) : Nat := c / 64
/-- Mesh links between two cores of one quadrant (R19, R21). -/
def hops (c d : Nat) : Nat :=
  (max (c % 8) (d % 8) - min (c % 8) (d % 8)) + (max (c % 64 / 8) (d % 64 / 8) - min (c % 64 / 8) (d % 64 / 8))
/-- Traffic of `n` bytes that core `c` causes to or from core `d`, or the hub: each 64 bytes over each mesh link and die
bridge counts for class 6 (R521, R522). Count `12 + e` holds what travels between core `e` and its die bridge.
(DEDUCED, log 45) -/
def State.mesh (s : State) (c : Nat) (d : Option Nat) (n : Nat) : State :=
  let u := ceilDiv n 64
  match d with
  | none => (s.act c 6 u).act c (12 + c) u
  | some d =>
    if quadOf c = quadOf d then s.act c 6 (u * hops c d)
    else ((s.act c 6 (2 * u)).act c (12 + c) u).act c (12 + d) u
/-- Block of a core (R20). -/
def blockOf (c : Nat) : Nat := c / 64 * 16 + c % 64 / 8 / 2 * 4 + c % 8 / 2

/-- A partition record covers block `k` (R379). A DELETE record covers none. -/
def partCovers (r : BitVec 256) (k : Nat) : Bool :=
  let q := k / 16
  let x := k % 4
  let y := k / 4 % 4
  match fld r 7 6 with
  | 0 => q = fld r 9 8 && fld r 11 10 ≤ x && x ≤ fld r 11 10 + fld r 15 14 &&
         fld r 13 12 ≤ y && y ≤ fld r 13 12 + fld r 17 16
  | 1 => (fld r 21 18).testBit q
  | _ => false

/-- The partition that holds a block, in a configuration. -/
def Cfg.partOfBlock (g : Cfg) (k : Nat) : Option Nat := (g.parts.find? (fun x => partCovers x.2 k)).map (·.1)
/-- The partition that holds a core. -/
def State.partOf (s : State) (c : Nat) : Option Nat := s.cfg.partOfBlock (blockOf c)
/-- The cores of a partition, ascending, fenced ones included. -/
def Cfg.coresOf (g : Cfg) (p : Nat) : List Nat := (upTo 256).filter (fun c => g.partOfBlock (blockOf c) = some p)
/-- The cores of a partition in force. -/
def State.coresOf (s : State) (p : Nat) : List Nat := s.cfg.coresOf p
/-- Core enable of the image (R382). -/
def Cfg.enabled (g : Cfg) (c : Nat) : Bool := g.fence.toNat.testBit c
/-- The record of a partition in force. -/
def State.partRec (s : State) (p : Nat) : Option (BitVec 256) := (s.cfg.parts.find? (·.1 = p)).map (·.2)

/-- A core is fenced (R382, R561). -/
def State.fenced (s : State) (c : Nat) : Bool := (s.core c).cst = .fenced
/-- State of a quadrant (R505). -/
def State.quad (s : State) (q : Nat) : QuadSt := Sparse.get .on s.prc.quads q
/-- State of a quadrant set. -/
def State.setQuad (s : State) (q : Nat) (x : QuadSt) : State :=
  { s with prc := { s.prc with quads := Sparse.put .on s.prc.quads q x } }
/-- A core's quadrant is powered: ON or GATED, its VDD_Q rail on (R32, R505, R562). -/
def State.powered (s : State) (c : Nat) : Bool :=
  s.prc.d3 = .none && s.prc.rails.contains (quadOf c) && (s.quad (quadOf c) = .on || s.quad (quadOf c) = .gated)
/-- A transaction that reaches a GATED quadrant restarts its clocks (R507). (DEDUCED, log 28) -/
def State.ungate (s : State) (c : Nat) : State :=
  if s.quad (quadOf c) = .gated then s.setQuad (quadOf c) .on else s
/-- The hub die is powered: VDD_HUB, the rail at 0x44, is on. It is not before step 2 of R567, in D3, after a thermal trip or a
rail's timeout (R32, R511, R517, R562, R568). -/
def State.hubOn (s : State) : Bool := s.prc.rails.contains 4

/-- A partition is SCRUBBING (R500, R547). -/
def State.scrubbing (s : State) (p : Nat) : Bool := s.sec.scrubs.any (·.part = p)
/-- A core's partition is SCRUBBING. -/
def State.coreScrubbing (s : State) (c : Nat) : Bool :=
  match s.partOf c with | some p => s.scrubbing p | none => false
/-- The spaces of a core can be reached: not fenced, powered, its partition not SCRUBBING (R30, R501). -/
def State.coreOpen (s : State) (c : Nat) : Bool := !s.fenced c && s.powered c && !s.coreScrubbing c

/-- Owner of a dispenser: the partition SDT_DnCFG names, while VALID (R334). -/
def State.dispPart (s : State) (d : Nat) : Option Nat :=
  let v := (s.rg .sdtCfg 0 d).toNat
  if v.testBit 6 then some (bits v 0 6) else none
/-- The dispensers of a partition. -/
def State.dispsOf (s : State) (p : Nat) : List Nat := (upTo 64).filter (fun d => s.dispPart d = some p)

/-! ### Requesters and events -/

/-- Number of the session a requester is, if it is one. -/
def reqSession : Req → Option Nat
  | .session n => some n.val
  | .mgmt n => some (65536 + n.val)
  | _ => none
/-- The core a requester is, if it is one. -/
def reqCore : Req → Option Nat
  | .core c => some c.val
  | _ => none
/-- The partition a requester acts for. -/
def State.reqPart (s : State) : Req → Option Nat
  | .core c => s.partOf c.val
  | .session n => some (s.sess n.val).part
  | _ => none
/-- The hub firmware or the Porch, whom a management session asks to act for it (R445). -/
def isHub : Req → Bool
  | .hub | .porch | .mgmt _ => true
  | _ => false

/-- A session takes an event (R465): one about its own messages; one of its partition's work when it holds EVT or owns
the core that raised it; none in CLOSING (R474). (DEDUCED, log 60) -/
def State.takes (s : State) (n : Nat) (e : Event) : Bool :=
  let x := s.sess n
  x.st ≠ .free && x.st ≠ .halfopen && x.st ≠ .closing &&
    (e.session = some n ||
     (e.part = some x.part &&
      (x.rights.testBit 1 || (match e.core with | some c => (s.core c).owner = some n | none => false))))

/-- A record joins a session's queue of 64, or is discarded and counted (R465). -/
def Session.queueEvent (x : Session) (e : Event) : Session :=
  if x.events.length < 64 then { x with events := x.events ++ [e] }
  else { x with discarded := x.discarded + 1, lost := x.lost + 1 }

/-- The counter of an event's class; INFO has none (R561). -/
def classCounter : Nat → Option RegName
  | 1 => some .evtCntC
  | 2 => some .evtCntT
  | 3 => some .evtCntP
  | 4 => some .evtCntD
  | _ => none

/-- An event is appended to the management log and delivered to sessions (R541, R465, R561). The record takes the time. -/
def State.log (s : State) (e0 : Event) : State :=
  let e := { e0 with time := s.prc.time }
  let s1 := { s with evt := { s.evt with
      log := Sparse.put none s.evt.log (s.evt.cnt % 8192) (some e), cnt := s.evt.cnt + 1,
      unread := if s.evt.unread < 8192 then s.evt.unread + 1 else 8192 } }
  let s2 := if s.evt.unread < 8192 then s1 else s1.count .evtLost 0 0 1
  let s3 := match classCounter e.cls with
    | some n => s2.count n 0 0 1
    | none => s2
  s3.each ((s3.sessions ++ s3.mgmtSessions).filter (fun n => s.takes n e)) (fun t n => t.modSess n (·.queueEvent e))

/-- An event about a requester's access. -/
def State.reqEvent (s : State) (r : Req) (code cls detail : Nat) : State :=
  s.log { code := code, cls := cls, part := s.reqPart r, session := reqSession r, core := reqCore r, detail := detail }

/-- An event of a core. -/
def State.coreEvent (s : State) (c code cls detail : Nat) : State :=
  s.log { code := code, cls := cls, part := s.partOf c, core := some c, detail := detail }

/-- An event of a partition. -/
def State.partEvent (s : State) (p code cls detail : Nat) : State :=
  s.log { code := code, cls := cls, part := some p, detail := detail }

/-- An event of the device. -/
def State.devEvent (s : State) (code cls detail : Nat) : State := s.log { code := code, cls := cls, detail := detail }

/-- ACCESS, carrying an address (R30, R542). -/
def State.access (s : State) (r : Req) (a : Nat) : State := s.reqEvent r 0x0001 2 (a % 2 ^ 48)

/-- A refused access: its requester is told and ACCESS is raised (R30). A remote requester has its NACK, and its own device
raises the event (R423). (DEDUCED, log 53) -/
def State.refuse (s : State) (r : Req) (a : Nat) : State :=
  match r with
  | .remote _ => s.send (.refused r a)
  | _ => (s.access r a).send (.refused r a)

end Sys2Proof.Machine
end

