-- ==== Sys2Proof/Machine/Mem.lean ====
section
/-! DEFINITION. Bytes: the scratchpads and the DRAM, the Cellar with its regions, keys and poison marks, and the Pantry
between (R27 to R30, R288 to R290, R386, R404 to R411). -/
namespace Sys2Proof.Machine

/-! ### Raw bytes -/

/-- A byte of memory; one that nothing has written reads 0 (DESIGN CHOICE, log 6). -/
def State.byte (s : State) (a : Nat) : Byte := Sparse.get 0 s.mem a
/-- A byte of memory written. -/
def State.setByte (s : State) (a : Nat) (v : Byte) : State := { s with mem := Sparse.put 0 s.mem a v }
/-- `n` bytes from `a`. -/
def State.bytes (s : State) (a n : Nat) : List Byte := (upTo n).map (fun i => s.byte (a + i))
/-- Bytes written from `a` on. -/
def State.setBytes (s : State) (a : Nat) : List Byte → State
  | [] => s
  | b :: bs => (s.setByte a b).setBytes (a + 1) bs
/-- The memory without the bytes from `a` to `a + n - 1`: a zero-fill. -/
def State.zeroRange (s : State) (a n : Nat) : State :=
  { s with mem := s.mem.filter (fun x => x.1 < a || a + n ≤ x.1) }

/-- Start of the scratchpad space of core `c` (R28). -/
def spadBase (c : Nat) : Nat := 0x010000000000 + c * 0x100000
/-- Bytes of a scratchpad. -/
def State.spad (s : State) (c off n : Nat) : List Byte := s.bytes (spadBase c + off) n
/-- Bytes written to a scratchpad. -/
def State.setSpad (s : State) (c off : Nat) (bs : List Byte) : State := s.setBytes (spadBase c + off) bs
/-- A little-endian number in a scratchpad. -/
def State.spadLe (s : State) (c off n : Nat) : Nat := ofLe (s.spad c off n)

/-! ### Where an address lies (R27 to R32) -/

/-- What lies at an address. -/
inductive Where where
  | cellar
  | spad (c off : Nat)
  | debug (c off : Nat)
  | ctl (c off : Nat)
  | hub (off : Nat)
  | nothing
  deriving DecidableEq, Repr

/-- Where an address lies; reserved ranges hold nothing (R27, R28, R31). -/
def whereIs (a : Nat) : Where :=
  if a < 0x010000000000 then .cellar
  else if a < 0x010010000000 then
    let o := a - 0x010000000000
    if o % 0x100000 < 0x80000 then .spad (o / 0x100000) (o % 0x100000)
    else if o % 0x100000 < 0xC0000 then .debug (o / 0x100000) (o % 0x100000 - 0x80000)
    else .nothing
  else if 0x020000000000 ≤ a ∧ a < 0x020001000000 then
    let o := a - 0x020000000000
    if o % 0x10000 < 0x8000 then .ctl (o / 0x10000) (o % 0x10000) else .nothing
  else if 0x021000000000 ≤ a ∧ a < 0x021000B00000 then .hub (a - 0x021000000000)
  else .nothing

/-! ### The Cellar -/

/-- GiB of a population of modules. -/
def installedGib (mods : List (Fin 16 × Module)) : Nat := (mods.map (·.2.gib)).sum
/-- The installed capacity in bytes that the Porch reads from the modules at cold reset (R386). -/
def State.installed (s : State) : Nat := installedGib s.clr.mods * 2 ^ 30
/-- The capacity in use; 0 while untrained (R403). -/
def State.capacity (s : State) : Nat := if s.clr.rate = 0 then 0 else s.clr.gib * 2 ^ 30
/-- The region of an address. -/
def State.regionAt (s : State) (a : Nat) : Option Region :=
  s.cfg.regions.find? (fun r => r.base ≤ a && a < r.base + r.size)
/-- One region holds a whole range. -/
def State.regionOf (s : State) (a n : Nat) : Option Region :=
  s.cfg.regions.find? (fun r => r.base ≤ a && a + n ≤ r.base + r.size)
/-- A key slot. -/
def State.kslot (s : State) (k : Nat) : KSlot := Sparse.get {} s.clr.kslots k
/-- A key slot set. -/
def State.setKslot (s : State) (k : Nat) (x : KSlot) : State :=
  { s with clr := { s.clr with kslots := Sparse.put {} s.clr.kslots k x } }
/-- A region holds no key (R410). -/
def State.locked (s : State) (r : Region) : Bool :=
  r.ksrc ≠ 2 && ((s.kslot r.kslot).st = .locked || (s.kslot r.kslot).st = .unused)
/-- The key version lines of a region are written under; 0 is plaintext (DESIGN CHOICE, log 13). -/
def State.keyVer (s : State) (r : Region) : Nat := if r.ksrc = 2 || s.locked r then 0 else (s.kslot r.kslot).ver
/-- The key version in force at an address; outside every region plaintext. -/
def State.verAt (s : State) (a : Nat) : Nat := match s.regionAt a with | some r => s.keyVer r | none => 0

/-- A ZKILL fill of the region runs or waits (R411). -/
def State.killFilling (s : State) (r : Region) : Bool :=
  r.zkill && s.clr.kills.any (·.base = r.base)

/-- Why a Cellar access is refused. (DEDUCED, log 17) -/
inductive CellarNo where
  | hole | locked | busy
  deriving DecidableEq, Repr

/-- Whether an access to a Cellar byte is refused: the hole (R29), a locked region or one being zero-filled after a kill
(R411), a region of a SCRUBBING partition (R501), a Cellar in self-refresh (R511). (DEDUCED, log 30) -/
def State.cellarNo (s : State) (a : Nat) : Option CellarNo :=
  if s.capacity ≤ a || s.clr.sref then some .hole
  else match s.regionAt a with
    | none => none
    | some r =>
      if !r.hub && s.scrubbing r.part then some .busy
      else if s.killFilling r then some .busy
      else if s.locked r then some .locked
      else none

/-- The 128-byte lines a range touches. -/
def linesOf (a n : Nat) : List Nat := if n = 0 then [] else (upTo ((a + n - 1) / 128 - a / 128 + 1)).map (a / 128 + ·)

/-- First address of a range whose access is refused, with the reason. (DEDUCED, log 30) -/
def State.cellarRefusal (s : State) (a n : Nat) : Option (Nat × CellarNo) :=
  ((linesOf a n).map (fun l => max a (l * 128))).findSome? (fun x => (s.cellarNo x).map (fun w => (x, w)))

/-! ### DRAM -/

/-- A line under a key version: AES-256-XTS with the line's number as the tweak; version 0 is plaintext (R409). -/
def lineCipher (enc : Bool) (v l : Nat) (bs : List Byte) : List Byte :=
  if v = 0 then bs else xtsLine enc (toLe 64 (Config.lineKey v).toNat) l bs

/-- A line of the DRAM as a reader under key version `v` sees it: what was written, or under another key than it was written
under the old ciphertext decrypted under the new one (R409, R411); one that a cold reset may have lost is open (R489).
(DESIGN CHOICE, log 6; DESIGN CHOICE, log 13) -/
def State.lineUnder (s : State) (v l : Nat) : List Byte :=
  let w := Sparse.get 0 s.clr.keyOf l
  let e := Sparse.get 0 s.clr.eraOf l
  if e < s.clr.era then (upTo 128).map (fun i => Config.lostByte e (l * 128 + i))
  else
    let bs := s.bytes (l * 128) 128
    if w = v then bs else lineCipher false v l (lineCipher true w l bs)

/-- A line of the DRAM under the key in force at its address. -/
def State.dramLine (s : State) (l : Nat) : List Byte := s.lineUnder (s.verAt (l * 128)) l

/-- The line is poisoned on the DRAM (R407). -/
def State.dramPoison (s : State) (l : Nat) : Bool := s.clr.poison.contains l

/-- A whole line written to the DRAM under a key version; `keep` leaves its poison in place. (DEDUCED, log 16) -/
def State.putLine (s : State) (l v : Nat) (bs : List Byte) (keep : Bool) : State :=
  let t := s.setBytes (l * 128) (padTo 128 bs)
  { t with clr := { t.clr with
      keyOf := Sparse.put 0 t.clr.keyOf l v
      eraOf := Sparse.put 0 t.clr.eraOf l t.clr.era
      poison := if keep then t.clr.poison else t.clr.poison.filter (· ≠ l) } }

/-! ### The Pantry (R288 to R290) -/

/-- The 6-bit fold of a line number (R288). -/
def foldLine (l : Nat) : Nat :=
  bits l 0 6 ^^^ bits l 6 6 ^^^ bits l 12 6 ^^^ bits l 18 6 ^^^ bits l 24 6 ^^^ bits l 30 3

/-- The Pantry set of a line in slice group `g`: slice * 768 + set (R288). (DESIGN CHOICE, log 15) -/
def State.setOf (s : State) (g l : Nat) : Nat :=
  let v := (s.rg .pntGrp 0 g).toNat
  (bits v 0 6 + foldLine l % 2 ^ bits v 6 3) * 768 + l / 2 ^ bits v 6 3 % 768

/-- The slice group that caches an address: that of its region, while the group is valid (R288, R289). -/
def State.groupAt (s : State) (a : Nat) : Option Nat :=
  match s.regionAt a with
  | some r => if r.nocache || !(s.rg .pntGrp 0 r.group).toNat.testBit 9 then none else some r.group
  | none => none

/-- A way of a Pantry set. -/
def State.way (s : State) (st w : Nat) : Option PLine := Sparse.get none s.pnt.lines (st * 16 + w)
/-- A way of a Pantry set replaced. -/
def State.setWay (s : State) (st w : Nat) (x : Option PLine) : State :=
  { s with pnt := { s.pnt with lines := Sparse.put none s.pnt.lines (st * 16 + w) x } }
/-- The way that holds a line. -/
def State.hitWay (s : State) (st l : Nat) : Option Nat :=
  (upTo 16).find? (fun w => match s.way st w with | some x => x.line = l | none => false)

/-- Tree pseudo-LRU over 16 ways: node 1 is the root, node n's children 2n and 2n + 1; a set bit sends the search for a
victim to the right (R290; the orientation is the model's, DESIGN CHOICE, log 15). The nodes on the path to way `w`, with the
direction taken. -/
def plruPath (w : Nat) : List (Nat × Bool) :=
  [(1, w.testBit 3), (2 + w / 8, w.testBit 2), (4 + w / 4, w.testBit 1), (8 + w / 2, w.testBit 0)]
/-- The tree after an access that makes `w` the most recently used way, or the least when `lru`. (DESIGN CHOICE, log 15) -/
def plruTouch (t w : Nat) (lru : Bool) : Nat :=
  (plruPath w).foldl (fun v x => setBits v x.1 1 (b2n (if lru then x.2 else !x.2))) t
/-- The victim the tree names. (DESIGN CHOICE, log 15) -/
def plruVictim (t : Nat) : Nat :=
  let a := b2n (t.testBit 1)
  let b := 2 * a + b2n (t.testBit (2 + a))
  let c := 2 * b + b2n (t.testBit (4 + b))
  2 * c + b2n (t.testBit (8 + c))

/-- Position taken at allocation (R290). -/
inductive Hint where
  | normal | stream | bypass
  deriving DecidableEq, Repr

/-- PHINT of a descriptor (R277). -/
def hintOf : Nat → Hint
  | 1 => .stream
  | 2 => .bypass
  | _ => .normal

/-- A way touched in the tree. (DESIGN CHOICE, log 15) -/
def State.touch (s : State) (st w : Nat) (h : Hint) : State :=
  { s with pnt := { s.pnt with plru := Sparse.upd 0 s.pnt.plru st (fun t => plruTouch t w (h = .stream)) } }

/-- A dirty line goes back to the DRAM, encrypted under its region's key; a poison mark is not written back and leaves
the DRAM's own poison standing (R290, R407, DEDUCED, log 16). -/
def State.writeBack (s : State) (x : PLine) : State :=
  if x.dirty then s.putLine x.line (s.verAt (x.line * 128)) x.data x.poison else s

/-- A line placed into its set: an invalid way first, else the tree's victim, which is written back. -/
def State.allocate (s : State) (st : Nat) (x : PLine) (h : Hint) : State :=
  let w := match (upTo 16).find? (fun w => s.way st w = none) with
    | some w => w
    | none => plruVictim (Sparse.get 0 s.pnt.plru st)
  let t := match s.way st w with | some y => s.writeBack y | none => s
  (t.setWay st w (some x)).touch st w h

/-- A hit or a miss of the counted group (R311). -/
def State.countPantry (s : State) (g : Nat) (hit : Bool) : State :=
  if (s.rg .pntCntsel).toNat = g then s.count64 (if hit then .pntHit else .pntMiss) 0 1 else s

/-- A line read through the Pantry: its bytes and whether it is poisoned (R289, R290, R407). -/
def State.readLine (s : State) (h : Hint) (l : Nat) : List Byte × Bool × State :=
  match s.groupAt (l * 128) with
  | none => (s.dramLine l, s.dramPoison l, s)
  | some g =>
    let st := s.setOf g l
    match s.hitWay st l with
    | some w =>
      match s.way st w with
      | some x => (x.data, x.poison, (s.countPantry g true).touch st w (if h = .stream then .stream else .normal))
      | none => (s.dramLine l, s.dramPoison l, s)
    | none =>
      let d := s.dramLine l
      let p := s.dramPoison l
      let t := s.countPantry g false
      (d, p, if h = .bypass then t else t.allocate st { line := l, data := d, dirty := false, poison := p } h)

/-- Bytes laid over a line from offset `o` on. (DEDUCED, log 16) -/
def overlay (d : List Byte) (o : Nat) (bs : List Byte) : List Byte := d.take o ++ bs ++ d.drop (o + bs.length)

/-- Bytes written to one line from offset `o` on, through the Pantry (R289, R290). A write of the whole line replaces a
poisoned one (R407). (DEDUCED, log 16) -/
def State.writeLine (s : State) (h : Hint) (l o : Nat) (bs : List Byte) : State :=
  let whole := o = 0 && 128 ≤ bs.length
  match s.groupAt (l * 128) with
  | none =>
    s.putLine l (s.verAt (l * 128)) (if whole then bs else overlay (s.dramLine l) o bs) (!whole && s.dramPoison l)
  | some g =>
    let st := s.setOf g l
    match s.hitWay st l with
    | some w =>
      match s.way st w with
      | some x =>
        let y : PLine := { line := l, data := overlay x.data o bs, dirty := true, poison := x.poison && !whole }
        ((s.countPantry g true).setWay st w (some y)).touch st w (if h = .stream then .stream else .normal)
      | none => s
    | none =>
      let t := s.countPantry g false
      if h = .bypass then
        t.putLine l (t.verAt (l * 128)) (if whole then bs else overlay (t.dramLine l) o bs) (!whole && t.dramPoison l)
      else
        t.allocate st { line := l, data := if whole then bs else overlay (t.dramLine l) o bs, dirty := true,
                        poison := !whole && t.dramPoison l } h

/-- The Cellar read line by line: bytes, and the first poisoned line met. -/
def State.cellarReadLines (s : State) (h : Hint) : List Nat → List Byte × Option Nat × State
  | [] => ([], none, s)
  | l :: ls =>
    let (d, p, t) := s.readLine h l
    let (ds, q, u) := t.cellarReadLines h ls
    (d ++ ds, if p then some l else q, u)

/-- `n` Cellar bytes from `a`, with the first poisoned line met. -/
def State.cellarRead (s : State) (h : Hint) (a n : Nat) : List Byte × Option Nat × State :=
  let (d, p, t) := s.cellarReadLines h (linesOf a n)
  ((d.drop (a % 128)).take n, p, t)

/-- Bytes written to the Cellar from `a` on; each line takes its part. -/
def State.cellarWrite (s : State) (h : Hint) (a : Nat) (bs : List Byte) : State :=
  s.each (linesOf a bs.length) (fun t l =>
    let from_ := l * 128 - a
    let o := a - l * 128
    t.writeLine h l o ((bs.drop from_).take (128 - o)))

/-- Pantry line accesses and Cellar line transfers that an access makes (R522). (DEDUCED, log 45) -/
def State.lineCost (s : State) (a n : Nat) : Nat × Nat :=
  let ls := linesOf a n
  let inP := ls.filter (fun l => (s.groupAt (l * 128)).isSome)
  let hit := inP.filter (fun l => match s.groupAt (l * 128) with
    | some g => (s.hitWay (s.setOf g l) l).isSome
    | none => false)
  (inP.length, ls.length - hit.length)

/-! ### Cellar errors (R405 to R407) -/

/-- Channel of an address (R404). -/
def channelOf (a : Nat) : Nat := bits a 12 4 ^^^ bits a 24 4 ^^^ bits a 36 4

/-- A corrected error on a line: counted with its device and subchannel; the record at most once per channel in any 1 s
(R406). -/
def State.cellarCe (s : State) (l dev : Nat) (sub : Bool) : State :=
  let c := channelOf (l * 128)
  let v := (s.rg .clrCe 0 c).toNat
  let s1 := s.setRg .clrCe 0 c 0 (BitVec.ofNat 32 (pack [(16, satAdd 16 (bits v 0 16) 1), (4, dev), (1, b2n sub)]))
  let due := match Sparse.get none s.clr.ceTime c with
    | none => true
    | some t => t + 1000000000 ≤ s.prc.time
  if due then
    let s2 := { s1 with clr := { s1.clr with ceTime := Sparse.put none s1.clr.ceTime c (some s.prc.time) } }
    s2.devEvent 0x0702 1 (pack [(4, c), (4, dev), (1, b2n sub)])
  else s1

/-- An uncorrectable error on a line: it is poisoned, counted, recorded and raised (R407). -/
def State.cellarUe (s : State) (l : Nat) : State :=
  let s1 := { s with clr := { s.clr with poison := insertAsc l s.clr.poison } }
  let s2 := (s1.count .clrUecnt 0 0 1).setRg64 .clrLastue 0 0 0 (l * 128)
  s2.log { code := 0x0703, cls := 2, part := (s.regionAt (l * 128)).map (·.part), detail := l * 128 }

/-- What the decoder makes of one subchannel's burst (R405). -/
inductive Decoded where
  | clean
  | corrected (dev : Nat)
  | uncorrectable
  deriving DecidableEq, Repr

/-- The decoder on the burst of a subchannel: uncorrectable where a codeword has more than one erroneous symbol or the codewords
locate errors in different devices, else every error, of one device, is corrected (R405). (DESIGN CHOICE, log 137) -/
def decodeBurst (e : DramErr) (sub : Bool) : Decoded :=
  let hits := (e.filter (fun x => x.1 = sub)).map (fun x => x.2.2.val)
  match hits with
  | [] => .clean
  | d :: ds => if ds.all (· = d) then .corrected d else .uncorrectable

/-- One subchannel's corrected error recorded. -/
def State.burstCe (s : State) (l : Nat) (e : DramErr) (sub : Bool) : State :=
  match decodeBurst e sub with
  | .corrected d => s.cellarCe l d sub
  | _ => s

/-- A line read from the DRAM with erroneous symbols (R405 to R407). -/
def State.dramErr (s : State) (l : Nat) (e : DramErr) : State :=
  if decodeBurst e false = .uncorrectable || decodeBurst e true = .uncorrectable then s.cellarUe l
  else (s.burstCe l e false).burstCe l e true

/-- The Cellar lines of a range of addresses. -/
def cellarLines (a n : Nat) : List Nat := match whereIs a with | .cellar => linesOf a n | _ => []

/-- A line is read from the DRAM: an access of it is admitted and the Pantry does not hold it. -/
def State.fromDram (s : State) (l : Nat) : Bool :=
  (s.cellarNo (l * 128)).isNone &&
  (match s.groupAt (l * 128) with | some g => (s.hitWay (s.setOf g l) l).isNone | none => true)

/-- The errors of a read's lines are found as they leave the DRAM (R405 to R407). -/
def State.readErrs (s : State) (ls : List Nat) (es : LineErrs) : State :=
  s.each es (fun t e => match ls[e.1]? with
    | some l => if t.fromDram l then t.dramErr l e.2 else t
    | none => t)

/-- The event a refused Cellar access raises: CELLAR_LOCKED for a locked region, else ACCESS (R30, R411, DEDUCED, log 17). -/
def State.cellarRefuse (s : State) (r : Req) (a : Nat) (w : CellarNo) : State :=
  match w with
  | .locked => (s.reqEvent r 0x0705 2 a).send (.refused r a)
  | _ => s.refuse r a

end Sys2Proof.Machine
end

