-- ==== Sys2Proof/Machine/Link.lean ====
section
/-! DEFINITION. The Tchiuth link stack outward: CRC-32, packets, flits, routing, and sending (R414, R415, R418 to R422). -/
namespace Sys2Proof.Machine

/-! ### CRC-32 of IEEE 802.3 (R414) -/

/-- One bit of the reflected CRC-32. -/
def crcBit (c : Nat) : Nat := if c.testBit 0 then (c >>> 1) ^^^ 0xEDB88320 else c >>> 1
/-- One byte of the CRC-32. -/
def crcByte (c : Nat) (b : Byte) : Nat :=
  crcBit (crcBit (crcBit (crcBit (crcBit (crcBit (crcBit (crcBit (c ^^^ b.toNat))))))))
/-- CRC-32 of a byte string. -/
def crc32 (bs : List Byte) : Nat := bs.foldl crcByte 0xFFFFFFFF ^^^ 0xFFFFFFFF

/-! ### Packets (R420, R421) -/

/-- Packet types (R421). -/
abbrev tWrite : Nat := 0x01
abbrev tRead : Nat := 0x02
abbrev tSignal : Nat := 0x03
abbrev tWack : Nat := 0x81
abbrev tRdata : Nat := 0x82
abbrev tSack : Nat := 0x83
abbrev tNack : Nat := 0x8F
abbrev tSum : Nat := 0x40
abbrev tResult : Nat := 0x41
abbrev tStaged : Nat := 0x42
abbrev tCommit : Nat := 0x43
abbrev tAbort : Nat := 0x44
abbrev tBarup : Nat := 0x45
abbrev tBardown : Nat := 0x46

/-- The types R421 lists. -/
def knownType (t : Nat) : Bool :=
  [tWrite, tRead, tSignal, tWack, tRdata, tSack, tNack, tSum, tResult, tStaged, tCommit, tAbort, tBarup, tBardown].contains t
/-- Reduction class (R421). -/
def isReduction (t : Nat) : Bool := 0x40 ≤ t && t ≤ 0x46
/-- A type whose payload follows the header. -/
def hasPayload (t : Nat) : Bool := t = tWrite || t = tRdata || t = tSum || t = tResult

/-- The header's 32 bytes (R420). An ABORT carries its cause at the place of STATUS in bytes 8 to 15 (R421); it has no
TILE there (DESIGN CHOICE, log 18). -/
def Packet.header (k : Packet) : List Byte :=
  let mid := if k.typ = tAbort then pack [(8, k.grp), (16, k.epoch), (24, 0), (8, k.status), (8, 0)]
             else if isReduction k.typ then pack [(8, k.grp), (16, k.epoch), (6, k.ptag), (2, k.regime), (32, k.tile)]
             else pack [(48, k.addr), (8, k.status), (8, 0)]
  toLe 4 (pack [(8, k.typ), (12, k.dst), (12, k.src)]) ++ toLe 4 (pack [(16, k.tag), (13, k.len), (3, 0)]) ++
  toLe 8 mid ++ toLe 8 k.tdigest ++
  toLe 8 (pack [(17, k.first), (8, k.cntm1), (6, k.flags), (1, 0), (32, k.gcnt)])

/-- A packet's bytes. -/
def Packet.bytes (k : Packet) : List Byte := k.header ++ k.payload

/-- Reserved bits of a header are 0, and so are the fields its type does not use (R420, R421). -/
def headerClean (h : List Byte) (t : Nat) : Bool :=
  bits (leAt h 4 4) 16 16 ≤ 4096 && !(leAt h 24 8).testBit 31 &&
  (if isReduction t then true else bits (leAt h 8 8) 56 8 = 0 && leAt h 16 8 = 0 && leAt h 24 8 = 0)

/-- The packet a header of 32 bytes and its payload make. -/
def parseHeader (h payload : List Byte) : Packet :=
  let a := leAt h 0 4
  let b := leAt h 4 4
  let m := leAt h 8 8
  let z := leAt h 24 8
  let t := bits a 0 8
  let r := isReduction t
  { typ := t, dst := bits a 8 12, src := bits a 20 12, tag := bits b 0 16, len := bits b 16 13,
    addr := if r then 0 else bits m 0 48, status := if t = tAbort || !r then bits m 48 8 else 0,
    grp := if r then bits m 0 8 else 0, epoch := if r then bits m 8 16 else 0, ptag := if r then bits m 24 6 else 0,
    regime := if r then bits m 30 2 else 0, tile := if r && t ≠ tAbort then bits m 32 32 else 0, tdigest := leAt h 16 8,
    first := bits z 0 17, cntm1 := bits z 17 8, flags := bits z 25 6, gcnt := bits z 32 32, payload := payload }

/-- Payload bytes a header announces: LEN, but none for a READ, whose LEN is what it asks (R421). -/
def payloadLen (h : List Byte) : Nat := if hasPayload (bits (leAt h 0 4) 0 8) then bits (leAt h 4 4) 16 13 else 0

/-! ### Flits (R414, R415) -/

/-- A flit of 256 bytes: sequence number, acknowledgement, NAK, FIRST, and up to 244 stream bytes.
(DESIGN CHOICE, log 18) (DESIGN CHOICE, log 58) -/
def mkFlit (fseq ackseq : Nat) (ackv nak : Bool) (first : Nat) (stream : List Byte) : List Byte :=
  let body := toLe 8 (pack [(16, fseq), (16, ackseq), (1, b2n ackv), (1, b2n nak), (8, first), (3, 0), (12, 0), (7, 0)]) ++
    padTo 244 stream
  body ++ toLe 4 (crc32 body)

/-- The acknowledgement a port owes: the last flit received in order (R414). -/
def Port.ackOf (p : Port) : Nat := (p.rxSeq + 65535) % 65536

/-- A packet put into flits of its own, the rest of the last one zeros (R414, DESIGN CHOICE, log 18): the port and the flits. -/
def Port.load (p : Port) (bs : List Byte) : Port × List (List Byte) :=
  let parts := chunksOf 244 18 bs
  let fl := (upTo parts.length).zip parts |>.map (fun x =>
    mkFlit ((p.txSeq + x.1) % 65536) p.ackOf p.rxAny false (if x.1 = 0 then 8 else 0xFF) x.2)
  let kept := (upTo fl.length).zip fl |>.map (fun x => ({ seq := (p.txSeq + x.1) % 65536, bytes := x.2, sent := 1 } : Flit))
  let all := p.unacked ++ kept
  ({ p with txSeq := (p.txSeq + fl.length) % 65536, unacked := all.drop (all.length - 512) }, fl)

/-- This device's ID (R442). -/
def State.devId (s : State) : Nat := (s.rg .tchId).toNat % 4096

/-- A packet sent over a port that is UP; over any other it is lost (R417). (DESIGN CHOICE, log 58) -/
def State.sendPacket (s : State) (p : Nat) (k : Packet) : State :=
  if (s.port p).st = .up then
    let (q, fl) := (s.port p).load k.bytes
    (s.modPort p (fun _ => q)).each fl (fun t f => t.send (.flit p f))
  else s

/-! ### Routing (R418) -/

/-- Extent of dimension `d`. -/
def State.extent (s : State) (d : Nat) : Nat := bits (s.rg .tchTopo).toNat (4 * d) 4 + 1
/-- A device ID lies within TCH_TOPO. -/
def State.inTopo (s : State) (i : Nat) : Bool := (upTo 3).all (fun d => bits i (4 * d) 4 < s.extent d)
/-- Distance in the + direction of a dimension. -/
def State.plusHops (s : State) (dst d : Nat) : Nat :=
  (bits dst (4 * d) 4 + s.extent d - bits s.devId (4 * d) 4 % s.extent d) % s.extent d
/-- The port a packet leaves by; none where it is delivered here. -/
def State.route (s : State) (dst : Nat) : Option Nat :=
  ((upTo 3).find? (fun d => s.plusHops dst d ≠ 0)).map (fun d =>
    let h := s.plusHops dst d
    if h ≤ s.extent d - h then 2 * d else 2 * d + 1)

/-- A packet sent toward its destination: forwarded on its port. -/
def State.sendTo (s : State) (k : Packet) : State :=
  match s.route k.dst with
  | some p => s.sendPacket p k
  | none => s

/-- The image's entry of a port (R387). -/
def State.portCfg (s : State) (p : Nat) : BitVec 64 := Sparse.get 0 s.cfg.tports p

/-- A request may originate here: not to this device, inside TCH_TOPO, its first-hop port UP and owned by the source's
partition, or marked HUB for the hub firmware (R422). -/
def State.mayOriginate (s : State) (core : Option Nat) (dst : Nat) : Bool :=
  dst ≠ s.devId && s.inTopo dst &&
  match s.route dst with
  | none => false
  | some p =>
    (s.port p).st = .up && flag (s.portCfg p) 7 &&
    match core with
    | none => flag (s.portCfg p) 6
    | some c => !flag (s.portCfg p) 6 && s.partOf c = some (fld (s.portCfg p) 5 0)

/-- A request sent with a TAG of its own and kept until its response (R423). -/
def State.request (s : State) (k : Packet) (f : ReqFor) (dest : Nat) : State :=
  let tag := s.tch.nextTag
  let q : OutReq := { tag := tag, for_ := f, dst := k.dst, addr := k.addr, dest := dest, read := k.typ = tRead }
  let s1 := { s with tch := { s.tch with nextTag := (tag + 1) % 65536, reqs := s.tch.reqs ++ [q] } }
  let c := match f with | .dma c _ => c | .signal c => c
  ((s1.act c 9 (ceilDiv (32 + k.payload.length) 244)).mesh c none (32 + k.payload.length)).sendTo { k with src := s.devId, tag := tag }

/-! ### Messages of a reduction group (R425) -/

/-- A reduction message's common header fields. -/
def State.groupPacket (s : State) (g typ dst tile : Nat) : Packet :=
  let x := s.group g
  { typ := typ, dst := dst, src := s.devId, grp := g, epoch := x.epoch, tile := tile, tdigest := x.tdigest }
/-- Activity of class `j` that a group's messages make is charged to its partition (R521). -/
def State.groupAct (s : State) (g j n : Nat) : State :=
  { s with mtr := { s.mtr with partAct := Sparse.upd 0 s.mtr.partAct (16 * (s.group g).part + j) (· + n) } }
/-- A message over a port, its flits charged to the group's partition (R521). -/
def State.groupSend (s : State) (g p : Nat) (k : Packet) : State :=
  (s.groupAct g 9 (ceilDiv (32 + k.payload.length) 244)).sendPacket p k
/-- A message to the group's parent, over the port the image names; the root has none. -/
def State.toParent (s : State) (g : Nat) (k : Packet) : State :=
  let x := s.group g
  if x.parent = 0xFFF then s else s.groupSend g x.pport { k with dst := x.parent }
/-- A message to every child. -/
def State.toKids (s : State) (g : Nat) (k : Packet) : State :=
  s.each (s.group g).kids (fun t x => t.groupSend g x.2 { k with dst := x.1 })

end Sys2Proof.Machine
end

