-- ==== Sys2Proof/Machine/Slots.lean ====
section
/-! DEFINITION. Slots and windows: which access proceeds, stalls or is refused, releases and fills (R270 to R275, R285,
R286), with the barrier slot of a reduction group (R438). -/
namespace Sys2Proof.Machine

/-! ### Declarations -/

/-- Slot `n` is declared (R301). -/
def State.declared (s : State) (c n : Nat) : Bool := (s.rg .spdSlotCfg c n).toNat.testBit 0
/-- First word and words of a slot (R300). -/
def State.slotWords (s : State) (c n : Nat) : Nat × Nat :=
  let v := (s.rg .spdSlotBase c n).toNat
  (bits v 0 14, bits v 14 14 + 1)
/-- First byte of a slot. -/
def State.slotOff (s : State) (c n : Nat) : Nat := (s.slotWords c n).1 * 32
/-- Bytes of a slot. -/
def State.slotLen (s : State) (c n : Nat) : Nat := (s.slotWords c n).2 * 32
/-- PCLS of a slot. -/
def State.pcls (s : State) (c n : Nat) : Nat := s.rf .spdSlotCfg c n 1 3
/-- CMASK of a slot. (DEDUCED, log 59) -/
def State.cmask (s : State) (c n : Nat) : Nat := s.rf .spdSlotCfg c n 4 8
/-- HOLD of a slot. -/
def State.slotHold (s : State) (c n : Nat) : Bool := (s.rg .spdSlotCfg c n).toNat.testBit 12

/-- The declared slots that a range of scratchpad bytes touches, ascending. -/
def State.slotsAt (s : State) (c off len : Nat) : List Nat :=
  (upTo 64).filter (fun n => s.declared c n && off < s.slotOff c n + s.slotLen c n && s.slotOff c n < off + len)

/-- Producer classes (R272). Every engine of the core but DMA and the sequencer writes as the output path (DEDUCED, log 19). -/
abbrev pDma : Nat := 0
abbrev pOut : Nat := 1
abbrev pRemote : Nat := 2
abbrev pSession : Nat := 3
abbrev pSeq : Nat := 4
/-- Consumer classes by CMASK bit (R272). -/
abbrev cTile : Nat := 0
abbrev cVec : Nat := 1
abbrev cRake : Nat := 2
abbrev cDma : Nat := 3
abbrev cSeq : Nat := 4
abbrev cRemote : Nat := 5
abbrev cSession : Nat := 6

/-! ### Last errors (R299) -/

/-- SPD_LASTERR set. -/
def State.spdErr (s : State) (c kind num : Nat) (nowin : Bool := false) : State :=
  s.setRg .spdLasterr c 0 0 (BitVec.ofNat 32 (pack [(4, kind), (6, num), (1, b2n nowin)]))

/-! ### The access table (R274) -/

/-- What R274 says of an access. -/
inductive SlotAns where
  | ok
  | refused (n : Nat)
  | stall (n : Nat)
  deriving DecidableEq, Repr

/-- The class does not fit a slot. -/
def State.slotBad (s : State) (c n : Nat) (wr : Bool) (cls : Nat) : Bool :=
  if wr then s.pcls c n ≠ cls else !(s.cmask c n).testBit cls
/-- The slot's state holds the access back. -/
def State.slotBusy (s : State) (c n : Nat) (wr : Bool) : Bool :=
  let x := (s.slot c n).st
  if wr then x = .full || x = .draining else x = .empty || x = .filling

/-- A slot of a core as one number. -/
def slotKey (c n : Nat) : Nat := 64 * c + n

/-- An access of a class to a range of scratchpad: a slot of another class refuses it; else the first slot in the wrong
state holds it, but for the slots in `waited`, whose wait has timed out, so that their data is taken as stored (R274, R275). -/
def State.slotCheck (s : State) (c off len : Nat) (wr : Bool) (cls : Nat) (waited : List Nat := []) : SlotAns :=
  let l := s.slotsAt c off len
  match l.find? (fun n => s.slotBad c n wr cls) with
  | some n => .refused n
  | none => match l.find? (fun n => s.slotBusy c n wr && !waited.contains (slotKey c n)) with
    | some n => .stall n
    | none => .ok

/-- The states of the slots an admitted access touches change: a first write fills, a first read drains (R273). -/
def State.slotTouch (s : State) (c off len : Nat) (wr : Bool) : State :=
  s.each (s.slotsAt c off len) (fun t n =>
    let x := t.slot c n
    if wr then (if x.st = .empty then t.setSlot c n { x with st := .filling } else t)
    else if x.st = .full then t.setSlot c n { x with st := .draining } else t)

/-- A refusal under R274: SPD_LASTERR and SLOT_CLASS with the refused class (R542). -/
def State.slotClass (s : State) (c n : Nat) (r : Option Req) (wr : Bool) (cls : Nat) : State :=
  let d := pack [(6, n), (2, 0), (3, cls), (1, b2n !wr)]
  let t := s.spdErr c 3 n
  match r with
  | some r => (t.log { code := 0x0402, cls := 2, part := t.partOf c, session := reqSession r, core := some c, detail := d })
  | none => t.coreEvent c 0x0402 2 d

/-- An access stalls: it joins the core's stalled accesses, and SPD_STATUS names its slot (R275, R297). (DEDUCED, log 54) -/
def State.stallOn (s : State) (c : Nat) (x : Stall) : State :=
  (s.modCore c (fun k => { k with stalls := k.stalls ++ [x] })).setRg .spdStatus c 0 0 (BitVec.ofNat 32 (2 * x.slot))

/-- A stalled access of an engine waits already. -/
def State.stalled (s : State) (c : Nat) (w : StallBy) : Bool := (s.core c).stalls.any (·.who = w)

/-! ### Filling and releasing (R273) -/

/-- CMASK classes that release: with HOLD, TILE, VEC and RAKE count as released (R272). -/
def State.mustRelease (s : State) (c n : Nat) : Nat :=
  let m := s.cmask c n % 128
  if s.slotHold c n then m / 8 * 8 else m

/-- A release by a class: it counts for a class of CMASK while the slot is FULL or DRAINING, and the last one empties the
slot; under HOLD the classes TILE, VEC and RAKE do not release (R272, R273). (DEDUCED, log 60) -/
def State.slotRelease (s : State) (c n cls : Nat) : State :=
  let x := s.slot c n
  if s.declared c n && (s.cmask c n).testBit cls && !(s.slotHold c n && cls < 3) && (x.st = .full || x.st = .draining) then
    let rel := setBits x.rel cls 1 1
    if (s.mustRelease c n) &&& rel = s.mustRelease c n then s.setSlot c n {}
    else s.setSlot c n { st := .draining, rel := rel }
  else s

/-- A group whose barrier slot this is: armed, with this core and slot named (R438, R442). -/
def State.barrierOf (s : State) (c n : Nat) : Option Nat :=
  (s.tch.groups.map (·.1)).find? (fun g =>
    let v := (s.rg .grpBar 0 g).toNat
    (s.group g).valid && v.testBit 14 && bits v 0 8 = c && bits v 8 6 = n)

/-- BARDOWN reaches a member: it is passed on and the barrier slot is released for class REMOTE (R438). (DEDUCED, log 81) -/
def State.barrierDown (s : State) (g : Nat) : State :=
  let v := (s.rg .grpBar 0 g).toNat
  let t := (s.modGroup g (fun y => { y with barLocal := false, barKids := [], barUp := false })).toKids g
    (s.groupPacket g tBardown 0 0)
  if v.testBit 14 then t.slotRelease (bits v 0 8) (bits v 8 6) cRemote else t

/-- The member passes its arrivals on; at the root with every arrival the barrier comes down (R438). -/
def State.barrierStep (s : State) (g : Nat) : State :=
  let x := s.group g
  if x.barLocal && x.kids.all (fun k => x.barKids.contains k.1) && !x.barUp then
    if x.parent = 0xFFF then s.barrierDown g
    else (s.modGroup g (fun y => { y with barUp := true })).toParent g (s.groupPacket g tBarup 0 0)
  else s

/-- A slot becomes FULL: from EMPTY or FILLING only; a barrier slot's member arrives (R273, R438). -/
def State.slotFull (s : State) (c n : Nat) : State :=
  let x := s.slot c n
  if s.declared c n && (x.st = .empty || x.st = .filling) then
    let t := s.setSlot c n { st := .full }
    match t.barrierOf c n with
    | some g => (t.modGroup g (fun y => { y with barLocal := true })).barrierStep g
    | none => t
  else s

/-! ### Accesses of the core's own engines -/

/-- An engine of the core reads its scratchpad: the bytes, or a stall, or a refusal with zero-filled data (R274). -/
inductive Rd where
  | ok (bs : List Byte)
  | refused
  | stall (n : Nat)
  deriving DecidableEq, Repr

/-- 32-byte scratchpad words that a range of bytes touches, counted for the Meter (R522). -/
def State.wordAct (s : State) (c off len : Nat) : State :=
  if len = 0 then s else s.act c 2 ((off + len - 1) / 32 - off / 32 + 1)

/-- Read by a class; the slots in `waited` are read as stored after a timeout (R275). -/
def State.spadRead (s : State) (c off len cls : Nat) (waited : List Nat := []) : Rd × State :=
  match s.slotCheck c off len false cls waited with
  | .refused n => (.refused, s.slotClass c n none false cls)
  | .stall n => (.stall n, s)
  | .ok => (.ok (s.spad c off len), (s.slotTouch c off len false).wordAct c off len)

/-- The bytes of a read: zeros where it was refused. -/
def Rd.bytes (r : Rd) (len : Nat) : List Byte :=
  match r with
  | .ok bs => bs
  | _ => zeros len

/-- The words of a ring and its control word (R342): a write of bytes 0 to 3 of the control word sets the write index. -/
def State.ringHook (s : State) (c off : Nat) (bs : List Byte) : State :=
  let cw := ((s.rg .seqRing c).toNat % 2 ^ 14 + 128) * 32
  if off ≤ cw ∧ cw < off + bs.length then
    s.modSeq c (fun q => { q with wr := (s.byte (spadBase c + cw)).toNat })
  else s

/-- Bytes stored into a scratchpad, whoever writes them; none past its end. -/
def State.store (s : State) (c off : Nat) (bs : List Byte) : State :=
  let b := bs.take (0x80000 - off)
  ((s.setSpad c off b).ringHook c off b).wordAct c off b.length

/-- Write by a class: stored, refused and dropped, or a stall. -/
def State.spadWrite (s : State) (c off : Nat) (bs : List Byte) (cls : Nat) : SlotAns × State :=
  match s.slotCheck c off bs.length true cls with
  | .refused n => (.refused n, s.slotClass c n none true cls)
  | .stall n => (.stall n, s)
  | .ok => (.ok, (s.slotTouch c off bs.length true).store c off bs)

/-! ### Windows (R285, R286) -/

/-- The right an access needs. -/
inductive Need where
  | rd | wr | sig
  deriving DecidableEq, Repr

/-- KIND and ID a requester shows a core's windows; none for a requester no window can admit (R285, R302).
(DEDUCED, log 31) -/
def State.winKey (s : State) (r : Req) (c : Nat) : Option (Nat × Nat) :=
  match r with
  | .core d => if (s.partOf d.val).isSome && s.partOf d.val = s.partOf c then some (1, 0) else none
  | .remote d => some (2, d.val)
  | .session n => some (3, n.val)
  | _ => none

/-- A window's range covers bytes `off` to `off + len - 1`; it ends with the scratchpad (R285). -/
def State.winCovers (s : State) (c n off len : Nat) : Bool :=
  let v := (s.rg .spdWinBase c n).toNat
  let b := bits v 0 14 * 32
  b ≤ off && off + len ≤ min (b + (bits v 14 14 + 1) * 32) 0x80000

/-- Some open window admits the access; a core that no partition has serves none (R285, R380). (DEDUCED, log 31) -/
def State.admitted (s : State) (r : Req) (c off len : Nat) (need : Need) : Bool :=
  match s.winKey r c with
  | none => false
  | some (k, i) => (s.partOf c).isSome && (upTo 64).any (fun n =>
      let v := (s.rg .spdWinCfg c n).toNat
      bits v 0 2 = k && bits v 5 16 = i && v.testBit (match need with | .rd => 2 | .wr => 3 | .sig => 4) &&
      s.winCovers c n off len)

/-- A refusal by the windows: SPD_LASTERR and WINDOW_REFUSED to the requester (R286, R299); a remote requester's own device
raises it (R423). (DEDUCED, log 53) -/
def State.winRefuse (s : State) (r : Req) (c off : Nat) : State :=
  let t := match (upTo 64).find? (fun n => s.winCovers c n off 1) with
    | some n => s.spdErr c 5 n
    | none => s.spdErr c 5 0 true
  let u := match r with
    | .remote _ => t
    | _ => t.reqEvent r 0x0405 2 (spadBase c + off)
  u.send (.refused r (spadBase c + off))

/-- Class an access from outside has at a slot: of the producer and of the consumer (R285). (DEDUCED, log 19) -/
def reqClass : Req → Nat × Nat
  | .session _ => (pSession, cSession)
  | _ => (pRemote, cRemote)

end Sys2Proof.Machine
end

