-- ==== Sys2Proof/Machine/Access.lean ====
section
/-! DEFINITION. Reading and writing memory by device physical address for any requester: the Cellar through the Pantry, a
scratchpad through windows and slots (R22, R27 to R30, R274, R285 to R290, R404 to R411). -/
namespace Sys2Proof.Machine

/-- How a read ended: bytes, a refusal at an address, a poisoned line (R407), or a stall on a slot of a core. -/
inductive Got where
  | ok (bs : List Byte)
  | refused (a : Nat)
  | poisoned (line : Nat)
  | stall (c n : Nat)
  deriving DecidableEq, Repr

/-- How a write ended. -/
inductive Put where
  | ok
  | refused (a : Nat)
  | stall (c n : Nat)
  deriving DecidableEq, Repr

/-- First address of a range that its space does not hold (R28, R29). -/
def pastSpad (c off n : Nat) : Option Nat := if off + n ≤ 0x80000 then none else some (spadBase c + max off 0x80000)

/-- Whether a scratchpad can be reached by a requester at all: the first refused address. -/
def State.spadNo (s : State) (c off n : Nat) : Option Nat :=
  if s.coreOpen c then pastSpad c off n else some (spadBase c + off)

/-- Pantry line accesses, Cellar line transfers and mesh traffic that a core's access makes, counted for the Meter (R521, R522).
(DEDUCED, log 45) -/
def State.lineAct (s : State) (r : Req) (a n : Nat) : State :=
  match reqCore r with
  | none => s
  | some c =>
    let x := s.lineCost a n
    ((s.act c 7 x.1).act c 8 x.2).mesh c none n

/-- The mesh traffic of a core's access to another core's scratchpad (R521). (DEDUCED, log 45) -/
def State.spadAct (s : State) (r : Req) (c n : Nat) : State :=
  match reqCore r with
  | some d => if d = c then s else s.mesh d (some c) n
  | none => s

/-- A read of the Cellar, every line of it admitted. -/
def State.readCellar (s : State) (r : Req) (h : Hint) (a n : Nat) : Got × State :=
  match s.cellarRefusal a n with
  | some (x, w) => (.refused x, s.cellarRefuse r x w)
  | none =>
    let (bs, p, t) := (s.lineAct r a n).cellarRead h a n
    match p with
    | some l => (.poisoned l, t)
    | none => (.ok bs, t)

/-- An admitted read at the slots of a scratchpad: the core's own DMA as class DMA, anyone else by its own class (R274). -/
def State.readAtSlots (s : State) (r : Req) (c off n : Nat) : Got × State :=
  let cls := if reqCore r = some c then cDma else (reqClass r).2
  match s.slotCheck c off n false cls with
  | .refused k => (.refused (spadBase c + off), s.slotClass c k (some r) false cls)
  | .stall k => (.stall c k, s)
  | .ok => (.ok (s.spad c off n), (((s.slotTouch c off n false).wordAct c off n).spadAct r c n).ungate c)

/-- A read of a scratchpad by address: anyone but the core's own DMA goes through a window (R285), checked once, as the access
arrives (R287). -/
def State.readSpad (s : State) (r : Req) (c off n : Nat) : Got × State :=
  match s.spadNo c off n with
  | some x => (.refused x, s.refuse r x)
  | none =>
    if reqCore r ≠ some c && !s.admitted r c off n .rd then (.refused (spadBase c + off), s.winRefuse r c off)
    else s.readAtSlots r c off n

/-- A read of `n` bytes at a device physical address. -/
def State.readMem (s : State) (r : Req) (h : Hint) (a n : Nat) : Got × State :=
  match whereIs a with
  | .cellar => s.readCellar r h a n
  | .spad c off => s.readSpad r c off n
  | _ => (.refused a, s.refuse r a)

/-- First address of a range that the loader reads its image from, while a load from the Cellar runs: writes there are
refused (R390). (DEDUCED, log 78) -/
def State.imageHeld (s : State) (a n : Nat) : Option Nat :=
  let x := s.trl
  let busy : Bool := match x.st with | .idle | .done | .failed => false | _ => true
  let lo := max a x.src
  if busy && !x.flash && lo < a + n && lo < x.src + x.len then some lo else none

/-- A write of the Cellar. -/
def State.writeCellar (s : State) (r : Req) (h : Hint) (a : Nat) (bs : List Byte) : Put × State :=
  match s.cellarRefusal a bs.length, s.imageHeld a bs.length with
  | some (x, w), _ => (.refused x, s.cellarRefuse r x w)
  | none, some x => (.refused x, s.refuse r x)
  | none, none => (.ok, (s.lineAct r a bs.length).cellarWrite h a bs)

/-- An admitted write at the slots of a scratchpad (R274). -/
def State.writeAtSlots (s : State) (r : Req) (c off : Nat) (bs : List Byte) : Put × State :=
  let cls := if reqCore r = some c then pDma else (reqClass r).1
  match s.slotCheck c off bs.length true cls with
  | .refused k => (.refused (spadBase c + off), s.slotClass c k (some r) true cls)
  | .stall k => (.stall c k, s)
  | .ok => (.ok, (((s.slotTouch c off bs.length true).spadAct r c bs.length).store c off bs).ungate c)

/-- A write of a scratchpad by address. -/
def State.writeSpad (s : State) (r : Req) (c off : Nat) (bs : List Byte) : Put × State :=
  match s.spadNo c off bs.length with
  | some x => (.refused x, s.refuse r x)
  | none =>
    if reqCore r ≠ some c && !s.admitted r c off bs.length .wr then (.refused (spadBase c + off), s.winRefuse r c off)
    else s.writeAtSlots r c off bs

/-- A write of bytes at a device physical address. -/
def State.writeMem (s : State) (r : Req) (h : Hint) (a : Nat) (bs : List Byte) : Put × State :=
  match whereIs a with
  | .cellar => s.writeCellar r h a bs
  | .spad c off => s.writeSpad r c off bs
  | _ => (.refused a, s.refuse r a)

/-- The bytes a read of a tile takes: zero-filled where the read was refused (R578). -/
def Got.bytes (g : Got) (n : Nat) : List Byte :=
  match g with
  | .ok bs => bs
  | _ => zeros n
/-- The read went through. -/
def Got.good : Got → Bool
  | .ok _ => true
  | _ => false

/-! ### The accumulation debug window (R28, R118) -/

/-- The handles whose accumulators are open, in ascending order (R134). -/
def Core.openHandles (k : Core) : List Nat := (upTo 8).filter (fun h => (k.tile h).opened)

end Sys2Proof.Machine
end

