-- ==== Sys2Proof/Machine/Num.lean ====
section
/-! DEFINITION. Exact numbers: dyadic values with the exceptions of floating point, rounding onto grids, the
floating-point formats (R48), and the counter-based generator RHASH (R64). -/
namespace Sys2Proof.Machine

/-- A value: NaN, an infinity, or the exact (-1)^neg * m * 2^e; the sign of a zero is kept. -/
inductive FV where
  | nan
  | inf (neg : Bool)
  | fin (neg : Bool) (m : Nat) (e : Int)
  deriving DecidableEq, Repr

/-- Positive zero. -/
def FV.zero : FV := .fin false 0 0
/-- Sign of a value. -/
def FV.neg : FV → Bool
  | .nan => false
  | .inf s => s
  | .fin s _ _ => s
/-- Magnitude of a finite value is zero. -/
def FV.isZero : FV → Bool
  | .fin _ m _ => m = 0
  | _ => false
/-- NaN or infinite. -/
def FV.exceptional : FV → Bool
  | .fin _ _ _ => false
  | _ => true
/-- The value with the other sign. -/
def FV.negate : FV → FV
  | .nan => .nan
  | .inf s => .inf !s
  | .fin s m e => .fin (!s) m e
/-- The magnitude. -/
def FV.abs : FV → FV
  | .nan => .nan
  | .inf _ => .inf false
  | .fin _ m e => .fin false m e
/-- An integer times a power of two. -/
def FV.ofInt (i e : Int) : FV := .fin (i < 0) i.natAbs e
/-- Times a power of two, exactly. -/
def FV.scale (x : FV) (k : Int) : FV :=
  match x with
  | .fin s m e => .fin s m (e + k)
  | y => y

/-- A magnitude shifted by an integer count, rounded to nearest even where bits are lost. -/
def rneShift (m : Nat) (d : Int) : Nat :=
  if 0 ≤ d then m * 2 ^ d.toNat
  else
    let k := (-d).toNat
    let q := m >>> k
    let r := m - (q <<< k)
    let h := 2 ^ (k - 1)
    if r < h then q else if h < r then q + 1 else if q % 2 = 0 then q else q + 1

/-- A magnitude shifted by an integer count, truncated. -/
def floorShift (m : Nat) (d : Int) : Nat := if 0 ≤ d then m * 2 ^ d.toNat else m >>> (-d).toNat
/-- Bits are lost by a shift. -/
def inexactShift (m : Nat) (d : Int) : Bool := d < 0 && m % 2 ^ (-d).toNat ≠ 0

/-- floor(log2) of m * 2^e for m above 0. -/
def topExp (m : Nat) (e : Int) : Int := (Nat.log2 m : Int) + e

/-- The signed integer of a finite value at exponent `e0`, no bit being lost for `e0` at most its own. -/
def FV.atExp (x : FV) (e0 : Int) : Int :=
  match x with
  | .fin s m e => let v : Int := (m * 2 ^ (e - e0).toNat : Nat); if s then -v else v
  | _ => 0
/-- Exponent of a finite value. -/
def FV.expo : FV → Int
  | .fin _ _ e => e
  | _ => 0

/-- Exact sum of two finite values; a zero sum of two negative zeros keeps the sign. -/
def addFin (x y : FV) : FV :=
  let e0 := min x.expo y.expo
  let v := x.atExp e0 + y.atExp e0
  if v = 0 then .fin (x.neg && y.neg) 0 e0 else FV.ofInt v e0

/-- Exact sum under the rules of IEEE 754 for exceptions. -/
def FV.add : FV → FV → FV
  | .nan, _ => .nan
  | _, .nan => .nan
  | .inf a, .inf b => if a = b then .inf a else .nan
  | .inf a, _ => .inf a
  | _, .inf b => .inf b
  | x, y => addFin x y

/-- Exact product under the rules of IEEE 754 for exceptions. -/
def FV.mul : FV → FV → FV
  | .nan, _ => .nan
  | _, .nan => .nan
  | .inf a, y => if y.isZero then .nan else .inf (a != y.neg)
  | x, .inf b => if x.isZero then .nan else .inf (x.neg != b)
  | .fin a m e, .fin b n f => .fin (a != b) (m * n) (e + f)

/-- Order of two finite values. -/
def ltFin (x y : FV) : Bool :=
  let e0 := min x.expo y.expo
  x.atExp e0 < y.atExp e0
/-- Equality of two finite values, zeros equal whatever their sign. -/
def eqFin (x y : FV) : Bool :=
  let e0 := min x.expo y.expo
  x.atExp e0 = y.atExp e0

/-- x < y with infinities; false for NaN. -/
def FV.lt : FV → FV → Bool
  | .nan, _ => false
  | _, .nan => false
  | .inf a, .inf b => a && !b
  | .inf a, _ => a
  | _, .inf b => !b
  | x, y => ltFin x y
/-- Equality as values; false for NaN. -/
def FV.eqv : FV → FV → Bool
  | .nan, _ => false
  | _, .nan => false
  | .inf a, .inf b => a = b
  | .inf _, _ => false
  | _, .inf _ => false
  | x, y => eqFin x y

/-! ### Floating-point formats (R48) -/

/-- A binary format: significand width, least normal exponent, greatest exponent, exponent field width, and whether it
has infinities; `top` is the greatest significand at the greatest exponent. -/
structure Fp where
  p : Nat
  emin : Int
  emax : Int
  ew : Nat
  inf : Bool := true
  top : Nat
  deriving DecidableEq, Repr

/-- FP32. -/
def fp32 : Fp := { p := 24, emin := -126, emax := 127, ew := 8, top := 2 ^ 24 - 1 }
/-- FP16. -/
def fp16 : Fp := { p := 11, emin := -14, emax := 15, ew := 5, top := 2 ^ 11 - 1 }
/-- BF16: the upper 16 bits of FP32. -/
def bf16 : Fp := { p := 8, emin := -126, emax := 127, ew := 8, top := 2 ^ 8 - 1 }
/-- E5M2. -/
def e5m2 : Fp := { p := 3, emin := -14, emax := 15, ew := 5, top := 7 }
/-- E4M3: no infinities, greatest value 448. -/
def e4m3 : Fp := { p := 4, emin := -6, emax := 8, ew := 4, inf := false, top := 14 }

/-- The value a code of the format denotes. -/
def Fp.dec (f : Fp) (c : Nat) : FV :=
  let s := c.testBit (f.p - 1 + f.ew)
  let x := bits c (f.p - 1) f.ew
  let t := bits c 0 (f.p - 1)
  if f.inf then
    if x = 2 ^ f.ew - 1 then (if t = 0 then .inf s else .nan)
    else if x = 0 then .fin s t (f.emin - (f.p - 1 : Nat))
    else .fin s (t + 2 ^ (f.p - 1)) ((x : Int) - 1 + f.emin - (f.p - 1 : Nat))
  else
    if x = 2 ^ f.ew - 1 ∧ t = 2 ^ (f.p - 1) - 1 then .nan
    else if x = 0 then .fin s t (f.emin - (f.p - 1 : Nat))
    else .fin s (t + 2 ^ (f.p - 1)) ((x : Int) - 1 + f.emin - (f.p - 1 : Nat))

/-- Exponent of the grid step at a magnitude: the last place of its binade, not below that of the subnormals. -/
def Fp.quantum (f : Fp) (m : Nat) (e : Int) : Int :=
  if m = 0 then f.emin - (f.p - 1 : Nat) else max (topExp m e) f.emin - (f.p - 1 : Nat)

/-- The greatest finite magnitude. -/
def Fp.qmax (f : Fp) : FV := .fin false f.top (f.emax - (f.p - 1 : Nat))

/-- The code of a magnitude that lies on the format's grid. -/
def Fp.encFin (f : Fp) (s : Bool) (m : Nat) (e : Int) : Nat :=
  let q := f.quantum m e
  let v := floorShift m (e - q)
  let body := if v < 2 ^ (f.p - 1) then v
    else ((q + (f.p - 1 : Nat) - f.emin).toNat + 1) * 2 ^ (f.p - 1) + (v - 2 ^ (f.p - 1))
  body + b2n s * 2 ^ (f.p - 1 + f.ew)

/-- The code of an infinity. -/
def Fp.encInf (f : Fp) (s : Bool) : Nat := (2 ^ f.ew - 1) * 2 ^ (f.p - 1) + b2n s * 2 ^ (f.p - 1 + f.ew)
/-- The canonical NaN (R75). -/
def Fp.encNan (f : Fp) : Nat :=
  if f.inf then (2 ^ f.ew - 1) * 2 ^ (f.p - 1) + 2 ^ (f.p - 2) else 2 ^ (f.ew + f.p - 1) - 1
/-- Code of E5M2's canonical NaN, 0x7F (R75). -/
def nanCode (f : Fp) : Nat := if f = e5m2 then 0x7F else f.encNan

/-- A magnitude rounded to nearest even onto the format's grid. -/
def Fp.rneFin (f : Fp) (m : Nat) (e : Int) : Nat × Int :=
  let q := f.quantum m e
  (rneShift m (e - q), q)

/-- A value rounded to nearest even, overflowing to infinity as IEEE 754 does. -/
def Fp.round (f : Fp) : FV → FV
  | .nan => .nan
  | .inf s => .inf s
  | .fin s m e =>
    let (v, q) := f.rneFin m e
    if ltFin f.qmax (.fin false v q) then .inf s else .fin s v q

/-- The code of a value rounded to nearest even. -/
def Fp.enc (f : Fp) (x : FV) : Nat :=
  match f.round x with
  | .nan => nanCode f
  | .inf s => f.encInf s
  | .fin s m e => f.encFin s m e

/-- The value of an FP32 word. -/
def f32 (w : W32) : FV := fp32.dec w.toNat
/-- A value as an FP32 word, rounded to nearest even. -/
def toF32 (x : FV) : W32 := BitVec.ofNat 32 (fp32.enc x)
/-- Canonical NaN in FP32. -/
def nan32 : W32 := 0x7FC00000

/-- A tensor scale that is positive and normal: its exponent and its significand in units of 2^-23 (R57); none for any
other (R59). (DEDUCED, log 61) -/
def tensorScale (w : Nat) : Option (Int × Nat) :=
  let x := bits w 23 8
  if w.testBit 31 || x = 0 || x = 255 then none else some ((x : Int) - 127, bits w 0 23 + 2 ^ 23)

/-! ### Division and the reciprocal of a power-of-two significand -/

/-- The quotient of two positive magnitudes to `n` significant bits and a sticky bit: enough to round once from. -/
def quotient (m : Nat) (e : Int) (d : Nat) (f : Int) (n : Nat) : Nat × Int :=
  let k := n + Nat.log2 d + 2
  let a := m * 2 ^ k
  let q := a / d
  ((2 * q + b2n (a % d ≠ 0)), e - f - (k : Int) - 1)

/-! ### The counter-based generator (R64) -/

/-- The mixing function. -/
def mix64 (z0 : Nat) : Nat :=
  let z1 := ((z0 ^^^ (z0 >>> 31)) * 0x8F3A6C1DE52B9047) % 2 ^ 64
  let z2 := ((z1 ^^^ (z1 >>> 29)) * 0x5C2E91B73A64D0F9) % 2 ^ 64
  z2 ^^^ (z2 >>> 32)
/-- RHASH(seed, i, j). -/
def rhash (seed i j : Nat) : Nat :=
  mix64 ((mix64 ((seed + i * 0xA5B35705F1C73E2D) % 2 ^ 64) + j * 0xA5B35705F1C73E2D) % 2 ^ 64)

end Sys2Proof.Machine
end

