-- ==== Sys2Proof/Machine/Format.lean ====
section
/-! DEFINITION. The storage formats (R38 to R48, R72), packing (R39, R40), and the decoding of a group into the internal
form (R50 to R52). -/
namespace Sys2Proof.Machine

/-- The FMT code is not reserved (R38). -/
def fmtOk (f : Nat) : Bool := f < 14 || (16 ≤ f && f ≤ 20) || f = 24 || f = 25

/-- Storage bits of a format (R38). -/
def fmtBits : Nat → Nat
  | 0x00 => 1 | 0x01 => 2 | 0x02 => 2 | 0x03 => 3 | 0x04 => 4 | 0x05 => 6 | 0x06 => 8 | 0x07 => 12
  | 0x08 => 16 | 0x09 => 8 | 0x0A => 4 | 0x0B => 3 | 0x0C => 4 | 0x0D => 8 | 0x10 => 8 | 0x11 => 8
  | 0x12 => 16 | 0x13 => 16 | 0x14 => 32 | 0x18 => 32 | 0x19 => 64 | _ => 8

/-- Natural width m_f of a format (R38). -/
def fmtMf : Nat → Nat
  | 0x00 => 1 | 0x01 => 1 | 0x02 => 2 | 0x03 => 3 | 0x04 => 4 | 0x05 => 6 | 0x06 => 8 | 0x07 => 12
  | 0x08 => 16 | 0x09 => 8 | 0x0A => 7 | 0x0B => 7 | 0x0C => 15 | 0x0D => 15 | 0x10 => 4 | 0x11 => 3
  | 0x12 => 11 | 0x13 => 8 | 0x14 => 24 | 0x18 => 8 | 0x19 => 24 | _ => 8

/-- Width n of an In format; 0 for any other. -/
def intN : Nat → Nat
  | 0x02 => 2 | 0x03 => 3 | 0x04 => 4 | 0x05 => 6 | 0x06 => 8 | 0x07 => 12 | 0x08 => 16 | _ => 0

/-- A codebook format. -/
def isCb (f : Nat) : Bool := f = 0x0C || f = 0x0D
/-- A floating-point or pair format. -/
def isFloat (f : Nat) : Bool := 16 ≤ f
/-- A pair format. -/
def isPair (f : Nat) : Bool := f = 0x18 || f = 0x19
/-- The binary format of a floating-point code, or of a pair's parts. -/
def fpOf : Nat → Fp
  | 0x10 => e4m3 | 0x11 => e5m2 | 0x12 => fp16 | 0x13 => bf16 | 0x18 => bf16 | _ => fp32

/-- BG4's values (R44). -/
def bg4 : List Int := [-127, -88, -64, -46, -31, -18, -8, 0, 9, 19, 31, 44, 58, 76, 99, 127]
/-- BG3's values (R44). -/
def bg3 : List Int := [-127, -64, -27, 0, 24, 55, 90, 127]

/-- A table entry of codebook memory: 16-bit sign-magnitude (R45). -/
def cbEntry (w : Nat) : FV := .fin (w.testBit 15) (bits w 0 15) 0

/-- Exact value of an element's code; `zp` is the zero point, `cb` reads the codebook entry of the group's table
(R41 to R48, R74). -/
def elemVal (f zp : Nat) (cb : Nat → Nat) (c : Nat) : FV :=
  match f with
  | 0x00 => .fin (c.testBit 0) 1 0
  | 0x01 => if c % 4 = 1 then .fin false 1 0 else if c % 4 = 3 then .fin true 1 0 else .zero
  | 0x09 => FV.ofInt ((c : Int) - zp) 0
  | 0x0A => FV.ofInt (bg4.getD c 0) 0
  | 0x0B => FV.ofInt (bg3.getD c 0) 0
  | 0x0C => cbEntry (cb c)
  | 0x0D => cbEntry (cb c)
  | 0x18 => (bf16.dec (bits c 0 16)).add (bf16.dec (bits c 16 16))
  | 0x19 => (fp32.dec (bits c 0 32)).add (fp32.dec (bits c 32 32))
  | _ => if isFloat f then (fpOf f).dec c else FV.ofInt (sext (intN f) c) 0

/-- Code `i` of a packed row (R39). -/
def codeAt (row : List Byte) (f i : Nat) : Nat :=
  let w := fmtBits f
  let o := i * w
  bits (leAt row (o / 8) (w / 8 + 2)) (o % 8) w

/-- The codes of elements `i` to `i + n - 1` of a packed row. -/
def codesAt (row : List Byte) (f i n : Nat) : List Nat := (upTo n).map (fun j => codeAt row f (i + j))

/-- Bytes a packed row of `n` elements takes (R40). -/
def rowBytes (f n : Nat) : Nat := ceilDiv (n * fmtBits f) 8

/-- Codes packed into a row, the last byte filled up with zeros (R39, R40). -/
def packCodes (f : Nat) (cs : List Nat) : List Byte :=
  toLe (rowBytes f cs.length) (pack (cs.map (fun c => (fmtBits f, c))))

/-- Code for zero (R75); B1 has none and takes that of +1. -/
def zeroCode (f zp : Nat) : Nat :=
  match f with
  | 0x09 => zp
  | 0x0A => 7
  | 0x0B => 3
  | _ => 0

/-- Group size in elements (R54). -/
def gsizeOf : Nat → Nat
  | 0 => 32
  | 1 => 64
  | _ => 128

/-- A block scale is carried (R53). -/
def hasBlock (sc : Nat) : Bool := sc = 1 || sc = 3
/-- A tensor scale is carried (R53). -/
def hasTensor (sc : Nat) : Bool := 2 ≤ sc

/-- Bit width of a number. -/
def width (n : Nat) : Nat := if n = 0 then 0 else Nat.log2 n + 1

/-- Exponent an element of a floating-point or pair format counts with: a subnormal of a floating-point format counts
with the minimum normal exponent (R48), a pair with that of its exact sum (R50). -/
def countExp (f n : Nat) (e : Int) : Int := if isPair f then topExp n e else max (topExp n e) (fpOf f).emin

/-- Format offset of a group of exact values at width `m` (R50). -/
def efmtOf (f m : Nat) (xs : List FV) : Int :=
  if isFloat f then
    let es := xs.filterMap (fun x => match x with
      | .fin _ n e => if n = 0 then none else some (countExp f n e)
      | _ => none)
    match es with
    | [] => 0
    | e :: es => es.foldl max e - m + 1
  else
    let w := xs.foldl (fun a x => match x with | .fin _ n _ => max a (width n) | _ => a) 0
    ((w - m : Nat) : Int)

/-- Magnitude of an element at width `m` and offset `e` (R51). -/
def magAt (m : Nat) (e : Int) : FV → Nat
  | .fin _ n x => min (rneShift n (x - e)) (2 ^ m - 1)
  | _ => 0

/-- A decoded element as a signed integer at the group exponent. -/
def elemAt (m : Nat) (e : Int) (x : FV) : Int := if x.neg then -(magAt m e x : Int) else magAt m e x

/-- An operand is single-exponent (R52). -/
def singleExp (f m sc : Nat) : Bool := !isFloat f && fmtMf f ≤ m && !hasBlock sc

/-- The exponent of an E8 block-scale code (R56). -/
def e8 (c : Byte) : Int := (c.toNat : Int) - 127

end Sys2Proof.Machine
end

