-- ==== Sys2Proof/Machine/Desc.lean ====
section
/-! DEFINITION. The layer descriptor's fields (R358), the regimes (R96), and the tile space (R312 to R321, R324). -/
namespace Sys2Proof.Machine

/-- A layer descriptor of 256 bytes. -/
abbrev Desc := BitVec 2048

/-- `n` bits at bit `l` of the field group that starts at byte `o` of the descriptor. -/
def Desc.at_ (d : Desc) (o l n : Nat) : Nat := bits d.toNat (8 * o + l) n

def Desc.lseq (d : Desc) : Nat := d.at_ 0 0 16
def Desc.disp (d : Desc) : Nat := d.at_ 0 16 6
def Desc.exact_ (d : Desc) : Bool := d.at_ 0 22 1 = 1
def Desc.sside (d : Desc) : Bool := d.at_ 0 23 1 = 1
def Desc.skmode (d : Desc) : Bool := d.at_ 0 24 1 = 1
def Desc.imatch (d : Desc) : Bool := d.at_ 0 25 1 = 1
def Desc.bdim (d : Desc) : Nat := d.at_ 0 26 2
def Desc.nbkt (d : Desc) : Nat := d.at_ 0 28 3
def Desc.hil (d : Desc) : Bool := d.at_ 0 31 1 = 1
def Desc.nrung (d : Desc) : Nat := d.at_ 4 0 2
def Desc.rtrig (d : Desc) : Nat := d.at_ 4 2 3
def Desc.gdef (d : Desc) : Bool := d.at_ 4 5 1 = 1
def Desc.gauge (d : Desc) : Nat := d.at_ 4 6 13
def Desc.dsmode (d : Desc) : Nat := d.at_ 4 19 2
def Desc.ul (d : Desc) : Nat := d.at_ 4 21 4
def Desc.mmode (d : Desc) : Bool := d.at_ 4 25 1 = 1
def Desc.auxen (d : Desc) : Bool := d.at_ 4 26 1 = 1
def Desc.sumen (d : Desc) : Bool := d.at_ 4 27 1 = 1
def Desc.seedsrc (d : Desc) : Nat := d.at_ 4 28 2
def Desc.rung (d : Desc) (i : Nat) : Nat := d.at_ 8 (16 * i) 16
def Desc.esc (d : Desc) : Nat := d.at_ 16 0 16
def Desc.speclim (d : Desc) : Nat := d.at_ 16 16 16
def Desc.fmtA (d : Desc) : Nat := d.at_ 20 0 5
def Desc.scA (d : Desc) : Nat := d.at_ 20 5 2
def Desc.zrla (d : Desc) : Bool := d.at_ 20 7 1 = 1
def Desc.expcA (d : Desc) : Nat := d.at_ 20 8 8
def Desc.zpA (d : Desc) : Nat := d.at_ 20 16 8
def Desc.fmtW (d : Desc) : Nat := d.at_ 24 0 5
def Desc.scW (d : Desc) : Nat := d.at_ 24 5 2
def Desc.zrlw (d : Desc) : Bool := d.at_ 24 7 1 = 1
def Desc.expcW (d : Desc) : Nat := d.at_ 24 8 8
def Desc.zpW (d : Desc) : Nat := d.at_ 24 16 8
def Desc.fmtO (d : Desc) : Nat := d.at_ 28 0 5
def Desc.scO (d : Desc) : Nat := d.at_ 28 5 2
def Desc.zrlo (d : Desc) : Bool := d.at_ 28 7 1 = 1
def Desc.zpO (d : Desc) : Nat := d.at_ 28 16 8
def Desc.gsizeCode (d : Desc) : Nat := d.at_ 32 0 2
def Desc.ogsizeCode (d : Desc) : Nat := d.at_ 32 2 2
def Desc.rnd (d : Desc) : Nat := d.at_ 32 4 2
def Desc.rot (d : Desc) : Nat := d.at_ 32 6 2
def Desc.rotn (d : Desc) : Nat := d.at_ 32 8 2
def Desc.sp24 (d : Desc) : Nat := d.at_ 32 10 2
def Desc.scb (d : Desc) : Nat := d.at_ 32 12 2
def Desc.sctype (d : Desc) : Bool := d.at_ 32 14 1 = 1
def Desc.scalpha (d : Desc) : Nat := d.at_ 32 15 2
def Desc.auxfmt (d : Desc) : Nat := d.at_ 32 17 5
def Desc.auxsc (d : Desc) : Nat := d.at_ 32 22 2
def Desc.ksplit (d : Desc) : Nat := d.at_ 32 24 6
def Desc.sct (d : Desc) : Nat := d.at_ 36 0 32
def Desc.dscale (d : Desc) : Nat := d.at_ 40 0 32
def Desc.tsca (d : Desc) : Nat := d.at_ 44 0 32
def Desc.tscw (d : Desc) : Nat := d.at_ 48 0 32
def Desc.capr (d : Desc) : Nat := d.at_ 52 0 16
def Desc.xrow (d : Desc) : Nat := d.at_ 52 16 8
def Desc.lseed (d : Desc) : Nat := d.at_ 56 0 64
def Desc.gseed (d : Desc) : Nat := d.at_ 64 0 64
def Desc.rseed (d : Desc) : Nat := d.at_ 72 0 64
/-- TB, the batch count. -/
def Desc.tb (d : Desc) : Nat := d.at_ 80 0 16 + 1
/-- M_t, output rows of a tile. -/
def Desc.mt (d : Desc) : Nat := d.at_ 80 16 8 + 1
/-- TK, the K-split parts. -/
def Desc.tk (d : Desc) : Nat := d.at_ 80 24 6 + 1
def Desc.batw (d : Desc) : Bool := d.at_ 80 30 1 = 1
/-- N_t, output columns of a tile. -/
def Desc.nt (d : Desc) : Nat := d.at_ 84 0 10 + 1
/-- Block height in tiles. -/
def Desc.blkm (d : Desc) : Nat := d.at_ 84 10 8 + 1
/-- Block width in tiles. -/
def Desc.blkn (d : Desc) : Nat := d.at_ 84 18 8 + 1
def Desc.mdim (d : Desc) : Nat := d.at_ 88 0 32
def Desc.ndim (d : Desc) : Nat := d.at_ 92 0 32
def Desc.kdim (d : Desc) : Nat := d.at_ 96 0 32
def Desc.lordb (d : Desc) : Nat := d.at_ 100 0 8
def Desc.lordt (d : Desc) : Nat := d.at_ 100 8 8
def Desc.lords (d : Desc) : Nat := d.at_ 100 16 8
def Desc.bkt (d : Desc) (i : Nat) : Nat := d.at_ 104 (32 * i) 32
def Desc.padA (d : Desc) : Nat := d.at_ 136 0 32
def Desc.padW (d : Desc) : Nat := d.at_ 140 0 32
def Desc.anchb (d : Desc) : Nat := d.at_ 144 0 14
def Desc.tscx (d : Desc) : Nat := d.at_ 148 0 32
def Desc.eprog (d : Desc) : Nat := d.at_ 152 0 48
def Desc.auxb (d : Desc) : Nat := d.at_ 158 0 48
def Desc.sumb (d : Desc) : Nat := d.at_ 164 0 48
def Desc.scmask (d : Desc) : Nat := d.at_ 170 0 48
def Desc.dshist (d : Desc) : Nat := d.at_ 176 0 48
def Desc.amaxb (d : Desc) : Nat := d.at_ 182 0 48
def Desc.abase (d : Desc) : Nat := d.at_ 188 0 48
def Desc.ascb (d : Desc) : Nat := d.at_ 194 0 48
def Desc.wbase (d : Desc) : Nat := d.at_ 200 0 48
def Desc.wscb (d : Desc) : Nat := d.at_ 206 0 48
def Desc.obase (d : Desc) : Nat := d.at_ 212 0 48
def Desc.oscb (d : Desc) : Nat := d.at_ 218 0 48
def Desc.astr (d : Desc) : Nat := d.at_ 224 0 32
def Desc.wstr (d : Desc) : Nat := d.at_ 228 0 32
def Desc.ostr (d : Desc) : Nat := d.at_ 232 0 32
def Desc.ozsz (d : Desc) : Nat := d.at_ 236 0 32
def Desc.aseg (d : Desc) : Nat := d.at_ 240 0 16
def Desc.ixbase (d : Desc) : Nat := d.at_ 244 0 48
def Desc.ivbase (d : Desc) : Nat := d.at_ 250 0 48

/-- G, the group size along K. -/
def Desc.g (d : Desc) : Nat := gsizeOf d.gsizeCode
/-- The group size of the output row. -/
def Desc.og (d : Desc) : Nat := gsizeOf d.ogsizeCode
/-- N of the rotation (R67). -/
def Desc.rotN (d : Desc) : Nat := gsizeOf d.rotn

/-! ### Regimes (R96) -/

/-- WIDE48. -/
abbrev wide48 : Nat := 0
/-- STAGED. -/
abbrev staged : Nat := 1
/-- HALF16. -/
abbrev half16 : Nat := 2

/-- Clamp of a regime in window units. -/
def clampOf (r : Nat) : Int := if r = wide48 then 2 ^ 47 - 1 else if r = staged then 2 ^ 55 - 1 else 32767
/-- Length of a regime in aligned group partials; HALF16 has none. -/
def lengthOf (r : Nat) : Option Nat := if r = wide48 then some 65536 else if r = staged then some 16777216 else none
/-- Bytes of an accumulator word (R115). -/
def wordBytes (r : Nat) : Nat := if r = half16 then 2 else 8

/-! ### Lengths, slices and parts (R77, R314, R318, R321) -/

/-- Smallest of buckets 0 to NBKT that is at least the actual length, with its index (R318). -/
def Desc.bucket (d : Desc) (alen : Nat) : Option (Nat × Nat) :=
  ((upTo (d.nbkt + 1)).find? (fun i => alen ≤ d.bkt i)).map (fun i => (i, d.bkt i))
/-- LAYER refuses the buckets (R318). -/
def Desc.bucketBad (d : Desc) (alen : Nat) : Bool :=
  d.bdim ≠ 0 && (alen = 0 || d.bkt d.nbkt < alen || (upTo d.nbkt).any (fun i => d.bkt (i + 1) ≤ d.bkt i))
/-- The length of a dimension (1 M, 2 N, 3 K), the bucketed one at its bucket. -/
def Desc.dimB (d : Desc) (bktLen which dim : Nat) : Nat := if d.bdim = which then bktLen else dim
/-- M with the bucket length. -/
def Desc.mB (d : Desc) (alen : Nat) : Nat := if d.bdim = 1 then ((d.bucket alen).map (·.2)).getD 0 else d.mdim
/-- N with the bucket length. -/
def Desc.nB (d : Desc) (alen : Nat) : Nat := if d.bdim = 2 then ((d.bucket alen).map (·.2)).getD 0 else d.ndim
/-- K with the bucket length. -/
def Desc.kB (d : Desc) (alen : Nat) : Nat := if d.bdim = 3 then ((d.bucket alen).map (·.2)).getD 0 else d.kdim
/-- Actual M (R321). -/
def Desc.mA (d : Desc) (alen : Nat) : Nat := if d.bdim = 1 then alen else d.mdim
/-- Actual N. -/
def Desc.nA (d : Desc) (alen : Nat) : Nat := if d.bdim = 2 then alen else d.ndim
/-- Actual K. -/
def Desc.kA (d : Desc) (alen : Nat) : Nat := if d.bdim = 3 then alen else d.kdim

/-- Logical K elements of a K-slice: 128, or 256 under 2:4 on the serial operand (R77). -/
def Desc.kslice (d : Desc) : Nat := if d.sp24 = 0 then 128 else 256
/-- Number of K-slices of K. -/
def Desc.slices (d : Desc) (alen : Nat) : Nat := ceilDiv (d.kB alen) d.kslice
/-- K-slices of a part (R314). -/
def Desc.partSlices (d : Desc) (alen : Nat) : Nat := ceilDiv (d.slices alen) d.tk
/-- First K-slice and the one after the last of part `p` (R314). -/
def Desc.partRange (d : Desc) (alen p : Nat) : Nat × Nat :=
  (p * d.partSlices alen, min ((p + 1) * d.partSlices alen) (d.slices alen))

/-! ### The tile space (R314 to R316) -/

/-- Extents of a layer's tile space. -/
structure Space where
  tb : Nat
  tm : Nat
  tn : Nat
  tk : Nat
  blkm : Nat
  blkn : Nat
  lordb : Nat
  lordt : Nat
  hil : Bool
  deriving DecidableEq, Repr

/-- The tile space of a descriptor at a length. -/
def Desc.space (d : Desc) (alen : Nat) : Space :=
  { tb := d.tb, tm := ceilDiv (d.mB alen) d.mt, tn := ceilDiv (d.nB alen) d.nt, tk := d.tk,
    blkm := d.blkm, blkn := d.blkn, lordb := d.lordb, lordt := d.lordt, hil := d.hil }

/-- Tiles of the space, beyond ones included. -/
def Space.size (p : Space) : Nat := p.tb * p.tm * p.tn * p.tk

/-- The dimensions a loop-order field names, outermost first (R313). -/
def orderDims (o : Nat) : List Nat := [bits o 6 2, bits o 4 2, bits o 2 2, bits o 0 2]
/-- A loop-order code names every dimension once. -/
def orderOk (o : Nat) : Bool := (upTo 4).all (fun i => (orderDims o).contains i)
/-- Position of coordinates in a walk over extents; both are listed by dimension code (batch, M, N, K). -/
def rankIn (o : Nat) (i e : List Nat) : Nat :=
  (orderDims o).foldl (fun r k => r * e.getD k 1 + i.getD k 0) 0
/-- The coordinates at a position of a walk over extents: the inverse of `rankIn`. -/
def unrank (o : Nat) (e : List Nat) (r : Nat) : List Nat :=
  let go := (orderDims o).reverse.foldl (fun (st : Nat × List (Nat × Nat)) k =>
    (st.1 / e.getD k 1, (k, st.1 % e.getD k 1) :: st.2)) (r, [])
  (upTo 4).map (fun k => ((go.2.find? (·.1 = k)).map (·.2)).getD 0)

/-- Blocks along M and N. -/
def Space.bm (p : Space) : Nat := ceilDiv p.tm p.blkm
def Space.bn (p : Space) : Nat := ceilDiv p.tn p.blkn
/-- Tiles of block (bm, bn) along M and N. -/
def Space.ext (p : Space) (bm bn : Nat) : Nat × Nat :=
  (min p.blkm (p.tm - bm * p.blkm), min p.blkn (p.tn - bn * p.blkn))

/-- The cell of a Hilbert curve position (R316); `fuel` counts the doublings of the side. -/
def d2xy : Nat → Nat → Nat → Nat → Nat → Nat × Nat
  | 0, x, y, _, _ => (x, y)
  | f + 1, x, y, t, s =>
    let rx := (t / 2) % 2
    let ry := (t ^^^ rx) % 2
    let (x1, y1) := if ry = 0 then
        (let (a, b) := if rx = 1 then (s - 1 - x, s - 1 - y) else (x, y); (b, a)) else (x, y)
    d2xy f (x1 + s * rx) (y1 + s * ry) (t / 4) (2 * s)

/-- The blocks in the order they run: (b, bm, bn) (R315, R316). -/
def Space.blocks (p : Space) : List (Nat × Nat × Nat) :=
  if p.hil then
    let k := Nat.log2 (2 * max p.bm p.bn - 1)
    let cells := ((upTo (4 ^ k)).map (fun t => d2xy k 0 0 t 1)).filter (fun c => c.1 < p.bm && c.2 < p.bn)
    (upTo p.tb).flatMap (fun b => cells.map (fun c => (b, c.1, c.2)))
  else
    (upTo (p.tb * p.bm * p.bn)).map (fun r =>
      let c := unrank p.lordb [p.tb, p.bm, p.bn, 1] r
      (c.getD 0 0, c.getD 1 0, c.getD 2 0))

/-- Tiles of a block. -/
def Space.tilesIn (p : Space) (b : Nat × Nat × Nat) : Nat := (p.ext b.2.1 b.2.2).1 * (p.ext b.2.1 b.2.2).2 * p.tk

/-- The block that holds a tile index, with the index's place in it. -/
def Space.locate (p : Space) : List (Nat × Nat × Nat) → Nat → Option ((Nat × Nat × Nat) × Nat)
  | [], _ => none
  | b :: bs, i => if i < p.tilesIn b then some (b, i) else Space.locate p bs (i - p.tilesIn b)

/-- Coordinates (b, tm, tn, tk) of a tile index (R315). -/
def Space.coords (p : Space) (i : Nat) : Option (Nat × Nat × Nat × Nat) :=
  (p.locate p.blocks i).map (fun x =>
    let (b, bm, bn) := x.1
    let e := p.ext bm bn
    let c := unrank p.lordt [1, e.1, e.2, p.tk] x.2
    (b, bm * p.blkm + c.getD 1 0, bn * p.blkn + c.getD 2 0, c.getD 3 0))

/-- Tile index of coordinates (R315). -/
def Space.index (p : Space) (b tm tn tk : Nat) : Nat :=
  let bm := tm / p.blkm
  let bn := tn / p.blkn
  let before := p.blocks.takeWhile (fun x => x ≠ (b, bm, bn))
  let e := p.ext bm bn
  (before.map p.tilesIn).sum + rankIn p.lordt [0, tm - bm * p.blkm, tn - bn * p.blkn, tk] [1, e.1, e.2, p.tk]

/-- A tile is beyond the actual lengths (R319). -/
def Desc.beyond (d : Desc) (alen i : Nat) : Bool :=
  match (d.space alen).coords i with
  | some (_, tm, tn, tk) => d.mA alen ≤ tm * d.mt || d.nA alen ≤ tn * d.nt ||
      d.kA alen ≤ (d.partRange alen tk).1 * d.kslice
  | none => true

/-! ### Claim records (R324) -/

/-- A claim record. -/
abbrev CRec := BitVec 128
def CRec.tile (r : CRec) : Nat := fld r 31 0
def CRec.epoch (r : CRec) : Nat := fld r 47 32
def CRec.status (r : CRec) : Nat := fld r 51 48
def CRec.floor (r : CRec) : Nat := fld r 53 52
def CRec.guard (r : CRec) : Bool := flag r 54
def CRec.close (r : CRec) : Bool := flag r 55
def CRec.kpart (r : CRec) : Nat := fld r 61 56
def CRec.cb (r : CRec) : Nat := fld r 79 64
def CRec.cm (r : CRec) : Nat := fld r 95 80
def CRec.cn (r : CRec) : Nat := fld r 111 96
def CRec.bkt (r : CRec) : Nat := fld r 114 112

/-- A claim record from its fields; one whose STATUS is not OK holds STATUS, FLOOR and GUARD alone. -/
def mkRec (tile epoch status floor : Nat) (guard close : Bool) (kpart cb cm cn bkt : Nat) : CRec :=
  BitVec.ofNat 128 (if status = 0 then
    pack [(32, tile), (16, epoch), (4, 0), (2, floor), (1, b2n guard), (1, b2n close), (6, kpart), (2, 0),
          (16, cb), (16, cm), (16, cn), (3, bkt)]
  else pack [(32, 0), (16, 0), (4, status), (2, floor), (1, b2n guard)])

end Sys2Proof.Machine
end

