-- ==== Sys2Proof/Machine/SeqOps.lean ====
section
/-! DEFINITION. The sequencer's own operations: fetching, going on, refusing, scalar registers and layer contexts (R341 to
R346, R352, R362, R366, R367). -/
namespace Sys2Proof.Machine

/-- Byte offset of the ring in the scratchpad (R342). (DEDUCED, log 118) -/
def State.ringOff (s : State) (c : Nat) : Nat := (s.rg .seqRing c).toNat % 2 ^ 14 * 32

/-- The sequencer writes its read index to the control word, none of it past the scratchpad's end (R342). (DEDUCED, log 118) -/
def State.writeRd (s : State) (c : Nat) : State :=
  let o := s.ringOff c + 4096 + 4
  s.setSpad c o ((toLe 4 (s.core c).seq.rd).take (0x80000 - o))

/-- The read index set; at a multiple of 16 it is written to the control word (R342). -/
def State.setRd (s : State) (c i : Nat) : State :=
  let t := s.modSeq c (fun q => { q with rd := i % 256 })
  if i % 16 = 0 then t.writeRd c else t

/-- The next command in ring order (R343). -/
def State.seqNext (s : State) (c : Nat) : State := s.setRd c ((s.core c).seq.rd + 1)

/-- A command issues: it counts in SEQ_ISSUED (R371). -/
def State.issued (s : State) (c : Nat) : State := s.count .seqIssued c 0 1

/-- A command that does not block issues and the next one follows (R345). -/
def State.seqGoOn (s : State) (c : Nat) : State := (s.issued c).seqNext c

/-- A blocking command holds the sequencer in WAIT (R345). -/
def State.seqWait (s : State) (c : Nat) (w : Wait) : State := (s.issued c).modSeq c (fun q => { q with wait := w })

/-- A blocking command completes and entry `i` follows; a STOP that came meanwhile halts now (R345, R367). -/
def State.seqDoneAt (s : State) (c i : Nat) : State :=
  let t := s.setRd c i
  t.modSeq c (fun q => { q with wait := .none, halted := q.halted || q.stop, stop := false })

/-- A blocking command completes and the next one in ring order follows (R345). -/
def State.seqDone (s : State) (c : Nat) : State := s.seqDoneAt c ((s.core c).seq.rd + 1)

/-- Reasons of refusal (R346). -/
abbrev rRESV : Nat := 0x01
abbrev rDESC : Nat := 0x02
abbrev rPROG : Nat := 0x03
abbrev rDISP : Nat := 0x04
abbrev rBUCKET : Nat := 0x05
abbrev rALEN : Nat := 0x06
abbrev rPREC : Nat := 0x07
abbrev rSTATE : Nat := 0x08
abbrev rNOLAYER : Nat := 0x09
abbrev rLOOP : Nat := 0x0A
abbrev rEXACT : Nat := 0x0B
abbrev rADDR : Nat := 0x0C

/-- The session that owns a core (R477), for the events of its work. -/
def State.ownerOf (s : State) (c : Nat) : Option Nat := (s.core c).owner

/-- A command is refused: the read index stays, HALTED with FAULT, SEQ_LASTERR and CMD_REFUSED (R346). -/
def State.seqRefuse (s : State) (c op reason : Nat) : State :=
  let v := pack [(8, reason), (8, (s.core c).seq.rd), (8, op)]
  let t := (s.modSeq c (fun q => { q with halted := true, fault := true, wait := .none, stop := false,
                                          lasterr := BitVec.ofNat 32 v })).writeRd c
  t.coreEvent c 0x0503 2 v

/-- The sequencer fetches: not HALTED, not waiting, its ring not empty, its core there and powered (R343). -/
def State.fetches (s : State) (c : Nat) : Bool :=
  let q := (s.core c).seq
  !q.halted && q.wait = .none && q.rd ≠ q.wr && !s.fenced c && s.powered c && !s.coreScrubbing c

/-- The command at the read index; past the scratchpad's end it is 0 (R342). (DESIGN CHOICE, log 2; DEDUCED, log 69;
DEDUCED, log 118) -/
def State.fetchWord (s : State) (c : Nat) : BitVec 128 :=
  let o := s.ringOff c + 16 * (s.core c).seq.rd
  BitVec.ofNat 128 (s.spadLe c o (min 16 (0x80000 - o)))

/-- Opcodes that R348 to R350 leave reserved. (DEDUCED, log 71) -/
def opReserved (op : Nat) : Bool := 0x19 < op

/-- The sequencer issues a command of opcode `op`: what it does with the fetched word. A reserved opcode is refused
whichever command is asked; another opcode than `op` leaves everything as it is (DESIGN CHOICE, log 9).
(DESIGN CHOICE, log 2; DEDUCED, log 71) -/
def State.seqRun (s : State) (c op : Nat) (f : BitVec 128 → State) : State :=
  if s.fetches c then
    let w := s.fetchWord c
    let o := fld w 7 0
    if opReserved o then s.seqRefuse c o rRESV
    else if o = op then f w
    else s
  else s

/-- Every bit of a command outside the listed bit ranges (low bit, width) is 0 (R347). (DEDUCED, log 56) -/
def onlyBits (w : BitVec 128) (fs : List (Nat × Nat)) : Bool :=
  let m := fs.foldl (fun m f => m ||| ((2 ^ f.2 - 1) <<< f.1)) 0xFF
  w.toNat &&& m = w.toNat

/-- A scalar register (R341). -/
def State.scalar (s : State) (c n : Nat) : Nat := s.rg64 .seqS c n
/-- A scalar register written (R362). -/
def State.setScalar (s : State) (c n v : Nat) : State := s.setRg64 .seqS c n 0 v

/-- The sequencer is HALTED with everything of its run cleared: kill, reset or quiesce (R367, R544). -/
def Seq.cleared (q : Seq) : Seq :=
  { halted := true, barriers := 0, nextCtx := q.nextCtx }

/-- A value of an untyped number as an option of a context. -/
def State.ctxOf (s : State) (c id : Nat) : Option Ctx := (s.core c).seq.ctxs.find? (·.id = id)
/-- The current layer context (R351). -/
def State.curCtx (s : State) (c : Nat) : Option Ctx := (s.core c).seq.ctxs.getLast?
/-- A layer context changed. -/
def State.modCtx (s : State) (c id : Nat) (f : Ctx → Ctx) : State :=
  s.modSeq c (fun q => { q with ctxs := q.ctxs.map (fun x => if x.id = id then f x else x) })
/-- The context of a tile. -/
def State.tileCtx (s : State) (c h : Nat) : Ctx := (s.ctxOf c (s.tile c h).ctx).getD {}
/-- The descriptor of a tile's layer. -/
def State.tileDesc (s : State) (c h : Nat) : Desc := (s.tileCtx c h).desc

/-- The handles that are not FREE. -/
def Core.busyHandles (k : Core) : List Nat := (upTo 8).filter (fun h => (k.tile h).st ≠ .free)
/-- A context is retired: no handle of it is open and no tile of it is in the output path (R352). -/
def Core.retired (k : Core) (id : Nat) : Bool := k.busyHandles.all (fun h => (k.tile h).ctx ≠ id)
/-- The contexts held: those not retired, and the current one. -/
def Core.heldCtxs (k : Core) : List Ctx :=
  let cur := (k.seq.ctxs.getLast?).map (·.id)
  k.seq.ctxs.filter (fun x => some x.id = cur || !k.retired x.id)

end Sys2Proof.Machine
end

