-- ==== Sys2Proof/Machine/SdtOps.lean ====
section
/-! DEFINITION. The Seed Tray's shared operations: the issue counter, open claims, bumps, what ends a layer, and the answer
to a claim (R322 to R330, R206). -/
namespace Sys2Proof.Machine

/-! ### A dispenser and its claims -/

/-- The tile space of the layer a dispenser holds. -/
def Disp.space (x : Disp) : Space := Desc.space x.desc x.alen
/-- The layer's parts are summed in the partition tree: a K-split that is not index-match (R205, R328). -/
def Disp.split (x : Disp) : Bool := 1 < x.space.tk && !Desc.imatch x.desc

/-- From a counter value on, past every tile that is beyond (R319, R325). -/
def Disp.skipFrom (x : Disp) : Nat → Nat → Nat
  | 0, n => n
  | fuel + 1, n => if n < x.space.size && Desc.beyond x.desc x.alen n then Disp.skipFrom x fuel (n + 1) else n
/-- The next tile the counter would issue. -/
def Disp.nextTile (x : Disp) : Nat := x.skipFrom (x.space.size - x.next) x.next

/-- Issued parts of an output tile: those that start before the actual K (R319, R328). -/
def Disp.issuedParts (x : Disp) : Nat :=
  ((upTo x.space.tk).filter (fun p => (Desc.partRange x.desc x.alen p).1 * Desc.kslice x.desc < Desc.kA x.desc x.alen)).length
/-- Tiles to issue in the armed layer (R332). -/
def Disp.total (x : Disp) : Nat :=
  x.space.tb * min x.space.tm (ceilDiv (Desc.mA x.desc x.alen) (Desc.mt x.desc)) *
    min x.space.tn (ceilDiv (Desc.nA x.desc x.alen) (Desc.nt x.desc)) * x.issuedParts

/-- Index of part 0 of a tile's output tile (R328). -/
def Disp.part0 (x : Disp) (i : Nat) : Nat :=
  match x.space.coords i with
  | some (b, tm, tn, _) => x.space.index b tm tn 0
  | none => i

/-- Open claims of a dispenser, of every epoch. -/
def State.claimsOn (s : State) (d : Nat) : List Claim := s.sdt.claims.filter (·.disp = d)
/-- Open claims that can still return their tile. -/
def State.liveClaims (s : State) (d : Nat) : List Claim := (s.claimsOn d).filter (fun x => !x.stale)
/-- The open claim a tile index and epoch of a core name: one that is not STALE where there is one (R327). -/
def State.claimAt (s : State) (c d tile epoch : Nat) : Option Claim :=
  let l := s.sdt.claims.filter (fun x => x.core = c && x.disp = d && x.tile = tile && x.epoch = epoch)
  (l.find? (fun x => !x.stale)).or l.head?
/-- An entry closes. -/
def State.closeClaim (s : State) (x : Claim) : State :=
  { s with sdt := { s.sdt with claims := s.sdt.claims.erase x } }

/-- The partial sums of a dispenser's layer discarded. -/
def State.dropSums (s : State) (d : Nat) : State :=
  { s with sdt := { s.sdt with partSums := s.sdt.partSums.filter (·.disp ≠ d), sums := s.sdt.sums.filter (·.disp ≠ d) } }
/-- A hub merge entry belongs to the layer that a dispenser holds: it is not a full row of an earlier one. -/
def HubRow.of (y : HubRow) (d lseq : Nat) : Bool := y.disp = d && (!y.full || y.layer.lseq = lseq)
/-- The hub merge entries of a dispenser's layer discarded (R206). -/
def State.dropHub (s : State) (d : Nat) : State :=
  let n := (s.disp d).lseq
  { s with sdt := { s.sdt with hub := s.sdt.hub.filter (fun y => !y.of d n)
                               hubAmax := s.sdt.hubAmax.filter (fun y => !(y.disp = d && y.lseq = n)) } }
/-- Every hub merge entry of a dispenser discarded (R206). -/
def State.clearHub (s : State) (d : Nat) : State :=
  { s with sdt := { s.sdt with hub := s.sdt.hub.filter (·.disp ≠ d), hubAmax := s.sdt.hubAmax.filter (·.disp ≠ d) } }

/-- ARMED, DRAINING and IDLE as R322 has them: an item in the queue or a tile at the counter arms, none of them drains,
and a drained dispenser without an open claim is complete. -/
def State.settle (s : State) (d : Nat) : State :=
  let x := s.disp d
  if x.st = .idle then s
  else if x.queue ≠ [] || x.nextTile < x.space.size then s.modDisp d (fun y => { y with st := .armed })
  else if s.claimsOn d = [] then s.modDisp d (fun y => { y with st := .idle, complete := true })
  else s.modDisp d (fun y => { y with st := .draining })

/-- The epoch bumps and the open claims become STALE; `back` puts their tiles into the return queue (R329).
(DESIGN CHOICE, log 20) -/
def State.bumpEpoch (s : State) (d : Nat) (back : Bool) : State :=
  let live := s.liveClaims d
  let t := { s with sdt := { s.sdt with
    claims := s.sdt.claims.map (fun (x : Claim) => if x.disp = d then { x with stale := true } else x) } }
  t.modDisp d (fun y => { y with
    epoch := (y.epoch + 1) % 65536
    queue := if back then y.queue ++ live.map (fun (x : Claim) => { tile := x.tile, close := x.close }) else y.queue })

/-- BUMP, and a resize at the quiesce point: counter, counts and DONE are kept (R329). (DESIGN CHOICE, log 20) -/
def State.bumpDisp (s : State) (d : Nat) : State := (s.bumpEpoch d true).settle d

/-- REWIND and SPEC_REPLAY: the queue emptied, the counter set, the counts gone, the hub's entries discarded (R206, R329). -/
def State.rewindDisp (s : State) (d next : Nat) (guard : Bool) : State :=
  ((((s.bumpEpoch d false).dropSums d).dropHub d).modDisp d (fun y => { y with
    queue := [], next := next, parts := [], done := 0, guard := y.guard || guard })).settle d

/-! ### Answers to claims (R324, R355) -/

/-- The claim record reaches its core: it is written at RADDR, its low half to Sd, and an OK makes the handle CLAIMED
(R355). -/
def State.answerClaim (s : State) (c h : Nat) (r : CRec) : State :=
  match (s.core c).seq.wait with
  | .claim h' sd raddr =>
    if h' = h then
      let t1 := (s.spadWrite c (raddr * 32) (toLe 16 r.toNat) pSeq).2
      let t2 := (t1.setScalar c sd (r.toNat % 2 ^ 64)).modCore c (fun k => { k with lastFloor := r.floor })
      let t3 := if r.status = 0 then
          t2.modTile c h (fun _ => { st := .claimed, rec_ := r, ctx := ((t2.curCtx c).getD {}).id,
                                     setRung := ((t2.curCtx c).getD {}).nextRung })
        else t2
      t3.seqDone c
    else s
  | _ => s

/-- Held claims are answered ABORTED: those of a dispenser that satisfy a test, held by the Meter or by a quiesce (R326, R329, R393,
R548). -/
def State.abortHeld (s : State) (d : Nat) (p : ClaimReq → Bool) : State :=
  let x := s.disp d
  let out (q : ClaimReq) : Bool := (q.held || x.quiesced) && p q
  (s.modDisp d (fun y => { y with claims := y.claims.filter (fun q => !out q) })).each (x.claims.filter out)
    (fun t q => t.answerClaim q.core q.h (mkRec 0 0 5 x.floor x.guard false 0 0 0 0 0))

/-- DISARM, kill, partition reset: the epoch bumps, entries close, the queue empties, the dispenser is IDLE and holds no
complete layer, held claims are ABORTED (R322, R329). -/
def State.disarmDisp (s : State) (d : Nat) : State :=
  let t := (((s.abortHeld d (fun _ => true)).dropSums d).dropHub d)
  let u := { t with sdt := { t.sdt with claims := t.sdt.claims.filter (·.disp ≠ d) } }
  u.modDisp d (fun y => { y with
    st := .idle, complete := false, epoch := (y.epoch + 1) % 65536, queue := [], parts := [] })

/-- A tile returned: its entry closes and, unless it is STALE, its index joins the return queue (R327). -/
def State.returnClaim (s : State) (c d tile epoch : Nat) : State :=
  match s.claimAt c d tile epoch with
  | none => s
  | some x =>
    let t := s.closeClaim x
    (if x.stale then t
     else t.modDisp d (fun y => { y with queue := y.queue ++ [{ tile := tile, close := x.close }] })).settle d

/-- An entry closes without its tile joining the queue and without counting in SDT_DnDONE (R434). -/
def State.endClaim (s : State) (c d tile epoch : Nat) : State :=
  match s.claimAt c d tile epoch with
  | none => s
  | some x => (s.closeClaim x).settle d

end Sys2Proof.Machine
end

