-- ==== Sys2Proof/Machine/Flags.lean ====
section
/-! DEFINITION. Rungs, precision tags and the Tile Status Word (R121, R122, R152), and the accumulator's arithmetic (R105 to
R110, R115). -/
namespace Sys2Proof.Machine

/-! ### Rung words (R152) -/

/-- Serial magnitude bits m_s. -/
def rungMs (w : Nat) : Nat := bits w 0 5
/-- Parallel bits, the sign included. -/
def rungPb (w : Nat) : Nat := bits w 5 5
/-- Parallel magnitude bits m_p (R35). -/
def rungMp (w : Nat) : Nat := rungPb w - 1
/-- REG. -/
def rungReg (w : Nat) : Nat := bits w 10 2
/-- PRUNE. -/
def rungPrune (w : Nat) : Bool := w.testBit 12
/-- SCOUT. -/
def rungScout (w : Nat) : Nat := bits w 13 2

/-- The regime a rung resolves to; index-match tiles record WIDE48 (R97, R199). -/
def regimeOf (d : Desc) (defreg w : Nat) : Nat :=
  if d.imatch then 0 else if rungReg w = 3 then defreg else rungReg w

/-- PTAG of a rung (R122). -/
def ptagOf (w : Nat) : Nat :=
  (min (rungMs w) 16 - 1) * 4 +
    (if rungPb w ≤ 4 then 0 else if rungPb w ≤ 8 then 1 else if rungPb w ≤ 12 then 2 else 3)

/-! ### The Tile Status Word (R121) -/

abbrev fSAT : Nat := 0
abbrev fLONG : Nat := 1
abbrev fSOVF : Nat := 2
abbrev fSUNF : Nat := 3
abbrev fNAN : Nat := 4
abbrev fIOOB : Nat := 5
abbrev fOVFL : Nat := 6
abbrev fPRUNED : Nat := 7
abbrev fGMISS : Nat := 8
abbrev fGSAMP : Nat := 9
abbrev fSPECMISS : Nat := 10
abbrev fAMAXOVF : Nat := 11
abbrev fAMAXUNF : Nat := 12
abbrev fPOISON : Nat := 13
abbrev fABORT : Nat := 14
abbrev fDUP : Nat := 15

/-- Flags from their bit numbers. -/
def flagsOf (l : List Nat) : W32 := l.foldl (fun v i => v ||| BitVec.ofNat 32 (1 <<< i)) 0

/-- Flags set on a tile; no flag is cleared before commit (R121). -/
def State.flagTile (s : State) (c h : Nat) (l : List Nat) : State :=
  s.modTile c h (fun t => { t with tsw := t.tsw ||| flagsOf l })

/-- The Tile Status Word: flags, RETRY, PTAG, REGIME and EXACT (R121). -/
def tswOf (flags : W32) (retry ptag regime : Nat) (ex : Bool) : W32 :=
  BitVec.ofNat 32 (pack [(16, flags.toNat), (4, retry), (6, ptag), (2, regime), (1, b2n ex)])

/-- Rung word of a tile's attempt. -/
def State.tileRung (s : State) (c h : Nat) : Nat := (s.tileDesc c h).rung (s.tile c h).rung
/-- Regime of a tile's attempt. -/
def State.tileRegime (s : State) (c h : Nat) : Nat :=
  regimeOf (s.tileDesc c h) (s.tileCtx c h).defreg (s.tileRung c h)
/-- The word a tile commits with. -/
def State.tileTsw (s : State) (c h : Nat) : W32 :=
  tswOf (s.tile c h).tsw (s.tile c h).rung (ptagOf (s.tileRung c h)) (s.tileRegime c h) (s.tileCtx c h).exact_

/-- Flags of a message from a tile's flags: SAT, LONG, SOVF, SUNF, NAN, POISON (R420). -/
def flags6 (w : W32) : Nat := bits w.toNat 0 5 + 32 * b2n (flag w fPOISON)
/-- Tile flags from a message's flags. -/
def ofFlags6 (f : Nat) : W32 := BitVec.ofNat 32 (bits f 0 5 + 2 ^ 13 * bits f 5 1)

/-- Scout mode of a tile's attempt: SCDIS turns it off, GUARD and a SPEC_REPLAY since make Speculative Guarded (R208,
R215). -/
def State.tileScout (s : State) (c h : Nat) : Nat :=
  let m := rungScout (s.tileRung c h)
  if (s.tile c h).latched.scdis then 0 else if m = 2 && (CRec.guard (s.tile c h).rec_ || (s.tile c h).guarded) then 1
    else m

/-- An event of a tile: core, partition, tile index, epoch and dispenser (R540). -/
def State.tileEvent (s : State) (c h code cls detail : Nat) : State :=
  let r := (s.tile c h).rec_
  s.log { code := code, cls := cls, part := s.partOf c, core := some c, tile := CRec.tile r, epoch := CRec.epoch r,
          disp := (s.tileDesc c h).disp, detail := detail }

/-- RESIDUE, GAUGE_FAULT, SCOUT_FAULT and SRAM_UE count against their core; SUSPECT is raised once (R557). -/
def State.coreFault (s : State) (c : Nat) : State :=
  let t := s.count16 .evtCflt 0 c 1
  let v := (t.rg .evtCflt 0 c).toNat
  let th := t.rf .evtSuspth 0 0 0 8
  if th ≠ 0 && th ≤ bits v 0 16 && !v.testBit 16 then
    (t.setRg .evtCflt 0 c 0 (BitVec.ofNat 32 (setBits v 16 1 1))).coreEvent c 0x0005 0 (bits v 0 16)
  else t

/-- A corrected SRAM error: one record per structure and core in any 1 s, with the corrections since (R536). -/
def State.sramCe (s : State) (c st off : Nat) : State :=
  let k := s.core c
  let n := Sparse.get 0 k.ceCnt st + 1
  let last := Sparse.get none k.ceTime st
  let due := match last with | none => true | some t => t + 1000000000 ≤ s.prc.time
  if due then
    (s.modCore c (fun k => { k with ceCnt := Sparse.put 0 k.ceCnt st 0, ceTime := Sparse.put none k.ceTime st (some s.prc.time) })).coreEvent
      c 0x0002 1 (pack [(8, st), (24, off), (32, min n (2 ^ 32 - 1))])
  else s.modCore c (fun k => { k with ceCnt := Sparse.put 0 k.ceCnt st n })

/-- The same of a hub structure. -/
def State.sramCeHub (s : State) (st off : Nat) : State :=
  let x := s.evt
  let n := Sparse.get 0 x.ceCnt st + 1
  let due := match Sparse.get none x.ceTime st with | none => true | some t => t + 1000000000 ≤ s.prc.time
  if due then
    ({ s with evt := { x with ceCnt := Sparse.put 0 x.ceCnt st 0, ceTime := Sparse.put none x.ceTime st (some s.prc.time) } }).devEvent
      0x0002 1 (pack [(8, st), (24, off), (32, min n (2 ^ 32 - 1))])
  else { s with evt := { x with ceCnt := Sparse.put 0 x.ceCnt st n } }

/-- The record of an uncorrectable SRAM error of a core's structure (R536, R557). (DEDUCED, log 63) -/
def State.sramUe (s : State) (c st off cls : Nat) : State :=
  (s.coreEvent c 0x0003 cls (pack [(8, st), (24, off), (32, 1)])).coreFault c

/-! ### The accumulator (R105 to R110) -/

/-- A partial with value `q * 2^e` aligned to anchor `a`, rounded to nearest even where it falls below the window (R105). -/
def alignTo (a q e : Int) : Int :=
  let m : Int := rneShift q.natAbs (e - (a - 31))
  if q < 0 then -m else m

/-- An addition clamps at the regime's bound and marks the output (R107). -/
def Acc.addInt (r : Nat) (x : Int) (a : Acc) : Acc :=
  let v := a.val + x
  let k := clampOf r
  if k < v then { a with val := k, sat := true }
  else if v < -k then { a with val := -k, sat := true }
  else { a with val := v }

/-- One aligned group partial more is counted (R106). -/
def Acc.counted (a : Acc) : Acc := { a with cnt := a.cnt + 1 }
/-- The output has received more partials than its regime's length (R108). -/
def Acc.tooLong (r : Nat) (a : Acc) : Bool := match lengthOf r with | some n => n < a.cnt | none => false

/-- The word of an accumulator in accumulation memory (R115). -/
def Acc.word (r : Nat) (a : Acc) : Nat :=
  if r = half16 then ofInt 16 a.val
  else if r = staged then ofInt 56 a.val + b2n a.nan * 2 ^ 56 + b2n a.sat * 2 ^ 57
  else ofInt 48 a.val + b2n a.nan * 2 ^ 48 + b2n a.sat * 2 ^ 49

/-- Value, marks and count of an accumulator word as a message carries it. -/
def Acc.ofWord (r w : Nat) (anchor : Int) (cnt : Nat) : Acc :=
  if r = half16 then { val := sext 16 w, cnt := cnt, anchor := anchor, anch := true }
  else if r = staged then
    { val := sext 56 (bits w 0 56), nan := w.testBit 56, sat := w.testBit 57, cnt := cnt, anchor := anchor, anch := true }
  else
    { val := sext 48 (bits w 0 48), nan := w.testBit 48, sat := w.testBit 49, cnt := cnt, anchor := anchor, anch := true }

/-- Two partial sums of one output joined: values by R107, marks kept, counts summed (R328, R429). -/
def Acc.join (r : Nat) (a b : Acc) : Acc :=
  let x := a.addInt r b.val
  { x with nan := a.nan || b.nan, sat := x.sat || b.sat, cnt := a.cnt + b.cnt, active := a.active || b.active }

/-- The anchors of two lists of accumulators agree (R123). -/
def sameAnchors (a b : List Acc) : Bool := a.map (·.anchor) = b.map (·.anchor)

end Sys2Proof.Machine
end

