-- ==== Sys2Proof/Machine/Operands.lean ====
section
/-! DEFINITION. What a tile's operands are: its geometry, steps and bricks, the codes and scales bound to it, the decoding
of a group into the internal form, anchors, exact group partials and brick costs (R50 to R59, R77 to R109, R180, R187 to
R196, R320). -/
namespace Sys2Proof.Machine

/-! ### Geometry of a tile -/

/-- A tile's place and extents: `rows` step rows and `cols` columns, of which `rowsA` and `colsA` lie within the actual
lengths; K positions `k0` to `k1 - 1` of its part; widths, regime and shape of the attempt. Under SSIDE the step rows are
output columns (R78). -/
structure Geo where
  d : Desc
  alen : Nat
  b : Nat
  tm : Nat
  tn : Nat
  tk : Nat
  idx : Nat
  sside : Bool
  rows : Nat
  cols : Nat
  rowsA : Nat
  colsA : Nat
  row0 : Nat
  col0 : Nat
  k0 : Nat
  k1 : Nat
  s0 : Nat          -- first K-slice
  ms : Nat
  mp : Nat
  regime : Nat
  shape : Nat
  prune : Bool
  deriving DecidableEq, Repr

/-- The geometry of the tile of core `c` and handle `h`, at a rung word. A close tile covers the whole K (R328). -/
def State.geoAt (s : State) (c h w : Nat) : Geo :=
  let t := s.tile c h
  let x := s.tileCtx c h
  let d := x.desc
  let r := t.rec_
  let tm := CRec.cm r
  let tn := CRec.cn r
  let pr := if CRec.close r then (0, Desc.slices d x.alen) else Desc.partRange d x.alen (CRec.kpart r)
  let mA := min (Desc.mt d) (Desc.mA d x.alen - tm * Desc.mt d)
  let nA := min (Desc.nt d) (Desc.nA d x.alen - tn * Desc.nt d)
  let ss := Desc.sside d && !Desc.imatch d
  { d := d, alen := x.alen, b := CRec.cb r, tm := tm, tn := tn, tk := CRec.kpart r, idx := CRec.tile r, sside := ss
    rows := if ss then Desc.nt d else Desc.mt d, cols := if ss then Desc.mt d else Desc.nt d
    rowsA := if ss then nA else mA, colsA := if ss then mA else nA
    row0 := if ss then tn * Desc.nt d else tm * Desc.mt d, col0 := if ss then tm * Desc.mt d else tn * Desc.nt d
    k0 := pr.1 * Desc.kslice d, k1 := min (pr.2 * Desc.kslice d) (Desc.kA d x.alen), s0 := pr.1
    ms := rungMs w, mp := rungMp w, regime := regimeOf d x.defreg w
    shape := s.rf .arrShape c 0 0 2, prune := rungPrune w }

/-- The geometry at the attempt's own rung. -/
def State.geo (s : State) (c h : Nat) : Geo := s.geoAt c h (s.tileRung c h)

/-- Outputs of the tile. -/
def Geo.outs (g : Geo) : Nat := g.rows * g.cols
/-- Output `i` in step-major order lies within the actual lengths. (DEDUCED, log 65) -/
def Geo.within (g : Geo) (i : Nat) : Bool := i / g.cols < g.rowsA && i % g.cols < g.colsA
/-- Bricks of the shape (R82). -/
def Geo.bricks (g : Geo) : Nat := if g.shape = 1 then 16 else 8
/-- Logical K positions of one step (R77, R82). -/
def Geo.stepK (g : Geo) : Nat :=
  if g.shape = 1 then 2 * g.d.kslice else if g.shape = 2 then g.d.kslice / 2 else g.d.kslice
/-- Where the streamed positions of the part end: the last group of a row is completed by pads (R320). -/
def Geo.kEnd (g : Geo) : Nat := if g.k1 = g.d.kA g.alen then ceilDiv g.k1 g.d.g * g.d.g else g.k1
/-- Number over the whole K of the part's first step along K: two K-slices pair by their own numbers in the tall shape (R187). -/
def Geo.kbase (g : Geo) : Nat := g.k0 / g.stepK
/-- Steps along K, before passes. (DEDUCED, log 37) -/
def Geo.ksteps (g : Geo) : Nat := if g.k1 ≤ g.k0 then 0 else ceilDiv g.kEnd g.stepK - g.kbase
/-- Consecutive steps of one row and K-slice: the two halves of a K-slice in the wide shape (R82). -/
def Geo.halves (g : Geo) : Nat := if g.shape = 2 then 2 else 1
/-- Extent of K in the step order: K-slices, or pairs of them in the tall shape (R82, R313). -/
def Geo.kloops (g : Geo) : Nat := ceilDiv g.ksteps g.halves
/-- Passes of a K-slice (R93, R94). (DEDUCED, log 37) -/
def Geo.passes (g : Geo) : Nat := (if 15 < g.ms then 2 else 1) * (if 15 < g.mp then 2 else 1)
/-- The serial and the parallel piece of a pass: 0 the whole, 1 hi, 2 lo (R94). (DEDUCED, log 37) -/
def Geo.pieces (g : Geo) (p : Nat) : Nat × Nat :=
  let one (split : Bool) (i : Nat) : Nat := if split then (if i = 0 then 1 else 2) else 0
  if 15 < g.mp then (one (15 < g.ms) (p / 2), one true (p % 2)) else (one (15 < g.ms) p, 0)
/-- Steps of one streaming of the tile, in LORDS order over step rows and K (R313, R317). (DEDUCED, log 37) -/
def Geo.steps (g : Geo) : Nat := g.rows * g.kloops * g.passes * g.halves
/-- Step row, K step and pass of a step: LORDS orders step rows, in M's place, and K-slices (R78, R313). A K-slice runs once per
pass, pass after pass (R94); the halves of a K-slice of the wide shape are consecutive steps (R82). (DEDUCED, log 37) -/
def Geo.stepAt (g : Geo) (i : Nat) : Nat × Nat × Nat :=
  let x := unrank g.d.lords [1, g.rows, 1, g.kloops * g.passes] (i / g.halves)
  let kk := x.getD 3 0
  (x.getD 1 0, kk / g.passes * g.halves + i % g.halves, kk % g.passes)
/-- The load of the lane registers a step runs on: one for each K step and parallel piece (R81, R94). -/
def Geo.load (g : Geo) (i : Nat) : Nat :=
  let x := g.stepAt i
  if 15 < g.mp then 2 * x.2.1 + x.2.2 % 2 else x.2.1
/-- K positions of a K step, the pads that complete the last group included. -/
def Geo.kRange (g : Geo) (k : Nat) : Nat × Nat :=
  (max g.k0 ((g.kbase + k) * g.stepK), min ((g.kbase + k + 1) * g.stepK) g.kEnd)
/-- First and last group of the part along K (R54). -/
def Geo.groups (g : Geo) : List Nat :=
  (upTo (ceilDiv g.k1 g.d.g - g.k0 / g.d.g)).map (g.k0 / g.d.g + ·)
/-- Groups of the layer's full K (R103). -/
def Geo.allGroups (g : Geo) : Nat := ceilDiv (g.d.kA g.alen) g.d.g
/-- Groups formed at a step: those whose last element lies in it (R77, R82). -/
def Geo.groupsOf (g : Geo) (k : Nat) : List Nat :=
  let r := g.kRange k
  g.groups.filter (fun q => let e := min ((q + 1) * g.d.g) g.kEnd; r.1 < e && e ≤ r.2)

/-! ### One side of the product -/

/-- What the descriptor says of an operand. -/
structure Side where
  weight : Bool
  fmt : Nat
  sc : Nat
  zr : Bool
  expc : Int
  zp : Nat
  ten : Nat
  pad : Nat
  s24 : Bool          -- stored in S24 form (R191)
  deriving DecidableEq, Repr

/-- The activation operand. -/
def Desc.sideA (d : Desc) : Side :=
  { weight := false, fmt := d.fmtA, sc := d.scA, zr := d.zrla, expc := sext 8 d.expcA, zp := d.zpA, ten := d.tsca,
    pad := d.padA, s24 := d.sp24 = 1 && !d.sside }
/-- The weight operand. -/
def Desc.sideW (d : Desc) : Side :=
  { weight := true, fmt := d.fmtW, sc := d.scW, zr := d.zrlw, expc := sext 8 d.expcW, zp := d.zpW, ten := d.tscw,
    pad := d.padW, s24 := d.sp24 = 1 && d.sside }
/-- The serial and the parallel operand (R78). -/
def Desc.serial (d : Desc) : Side := if d.sside then d.sideW else d.sideA
def Desc.parallel (d : Desc) : Side := if d.sside then d.sideA else d.sideW

/-- A tile's binding of a side. -/
def Tile.bind (t : Tile) (weight : Bool) : Binding := if weight then t.bindW else t.bindA
/-- A tile's binding of a side changed. -/
def Tile.setBind (t : Tile) (weight : Bool) (b : Binding) : Tile := if weight then { t with bindW := b } else { t with bindA := b }

/-- Element width of a side: the serial magnitude bits or the parallel ones (R35, R78). -/
def Geo.sideBits (g : Geo) (weight : Bool) : Nat := if weight = g.d.sside then g.ms else g.mp
/-- Operand rows the tile takes from a side. -/
def Geo.sideRows (g : Geo) (weight : Bool) : Nat := if weight = g.sside then g.rowsA else g.colsA
/-- First row of a side's tensor that the tile takes, and the tensor's rows in all (R359). -/
def Geo.sideBase (g : Geo) (weight : Bool) : Nat × Nat :=
  if weight then
    ((if g.d.batw then g.b * g.d.nA g.alen else 0) + g.tn * g.d.nt, (if g.d.batw then g.d.tb else 1) * g.d.nA g.alen)
  else (g.b * g.d.mA g.alen + g.tm * g.d.mt, g.d.tb * g.d.mA g.alen)

/-- Storage entries of a K range of a side: one for each position, or one for each slot of the S24 form, which holds half
as many (R191). -/
def Side.entries (x : Side) (n : Nat) : Nat := if x.s24 then ceilDiv n 32 * 16 else n

/-- An S24 slot as one number: its code, and its position index above bit 70. -/
def slotCode (code idx : Nat) : Nat := code % 2 ^ 70 + idx * 2 ^ 70
/-- Code of an entry. -/
def entCode (e : Nat) : Nat := e % 2 ^ 70
/-- Position index of an entry. -/
def entIdx (e : Nat) : Nat := e / 2 ^ 70

/-- Entries kept for a row of a side from the tile's chunks; one that was not filled reads as zero-filled data (R578). -/
def Binding.row (b : Binding) (r : Nat) : List Nat := b.chunks.flatMap (fun ch => ch.getD r [])

/-- Block-scale byte of a row and group of the full K (R55, R103). -/
def Binding.scaleAt (b : Binding) (groups r g : Nat) : Byte := b.scales.getD (r * groups + g) 0
/-- Table select of a row and group (R46). -/
def Binding.selAt (b : Binding) (groups r g : Nat) : Nat := b.sels.getD (r * groups + g) 0

/-- A codebook entry's word in the core's codebook memory (R45, R46). (DEDUCED, log 22) -/
def State.cbWord (s : State) (c byte : Nat) : Nat :=
  (Sparse.get 0 (s.core c).cb byte).toNat + 256 * (Sparse.get 0 (s.core c).cb (byte + 1)).toNat
/-- The codebook of a select: CB4 tables of 16 entries, CB8 tables of 256. (DEDUCED, log 22) -/
def State.cbOf (s : State) (c f sel code : Nat) : Nat :=
  if f = 0x0C then s.cbWord c ((sel % 512 * 16 + code % 16) * 2) else s.cbWord c ((sel % 32 * 256 + code % 256) * 2)
/-- A reserved bit of a select is set (R46). -/
def selBad (f sel : Nat) : Bool := if f = 0x0C then 512 ≤ sel else if f = 0x0D then 32 ≤ sel else false

/-- e_blk + e_ten of a row's group; none where the scale code is 0xFF, the tensor scale is invalid or the select has a
reserved bit (R56, R57, R59, R75). -/
def Side.scaleExp (x : Side) (b : Binding) (groups r g : Nat) : Option Int :=
  let e1 : Option Int := if hasBlock x.sc then
      (let c := b.scaleAt groups r g; if c = 0xFF then none else some (e8 c)) else some 0
  let e2 : Option Int := if hasTensor x.sc then (tensorScale x.ten).map (·.1) else some 0
  match e1, e2 with
  | some a, some b' => if isCb x.fmt && selBad x.fmt (b.selAt groups r g) then none else some (a + b')
  | _, _ => none

/-- U_fmt (R101). -/
def Side.ufmt (x : Side) (m : Nat) : Int :=
  match x.fmt with
  | 0x10 => 9 - m
  | 0x11 => 16 - m
  | 0x12 => 16 - m
  | f => if isFloat f then x.expc - m + 1 else ((fmtMf f - m : Nat) : Int)

/-! ### A decoded group (R50, R51, R320) -/

/-- A group in the internal form: its exponent, its elements as signed integers with their offsets in the group, whether
each came from the tensor, and whether it is NaN. -/
structure GroupDec where
  nan : Bool
  e : Int
  els : List (Nat × Int × Bool)
  deriving DecidableEq, Repr

/-- A pad element at width m (R320). (DEDUCED, log 38) -/
def padElem (p m : Nat) : Int :=
  match p % 4 with
  | 1 => let v : Int := min (bits p 2 15) (2 ^ m - 1); if p.testBit 17 then -v else v
  | 2 => -(2 ^ m - 1)
  | _ => 0

/-- Values of a group's entries with their offsets. An S24 row holds two slots for each 2:4 group it reaches; a slot that names a
position past the row's end has no position to add to (R191, R192). -/
def State.groupVals (s : State) (c : Nat) (x : Side) (b : Binding) (k0 k1 grp g groups r : Nat) : List (Nat × FV) :=
  let row := b.row r
  let lo := max (grp * g) k0
  let hi := min ((grp + 1) * g) k1
  let sel := b.selAt groups r grp
  let val (code : Nat) : FV := elemVal x.fmt x.zp (s.cbOf c x.fmt sel) code
  if x.s24 then
    ((upTo (2 * ceilDiv (hi - lo) 4)).map (fun i =>
      let slot := (lo - k0) / 2 + i
      let e := row.getD slot 0
      ((lo - grp * g) + i / 2 * 4 + entIdx e, val (entCode e)))).filter (fun y => y.1 < hi - grp * g)
  else (upTo (hi - lo)).map (fun i => ((lo - grp * g) + i, val (entCode (row.getD (lo - k0 + i) 0))))

/-- A group of a row of a side, decoded at width m (R50, R51); the group's pads follow (R320). -/
def State.decGroup (s : State) (c : Nat) (g : Geo) (x : Side) (b : Binding) (m r grp : Nat) : GroupDec :=
  let vs := s.groupVals c x b g.k0 g.k1 grp g.d.g g.allGroups r
  let e := efmtOf x.fmt m (vs.map (·.2))
  let sc := x.scaleExp b g.allGroups r grp
  let kA := g.d.kA g.alen
  let pads := if g.k1 = kA && grp = kA / g.d.g && kA % g.d.g ≠ 0 then
      (upTo (g.d.g - kA % g.d.g)).map (fun i => (kA % g.d.g + i, padElem x.pad m, false)) else []
  { nan := sc.isNone || vs.any (fun v => v.2.exceptional), e := sc.getD 0 + e
    els := vs.map (fun v => (v.1, elemAt m e v.2, true)) ++ pads }

/-- Prune on a decoded serial element (R136, R137); pads bypass it. -/
def pruneEl (m : Nat) (v : Int) : Int := if 5 < m && v.natAbs < 2 ^ (m - 5) then 0 else v
/-- Prune on a group. -/
def GroupDec.pruned (x : GroupDec) (m : Nat) : GroupDec :=
  { x with els := x.els.map (fun y => (y.1, if y.2.2 then pruneEl m y.2.1 else y.2.1, y.2.2)) }

/-- A piece of a signed magnitude: 0 the whole, 1 hi, 2 lo (R93). -/
def pieceOf (p : Nat) (v : Int) : Int :=
  let m := v.natAbs
  let q : Int := if p = 1 then m / 2 ^ 15 else if p = 2 then m % 2 ^ 15 else m
  if v < 0 then -q else q
/-- Weight of a piece, as a power of two. -/
def pieceExp (p : Nat) : Int := if p = 1 then 15 else 0

/-- Planes of a signed magnitude for a scouted run: 0 all, 1 the top b of m planes, 2 the others (R209). -/
def planesOf (which m b : Nat) (v : Int) : Int :=
  let n := v.natAbs
  let k := 2 ^ (m - b)
  let q : Int := if which = 1 then n / k * k else if which = 2 then n % k else n
  if v < 0 then -q else q

/-- Exact partial of a group: Σ serial × parallel over its positions (R84). -/
def dot (ser par : List (Nat × Int × Bool)) (f h : Int → Int) : Int :=
  ser.foldl (fun a x => match par.find? (fun y => y.1 = x.1) with
    | some y => a + f x.2.1 * h y.2.1
    | none => a) 0

/-! ### Anchors (R102) -/

/-- log2 of the group size. -/
def Geo.log2g (g : Geo) : Int := Nat.log2 g.d.g

/-- Anchor of the output at step row r and column c over the full K; `pre` is the preload's bound (R102, R113). -/
def Geo.anchor (g : Geo) (bs bp : Binding) (r c : Nat) (pre : Option Int) : Int :=
  let sd := g.d.serial
  let pd := g.d.parallel
  let l : Int := g.ms + g.mp + g.log2g
  if g.regime = half16 then
    ((sd.scaleExp bs g.allGroups r 0).getD 0) + ((pd.scaleExp bp g.allGroups c 0).getD 0) + 31
  else
    let a := (upTo g.allGroups).foldl (fun (a : Option Int) k =>
      match sd.scaleExp bs g.allGroups r k, pd.scaleExp bp g.allGroups c k with
      | some x, some y =>
        let t := x + sd.ufmt g.ms + (y + pd.ufmt g.mp)
        if t < -255 then a
        else let v := min t 255 + l
             some (match a with | some b => max b v | none => v)
      | _, _ => a) none
    match a, pre with
    | some x, some y => max x y
    | some x, none => x
    | none, some y => y
    | none, none => 255 + l

/-! ### Adding a group partial (R105 to R110, R189) -/

/-- What one group contributes to one output: the value in window units, marks and flags. -/
structure Contribution where
  x : Int
  nan : Bool
  sovf : Bool
  sunf : Bool
  long : Bool
  deriving DecidableEq, Repr

/-- A group's contribution of a pass to an output with anchor `a`: exact partial `q` at exponent `e` (piece weights
folded in), combined exponent of the groups, and whether an operand's E exceeds its bound (R101, R105, R108 to R110). -/
def contribute (r : Nat) (a : Int) (nan : Bool) (q e comb : Int) (ovr : Bool) : Contribution :=
  let long := ovr && r ≠ half16
  if nan then { x := 0, nan := true, sovf := false, sunf := false, long := long }
  else if 255 < comb then
    { x := if q = 0 then 0 else if q < 0 then -clampOf r else clampOf r, nan := false, sovf := true, sunf := false,
      long := long }
  else if comb < -255 then { x := 0, nan := false, sovf := false, sunf := true, long := long }
  else { x := alignTo a q e, nan := false, sovf := false, sunf := false, long := long }

/-- An operand's group has an actual exponent above its bound (R101, R108). -/
def Side.ovr (x : Side) (b : Binding) (groups r grp m : Nat) (dec : GroupDec) : Bool :=
  match x.scaleExp b groups r grp with
  | some e => e + x.ufmt m < dec.e
  | none => false

/-! ### Bricks: zero blocks and costs (R85, R87, R187 to R196, R209) -/

/-- An element's code is a zero code (R180); B1 and the codebook formats have none. (DEDUCED, log 41) -/
def isZeroCode (f zp code : Nat) : Bool :=
  f ≠ 0 && !isCb f && (match elemVal f zp (fun _ => 0) code with
    | .fin _ m _ => m = 0 && (if isPair f then
        (let h := (fpOf f).dec (bits code 0 (fmtBits f / 2)); let l := (fpOf f).dec (bits code (fmtBits f / 2) (fmtBits f / 2))
         h.isZero && l.isZero) else true)
    | _ => false)

/-- K positions of brick `i` in K step `k`: 16 physical rows, 32 logical positions under 2:4 (R187, R191); pads that complete a
group are among them (R320). Empty for a brick that the part, or the actual K, does not reach. -/
def Geo.brickK (g : Geo) (k i : Nat) : Nat × Nat :=
  let w := if g.d.sp24 = 0 then 16 else 32
  let j := if g.shape = 2 then i % 4 else i
  let lo := (g.kbase + k) * g.stepK + j * w
  (max lo g.k0, min (lo + w) g.kEnd)
/-- The brick receives elements at the step (R320). -/
def Geo.brickLive (g : Geo) (k i : Nat) : Bool := (g.brickK k i).1 < (g.brickK k i).2

/-- Set bits of a magnitude. -/
def popcount (n : Nat) : Nat := ((upTo 32).filter (fun i => n.testBit i)).length

/-- The decoded serial element at K position `k` of row `r`, pruned: looked up in its group. -/
def GroupDec.elems (x : GroupDec) (off : Nat) : List Int := (x.els.filter (fun y => y.1 = off)).map (·.2.1)

/-- The decoded serial value of slot `j` of a brick's S24 block, pruned; a slot that names a position past the row's end adds
nothing (R191, R192). -/
def State.slotVal (s : State) (c : Nat) (g : Geo) (b : Binding) (r lo j : Nat) : Int :=
  let x := g.d.serial
  let p := lo + j / 2 * 4
  let q := p / g.d.g
  let e := (b.row r).getD ((lo - g.k0) / 2 + j) 0
  let vs := s.groupVals c x b g.k0 g.k1 q g.d.g g.allGroups r
  let v := elemAt g.ms (efmtOf x.fmt g.ms (vs.map (·.2))) (elemVal x.fmt x.zp (s.cbOf c x.fmt (b.selAt g.allGroups r q)) (entCode e))
  if g.k1 ≤ p + entIdx e then 0 else if g.prune then pruneEl g.ms v else v

/-- The serial values of a brick's vector, with the slot number each takes within its 2:4 group (0 and 1 in the main step,
2 and 3 overflow); dense values take slot 0. A pad is streamed and is never a zero code (R193, R196, R320). -/
def State.brickVals (s : State) (c : Nat) (g : Geo) (b : Binding) (r k i : Nat) : List (Nat × Int) :=
  let x := g.d.serial
  let rg := g.brickK k i
  let decAt (q : Nat) : GroupDec := let d := s.decGroup c g x b g.ms r q; if g.prune then d.pruned g.ms else d
  let valAt (p : Nat) : Int := ((decAt (p / g.d.g)).elems (p % g.d.g)).headD 0
  if g.d.sp24 = 1 then (upTo 16).map (fun j => (j % 2, s.slotVal c g b r rg.1 j))
  else if g.d.sp24 = 2 then
    let row := b.row r
    (upTo ((rg.2 - rg.1 + 3) / 4)).flatMap (fun gr =>
      let ps := ((upTo 4).map (fun j => rg.1 + 4 * gr + j)).filter (fun p =>
        p < rg.2 && (g.k1 ≤ p || !isZeroCode x.fmt x.zp (entCode (row.getD (p - g.k0) 0))))
      (upTo ps.length).zip ps |>.map (fun y => (y.1, valAt y.2)))
  else (upTo (rg.2 - rg.1)).map (fun j => (0, valAt (rg.1 + j)))

/-- Overfull 2:4 groups of a brick's vector (R193, R197). -/
def State.overfull (s : State) (c : Nat) (g : Geo) (b : Binding) (r k i : Nat) : Nat :=
  if g.d.sp24 = 2 then ((s.brickVals c g b r k i).filter (·.1 = 2)).length else 0

/-- The brick's vector is a zero block: it has elements, and every one is a zero code, which no pad is; of an S24 block its 16
values count (R180, R191, R320). (DEDUCED, log 41) -/
def Geo.zeroBlock (g : Geo) (b : Binding) (r k i : Nat) : Bool :=
  let x := g.d.serial
  let rg := g.brickK k i
  let row := b.row r
  let es := if x.s24 then (row.drop ((rg.1 - g.k0) / 2)).take 16 else (row.drop (rg.1 - g.k0)).take (rg.2 - rg.1)
  g.brickLive k i && (x.s24 || rg.2 ≤ g.k1) && es.all (fun e => isZeroCode x.fmt x.zp (entCode e))

/-! ### Lane registers (R79, R80, R194) -/

/-- A value in a field of `n` bits: its sign in the top bit, its magnitude below (R79, R194). -/
def laneField (n : Nat) (v : Int) : Nat := v.natAbs % 2 ^ (n - 1) + b2n (v < 0) * 2 ^ (n - 1)

/-- The decoded parallel value at a K position of a column, its piece in a split pass; 0 beyond the actual lengths (R94, R320). -/
def State.laneVal (s : State) (c h : Nat) (g : Geo) (piece p col : Nat) : Int :=
  let x := g.d.parallel
  if g.colsA ≤ col || p < g.k0 || g.kEnd ≤ p then 0
  else pieceOf piece (((s.decGroup c g x ((s.tile c h).bind x.weight) g.mp col (p / g.d.g)).elems (p % g.d.g)).headD 0)

/-- The 16-bit word of lane (row `i` of the brick, physical column `j`) for K positions from `lo` on; `cols` are the columns that are
loaded, packed into the lowest physical columns, and physical column 0 holds entry `col` of them (R79, R82, R194, R213). -/
def State.laneWord (s : State) (c h : Nat) (g : Geo) (piece lo : Nat) (cols : List Nat) (col i j : Nat) : Nat :=
  let v (p k : Nat) : Int := match cols[k]? with | some q => s.laneVal c h g piece p q | none => 0
  let p := lo + i / 2 * 4 + i % 2 * 2
  if g.d.sp24 = 0 then
    (if g.regime = wide48 then laneField 16 (v (lo + i) (col + j))
     else pack [(4, laneField 4 (v (lo + i) (col + 2 * j))), (4, laneField 4 (v (lo + i) (col + 2 * j + 1)))])
  else if g.regime = wide48 then pack [(8, laneField 8 (v p (col + j))), (8, laneField 8 (v (p + 1) (col + j)))]
  else pack [(4, laneField 4 (v p (col + 2 * j))), (4, laneField 4 (v p (col + 2 * j + 1))),
             (4, laneField 4 (v (p + 1) (col + 2 * j))), (4, laneField 4 (v (p + 1) (col + 2 * j + 1)))]

/-- Columns of the tile that share a lane (R79). -/
def Geo.perLane (g : Geo) : Nat := if g.regime = wide48 then 1 else 2

/-- The columns of a tile that are loaded: in the full pass of a scouted one those with an active output (R213). -/
def Tile.liveCols (t : Tile) (g : Geo) : List Nat :=
  (upTo g.colsA).filter (fun k => !t.pass2 || (upTo g.rowsA).any (fun r => (t.acc.getD (r * g.cols + k) {}).active))

/-- The words that the loader puts into the lane registers of brick `b` for step `n`: 16 rows of the physical columns that hold
columns of the tile; in the wide shape bricks 4 to 7 hold the columns from 256 or 512 on (R79, R80, R82, R194). -/
def State.loadWords (s : State) (c h : Nat) (g : Geo) (b n : Nat) : List (List Nat) :=
  let st := g.stepAt n
  let col := if g.shape = 2 && 4 ≤ b then 256 * g.perLane else 0
  let lo := (g.kbase + st.2.1) * g.stepK + (if g.shape = 2 then b % 4 else b) * (if g.d.sp24 = 0 then 16 else 32)
  let cols := (s.tile c h).liveCols g
  (upTo 16).map (fun i => (upTo (min 256 (ceilDiv (cols.length - col) g.perLane))).map (fun j =>
    s.laneWord c h g (g.pieces st.2.2).2 lo cols col i j))

/-- Granted ACLK that fill one brick's shadow registers: values per lane, doubled under 2:4, times the parallel bits of the
piece (R80, R94). -/
def Geo.fillTime (g : Geo) (n : Nat) : Nat :=
  let piece := (g.pieces (g.stepAt n).2.2).2
  g.perLane * (if g.d.sp24 = 0 then 1 else 2) * ((if piece = 1 then g.mp - 15 else if piece = 2 then 15 else g.mp) + 1)

/-- Some element of the group was replaced by Prune (R139). -/
def GroupDec.prunes (x : GroupDec) (m : Nat) : Bool := x.els.any (fun y => y.2.2 && pruneEl m y.2.1 ≠ y.2.1)

end Sys2Proof.Machine
end

