-- ==== Sys2Proof/Machine/Load.lean ====
section
/-! DEFINITION. Getting a tile's operands: stored rows and ZRL streams, the operand slots of FETCH = 0, the staging fetch of
FETCH = 1, and a DMA channel's halt (R182 to R185, R191, R283, R306, R355, R356, R359, R578). -/
namespace Sys2Proof.Machine

/-! ### Stored rows -/

/-- Positions a stored block covers and its bytes: 16 elements, or an S24 block of 32 positions (R183, R191). -/
def Side.blockK (x : Side) : Nat := if x.s24 then 32 else 16
/-- Bytes of a stored block. -/
def blockBytes (f : Nat) (s24 : Bool) : Nat := 2 * fmtBits f + (if s24 then 4 else 0)
/-- Bytes of a dense stored row of `n` positions. -/
def Side.rowLen (x : Side) (n : Nat) : Nat :=
  if x.s24 then ceilDiv n 32 * blockBytes x.fmt true else rowBytes x.fmt n

/-- The 16 entries of a stored block. -/
def Side.blockEnts (x : Side) (b : List Byte) : List Nat :=
  if x.s24 then
    let ix := leAt b (2 * fmtBits x.fmt) 4
    (codesAt b x.fmt 0 16).zip (upTo 16) |>.map (fun y => slotCode y.1 (bits ix (2 * y.2) 2))
  else codesAt b x.fmt 0 16

/-- Entries of a dense stored row of `n` positions. -/
def Side.rowEnts (x : Side) (bs : List Byte) (n : Nat) : List Nat :=
  if x.s24 then (chunksOf (blockBytes x.fmt true) (ceilDiv n 32) bs).flatMap x.blockEnts else codesAt bs x.fmt 0 n

/-! ### ZRL streams (R183, R185) -/

/-- The blocks of a row stream, none for a zero block, and whether the stream is malformed: `n` blocks in all, `bl` bytes
of a stored block, the blocks decoded so far. `fuel` bounds the count bytes. -/
def zrlGo (bl n : Nat) : Nat → List Byte → List (Option (List Byte)) → List (Option (List Byte)) × Bool
  | 0, _, acc => (acc, false)
  | _, [], acc => (acc, false)
  | fuel + 1, c :: rest, acc =>
    if c = 0xFF then
      if rest = [] ∨ n < acc.length + 255 then (acc, true)
      else zrlGo bl n fuel rest (acc ++ List.replicate 255 none)
    else if rest.length < bl ∨ n < acc.length + c.toNat + 1 then (acc, true)
    else zrlGo bl n fuel (rest.drop bl) (acc ++ List.replicate c.toNat none ++ [some (rest.take bl)])

/-- All `n` blocks of a row stream and whether it is malformed; what is not decoded is zero blocks (R183, R185). -/
def zrlBlocks (bl n : Nat) (bs : List Byte) : List (Option (List Byte)) × Bool :=
  let x := zrlGo bl n bs.length bs []
  ((x.1 ++ List.replicate (n - x.1.length) none).take n, x.2)

/-- The most bytes of a row stream that can matter: more decode past the row's blocks. -/
def zrlMax (bl n : Nat) : Nat := (n + 1) * (bl + 1) + n / 255 + 2

/-- Entries of ZRL blocks, zero blocks as canonical zero codes (R180). -/
def Side.zrlEnts (x : Side) (bl : List (Option (List Byte))) : List Nat :=
  bl.flatMap (fun b => match b with
    | some b => x.blockEnts b
    | none => List.replicate 16 (zeroCode x.fmt x.zp))

/-! ### Reading pieces of memory in turn -/

/-- What a list of reads gave: the byte strings, or those before the read that did not go through, and that read. -/
inductive Reads where
  | ok (l : List (List Byte))
  | no (l : List (List Byte)) (g : Got)
  deriving DecidableEq, Repr

/-- The byte strings that were read. -/
def Reads.got : Reads → List (List Byte)
  | .ok l => l
  | .no l _ => l

/-- A read that stalls, to be made again. -/
def Got.stalls : Got → Bool
  | .stall _ _ => true
  | _ => false

/-- Reads made one after another by core `c`'s DMA; the first that does not go through ends them. -/
def State.readAll (s : State) (c : Nat) : List (Nat × Nat) → Reads × State
  | [] => (.ok [], s)
  | (a, n) :: rest =>
    match s.readMem (.core (Fin.ofNat 256 c)) .normal a n with
    | (.ok bs, t) =>
      match t.readAll c rest with
      | (.ok l, u) => (.ok (bs :: l), u)
      | (.no l g, u) => (.no (bs :: l) g, u)
    | (g, t) => (.no [] g, t)

/-! ### A channel's halt (R280 to R283, R306, R307) -/

abbrev eACCESS : Nat := 1
abbrev eDESC : Nat := 2
abbrev eZSPACE : Nat := 3
abbrev eZFORMAT : Nat := 4
abbrev eUNDERRUN : Nat := 5
abbrev eOVERRUN : Nat := 6
abbrev eHALTCMD : Nat := 7
abbrev eABORT : Nat := 8

/-- The engine a channel stalls as leaves the stalled accesses. -/
def State.unstall (s : State) (c : Nat) (p : StallBy → Bool) : State :=
  s.modCore c (fun k => { k with stalls := k.stalls.filter (fun x => !p x.who) })

/-- A channel halts with an error; halts other than HALTCMD count (R306, R307). -/
def State.chanHalt (s : State) (c ch err : Nat) : State :=
  let t := (s.modChan c ch (fun x => { x with st := .halted, err := err, halt := false })).unstall c (· = .dma ch)
  if err = eHALTCMD then t else t.count .dmaErrcnt c 0 1

/-- A refused access halts the channel with ACCESS and raises DMA_FAULT (R283). -/
def State.chanFault (s : State) (c ch a : Nat) : State :=
  (s.chanHalt c ch eACCESS).coreEvent c 0x0407 2 (pack [(48, a), (4, ch)])

/-- The operation core `c` runs on channel `ch` has not gone through: refused, poisoned (R407), or stalled (R275). -/
def State.chanNo (s : State) (c ch : Nat) : Got → State
  | .refused a => s.chanFault c ch a
  | .poisoned l => s.chanFault c ch (l * 128)
  | .stall d n => (s.modChan c ch (fun x => { x with st := .wait })).stallOn c
      { who := .dma ch, slot := n, wr := false, off := 0, len := 0, data := [], at_ := if d = c then none else some d }
  | .ok _ => s

/-! ### Where a fetched operand lies (R55, R46, R359) -/

/-- Group count of the operand's rows over the full K; of the K rows of the part and the groups along N for the weight of the index-match
path (R55, R198). (DEDUCED, log 48) -/
def Geo.scaleRows (g : Geo) (w : Bool) : Nat :=
  if g.d.imatch && w then (g.k1 - g.k0) * ceilDiv (g.d.nA g.alen) g.d.g else g.sideRows w * g.allGroups

/-- Scale bytes and selects of a side in its tensor: (address, length) of each that it has (R55, R46, R356). -/
def Geo.scaleSegs (g : Geo) (x : Side) : List (Nat × Nat) :=
  let base := if x.weight then g.d.wscb else g.d.ascb
  let r := g.sideBase x.weight
  let n := g.allGroups
  let sel := if hasBlock x.sc then (base + r.2 * n + 63) / 64 * 64 else base
  (if hasBlock x.sc then [(base + r.1 * n, g.scaleRows x.weight)] else []) ++
  (if isCb x.fmt then [(sel + 2 * (r.1 * n), 2 * g.scaleRows x.weight)] else [])

/-- Bytes of the scale bytes and selects that a slot or the staging range holds. -/
def Geo.scaleLen (g : Geo) (x : Side) : Nat :=
  (if hasBlock x.sc then g.scaleRows x.weight else 0) + (if isCb x.fmt then 2 * g.scaleRows x.weight else 0)

/-- 16-bit words of a byte string. -/
def words16 (bs : List Byte) : List Nat := (upTo (bs.length / 2)).map (fun i => leAt bs (2 * i) 2)

/-- Scale bytes and selects taken from a byte string that holds the one after the other. (DEDUCED, log 14) -/
def Geo.putScales (g : Geo) (x : Side) (bs : List Byte) (b : Binding) : Binding :=
  let n := if hasBlock x.sc then g.scaleRows x.weight else 0
  { b with scales := bs.take n, sels := if isCb x.fmt then words16 ((bs.drop n).take (2 * g.scaleRows x.weight)) else [],
           scaled := true }

/-- K positions of chunk `i` of a fetch: KCH + 1 K-slices (R356). -/
def Geo.chunkRange (g : Geo) (b : Binding) (i : Nat) : Nat × Nat :=
  let n := (b.kch + 1) * g.d.kslice
  (min (g.k0 + i * n) g.k1, min (g.k0 + (i + 1) * n) g.k1)
/-- Chunks of a fetch. -/
def Geo.chunkCount (g : Geo) (b : Binding) : Nat := ceilDiv (g.k1 - g.k0) ((b.kch + 1) * g.d.kslice)

/-- Reads of a dense side's rows for K positions `lo` to `hi - 1` (R359). -/
def Geo.denseSegs (g : Geo) (x : Side) (lo hi : Nat) : List (Nat × Nat) :=
  let base := if x.weight then g.d.wbase else g.d.abase
  let str := if x.weight then g.d.wstr else g.d.astr
  (upTo (g.sideRows x.weight)).map (fun r => (base + ((g.sideBase x.weight).1 + r) * str + x.rowLen lo, x.rowLen (hi - lo)))

/-- A ZRL tensor that holds rows of a side: its base, its rows, the place of the tile's first row in it, and the K range it
covers (R182, R359). -/
structure ZTensor where
  base : Nat
  rows : Nat
  first : Nat
  lo : Nat
  hi : Nat
  deriving DecidableEq, Repr

/-- The ZRL tensors that hold a side's rows, in ascending K (R359). -/
def Geo.zTensors (g : Geo) (x : Side) : List ZTensor :=
  let kA := g.d.kA g.alen
  if !x.weight && g.d.aseg ≠ 0 then
    let n := ceilDiv kA g.d.aseg
    let tm := (g.d.space g.alen).tm
    (upTo n).map (fun i => { base := g.d.abase + ((g.b * tm + g.tm) * n + i) * g.d.astr, rows := g.sideRows false, first := 0,
                             lo := i * g.d.aseg, hi := min ((i + 1) * g.d.aseg) kA })
  else
    let r := g.sideBase x.weight
    [{ base := if x.weight then g.d.wbase else g.d.abase, rows := r.2, first := r.1, lo := 0, hi := kA }]

/-- Address and length of a row stream of a ZRL tensor from its two ROWOFF entries; none where they decrease. -/
def ZTensor.seg (z : ZTensor) (bl bk : Nat) (off : List Byte) : Nat × Nat :=
  let a := leAt off 0 4
  let e := leAt off 4 4
  (z.base + 4 * (z.rows + 1) + a, min (e - a) (zrlMax bl (ceilDiv (z.hi - z.lo) bk)))

/-- A row's blocks in ZRL form: its stored blocks, none for a zero block (R183). -/
abbrev ZRow : Type := List (Option (List Byte))

/-- The tile's rows from one ZRL tensor, as far as they are read: the blocks of each row, the numbers of the malformed rows, and
the read that did not go through. -/
def State.zTensorRows (s : State) (c : Nat) (g : Geo) (x : Side) (z : ZTensor) : Option Got × List ZRow × List Nat × State :=
  let bl := blockBytes x.fmt x.s24
  match s.readAll c ((upTo (g.sideRows x.weight)).map (fun r => (z.base + 4 * (z.first + r), 8))) with
  | (.no _ e, t) => (some e, [], [], t)
  | (.ok offs, t) =>
    let (rd, u) := t.readAll c (offs.map (z.seg bl x.blockK))
    let p := rd.got.map (fun bs => zrlBlocks bl (ceilDiv (z.hi - z.lo) x.blockK) bs)
    let bad := (upTo p.length).filter (fun r => (p.getD r ([], false)).2 || leAt (offs.getD r []) 4 4 < leAt (offs.getD r []) 0 4)
    (match rd with | .ok _ => none | .no _ e => some e, p.map (·.1), bad, u)

/-- The tile's rows of a ZRL side over the full K, from its tensors in turn, as far as they are read. -/
def State.zrlRows (s : State) (c : Nat) (g : Geo) (x : Side) : List ZTensor → List ZRow → List Nat →
    Option Got × List ZRow × List Nat × State
  | [], acc, bad => (none, acc, bad, s)
  | z :: zs, acc, bad =>
    let (no, rows, b, t) := s.zTensorRows c g x z
    let acc' := (upTo acc.length).map (fun i => acc.getD i [] ++ rows.getD i [])
    match no with
    | none => t.zrlRows c g x zs acc' (bad ++ b)
    | some e => (some e, acc', bad ++ b, t)

/-! ### Malformed rows (R185) -/

/-- SVE_LASTERR set: kind and tile (R222). -/
def State.sveErr (s : State) (c kind tile : Nat) : State :=
  s.setRg .sveLasterr c 0 0 (BitVec.ofNat 32 (pack [(2, kind), (30, tile)]))

/-- A malformed row of a tile's operand: IOOB, POISON, SVE_ZRLERR and ZRL_FORMAT (R185). -/
def State.zrlBad (s : State) (c h row : Nat) : State :=
  ((((s.flagTile c h [fIOOB, fPOISON]).count .sveZrlerr c 0 1).sveErr c 1 (CRec.tile (s.tile c h).rec_)).tileEvent
    c h 0x0201 2 row)

/-! ### Operand slots (FETCH = 0, R355, R578) -/

/-- A tile's binding of a side changed. -/
def State.modBind (s : State) (c h : Nat) (w : Bool) (f : Binding → Binding) : State :=
  s.modTile c h (fun t => t.setBind w (f (t.bind w)))

/-- A tile reads `n` bytes of one of its slots as class TILE: zeros with POISON where it is refused (R578); none where it
stalls, the stall being kept (R275). Of the slots in `waited` the data is taken as stored. (DEDUCED, log 63) -/
def State.tileRead (s : State) (c h : Nat) (w : Bool) (off n : Nat) (waited : List Nat) : Option (List Byte) × State :=
  if n = 0 then (some [], s)
  else match s.spadRead c off n cTile waited with
    | (.ok bs, t) => (some bs, t)
    | (.refused, t) => (some (zeros n), t.flagTile c h [fPOISON])
    | (.stall k, t) =>
      (none, if t.stalled c (.tile h w) then t
             else t.stallOn c { who := .tile h w, slot := k, wr := false, off := off, len := n, data := [] })

/-- The rows a slot holds for a tile's part: dense rows one after another, or a ZRL tensor of the tile's rows over the
part's K (DEDUCED, log 14). -/
def Geo.slotRows (g : Geo) (x : Side) (bs : List Byte) : List (List Nat) × List Nat :=
  let n := g.sideRows x.weight
  let k := g.k1 - g.k0
  if x.zr then
    let bl := blockBytes x.fmt x.s24
    let z : ZTensor := { base := 0, rows := n, first := 0, lo := 0, hi := k }
    let p := (upTo n).map (fun r =>
      let o := (bs.drop (4 * r)).take 8
      let sg := z.seg bl x.blockK o
      let y := zrlBlocks bl (ceilDiv k x.blockK) ((bs.drop sg.1).take sg.2)
      ((x.zrlEnts y.1).take (x.entries k), y.2 || leAt o 4 4 < leAt o 0 4))
    (p.map (·.1), (upTo n).filter (fun r => (p.getD r ([], false)).2))
  else ((upTo n).map (fun r => x.rowEnts ((bs.drop (r * x.rowLen k)).take (x.rowLen k)) k), [])

/-- The scale bytes of a FETCH = 0 side read from SSLOT; true once they are held. -/
def State.slotScales (s : State) (c h : Nat) (x : Side) (g : Geo) : Bool × State :=
  let b := (s.tile c h).bind x.weight
  if b.scaled then (true, s)
  else match s.tileRead c h x.weight (s.slotOff c b.sslot) (g.scaleLen x) b.asStored with
    | (some bs, t) => (true, t.modBind c h x.weight (g.putScales x bs))
    | (none, t) => (false, t)

/-- The part of a FETCH = 0 side read from DSLOT; true once it is held. -/
def State.slotData (s : State) (c h : Nat) (x : Side) (g : Geo) : Bool × State :=
  let b := (s.tile c h).bind x.weight
  if b.chunks ≠ [] then (true, s)
  else
    let n := if x.zr then s.slotLen c b.dslot else g.sideRows x.weight * x.rowLen (g.k1 - g.k0)
    match s.tileRead c h x.weight (s.slotOff c b.dslot) n b.asStored with
    | (some bs, t) =>
      let p := g.slotRows x bs
      (true, (t.modBind c h x.weight (fun b => { b with chunks := [p.1] })).each p.2 (fun u r => u.zrlBad c h r))
    | (none, t) => (false, t)

/-- The operand of a side is there for K position `p` - 1 and before, pads apart, and its scale bytes (R103, R320, R356). -/
def State.sideReady (s : State) (c h : Nat) (x : Side) (g : Geo) (p : Nat) : Bool × State :=
  let b := (s.tile c h).bind x.weight
  let k := min p g.k1
  if b.fetch then
    (b.failed || (b.scaled && (k ≤ g.k0 || k ≤ (g.chunkRange b (b.chunks.length - 1)).2 && b.chunks ≠ [])), s)
  else
    let (p, t) := s.slotScales c h x g
    if !p then (false, t) else t.slotData c h x g

/-- Both operands are there for K position `k` - 1 and before. -/
def State.opsReady (s : State) (c h : Nat) (g : Geo) (k : Nat) : Bool × State :=
  let (a, t) := s.sideReady c h g.d.serial g k
  let (b, u) := t.sideReady c h g.d.parallel g k
  (a && b, u)

/-- The scale bytes of both operands are there: the anchor unit can run (R103). -/
def State.scalesReady (s : State) (c h : Nat) (g : Geo) : Bool × State :=
  let one (t : State) (x : Side) : Bool × State :=
    if ((t.tile c h).bind x.weight).fetch then
      (((t.tile c h).bind x.weight).failed || ((t.tile c h).bind x.weight).scaled, t)
    else t.slotScales c h x g
  let (a, t) := one s g.d.serial
  let (b, u) := one t g.d.parallel
  (a && b, u)

/-! ### The staging fetch (FETCH = 1, R356) -/

/-- A channel is IDLE or HALTED. -/
def State.chanFree (s : State) (c ch : Nat) : Bool := (s.chan c ch).st = .idle || (s.chan c ch).st = .halted

/-- A channel starts on the fetch of a tile's side. -/
def State.fetchStart (s : State) (c ch h : Nat) (weight : Bool) : State :=
  s.modChan c ch (fun x => { x with st := .run, err := 0, rows := 0, halt := false, use_ := .fetch h weight })

/-- A fetch that ends in an error: the channel has halted, the tile reads zeros from here on and is POISONed (R356). -/
def State.fetchFailed (s : State) (c h : Nat) (w : Bool) : State :=
  (s.modBind c h w (fun b => { b with failed := true })).flagTile c h [fPOISON]

/-- A read of the fetch did not go through: a stall keeps it waiting; a refusal halts the channel. -/
def State.fetchNo (s : State) (c h : Nat) (w : Bool) (got : Got) : State :=
  let ch := ((s.tile c h).bind w).ch
  match got with
  | .stall _ _ => s.chanNo c ch got
  | _ => (s.chanNo c ch got).fetchFailed c h w

/-- Bytes stored in the staging range: the scale bytes from SBASE on, each half from its word (R356, DEDUCED, log 14). -/
def State.stage (s : State) (c : Nat) (b : Binding) (scale : Nat) (half : Option Nat) (bs : List Byte) : State :=
  let sw := ceilDiv scale 32
  let hw := (b.slen - sw) / 2
  match half with
  | none => s.store c (b.sbase * 32) (bs.take (b.slen * 32))
  | some i => s.store c ((b.sbase + sw + i % 2 * hw) * 32) (bs.take (hw * 32))

/-- The fetch ends with a read that did not go through: what was read before a refusal fills its part of the range and the rest
of the tile's data reads as zeros (R578); a read that stalls is made again. -/
def State.fetchEnd (s : State) (c h : Nat) (w : Bool) (no : Option Got) (fill : State → State) : Bool × State :=
  match no with
  | none => (true, fill s)
  | some e => (false, (if e.stalls then s else fill s).fetchNo c h w e)

/-- The read of a list that did not go through. -/
def Reads.failed : Reads → Option Got
  | .ok _ => none
  | .no _ e => some e

/-- The fetch's first words: the scale bytes and selects. -/
def State.fetchScales (s : State) (c h : Nat) (x : Side) (g : Geo) : Bool × State :=
  let (rd, t) := s.readAll c (g.scaleSegs x)
  let bs := rd.got.flatten
  t.fetchEnd c h x.weight rd.failed (fun t =>
    (t.modBind c h x.weight (g.putScales x bs)).stage c ((t.tile c h).bind x.weight) (g.scaleLen x) none bs)

/-- A chunk's rows of entries join the binding; its half of the staging range takes the stored bytes (R356). -/
def State.fillChunk (s : State) (c h : Nat) (x : Side) (g : Geo) (i : Nat) (rows : List (List Nat)) (bs : List Byte) : State :=
  (s.modBind c h x.weight (fun b => { b with chunks := b.chunks ++ [rows] })).stage c ((s.tile c h).bind x.weight) (g.scaleLen x)
    (some i) bs

/-- A chunk of a dense side: its rows' stored bytes. -/
def State.fetchDense (s : State) (c h : Nat) (x : Side) (g : Geo) (i : Nat) : State :=
  let r := g.chunkRange ((s.tile c h).bind x.weight) i
  let (rd, t) := s.readAll c (g.denseSegs x r.1 r.2)
  (t.fetchEnd c h x.weight rd.failed (fun t =>
    t.fillChunk c h x g i (rd.got.map (fun bs => x.rowEnts bs (r.2 - r.1))) rd.got.flatten)).2

/-- A chunk of a ZRL side: the stored blocks of its K-slices, row by row; malformed rows are reported with the first chunk (R185,
R356). -/
def State.fetchZrl (s : State) (c h : Nat) (x : Side) (g : Geo) (i : Nat) : State :=
  let r := g.chunkRange ((s.tile c h).bind x.weight) i
  let (no, rows, bad, t) := s.zrlRows c g x (g.zTensors x) (List.replicate (g.sideRows x.weight) []) []
  let cut := rows.map (fun bl => (bl.drop (r.1 / x.blockK)).take (ceilDiv (r.2 - r.1) x.blockK))
  (t.fetchEnd c h x.weight no (fun t =>
    let u := t.fillChunk c h x g i (cut.map (fun bl => (x.zrlEnts bl).take (x.entries (r.2 - r.1))))
      (cut.flatMap (fun bl => bl.flatMap (·.getD [])))
    if i = 0 then u.each bad (fun v r => v.zrlBad c h r) else u)).2

/-- The fetch goes on: the scale bytes before the first chunk, then the next chunk; with its last chunk the channel is
IDLE. (DEDUCED, log 50) -/
def State.refill (s : State) (c h : Nat) (w : Bool) : State :=
  let g := s.geo c h
  let x := if w then g.d.sideW else g.d.sideA
  let b := (s.tile c h).bind w
  let i := b.chunks.length
  let (ok, t) := if b.scaled then (true, s) else s.fetchScales c h x g
  if !ok then t
  else
    let u := if i < g.chunkCount b then (if x.zr then t.fetchZrl c h x g i else t.fetchDense c h x g i) else t
    let v := if (u.chan c b.ch).st = .wait then u.modChan c b.ch (fun y => { y with st := .run }) else u
    if ((v.tile c h).bind w).chunks.length < g.chunkCount b || (u.chan c b.ch).st ≠ .run then v
    else v.modChan c b.ch (fun y => { y with st := .idle })

end Sys2Proof.Machine
end

