-- ==== Sys2Proof/Machine/Budget.lean ====
section
/-! DEFINITION. Energy estimates of claims and the budgets that admit them (R158, R326, R524 to R526, R529). -/
namespace Sys2Proof.Machine

/-- Lane-cycles of a tile at a rung: step rows within the actual lengths, K-slices of the part, serial width summed over
passes (R326). (DEDUCED, log 43) -/
def laneCycles (d : Desc) (alen : Nat) (r : CRec) (w : Nat) : Nat :=
  let p := Desc.partRange d alen (CRec.kpart r)
  let rows := if d.sside then min d.nt (d.nA alen - CRec.cn r * d.nt) else min d.mt (d.mA alen - CRec.cm r * d.mt)
  rows * (p.2 - p.1) * rungMs w * (if 15 < rungMp w then 2 else 1) * 32768

/-- Stored dense bytes of a tile's operands, scales and output (R326). (DEDUCED, log 43) -/
def tileBytes (d : Desc) (alen : Nat) (r : CRec) : Nat :=
  let p := Desc.partRange d alen (CRec.kpart r)
  let k := min (p.2 * d.kslice) (d.kA alen) - p.1 * d.kslice
  let n := ceilDiv k d.g
  let side (x : Side) (rows : Nat) : Nat :=
    rows * (x.rowLen k + (if hasBlock x.sc then n else 0) + (if isCb x.fmt then 2 * n else 0))
  let mA := min d.mt (d.mA alen - CRec.cm r * d.mt)
  let nA := min d.nt (d.nA alen - CRec.cn r * d.nt)
  side d.sideA mA + side d.sideW nA + mA * (rowBytes d.fmtO nA + (if hasBlock d.scO then ceilDiv nA d.og else 0))

/-- The estimate in whole uJ, rounded up (R525). (DEDUCED, log 43) -/
def State.estimate (s : State) (d : Desc) (alen : Nat) (r : CRec) (w : Nat) : Nat :=
  ceilDiv (laneCycles d alen r w * (s.rg .mtrClane).toNat + tileBytes d alen r * (s.rg .mtrCbyte).toNat) (2 ^ 16 * 10 ^ 6)

/-- BUDGET of a partition; 0 does not apply. -/
def State.partBudget (s : State) (p : Nat) : Nat := s.rg64 .mtrBud 0 p
/-- Budget of a session; 0 while its EN is 0. -/
def Session.budget (x : Session) : Nat := if flag x.swin 14 then x.sbud.toNat else 0
/-- Spend of a partition. -/
def State.partSpend (s : State) (p : Nat) : Nat := Sparse.get 0 s.mtr.spend p

/-- A budget lets an estimate through (R525). -/
def fits (budget spend e : Nat) : Bool := budget = 0 || spend = 0 || spend + e ≤ budget

/-- The Meter admits an estimate of core `c` (R525, R529). -/
def State.admits (s : State) (c e : Nat) : Bool :=
  !s.prc.pkhold &&
  (match s.partOf c with | some p => fits (s.partBudget p) (s.partSpend p) e | none => true) &&
  (match (s.core c).owner with
    | some n => fits (s.sess n).budget (s.sess n).spend e
    | none => true)

/-- An admitted estimate joins the spend of each budget that applies. -/
def State.spendOn (s : State) (c e : Nat) : State :=
  let t := match s.partOf c with
    | some p => if s.partBudget p = 0 then s else { s with mtr := { s.mtr with spend := Sparse.upd 0 s.mtr.spend p (· + e) } }
    | none => s
  match (s.core c).owner with
  | some n => if (s.sess n).budget = 0 then t else t.modSess n (fun x => { x with spend := x.spend + e })
  | none => t

/-- The number of an arrival at the Seed Tray. (DEDUCED, log 44) -/
def State.arrive (s : State) : Nat × State :=
  (s.sdt.arrived, { s with sdt := { s.sdt with arrived := s.sdt.arrived + 1 } })

end Sys2Proof.Machine
end

