-- ==== Sys2Proof/Machine/TileOps.lean ====
section
/-! DEFINITION. A tile's attempt: opening, the array's queue, group partials, the Gauge's reference, the checks between
accumulation and output, requeues and reruns, and the abort of a tile (R92 to R110, R142 to R158, R169, R209, R549). -/
namespace Sys2Proof.Machine

/-! ### Gauge settings of a context (R135) -/

def Ctx.grate (x : Ctx) : Nat := bits x.gdef 0 4
/-- Samples of a tile. -/
def Ctx.gs (x : Ctx) : Nat := bits x.gdef 4 4 + 1
/-- GMODE = BUDGET. -/
def Ctx.budget (x : Ctx) : Bool := x.gdef.testBit 8
def Ctx.gq (x : Ctx) : Nat := bits x.gdef 9 4
def Ctx.ul (x : Ctx) : Nat := bits x.gdef 13 4

/-- The seed and rate choose the tile (R142). -/
def Ctx.samples (x : Ctx) (idx : Nat) : Bool :=
  let n := x.grate
  n = 0 || (n ≤ 12 && bits (rhash x.gseed.toNat idx 0xFFFFFFFFFFFFFFFE) (64 - n) n = 0)

/-- A tile is sampled: not where GDIS was set, GAUGE SKIP named it, the layer is index-match, or its operands are not bound; GAUGE
may still say otherwise until STEP has issued (R142, R144, R151, R357). A CLOSE tile's output is sampled as any other where its core
has bound the operands (R328). (DESIGN CHOICE, log 135) -/
def State.isSampled (s : State) (c h : Nat) : Bool :=
  let t := s.tile c h
  let x := s.tileCtx c h
  t.st ≠ .claimed && !t.latched.gdis && !t.gskip && !Desc.imatch x.desc && t.bindA.bound && t.bindW.bound &&
    (t.gforce || x.samples (CRec.tile t.rec_))

/-! ### The array's queue -/

/-- The array takes the next opened tile: its start is time 0 of its bricks (R89). -/
def Arr.start (a : Arr) : Arr :=
  match a.cur, a.queue with
  | none, h :: q => { cur := some h, queue := q }
  | _, _ => a
/-- A brick between two streamings: its lane registers keep their words (R79). -/
def Brick.idle (k : Brick) : Brick := { lanes := k.lanes, shadow := k.shadow }
/-- The times and steps of a streaming start afresh (R89). -/
def Arr.fresh (a : Arr) : Arr :=
  { a with bricks := (upTo 16).foldl (fun m b => Sparse.upd {} m b Brick.idle) a.bricks, steps := [], anchT := [], lstall := [] }
/-- The array's streaming of the current tile ends. -/
def Arr.release (a : Arr) : Arr := { a.fresh with cur := none }.start

/-- A tile that scouts begins its scout pass as it enters the array (R209). -/
def State.arrKick (s : State) (c : Nat) : State :=
  match (s.core c).arr.cur with
  | some h => s.modTile c h (fun t => if t.sst = .due then { t with sst := .running } else t)
  | none => s

/-- A tile enters the array's queue, first when it is rerun at once (R154). -/
def State.arrEnter (s : State) (c h : Nat) (first : Bool) : State :=
  (s.modArr c (fun a => { a with queue := if first then h :: a.queue else a.queue ++ [h] }.start)).arrKick c

/-- The current tile leaves the array. -/
def State.arrLeave (s : State) (c : Nat) : State := (s.modArr c Arr.release).arrKick c

/-- A tile is taken out of the array, streaming or waiting. -/
def State.arrDrop (s : State) (c h : Nat) : State :=
  let t := s.modArr c (fun a => { a with queue := a.queue.filter (· ≠ h) })
  if (t.core c).arr.cur = some h then t.arrLeave c else t

/-! ### Attempts (R117, R124, R154, R156) -/

/-- Bytes the accumulators of a tile take (R115, R117). -/
def Geo.accBytes (g : Geo) : Nat := g.outs * wordBytes g.regime
/-- Tiles in progress: those whose accumulators have been opened (R117). -/
def Core.inProgress (k : Core) : Nat := ((upTo 8).filter (fun h => (k.tile h).began)).length
/-- How many tiles of a tile's size may be in progress at once (R117). -/
def Geo.tileLimit (g : Geo) : Nat := min 8 (262144 / g.accBytes)
/-- R117 leaves room for tile `h`: with it, no more tiles are in progress than the limit of any of them allows.
(DEDUCED, log 128) -/
def State.hasRoom (s : State) (c h : Nat) (g : Geo) : Bool :=
  let others := (upTo 8).filter (fun k => k ≠ h && (s.tile c k).began)
  others.all (fun k => others.length < (s.geo c k).tileLimit) && others.length < g.tileLimit

/-- A binding that is read afresh: a fetch begins at its first chunk, slots are read again (R154, R356). -/
def Binding.again (b : Binding) : Binding :=
  { b with scales := [], sels := [], scaled := false, chunks := [], failed := false, asStored := [] }

/-- A tile at the start of an attempt: fresh accumulators and flags; an attempt after the first reads its operands afresh. -/
def Tile.attempt (t : Tile) (rung n : Nat) (reran more : Bool) : Tile :=
  { st := t.st, ctx := t.ctx, rec_ := t.rec_, setRung := t.setRung, rung := rung, reran := reran, began := true,
    guarded := t.guarded, sumFrom := t.sumFrom, opened := true, bindA := if more then t.bindA.again else t.bindA, bindW := if more then t.bindW.again else t.bindW,
    pre := t.pre, gforce := t.gforce, gskip := t.gskip, latched := t.latched, acc := List.replicate n {},
    tsw := if more then 0 else t.tsw, oslot := t.oslot, aslots := t.aslots, partSent := t.partSent, grp := t.grp,
    commit := t.commit }

/-- The channels of a tile's fetches run again from the first chunk; one that serves another transfer meanwhile is waited for
(R356). -/
def State.refetch (s : State) (c h : Nat) : State :=
  s.each [false, true] (fun u w =>
    let b := (u.tile c h).bind w
    if b.fetch && (u.chanFree c b.ch || (u.chan c b.ch).use_ = .fetch h w) then
      (u.unstall c (· = .dma b.ch)).fetchStart c b.ch h w
    else u)

/-- The settings a tile latches as its accumulators open; later attempts keep them (R125, R151, R208, R218, R555). -/
def State.latch (s : State) (c h : Nat) : State :=
  let a := (s.rg .arrCtrl c).toNat
  let v := (s.rg .sveCtrl c).toNat
  s.modTile c h (fun t => { t with latched :=
    { skipdis := a.testBit 0, lockstep := a.testBit 1, zskdis := v.testBit 0, scdis := v.testBit 1,
      gdis := (s.rg .gauCtrl c).toNat.testBit 0 } })

/-- A SPEC_REPLAY of the tile's layer on its dispenser reaches this and its later attempts (R215). -/
def State.guardNow (s : State) (c h : Nat) : State :=
  let d := s.tileDesc c h
  let y := s.disp (Desc.disp d)
  s.modTile c h (fun t => { t with guarded := t.guarded || (y.guard && y.lseq = Desc.lseq d) })

/-- The Gauge's work of an attempt is due where the tile is sampled (R142, R149). -/
def State.sampleDue (s : State) (c h : Nat) : State :=
  if s.isSampled c h then
    (s.modTile c h (fun t => { t with gst := .due, tsw := t.tsw ||| flagsOf [fGSAMP] })).modCore c
      (fun k => { k with gauge := k.gauge ++ [h] })
  else s

/-- The rung a tile starts at: the later of SETPREC's and the FLOOR (R355). -/
def State.startRung (s : State) (c h : Nat) : Nat := max (s.tile c h).setRung (CRec.floor (s.tile c h).rec_)

/-- The rung whose tags a sum carries, else the tile's starting rung. (DESIGN CHOICE, log 40) -/
def State.sumRung (s : State) (c h : Nat) (p : PartSum) : Nat :=
  let d := s.tileDesc c h
  ((upTo (Desc.nrung d + 1)).find? (fun i => ptagOf (Desc.rung d i) = p.ptag &&
    regimeOf d (s.tileCtx c h).defreg (Desc.rung d i) = p.regime)).getD (s.startRung c h)

/-- A CLOSE tile's attempt: its accumulators take the tree's sum with its flags; without one they are zero, with POISON (R328, R355).
(DESIGN CHOICE, log 40) -/
def State.fillSum (s : State) (c h : Nat) (reran more : Bool) : State :=
  match s.sdt.sums.find? (fun y => y.disp = Desc.disp (s.tileDesc c h) && y.tile = CRec.tile (s.tile c h).rec_) with
  | some p =>
    (s.mesh c none (p.acc.length * wordBytes p.regime)).modTile c h (fun t =>
      { t.attempt (s.sumRung c h p) 0 reran more with acc := p.acc, tsw := ofFlags6 p.flags, ended := true })
  | none =>
    let n := (s.geoAt c h (Desc.rung (s.tileDesc c h) (s.startRung c h))).outs
    s.modTile c h (fun t => { t.attempt (s.startRung c h) 0 reran more with
      acc := List.replicate n { anch := true }, tsw := flagsOf [fPOISON], ended := true })

/-- Active outputs of a tile (R362). -/
def Tile.activeCount (t : Tile) (g : Geo) : Nat :=
  ((upTo t.acc.length).filter (fun i => g.within i && (t.acc.getD i {}).active)).length

/-- The SCOUT that waits for a tile completes with the count of its active outputs (R348, R362). -/
def State.scoutEnds (s : State) (c h : Nat) : State :=
  match (s.core c).seq.wait with
  | .scout k sd => if k = h then (s.setScalar c sd ((s.tile c h).activeCount (s.geo c h))).seqDone c else s
  | _ => s

/-- An attempt opens: fresh accumulators, the Gauge's and the scout's work due, and the tile joins the array (R117, R124,
R142, R149, R209); a CLOSE tile takes its sum instead. A tile that SCOUT opens with SCDIS set has no scout pass: its SCOUT ends with
every output active, and it streams after STEP (R208). (DEDUCED, log 42) -/
def State.openAttempt (s : State) (c h rung : Nat) (reran more : Bool) : State :=
  let t0 := (if more then s else s.latch c h).guardNow c h
  if (s.tile c h).sumFrom then
    let u := t0.fillSum c h reran more
    (if more then u.refetch c h else u).sampleDue c h
  else
    let g := s.geoAt c h ((s.tileDesc c h).rung rung)
    let t1 := t0.modTile c h (fun t => t.attempt rung g.outs reran more)
    let t2 := (if more then t1.refetch c h else t1).sampleDue c h
    if t2.tileScout c h ≠ 0 then (t2.modTile c h (fun t => { t with sst := .due })).arrEnter c h more
    else if (s.tile c h).st = .claimed then t2.scoutEnds c h
    else t2.arrEnter c h more

/-- A further attempt that the Meter has admitted opens; one of a wider regime that accumulation memory has no room for waits
for TILE_OPEN (R117, R154). -/
def State.reopen (s : State) (c h rung : Nat) (reran : Bool) : State :=
  if s.hasRoom c h (s.geoAt c h ((s.tileDesc c h).rung rung)) then s.openAttempt c h rung reran true
  else s.modTile c h (fun t => { t with heldAt := none, rung := rung, reran := reran, opened := false, acc := [] })

/-- The rung an attempt would be admitted at by the Meter: it opens, or is held (R158). -/
def State.admitAttempt (s : State) (c h rung : Nat) (reran : Bool) : State :=
  let x := s.tileCtx c h
  let e := s.estimate x.desc x.alen (s.tile c h).rec_ (Desc.rung x.desc rung)
  if s.admits c e then (s.spendOn c e).reopen c h rung reran
  else
    let (n, t) := s.arrive
    t.modTile c h (fun t => { t with heldAt := some n, rung := rung, reran := reran, opened := false, acc := [] })

/-- Work of an attempt that is abandoned stops: the Gauge's, and the array's (R153, R156). -/
def State.dropWork (s : State) (c h : Nat) : State :=
  (s.modCore c (fun k => { k with gauge := k.gauge.filter (· ≠ h) })).arrDrop c h

/-- The retry count of the layer on its dispenser, and its escalation (R157, R167, R330). -/
def State.countRetry (s : State) (c h rung : Nat) : State :=
  let x := s.tileCtx c h
  let d := Desc.disp x.desc
  let y := s.disp d
  if x.exact_ || y.lseq ≠ Desc.lseq x.desc || (y.st = .idle && !y.complete) then s
  else
    let n := y.retry + 1
    let t := s.modDisp d (fun z => { z with retry := n })
    if Desc.esc x.desc ≠ 0 && Desc.esc x.desc < n then
      let u := t.modDisp d (fun z => { z with floor := max z.floor rung, escd := true })
      if y.escd then u else u.log { code := 0x0105, cls := 0, part := s.partOf c, core := some c, disp := d,
                                    detail := (u.disp d).floor }
    else t

/-- A trigger below the last rung requeues the tile at the next one (R153, R154, R157). -/
def State.requeue (s : State) (c h : Nat) : State :=
  let r := (s.tile c h).rung + 1
  (((s.dropWork c h).count .gauRetries c 0 1).countRetry c h r).admitAttempt c h r false

/-- A rigorous miss reruns the attempt once at the same rung (R156). -/
def State.rerun (s : State) (c h : Nat) : State := (s.dropWork c h).admitAttempt c h (s.tile c h).rung true

/-- The attempt is at the last rung (R153). -/
def State.lastRung (s : State) (c h : Nat) : Bool := Desc.nrung (s.tileDesc c h) ≤ (s.tile c h).rung

/-! ### Preloads (R113) -/

/-- Elements of a preload row: the columns within the actual lengths. -/
def Geo.preRow (g : Geo) (f : Nat) : Nat := rowBytes f g.colsA
/-- Bytes of a preload. -/
def Geo.preLen (g : Geo) (resid : Bool) (f : Nat) : Nat := g.preRow f * (if resid then g.rowsA else 1)
/-- A preload value from its bytes: its value as an element, and the decoded integer with its exponent (R50, R51, R113); U8Z takes
zero point 0. (DEDUCED, log 38; DESIGN CHOICE, log 123) -/
def Geo.preVal (g : Geo) (resid : Bool) (f : Nat) (bs : List Byte) (r c : Nat) : FV × Int × Int :=
  let row := if resid then bs.drop (r * g.preRow f) else bs
  let x := elemVal f 0 (fun _ => 0) (codeAt row f c)
  let e := efmtOf f 30 [x]
  (x, elemAt 30 e x, e)

/-- The bytes of a tile's preload as the Gauge reads them again: zeros where the slot refuses class TILE.
(DEDUCED, log 38) -/
def State.preBytes (s : State) (c h : Nat) (g : Geo) : List Byte :=
  match (s.tile c h).pre with
  | some (resid, f, sl) =>
    match s.slotCheck c (s.slotOff c sl) (g.preLen resid f) false cTile with
    | .refused _ => zeros (g.preLen resid f)
    | _ => s.spad c (s.slotOff c sl) (g.preLen resid f)
  | none => []

/-! ### Group partials (R92 to R110, R136, R209, R213) -/

/-- The contribution of a group and pass to the output at step row `r` and column `k`, and whether Prune replaced an element
of the serial group; a scouted tile's scout pass takes the top planes, its full pass what is left (R209, R213). -/
def State.groupPart (s : State) (c h : Nat) (g : Geo) (r k grp pass : Nat) (a : Int) : Contribution × Bool :=
  let t := s.tile c h
  let sd := g.d.serial
  let pd := g.d.parallel
  let bs := t.bind sd.weight
  let bp := t.bind pd.weight
  let ds0 := s.decGroup c g sd bs g.ms r grp
  let ds := if g.prune then ds0.pruned g.ms else ds0
  let dp := s.decGroup c g pd bp g.mp k grp
  let pc := g.pieces pass
  let comb := ds.e + dp.e
  let e := comb + pieceExp pc.1 + pieceExp pc.2
  let ovr := sd.ovr bs g.allGroups r grp g.ms ds || pd.ovr bp g.allGroups k grp g.mp dp
  let part (planes : Nat) : Contribution :=
    let q := dot ds.els dp.els (fun v => pieceOf pc.1 (planesOf planes g.ms (Desc.scb g.d + 1) v)) (pieceOf pc.2)
    contribute g.regime a (ds.nan || dp.nan) q e comb ovr
  let all := part 0
  let x := if t.sst = .running then part 1
    else if t.pass2 then { all with x := all.x - (part 1).x }
    else all
  (x, g.prune && ds0.prunes g.ms)

/-- Flags a contribution and an addition raise on the tile (R107 to R110). -/
def contribFlags (x : Contribution) (y : Acc) (r : Nat) : List Nat :=
  (if x.nan then [fNAN, fPOISON] else []) ++ (if x.sovf then [fSOVF] else []) ++ (if x.sunf then [fSUNF] else []) ++
  (if x.long || y.tooLong r then [fLONG] else []) ++ (if y.sat then [fSAT] else [])

/-- A contribution added to an output: a NaN stays marked, the count grows by the group's partial, once for both passes of a
scouted tile (R106, R107, R110). -/
def Acc.take (r : Nat) (x : Contribution) (again : Bool) (a : Acc) : Acc :=
  let y := (a.addInt r x.x)
  { y with nan := a.nan || x.nan, cnt := if again then a.cnt else a.cnt + 1 }

/-- A list changed from index `i` on for as many elements as there are changes. -/
def overAt (i : Nat) (l : List Acc) (ys : List Acc) : List Acc := l.take i ++ ys ++ l.drop (i + ys.length)

/-- A group's partials of a step row added for every column (R92, R105 to R110). An inactive output receives no more
partials (R212). -/
def State.addGroup (s : State) (c h : Nat) (g : Geo) (row grp pass : Nat) : State :=
  let t := s.tile c h
  let old := (t.acc.drop (row * g.cols)).take g.cols
  let new := (upTo old.length).map (fun k =>
    let a := old.getD k {}
    if g.colsA ≤ k || !a.active then (a, [])
    else
      let p := s.groupPart c h g row k grp pass a.anchor
      let y := a.take g.regime p.1 t.pass2
      (y, contribFlags p.1 y g.regime ++ (if p.2 then [fPRUNED] else [])))
  (s.modTile c h (fun t => { t with acc := overAt (row * g.cols) t.acc (new.map (·.1)) })).flagTile c h
    (new.flatMap (·.2)).eraseDups

/-- A step row with an output that is still to be summed in this pass (R212, R213). -/
def Geo.rowLive (g : Geo) (t : Tile) (row : Nat) : Bool :=
  row < g.rowsA && (!t.pass2 || ((t.acc.drop (row * g.cols)).take g.colsA).any (·.active))
/-- Group partials the pass in progress adds in all. -/
def Geo.addsDue (g : Geo) (t : Tile) : Nat :=
  ((upTo g.rowsA).filter (g.rowLive t)).length * g.groups.length * g.passes

/-! ### Exact dyadic numbers for the Gauge -/

/-- A dyadic number n * 2^e. -/
abbrev Dy : Type := Int × Int
/-- Both numbers over one exponent. -/
def Dy.common (a b : Dy) : Int × Int × Int :=
  let e := min a.2 b.2
  (a.1 * 2 ^ (a.2 - e).toNat, b.1 * 2 ^ (b.2 - e).toNat, e)
def Dy.add (a b : Dy) : Dy := let x := Dy.common a b; (x.1 + x.2.1, x.2.2)
def Dy.sub (a b : Dy) : Dy := let x := Dy.common a b; (x.1 - x.2.1, x.2.2)
def Dy.abs (a : Dy) : Dy := (a.1.natAbs, a.2)
def Dy.lt (a b : Dy) : Bool := let x := Dy.common a b; x.1 < x.2.1
/-- The least integer multiple of 2^e at or above a number. -/
def Dy.ceilAt (a : Dy) (e : Int) : Int :=
  if e ≤ a.2 then a.1 * 2 ^ (a.2 - e).toNat else -(-a.1).fdiv (2 ^ (e - a.2).toNat)
/-- The greatest integer multiple of 2^e at or below a number. -/
def Dy.floorAt (a : Dy) (e : Int) : Int :=
  if e ≤ a.2 then a.1 * 2 ^ (a.2 - e).toNat else a.1.fdiv (2 ^ (e - a.2).toNat)
/-- A finite value as a dyadic number. -/
def FV.dy : FV → Dy
  | .fin n m e => (if n then -(m : Int) else m, e)
  | _ => (0, 0)

/-! ### The Gauge's reference (R145, R146) -/

/-- The widths R_ref is formed at: the attempt's own, or those of the last rung (R145, R148). -/
def State.refGeo (s : State) (c h : Nat) : Geo :=
  let x := s.tileCtx c h
  let g := s.geo c h
  if x.budget && !x.exact_ then
    { g with ms := rungMs (Desc.rung x.desc (Desc.nrung x.desc)), mp := rungMp (Desc.rung x.desc (Desc.nrung x.desc)) }
  else g

/-- A miss of this attempt is rigorous (R148). -/
def State.isRigorous (s : State) (c h : Nat) : Bool :=
  let x := s.tileCtx c h
  !x.budget || x.exact_ || s.lastRung c h

/-- What the Gauge forms for an output: R_ref, L1 and tau_p, each exact (R145, R146). -/
structure Ref where
  ref : Dy := (0, 0)
  l1 : Dy := (0, 0)
  taup : Dy := (0, 0)
  deriving DecidableEq, Repr

/-- One group's part of the reference of the output with anchor `a` (R145, R146). A group under R109 enters like any other.
(DESIGN CHOICE, log 138) -/
def State.refGroup (s : State) (c h : Nat) (g gr : Geo) (r k grp : Nat) (a : Int) (x : Ref) : Ref :=
  let t := s.tile c h
  let bs := t.bind g.d.serial.weight
  let bp := t.bind g.d.parallel.weight
  let ds := s.decGroup c gr g.d.serial bs gr.ms r grp
  let dp := s.decGroup c gr g.d.parallel bp gr.mp k grp
  let q := dot ds.els dp.els id id
  let m := dot ds.els dp.els (fun v => v.natAbs) (fun v => v.natAbs)
  let comb := ds.e + dp.e
  let part : Dy := if 255 < comb then ((if q = 0 then 0 else if q < 0 then -clampOf g.regime else clampOf g.regime), a - 31)
    else if comb < -255 then (0, 0) else (q, comb)
  let os := s.decGroup c g g.d.serial bs g.ms r grp
  let op := s.decGroup c g g.d.parallel bp g.mp k grp
  let th : Int := 2 ^ (g.ms - 5)
  let small : List (Nat × Int × Bool) := os.els.filter (fun y => y.2.2 && y.2.1 ≠ 0 && y.2.1.natAbs < th)
  let tp : Int := if g.prune && 5 < g.ms then dot small op.els (fun _ => th - 1) (fun v => v.natAbs) else 0
  { ref := Dy.add x.ref part, l1 := Dy.add x.l1 (m, comb), taup := Dy.add x.taup (tp, os.e + op.e) }

/-- R_ref, L1 and tau_p of an output, the exact preload included. -/
def State.refOf (s : State) (c h : Nat) (r k : Nat) (a : Int) : Ref :=
  let g := s.geo c h
  let gr := s.refGeo c h
  let x := g.groups.foldl (fun x q => s.refGroup c h g gr r k q a x) {}
  match (s.tile c h).pre with
  | some (resid, f, _) =>
    let p := g.preVal resid f (s.preBytes c h g) r k
    { x with ref := Dy.add x.ref (p.2.1, p.2.2) }
  | none => x

/-- The reference of Exact mode: every group partial aligned and summed without clamping, in window units (R146). -/
def State.exactRef (s : State) (c h : Nat) (r k : Nat) (a : Int) : Int :=
  let g := s.geo c h
  let u := s.modTile c h (fun t => { t with sst := .off, pass2 := false })
  let v := (g.groups.flatMap (fun q => (upTo g.passes).map (fun p => (u.groupPart c h g r k q p a).1.x))).sum
  match (s.tile c h).pre with
  | some (resid, f, _) =>
    let p := g.preVal resid f (s.preBytes c h g) r k
    v + alignTo a p.2.1 p.2.2
  | none => v

/-- The tolerance of an output outside Exact mode (R146). -/
def State.tau (s : State) (c h : Nat) (x : Ref) (y : Acc) : Dy :=
  let g := s.geo c h
  let k := s.tileCtx c h
  let ta : Dy := if g.regime = half16 then (0, 0) else (y.cnt, y.anchor - 32)
  Dy.add (Dy.add ta x.taup) (if k.budget then (x.l1.1, x.l1.2 - k.gq) else (0, 0))

/-- What a sampled output shows. -/
inductive Sample where
  | pass | miss | inactive | scoutMiss
  deriving DecidableEq, Repr

/-- SCT as an exact value (R211). -/
def Desc.sctVal (d : Desc) : Dy := (f32 (BitVec.ofNat 32 d.sct)).dy

/-- The comparison of one sampled output (R144, R147, R214). (DEDUCED, log 42) -/
def State.sampleAt (s : State) (c h r k : Nat) : Sample :=
  let g := s.geo c h
  let y := (s.tile c h).acc.getD (r * g.cols + k) {}
  let got : Dy := (y.val, y.anchor - 31)
  if !y.active then
    let ex := (s.tileCtx c h).exact_
    let x := s.refOf c h r k y.anchor
    let ref : Dy := if ex then (s.exactRef c h r k y.anchor, y.anchor - 31) else x.ref
    let t : Dy := if ex then (0, 0) else s.tau c h x y
    let v := if Desc.sctype g.d then Dy.abs ref else ref
    if Dy.lt (Desc.sctVal g.d) (Dy.sub v t) then .scoutMiss else .inactive
  else if y.nan || y.sat then .pass
  else if (s.tileCtx c h).exact_ then (if y.val = s.exactRef c h r k y.anchor then .pass else .miss)
  else
    let x := s.refOf c h r k y.anchor
    if Dy.lt (s.tau c h x y) (Dy.abs (Dy.sub got x.ref)) then .miss else .pass

/-- The sampled positions of a tile, in order (R143). (DEDUCED, log 65) -/
def State.positions (s : State) (c h : Nat) : List (Nat × Nat) :=
  let g := s.geo c h
  let x := s.tileCtx c h
  (upTo x.gs).map (fun i =>
    let v := rhash x.gseed.toNat g.idx i
    (v / 2 ^ 32 % g.rowsA, v % 2 ^ 32 % g.colsA))

/-- SPEC_REPLAY: speculative misses above SPECLIM rewind the dispenser (R215). -/
def State.specMiss (s : State) (c h : Nat) : State :=
  let x := s.tileCtx c h
  let d := Desc.disp x.desc
  let y := s.disp d
  if y.lseq ≠ Desc.lseq x.desc || y.st = .idle then s
  else
    let t := s.modDisp d (fun z => { z with spec := z.spec + 1 })
    if Desc.speclim x.desc < y.spec + 1 && !y.guard then
      (t.rewindDisp d 0 true).log { code := 0x0206, cls := 0, part := s.partOf c, core := some c, disp := d,
                                    detail := min (y.spec + 1) (2 ^ 32 - 1) }
    else t

/-- A miss recorded in GAU_MISSTILE and GAU_MISSPOS (R177, R178). -/
def State.recordMiss (s : State) (c h r k : Nat) (rig : Bool) : State :=
  let t := s.tile c h
  (s.setRg .gauMisstile c 0 0 (BitVec.ofNat 32 (CRec.tile t.rec_))).setRg .gauMisspos c 0 0
    (BitVec.ofNat 32 (pack [(16, r), (10, k), (1, b2n !rig), (2, t.rung), (1, 1)]))

/-- One sampled output compared and counted: the state, and whether it missed. -/
def State.compareAt (s : State) (c h : Nat) (p : Nat × Nat) : Bool × State :=
  let rig := s.isRigorous c h
  let s1 := s.count .gauSamples c 0 1
  match s.sampleAt c h p.1 p.2 with
  | .pass => (false, s1)
  | .miss =>
    (true, ((s1.flagTile c h [fGMISS]).count (if rig then .gauFmiss else .gauBmiss) c 0 1).recordMiss c h p.1 p.2 rig)
  | .inactive => (false, s1.count .sveScsamp c 0 1)
  | .scoutMiss =>
    let s2 := ((s1.count .sveScsamp c 0 1).count .sveSpecmiss c 0 1).flagTile c h [fSPECMISS]
    if s.tileScout c h = 2 then (false, s2.specMiss c h)
    else (false, ((s2.flagTile c h [fPOISON]).tileEvent c h 0x0205 2 (pack [(16, p.1), (10, p.2)])).coreFault c)

/-- All sampled outputs compared in order; the positions that missed. -/
def State.compareAll (s : State) (c h : Nat) : List (Nat × Nat) → List (Nat × Nat) × State
  | [] => ([], s)
  | p :: ps =>
    let (m, t) := s.compareAt c h p
    let (l, u) := t.compareAll c h ps
    (if m then p :: l else l, u)

/-! ### The checks of an attempt (R169) -/

/-- A tile is on the index-match path (R198). -/
def State.isImatch (s : State) (c h : Nat) : Bool := Desc.imatch (s.tileDesc c h)

/-- A part's partial-sum message goes out once REDUCE PART has issued and its attempt has passed its checks (R22, R169, R328). -/
def State.sendPart (s : State) (c h : Nat) : State :=
  let t := s.tile c h
  if t.partSent = 1 && t.checked && !(s.core c).seq.parts.contains h then
    (s.mesh c none (s.geo c h).accBytes).modSeq c (fun q => { q with parts := q.parts ++ [h] })
  else s

/-- The attempt has passed its checks (R169). -/
def State.passed (s : State) (c h : Nat) : State := (s.modTile c h (fun t => { t with checked := true })).sendPart c h

/-- GAUGE_FAULT: the rerun has a rigorous miss too; the tile goes on to commit (R156). -/
def State.gaugeFault (s : State) (c h : Nat) (p : Nat × Nat) : State :=
  ((((s.flagTile c h [fGMISS, fPOISON]).modTile c h (fun t => { t with rigor := true })).tileEvent
    c h 0x0103 2 (pack [(16, p.1), (10, p.2)])).coreFault c).passed c h

/-- LADDER_TOP: a trigger met where no further rung runs; counted and raised once an attempt (R153, R177, R432). -/
def State.ladderTop (s : State) (c h : Nat) : State :=
  if (s.tile c h).top then s
  else ((s.modTile c h (fun t => { t with top := true })).count .gauTop c 0 1).tileEvent c h 0x0104 2 (s.tile c h).rung

/-- A trigger can requeue the tile: it is below the last rung, and its accumulators are not the tree's sum, which no attempt of its
own formed (R153, R328). (DESIGN CHOICE, log 135) -/
def State.mayRequeue (s : State) (c h : Nat) : Bool := !s.lastRung c h && !(s.tile c h).sumFrom

/-- A trigger met in the checks, or the attempt goes on to the output path (R153, R169). -/
def State.triggered (s : State) (c h : Nat) (trig : Bool) : State :=
  if trig && s.mayRequeue c h then s.requeue c h
  else (if trig then s.ladderTop c h else s).passed c h

/-- Steps 1 to 3 of R169, once accumulation has ended and the Gauge's samples have finished. -/
def State.attemptCheck (s : State) (c h : Nat) : State :=
  let t := s.tile c h
  if t.opened && t.ended && !t.checked && (t.gst = .none || t.gst = .finished) then
    let (misses, u) := if t.gst = .finished then s.compareAll c h (s.positions c h) else ([], s)
    let rig := u.isRigorous c h
    let tr := Desc.rtrig (u.tileDesc c h)
    if rig && misses ≠ [] then
      if t.reran then u.gaugeFault c h (misses.headD (0, 0)) else u.rerun c h
    else u.triggered c h ((tr.testBit 0 && misses ≠ []) || (tr.testBit 1 && flag (u.tile c h).tsw fSAT))
  else s

/-- Accumulation has ended: the flags and the residue result are final (R169). -/
def State.accEnd (s : State) (c h : Nat) : State :=
  (s.modTile c h (fun t => { t with ended := true })).attemptCheck c h

/-! ### Aborted tiles (R549) -/

/-- The consumers of class TILE and VEC that a tile holds release their slots (R273, R327, R549). -/
def State.releaseSlots (s : State) (c h : Nat) : State :=
  let t := s.tile c h
  let one (b : Binding) : List Nat := if b.bound && !b.fetch then [b.dslot, b.sslot] else []
  let pre : List Nat := match t.pre with | some (_, _, sl) => [sl] | none => []
  let u := s.each (one t.bindA ++ one t.bindW ++ pre).eraseDups (fun v n => v.slotRelease c n cTile)
  u.each t.aslots.eraseDups (fun v n => v.slotRelease c n cVec)

/-- Channels that serve a tile halt with ABORT (R549). -/
def State.abortChans (s : State) (c h : Nat) : State :=
  s.each (upTo 16) (fun u ch =>
    let x := u.chan c ch
    let mine := match x.use_ with | .fetch k _ => k = h | .store k => k = h | .chain => false
    if mine && (x.st = .run || x.st = .wait) then u.chanHalt c ch eABORT else u)

/-- A tile's stalled accesses. -/
def StallBy.ofTile (h : Nat) : StallBy → Bool
  | .tile k _ => k = h
  | .out k => k = h
  | .anch k _ => k = h
  | _ => false

/-- The handle becomes FREE; everything that worked for the tile lets go of it. -/
def State.freeTile (s : State) (c h : Nat) : State :=
  (((s.dropWork c h).unstall c (StallBy.ofTile h)).modTile c h (fun _ => {})).modSeq c
    (fun q => { q with parts := q.parts.filter (· ≠ h) })

/-- A commit or a mask that the sequencer waits for on an aborted tile completes with ABORT in the word (DEDUCED, log 21). -/
def State.abortWait (s : State) (c h : Nat) (tsw : W32) : State :=
  match (s.core c).seq.wait with
  | .commit k => if k = h then
      (match (s.tile c h).commit with
        | some q => (s.setScalar c q.sd tsw.toNat).seqDone c
        | none => s.seqDone c) else s
  | .scout k sd => if k = h then (s.setScalar c sd 0).seqDone c else s
  | _ => s

/-- A tile is aborted: ABORT in its TSW, its consumers released, its output slot left FILLING, its partial sums out of the tree, its
handle FREE (R328, R549). The
claim entry is the caller's affair. (DEDUCED, log 21) -/
def State.abortTile (s : State) (c h : Nat) : State :=
  let t1 := s.flagTile c h [fABORT]
  let w := t1.tileTsw c h
  let t2 := ((t1.releaseSlots c h).abortChans c h).abortWait c h w
  let d := Desc.disp (s.tileDesc c h)
  let r := (s.tile c h).rec_
  ({ t2 with sdt := { t2.sdt with
      commits := t2.sdt.commits.filter (· ≠ (c, h))
      partSums := t2.sdt.partSums.filter (fun y => !(y.disp = d && y.tile = CRec.tile r && y.epoch = CRec.epoch r)) } }).freeTile c h

/-- An abort under FORCE or a core quiesce: the claim is returned and TILE_ABORTED raised (R327, R549). -/
def State.forceTile (s : State) (c h : Nat) : State :=
  let t := s.tile c h
  let d := Desc.disp (s.tileDesc c h)
  let w := (s.flagTile c h [fABORT]).tileTsw c h
  let u := (s.tileEvent c h 0x0004 2 w.toNat).returnClaim c d (CRec.tile t.rec_) (CRec.epoch t.rec_)
  u.abortTile c h

end Sys2Proof.Machine
end

