-- ==== Sys2Proof/Machine/Array.lean ====
section
/-! DEFINITION. The array family: brick steps and swaps, anchors, group partials, and the counters' clear (R79 to R119, R126 to
R134, R187 to R197). -/
namespace Sys2Proof.Machine

/-- An SRAM error met by a tile's work: a corrected one is recorded; an uncorrectable one also sets POISON (R535, R536).
(DEDUCED, log 63) -/
def State.sramTile (s : State) (c h : Nat) : SramErr → State
  | .none => s
  | .ce st off => s.sramCe c st.val off
  | .ue st off => (s.flagTile c h [fPOISON]).sramUe c st.val off 2

/-! ### Bricks (R81 to R91) -/

/-- A brick. -/
def Arr.brick (a : Arr) (b : Nat) : Brick := Sparse.get {} a.bricks b
/-- A brick changed. -/
def Arr.modBrick (a : Arr) (b : Nat) (f : Brick → Brick) : Arr := { a with bricks := Sparse.upd {} a.bricks b f }
/-- A step's book-keeping. -/
def Arr.step_ (a : Arr) (s : Nat) : StepInfo := Sparse.get {} a.steps s

/-- The anchors of a step row are written; rows beyond the actual lengths have none (R104). -/
def Tile.anchored (t : Tile) (g : Geo) (row : Nat) : Bool := g.rowsA ≤ row || (t.acc.getD (row * g.cols) {}).anch

/-- When the partial registers of step `n` of the current tile are free; none while they are not (R86, R89). -/
def State.freeAt (s : State) (c h : Nat) (g : Geo) (n : Nat) : Option Nat :=
  let a := (s.core c).arr
  let row := (g.stepAt n).1
  if (a.step_ n).bricks = g.bricks ∧ (s.tile c h).anchored g row then
    some (max (a.step_ n).lastT (Sparse.get 0 a.anchT row))
  else none

/-- When a brick may begin step `n` as far as run-ahead goes; none while it may not (R86, R127). -/
def State.aheadAt (s : State) (c h : Nat) (g : Geo) (n : Nat) : Option Nat :=
  let a := (s.core c).arr
  let f := if n < 5 then some 0 else s.freeAt c h g (n - 5)
  if (s.tile c h).latched.lockstep && 0 < n then
    (if (a.step_ (n - 1)).bricks = g.bricks then f.map (max (a.step_ (n - 1)).lastT) else none)
  else f

/-- A brick's vector at a step: what it costs, whether it was fetched, whether it counts as a skipped zero block, and its
overfull groups (R85, R87, R188 to R197, R209, R213). -/
structure Vector4 where
  cost : Nat
  fetched : Bool
  skipped : Bool
  ovr : Nat
  deriving DecidableEq, Repr

/-- The largest number of set bits of the values' piece or planes, at least 1 (R85). -/
def maxBits (f : Int → Int) (l : List (Nat × Int)) : Nat := (l.map (fun x => popcount (f x.2).natAbs)).foldl max 1

/-- Width of the serial piece that streams (R87, R94, R209). -/
def Geo.pieceBits (g : Geo) (t : Tile) (piece : Nat) : Nat :=
  let b := g.d.scb + 1
  if t.sst = .running then b else if t.pass2 then g.ms - b
  else if piece = 1 then g.ms - 15 else if piece = 2 then 15 else g.ms

/-- The vector brick `b` meets at step `n` of tile `h`; a brick that the actual K does not reach receives none (R320). -/
def State.vectorAt (s : State) (c h : Nat) (g : Geo) (b n : Nat) : Vector4 :=
  let t := s.tile c h
  let st := g.stepAt n
  let bs := t.bind g.d.serial.weight
  if !g.rowLive t st.1 || !g.brickLive st.2.1 b then { cost := 0, fetched := false, skipped := false, ovr := 0 }
  else
    let piece := (g.pieces st.2.2).1
    let fixed := g.d.skmode || t.latched.skipdis
    let zero := g.zeroBlock bs st.1 st.2.1 b
    let ovr := s.overfull c g bs st.1 st.2.1 b
    if fixed then
      { cost := g.pieceBits t piece * (if 0 < ovr then 2 else 1), fetched := true, skipped := false, ovr := ovr }
    else if zero && !t.latched.zskdis then { cost := 0, fetched := false, skipped := true, ovr := 0 }
    else
      let vs := s.brickVals c g bs st.1 st.2.1 b
      let planes := if t.sst = .running then 1 else if t.pass2 then 2 else 0
      let f (v : Int) : Int := pieceOf piece (planesOf planes g.ms (g.d.scb + 1) v)
      let main := vs.filter (·.1 < 2)
      let extra := vs.filter (fun x => 2 ≤ x.1)
      { cost := maxBits f main + (if 0 < ovr then maxBits f extra else 0), fetched := true, skipped := false, ovr := ovr }

/-- Entries `lo` to `hi - 1` of a row zero-filled in a binding's chunks; `off` entries lie before the first. -/
def zeroEnts (r lo hi : Nat) : Nat → List (List (List Nat)) → List (List (List Nat))
  | _, [] => []
  | off, ch :: rest =>
    let row := ch.getD r []
    ch.set r (((upTo row.length).zip row).map (fun y => if lo ≤ off + y.1 && off + y.1 < hi then 0 else y.2)) ::
      zeroEnts r lo hi (off + row.length) rest

/-- An SRAM error in what brick `b` reads for step `n`: a scratchpad error zero-fills its vector, one of the codebook memory
makes the row's groups decode as under scale code 0xFF (R535). -/
def State.vectorErr (s : State) (c h : Nat) (g : Geo) (b n : Nat) (e : SramErr) : State :=
  let x := g.d.serial
  let st := g.stepAt n
  let rg := g.brickK st.2.1 b
  let t := s.sramTile c h e
  match e with
  | .ue st' _ =>
    if st'.val = 1 then
      let k := if x.s24 then 2 else 1
      t.modBind c h x.weight (fun y => { y with chunks := zeroEnts st.1 ((rg.1 - g.k0) / k) ((rg.2 - g.k0) / k) 0 y.chunks })
    else if st'.val = 7 && isCb x.fmt then
      let n := g.allGroups
      let qs := g.groups.filter (fun q => q * g.d.g < rg.2 && rg.1 < (q + 1) * g.d.g)
      t.modBind c h x.weight (fun y => { y with sels := qs.foldl (fun l q => l.set (st.1 * n + q) 0xFFFF) y.sels })
    else t
  | _ => t

/-- ACLK of a wait [lo, hi) that no interval of a disjoint list has, and the list with that wait joined to it (R126). -/
def joinWait (l : List (Nat × Nat)) (lo hi : Nat) : Nat × List (Nat × Nat) :=
  if hi ≤ lo then (0, l)
  else
    let near := l.filter (fun x => x.1 ≤ hi && lo ≤ x.2)
    let a := near.foldl (fun m x => min m x.1) lo
    let b := near.foldl (fun m x => max m x.2) hi
    (b - a - (near.map (fun x => x.2 - x.1)).sum, (a, b) :: l.filter (fun x => !(x.1 ≤ hi && lo ≤ x.2)))

/-- The brick begins step `n` of tile `h`: times of R89, waits counted by R126 and R131. It waits for run-ahead first and is about
to begin the step then, so that its wait for the shadow registers is what follows (R81; DEDUCED, log 126). An early promotion
stalls it 1 ACLK for at most each ACLK of the step (R99; DEDUCED, log 127). An overfull group counts once, also where two bricks of the
wide shape receive it (R197). -/
def State.beginStep (s : State) (c b h : Nat) (g : Geo) (n promo ahead : Nat) : State :=
  let k := (s.core c).arr.brick b
  let v := s.vectorAt c h g b n
  let p := if g.regime = staged && v.fetched then min promo v.cost else 0
  let base := max k.doneT ahead
  let at_ := max base k.ready
  let wait := ahead - k.doneT
  let stall := joinWait (s.core c).arr.lstall base k.ready
  let first := (g.stepAt n).2.2 = 0 && !(s.tile c h).pass2 && (g.shape ≠ 2 || b < 4)
  let k1 := { k with begun := n + 1, beginT := at_, cost := v.cost, fetched := v.fetched, promo := p,
                     swapT := if n = 0 || g.load (n - 1) ≠ g.load n then at_ else k.swapT }
  let s1 := s.modArr c (fun a => { a.modBrick b (fun _ => k1) with lstall := stall.2 })
  let s2 := (s1.count64 .arrWait c wait).count64 .arrLstall c stall.1
  let s3 := if v.skipped then (s2.count64 .arrZskip c 1).count64 .sveZblk c 1 else s2
  if 0 < v.ovr && first then (s3.flagTile c h [fOVFL]).count .sveOvfl c 0 v.ovr else s3

/-- BRICK_STEP_BEGIN: the previous step done, the partial registers five steps back free, the step's load in the active
registers, the operands there (R81, R86). `promo` is the stall of early promotions in STAGED (R99).
(DESIGN CHOICE, log 9; DEDUCED, log 41) -/
def execBrickStepBegin (c : CoreId) (b : BrickId) (promo : Nat) (e : SramErr) (s : State) :
    Host.Outcome State Fault Refusal :=
  let a := (s.core c.val).arr
  match a.cur with
  | none => .next s
  | some h =>
    let g := s.geo c.val h
    let k := a.brick b.val
    let n := k.begun
    if s.coreOpen c.val && !s.isImatch c.val h && b.val < g.bricks && k.done = n && n < g.steps &&
        k.active = some (g.load n) then
      match s.aheadAt c.val h g n with
      | none => .next s
      | some t =>
        let r := s.opsReady c.val h g (g.kRange (g.stepAt n).2.1).2
        if r.1 then .next ((r.2.vectorErr c.val h g b.val n e).beginStep c.val b.val h g n promo t) else .next r.2
    else .next s

/-- The tile's streaming pass has ended in every brick: a scout pass waits for its end; a tile's last pass frees the array. -/
def State.passDone (s : State) (c h : Nat) : State :=
  if (s.tile c h).sst = .running then s
  else (s.modTile c h (fun t => { t with streamed := true })).arrLeave c

/-- BRICK_STEP_COMPLETE: the brick's step ends after its cost and promotions (R85, R87, R89, R91). -/
def execBrickStepComplete (c : CoreId) (b : BrickId) (s : State) : Host.Outcome State Fault Refusal :=
  let a := (s.core c.val).arr
  match a.cur with
  | none => .next s
  | some h =>
    let g := s.geo c.val h
    let k := a.brick b.val
    let n := k.done
    if s.coreOpen c.val && k.begun = n + 1 && b.val < g.bricks then
      let t := k.beginT + k.cost + k.promo
      let s1 := s.modArr c.val (fun a =>
        let x := a.step_ n
        { (a.modBrick b.val (fun k => { k with done := n + 1, doneT := t })) with
            steps := Sparse.put {} a.steps n { bricks := x.bricks + 1, lastT := max x.lastT t } })
      let s2 := ((s1.count64 .arrBcyc c.val k.cost).count64 .arrBstep c.val (b2n k.fetched)).count64 .arrPstall c.val k.promo
      let s3 := s2.act c.val 0 (k.cost * 16 * ((s.tile c.val h).liveCols g).length)
      if n + 1 = g.steps && ((s3.core c.val).arr.step_ n).bricks = g.bricks then .next (s3.passDone c.val h) else .next s3
    else .next s

/-- Bits of lane registers a brick's load of `n` columns fills (R79, R522). -/
def Geo.loadBits (g : Geo) (n : Nat) : Nat :=
  16 * (if g.d.sp24 = 0 then 1 else 2) * (if g.mp + 1 ≤ 4 then 4 else if g.mp + 1 ≤ 8 then 8 else 16) * n

/-- The shadow registers of brick `b` may have been full at `full` for its next swap: the loader fills the bricks in order at
one brick each `w` granted ACLK, tile starts apart, and refills a brick after it has swapped (R80, R81). In the tall shape bricks
`b` and `b` + 8 hold the two halves of one row's columns. (DEDUCED, log 129) -/
def Arr.fullOk (a : Arr) (w b full : Nat) : Bool :=
  let k := a.brick b
  let q := k.fulls.length
  (q = 0 || k.swapT + w ≤ full) &&
  (upTo 16).all (fun j => match (a.brick j).fulls[q]? with
    | none => true
    | some f =>
      if j % 8 < b % 8 then f = 0 || f + (b % 8 - j % 8) * w ≤ full
      else if b % 8 < j % 8 then full = 0 || full + (j % 8 - b % 8) * w ≤ f
      else true)

/-- BRICK_SWAP: the brick takes the next step's load into its active registers; its shadow registers were full at `full`
(R80, R81, R89). -/
def execBrickSwap (c : CoreId) (b : BrickId) (full : Nat) (s : State) : Host.Outcome State Fault Refusal :=
  let a := (s.core c.val).arr
  match a.cur with
  | none => .next s
  | some h =>
    let g := s.geo c.val h
    let k := a.brick b.val
    let n := k.begun
    if s.coreOpen c.val && !s.isImatch c.val h && b.val < g.bricks && k.done = n && n < g.steps &&
        k.active ≠ some (g.load n) && a.fullOk (g.fillTime n) b.val full then
      let r := s.sideReady c.val h g.d.parallel g (g.kRange (g.stepAt n).2.1).2
      if r.1 then
        .next ((r.2.modArr c.val (·.modBrick b.val (fun k =>
          { k with active := some (g.load n), ready := full, fulls := k.fulls ++ [full],
                   lanes := r.2.loadWords c.val h g b.val n, shadow := k.lanes }))).act c.val 1
            (g.loadBits ((s.tile c.val h).liveCols g).length))
      else .next r.2
    else .next s

/-! ### Anchors (R101 to R104, R113) -/

/-- The byte offset of the anchor of output `i` in the anchor table of handle `h` (R104, R358). -/
def anchorOff (d : Desc) (h outs i : Nat) : Nat := (d.anchb + h * ceilDiv outs 16) * 32 + 2 * i

/-- A tile reads its preload as class TILE; none where it stalls (R113, R578). -/
def State.preRead (s : State) (c h : Nat) (g : Geo) : Option (List Byte) × State :=
  match (s.tile c h).pre with
  | none => (some [], s)
  | some (resid, f, sl) =>
    let b := (s.tile c h).bindA
    s.tileRead c h false (s.slotOff c sl) (g.preLen resid f) b.asStored

/-- An output's accumulator as its anchor is written: the anchor, and the preload aligned and counted (R102, R113). -/
def State.anchorOut (s : State) (c h : Nat) (g : Geo) (pre : List Byte) (row k : Nat) : Acc × List Nat :=
  let t := s.tile c h
  let bs := t.bind g.d.serial.weight
  let bp := t.bind g.d.parallel.weight
  match t.pre with
  | none => ({ anchor := g.anchor bs bp row k none, anch := true }, [])
  | some (resid, f, _) =>
    let p := g.preVal resid f pre (if g.sside && !resid then 0 else row) k
    let a := g.anchor bs bp row k (some (p.2.2 + 30))
    let y := (({ anchor := a, anch := true } : Acc).addInt g.regime (alignTo a p.2.1 p.2.2)).counted
    let z := { y with nan := p.1.exceptional }
    (z, (if z.sat then [fSAT] else []) ++ (if z.nan then [fNAN, fPOISON] else []))

/-- The anchors of a step row are written, the last in ACLK `at_` of the tile's streaming if it streams (R86, R104). -/
def State.anchored (s : State) (c h : Nat) (g : Geo) (row at_ : Nat) : State :=
  let done (l : List Acc) : List Acc := ((l.drop (row * g.cols)).take g.cols).map (fun y => { y with anch := true })
  let t := s.modTile c h (fun t => { t with acc := overAt (row * g.cols) t.acc (done t.acc) })
  if (t.core c).arr.cur = some h then t.modArr c (fun a => { a with anchT := Sparse.put 0 a.anchT row (at_ + 1) }) else t

/-- The anchors' words go into the anchor table; a write that a slot stalls waits with its data (R104, R274, R275). -/
def State.anchorWrite (s : State) (c h row off at_ : Nat) (bs : List Byte) : State :=
  match s.spadWrite c off bs pOut with
  | (.stall n, w) => w.stallOn c
      { who := .anch h row, slot := n, wr := true, off := off, len := bs.length, data := bs, pos := at_ }
  | (_, w) => w.anchored c h (w.geo c h) row at_

/-- ANCHOR_TABLE_WRITTEN: the anchors of a step's outputs stand in the anchor table, the last written in ACLK `at_` of the
tile's streaming; the rows follow one another (R102, R104). A write that a slot stalls is kept, and its step waits for it; a
refused one is dropped (R274, R275). (DESIGN CHOICE, log 130) -/
def execAnchorTableWritten (c : CoreId) (h : Handle) (step : Nat) (at_ : Nat) (s : State) :
    Host.Outcome State Fault Refusal :=
  let t := s.tile c.val h.val
  let g := s.geo c.val h.val
  let row := (g.stepAt step).1
  if s.coreOpen c.val && t.opened && !s.isImatch c.val h.val && !t.sumFrom && step < g.steps && !t.anchored g row &&
      (upTo row).all (t.anchored g) && !s.stalled c.val (.anch h.val row) then
    let r := s.scalesReady c.val h.val g
    if !r.1 then .next r.2
    else match r.2.preRead c.val h.val g with
      | (none, u) => .next u
      | (some pre, u) =>
        let outs := (upTo g.cols).map (fun k =>
          if k < g.colsA then u.anchorOut c.val h.val g pre row k else (({} : Acc), []))
        let bytes := (outs.take g.colsA).flatMap (fun y => toLe 2 (ofInt 16 y.1.anchor))
        let v := (u.modTile c.val h.val (fun t => { t with
          acc := overAt (row * g.cols) t.acc (outs.map (fun y => { y.1 with anch := false })) })).flagTile
            c.val h.val (outs.flatMap (·.2)).eraseDups
        .next (v.anchorWrite c.val h.val row (anchorOff g.d h.val g.outs (row * g.cols)) at_ bytes)
  else .next s

/-! ### Group partials (R92, R105 to R110, R119) -/

/-- Every brick of the group has completed step `n` of the tile (R92): its streaming is over, or those bricks have it done. -/
def State.groupDone (s : State) (c h : Nat) (g : Geo) (n grp : Nat) : Bool :=
  let a := (s.core c).arr
  if a.cur = some h then
    (upTo g.bricks).all (fun b =>
      let r := g.brickK (g.stepAt n).2.1 b
      r.2 ≤ grp * g.d.g || (grp + 1) * g.d.g ≤ r.1 || r.2 ≤ r.1 || n < (a.brick b).done)
  else (s.tile c h).streamed

/-- A residue mismatch at a physical column: POISON, ARR_RESERR, RESIDUE (R119). -/
def State.residueBad (s : State) (c h col step : Nat) : State :=
  (((s.flagTile c h [fPOISON]).count16 .arrReserr c 0 1).tileEvent c h 0x0101 2 (pack [(10, col), (6, 0), (16, step)])).coreFault c

/-- GROUP_PARTIAL_ADD: a group's partial of a step and pass is aligned and added for every column (R92, R105 to R110);
`residue` names the physical columns of its mismatches, each counted and raised (R119). With the last one accumulation ends (R169). -/
def execGroupPartialAdd (c : CoreId) (h : Handle) (step group pass : Nat) (residue : List Nat) (e : SramErr) (s : State) :
    Host.Outcome State Fault Refusal :=
  let t := s.tile c.val h.val
  let g := s.geo c.val h.val
  let st := g.stepAt step
  if s.coreOpen c.val && t.opened && !t.ended && !s.isImatch c.val h.val && !t.sumFrom && step < g.steps && pass = st.2.2 &&
      (g.groupsOf st.2.1).contains group && g.rowLive t st.1 && t.anchored g st.1 && !t.added.contains (step, group, pass) &&
      s.groupDone c.val h.val g step group then
    let s1 := (s.sramTile c.val h.val e).addGroup c.val h.val g st.1 group pass
    let s2 := s1.each residue.eraseDups (fun u k => u.residueBad c.val h.val k step)
    let s3 := s2.modTile c.val h.val (fun t => { t with added := (step, group, pass) :: t.added })
    let u := s3.tile c.val h.val
    if u.sst ≠ .running && g.addsDue u ≤ u.added.length then .next (s3.accEnd c.val h.val) else .next s3
  else .next s

/-- The six counter pairs are 0 (R132). -/
def State.cntclr (s : State) (c : Nat) : State :=
  s.each [.arrBcyc, .arrBstep, .arrZskip, .arrWait, .arrLstall, .arrPstall] (fun t n => t.setRg64 n c 0 0 0)

/-- ARR_CNTCLR. -/
def execArrCntclr (c : CoreId) (s : State) : Host.Outcome State Fault Refusal :=
  if s.coreOpen c.val then .next (s.cntclr c.val) else .next s

end Sys2Proof.Machine
end

