-- ==== Sys2Proof/Machine/GroupOps.lean ====
section
/-! DEFINITION. Reduction rounds at a member: slots, arrivals, the two phases and aborts (R425 to R437, R553). -/
namespace Sys2Proof.Machine

/-! ### Rounds -/

/-- The round of a tile in a group. -/
def Group.round (x : Group) (tile : Nat) : Option Round := x.rounds.find? (fun (r : Round) => r.tile = tile)
/-- A round changed; one that is not there begins. -/
def State.modRound (s : State) (g tile : Nat) (f : Round → Round) : State :=
  s.modGroup g (fun x => match x.round tile with
    | some _ => { x with rounds := x.rounds.map (fun r => if r.tile = tile then f r else r) }
    | none => { x with rounds := x.rounds ++ [f { tile := tile }] })

/-- TBASE, TCOUNT, SLOTB and AREA of a group. -/
def State.tbase (s : State) (g : Nat) : Nat := (s.rg .grpTbase 0 g).toNat
def State.tcount (s : State) (g : Nat) : Nat := (s.rg .grpTcount 0 g).toNat
def State.slotb (s : State) (g : Nat) : Nat := s.rf .grpSlot 0 g 0 24
def State.area (s : State) (g : Nat) : Nat := s.rg64 .grpArea 0 g % 2 ^ 48

/-- Bytes a slot needs for `n` outputs (R427). -/
def slotNeed (n regime : Nat) : Nat := 64 + n * (wordBytes regime + 2)

/-- A round's slot written to its region: a header whose layout the spec leaves to the device, the anchors, the value words; its
lines are charged to the group's partition (R427, R521, DESIGN CHOICE, log 18). -/
def State.writeSlot (s : State) (g tile : Nat) : State :=
  match (s.group g).round tile with
  | none => s
  | some r =>
    let (v, t) := s.draw
    let bs := toLe 64 v ++ r.acc.flatMap (fun a => toLe 2 (ofInt 16 a.anchor)) ++
      r.acc.flatMap (fun a => toLe (wordBytes r.regime) (a.word r.regime))
    let at_ := t.area g + (tile - t.tbase g) * t.slotb g
    let x := t.lineCost at_ bs.length
    if (t.cellarRefusal at_ bs.length).isNone then ((t.groupAct g 7 x.1).groupAct g 8 x.2).cellarWrite .normal at_ bs else t

/-- PREC_MISMATCH of a group's round: own and received tags (R123, R542). -/
def State.precMismatch (s : State) (p : Option Nat) (core : Option Nat) (tile epoch op or_ rp rr : Nat) : State :=
  s.log { code := 0x0102, cls := 2, part := p, core := core, tile := tile, epoch := epoch,
          detail := pack [(6, op), (2, or_), (6, rp), (2, rr)] }

/-- Outputs added into a slot from index `i` on; none when an anchor differs (R123, R429). -/
def addOuts (regime i : Nat) (acc : List Acc) (xs : List Acc) : Option (List Acc) :=
  let full := acc ++ List.replicate (i + xs.length - acc.length) ({} : Acc)
  let old := (full.drop i).take xs.length
  if (old.zip xs).all (fun y => !y.1.anch || y.1.anchor = y.2.anchor) then
    some (overAt i full ((old.zip xs).map (fun y => if y.1.anch then y.1.join regime y.2 else y.2)))
  else none

/-- An arrival of a round: outputs from index `i` on, tags, flags and count (R429). The first arrival overwrites the slot
(R427). -/
def State.arrival (s : State) (g tile i ptag regime flags gcnt : Nat) (xs : List Acc) : State :=
  let x := s.group g
  let r0 : Round := (x.round tile).getD { tile := tile }
  let r := if r0.acc = [] then { r0 with ptag := ptag, regime := regime } else r0
  if r.ptag = ptag ∧ r.regime = regime then
    match addOuts regime i r.acc xs with
    | some acc =>
      let n := r.gcnt + gcnt
      let long := match lengthOf regime with | some k => k < n | none => false
      let sat := acc.any (·.sat)
      let fl := r.flags ||| flags ||| pack [(1, b2n sat), (1, b2n long)]
      let r1 : Round := { r with acc := acc, gcnt := n, flags := fl }
      (s.modRound g tile (fun _ => r1)).writeSlot g tile
    | none =>
      (s.modRound g tile (fun _ => { r with flags := r.flags ||| 32 })).precMismatch (some x.part) none tile x.epoch
        r.ptag r.regime ptag regime
  else
    (s.modRound g tile (fun _ => { r with flags := r.flags ||| 32 })).precMismatch (some x.part) none tile x.epoch
      r.ptag r.regime ptag regime

/-! ### The two phases (R430, R431) -/

/-- A round's slot as SUM or RESULT packets of up to 256 outputs. -/
def State.roundPackets (s : State) (g typ tile : Nat) (r : Round) : List Packet :=
  let parts := chunksOf 256 (ceilDiv r.acc.length 256) r.acc
  ((upTo parts.length).zip parts).map (fun y =>
    let pl := y.2.flatMap (fun a => toLe (wordBytes r.regime) (a.word r.regime) ++ toLe 2 (ofInt 16 a.anchor))
    { s.groupPacket g typ 0 tile with
      ptag := r.ptag, regime := r.regime, first := 256 * y.1, cntm1 := y.2.length - 1, flags := r.flags, gcnt := r.gcnt,
      len := pl.length, payload := pl })

/-- A round commits at this member: the held DRAIN is released (R431). The epoch is DONE with its last round. -/
def State.roundCommit (s : State) (g tile : Nat) : State :=
  match (s.group g).round tile with
  | none => s
  | some r =>
    if r.committed then s
    else
      let t1 := (s.modRound g tile (fun r => { r with committed := true })).modGroup g (fun x =>
        { x with committed := x.committed + 1,
                 st := if s.tcount g ≤ x.committed + 1 && x.st = .opened then .done else x.st })
      let t2 := match r.local_ with
        | some (c, h) => t1.modTile c h (fun t => { t with released := true })
        | none => t1
      t2.toKids g (t2.groupPacket g tCommit 0 tile)

/-- The member passes STAGED on once it and every child have staged; the root commits (R431). -/
def State.stagedStep (s : State) (g tile : Nat) : State :=
  let x := s.group g
  match x.round tile with
  | none => s
  | some r =>
    if r.staged && x.kids.all (fun k => r.stagedKids.contains k.1) && !r.stagedUp then
      let t := s.modRound g tile (fun r => { r with stagedUp := true })
      if x.parent = 0xFFF then t.roundCommit g tile else t.toParent g (t.groupPacket g tStaged 0 tile)
    else s

/-- The result stands in the slot: it goes into the accumulators and flags of the contributing handle, and on to the
children (R431). -/
def State.stageRound (s : State) (g tile : Nat) : State :=
  match (s.group g).round tile with
  | none => s
  | some r =>
    let t1 := s.modRound g tile (fun r => { r with staged := true })
    let t2 := match r.local_ with
      | some (c, h) => (t1.mesh c none (r.acc.length * wordBytes r.regime)).modTile c h
          (fun t => { t with acc := r.acc, tsw := t.tsw ||| ofFlags6 r.flags })
      | none => t1
    ((t2.roundPackets g tResult tile r).foldl (fun u k => u.toKids g k) t2).stagedStep g tile

/-- Outputs a child has sent in full: as many as the local contribution has. -/
def Round.kidDone (r : Round) (k : Nat) : Bool := r.acc ≠ [] && r.acc.length ≤ Sparse.get 0 r.got k

/-- A slot that holds every contribution goes to the parent, or is the result at the root (R430). -/
def State.roundStep (s : State) (g tile : Nat) : State :=
  let x := s.group g
  match x.round tile with
  | none => s
  | some r =>
    if r.local_.isSome && !r.sentUp && x.kids.all (fun k => r.kidDone k.1) then
      let t := s.modRound g tile (fun r => { r with sentUp := true })
      if x.parent = 0xFFF then t.stageRound g tile
      else (t.roundPackets g tSum tile r).foldl (fun u k => u.toParent g k) t
    else s

/-! ### Aborts (R433 to R435, R553) -/

abbrev cauSOFTWARE : Nat := 1
abbrev cauRESET : Nat := 2
abbrev cauTIMEOUT : Nat := 3
abbrev cauTREE : Nat := 4
abbrev cauLINK : Nat := 5
abbrev cauAREA : Nat := 6

/-- A contributing tile ends with ABORT: its entry closes without joining the queue (R434). (DEDUCED, log 70) -/
def State.endTile (s : State) (c h : Nat) : State :=
  let t := s.tile c h
  (s.endClaim c (Desc.disp (s.tileDesc c h)) (CRec.tile t.rec_) (CRec.epoch t.rec_)).abortTile c h

/-- An event of a group. -/
def State.groupEvent (s : State) (g code cls detail tile : Nat) : State :=
  let x := s.group g
  s.log { code := code, cls := cls, part := some x.part, tile := tile, epoch := x.epoch, detail := detail }

/-- The open rounds of a member end; `doubt` says that a staged one is in doubt (R434, R435, R553). -/
def State.endRounds (s : State) (g cause : Nat) (doubt : Bool) : State :=
  let x := s.group g
  let open_ := x.rounds.filter (fun r => !r.committed)
  let t := open_.foldl (fun t r =>
    let u := match r.local_ with | some (c, h) => t.endTile c h | none => t
    if doubt && r.staged then u.groupEvent g 0x0807 2 g r.tile else u) s
  (t.modGroup g (fun x => { x with rounds := x.rounds.filter (·.committed), st := .aborted, cause := cause })).groupEvent
    g 0x0806 2 (pack [(8, g), (3, cause)]) 0

/-- ABORT sent toward the root, or by the root to every child (R433). -/
def State.sendAbort (s : State) (g cause : Nat) : State :=
  let k := { s.groupPacket g tAbort 0 0 with status := cause }
  if (s.group g).parent = 0xFFF then s.toKids g k else s.toParent g k

/-- The epoch of an OPEN group aborts here with a cause that this member detects (R433). -/
def State.abortGroup (s : State) (g cause : Nat) (doubt : Bool) : State :=
  if (s.group g).st = .opened then (s.sendAbort g cause).endRounds g cause doubt else s

/-- A member's reset, kill or forced quiesce withdraws and aborts (R433, R437, R553). -/
def State.resetGroup (s : State) (g : Nat) : State := s.abortGroup g cauRESET true

/-- The member's path to its parent or a child goes DOWN: the epoch aborts; what it has staged is in doubt when the path was
to the root (R433, R435). -/
def State.linkGroup (s : State) (g p : Nat) : State :=
  let x := s.group g
  let up := x.parent ≠ 0xFFF && x.pport = p
  if x.valid && (up || x.kids.any (·.2 = p)) then s.abortGroup g cauLINK up else s

/-! ### Contributions (R428) -/

/-- The hub refuses a contribution (R428). (DEDUCED, log 70) -/
def State.contributionBad (s : State) (c g tile n regime : Nat) : Bool :=
  let x := s.group g
  x.st ≠ .opened || tile < s.tbase g || s.tbase g + s.tcount g ≤ tile || s.slotb g < slotNeed n regime ||
    s.partOf c ≠ some x.part

/-- A tile's contribution is sent to the hub, or refused: the tile then ends with ABORT and REDUCE_REFUSED is raised (R428).
(DEDUCED, log 70) -/
def State.sendContribution (s : State) (c h g : Nat) : State :=
  let t := s.tile c h
  let tile := CRec.tile t.rec_
  let regime := s.tileRegime c h
  if s.contributionBad c g tile t.acc.length regime then
    (s.log { code := 0x0805, cls := 2, part := s.partOf c, core := some c, tile := tile, epoch := CRec.epoch t.rec_,
             disp := Desc.disp (s.tileDesc c h), detail := g }).endTile c h
  else
    let gcnt := (t.acc.map (·.cnt)).foldl max 0
    let xs := t.acc.map (fun (a : Acc) => { a with anch := true })
    let u := ((s.mesh c none (t.acc.length * wordBytes regime)).arrival g tile 0 (ptagOf (s.tileRung c h)) regime (flags6 t.tsw) gcnt xs).modRound g tile
      (fun r => { r with local_ := some (c, h) })
    (u.modTile c h (fun t => { t with contributed := true })).roundStep g tile

end Sys2Proof.Machine
end

