-- ==== Sys2Proof/Machine/Xport.lean ====
section
/-! DEFINITION. Sending from a host port: gates, queues, and the messages, fragments and frames of Hacor Transport that the
device sends (R446 to R448, R451 to R456, R458, R461, R475). -/
namespace Sys2Proof.Machine

/-! ### Gates and egress (R447, R448) -/

/-- The entry that holds `o` ns into the cycle and the ns it still runs, counting entries from `i`. (DEDUCED, log 101) -/
def gateWalk : List (Nat × Nat) → Nat → Nat → Nat × Nat
  | [], i, _ => (i, 0)
  | (_, n) :: l, i, o => if o < n then (i, n - o) else gateWalk l (i + 1) (o - n)

/-- ns from the cycle's start at gPTP time `t` (R447). (DEDUCED, log 101) -/
def Eth.phase (e : Eth) (t : Nat) : Nat := if e.cycle = 0 then 0 else (t + e.cycle - e.baseofs % e.cycle) % e.cycle

/-- ns for which queue `q` stays open from time `t` on, looked at over one cycle (R447). -/
def Eth.openFor (e : Eth) (q t : Nat) : Nat :=
  let (i, left) := gateWalk e.gcl 0 (e.phase t)
  let after := (e.gcl.drop (i + 1) ++ e.gcl.take i).takeWhile (fun x => x.1.testBit q)
  if (e.gcl.getD i (0, 0)).1.testBit q then left + (after.map (·.2)).sum else 0

/-- ns a frame of `n` bytes takes at the port's speed. -/
def Eth.frameNs (e : Eth) (n : Nat) : Nat := ceilDiv (8 * n) (50 * 2 ^ e.speed)

/-- A queue is preemptable on a port: not express, and preemption verified or verification off (R446, R482). -/
def State.preemptable (s : State) (p q : Nat) : Bool :=
  let v := (s.rg .ethTsn 0 p).toNat
  !v.testBit q && ((s.ethp p).pver || !v.testBit 16)

/-- A frame may start: its gate is open for the whole of it, or open at all where it can be preempted; its shaper's credit
is not negative (R448). Without a lock or a list every gate is open (R447). -/
def State.mayStart (s : State) (p : Nat) (f : EFrame) : Bool :=
  let e := s.ethp p
  let gate : Bool := !s.prc.lock || e.gcl.isEmpty ||
    (if s.preemptable p f.q then 0 < e.openFor f.q s.prc.time else e.frameNs f.bytes ≤ e.openFor f.q s.prc.time)
  gate && !e.neg.contains f.q

/-- The frame that transmits next: the first of the highest-numbered queue that may start (R448). -/
def State.egressPick (s : State) (p : Nat) : Option EFrame :=
  let e := s.ethp p
  ([7, 6, 5, 4, 3, 2, 1, 0].filterMap (fun q => e.egress.find? (·.q = q))).find? (s.mayStart p)

/-- The next frame starts where none is in transmission, or where an express frame preempts (R446, R448). -/
def State.egressStart (s : State) (p : Nat) : State :=
  let e := s.ethp p
  if e.link ≠ .up then s
  else match s.egressPick p with
    | none => s
    | some f =>
      match e.cur with
      | none => s.modEth p (fun e => { e with cur := some f, egress := e.egress.erase f })
      | some g =>
        if s.preemptable p g.q && !s.preemptable p f.q then
          s.modEth p (fun e => { e with cur := some f, egress := g :: e.egress.erase f })
        else s

/-- A frame joins a port's egress. -/
def State.egress (s : State) (p : Nat) (f : EFrame) : State :=
  (s.modEth p (fun e => { e with egress := e.egress ++ [f] })).egressStart p

/-! ### The identity (R490, R491) -/

/-- The identity's private key (R490). -/
def Sec.identityKey (x : Sec) : Nat := Machine.identityKey (toLe 32 x.puf.toNat) x.serial
/-- The SHA-512 of the identity's public key (R468, R504). -/
def Sec.identityHash (x : Sec) : List Byte := sha512 (publicKey x.identityKey)
/-- A signature of the identity key over bytes: 132 bytes; its secret number is drawn (R491, R492). (DESIGN CHOICE, log 8) -/
def State.identitySign (s : State) (bs : List Byte) : List Byte × State :=
  let (v, t) := s.draw
  (signWith s.sec.identityKey (1 + v % (n521 - 1)) bs, t)

/-! ### Messages of the device (R451 to R456) -/

abbrev mOPEN : Nat := 1
abbrev mAUTH : Nat := 2
abbrev mCLOSE : Nat := 3
abbrev mWRITE : Nat := 4
abbrev mREAD : Nat := 5
abbrev mSUBMIT : Nat := 6
abbrev mFENCE : Nat := 7
abbrev mEVENT : Nat := 8
abbrev mKILL : Nat := 9
abbrev mSTAT : Nat := 10

abbrev stOK : Nat := 0
abbrev stREFUSED : Nat := 1
abbrev stOVERRUN : Nat := 2
abbrev stUNDERRUN : Nat := 3
abbrev stRESV : Nat := 4
abbrev stRIGHTS : Nat := 5
abbrev stBUSY : Nat := 6
abbrev stDENIED : Nat := 7
abbrev stLOCKED : Nat := 8
abbrev stKILLED : Nat := 9
abbrev stPOISON : Nat := 10

/-- STATUS: a code with its detail (R461). -/
def statusOf (code detail : Nat) : Nat := code + (detail % 2 ^ 21) * 256

/-- Payloads of a message's fragments: an operand block of `blk` bytes rides with the first (R453). -/
def fragsOf (fs blk : Nat) (pl : List Byte) : List (List Byte) :=
  let d := pl.drop blk
  match chunksOf fs (ceilDiv d.length fs) d with
  | [] => [pl.take blk]
  | c :: cs => (pl.take blk ++ c) :: cs

/-- Operand block of a message the device sends: STATUS of a READ response, the whole payload of any other (R452). -/
def OutMsg.block (m : OutMsg) : Nat := if m.typ = mREAD then 4 else m.payload.length

/-- SACK of a session (R451). -/
def Session.sackBits (x : Session) : W64 :=
  BitVec.ofNat 64 ((x.sack.filter (fun n => x.inSeq < n && n ≤ x.inSeq + 64)).map (fun n => 2 ^ (n - x.inSeq - 1))).sum

/-- Fragment `i` of a message as a frame (R451). -/
def Session.frame (x : Session) (n : Nat) (m : OutMsg) (tx i : Nat) (count : Nat) (pl : List Byte) : HxtFrame :=
  { ver := 1, typ := m.typ, resp := m.resp, ackonly := false, resvBit := false, tx := tx, session := n % 65536, kepoch := x.kepoch,
    seq := m.seq, ack := x.inSeq, sack := x.sackBits, frag := i, nfrag := count - 1, len := m.payload.length,
    payload := pl, tag := zeros 16 }

/-- The 32 bytes of a frame's header (R451). -/
def frameHeader (f : HxtFrame) : List Byte :=
  toLe 1 f.ver ++ toLe 1 f.typ ++ toLe 1 (b2n f.resp + 2 * b2n f.ackonly + 4 * b2n f.resvBit) ++ toLe 1 f.tx ++ toLe 2 f.session ++
  toLe 2 f.kepoch ++ toLe 4 f.seq ++ toLe 4 f.ack ++ toLe 8 f.sack.toNat ++ toLe 2 f.frag ++ toLe 2 f.nfrag ++ toLe 4 f.len

/-- The nonce of a frame under its direction's salt (R454). -/
def frameNonce (f : HxtFrame) (salt : List Byte) : List Byte :=
  padTo 4 salt ++ toLe 4 f.seq ++ toLe 2 f.frag ++ toLe 1 f.tx ++ [0]

/-- The round keys and the salt of a direction: the host's, or the device's (R471). -/
def Session.roundKeys (x : Session) (host : Bool) : List (List Nat) :=
  Machine.roundKeys (nats (padTo 32 (x.keys.drop (if host then 0 else 32))))
def Session.salt (x : Session) (host : Bool) : List Byte := padTo 4 (x.keys.drop (if host then 64 else 68))

/-- A frame protected with AES-256-GCM in a direction (R454). -/
def Session.sealed (x : Session) (host : Bool) (f : HxtFrame) : HxtFrame :=
  let ks := x.roundKeys host
  let nonce := frameNonce f (x.salt host)
  let ct := gcmCrypt ks nonce f.payload
  { f with payload := ct, tag := gcmTag ks nonce (frameHeader f) ct }

/-- A host's frame whose tag verifies, its payload decrypted (R454, R455). -/
def Session.unsealed (x : Session) (f : HxtFrame) : Option HxtFrame :=
  let ks := x.roundKeys true
  let nonce := frameNonce f (x.salt true)
  if gcmTag ks nonce (frameHeader f) f.payload = f.tag then some { f with payload := gcmCrypt ks nonce f.payload } else none

/-- Bytes of an HXT frame over IPv4 and UDP, untagged, with FCS (R444, R451). (DESIGN CHOICE, log 46) -/
def hxtBytes (pl : Nat) : Nat := 14 + 20 + 8 + 32 + pl + 16 + 4

/-- A frame of a session is protected and sent: on its port's queue, or by the management port (R445, R454). (DEDUCED, log 106) -/
def State.sendFrame (s : State) (n : Nat) (f : HxtFrame) : State :=
  let t := s.modSess n (fun x => { x with unackedIn := 0 })
  let f := (s.sess n).sealed false f
  if n < 65536 then t.egress (s.sess n).port { q := (s.sess n).txq, bytes := hxtBytes f.payload.length, hxt := some f }
  else t.send (.mgmt f)

/-- Every fragment of a message sent, as transmission `tx`. -/
def State.sendMsg (s : State) (n : Nat) (m : OutMsg) (tx : Nat) : State :=
  let fs := fragsOf (s.sess n).fragsz m.block m.payload
  s.each ((upTo fs.length).zip fs) (fun t y => t.sendFrame n ((t.sess n).frame n m tx y.1 fs.length y.2))

/-- The window, the state and the SEQ range let the device send message `seq` (R456, R475). -/
def Session.maySend (x : Session) (seq : Nat) : Bool :=
  x.st ≠ .rekey && x.st ≠ .lost && seq < x.hostAck + 256 && seq < 2 ^ 32

/-- Messages held back are sent once they may be. -/
def State.flushOut (s : State) (n : Nat) : State :=
  let x := s.sess n
  let go := x.queued.takeWhile (fun m => x.maySend m.seq)
  (s.modSess n (fun x => { x with queued := x.queued.drop go.length, outMsgs := x.outMsgs ++ go.map (fun (m : OutMsg) => { m with at_ := s.prc.time }) })).each go
    (fun t m => t.sendMsg n m 0)

/-- A message of the device: it takes the next SEQ and is sent, or waits. SEQ 0xFFFF_0000 raises REKEY_DUE (R456, R475).
(DEDUCED, log 102) -/
def State.post (s : State) (n typ : Nat) (resp : Bool) (pl : List Byte) (src : Option (Nat × Nat) := none) : State :=
  let q := (s.sess n).outSeq
  let m : OutMsg := { seq := q, typ := typ, resp := resp, payload := pl, src := src }
  let t := (s.modSess n (fun x => { x with outSeq := q + 1, queued := x.queued ++ [m] })).flushOut n
  if q + 1 = 0xFFFF0000 then
    t.log { code := 0x0902, cls := 0, part := some (s.sess n).part, session := some n, detail := 1 }
  else t

/-- An unprotected answer of the handshake: no SEQ of the session is taken (R468, R470). -/
def State.reply (s : State) (port n typ : Nat) (pl : List Byte) : State :=
  let m : OutMsg := { seq := 0, typ := typ, resp := true, payload := pl }
  let f := ({} : Session).frame n m 0 0 1 pl
  if port < 4 then s.egress port { q := 0, bytes := hxtBytes pl.length, hxt := some f } else s.send (.mgmt f)

/-- A response of STATUS alone. -/
def State.respond (s : State) (n typ code detail : Nat) : State := s.post n typ true (toLe 4 (statusOf code detail))

/-- A host message ends with a status: its response is sent and the message leaves the session's list (R459). -/
def State.endMsg (s : State) (n : Nat) (m : InMsg) (code detail : Nat) : State :=
  (s.modSess n (fun x => { x with inMsgs := x.inMsgs.filter (fun y => y.seq ≠ m.seq) })).respond n m.typ code detail

end Sys2Proof.Machine
end

