-- ==== Sys2Proof/Machine/Kill.lean ====
section
/-! DEFINITION. Keys and their destruction, session kills, the attestation log, and the start of a partition's reset or kill
(R410 to R412, R476, R477, R493, R498 to R502, R537, R538, R543, R544, R547, R553). -/
namespace Sys2Proof.Machine

/-! ### The attestation log (R493) -/

abbrev attSTAGE : Nat := 0
abbrev attFULL : Nat := 1
abbrev attPARTIAL : Nat := 2
abbrev attROLLBACK : Nat := 3
abbrev attDEBUG : Nat := 4
abbrev attDEBUGEND : Nat := 5
abbrev attKILL : Nat := 6
abbrev attSCRUBBED : Nat := 7
abbrev attFILL : Nat := 8
abbrev attDISCARD : Nat := 9
abbrev attD3 : Nat := 10
abbrev attTRIP : Nat := 11

/-- The 32 bytes of an entry. -/
def Attest.bytes (e : Attest) : List Byte := toLe 2 e.typ ++ toLe 2 e.stage ++ toLe 8 e.time ++ toLe 20 e.detail

/-- An entry appended: the ring of 4,096, the count, and the digest D = SHA-512(D, entry). A kind's code is the device's;
`stage` is the partition, or a number of the device's own (DESIGN CHOICE, log 23). -/
def State.attest (s : State) (kind : Nat) (part : Option Nat) : State :=
  let x := s.sec
  let e : Attest := { typ := Config.attestType kind % 65536
                      stage := part.getD (Config.attestType (kind + 2 ^ 16) % 65536)
                      time := s.prc.time, detail := Config.attestDetail x.logCnt % 2 ^ 160 }
  let all := x.log ++ [e]
  s.setSec { x with log := all.drop (all.length - 4096), logCnt := x.logCnt + 1,
                    digest := digestOf (toLe 64 x.digest.toNat ++ e.bytes) }

/-! ### Keys (R410, R411) -/

/-- Vendor debug is open or about to be: no new key is installed (R498). -/
def State.vendorOpen (s : State) : Bool := s.sec.dbg.testBit 1 || s.sec.vendorDue

/-- A key drawn from the random generator into a slot: a version that no key had before (DESIGN CHOICE, log 13).
(DESIGN CHOICE, log 8) -/
def State.newKey (s : State) (k : Nat) (st : KeySt) (bound : Option Nat) : State :=
  let v := s.clr.vers + 1
  ({ s with clr := { s.clr with vers := v } }).setKslot k { st := st, ver := v, bound := bound }

/-- A kill fill of a region joins the engine's queue; one that runs or waits for the region starts afresh (R412, R502). -/
def State.queueFill (s : State) (r : Region) : State :=
  let f : Fill := { who := .zkill r.kslot (s.keyVer r = 0) r.part, base := r.base, size := r.size, pat := 0 }
  let ks := s.clr.kills
  { s with clr := { s.clr with
      kills := if ks.any (·.base = r.base) then ks.map (fun g => if g.base = r.base then f else g) else ks ++ [f] } }

/-- A region's key destroyed: a partition key is redrawn unless vendor debug withholds it, a session key leaves the region
locked; a ZKILL region is filled (R410, R411). (DEDUCED, log 87) -/
def State.destroyKey (s : State) (r : Region) : State :=
  let t := if r.ksrc = 2 then s
    else if r.ksrc = 0 && !s.vendorOpen then s.newKey r.kslot .partition none
    else s.setKslot r.kslot { st := .locked }
  if r.zkill then t.queueFill r else t

/-- The regions a session has bound. -/
def State.boundTo (s : State) (n : Nat) : List Region :=
  s.cfg.regions.filter (fun r => r.ksrc = 1 && (s.kslot r.kslot).st = .session && (s.kslot r.kslot).bound = some n)

/-! ### Sessions (R464, R476, R477, R499) -/

/-- A stored register is an open window of kind session that names the session. -/
def winOf (n : Nat) (x : Nat × W32) : Bool :=
  match regAt x.1 with
  | some r => r.n = .spdWinCfg && !r.hi && bits x.2.toNat 0 2 = 3 && bits x.2.toNat 5 16 = n
  | none => false

/-- Every window of kind session with the session's number closes. -/
def State.closeWindows (s : State) (n : Nat) : State :=
  if n < 65536 then { s with regs := s.regs.filter (fun x => !winOf n x) } else s

/-- The debug level that the session opened closes (R496). -/
def State.closeDebug (s : State) : State :=
  ({ s with sec := { s.sec with dbg := s.sec.dbg / 2 * 2, dbgSession := none, dbgJtag := false, expiry := 0 } }).attest
    attDEBUGEND none

/-- What a CLOSE and a kill share: windows, apertures, keys, events, debug level; its cores lose their owner (R464, R477,
R496, R499). -/
def State.dropSession (s : State) (n : Nat) : State :=
  let t1 := s.closeWindows n
  let t2 := t1.each (t1.boundTo n) (fun u r => u.destroyKey r)
  let t3 := if t2.sec.dbg.testBit 0 && t2.sec.dbgSession = some n then t2.closeDebug else t2
  let t4 := t3.each (t3.cores.map (·.1)) (fun t c =>
    t.modCore c (fun k => if k.owner = some n then { k with owner := none } else k))
  t4.modSess n (fun x => { x with aps := [], events := [], discarded := 0 })

/-- Accesses of the session that stall on a slot are dropped. -/
def State.dropStalls (s : State) (n : Nat) : State :=
  s.each (s.cores.map (·.1)) (fun t c => t.unstall c (fun w => match w with | .inbound r => reqSession r = some n | _ => false))

/-- The session that a received frame names: its number, behind the host ports' on the management port (R445). -/
def sessNum (port : Nat) (f : HxtFrame) : Nat := if port = 4 then 65536 + f.session % 4 else f.session % 65536

/-- Frames of the session that wait to be acted on are dropped. -/
def State.dropFrames (s : State) (n : Nat) : State :=
  { s with ses := { s.ses with inq := s.ses.inq.filter (fun x => x.2.typ = mOPEN || sessNum x.1 x.2 ≠ n) } }

/-- The context is FREE (R473). -/
def State.freeCtx (s : State) (n : Nat) : State := (s.dropFrames n).modSess n (fun _ => {})

/-- A session kill: messages in progress end with KILLED, then the context goes (R476, R499). (DEDUCED, log 87) -/
def State.killSession (s : State) (n : Nat) : State :=
  let x := s.sess n
  if x.st = .free then s
  else
    let t := if x.st = .opened || x.st = .closing then x.inMsgs.foldl (fun t m => t.endMsg n m stKILLED 0) s else s
    ((t.dropStalls n).dropSession n).freeCtx n

/-- The sessions of a partition. -/
def State.sessionsOf (s : State) (p : Nat) : List Nat := s.sessions.filter (fun n => (s.sess n).part = p)

/-! ### The Pantry invalidated (R291) -/

/-- The slices of a group. -/
def State.inGroup (s : State) (g sl : Nat) : Bool :=
  let v := (s.rg .pntGrp 0 g).toNat
  bits v 0 6 ≤ sl && sl < bits v 0 6 + 2 ^ bits v 6 3

/-- Every line of the slices that satisfy a test is dropped without a write-back. (DESIGN CHOICE, log 49) -/
def State.dropLines (s : State) (p : Nat → Bool) : State :=
  { s with pnt := { s.pnt with lines := s.pnt.lines.filter (fun x => !p (x.1 / 16 / 768))
                               plru := s.pnt.plru.filter (fun x => !p (x.1 / 768)) } }

/-- The valid slice groups of a partition. -/
def State.groupsOf (s : State) (p : Nat) : List Nat :=
  (upTo 64).filter (fun g => let v := (s.rg .pntGrp 0 g).toNat; v.testBit 9 && bits v 10 6 = p)

/-! ### A core's state wiped (R500 step 5, R544) -/

/-- The address of a core register that no image writes. -/
def coreReg (c a : Nat) : Bool :=
  ctlBase c ≤ a && a < ctlBase c + 0x8000 && (match regAt a with | some r => !hasAcc r.fields .img | none => true)

/-- The address of a summary register of the vector engine (R250). -/
def summaryReg (a : Nat) : Bool :=
  match regAt a with
  | some r => [RegName.vecSmax, .vecSsum, .vecScnt, .vecSflg].contains r.n
  | none => false

/-- A VPROG, a RAKE or a tile in the output path runs: a kill, disable or reset that reaches it leaves the summary registers at the
values last latched (R252). -/
def Core.summarising (k : Core) : Bool :=
  k.seq.jobs.any (fun j => j.running && (j.eng = .vprog || j.eng = .rake)) || (upTo 8).any (fun h => (k.tile h).outSt = .running)

/-- Registers other than IMG at their reset values, but for the summary registers that R252 keeps; the memories zero-filled; slots
EMPTY, windows closed, no tile, channels idle, the sequencer HALTED with its ring unset. What it counts for the Meter and for
SRAM_CE stays. (DEDUCED, log 52) -/
def State.wipeCore (s : State) (c : Nat) : State :=
  let k := s.core c
  let t := s.setCore c { cst := k.cst, scrub := k.scrub, owner := k.owner, act := k.act, ceCnt := k.ceCnt, ceTime := k.ceTime,
                         seq := k.seq.cleared }
  let u := { t with regs := t.regs.filter (fun x => !coreReg c x.1 || (k.summarising && summaryReg x.1))
                    latchRd := t.latchRd.filter (fun x => !coreReg c x.1)
                    latchWr := t.latchWr.filter (fun x => !coreReg c x.1)
                    sdt := { t.sdt with commits := t.sdt.commits.filter (fun x => x.1 ≠ c) }
                    tch := { t.tch with reqs := t.tch.reqs.filter (fun q =>
                      match q.for_ with | .dma d _ => d ≠ c | .signal d => d ≠ c) } }
  u.zeroRange (spadBase c) 0x80000

/-! ### Partition resets and kills, steps 1 to 5 (R500, R547) -/

/-- Causes of PART_RESET (R542). -/
abbrev prEVENT : Nat := 1
abbrev prRSTCTL : Nat := 2
abbrev prFULL : Nat := 3
abbrev prWARM : Nat := 4
abbrev prDEVICE : Nat := 5

/-- Every group of the partition with an OPEN epoch aborts with RESET (R433, R553). -/
def State.resetGroups (s : State) (p : Nat) : State :=
  s.each ((s.tch.groups.map (·.1)).filter (fun g => (s.group g).valid && (s.group g).part = p)) (fun t g => t.resetGroup g)

/-- Steps 1 to 5: held claims ABORTED, groups aborted, keys destroyed, for a kill the sessions killed, dispensers disarmed,
cores wiped, the slice groups invalidated; the partition is SCRUBBING. (DEDUCED, log 47) -/
def State.beginScrub (s : State) (p : Nat) (kill : Bool) : State :=
  let ds := s.dispsOf p
  let t1 := s.each ds (fun t d => t.abortHeld d (fun _ => true))
  let t2 := t1.resetGroups p
  let t3 := t2.each (t2.cfg.regions.filter (fun r => !r.hub && r.part = p)) (fun t r => t.destroyKey r)
  let t4 := if kill then t3.each (t3.sessionsOf p) (fun t n => t.killSession n) else t3
  let t5 := t4.each ds (fun t d => ((t.disarmDisp d).clearHub d).modDisp d (fun x => { x with claims := [], waiting := [] }))
  let t6 := t5.each (t5.coresOf p) (fun t c => t.wipeCore c)
  let gs := t6.groupsOf p
  let t7 := t6.dropLines (fun sl => gs.any (fun g => t6.inGroup g sl))
  { t7 with sec := { t7.sec with scrubs := t7.sec.scrubs ++ [{ part := p, kill := kill, invz := gs }] } }

/-- A load that fails: STATE FAILED, TRL_REFUSED, claims that it held are served again (R394, R400). -/
def State.failLoad (s : State) (err : Nat) : State :=
  let t := { s with trl := { s.trl with st := .failed, err := err, changed := [], moved := [], wbinv := [], img := [],
                                        deferred := [] } }
  let u := t.each (upTo 64) (fun u d => u.modDisp d (fun x => { x with quiesced := false }))
  u.devEvent 0x0602 2 err

/-- A load is BUSY (R400). -/
def State.trlBusy (s : State) : Bool :=
  match s.trl.st with
  | .idle | .done | .failed => false
  | _ => true

/-- A partial load whose changed partitions include `p` has passed step 6 and not yet applied it (R398). -/
def State.applying (s : State) (p : Nat) : Bool :=
  s.trl.partial_ && (s.trl.st = .scrub || s.trl.st = .apply) && s.trl.changed.contains p

/-- A partition reset begins, or a kill: one that meets a scrub of the partition adds nothing, but a kill widens a reset;
one that meets a partial load ends it with KILLED before step 6, and waits from there on, also where the load creates the partition
(R398, R502, R547, R559). -/
def State.resetPart (s : State) (p cause : Nat) (kill : Bool) : State :=
  match s.sec.scrubs.find? (·.part = p) with
  | some x =>
    if kill && !x.kill then
      let t := s.each (s.sessionsOf p) (fun t n => t.killSession n)
      ({ t with sec := { t.sec with scrubs := t.sec.scrubs.map (fun (y : Scrub) => if y.part = p then { y with kill := true } else y) } }).attest
        attKILL (some p)
    else s
  | none =>
    if s.applying p then
      { s with trl := { s.trl with deferred := s.trl.deferred ++ [(p, cause, kill)] } }
    else
      let t0 := if s.trl.partial_ && (s.trl.st = .verify || s.trl.st = .quiesce) && s.trl.changed.contains p then s.failLoad 10
        else if s.trl.st = .read then { s with trl := { s.trl with deferred := s.trl.deferred ++ [(p, cause, kill)] } }
        else s
      if (s.partRec p).isNone then t0
      else if kill then (t0.attest attKILL (some p)).beginScrub p true
      else (t0.partEvent p 0x0006 3 cause).beginScrub p false

/-- The partitions in force, ascending. -/
def State.parts (s : State) : List Nat := s.cfg.parts.map (·.1)

/-- A P-class event of a partition: its reset begins (R537). -/
def State.pEvent (s : State) (p : Nat) (e : Event) : State := (s.log { e with cls := 3, part := some p }).resetPart p prEVENT false

/-- A D-class event: DFAULT, and a reset of every partition; a partial load before its step 6 fails with KILLED (R538, R559). -/
def State.dEvent (s : State) (code detail : Nat) : State :=
  let u := s.devEvent code 4 detail
  let t := if u.trl.partial_ && (u.trl.st = .verify || u.trl.st = .quiesce) then u.failLoad 10 else u
  ({ t with evt := { t.evt with dfault := true } }).each s.parts (fun u p => u.resetPart p prDEVICE false)

/-- SRAM_UE of class P of a core's structure: a reset of the core's partition (R535, R557). (DEDUCED, log 104) -/
def State.sramP (s : State) (c st off : Nat) : State :=
  let e : Event := { code := 0x0003, cls := 3, core := some c, detail := pack [(8, st), (24, off), (32, 1)] }
  match s.partOf c with
  | some p => ((s.log { e with part := some p }).coreFault c).resetPart p prEVENT false
  | none => (s.log e).coreFault c

end Sys2Proof.Machine
end

