-- ==== Sys2Proof/Machine/Image.lean ====
section
/-! DEFINITION. The trellis image: its header, its sections, the configuration it spells, and the checks that refuse it
(R372 to R389, R446, R447). -/
namespace Sys2Proof.Machine

/-! ### Error codes (R400) -/

abbrev trlFORMAT : Nat := 1
abbrev trlLENGTH : Nat := 2
abbrev trlKEY : Nat := 3
abbrev trlSIG : Nat := 4
abbrev trlROLLBACK : Nat := 5
abbrev trlSECTION : Nat := 6
abbrev trlCONFIG : Nat := 7
abbrev trlBASE : Nat := 8
abbrev trlQUIESCE : Nat := 9
abbrev trlKILLED : Nat := 10
abbrev trlSOURCE : Nat := 11
abbrev trlPERMBUSY : Nat := 12

/-! ### Header (R373) -/

/-- Bytes `o` to `o + n - 1` of an image are 0. -/
def zeroAt (img : List Byte) (o n : Nat) : Bool := ((img.drop o).take n).all (· = 0)

/-- The image is PARTIAL. -/
def imgPartial (img : List Byte) : Bool := leAt img 6 1 = 1
/-- LENGTH. -/
def imgLength (img : List Byte) : Nat := leAt img 20 4

/-- MAGIC, FORMAT and every code and reserved bit of the header are as R373 has them. (DEDUCED, log 72) -/
def headerOk (img : List Byte) : Bool :=
  leAt img 0 4 = 0x534C5254 && leAt img 4 2 = 1 && leAt img 6 1 ≤ 1 && leAt img 7 1 < 64 && leAt img 24 2 < 4096 &&
  zeroAt img 32 32 &&
  (if imgPartial img then leAt img 28 4 ≤ 1000000 else zeroAt img 26 6 && zeroAt img 64 64)

/-- LENGTH fits its kind and the bytes read (R375). -/
def lengthOk (img : List Byte) (read : Nat) : Bool :=
  let n := imgLength img
  n ≤ read && n % 8 = 0 && 128 ≤ n && n ≤ (if imgPartial img then 256 * 1024 else 8 * 1024 * 1024)

/-! ### Sections (R372, R374) -/

/-- The sections from a place on: type, version and reserved byte, value, padding; none where one would end beyond the image. -/
def imgSections : Nat → List Byte → Option (List (Nat × Nat × List Byte × List Byte))
  | 0, bs => if bs.isEmpty then some [] else none
  | fuel + 1, bs =>
    if bs.isEmpty then some []
    else
      let n := leAt bs 4 4
      let m := ceilDiv n 8 * 8
      if bs.length < 8 + m then none
      else (imgSections fuel (bs.drop (8 + m))).map
        (fun l => (leAt bs 0 2, leAt bs 2 2, (bs.drop 8).take n, (bs.drop (8 + n)).take (m - n)) :: l)

/-- The sections of an image; its last bytes end one. -/
def sectionsOf (img : List Byte) : Option (List (Nat × Nat × List Byte × List Byte)) :=
  imgSections (img.length / 8) (img.drop 128)

/-- The value of the section of a type. -/
def sectionVal (l : List (Nat × Nat × List Byte × List Byte)) (t : Nat) : Option (List Byte) :=
  (l.find? (·.1 = t)).map (fun x => x.2.2.1)

/-- A section of a type is admitted in a kind of image. -/
def admits (part : Bool) (t : Nat) : Bool :=
  [0x0001, 0x0010, 0x0011, 0x0012, 0x0013, 0x0014, 0x0015, 0xFFFF].contains t ||
  (!part && [0x0020, 0x0030, 0x0040, 0x0050].contains t)

/-- The section types a kind of image must have. -/
def required (part : Bool) : List Nat :=
  if part then [0x0001, 0x0011, 0xFFFF] else [0x0001, 0x0010, 0x0011, 0x0012, 0x0014, 0x0015, 0x0020, 0x0050, 0xFFFF]

/-- A value cut into records of `n` bytes. -/
def recordsOf (n : Nat) (v : List Byte) : List (List Byte) := chunksOf n (v.length / n) v

/-- The elements of a list strictly rise. -/
def rising : List Nat → Bool
  | [] => true
  | [_] => true
  | x :: y :: l => x < y && rising (y :: l)

/-- A partition record's codes and reserved bits (R379): fields that its KIND does not use are 0, and a GRATE is no reserved
code (R135). -/
def partitionOk (part : Bool) (r : BitVec 256) : Bool :=
  match fld r 7 6 with
  | 0 => fld r 21 18 = 0 && fld r 31 29 = 0 && (part || !flag r 28) && fld r 63 49 = 0 && fld r 35 32 ≠ 13 && fld r 35 32 ≠ 14 &&
         fld r 95 78 = 0 && fld r 255 160 = 0
  | 1 => fld r 17 8 = 0 && fld r 21 18 ≠ 0 && fld r 31 29 = 0 && (part || !flag r 28) && fld r 63 49 = 0 &&
         fld r 35 32 ≠ 13 && fld r 35 32 ≠ 14 && fld r 95 78 = 0 && fld r 255 160 = 0
  | 2 => part && r.toNat = pack [(6, fld r 5 0), (2, 2)]
  | _ => false

/-- The codes of a wheel: each slot's owner up to `top` (R294). -/
def wheelCodes (top w : Nat) : Bool := (upTo 8).all (fun i => bits w (4 * i) 4 ≤ top)
/-- A WHEEL record's codes and reserved bits (R294, R295, R384). -/
def wheelOk (r : BitVec 128) : Bool :=
  fld r 15 8 = 0 && fld r 31 24 = 0 && fld r 127 96 = 0 && wheelCodes 3 (fld r 63 32) && wheelCodes 4 (fld r 95 64) &&
  fld r 19 16 ≤ 3 && fld r 23 20 ≤ 4

/-- A CELLAR record's codes and reserved bits (R386). -/
def regionOk (r : BitVec 256) : Bool :=
  fld r 63 48 = 0 && fld r 127 112 = 0 && !flag r 135 && !flag r 143 && fld r 155 154 ≠ 3 && fld r 159 157 = 0 &&
  fld r 255 160 = 0

/-- A TCHIUTH port entry (R387). -/
def portOk (e : BitVec 64) : Bool := fld e 22 20 ≤ 5 && fld e 63 23 = 0

/-- A group record's number, partition, parent, port, digest and children (R387). -/
abbrev GroupRec := Nat × Group

/-- Group records from a place on; none where they do not fit together or hold a reserved bit. -/
def groupRecords : Nat → List Byte → Option (List GroupRec)
  | 0, bs => if bs.isEmpty then some [] else none
  | fuel + 1, bs =>
    if bs.isEmpty then some []
    else
      let a := leAt bs 0 4
      let n := bits (leAt bs 4 1) 0 4
      let kids := (upTo n).map (fun i => leAt bs (16 + 4 * i) 4)
      if bs.length < 16 + 4 * n || bits a 14 2 ≠ 0 || 2 ^ 31 ≤ a || leAt bs 4 4 ≠ n || kids.any (fun k => bits k 12 20 > 5) then none
      else (groupRecords fuel (bs.drop (16 + 4 * n))).map (fun l =>
        (bits a 0 8, { valid := true, part := bits a 8 6, parent := bits a 16 12, pport := bits a 28 3, tdigest := leAt bs 8 8
                       kids := kids.map (fun k => (bits k 0 12, bits k 12 3)) }) :: l)

/-- Port blocks from a place on (R388); none where they do not fit together or hold a reserved bit. -/
def ethBlocks : Nat → List Byte → Option (List Eth)
  | 0, bs => if bs.isEmpty then some [] else none
  | fuel + 1, bs =>
    let n := leAt bs 24 2
    let entry (i : Nat) : List Byte := (bs.drop (40 + 8 * i)).take 8
    let rows := (upTo n).map entry
    if bs.length < 40 + 8 * n || 3 < leAt bs 0 1 || !zeroAt bs 1 3 || 2 ^ 24 ≤ leAt bs 4 4 ||
      !zeroAt bs 26 14 || rows.any (fun r => !zeroAt r 1 3) then none
    else (ethBlocks fuel (bs.drop (40 + 8 * n))).map (fun l =>
      { speed := leAt bs 0 1, qmap := leAt bs 4 4, owners := leAt bs 8 8, cycle := leAt bs 16 4, baseofs := leAt bs 20 4
        gcl := rows.map (fun r => (leAt r 0 1, leAt r 4 4)) } :: l)

/-- A section's value has a length, codes and reserved bits of its type (R374, R375). -/
def valueOk (part : Bool) (t : Nat) (v : List Byte) : Bool :=
  let n := v.length
  match t with
  | 0x0001 => n = 133 && leAt v 0 1 = 4
  | 0x0010 => n = 32
  | 0x0011 => n % 32 = 0 && 0 < n && n ≤ 64 * 32 && (recordsOf 32 v).all (fun r => partitionOk part (BitVec.ofNat 256 (ofLe r)))
  | 0x0012 => n = 64 && (upTo 256).all (fun c => bits (ofLe v) (2 * c) 2 ≠ 3)
  | 0x0013 => n % 16 = 0 && n ≤ 256 * 16 && (recordsOf 16 v).all (fun r => wheelOk (BitVec.ofNat 128 (ofLe r)))
  | 0x0014 => n = 256 && (recordsOf 4 v).all (fun r => ofLe r < 2 ^ 16 && bits (ofLe r) 6 3 ≠ 7)
  | 0x0015 => n = 256 && (recordsOf 4 v).all (fun r => ofLe r < 2 ^ 7)
  | 0x0020 => n % 32 = 0 && 0 < n && n ≤ 1024 * 32 && (recordsOf 32 v).all (fun r => regionOk (BitVec.ofNat 256 (ofLe r)))
  | 0x0030 => 48 ≤ n && (recordsOf 8 (v.take 48)).all (fun e => portOk (BitVec.ofNat 64 (ofLe e))) &&
              (match groupRecords 256 (v.drop 48) with | some _ => true | none => false)
  | 0x0040 => match ethBlocks 4 v with | some l => l.length = 4 | none => false
  | 0x0050 => n = 64 && zeroAt v 12 4
  | 0xFFFF => n = 132
  | _ => false

/-- Structure of the sections: ascending, admitted, complete, each of version 1 with no reserved bit, each value as its type
has it (R372, R374, R375). (DEDUCED, log 72) -/
def sectionsOk (part : Bool) (l : List (Nat × Nat × List Byte × List Byte)) : Bool :=
  rising (l.map (·.1)) && l.all (fun x => admits part x.1 && x.2.1 = 1 && x.2.2.2.all (· = 0) && valueOk part x.1 x.2.2.1) &&
  (required part).all (fun t => l.any (·.1 = t))

/-! ### The configuration (R379 to R389) -/

/-- A table of records by a key; the default is 0. -/
def tableOf {w : Nat} (l : List (Nat × BitVec w)) (m : Sparse (BitVec w)) : Sparse (BitVec w) :=
  l.foldl (fun m x => Sparse.put 0 m x.1 x.2) m

/-- A value as an array of 32-bit words by index. -/
def wordsOf (v : List Byte) : Sparse W32 :=
  let l := recordsOf 4 v
  tableOf ((upTo l.length).zip (l.map (fun r => BitVec.ofNat 32 (ofLe r)))) []

/-- The partition records of an image. -/
def recsOf (v : List Byte) : List (Nat × BitVec 256) :=
  (recordsOf 32 v).map (fun r => let b := BitVec.ofNat 256 (ofLe r); (fld b 5 0, b))

/-- A region from its record (R386). -/
def regionFrom (r : BitVec 256) : Region :=
  { base := fld r 47 0, size := fld r 111 64, part := fld r 133 128, hub := flag r 134, group := fld r 141 136
    nocache := flag r 142, kslot := fld r 153 144, ksrc := fld r 155 154, zkill := flag r 156 }

/-- The wheel records of an image, by core. -/
def wheelRecs (v : List Byte) : List (Nat × BitVec 128) :=
  (recordsOf 16 v).map (fun r => let b := BitVec.ofNat 128 (ofLe r); (fld b 7 0, b))

/-- The configuration that a full image spells. -/
def fullCfg (img : List Byte) (l : List (Nat × Nat × List Byte × List Byte)) : Cfg :=
  let v (t : Nat) : List Byte := (sectionVal l t).getD []
  { parts := tableOf (recsOf (v 0x0011)) []
    fence := BitVec.ofNat 256 (ofLe (v 0x0010))
    shape := BitVec.ofNat 512 (ofLe (v 0x0012))
    wheels := tableOf (wheelRecs (v 0x0013)) []
    pantry := wordsOf (v 0x0014)
    disps := wordsOf (v 0x0015)
    regions := (recordsOf 32 (v 0x0020)).map (fun r => regionFrom (BitVec.ofNat 256 (ofLe r)))
    tports := tableOf ((upTo 6).zip ((recordsOf 8 ((v 0x0030).take 48)).map (fun e => BitVec.ofNat 64 (ofLe e)))) []
    groups := ((groupRecords 256 ((v 0x0030).drop 48)).getD []).foldl (fun m x => Sparse.put {} m x.1 x.2) []
    eths := ((upTo 4).zip ((ethBlocks 4 (v 0x0040)).getD [])).foldl (fun m x => Sparse.put {} m x.1 x.2) []
    meter := BitVec.ofNat 512 (ofLe (v 0x0050))
    devid := leAt img 24 2, imgver := BitVec.ofNat 64 (leAt img 8 8), rbidx := leAt img 7 1, rbval := leAt img 16 4
    pseq := 0, hash := digestOf img, phash := 0 }

/-- The configuration that a partial image makes of one in force: its records replace or delete partitions; FENCE, SHAPE,
PANTRY and DISPENSER give whole tables; a core that changes its partition keeps no wheel record of an earlier image (R374, R379, R383,
R384, R397). -/
def partialCfg (g : Cfg) (img : List Byte) (l : List (Nat × Nat × List Byte × List Byte)) : Cfg :=
  let v (t : Nat) : Option (List Byte) := sectionVal l t
  let rs := recsOf ((v 0x0011).getD [])
  let named : Sparse (BitVec 256) :=
    rs.foldl (fun m x => if fld x.2 7 6 = 2 then Sparse.erase x.1 m else Sparse.put 0 m x.1 x.2) g.parts
  let new : Cfg := { g with parts := named }
  { new with
    fence := match v 0x0010 with | some b => BitVec.ofNat 256 (ofLe b) | none => g.fence
    shape := match v 0x0012 with | some b => BitVec.ofNat 512 (ofLe b) | none => g.shape
    wheels := tableOf (wheelRecs ((v 0x0013).getD []))
      (g.wheels.filter (fun x => new.partOfBlock (blockOf x.1) = g.partOfBlock (blockOf x.1)))
    pantry := match v 0x0014 with | some b => wordsOf b | none => g.pantry
    disps := match v 0x0015 with | some b => wordsOf b | none => g.disps
    pseq := g.pseq + 1, phash := digestOf img }

/-! ### Validity of a configuration (R380 to R389, R446, R447) -/

/-- SHAPE of a core. -/
def Cfg.shapeOf (g : Cfg) (c : Nat) : Nat := bits g.shape.toNat (2 * c) 2
/-- The partition a valid Pantry group names. -/
def Cfg.groupPart (g : Cfg) (k : Nat) : Option Nat :=
  let w := (Sparse.get 0 g.pantry k).toNat
  if w.testBit 9 then some (bits w 10 6) else none
/-- The partition a valid dispenser names. -/
def Cfg.dispPart (g : Cfg) (d : Nat) : Option Nat :=
  let w := (Sparse.get 0 g.disps d).toNat
  if w.testBit 6 then some (bits w 0 6) else none
/-- A partition exists. -/
def Cfg.has (g : Cfg) (p : Nat) : Bool := g.parts.any (·.1 = p)
/-- The slices of a Pantry group word. -/
def slicesOf (w : W32) : List Nat := (upTo (2 ^ bits w.toNat 6 3)).map (bits w.toNat 0 6 + ·)

/-- The list holds no element twice. (DEDUCED, log 72) -/
def distinct : List Nat → Bool
  | [] => true
  | x :: l => !l.contains x && distinct l

/-- A partition record in range: a rectangle within its quadrant, a window of 1 to 10,000 ms (R375, R379). -/
def partInRange (r : BitVec 256) : Bool :=
  (fld r 7 6 ≠ 0 || (fld r 11 10 + fld r 15 14 ≤ 3 && fld r 13 12 + fld r 17 16 ≤ 3)) && 1 ≤ fld r 77 64 && fld r 77 64 ≤ 10000

/-- Partitions: records in range, blocks held once, an enabled core each, one SHAPE, a dispenser each (R379, R380). -/
def Cfg.partsOk (g : Cfg) : Bool :=
  g.parts.all (fun x => partInRange x.2) &&
  (upTo 64).all (fun k => ((g.parts.filter (fun x => partCovers x.2 k)).length ≤ 1)) &&
  g.parts.all (fun x =>
    let en := (g.coresOf x.1).filter g.enabled
    en ≠ [] && en.all (fun c => g.shapeOf c = g.shapeOf (en.headD 0)) && (upTo 64).any (fun d => g.dispPart d = some x.1))

/-- Pantry groups and dispensers name partitions; groups are aligned and share no slice (R309, R380). (DEDUCED, log 72) -/
def Cfg.tablesOk (g : Cfg) : Bool :=
  let gs := (upTo 64).filter (fun k => (g.groupPart k).isSome)
  (upTo 64).all (fun k => match g.groupPart k with | some p => g.has p | none => true) &&
  (upTo 64).all (fun d => match g.dispPart d with | some p => g.has p | none => true) &&
  gs.all (fun k => let w := (Sparse.get 0 g.pantry k).toNat; bits w 0 6 % 2 ^ bits w 6 3 = 0) &&
  distinct (gs.flatMap (fun k => slicesOf (Sparse.get 0 g.pantry k)))

/-- The WHEELA of each record names the DMA and its WHEELB the sequencer (R384). -/
def wheelsOk (l : List (Nat × BitVec 128)) : Bool :=
  l.all (fun x => (upTo 8).any (fun i => bits (fld x.2 63 32) (4 * i) 4 = 2) &&
                  (upTo 8).any (fun i => bits (fld x.2 95 64) (4 * i) 4 = 4))

/-- Two regions overlap. -/
def Region.meets (a b : Region) : Bool := a.base < b.base + b.size && b.base < a.base + a.size
/-- No region meets a later one. -/
def regionsApart : List Region → Bool
  | [] => true
  | r :: l => l.all (fun q => !r.meets q) && regionsApart l

/-- Regions: multiples of 2 MiB, apart, a partition or the hub as owner, distinct key slots (R386). (DEDUCED, log 72) -/
def Cfg.regionsOk (g : Cfg) : Bool :=
  let mb := 2 * 1024 * 1024
  g.regions.all (fun r => r.base % mb = 0 && r.size % mb = 0 && mb ≤ r.size && (!r.hub || r.part = 0)) &&
  regionsApart g.regions && distinct ((g.regions.filter (·.ksrc ≠ 2)).map (·.kslot))

/-- Regions lie within an installed capacity (R386). (DEDUCED, log 73) -/
def Cfg.fitsIn (g : Cfg) (n : Nat) : Bool := g.regions.all (fun r => r.base + r.size ≤ n)

/-- A gate list: 0 to 256 entries of 32 ns to 1 s that sum to a CYCLE of 1 us to 1 s (R446, R447).
(DESIGN CHOICE, log 115) -/
def Eth.gatesOk (e : Eth) : Bool :=
  e.gcl.length ≤ 256 && (e.gcl.isEmpty && (e.cycle = 0 || (1000 ≤ e.cycle && e.cycle ≤ 1000000000)) ||
  (1000 ≤ e.cycle && e.cycle ≤ 1000000000 && (e.gcl.map (·.2)).sum = e.cycle &&
   e.gcl.all (fun x => 32 ≤ x.2 && x.2 ≤ 1000000000)))

/-- PCAP and PPEAK (R389). -/
def meterOk (m : BitVec 512) : Bool :=
  100 ≤ fld m 79 64 && fld m 79 64 ≤ 750 && fld m 79 64 ≤ fld m 95 80 && fld m 95 80 ≤ 900

/-- A configuration breaks no rule (R380, R382 to R389, R447). (DEDUCED, log 72) -/
def Cfg.valid (g : Cfg) : Bool :=
  g.partsOk && g.tablesOk && wheelsOk g.wheels && g.regionsOk && g.eths.all (fun x => x.2.gatesOk) && meterOk g.meter

/-! ### Partial images (R378, R382 to R384) -/

/-- A core is in one of some partitions in one of two configurations. -/
def inEither (a b : Cfg) (ps : List Nat) (c : Nat) : Bool :=
  [a, b].any (fun g => match g.partOfBlock (blockOf c) with | some p => ps.contains p | none => false)

/-- What a partial image changes belongs to its partitions; a FENCE bit is never set again; wheels name their cores only
(R382 to R384). -/
def partialKeeps (old new : Cfg) (ps cores : List Nat) : Bool :=
  let mine (o : Option Nat) : Bool := match o with | some p => ps.contains p | none => false
  (upTo 256).all (fun c =>
    (old.enabled c || !new.enabled c) && (old.enabled c = new.enabled c || inEither old new ps c) &&
    (old.shapeOf c = new.shapeOf c || inEither old new ps c)) &&
  (upTo 64).all (fun k => Sparse.get 0 old.pantry k = Sparse.get 0 new.pantry k ||
    mine (old.groupPart k) || mine (new.groupPart k)) &&
  (upTo 64).all (fun d => Sparse.get 0 old.disps d = Sparse.get 0 new.disps d ||
    mine (old.dispPart d) || mine (new.dispPart d)) &&
  cores.all (fun c => inEither old new ps c)

/-- A partial image fits the running configuration; a bare device runs no full image (R378, R551). (DEDUCED, log 72) -/
def baseOk (g : Cfg) (img : List Byte) : Bool :=
  g.hash ≠ 0 && leAt img 64 64 = g.hash.toNat && leAt img 26 2 = g.pseq && leAt img 24 2 = g.devid && g.imgver.toNat ≤ leAt img 8 8

end Sys2Proof.Machine
end

