-- ==== Sys2Proof/Machine/Perm.lean ====
section
/-! DEFINITION. Who may reach a register (R2, R30 to R32, R118, R445, R460, R463, R496, R501). -/
namespace Sys2Proof.Machine

/-- The session is OPEN and holds a right (R462). (DEDUCED, log 98) -/
def State.hasRight (s : State) (n k : Nat) : Bool := (s.sess n).st = .opened && (s.sess n).rights.testBit k

/-- A session opened the owner debug level for itself (R462, R496). (DEDUCED, log 26) -/
def State.debugSession (s : State) (n : Nat) : Bool := s.sec.dbg.testBit 0 && s.sec.dbgSession = some n

/-- The block of a register can be reached: a core that is not fenced, powered and not SCRUBBING; a hub block while the hub is
powered, the Porch's always (R30, R32, R501). -/
def State.blkOpen (s : State) (x : RegRef) : Bool :=
  if x.n.row.b.isCore then s.coreOpen x.c else x.n.row.b = .prc || s.hubOn

/-- A requester may reach a core's registers: the hub firmware and the Porch; a core of its partition; a session of its
partition with CTRL, or to read with its debug level (R460, R463, R496). (DEDUCED, log 26) -/
def State.mayCore (s : State) (r : Req) (c : Nat) (wr : Bool) : Bool :=
  match r with
  | .hub | .porch | .mgmt _ => true
  | .core d => d.val = c || ((s.partOf c).isSome && s.partOf d.val = s.partOf c)
  | .session n => s.partOf c = some (s.sess n.val).part && (s.hasRight n.val 0 || (!wr && s.debugSession n.val))
  | .remote _ => false

/-- A requester may reach a hub register: the hub firmware and the Porch; a core to read, but for the loader's and the event
block; a session with CTRL to write the registers of a dispenser that its partition owns,
as a REG entry of SUBMIT, and to read none (R2, R445, R460, R463; DEDUCED, log 26). -/
def State.mayHub (s : State) (r : Req) (x : RegRef) (wr : Bool) : Bool :=
  match r with
  | .hub | .porch | .mgmt _ => true
  | .core _ => !wr && x.n.row.b ≠ .trl && x.n.row.b ≠ .evt
  | .session n => wr && x.n.row.b = .sdt && 1 < x.n.row.cnt && s.hasRight n.val 0 && s.dispPart x.i = some (s.sess n.val).part
  | .remote _ => false

/-- A requester may make a register access. (DEDUCED, log 26; DEDUCED, log 27) -/
def State.mayReg (s : State) (r : Req) (x : RegRef) (wr : Bool) : Bool :=
  s.blkOpen x && (if x.n.row.b.isCore then s.mayCore r x.c wr else s.mayHub r x wr)

/-- A write of a register by a requester does what it does, or is refused (R30). -/
def State.atReg (s : State) (r : Req) (n : RegName) (c i : Nat) (f : State → State) : State :=
  if s.mayReg r { n := n, c := c, i := i, j := 0, hi := false } true then f s else s.refuse r (regAddr n c i 0)

end Sys2Proof.Machine
end

