-- ==== Sys2Proof/Machine/PantryOps.lean ====
section
/-! DEFINITION. The Pantry's maintenance operations and counter selection (R291, R310, R311). -/
namespace Sys2Proof.Machine

/-- Every dirty line of a slice group written back; its lines stay clean (R291). -/
def State.writeBackGroup (s : State) (g : Nat) : State :=
  s.each (s.pnt.lines.filter (fun x => s.inGroup g (x.1 / 16 / 768))) (fun t x =>
    match x.2 with
    | some y => if y.dirty then (t.writeBack y).setWay (x.1 / 16) (x.1 % 16) (some { y with dirty := false }) else t
    | none => t)

/-- The lines of a slice group invalidated and zeroed (R291). (DESIGN CHOICE, log 49) -/
def State.invalidateGroup (s : State) (g : Nat) : State := s.dropLines (s.inGroup g)

/-- A maintenance operation takes effect on its group: WB and WBINV when they end, INVZ as it starts (R291). -/
def State.pantryDo (s : State) (o : POp) (g : Nat) : State :=
  match o with
  | .wb => s.writeBackGroup g
  | .wbinv => (s.writeBackGroup g).invalidateGroup g
  | .invz => s.invalidateGroup g

/-- A write of PNT_OPCTL starts an operation, or none; while one runs it is dropped with an access event (R291, R310). An access to
a group whose INVZ runs waits for its end: it finds the lines as INVZ leaves them. (DESIGN CHOICE, log 49) -/
def State.pantryStart (s : State) (r : Req) (o : Option POp) (g : Nat) : State :=
  if s.pantryRuns.isSome then s.access r (regAddr .pntOpctl 0 0 0)
  else match o with
    | none => s
    | some o =>
      let t := { s with pnt := { s.pnt with op := some (o, g), lastGroup := g } }
      if o = .invz then t.pantryDo .invz g else t

/-- PANTRY_WB. -/
def execPantryWb (r : Req) (g : Fin 64) (s : State) : Host.Outcome State Fault Refusal :=
  .next (s.atReg r .pntOpctl 0 0 (·.pantryStart r (some .wb) g.val))
/-- PANTRY_WBINV. -/
def execPantryWbinv (r : Req) (g : Fin 64) (s : State) : Host.Outcome State Fault Refusal :=
  .next (s.atReg r .pntOpctl 0 0 (·.pantryStart r (some .wbinv) g.val))
/-- PANTRY_INVZ. -/
def execPantryInvz (r : Req) (g : Fin 64) (s : State) : Host.Outcome State Fault Refusal :=
  .next (s.atReg r .pntOpctl 0 0 (·.pantryStart r (some .invz) g.val))

/-- A running operation of a sequence ends: the INVZ of a scrub, the WBINV of a partial load (R393 step 8), that of D3
entry (R511). -/
def State.pantryNext (s : State) : State :=
  let ended (g : Nat) (t : State) : State := { t with pnt := { t.pnt with lastGroup := g } }
  match s.sec.scrubs.find? (fun x => x.invz ≠ []) with
  | some x =>
    ended (x.invz.headD 0) { s with sec := { s.sec with scrubs := s.sec.scrubs.map (fun (y : Scrub) =>
      if y = x then { y with invz := y.invz.drop 1 } else y) } }
  | none => match s.trl.wbinv with
    | g :: rest => let t := s.pantryDo .wbinv g; ended g { t with trl := { t.trl with wbinv := rest } }
    | [] => match s.prc.d3ops with
      | g :: rest => let t := s.pantryDo .wbinv g; ended g { t with prc := { t.prc with d3ops := rest } }
      | [] => s

/-- PANTRY_OP_DONE: the operation that PNT_OPCTL started has walked its slices; with none running, that of a sequence
(R291). (DESIGN CHOICE, log 9; DESIGN CHOICE, log 49) -/
def execPantryOpDone (s : State) : Host.Outcome State Fault Refusal :=
  match s.pnt.op with
  | some (o, g) => let t := if o = .invz then s else s.pantryDo o g; .next { t with pnt := { t.pnt with op := none } }
  | none => .next s.pantryNext

/-- A write of PNT_CNTSEL: both counts start from 0 (R311). -/
def State.cntsel (s : State) (g : Nat) : State :=
  ((s.setRg .pntCntsel 0 0 0 (BitVec.ofNat 32 g)).setRg64 .pntHit 0 0 0 0).setRg64 .pntMiss 0 0 0 0
/-- PANTRY_CNTSEL. -/
def execPantryCntsel (r : Req) (g : Fin 64) (s : State) : Host.Outcome State Fault Refusal :=
  .next (s.atReg r .pntCntsel 0 0 (·.cntsel g.val))

end Sys2Proof.Machine
end

