-- ==== Sys2Proof/Machine/Ports.lean ====
section
/-! DEFINITION. Tchiuth ports as they go DOWN and begin training (R415 to R417, R433, R442). -/
namespace Sys2Proof.Machine

/-- The partition that owns a Tchiuth port; none for a port marked HUB or not enabled (R387). -/
def State.portPart (s : State) (p : Nat) : Option Nat :=
  let e := s.portCfg p
  if flag e 7 && !flag e 6 then some (fld e 5 0) else none

/-- A port leaves UP or TRAINING: what it kept is lost, but for the packets that it has acknowledged; leaving UP is counted, raised, and aborts the groups whose tree uses
the port (R417, R433). `to` is the state it takes. (DEDUCED, log 80) -/
def State.portDown (s : State) (p err : Nat) (tout : PortSt) : State :=
  let was := (s.port p).st
  let t := s.modPort p (fun x => { st := tout, err := err, peer := x.peer, peerPort := x.peerPort, rtt := x.rtt,
                                   tries := x.tries, rxq := x.rxq })
  if was = .up then
    let u := (t.count .tchDown 0 p 1).log { code := 0x0802, cls := 2, part := s.portPart p, detail := pack [(3, p), (3, err)] }
    u.each (u.tch.groups.map (·.1)) (fun v g => v.linkGroup g p)
  else t

/-- A port whose image entry has EN set trains; any other stays DOWN (R416). (DEDUCED, log 75) -/
def State.portTrain (s : State) (p : Nat) : State :=
  let t := s.portDown p 0 (if flag (s.portCfg p) 7 then .training else .down)
  t.modPort p (fun x => { x with tries := 0 })

end Sys2Proof.Machine
end

