-- ==== Sys2Proof/Machine/SeedTray.lean ====
section
/-! DEFINITION. The Seed Tray's commands: a LAYER's answer, claims served, commits resolved, partial sums, and BUMP, REWIND and
DISARM (R205, R206, R322 to R331, R351, R352, R354, R396). -/
namespace Sys2Proof.Machine

/-! ### Arming and joining (R322, R351, R352, R354) -/

/-- The partition's default regime: STAGED for 32 cores or more (R97). (DEDUCED, log 64) -/
def State.defRegime (s : State) (p : Option Nat) : Nat :=
  match p with
  | some p => if 32 ≤ (s.coresOf p).length then staged else wide48
  | none => wide48

/-- The dispenser arms for a context: seeds that the descriptor leaves to the device are drawn now (R322, R354, R396). -/
def State.arm (s : State) (d : Nat) (x : Ctx) : State :=
  let src := Desc.seedsrc x.desc
  let (a, s1) := if src.testBit 0 then s.draw else (Desc.lseed x.desc, s)
  let (b, s2) := if src.testBit 1 then s1.draw else (Desc.gseed x.desc, s1)
  ((s2.dropSums d).modDisp d (fun y => { y with
    st := .armed, lseq := Desc.lseq x.desc, complete := false, desc := x.desc, alen := x.alen, bkt := x.bkt
    epoch := (y.epoch + 1) % 65536, next := 0, queue := [], parts := [], done := 0, retry := 0, spec := 0, floor := 0
    guard := false, escd := false, defreg := s.defRegime (s.dispPart d)
    lseed := BitVec.ofNat 64 a, gseed := BitVec.ofNat 64 b })).settle d

/-- The dispenser's answer makes the descriptor the core's current context (R351, R352). -/
def State.enterCtx (s : State) (c : Nat) (x : Ctx) : State :=
  let y := s.disp (Desc.disp x.desc)
  (s.modCore c (fun k =>
    let keep := k.seq.ctxs.filter (fun z => !k.retired z.id)
    { k with seq := { k.seq with
        ctxs := keep ++ [{ x with id := k.seq.nextCtx, defreg := y.defreg, lseed := y.lseed, gseed := y.gseed }]
        nextCtx := k.seq.nextCtx + 1 } })).seqDone c

/-- The dispenser holds a layer that a LAYER joins: its LSEQ, armed, draining or complete (R322). -/
def Disp.joins (y : Disp) (lseq : Nat) : Bool := (y.st ≠ .idle || y.complete) && y.lseq = lseq

/-- What the dispenser answers a presented LAYER: it joins, is refused for its ALEN, arms, or waits for IDLE (R322). -/
def State.present (s : State) (c : Nat) (x : Ctx) : State :=
  let d := Desc.disp x.desc
  let y := s.disp d
  if y.joins (Desc.lseq x.desc) then
    if Desc.bdim x.desc ≠ 0 && y.alen ≠ x.alen then s.seqRefuse c 0x01 rALEN else s.enterCtx c x
  else if y.st = .idle then (s.arm d x).enterCtx c x
  else (s.modDisp d (fun y => { y with waiting := y.waiting.filter (· ≠ c) ++ [c] })).modSeq c (fun q => { q with wait := .layerBusy x })

/-- DISPENSER_PRESENT: the dispenser answers the LAYER that the core has presented (R322, R351). -/
def execDispenserPresent (c : CoreId) (s : State) : Host.Outcome State Fault Refusal :=
  match (s.core c.val).seq.wait with
  | .present x => if s.coreOpen c.val then .next (s.present c.val x) else .next s
  | _ => .next s

/-- A LAYER that waits can be answered: the dispenser is IDLE, or holds its LSEQ by now. -/
def State.layerReady (s : State) (d c : Nat) : Option Ctx :=
  match (s.core c).seq.wait with
  | .layerBusy x => if (s.disp d).st = .idle || (s.disp d).joins (Desc.lseq x.desc) then some x else none
  | _ => none

/-- DEFERRED_ARM: the dispenser answers the oldest LAYER that waited for it and can now go on (R322). -/
def execDeferredArm (d : DispId) (s : State) : Host.Outcome State Fault Refusal :=
  match ((s.disp d.val).waiting.filterMap (fun c => (s.layerReady d.val c).map (fun x => (c, x)))).head? with
  | some (c, x) =>
    .next ((s.modDisp d.val (fun y => { y with waiting := y.waiting.filter (· ≠ c) })).present c x)
  | none => .next s

/-! ### Claims (R324 to R326) -/

/-- Output tiles with parts outstanding: a part claimed, or some parts accepted (R328). -/
def State.partsOut (s : State) (d : Nat) : List Nat :=
  let x := s.disp d
  ((((s.liveClaims d).filter (fun y => !y.close)).map (fun y => x.part0 y.tile)) ++ x.parts.map (·.1)).eraseDups

/-- Output rows of a tile within the actual lengths, numbered over the bucket's rows (R206). -/
def Disp.hubRows (x : Disp) (tile : Nat) : List Nat :=
  match x.space.coords tile with
  | some (b, tm, _, _) =>
    (upTo (min (Desc.mt x.desc) (Desc.mA x.desc x.alen - tm * Desc.mt x.desc))).map (fun r =>
      b * Desc.mB x.desc x.alen + tm * Desc.mt x.desc + r)
  | none => []

/-- The hub merge holds entries for a dispenser's layer: index-match with a K-split (R206). -/
def Disp.hubbed (x : Disp) : Bool := Desc.imatch x.desc && 0 < Desc.ksplit x.desc

/-- Rows of a tile that have no entry yet. -/
def State.hubNew (s : State) (d tile : Nat) : List Nat :=
  ((s.disp d).hubRows tile).filter (fun r => !s.sdt.hub.any (fun y => y.disp = d && y.row = r && !y.full))

/-- The item a claim would take: the oldest of the queue, else the counter's tile. -/
def Disp.item (x : Disp) : Option QItem :=
  match x.queue with
  | q :: _ => some q
  | [] => if x.nextTile < x.space.size then some { tile := x.nextTile } else none

/-- No table has room for what a tile would open (R206, R328). -/
def State.tablesFull (s : State) (d : Nat) (q : QItem) : Bool :=
  let x := s.disp d
  (x.split && !q.close && !(s.partsOut d).contains (x.part0 q.tile) && 2048 ≤ (s.partsOut d).length) ||
  (x.hubbed && 4096 < (s.sdt.hub.filter (fun y => !y.full)).length + (s.hubNew d q.tile).length)

/-- STATUS of a claim before the Meter, in the order NOLAYER, DONE, LATER, FULL; 0 where none applies (R324). -/
def State.claimStatus (s : State) (d c : Nat) : Nat :=
  let x := s.disp d
  if !x.joins (Desc.lseq ((s.curCtx c).getD {}).desc) then 3
  else if x.st = .idle then 1
  else match x.item with
    | none => if s.liveClaims d = [] then 1 else 2
    | some q =>
      if s.tablesFull d q then 2
      else if 8 ≤ (s.sdt.claims.filter (·.core = c)).length then 4
      else 0

/-- The record of an item (R324, R328). -/
def Disp.record (x : Disp) (q : QItem) : CRec :=
  match x.space.coords q.tile with
  | some (b, tm, tn, tk) => mkRec q.tile x.epoch 0 x.floor x.guard q.close (if q.close then 0 else tk) b tm tn x.bkt
  | none => mkRec q.tile x.epoch 0 x.floor x.guard q.close 0 0 0 0 x.bkt

/-- The item leaves the dispenser, the counter passes the tiles that are beyond, and its entry opens (R325). -/
def State.takeItem (s : State) (d c h : Nat) (q : QItem) : State :=
  let x := s.disp d
  let rows := if x.hubbed then s.hubNew d q.tile else []
  let t := s.modDisp d (fun y => { y with
    queue := y.queue.drop 1, next := if y.queue = [] then Disp.nextTile { y with next := q.tile + 1 } else y.next })
  let e : Claim := { core := c, h := h, disp := d, tile := q.tile, close := q.close, epoch := x.epoch }
  ({ t with sdt := { t.sdt with
      claims := t.sdt.claims ++ [e]
      hub := t.sdt.hub ++ rows.map (fun r => ({ disp := d, row := r, cnt := 0 } : HubRow)) } }).settle d

/-- A claim taken out of the dispenser's list. -/
def State.dropClaim (s : State) (d : Nat) (r : ClaimReq) : State :=
  s.modDisp d (fun y => { y with claims := y.claims.filter (fun z => z ≠ r) })

/-- The claim at the head is answered, or held by the Meter (R324 to R326, R525). -/
def State.serveClaim (s : State) (d : Nat) (r : ClaimReq) : State :=
  let x := s.disp d
  let st := s.claimStatus d r.core
  if st ≠ 0 then
    (s.dropClaim d r).answerClaim r.core r.h (mkRec 0 0 st x.floor x.guard false 0 0 0 0 0)
  else match x.item with
    | none => s
    | some q =>
      let rec_ := x.record q
      let w := Desc.rung x.desc (max ((s.curCtx r.core).getD {}).nextRung x.floor)
      let e := s.estimate x.desc x.alen rec_ w
      if s.admits r.core e then
        ((((s.dropClaim d r).spendOn r.core e).takeItem d r.core r.h q)).answerClaim r.core r.h rec_
      else s.modDisp d (fun y => { y with claims := y.claims.map (fun z => if z = r then { z with held := true } else z) })

/-- CLAIM_SERVE: the dispenser serves its oldest claim; a held one waits for the Meter, and the later ones behind it (R325,
R326, R393). -/
def execClaimServe (d : DispId) (s : State) : Host.Outcome State Fault Refusal :=
  match (s.disp d.val).claims with
  | r :: _ => if r.held || (s.disp d.val).quiesced then .next s else .next (s.serveClaim d.val r)
  | [] => .next s

/-! ### Commits (R205, R327, R328) -/

/-- PREC_MISMATCH in the partition tree (R123, R542). -/
def State.treeMismatch (s : State) (c d tile epoch : Nat) (x y : PartSum) : State :=
  s.log { code := 0x0102, cls := 2, part := s.partOf c, core := some c, tile := tile, epoch := epoch, disp := d,
          detail := pack [(6, x.ptag), (2, x.regime), (6, y.ptag), (2, y.regime)] }

/-- The partials of an accepted part join its output tile's sum, with SAT where an addition clamps and LONG where an output has
received more partials than its length (R107, R108, R121); different tags or anchors are refused with POISON on the
sum (R123, R328). -/
def State.addPart (s : State) (c d : Nat) (p : PartSum) : State :=
  let k := (s.disp d).part0 p.tile
  let t := { s with sdt := { s.sdt with partSums := s.sdt.partSums.filter (· ≠ p) } }
  match t.sdt.sums.find? (fun y => y.disp = d && y.tile = k) with
  | none => { t with sdt := { t.sdt with sums := t.sdt.sums ++ [{ p with tile := k }] } }
  | some y =>
    let put (z : PartSum) (u : State) : State :=
      { u with sdt := { u.sdt with sums := u.sdt.sums.map (fun w => if w = y then z else w) } }
    if y.ptag = p.ptag && y.regime = p.regime && sameAnchors y.acc p.acc then
      let acc := (y.acc.zip p.acc).map (fun z => z.1.join y.regime z.2)
      put { y with flags := y.flags ||| p.flags ||| pack [(1, b2n (acc.any (·.sat))), (1, b2n (acc.any (·.tooLong y.regime)))],
                   acc := acc } t
    else put { y with flags := y.flags ||| 32 } (t.treeMismatch c d k p.epoch y p)

/-- An accepted part is counted; the last one places the close item at the head of the return queue (R328). -/
def State.countPart (s : State) (d tile : Nat) : State :=
  let x := s.disp d
  let k := x.part0 tile
  let n := Sparse.get 0 x.parts k + 1
  s.modDisp d (fun y =>
    if n = x.issuedParts then { y with parts := Sparse.put 0 y.parts k 0, queue := { tile := k, close := true } :: y.queue }
    else { y with parts := Sparse.put 0 y.parts k n })

/-- An accepted part counts toward its rows in the hub merge; a row whose last part it is is full (R206). -/
def State.countHub (s : State) (c h d tile : Nat) : State :=
  let x := s.disp d
  let rows := x.hubRows tile
  { s with sdt := { s.sdt with hub := s.sdt.hub.map (fun y =>
      if y.disp = d && !y.full && rows.contains y.row then
        let last : Bool := y.cnt = Desc.ksplit x.desc
        { y with cnt := y.cnt + 1, core := c, h := h, full := last, layer := if last then x else y.layer }
      else y) } }

/-- COMMIT completes: its scalar register holds the TSW and whether it was accepted, and the handle is FREE (R355). -/
def State.commitDone (s : State) (c h : Nat) (ok : Bool) : State :=
  let w := (s.tileTsw c h).toNat
  let u := match (s.core c).seq.wait, (s.tile c h).commit with
    | .commit k, some q => if k = h then (s.setScalar c q.sd (w + 2 ^ 32 * b2n ok)).seqDone c else s
    | _, _ => s
  u.freeTile c h

/-- The copy of an accepted COMMIT with STORE starts on its channel, or waits for the channel (R364). (DESIGN CHOICE, log 55) -/
def State.startStore (s : State) (c h : Nat) (q : CommitReq) : State :=
  let t := s.modTile c h (fun t => { t with commit := some { q with accepted := some true } })
  if (s.chan c q.ch).st = .idle || (s.chan c q.ch).st = .halted then
    t.modChan c q.ch (fun x => { x with st := .run, err := 0, rows := 0, halt := false, use_ := .store h })
  else t

/-- What an accepted commit does: the entry closes, counts are taken, the output slot is FULL and the consumers release (R273,
R327, R328). -/
def State.accept (s : State) (c h : Nat) (e : Claim) : State :=
  let d := e.disp
  let x := s.disp d
  let s1 := (s.closeClaim e).modDisp d (fun y => { y with done := min (y.done + 1) (2 ^ 32 - 1) })
  let s2 := if e.close then
      { s1 with sdt := { s1.sdt with sums := s1.sdt.sums.filter (fun y => !(y.disp = d && y.tile = e.tile)) } }
    else if x.split then
      let t := match s1.sdt.partSums.find? (fun y => y.disp = d && y.tile = e.tile && y.epoch = e.epoch) with
        | some p => s1.addPart c d p
        | none => s1
      t.countPart d e.tile
    else if x.hubbed then s1.countHub c h d e.tile
    else s1
  let s3 := match (s2.tile c h).oslot with
    | some n => s2.slotFull c n
    | none => s2
  (s3.releaseSlots c h).settle d

/-- What a stale commit does (R327). -/
def State.stale (s : State) (c h : Nat) (e : Option Claim) : State :=
  let t := s.tile c h
  let d := Desc.disp (s.tileDesc c h)
  let n := CRec.tile t.rec_
  let s1 := match e with
    | some e => s.closeClaim e
    | none => s
  let s2 := { s1 with sdt := { s1.sdt with
    partSums := s1.sdt.partSums.filter (fun y => !(y.disp = d && y.tile = n && y.epoch = CRec.epoch t.rec_)) } }
  let s3 := ((s2.count .sdtDup 0 d 1).setRg .sdtLastdup 0 d 0 (BitVec.ofNat 32 n)).flagTile c h [fDUP]
  ((s3.tileEvent c h 0x0501 0 (s3.tileTsw c h).toNat).releaseSlots c h).settle d

/-- COMMIT_RESOLVE: the Seed Tray accepts a commit or finds it stale and answers its core (R327, R355, R364). -/
def execCommitResolve (c : CoreId) (h : Handle) (s : State) : Host.Outcome State Fault Refusal :=
  let c := c.val
  let h := h.val
  if s.sdt.commits.contains (c, h) then
    let s0 := { s with sdt := { s.sdt with commits := s.sdt.commits.filter (· ≠ (c, h)) } }
    let t := s0.tile c h
    let d := Desc.disp (s0.tileDesc c h)
    let e := s0.claimAt c d (CRec.tile t.rec_) (CRec.epoch t.rec_)
    match e with
    | some y =>
      if y.stale then .next ((s0.stale c h e).commitDone c h false)
      else
        let s1 := s0.accept c h y
        (match t.commit with
          | some q => if q.store && t.oslot.isSome then .next (s1.startStore c h q) else .next (s1.commitDone c h true)
          | none => .next (s1.commitDone c h true))
    | none => .next ((s0.stale c h none).commitDone c h false)
  else .next s

/-- PARTIAL_SUM_ARRIVAL: a part tile's partial sums reach the partition tree, those of one core in the order in which it sent them, and
are acknowledged (R22, R328, R363). -/
def execPartialSumArrival (c : CoreId) (h : Handle) (s : State) : Host.Outcome State Fault Refusal :=
  let c := c.val
  let h := h.val
  let t := s.tile c h
  if s.coreOpen c && (s.core c).seq.parts.head? = some h then
    let d := Desc.disp (s.tileDesc c h)
    let p : PartSum := { disp := d, tile := CRec.tile t.rec_, epoch := CRec.epoch t.rec_, ptag := ptagOf (s.tileRung c h)
                         regime := s.tileRegime c h, flags := flags6 t.tsw, acc := t.acc }
    let s1 := if s.isImatch c h then s else { s with sdt := { s.sdt with partSums := s.sdt.partSums ++ [p] } }
    .next ((s1.modTile c h (fun t => { t with partSent := 2 })).modSeq c
      (fun q => { q with reds := q.reds - 1, parts := q.parts.drop 1 }))
  else .next s

/-! ### BUMP, REWIND, DISARM (R329, R333) -/

/-- BUMP. -/
def execBump (r : Req) (d : DispId) (s : State) : Host.Outcome State Fault Refusal :=
  .next (s.atReg r .sdtCtrl 0 d.val (·.bumpDisp d.val))
/-- REWIND to SDT_DnREWTO. -/
def execRewind (r : Req) (d : DispId) (s : State) : Host.Outcome State Fault Refusal :=
  .next (s.atReg r .sdtCtrl 0 d.val (fun t => t.rewindDisp d.val (t.rg .sdtRewto 0 d.val).toNat false))
/-- DISARM. -/
def execDisarm (r : Req) (d : DispId) (s : State) : Host.Outcome State Fault Refusal :=
  .next (s.atReg r .sdtCtrl 0 d.val (·.disarmDisp d.val))

end Sys2Proof.Machine
end

