-- ==== Sys2Proof/Machine/Present.lean ====
section
/-! DEFINITION. Claims, requeues and reruns that the Meter holds, presented again in the order of their arrival (R158, R326,
R526, R529, R530). -/
namespace Sys2Proof.Machine

/-- Work that the Meter holds: its arrival, the dispenser of a claim (none: a requeue or rerun of a tile), core, handle. -/
abbrev HeldItem : Type := Nat × Option Nat × Nat × Nat

/-- Insertion in the order of arrival. -/
def insertHeld (x : HeldItem) : List HeldItem → List HeldItem
  | [] => [x]
  | y :: ys => if x.1 < y.1 then x :: y :: ys else y :: insertHeld x ys

/-- Held work of the cores that satisfy a test, in the order of arrival. (DEDUCED, log 44) -/
def State.heldWork (s : State) (sel : Nat → Bool) : List HeldItem :=
  let claims := (upTo 64).flatMap (fun d => ((s.disp d).claims.filter (fun r => r.held && sel r.core)).map
    (fun r => (r.arr, some d, r.core, r.h)))
  let tiles := ((s.cores.map (·.1)).filter sel).flatMap (fun c => (upTo 8).filterMap (fun h =>
    (s.tile c h).heldAt.map (fun n => (n, none, c, h))))
  (claims ++ tiles).foldl (fun l x => insertHeld x l) []

/-- One of them presented: a claim at the head of its dispenser is served, one that a quiesce holds waits for that alone; a
requeue or rerun opens its attempt when the Meter admits it (R398). -/
def State.presentOne (s : State) : HeldItem → State
  | (n, some d, _, _) =>
    let t := s.modDisp d (fun y => { y with claims := y.claims.map (fun r => if r.arr = n then { r with held := false } else r) })
    (match (t.disp d).claims with
      | r :: _ => if r.arr = n && !(t.disp d).quiesced then t.serveClaim d r else t
      | [] => t)
  | (_, none, c, h) =>
    let x := s.tileCtx c h
    let t := s.tile c h
    let e := s.estimate x.desc x.alen t.rec_ (Desc.rung x.desc t.rung)
    if s.admits c e then
      ((s.spendOn c e).modTile c h (fun t => { t with heldAt := none })).reopen c h t.rung t.reran
    else s

/-- It is held still. -/
def State.heldStill (s : State) : HeldItem → Bool
  | (n, some d, _, _) => (s.disp d).claims.any (fun r => r.arr = n && r.held)
  | (_, none, c, h) => (s.tile c h).heldAt.isSome

/-- Presented one after another until one is held again (R526). (DEDUCED, log 44) -/
def State.presentAll (s : State) : List HeldItem → State
  | [] => s
  | x :: l => let t := s.presentOne x; if t.heldStill x then t else t.presentAll l

/-- The held work of the cores that satisfy a test is presented. -/
def State.present_ (s : State) (sel : Nat → Bool) : State := s.presentAll (s.heldWork sel)

end Sys2Proof.Machine
end

