-- ==== Sys2Proof/Machine/Trellis.lean ====
section
/-! DEFINITION. The trellis loader: full and partial loads, boot and fallback loads, and writing a configuration into the
device (R375 to R398, R403, R410, R487, R493, R509, R551, R558). -/
namespace Sys2Proof.Machine

/-! ### Writing IMG fields (R381, R384, R385, R387 to R389, R544) -/

/-- Blocks a partition record covers. -/
def blocksOf (r : BitVec 256) : Nat := ((upTo 64).filter (partCovers r)).length

/-- The wheel words of a core: WHEELA, WHEELB, SPARE (R384). -/
def Cfg.wheelOf (g : Cfg) (c : Nat) : Nat × Nat × Nat :=
  let r := Sparse.get 0 g.wheels c
  if r = 0 then (0x23112111, 0x41312121, 0x41) else (fld r 63 32, fld r 95 64, fld r 23 16)

/-- The IMG registers of a core, from its partition's record and the tables (R381, R384). (DEDUCED, log 59) -/
def State.writeCoreImg (s : State) (g : Cfg) (c : Nat) : State :=
  let r : BitVec 256 := match g.partOfBlock (blockOf c) with
    | some p => Sparse.get 0 g.parts p
    | none => 0
  let w := g.wheelOf c
  let v (n : Nat) : W32 := BitVec.ofNat 32 n
  let t1 := s.setRg .arrShape c 0 0 (v (pack [(2, g.shapeOf c), (1, fld r 22 22), (1, fld r 23 23), (2, b2n (8 ≤ blocksOf r))]))
  let t2 := (t1.setRg .gauDefault c 0 0 (v (fld r 48 32))).setRg .gauPerm c 0 0 (v (fld r 26 24))
  ((t2.setRg .spdWheela c 0 0 (v w.1)).setRg .spdWheelb c 0 0 (v w.2.1)).setRg .spdSpare c 0 0 (v w.2.2)

/-- A partition's budget and window; its window starts now with a spend of 0 (R379, R524). -/
def State.writeBudget (s : State) (g : Cfg) (p : Nat) : State :=
  let r := Sparse.get 0 g.parts p
  let t := (s.setRg64 .mtrBud 0 p 0 (fld r 159 96)).setRg .mtrWin 0 p 0 (BitVec.ofNat 32 (fld r 77 64))
  { t with mtr := { t.mtr with t0 := Sparse.put 0 t.mtr.t0 p t.prc.time, spend := Sparse.put 0 t.mtr.spend p 0 } }

/-- Core enables as TRL_FENCEn shows them. -/
def State.writeFence (s : State) (g : Cfg) : State :=
  s.each (upTo 8) (fun t n => t.setRg .trlFence 0 n 0 (BitVec.ofNat 32 (bits g.fence.toNat (32 * n) 32)))

/-- Slice groups, dispensers, device ID and Meter fields (R385, R389). -/
def State.writeHubImg (s : State) (g : Cfg) : State :=
  let t1 := s.each (upTo 64) (fun t k => (t.setRg .pntGrp 0 k 0 (Sparse.get 0 g.pantry k)).setRg .sdtCfg 0 k 0 (Sparse.get 0 g.disps k))
  let t2 := (t1.writeFence g).setRg .tchId 0 0 0 (BitVec.ofNat 32 g.devid)
  let m := g.meter
  let t3 := t2.setRg .mtrCap 0 0 0 (BitVec.ofNat 32 (pack [(10, fld m 79 64), (10, fld m 95 80)]))
  let t4 := (t3.setRg .mtrClane 0 0 0 (BitVec.ofNat 32 (fld m 31 0))).setRg .mtrCbyte 0 0 0 (BitVec.ofNat 32 (fld m 63 32))
  t4.each (upTo 12) (fun t j => t.setRg .mtrCoef 0 j 0 (BitVec.ofNat 32 (bits m.toNat (128 + 32 * j) 32)))

/-- Every IMG field written from a configuration (R391 step 7, R545 step 4). (DESIGN CHOICE, log 4) -/
def State.writeImg (s : State) (g : Cfg) : State :=
  let t := { s with cfg := g }
  (((t.writeHubImg g).each (upTo 256) (fun u c => u.writeCoreImg g c))).each (upTo 64) (fun u p => u.writeBudget g p)

/-! ### Applying a full configuration (R391 steps 6 to 8) -/

/-- Key slots as the regions have them: partition keys drawn anew unless vendor debug withholds them, session keys not yet
bound (R410, R498). -/
def State.programKeys (s : State) : State :=
  let t := { s with clr := { s.clr with kslots := [] } }
  t.each (t.cfg.regions.filter (·.ksrc ≠ 2)) (fun u r =>
    if r.ksrc = 0 && !u.vendorOpen then u.newKey r.kslot .partition none else u.setKslot r.kslot { st := .locked })

/-- Every Pantry slice invalidated and zeroed. -/
def State.dropPantry (s : State) : State := { s with pnt := { s.pnt with lines := [], plru := [] } }

/-- A core after a full load: HALTED with its ring unset, ACTIVE where enabled, held in reset where fenced (R382, R391).
(DEDUCED, log 59) -/
def State.freshCore (s : State) (c : Nat) : State :=
  if s.cfg.enabled c then
    ((s.modCore c (fun k => { k with cst := .active, scrub := false, seq := k.seq.cleared, owner := none })).setRg
      .seqRing c 0 0 0)
  else (s.wipeCore c).modCore c (fun k => { k with cst := .fenced, scrub := false, owner := none })

/-- Every dispenser's epoch bumps (R392). -/
def State.bumpAll (s : State) : State :=
  s.each (upTo 64) (fun t d => t.modDisp d (fun y => { y with epoch := (y.epoch + 1) % 65536 }))

/-- The host ports take their port blocks; a link whose speed stays goes on, any other begins anew (R388, R443).
(DEDUCED, log 75; DESIGN CHOICE, log 115) -/
def State.writeEth (s : State) (g : Cfg) : State :=
  s.each (upTo 4) (fun t p =>
    let n := Sparse.get {} g.eths p
    t.modEth p (fun e => if e.link = .up && e.speed = n.speed && n.speed ≠ 0 then
        { e with qmap := n.qmap, owners := n.owners, cycle := n.cycle, baseofs := n.baseofs, gcl := n.gcl, pos := 0 }
      else { n with link := if n.speed = 0 then .down else .training }))

/-- Steps 6 to 8 of a full load (R391). (DEDUCED, log 75) -/
def State.applyFull (s : State) : State :=
  let g := s.trl.new
  let t1 := (((s.writeImg g).programKeys).dropPantry).bumpAll
  let t2 := t1.each (upTo 256) (fun u c => u.freshCore c)
  let t3 := { t2 with tch := { t2.tch with groups := g.groups } }
  let t4 := (t3.writeEth g).each (upTo 6) (fun u p => u.portTrain p)
  let t5 := { t4 with retained := g
                      trl := { t4.trl with st := .done, err := 0, img := [], fallback := false, boot := false, deferred := [] } }
  let t6 := if s.trl.boot then { t5 with sec := { t5.sec with boot := .ran } } else t5
  let t7 := (t6.devEvent 0x0601 0 0).attest attFULL none
  if s.trl.fallback then
    { (t7.devEvent 0x0604 0 s.trl.src) with evt := { (t7.devEvent 0x0604 0 s.trl.src).evt with bare := false, fallback := true } }
  else { t7 with evt := { t7.evt with bare := false, fallback := false } }

/-! ### Refusals (R375, R400, R487, R551) -/

/-- Flash offsets of the primary trellis image in copies A and B (R487). (DEDUCED, log 74) -/
abbrev imageA : Nat := 0x500000
abbrev imageB : Nat := 0x1500000

/-- A load is refused. In boot, copy B follows copy A, and both refused stop the boot (R487). (DEDUCED, log 74) -/
def State.refuseLoad (s : State) (err : Nat) : State :=
  if s.trl.boot && s.trl.src = imageA then
    { s with trl := { s.trl with st := .read, src := imageB, img := [], partial_ := false } }
  else if s.trl.boot then
    let t := { s with sec := { s.sec with boot := .stopped, bootCode := 3 } }
    t.failLoad err
  else s.failLoad err

/-! ### Reading the image (R390, R391 step 1) -/

/-- Pantry slices 56 to 63 belong to a valid group (R390). -/
def State.stagingTaken (s : State) : Bool :=
  (upTo 64).any (fun k => (s.cfg.groupPart k).isSome && (slicesOf (Sparse.get 0 s.cfg.pantry k)).any (56 ≤ ·))

/-- The source admits a load (R390, R400). -/
def State.sourceOk (s : State) (flash : Bool) (src : Nat) : Bool :=
  src % 8 = 0 && (if flash then !s.stagingTaken
    else (match s.regionAt src with | some r => r.hub | none => false) && (s.cellarNo src).isNone)

/-- Image bytes in the Cellar from `a` on, as far as they can be read: at most `n`. -/
def State.imageBytes (s : State) (a n : Nat) : List Byte :=
  match s.regionAt a with
  | none => []
  | some r =>
    let m := min n (r.base + r.size - a)
    if (s.cellarRefusal a m).isSome then [] else (s.cellarRead .normal a m).1

/-- A load begins (R391, R393 step 1). -/
def State.beginLoad (s : State) (flash : Bool) (src : Nat) : State :=
  let t := { s with trl := { s.trl with st := .read, err := 0, flash := flash, src := src, img := [], partial_ := false
                                        len := if flash then 0 else imgLength (s.imageBytes src 128) } }
  if s.sourceOk flash src then t else t.failLoad trlSOURCE

/-- GO in TRL_CTRL (R390, R398). -/
def State.trlGo (s : State) (r : Req) (flash : Bool) : State :=
  if s.trlBusy then s.access r (regAddr .trlCtrl 0 0 0) else s.beginLoad flash (s.rg64 .trlSrc % 2 ^ 48)

/-- TRL_GO: GO with FLASH beside it; one that meets a BUSY loader is dropped with an access event (R390, R398, R400). -/
def execTrlGo (r : Req) (flash : Bool) (s : State) : Host.Outcome State Fault Refusal :=
  .next (s.atReg r .trlCtrl 0 0 (·.trlGo r flash))

/-- What the structure of an image and its base refuse it for (R375, R378, R390): the bytes read, and of these the image.
(DEDUCED, log 72) -/
def State.imageCause (s : State) (read img : List Byte) : Option Nat :=
  let part := imgPartial read
  if !headerOk read then some trlFORMAT
  else if !lengthOk read read.length then some trlLENGTH
  else match sectionsOf img with
    | none => some trlLENGTH
    | some l =>
      if !sectionsOk part l then some trlSECTION
      else if part && s.trl.flash then some trlSOURCE
      else if part && !baseOk s.cfg img then some trlBASE
      else if part && s.trl.deferred.any (fun x => (recsOf ((sectionVal l 0x0011).getD [])).any (fun y => y.1 = x.1)) then
        some trlKILLED
      else none

/-- The partitions that the image in hand names, ascending. -/
def State.imageParts (s : State) : List Nat :=
  let rs : List (Nat × BitVec 256) := match sectionsOf s.trl.img with
    | some l => recsOf ((sectionVal l 0x0011).getD [])
    | none => []
  rs.foldl (fun m x => insertAsc x.1 m) []

/-- TRL_IMAGE_READ_DONE: the image has been read, from flash as the operand's bytes or from its Cellar region, and its
structure decides (R372 to R375, R378). (DEDUCED, log 74) -/
def execTrlImageReadDone (flash : List Byte) (s : State) : Host.Outcome State Fault Refusal :=
  if s.trl.st ≠ .read then .next s
  else
    let got := if s.trl.flash then flash else s.imageBytes s.trl.src s.trl.len
    let img := got.take (imgLength got)
    let t := { s with trl := { s.trl with img := img, partial_ := imgPartial img, deferred := [] } }
    match s.imageCause got img with
    | some e => .next (t.refuseLoad e)
    | none => .next { t with trl := { t.trl with st := .verify, changed := if imgPartial img then t.imageParts else [] } }

/-! ### Verification and the configuration checks (R376, R377, R380 to R389, R486) -/

/-- The bytes that an image's signature is over: those before the SIGNATURE section's header (R376). -/
def imgSigned (img : List Byte) : List Byte := img.take (img.length - 8 - 136)

/-- What verification refuses an image for, the checks in order; else the configuration it makes. (DEDUCED, log 74) -/
def State.verify (s : State) : Nat ⊕ Cfg :=
  let img := s.trl.img
  match sectionsOf img with
  | none => .inl trlSECTION
  | some l =>
    let key := (sectionVal l 0x0001).getD []
    let idx := leAt img 7 1
    let rb := leAt img 16 4
    if digestOf key ≠ s.sec.ownerHash then .inl trlKEY
    else if !signedBy key (imgSigned img) ((sectionVal l 0xFFFF).getD []) then .inl trlSIG
    else if idx ≤ 1 || 255 < rb || rb < Sparse.get 0 s.sec.rbctr idx then .inl trlROLLBACK
    else if !wheelsOk (wheelRecs ((sectionVal l 0x0013).getD [])) then .inl trlCONFIG
    else if s.trl.partial_ then
      let g := partialCfg s.cfg img l
      let cores := (wheelRecs ((sectionVal l 0x0013).getD [])).map (·.1)
      let ids := (recsOf ((sectionVal l 0x0011).getD [])).map (·.1)
      if g.valid && partialKeeps s.cfg g s.trl.changed cores && distinct ids && distinct cores then .inr g else .inl trlCONFIG
    else
      let g := fullCfg img l
      let ids := (recsOf ((sectionVal l 0x0011).getD [])).map (·.1)
      let cores := (wheelRecs ((sectionVal l 0x0013).getD [])).map (·.1)
      let grps := ((groupRecords 256 (((sectionVal l 0x0030).getD []).drop 48)).getD []).map (·.1)
      if g.valid && g.fitsIn s.installed && distinct ids && distinct cores && distinct grps then .inr g else .inl trlCONFIG

/-- Step 5 of a full load: the Cellar trains when its regions change or it has not trained; else the load applies (R391).
(DEDUCED, log 73) -/
def State.trainOrApply (s : State) : State :=
  if s.clr.rate = 0 || s.trl.new.regions ≠ s.cfg.regions then { s with trl := { s.trl with st := .train } } else s.applyFull

/-- A full load whose partitions are all READY goes on (R391, R550). (DEDUCED, log 75) -/
def State.fullGoesOn (s : State) : State :=
  if s.trl.st = .scrub && !s.trl.partial_ && s.sec.scrubs.isEmpty then s.trainOrApply else s

/-- Step 4 of a full load: every partition reset, every session killed (R391, R392). -/
def State.resetAll (s : State) : State :=
  let t := s.each s.parts (fun u p => u.resetPart p prFULL false)
  t.each t.sessions (fun u n => u.killSession n)

/-- The word-0 record of a changed partition in the configuration being loaded. -/
def State.newRec (s : State) (p : Nat) : BitVec 256 := Sparse.get 0 s.trl.new.parts p
/-- FORCE of a partition's record in the image, read from the image itself: a DELETE record has none (R379). -/
def State.forced (s : State) (p : Nat) : Bool := s.trl.new.has p && flag (s.newRec p) 28

/-- Dispensers that a changed partition owns. -/
def State.changedDisps (s : State) : List Nat :=
  (upTo 64).filter (fun d => match s.dispPart d with | some p => s.trl.changed.contains p | none => false)

/-- A tile that FORCE aborts: CLAIMED, OPEN or OUTPUT with no commit sent, not after REDUCE PART or REDUCE GROUP (R556). -/
def Tile.forceable (t : Tile) : Bool :=
  t.st ≠ .free && (match t.commit with | some q => !q.sent | none => true) && t.partSent = 0 && t.grp.isNone

/-- Every such tile of a core aborts (R549, R556). -/
def State.forceCore (s : State) (c : Nat) : State :=
  s.each ((upTo 8).filter (fun h => (s.tile c h).forceable)) (fun t h => t.forceTile c h)

/-- Step 4 of a partial load: claims of the changed partitions are held, tiles of FORCE partitions abort (R393). -/
def State.beginQuiesce (s : State) : State :=
  let t := s.each s.changedDisps (fun u d => u.modDisp d (fun x => { x with quiesced := true }))
  let u := { t with trl := { t.trl with st := .quiesce } }
  u.each (u.trl.changed.filter u.forced) (fun v p => v.each (v.coresOf p) (fun w c => w.forceCore c))

/-- TRL_VERIFY_DONE: the signature check ends; the key, rollback and configuration checks decide, and an accepted load goes
on (R376, R377, R391 step 4, R393 step 4). -/
def execTrlVerifyDone (s : State) : Host.Outcome State Fault Refusal :=
  if s.trl.st ≠ .verify then .next s
  else match s.verify with
    | .inl e => .next (s.refuseLoad e)
    | .inr g =>
      let t := { s with trl := { s.trl with new := g } }
      if s.trl.partial_ then .next t.beginQuiesce
      else
        let u := { t with trl := { t.trl with st := .scrub } }
        .next (u.resetAll.fullGoesOn)

/-! ### Cellar training (R403, R404) -/

/-- A module of R402. -/
def supportedModule (m : Module) : Bool :=
  m.mrdimm && m.width = 4 && m.ecc && (m.gib = 32 || m.gib = 64) && [6400, 8000, 8800].any (m.rates.contains ·)

/-- RATE of the highest rate of R402 that every module supports: 0b11 8,800, 0b10 8,000, 0b01 6,400 MT/s; 0 where there is
none (R403, R440). -/
def commonRate (mods : List (Fin 16 × Module)) : Nat :=
  let all (r : Nat) : Bool := mods.all (fun m => m.2.rates.contains r)
  if all 8800 then 3 else if all 8000 then 2 else if all 6400 then 1 else 0

/-- INITERR of the modules in place and the channels that fail to train: 1 EMPTY, a channel without a module; 2 MIXED, more than one
capacity; 3 MODULE, any other departure from R402; 4 TRAIN; the lowest of those that hold (R402, R403, R440).
(DEDUCED, log 73) -/
def initErr (mods : List (Fin 16 × Module)) (failed : List (Fin 16)) : Nat :=
  if (upTo 16).any (fun c => !mods.any (fun m => m.1.val = c)) then 1
  else if mods.any (fun m => mods.any (fun n => m.2.gib ≠ n.2.gib)) then 2
  else if mods.length ≠ 16 || mods.any (fun m => !supportedModule m.2) || commonRate mods = 0 then 3
  else if !failed.isEmpty then 4
  else 0

/-- Step 5: the Cellar trains at the highest common rate, or stays untrained with its cause and CELLAR_INIT (R403).
(DEDUCED, log 73) -/
def State.cellarTrained (s : State) (failed : List (Fin 16)) : State :=
  let mods := s.clr.mods
  match initErr mods failed with
  | 0 => { s with clr := { s.clr with gib := installedGib mods, rate := commonRate mods, initerr := 0 } }
  | e + 1 => ({ s with clr := { s.clr with rate := 0, gib := 0, initerr := e + 1 } }).dEvent 0x0701 (e + 1)

/-- CELLAR_TRAIN_DONE: step 5 ends and the full load goes on (R391, R403). -/
def execCellarTrainDone (failed : List (Fin 16)) (s : State) : Host.Outcome State Fault Refusal :=
  if s.trl.st ≠ .train then .next s else .next (s.cellarTrained failed).applyFull

/-! ### Quiesce (R393 to R395) -/

/-- No array, Sieve, Rake, output path, Gauge, DMA, partial-sum or reduction-group activity remains on a core (R393).
(DEDUCED, log 77) -/
def State.coreQuiet (s : State) (c : Nat) : Bool :=
  let k := s.core c
  k.arr.cur.isNone && k.arr.queue.isEmpty && k.gauge.isEmpty && k.seq.reds = 0 &&
  k.seq.jobs.all (fun j => j.eng ≠ .rake && j.eng ≠ .merge) &&
  (upTo 16).all (fun ch => (s.chan c ch).st ≠ .run && (s.chan c ch).st ≠ .wait) &&
  (upTo 8).all (fun h =>
    let t := k.tile h
    t.outSt ≠ .running && t.partSent ≠ 1 && (!t.contributed || t.released) && (!t.opened || t.ended || t.heldAt.isSome))

/-- The cores that step 6 waits for: those of the changed partitions. -/
def State.quiesceCores (s : State) : List Nat := s.trl.changed.flatMap s.coresOf

/-- Every one of them is quiet. (DEDUCED, log 77) -/
def State.allQuiet (s : State) : Bool := s.quiesceCores.all s.coreQuiet

/-- SHAPE of a partition: that of its first enabled core. -/
def Cfg.partShape (g : Cfg) (p : Nat) : Nat := g.shapeOf (((g.coresOf p).filter g.enabled).headD 0)

/-- A changed partition with a layer in force would change what the layer rests on (R395). -/
def State.permBusy (s : State) (p : Nat) : Bool :=
  let old := Sparse.get 0 s.cfg.parts p
  s.cfg.has p && s.trl.new.has p && (s.dispsOf p).any (fun d => (s.disp d).st ≠ .idle) &&
  (fld old 26 22 ≠ fld (s.newRec p) 26 22 || s.cfg.partShape p ≠ s.trl.new.partShape p)

/-- Cores that leave their partition or are newly fenced (R393 step 7). -/
def State.leaving (s : State) : List Nat :=
  s.quiesceCores.filter (fun c =>
    s.trl.new.partOfBlock (blockOf c) ≠ s.partOf c || (s.cfg.enabled c && !s.trl.new.enabled c))

/-- A core leaves: its held claims are answered ABORTED, its tiles abort, and it is scrubbed (R393 step 7, R397, R549). -/
def State.leaveCore (s : State) (c : Nat) : State :=
  let t1 := s.each (upTo 64) (fun t d => t.abortHeld d (fun q => q.core = c))
  let t2 := t1.each (t1.core c).busyHandles (fun t h => t.forceTile c h)
  (t2.wipeCore c).modCore c (fun k => { k with cst := .quiescing false true, scrub := true, owner := none })

/-- Slice groups of changed partitions that change (R393 step 8). (DEDUCED, log 76) -/
def State.changedGroups (s : State) : List Nat :=
  (upTo 64).filter (fun k => Sparse.get 0 s.cfg.pantry k ≠ Sparse.get 0 s.trl.new.pantry k &&
    (match s.cfg.groupPart k with | some p => s.trl.changed.contains p | none => false))

/-- Steps 6 to 8 begin (R393). -/
def State.passQuiesce (s : State) : State :=
  let ds := s.changedDisps
  let t1 := s.each ds (fun t d => if s.trl.new.dispPart d = s.dispPart d then t.bumpDisp d else t.disarmDisp d)
  let out := s.leaving
  let gs := s.changedGroups
  let t2 := t1.each out (fun t c => t.leaveCore c)
  { t2 with trl := { t2.trl with st := .scrub, moved := out, wbinv := gs } }

/-- QUIESCE_POINT: no activity remains; the permission check, then epochs bump, cores leave, groups are written back (R393,
R395). -/
def execQuiescePoint (s : State) : Host.Outcome State Fault Refusal :=
  if s.trl.st ≠ .quiesce || !s.allQuiet then .next s
  else if s.trl.changed.any s.permBusy then .next (s.failLoad trlPERMBUSY)
  else .next s.passQuiesce

/-- QUIESCE_TIMEOUT: QTO passes before the quiesce point; a load whose every record has FORCE has no limit (R394). -/
def execQuiesceTimeout (s : State) : Host.Outcome State Fault Refusal :=
  if s.trl.st = .quiesce && !s.allQuiet && s.trl.changed.any (fun p => !s.forced p) then .next (s.failLoad trlQUIESCE)
  else .next s

/-! ### Applying a partial load (R393 steps 9 and 10, R397, R398) -/

/-- A core that joins a partition or stays in it takes the partition's IMG fields; one that joins comes HALTED with a cleared
sequencer (R397). -/
def State.joinCore (s : State) (g : Cfg) (c : Nat) (was : Bool) : State :=
  let t := s.writeCoreImg g c
  if was || !g.enabled c then t
  else (t.modCore c (fun k => { k with seq := k.seq.cleared, cst := .active, owner := none })).setRg .seqRing c 0 0 0

/-- A slice group's word changes; what the group still holds goes back first. (DEDUCED, log 76) -/
def State.moveGroup (s : State) (g : Cfg) (k : Nat) : State :=
  let w := Sparse.get 0 g.pantry k
  if (s.rg .pntGrp 0 k) = w then s
  else ((s.pantryDo .wbinv k).setRg .pntGrp 0 k 0 w)

/-- One partition's apply: record, budget, cores, slice groups, dispensers; its held claims are admitted again (R393 step 9,
R530). (DEDUCED, log 76) -/
def State.applyPart (s : State) (p : Nat) : State :=
  let g := s.trl.new
  let old := s.cfg
  let mine (a : Option Nat) : Bool := a = some p
  let parts := if g.has p then Sparse.put 0 old.parts p (Sparse.get 0 g.parts p) else Sparse.erase p old.parts
  let ks := (upTo 64).filter (fun k => mine (old.groupPart k) || mine (g.groupPart k))
  let ds := (upTo 64).filter (fun d => mine (old.dispPart d) || mine (g.dispPart d))
  let t1 := s.each ks (fun t k => t.moveGroup g k)
  let t2 := t1.each ds (fun t d => t.setRg .sdtCfg 0 d 0 (Sparse.get 0 g.disps d))
  let cfg : Cfg := { t2.cfg with
    parts := parts
    pantry := ks.foldl (fun m k => Sparse.put 0 m k (Sparse.get 0 g.pantry k)) t2.cfg.pantry
    disps := ds.foldl (fun m d => Sparse.put 0 m d (Sparse.get 0 g.disps d)) t2.cfg.disps }
  let t3 := { t2 with cfg := cfg }
  let t4 := t3.each (g.coresOf p) (fun t c => t.joinCore g c (old.partOfBlock (blockOf c) = some p))
  let t5 := t4.each ((old.coresOf p).filter (fun c => (g.partOfBlock (blockOf c)).isNone)) (fun t c => t.writeCoreImg g c)
  let t6 := t5.writeBudget g p
  let t7 := t6.each (t6.dispsOf p) (fun t d => t.modDisp d (fun x => { x with quiesced := false }))
  t7.present_ (fun c => t7.partOf c = some p)

/-- The kills and resets that waited for a partition's apply act (R398). -/
def State.runDeferred (s : State) (p : Nat) : State :=
  let mine := s.trl.deferred.filter (·.1 = p)
  let t := { s with trl := { s.trl with deferred := s.trl.deferred.filter (·.1 ≠ p) } }
  t.each mine (fun u x => u.resetPart p x.2.1 x.2.2)

/-- Sessions of the changed partitions receive PARTITION_RESIZED (R393 step 10). -/
def State.resized (s : State) (ps : List Nat) : State :=
  s.each ps (fun t p => t.partEvent p 0x0603 0 (fld (Sparse.get 0 t.cfg.parts p) 27 0))

/-- Step 10: the whole configuration is in force, PSEQ rises, STATE DONE (R393). -/
def State.endPartial (s : State) (ps : List Nat) : State :=
  let g := s.trl.new
  let t1 := ({ s with cfg := g, retained := g }).writeFence g
  let t2 := { t1 with trl := { t1.trl with st := .done, err := 0, img := [] } }
  let t3 := t2.devEvent 0x0601 0 (pack [(8, 1), (8, 0), (16, g.pseq)])
  let t4 := t3.each (upTo 64) (fun t d => t.modDisp d (fun x => { x with quiesced := false }))
  (t4.resized ps).attest attPARTIAL none

/-- PARTITION_APPLY_DONE: after steps 7 and 8, the lowest partition still to apply has applied (R393). -/
def execPartitionApplyDone (s : State) : Host.Outcome State Fault Refusal :=
  let ready : Bool := (s.trl.st = .scrub || s.trl.st = .apply) && s.trl.partial_ && s.trl.moved.isEmpty && s.trl.wbinv.isEmpty
  match s.trl.changed with
  | [] => .next s
  | p :: rest =>
    if !ready then .next s
    else
      let t := s.applyPart p
      let u := { t with trl := { t.trl with st := .apply, changed := rest } }
      let v := if rest.isEmpty then u.endPartial s.imageParts else u
      .next (v.runDeferred p)

end Sys2Proof.Machine
end

