-- ==== Sys2Proof/Machine/VecProg.lean ====
section
/-! DEFINITION. Element programs of the vector engine (R236 to R247, R251) and Rake integers and records (R229 to R235). -/
namespace Sys2Proof.Machine

/-! ### Program images (R236, R238, R239, R251) -/

/-- A program image. -/
abbrev Prog : Type := BitVec 1408

/-- Word `i` of an image (32 bits). -/
def Prog.word (p : Prog) (i : Nat) : Nat := bits p.toNat (32 * i) 32
/-- Micro-ops of the program. -/
def Prog.count (p : Prog) : Nat := bits p.toNat 0 6
/-- The result is I32 (OTY). -/
def Prog.oty (p : Prog) : Bool := p.toNat.testBit 6
/-- Constant K[i]; past K7 zero. -/
def Prog.const (p : Prog) (i : Nat) : W32 := if i < 8 then BitVec.ofNat 32 (p.word (4 + i)) else 0

/-- A micro-op (R238). -/
structure MOp where
  opc : Nat
  ty : Nat
  d : Nat
  a : Nat
  b : Nat
  bk : Bool
  c : Nat
  imm : Nat
  deriving DecidableEq, Repr

/-- A micro-op word's fields. -/
def mop (w : Nat) : MOp :=
  { opc := bits w 0 6, ty := bits w 6 2, d := bits w 8 3, a := bits w 11 3, b := bits w 14 3, bk := w.testBit 17,
    c := bits w 18 3, imm := bits w 21 11 }

/-- The micro-ops of a program. -/
def Prog.ops (p : Prog) : List MOp := (upTo p.count).map (fun i => mop (p.word (12 + i)))

/-- Slots of a micro-op (R239). -/
def MOp.cost (m : MOp) : Nat := if 0x12 ≤ m.opc && m.opc ≤ 0x17 then 4 else 1
/-- Cost of a program and c_eff (R247). -/
def Prog.cost (p : Prog) : Nat := (p.ops.map MOp.cost).sum
def Prog.ceff (p : Prog) : Nat := max 1 p.cost

/-- TY admits the operation (R239). -/
def MOp.tyOk (m : MOp) : Bool :=
  match m.opc with
  | 0x01 | 0x02 | 0x04 | 0x05 | 0x06 => m.ty < 3
  | 0x03 => m.ty = 1
  | 0x07 | 0x08 | 0x09 | 0x0F | 0x10 | 0x1B => m.ty = 2
  | 0x11 | 0x12 | 0x13 | 0x14 | 0x15 | 0x16 | 0x17 => m.ty = 3
  | _ => true

/-- A micro-op that no program may hold: reserved OPC or condition, TY, LUTF's constants (R243, R251). -/
def MOp.bad (m : MOp) : Bool :=
  0x1D < m.opc || !m.tyOk || (m.opc = 0x0D && 6 ≤ m.imm % 8) || (m.opc = 0x16 && (!m.bk || m.b = 7))

/-- LAYER and VPROG refuse an image (R251). -/
def Prog.bad (p : Prog) : Bool :=
  p.count = 0 || 32 < p.count || bits p.toNat 7 25 ≠ 0 || bits p.toNat 32 96 ≠ 0 || p.ops.any MOp.bad

/-! ### Arithmetic (R240 to R242) -/

/-- Width of an integer TY. -/
def tyBits (ty : Nat) : Nat := if ty = 0 then 8 else if ty = 1 then 16 else 32
/-- A word's low bits sign-extended. -/
def asInt (ty : Nat) (w : W32) : Int := sext (tyBits ty) w.toNat
/-- An integer as a 32-bit word. -/
def ofI (i : Int) : W32 := BitVec.ofInt 32 i
/-- A source as its operation sees it: FP32 bits, or the low bits sign-extended. -/
def narrow (ty : Nat) (w : W32) : W32 := if ty = 3 then w else ofI (asInt ty w)

/-- A sum saturated to the TY range, and whether it saturated. -/
def satTo (ty : Nat) (i : Int) : Int × Bool :=
  let m : Int := 2 ^ (tyBits ty - 1)
  if m ≤ i then (m - 1, true) else if i < -m then (-m, true) else (i, false)

/-- A word is NaN. -/
def isNan (w : W32) : Bool := f32 w = .nan
/-- A word's value is not zero in its type. -/
def nonZero (ty : Nat) (w : W32) : Bool := if ty = 3 then !(f32 w).isZero else asInt ty w ≠ 0
/-- A word's value is less than another's in their type. -/
def wLt (ty : Nat) (a b : W32) : Bool := if ty = 3 then (f32 a).lt (f32 b) else asInt ty a < asInt ty b
/-- Two words are equal in their type. -/
def wEq (ty : Nat) (a b : W32) : Bool := if ty = 3 then (f32 a).eqv (f32 b) else asInt ty a = asInt ty b

/-- MIN, or MAX (R241). -/
def minMax (ty : Nat) (mx : Bool) (a b : W32) : W32 :=
  if ty = 3 then
    if isNan a then (if isNan b then nan32 else b)
    else if isNan b then a
    else if wEq 3 a b then (if (f32 a).neg = mx then b else a)
    else if wLt 3 a b = mx then b else a
  else narrow ty (if wLt ty a b = mx then b else a)

/-- The condition of CMP (R242). -/
def cond (ty k : Nat) (a b : W32) : Bool :=
  match k with
  | 0 => wEq ty a b
  | 1 => !wEq ty a b
  | 2 => wLt ty a b
  | 3 => wLt ty a b || wEq ty a b
  | 4 => wLt ty b a
  | _ => wLt ty b a || wEq ty a b

/-- Shifts on the TY-wide pattern (R240). -/
def shift (opc ty n : Nat) (w : W32) : W32 :=
  let k := tyBits ty
  let x := w.toNat % 2 ^ k
  let y : Nat := if opc = 4 then x * 2 ^ n else if opc = 5 then x >>> n else ofInt k ((asInt ty w).fdiv (2 ^ n))
  ofI (sext k y)

/-- An FP32 value rounded to an I32, saturating; NaN gives 0. -/
def toI32 (x : FV) : W32 :=
  match x with
  | .nan => 0
  | .inf s => if s then 0x80000000 else 0x7FFFFFFF
  | .fin s m e =>
    let v : Int := rneShift m e
    ofI (satTo 2 (if s then -v else v)).1

/-- Exact sum less its rounding (R241). -/
def twoSum (a b : W32) : W32 :=
  let x := (f32 a).add (f32 b)
  let r := fp32.round x
  if r.exceptional then 0 else toF32 (x.add r.negate)

/-- Floor of a finite value. -/
def FV.floor : FV → Int
  | .fin s m e =>
    let v : Int := if s then -(m : Int) else m
    if 0 ≤ e then v * 2 ^ e.toNat else v.fdiv (2 ^ (-e).toNat)
  | _ => 0

/-- LUTF's index and fraction (R243). -/
def lutfAt (u : W32) : Nat × W32 :=
  match f32 u with
  | .inf s => if s then (0, 0) else (254, 0x3F800000)
  | x =>
    let i := (max 0 (min 254 x.floor)).toNat
    let f := toF32 (x.add (FV.ofInt (-(i : Int)) 0))
    (i, if (f32 f).lt .zero then 0 else if FV.lt (.fin false 1 0) (f32 f) then 0x3F800000 else f)

/-- LUTF (R243). -/
def lutf (t : Nat → W32) (a lo s : W32) : W32 :=
  let u := toF32 ((f32 (toF32 ((f32 a).add (f32 lo).negate))).mul (f32 s))
  if isNan u then nan32
  else
    let (i, f) := lutfAt u
    let d := toF32 ((f32 (t (i + 1))).add (f32 (t i)).negate)
    toF32 ((f32 (t i)).add (f32 (toF32 ((f32 f).mul (f32 d)))))

/-! ### Running a program on an element (R239, R244) -/

/-- An element of a tile register. -/
def Vec.treg (v : Vec) (t i : Nat) : W32 := Sparse.get 0 v.tregs (1024 * t + i % 1024)
/-- An element of a tile register written. -/
def Vec.setTreg (v : Vec) (t i : Nat) (w : W32) : Vec := { v with tregs := Sparse.put 0 v.tregs (1024 * t + i % 1024) w }
/-- A mask bit. -/
def Vec.mask (v : Vec) (m i : Nat) : Bool := Sparse.get false v.masks (1024 * m + i % 1024)
/-- A mask bit written. -/
def Vec.setMask (v : Vec) (m i : Nat) (b : Bool) : Vec := { v with masks := Sparse.put false v.masks (1024 * m + i % 1024) b }

/-- What an element's run sees: its index and coordinates, and the 32-bit tables (R243, R244). -/
structure ElemEnv where
  i : Nat
  x : Nat
  y : Nat
  table : Nat → Nat → W32

/-- What a run changes: the vector state (masks), the element registers, saturation. -/
structure ElemRun where
  v : Vec
  e : List W32
  isat : Bool

/-- A word moved in a type: a NaN of FP32 becomes the canonical one (R241). -/
def moved (ty : Nat) (w : W32) : W32 := if ty = 3 && isNan w then nan32 else w

/-- The value a micro-op writes to D, and whether it saturated. (DEDUCED, log 57) -/
def mopValue (p : Prog) (en : ElemEnv) (v : Vec) (es : List W32) (m : MOp) : W32 × Bool :=
  let a := narrow m.ty (es.getD m.a 0)
  let b := narrow m.ty (if m.bk then p.const m.b else es.getD m.b 0)
  let c := narrow m.ty (es.getD m.c 0)
  let sat (i : Int) : W32 × Bool := let y := satTo m.ty i; (ofI y.1, y.2)
  let f (x : FV) : W32 × Bool := (toF32 x, false)
  match m.opc with
  | 0x01 => sat (asInt m.ty a + asInt m.ty b)
  | 0x02 => sat (asInt m.ty a - asInt m.ty b)
  | 0x03 => (ofI (asInt 1 a * asInt 1 b), false)
  | 0x04 => (shift m.opc m.ty (m.imm % 32) a, false)
  | 0x05 => (shift m.opc m.ty (m.imm % 32) a, false)
  | 0x06 => (shift m.opc m.ty (m.imm % 32) a, false)
  | 0x07 => (a &&& b, false)
  | 0x08 => (a ||| b, false)
  | 0x09 => (a ^^^ b, false)
  | 0x0A => (minMax m.ty false a b, false)
  | 0x0B => (minMax m.ty true a b, false)
  | 0x0C => (minMax m.ty false (minMax m.ty true a b) c, false)
  | 0x0D => (if cond m.ty (m.imm % 8) a b then 0xFFFFFFFF else 0, false)
  | 0x0E => (moved m.ty (if nonZero m.ty c then a else b), false)
  | 0x0F => (en.table (m.imm % 16) (a.toNat % 256), false)
  | 0x10 => f (FV.ofInt (asInt 2 a) 0)
  | 0x11 => (toI32 (f32 a), false)
  | 0x12 => f ((f32 a).add (f32 b))
  | 0x13 => f ((f32 a).add (f32 b).negate)
  | 0x14 => f ((f32 a).mul (f32 b))
  | 0x15 => f (((f32 a).mul (f32 b)).add (f32 c))
  | 0x16 => (lutf (en.table (m.imm % 16)) a (p.const m.b) (p.const (m.b + 1)), false)
  | 0x17 => (twoSum a b, false)
  | 0x18 => (moved m.ty (narrow m.ty (v.treg (m.imm % 8) en.i)), false)
  | 0x19 => (moved m.ty (narrow m.ty (v.treg (m.imm % 8) en.x)), false)
  | 0x1A => (moved m.ty (narrow m.ty (v.treg (m.imm % 8) en.y)), false)
  | 0x1B => (BitVec.ofNat 32 (if m.imm.testBit 0 then en.x else en.y), false)
  | _ => (moved m.ty (if m.bk then b else a), false)

/-- One micro-op. -/
def runOp (p : Prog) (en : ElemEnv) (r : ElemRun) (m : MOp) : ElemRun :=
  if m.opc = 0 then r
  else if m.opc = 0x1C then
    { r with v := r.v.setMask (m.imm % 8) en.i (nonZero m.ty (narrow m.ty (r.e.getD m.a 0))) }
  else
    let y := mopValue p en r.v r.e m
    { r with e := r.e.set m.d y.1, isat := r.isat || y.2 }

/-- A program run on one element from starting registers; the element registers keep what it leaves (R237). -/
def runElem (p : Prog) (en : ElemEnv) (v : Vec) (es : List W32) : ElemRun :=
  let r := p.ops.foldl (runOp p en) { v := v, e := es, isat := false }
  { r with v := { r.v with eregs := r.e } }

/-- A 32-bit table of the core (R243). (DEDUCED, log 22) -/
def Core.table (k : Core) (n i : Nat) : W32 :=
  let b (j : Nat) : Byte := Sparse.get 0 k.cb (n * 1024 + 4 * i + j)
  BitVec.ofNat 32 (ofLe [b 0, b 1, b 2, b 3])

/-- The registers at program start (R245). -/
def startRegs (e0 e1 e2 e3 : W32) : List W32 := [e0, e1, e2, e3, 0, 0, 0, 0]

/-- What the converter takes from a result (E0, E1): an I32 as its FP32 and the rest, exactly (R245). -/
def resultOf (i32 : Bool) (es : List W32) : W32 × W32 :=
  if i32 then
    let v := asInt 2 (es.getD 0 0)
    let a := toF32 (FV.ofInt v 0)
    (a, toF32 ((FV.ofInt v 0).add (f32 a).negate))
  else (es.getD 0 0, es.getD 1 0)

/-! ### Rake integers and records (R229 to R235) -/

/-- A Rake integer of a word, with RSAT and RNAN (R229). -/
def rakeInt (i32 : Bool) (x : Int) (w : W32) : Int × Bool × Bool :=
  if i32 then (asInt 2 w, false, false)
  else match f32 w with
    | .nan => (0, false, true)
    | .inf s => (if s then -(2 ^ 31 - 1) else 2 ^ 31 - 1, true, false)
    | .fin s m e =>
      let v := rneShift m (e - x)
      let k := min v (2 ^ 31 - 1)
      (if s then -(k : Int) else k, v ≠ k, false)

/-- A record being formed (R235); `n` and `nnz` unbounded until it is written. -/
structure RakeRec where
  max : Option W32 := none
  argmax : Nat := 0
  min : Option W32 := none
  n : Nat := 0
  nnz : Nat := 0
  sum : Int := 0
  sq : Nat := 0
  rsat : Bool := false
  rnan : Bool := false
  rovf : Bool := false
  final : Bool := false      -- FINAL of a record that COMBINE has read
  deriving DecidableEq, Repr

/-- An element of type I32 or FP32 with index `i` taken into a record (R229 to R231). -/
def RakeRec.take (i32 : Bool) (x : Int) (r : RakeRec) (i : Nat) (w : W32) : RakeRec :=
  let ty := if i32 then 2 else 3
  let q := rakeInt i32 x w
  let r1 := { r with n := r.n + 1, nnz := r.nnz + b2n (nonZero ty w), rsat := r.rsat || q.2.1, rnan := r.rnan || q.2.2 }
  if q.2.2 then r1
  else
    let r2 := { r1 with sum := r1.sum + q.1, sq := r1.sq + q.1.natAbs * q.1.natAbs }
    let up := match r2.max with | none => true | some m => wLt ty m w || (wEq ty m w && i < r2.argmax)
    let dn := match r2.min with | none => true | some m => wLt ty w m
    { r2 with max := if up then some w else r2.max, argmax := if up then i else r2.argmax,
              min := if dn then some w else r2.min }

/-- FLAGS of a record. -/
def RakeRec.flags (r : RakeRec) (final : Bool) : Nat :=
  pack [(1, b2n r.rsat), (1, b2n r.rnan), (1, b2n r.rovf), (1, b2n (final || r.final))]

/-- Which fields an operation writes (R228): MAX, ARGMAX, MIN, NNZ, SUM, SQ. (DEDUCED, log 62) -/
def rakeFields (op : Nat) : List Bool :=
  match op with
  | 0 => [false, false, false, false, true, false]
  | 1 => [true, false, false, false, false, false]
  | 2 => [false, false, true, false, false, false]
  | 3 => [true, true, false, false, false, false]
  | 4 => [false, false, false, true, false, false]
  | 5 => [false, false, false, false, false, true]
  | 6 => [false, false, false, false, true, true]
  | _ => [true, true, true, true, true, true]

/-- MEAN and VAR of a record (R232). -/
def RakeRec.moments (r : RakeRec) (x : Int) : W32 × W32 :=
  if r.n = 0 || r.rnan || r.rovf then (nan32, nan32)
  else
    let m := quotient r.sum.natAbs x r.n 0 28
    let d : Nat := r.n * r.sq - r.sum.natAbs * r.sum.natAbs
    let v := quotient d (2 * x) (r.n * r.n) 0 28
    (toF32 (.fin (r.sum < 0) m.1 m.2), toF32 (.fin false v.1 v.2))

/-- A record's 48 bytes over the bytes `old` that stand there: only the operation's fields are written (R228, R231, R235).
MAX, MIN and ARGMAX of no element are stated nowhere: they come from the free value `fr` (DESIGN CHOICE, log 8).
(DEDUCED, log 62) -/
def RakeRec.bytes (r : RakeRec) (op : Nat) (x : Int) (old : List Byte) (fr : Nat) : List Byte :=
  let f := rakeFields op
  let on (i o n v : Nat) : List Byte := if f.getD i false then toLe n v else (padTo 48 old).drop o |>.take n
  let open_ (k v : Nat) : Nat := if r.n = 0 then bits fr (32 * k) 32 else v
  let mx : Nat := if r.rnan then 0x7FC00000 else open_ 0 (r.max.getD 0).toNat
  let mn : Nat := if r.rnan then 0x7FC00000 else open_ 1 (r.min.getD 0).toNat
  let am : Nat := if r.rnan then 0xFFFFFFFF else open_ 2 r.argmax
  let mo := r.moments x
  on 0 0 4 mx ++ on 1 4 4 am ++ on 2 8 4 mn ++ toLe 4 (Nat.min r.n 0xFFFFFFFF) ++
  on 3 16 4 (Nat.min r.nnz 0xFFFFFFFF) ++ on 4 20 12 (if op = 6 then mo.1.toNat else ofInt 96 r.sum) ++
  on 5 32 12 (if op = 6 then mo.2.toNat else r.sq % 2 ^ 96) ++ toLe 2 (ofInt 16 x) ++ toLe 2 (r.flags (op = 6))

/-- A record read back for COMBINE, with its X (R234, R235). -/
def rakeOfBytes (b : List Byte) : RakeRec × Int :=
  let f := leAt b 46 2
  ({ max := some (BitVec.ofNat 32 (leAt b 0 4)), argmax := leAt b 4 4, min := some (BitVec.ofNat 32 (leAt b 8 4)),
     n := leAt b 12 4, nnz := leAt b 16 4, sum := sext 96 (leAt b 20 12), sq := leAt b 32 12,
     rsat := f.testBit 0, rnan := f.testBit 1, rovf := f.testBit 2, final := f.testBit 3 }, sext 16 (leAt b 44 2))

/-- Two records merged; a record without elements has no MAX or MIN (R234). -/
def RakeRec.merge (i32 : Bool) (a b : RakeRec) : RakeRec :=
  let ty := if i32 then 2 else 3
  let am : Option W32 := if a.n = 0 then none else a.max
  let bm : Option W32 := if b.n = 0 then none else b.max
  let up := match am, bm with
    | none, _ => true
    | _, none => false
    | some x, some y => wLt ty x y || (wEq ty x y && b.argmax < a.argmax)
  let an : Option W32 := if a.n = 0 then none else a.min
  let bn : Option W32 := if b.n = 0 then none else b.min
  let dn := match an, bn with | none, _ => true | _, none => false | some x, some y => wLt ty y x
  { max := if up then bm else am, argmax := if up then b.argmax else a.argmax, min := if dn then bn else an,
    n := a.n + b.n, nnz := a.nnz + b.nnz, sum := a.sum + b.sum, sq := a.sq + b.sq,
    rsat := a.rsat || b.rsat, rnan := a.rnan || b.rnan, rovf := a.rovf || b.rovf,
    final := a.final || b.final }

/-! ### Command summaries (R250) -/

/-- The summary of a command over its final E0 words, in order; `masked` says that an element was masked.
(DESIGN CHOICE, log 8) -/
def summaryOf (i32 isat masked empty : Bool) (sx : Int) (ws : List W32) : Summary :=
  let ty := if i32 then 2 else 3
  let r := ws.foldl (fun r w => r.take i32 sx 0 w) ({} : RakeRec)
  let mx := ws.foldl (fun (m : Option W32) w => if !i32 && isNan w then m else match m with
    | none => some w
    | some v => if wLt ty v w then some w else m) none
  { smax := mx.getD (if i32 then 0x80000000 else 0xFF800000)
    ssum := toF32 (FV.ofInt r.sum sx)
    scnt := BitVec.ofNat 32 (min r.nnz 0xFFFFFFFF)
    sflg := BitVec.ofNat 32 (pack [(1, b2n r.rnan), (1, b2n isat), (1, b2n r.rsat), (1, b2n masked),
      (1, b2n (empty || ws.isEmpty))]) }

end Sys2Proof.Machine
end

