-- ==== Sys2Proof/Machine/Stream.lean ====
section
/-! DEFINITION. Reading and writing for the engines of a core: element streams, ZRL encoding, and where an engine's accesses
go (R183, R184, R272 to R275, R364). -/
namespace Sys2Proof.Machine

/-! ### Accesses of an engine by device physical address -/

/-- The core as a requester. -/
def coreReq (c : Nat) : Req := .core (Fin.ofNat 256 c)

/-- An engine of core `c` reads `n` bytes: its own scratchpad as class `cls`, anything else as the core. A wait that has timed out
leaves the own slot's data as stored, another core's zero-filled (R275). (DEDUCED, log 19) -/
def State.engRead (s : State) (c a n cls : Nat) (waited : List Nat := []) : Got × State :=
  if n = 0 then (.ok [], s)
  else match whereIs a with
    | .spad d off =>
      if d = c then
        match s.spadRead c off n cls waited with
        | (.ok bs, t) => (.ok bs, t)
        | (.refused, t) => (.refused a, t)
        | (.stall k, t) => (.stall c k, t)
      else match s.readMem (coreReq c) .normal a n with
        | (.stall e k, t) => (if waited.contains (slotKey e k) then .ok (zeros n) else .stall e k, t)
        | y => y
    | _ => s.readMem (coreReq c) .normal a n

/-- The stalled read of an engine of core `c` on a slot of core `d` (R275). -/
def engStall (c d : Nat) (who : StallBy) (n len : Nat) : Stall :=
  { who := who, slot := n, wr := false, off := 0, len := len, data := [], at_ := if d = c then none else some d }

/-- Bytes an engine gets: zeros where the read did not go through. -/
def Got.orZeros (g : Got) (n : Nat) : List Byte := g.bytes n

/-- An engine writes: its own scratchpad as class `cls`; elsewhere as the core. A refused write is dropped; so is one that
meets a slot of another core that stalls (DEDUCED, log 19). -/
def State.engWrite (s : State) (c a : Nat) (bs : List Byte) (cls : Nat) : Put × State :=
  if bs.isEmpty then (.ok, s)
  else match whereIs a with
    | .spad d off =>
      if d = c then
        match s.spadWrite c off bs cls with
        | (.ok, t) => (.ok, t)
        | (.refused _, t) => (.refused a, t)
        | (.stall k, t) => (.stall c k, t)
      else s.writeMem (coreReq c) .normal a bs
    | _ => s.writeMem (coreReq c) .normal a bs

/-! ### ZRL encoding (R183, R184) -/

/-- A block of entries is a zero block (R180). -/
def Side.zeroEnts (x : Side) (es : List Nat) : Bool := es.all (fun e => isZeroCode x.fmt x.zp (entCode e))

/-- Count bytes of a run of `n` zero blocks before a stored block. -/
def zrlCounts (n : Nat) : List Byte := List.replicate (n / 255) 0xFF ++ [BitVec.ofNat 8 (n % 255)]

/-- Stored blocks, each with whether it is a zero block, in canonical form; `run` zero blocks wait (R184). -/
def zrlPut : Nat → List (Bool × List Byte) → List Byte
  | _, [] => []
  | run, (z, b) :: rest => if z then zrlPut (run + 1) rest else zrlCounts run ++ b ++ zrlPut 0 rest

/-- A row of codes in canonical ZRL form, its last block filled up with zero codes (R183, R184). -/
def zrlRow (f zp : Nat) (codes : List Nat) : List Byte :=
  let bl := chunksOf 16 (ceilDiv codes.length 16) codes
  zrlPut 0 (bl.map (fun b =>
    let b := b ++ List.replicate (16 - b.length) (zeroCode f zp)
    (b.all (isZeroCode f zp), packCodes f b)))

end Sys2Proof.Machine
end

