-- ==== Sys2Proof/Machine/Jobs.lean ====
section
/-! DEFINITION. The engines' commands as jobs: the queue place of each engine, what an engine reads and writes in the
scratchpad, and the ranges a command names (R274, R275, R345, R346, R349). -/
namespace Sys2Proof.Machine

/-- The job of an engine that runs. -/
def State.runningJob (s : State) (c : Nat) (e : Engine) : Option Job :=
  (s.core c).seq.jobs.find? (fun j => j.eng = e && j.running)

/-- The job at an engine's queue place. -/
def State.queuedJob (s : State) (c : Nat) (e : Engine) : Option Job :=
  (s.core c).seq.jobs.find? (fun j => j.eng = e && !j.running)

/-- An engine's queue place is free (R345). -/
def State.placeFree (s : State) (c : Nat) (e : Engine) : Bool := (s.queuedJob c e).isNone

/-- The queued job of an engine runs where none does. A VPROG starts by VPROG_START alone (R248). -/
def State.kick (s : State) (c : Nat) (e : Engine) : State :=
  if e = .vprog || (s.runningJob c e).isSome then s
  else s.modSeq c (fun q => { q with jobs := q.jobs.map (fun j => if j.eng = e then { j with running := true } else j) })

/-- A command takes its engine's queue place. -/
def State.enqueue (s : State) (c : Nat) (e : Engine) (w : BitVec 128) (vlen : Nat) : State :=
  let j : Job := { eng := e, cmd := w, vlen := vlen, ctx := ((s.curCtx c).getD {}).id }
  (s.modSeq c (fun q => { q with jobs := q.jobs ++ [j] })).kick c e

/-- The running job of an engine ends and the queued one follows. -/
def State.endJob (s : State) (c : Nat) (e : Engine) : State :=
  (s.modSeq c (fun q => { q with jobs := q.jobs.filter (fun j => !(j.eng = e && j.running)) })).kick c e

/-- The job of an engine that waited for a slot takes its data as stored from here on (R275): the running one, else the queued
one, whose program image is being read. -/
def State.jobAsStored (s : State) (c : Nat) (e : Engine) (key : Nat) : State :=
  let run := (s.runningJob c e).isSome
  s.modSeq c (fun q => { q with jobs := q.jobs.map (fun j =>
    if j.eng = e && j.running = run then { j with asStored := j.asStored ++ [key] } else j) })

/-- A VPROG or RAKE that completes or aborts releases the slots of the ranges it has read, for its class (R272, R273). R272 names no
release by a CONV, SORT or MERGE. (DEDUCED, log 132) -/
def State.jobRelease (s : State) (c cls : Nat) (l : List (Nat × Nat)) : State :=
  s.each (l.flatMap (fun y => s.slotsAt c y.1 y.2)).eraseDups (fun t n => t.slotRelease c n cls)

/-! ### What an engine reads and writes -/

/-- A range of scratchpad bytes lies inside the scratchpad (R346). -/
def spadFits (off n : Nat) : Bool := off + n ≤ 0x80000

/-- The accesses of an engine to the ranges it reads: false where one stalls, the stall being kept (R274, R275). -/
def State.jobTouch (s : State) (c : Nat) (e : Engine) (waited : List Nat) (cls : Nat) : List (Nat × Nat) → Bool × State
  | [] => (true, s)
  | (off, n) :: rest =>
    if n = 0 then s.jobTouch c e waited cls rest
    else match s.spadRead c off n cls waited with
      | (.stall k, t) =>
        (false, if t.stalled c (.eng e) then t
                else t.stallOn c { who := .eng e, slot := k, wr := false, off := off, len := n, data := [] })
      | (_, t) => t.jobTouch c e waited cls rest

/-- Scratchpad bytes as a class reads them: zeros where its access is refused (R274). -/
def State.asClass (s : State) (c cls off n : Nat) : List Byte :=
  match s.slotCheck c off n false cls with
  | .refused _ => zeros n
  | _ => s.spad c off n

/-- An engine writes; a stalled write waits with its data (R275). -/
def State.jobWrite (s : State) (c : Nat) (e : Engine) (off : Nat) (bs : List Byte) : State :=
  if bs.isEmpty then s
  else match s.spadWrite c off bs pOut with
    | (.stall k, t) => t.stallOn c { who := .eng e, slot := k, wr := true, off := off, len := bs.length, data := bs }
    | (_, t) => t

end Sys2Proof.Machine
end

