-- ==== Sys2Proof/Machine/Convert.lean ====
section
/-! DEFINITION. The output converter: tensor and block scales, grids and roundings, rotation, pairs and the conversion
exceptions (R60 to R76). -/
namespace Sys2Proof.Machine

/-- What a conversion needs: target format and zero point, scales, rounding, and the seeds of its draws. -/
structure Conv where
  fmt : Nat
  zp : Nat := 0
  block : Bool := false
  ten : Option Nat := none        -- the output tensor scale's FP32 word
  stoch : Bool := false
  seed : Nat := 0
  tile : Nat := 0
  rot : Nat := 0
  rotN : Nat := 32
  rseed : Nat := 0
  deriving DecidableEq, Repr

/-- Qmax of a format (R61). -/
def qmaxOf (f zp : Nat) : FV :=
  match f with
  | 0x00 => .fin false 1 0
  | 0x01 => .fin false 1 0
  | 0x09 => .fin false (max zp (255 - zp)) 0
  | 0x0A => .fin false 127 0
  | 0x0B => .fin false 127 0
  | _ => if isFloat f then (fpOf f).qmax else .fin false (2 ^ (intN f - 1) - 1) 0

/-- The smallest block exponent that brings a largest magnitude under Qmax (R61). -/
def blockExp (q : FV) (amax : FV) : Int :=
  match amax, q with
  | .fin _ m e, .fin _ n x =>
    if m = 0 then -127
    else
      let k := topExp m e - topExp n x
      let b := if ltFin q (amax.scale (-k)) then k + 1 else k
      max (-127) (min 127 b)
  | _, _ => -127

/-- The larger of two magnitudes. -/
def maxMag (a b : FV) : FV := if a.lt b then b else a

/-! ### Rounding to a grid (R62 to R65) -/

/-- Bits [63:48] of an element's draw (R65). -/
def Conv.draw (p : Conv) (i : Nat) : Nat := bits (rhash p.seed p.tile i) 48 16

/-- A magnitude m * 2^e rounded to a multiple of 2^q, in units of 2^q. -/
def Conv.roundTo (p : Conv) (i m : Nat) (e q : Int) : Nat :=
  if p.stoch then
    let a := floorShift m (e - q)
    if 0 ≤ e - q then a
    else
      let k := (q - e).toNat
      let f := ((m - a * 2 ^ k) * 2 ^ 16) >>> k
      if p.draw i < f then a + 1 else a
  else rneShift m (e - q)

/-- Magnitudes of a bell grid's values of one sign, zero included, ascending (R65). -/
def bellMags (f : Nat) (neg : Bool) : List Nat :=
  let g := if f = 0x0A then bg4 else bg3
  let l := g.filter (fun v => if neg then v ≤ 0 else 0 ≤ v)
  let m := l.map Int.natAbs
  if neg then m.reverse else m

/-- A magnitude rounded on a bell grid; a tie goes to the smaller magnitude (R63, R65). -/
def Conv.roundBell (p : Conv) (i : Nat) (neg : Bool) (m : Nat) (e : Int) : Nat :=
  let y : FV := .fin false m e
  let l := bellMags p.fmt neg
  let a := (l.filter (fun v => !(y.lt (.fin false v 0)))).getLastD 0
  match l.find? (fun v => y.lt (.fin false v 0)) with
  | none => a
  | some b =>
    let d : FV := addFin y (.fin true a 0)
    let u := b - a
    if p.stoch then
      match d with
      | .fin _ n x => if p.draw i < floorShift (n * 2 ^ 16) x / u then b else a
      | _ => a
    else if FV.lt (.fin false u 0) (d.scale 1) then b else a

/-- What the converter makes of one element: its code and whether it saturated or was NaN. -/
structure Elem where
  code : Nat
  sat : Bool := false
  nan : Bool := false
  deriving DecidableEq, Repr

/-- Code of a bell-grid value. -/
def bellCode (f : Nat) (v : Int) : Nat := (if f = 0x0A then bg4 else bg3).findIdx (· = v)

/-- Code of a floating-point element of magnitude m * 2^e at most Qmax, zero written as +0 (R62, R75). -/
def Conv.floatCode (p : Conv) (f : Fp) (i : Nat) (neg : Bool) (m : Nat) (e : Int) : Nat :=
  let q := f.quantum m e
  let v := p.roundTo i m e q
  let (v, q) := if ltFin f.qmax (.fin false v q) then (f.top, f.emax - (f.p - 1 : Nat)) else (v, q)
  if v = 0 then 0 else f.encFin neg v q

/-- A pair of a finite value at most Qmax (R73). -/
def Conv.pairCode (p : Conv) (f : Fp) (i w : Nat) (neg : Bool) (m : Nat) (e : Int) : Nat :=
  let hi := p.floatCode f i neg m e
  let d := addFin (.fin neg m e) (f.dec hi).negate
  let lo := match f.round d with
    | .fin s n x => if n = 0 then 0 else f.encFin s n x
    | _ => 0
  hi + lo * 2 ^ (w / 2)

/-- Code and saturation of a finite value (R60 to R63, R73, R75). -/
def Conv.finite (p : Conv) (i : Nat) (neg : Bool) (m : Nat) (e : Int) : Elem :=
  let f := p.fmt
  let q := qmaxOf f p.zp
  let ovr := ltFin q (.fin false m e)
  let y : FV := if ovr then q else .fin false m e
  match y with
  | .fin _ n x =>
    match f with
    | 0x00 => { code := b2n (neg && m ≠ 0), sat := ovr }
    | 0x01 => let v := p.roundTo i n x 0; { code := if v = 0 then 0 else if neg then 3 else 1, sat := ovr }
    | 0x09 =>
      let v : Int := p.roundTo i m e 0
      let c : Int := (if neg then -v else v) + p.zp
      let k : Int := max 0 (min 255 c)
      { code := k.toNat, sat := k ≠ c }
    | 0x0A => let v : Int := p.roundBell i neg n x; { code := bellCode f (if neg then -v else v), sat := ovr }
    | 0x0B => let v : Int := p.roundBell i neg n x; { code := bellCode f (if neg then -v else v), sat := ovr }
    | _ =>
      if isPair f then
        (if ovr then { code := (fpOf f).encFin neg (fpOf f).top ((fpOf f).emax - ((fpOf f).p - 1 : Nat)), sat := true }
         else { code := p.pairCode (fpOf f) i (fmtBits f) neg n x })
      else if isFloat f then { code := p.floatCode (fpOf f) i neg n x, sat := ovr }
      else
        let v : Int := p.roundTo i n x 0
        { code := ofInt (fmtBits f) (if neg then -v else v), sat := ovr }
  | _ => { code := 0 }

/-- Code for NaN without a block scale (R75). -/
def Conv.nanElem (p : Conv) : Nat :=
  if isPair p.fmt then (let c := nanCode (fpOf p.fmt); c + c * 2 ^ (fmtBits p.fmt / 2))
  else if isFloat p.fmt then nanCode (fpOf p.fmt)
  else zeroCode p.fmt p.zp

/-- An infinite value: an infinity where the format has one, else Qmax with AMAXOVF (R75). -/
def Conv.infElem (p : Conv) (i : Nat) (neg : Bool) : Elem :=
  let f := p.fmt
  if isFloat f && f ≠ 0x10 then { code := (fpOf f).encInf neg }
  else if f = 0x09 then { code := if neg then 0 else 255, sat := true }
  else match qmaxOf f p.zp with
    | .fin _ m e => { (p.finite i neg m e) with sat := true }
    | _ => { code := 0 }

/-- One element of a group whose scale is 2^k. -/
def Conv.elem (p : Conv) (k : Int) (i : Nat) (x : FV) : Elem :=
  match x with
  | .nan => { code := p.nanElem, nan := true }
  | .inf s => p.infElem i s
  | .fin s m e => p.finite i s m (e - k)

/-- A converted group: codes, its scale byte, whether an element saturated or was NaN. -/
structure Group4 where
  codes : List Nat
  scale : Byte
  sat : Bool
  nan : Bool
  deriving DecidableEq, Repr

/-- A group converted after the tensor-scale step; `supplied` is a block-scale byte from history (R61, R75, R159). -/
def Conv.group (p : Conv) (supplied : Option Byte) (xs : List (Nat × FV)) : Group4 :=
  if p.block then
    let fin := (xs.filter (fun x => !x.2.exceptional)).map (·.2.abs)
    let k := match supplied with
      | some b => e8 b
      | none => blockExp (qmaxOf p.fmt p.zp) (fin.foldl maxMag .zero)
    if xs.any (fun x => x.2 = .nan) || supplied = some 0xFF then
      { codes := xs.map (fun _ => zeroCode p.fmt p.zp), scale := 0xFF, sat := false, nan := true }
    else
      let es := xs.map (fun x => p.elem k x.1 x.2)
      { codes := es.map (·.code), scale := BitVec.ofNat 8 (k + 127).toNat, sat := es.any (·.sat), nan := false }
  else
    let es := xs.map (fun x => p.elem 0 x.1 x.2)
    { codes := es.map (·.code), scale := 0, sat := es.any (·.sat), nan := es.any (·.nan) }

/-! ### Rotation (R67 to R69) -/

/-- One stage of butterflies of half-length `h`. -/
def butterfly (h : Nat) (x : List Int) : List Int :=
  (upTo x.length).map (fun j =>
    if j / h % 2 = 0 then x.getD j 0 + x.getD (j + h) 0 else x.getD (j - h) 0 - x.getD j 0)

/-- The Hadamard transform of a list of 2^k integers. -/
def hadamard (k : Nat) (x : List Int) : List Int := (upTo k).foldl (fun y i => butterfly (2 ^ i) y) x

/-- A block rotated; `base` is the row position of its first element (R68, R69). -/
def Conv.rotate (p : Conv) (base : Nat) (xs : List FV) : List FV :=
  if xs.any (·.exceptional) then xs.map (fun _ => .nan)
  else
    let k := Nat.log2 p.rotN
    let es := xs.filterMap (fun x => match x with | .fin _ m e => if m = 0 then none else some (topExp m e) | _ => none)
    match es with
    | [] => xs
    | e :: es =>
      let q := es.foldl max e - 31
      let ints := (upTo xs.length).zip xs |>.map (fun y =>
        let v : Int := match y.2 with | .fin _ m x => (rneShift m (x - q) : Int) | _ => 0
        let neg := y.2.neg != (rhash p.rseed 0xFFFFFFFFFFFFFFFF (base + y.1)).testBit 63
        if neg then -v else v)
      let sc : Int := if p.rot = 1 then (k / 2 : Nat) else ((k + 1) / 2 : Nat)
      ((hadamard k (ints ++ List.replicate (p.rotN - ints.length) 0)).take ints.length).map (fun v => FV.ofInt v (q - sc))

/-- A row's values rotated block by block; `base` is the row position of the first. A last block of fewer than N values is filled up
with zeros (DESIGN CHOICE, log 124). -/
def Conv.rotateRow (p : Conv) (base : Nat) (xs : List FV) : List FV :=
  if p.rot = 0 then xs
  else
    let bl := chunksOf p.rotN xs.length xs
    ((upTo bl.length).zip bl).flatMap (fun y => p.rotate (base + y.1 * p.rotN) y.2)

/-! ### A row (R60, R159) -/

/-- The FP32 reciprocal of an output tensor scale, rounded to nearest even; none for an invalid scale (R59, R60). -/
def recip (w : Nat) : Option FV :=
  match tensorScale w with
  | none => none
  | some (e, m) =>
    let (q, x) := quotient 1 0 m (e - 23) 26
    some (fp32.round (.fin false q x))

/-- Exact values entering the converter: rounded to FP32 unless the output is a pair; then rotation and the tensor scale. A finite
value beyond FP32's range is an infinity from the first rounding on, and a pair's values rotate as they are
(DESIGN CHOICE, log 124; DESIGN CHOICE, log 125). -/
def Conv.enterV (p : Conv) (base : Nat) (ys : List FV) : List FV :=
  let zs := p.rotateRow base (if isPair p.fmt then ys else ys.map fp32.round)
  match p.ten with
  | none => zs
  | some w => match recip w with
    | some r => zs.map (fun z => z.mul r)
    | none => zs.map (fun _ => .nan)

/-- Values a + b entering the converter. -/
def Conv.enter (p : Conv) (base : Nat) (xs : List (W32 × W32)) : List FV :=
  p.enterV base (xs.map (fun x => (f32 x.1).add (f32 x.2)))

/-- A converted row. -/
structure RowOut where
  codes : List Nat
  scales : List Byte
  sat : Bool
  nan : Bool
  nz : Nat        -- values non-zero on entry
  lost : Nat      -- of these, written as the code for zero
  amax : FV
  deriving DecidableEq, Repr

/-- A row from the values that entered and its converted groups. -/
def Conv.rowOut (p : Conv) (ins : List FV) (os : List Group4) : RowOut :=
  let nzs := ins.map (fun x => match x with | .fin _ m _ => m ≠ 0 | .inf _ => true | .nan => false)
  let codes := os.flatMap (·.codes)
  { codes := codes, scales := os.map (·.scale), sat := os.any (·.sat), nan := os.any (·.nan)
    nz := (nzs.filter id).length
    lost := if p.fmt = 0 then 0 else ((nzs.zip codes).filter (fun y => y.1 && y.2 = zeroCode p.fmt p.zp)).length
    amax := ins.foldl (fun a x => match x with | .nan => a | y => maxMag a y.abs) .zero }

/-- A row of exact values converted: elements numbered from `i0`, groups of `og`, `supplied` giving the block-scale bytes from
history. -/
def Conv.rowV (p : Conv) (i0 base og : Nat) (supplied : Nat → Option Byte) (ins : List FV) : RowOut :=
  let ys := p.enterV base ins
  let gs := chunksOf og ys.length ((upTo ys.length).zip ys)
  p.rowOut ins (((upTo gs.length).zip gs).map (fun y => p.group (supplied y.1) (y.2.map (fun z => (i0 + z.1, z.2)))))

/-- Records of a capped row converted: `ix` their element indices, `base` the place of the first in its row (R204, R65). -/
def Conv.capped (p : Conv) (base : Nat) (ix : List Nat) (xs : List (W32 × W32)) : RowOut :=
  let ins := xs.map (fun x => (f32 x.1).add (f32 x.2))
  p.rowOut ins [p.group none (ix.zip (p.enterV base ins))]

/-- A row of values a + b converted. -/
def Conv.row (p : Conv) (i0 base og : Nat) (supplied : Nat → Option Byte) (xs : List (W32 × W32)) : RowOut :=
  p.rowV i0 base og supplied (xs.map (fun x => (f32 x.1).add (f32 x.2)))

end Sys2Proof.Machine
end

