-- ==== Sys2Proof/Machine/Output.lean ====
section
/-! DEFINITION. The output path: chunks of anchor conversion, fused summary, mask, element program, converter and write, and
the tile's end with the responses to its scales (R58 to R62, R75, R121, R153, R159 to R164, R169, R223 to R226, R233, R244 to
R246, R359). -/
namespace Sys2Proof.Machine

/-! ### Anchor conversion (R58, R225) -/

/-- A tensor scale's significand; 1 where there is none. -/
def Side.sig (x : Side) : FV :=
  if hasTensor x.sc then (match tensorScale x.ten with | some (_, m) => .fin false m (-23) | none => .nan)
  else .fin false 1 0
/-- The product of the operands' significands, one FP32 (R58). -/
def Desc.sigma (d : Desc) : FV := fp32.round ((Side.sig d.sideA).mul (Side.sig d.sideW))

/-- An FP32 result with what overflows held at the largest finite magnitude, and whether it did; a zero is +0 (R225). -/
def clampF32 (x : FV) : W32 × Bool :=
  match fp32.round x with
  | .inf s => (if s then 0xFF7FFFFF else 0x7F7FFFFF, true)
  | .fin s m e => if m = 0 then (0, false) else (toF32 (.fin s m e), false)
  | .nan => (nan32, false)

/-- E0 of an accumulator, and whether it sets SOVF (R225). An invalid tensor scale is NaN on every group (R59). -/
def e0Of (d : Desc) (a : Acc) : W32 × Bool :=
  if a.nan then (nan32, false)
  else if !a.active then (0, false)
  else match Desc.sigma d with
    | .nan => (nan32, false)
    | sg => clampF32 ((FV.ofInt a.val (a.anchor - 31)).mul sg)

/-- E_A + E_W of the index-match path: the operands are single-exponent (R52, R199). -/
def Desc.imExp (d : Desc) : Option Int :=
  let one (x : Side) : Option Int := if hasTensor x.sc then (tensorScale x.ten).map (·.1) else some 0
  match one d.sideA, one d.sideW with
  | some a, some b => some (a + b)
  | _, _ => none

/-- E0 of an index-match record's sum (R225). -/
def imE0 (d : Desc) (sum : Int) : W32 × Bool :=
  match d.imExp with
  | none => (nan32, false)
  | some e => clampF32 ((FV.ofInt sum e).mul (Desc.sigma d))

/-! ### What passes through the output path -/

/-- An output on its way: step row and column in the tile, E0, SOVF, its mask bit. -/
structure Elt where
  row : Nat
  col : Nat
  e0 : W32
  sovf : Bool
  active : Bool
  deriving DecidableEq, Repr

/-- A chunk of the index-match path: its row of the tile, the place of its first record in the row, its records, and whether it is
the row's last. -/
structure ImChunk where
  row : Nat
  from_ : Nat
  recs : List (Nat × Int)
  last : Bool
  deriving DecidableEq, Repr

/-- The chunks of the tile's final runs: up to 256 records of one row each (R203, R223). -/
def Tile.imChunks (t : Tile) : List ImChunk :=
  t.finals.flatMap (fun r =>
    let n := ceilDiv r.recs.length 256
    ((upTo n).zip (chunksOf 256 n r.recs)).map (fun y => { row := r.row, from_ := 256 * y.1, recs := y.2, last := y.1 + 1 = n }))

/-- E0 of an index-match record of a tile: NaN where a NaN operand has reached its output (R49, R225). -/
def Tile.imE0 (t : Tile) (d : Desc) (row : Nat) (y : Nat × Int) : W32 × Bool :=
  if t.imNan.contains (row, y.1) then (nan32, false) else Machine.imE0 d y.2

/-- The outputs of chunk `k`: 256 of the tile in step-major order; on the index-match path up to 256 records of one row
(R203, R223). -/
def State.chunkElts (s : State) (c h : Nat) (g : Geo) (k : Nat) : List Elt :=
  let t := s.tile c h
  if Desc.imatch g.d then
    match t.imChunks[k]? with
    | some x => x.recs.map (fun y =>
        let e := t.imE0 g.d x.row y
        { row := x.row, col := y.1 - g.col0, e0 := e.1, sovf := e.2, active := true })
    | none => []
  else (upTo (min 256 (g.outs - 256 * k))).map (fun j =>
    let i := 256 * k + j
    let a := t.acc.getD i {}
    let e := e0Of g.d a
    { row := i / g.cols, col := i % g.cols, e0 := e.1, sovf := e.2, active := a.active })

/-- Chunks of the tile. -/
def State.chunkTotal (s : State) (c h : Nat) (g : Geo) : Nat :=
  if Desc.imatch g.d then (s.tile c h).imChunks.length else ceilDiv g.outs 256

/-- Output row and column in the tile of an element: step rows are output columns under SSIDE (R78). (DEDUCED, log 24) -/
def Geo.outPos (g : Geo) (e : Elt) : Nat × Nat := if g.sside then (e.col, e.row) else (e.row, e.col)
/-- Output rows and columns of the tile within the actual lengths. -/
def Geo.mA (g : Geo) : Nat := if g.sside then g.colsA else g.rowsA
def Geo.nA (g : Geo) : Nat := if g.sside then g.rowsA else g.colsA
/-- An element lies within the actual lengths. (DEDUCED, log 65) -/
def Geo.inside (g : Geo) (e : Elt) : Bool := e.row < g.rowsA && (Desc.imatch g.d || e.col < g.colsA)

/-! ### The auxiliary operand (R226, R245) -/

/-- First byte of the auxiliary row of output row `m`, laid out as a dense output (R226, R359). -/
def Geo.auxAt (g : Geo) (m : Nat) : Nat := g.d.auxb + (g.b * g.d.mA g.alen + g.tm * g.d.mt + m) * g.d.ostr
/-- The tile's auxiliary ZRL tensor: with ZRLO the auxiliary operand lies as such an output does (R226, R359). -/
def Geo.auxZrl (g : Geo) : ZTensor :=
  let p := g.d.space g.alen
  { base := g.d.auxb + ((g.b * p.tm + g.tm) * p.tn + g.tn) * g.d.ozsz, rows := g.mA, first := 0, lo := 0, hi := g.nA }
/-- First scale byte of that row: the output's scale base moved as AUXB is from OBASE (DEDUCED, log 24). -/
def Geo.auxScAt (g : Geo) (m : Nat) : Nat :=
  g.d.oscb + g.d.auxb - g.d.obase + (g.b * g.d.mA g.alen + g.tm * g.d.mt + m) * ceilDiv (g.d.nA g.alen) g.d.og

/-- E2 and E3 of an auxiliary code under a block-scale byte (R245). -/
def auxVal (d : Desc) (code : Nat) (sc : Option Byte) : W32 × W32 :=
  let e : Option Int := match sc with | some b => if b = 0xFF then none else some (e8 b) | none => some 0
  let t : Option (Int × FV) := if hasTensor d.auxsc then (tensorScale d.tscx).map (fun x => (x.1, .fin false x.2 (-23)))
    else some (0, .fin false 1 0)
  match e, t with
  | some e, some (x, sg) =>
    let f (v : FV) : W32 := toF32 ((v.scale (e + x)).mul sg)
    if isPair d.auxfmt then
      let w := fmtBits d.auxfmt / 2
      (f ((fpOf d.auxfmt).dec (bits code 0 w)), f ((fpOf d.auxfmt).dec (bits code w w)))
    else (f (elemVal d.auxfmt d.zpO (fun _ => 0) code), 0)
  | _, _ => (nan32, if isPair d.auxfmt then nan32 else 0)

/-- Scratchpad slots of core `c` that a range of addresses touches. -/
def State.slotsOfRange (s : State) (c a n : Nat) : List Nat :=
  match whereIs a with
  | .spad d off => if d = c then s.slotsAt c off n else []
  | _ => []

/-- A read of the output path as class VEC: its bytes, zeros with POISON where it is refused; none where a slot stalls, the stall
being kept (R274, R275, R578). -/
def State.outRead (s : State) (c h a n : Nat) : Option (List Byte) × State :=
  match s.engRead c a n cVec (s.tile c h).outStored with
  | (.stall d k, t) => (none, t.stallOn c (engStall c d (.out h) k n))
  | (x, t) =>
    let u := t.modTile c h (fun y => { y with aslots := (y.aslots ++ s.slotsOfRange c a n).eraseDups })
    (some (x.orZeros n), if x.good then u else u.flagTile c h [fPOISON])

/-- The auxiliary codes of one output row, columns `lo` to `hi - 1` of the tile, and whether its ZRL stream is malformed; none where
a slot stalls (R183, R185, R226). -/
def State.auxCodes (s : State) (c h : Nat) (g : Geo) (m lo hi : Nat) : Option (List Nat × Bool) × State :=
  let f := g.d.auxfmt
  if g.d.zrlo then
    let z := g.auxZrl
    match s.outRead c h (z.base + 4 * m) 8 with
    | (none, t) => (none, t)
    | (some off, t) =>
      let bl := blockBytes f false
      let sg := z.seg bl 16 off
      match t.outRead c h sg.1 sg.2 with
      | (none, u) => (none, u)
      | (some bs, u) =>
        let y := zrlBlocks bl (ceilDiv g.nA 16) bs
        let codes := y.1.flatMap (fun b => match b with
          | some b => codesAt b f 0 16
          | none => List.replicate 16 (zeroCode f g.d.zpO))
        (some ((codes.drop lo).take (hi - lo), y.2 || leAt off 4 4 < leAt off 0 4), u)
  else
    let n0 := g.tn * g.d.nt
    let a0 := (n0 + lo) * fmtBits f / 8
    match s.outRead c h (g.auxAt m + a0) (ceilDiv ((n0 + hi) * fmtBits f) 8 - a0) with
    | (none, t) => (none, t)
    | (some bs, t) => (some ((upTo (hi - lo)).map (fun i => codeAt (zeros a0 ++ bs) f (n0 + lo + i)), false), t)

/-- E2 and E3 of the elements of a chunk, row by row, and the rows whose ZRL stream is malformed, named with their first column;
none where a slot stalls. A row is its place in the tile, with the elements' places in the chunk and columns. -/
def State.auxOf (s : State) (c h : Nat) (g : Geo) : List (Nat × List (Nat × Nat)) → List (Nat × W32 × W32) → List Nat →
    Option (List (Nat × W32 × W32) × List Nat) × State
  | [], acc, bad => (some (acc, bad), s)
  | (m, ns) :: rest, acc, bad =>
    let lo := (ns.map (·.2)).foldl min (2 ^ 32)
    let hi := (ns.map (·.2)).foldl max 0 + 1
    match s.auxCodes c h g m lo hi with
    | (none, t) => (none, t)
    | (some (codes, mal), t) =>
      match t.outRead c h (g.auxScAt m) (if hasBlock g.d.auxsc then ceilDiv (g.d.nA g.alen) g.d.og else 0) with
      | (none, u) => (none, u)
      | (some sc, u) =>
        let vs := ns.map (fun y => (y.1, auxVal g.d (codes.getD (y.2 - lo) 0)
          (if hasBlock g.d.auxsc then some (sc.getD ((g.tn * g.d.nt + y.2) / g.d.og) 0) else none)))
        u.auxOf c h g rest (acc ++ vs) (if mal && lo = 0 then bad ++ [m] else bad)

/-! ### The element program on a chunk (R244 to R246) -/

/-- Results of a chunk's elements, in order; `ax` gives E2 and E3 by the element's place in the chunk. -/
def runChunk (k : Core) (g : Geo) (ax : List (Nat × W32 × W32)) (es : List (Nat × Elt)) : List (W32 × W32) × Vec :=
  let p : Prog := k.vec.store0
  es.foldl (fun st y =>
    let e := y.2
    let a : W32 × W32 := ((ax.find? (·.1 = y.1)).map (·.2)).getD (0, 0)
    if !e.active then (st.1 ++ [if g.d.mmode then (0, 0) else (e.e0, 0)], st.2)
    else
      let env : ElemEnv := { i := e.row * g.cols + e.col, x := g.col0 + e.col, y := g.row0 + e.row, table := k.table }
      let r := runElem p env st.2 (startRegs e.e0 0 a.1 a.2)
      (st.1 ++ [resultOf false r.e], r.v)) ([], k.vec)

/-! ### Fused summaries (R231, R233) -/

/-- The record of step row `r` over its outputs within the actual lengths and active, none of them in a row past the actual lengths;
index: the layer-global column. -/
def State.rowRecord (s : State) (c h : Nat) (g : Geo) (r : Nat) : RakeRec :=
  let x := sext 8 g.d.xrow
  let t := s.tile c h
  if Desc.imatch g.d then
    ((t.finals.filter (·.row = r)).flatMap (·.recs)).foldl (fun a y => a.take false x y.1 (t.imE0 g.d r y).1) {}
  else if g.rowsA ≤ r then {}
  else (upTo g.colsA).foldl (fun a k =>
    let y := t.acc.getD (r * g.cols + k) {}
    if y.active then a.take false x (g.col0 + k) (e0Of g.d y).1 else a) {}

/-- RKE counters of a record written (R255). -/
def State.rakeCount (s : State) (c : Nat) (r : RakeRec) : State :=
  ((s.count .rkeRecords c 0 1).count .rkeRsat c 0 (b2n r.rsat)).count .rkeRnan c 0 (b2n r.rnan)

/-- The summary record of a step row written (R233). -/
def State.fuse (s : State) (c h : Nat) (g : Geo) (r : Nat) : State :=
  let x := s.rowRecord c h g r
  let (v, t) := s.draw
  ((t.engWrite c (g.d.sumb + (g.idx * g.d.mt + r) * 48) (x.bytes 7 (sext 8 g.d.xrow) [] v) pOut).2.rakeCount c x).act c 4 x.n

/-! ### The output slot (R356, R359, R182, R204, DEDUCED, log 24) -/

/-- Bytes between the output slot's rows: a row of N_t codes. -/
def Geo.outStride (g : Geo) : Nat := rowBytes g.d.fmtO g.d.nt
/-- Scale bytes of a row in the output slot. -/
def Geo.outGroups (g : Geo) : Nat := if hasBlock g.d.scO then ceilDiv g.d.nt g.d.og else 0

/-- A write of the output path: dropped where it is refused, kept with its data where it stalls (R274, R275). -/
def State.outWrite (s : State) (c h off : Nat) (bs : List Byte) : State :=
  if bs.isEmpty then s
  else match s.spadWrite c off bs pOut with
    | (.stall n, t) => t.stallOn c { who := .out h, slot := n, wr := true, off := off, len := bs.length, data := bs }
    | (_, t) => t

/-- The converter's settings for a tile. -/
def State.convOf (s : State) (c h : Nat) (g : Geo) : Conv :=
  let x := s.tileCtx c h
  { fmt := g.d.fmtO, zp := g.d.zpO, block := hasBlock g.d.scO, ten := if hasTensor g.d.scO then some g.d.dscale else none
    stoch := g.d.rnd = 1, seed := x.lseed.toNat, tile := g.idx, rot := g.d.rot, rotN := g.d.rotN, rseed := g.d.rseed }

/-- Block-scale bytes from history for a tile's groups, none among them where the converter chooses; none at all where the read
stalls (R159, R162). (DEDUCED, log 61) -/
def State.history (s : State) (c h : Nat) (g : Geo) : Option (Option (List Byte)) × State :=
  if g.d.dsmode = 0 || !hasBlock g.d.scO || (s.tile c h).jit then (some none, s)
  else match s.outRead c h (g.d.dshist + g.tn * g.d.nt / g.d.og) (ceilDiv g.nA g.d.og) with
    | (some bs, t) => (some (some bs), t)
    | (none, t) => (none, t)

/-- Columns `lo` to `hi - 1` of output row `m` of the tile from its results. -/
def Tile.outRow (t : Tile) (g : Geo) (m lo hi : Nat) : List (W32 × W32) :=
  (upTo (hi - lo)).map (fun i => t.res.getD (if g.sside then (lo + i) * g.cols + m else m * g.cols + (lo + i)) (0, 0))

/-- Those columns converted; groups are cut from the tile's own first column (DESIGN CHOICE, log 134). -/
def Conv.outRow (p : Conv) (g : Geo) (hist : Option (List Byte)) (m lo : Nat) (xs : List (W32 × W32)) : RowOut :=
  p.row (m * g.d.nt + lo) (g.tn * g.d.nt + lo) g.d.og (fun i => hist.map (fun l => l.getD (lo / g.d.og + i) 0)) xs

/-- What a converted row adds to the tile: AMAXOVF, NAN and POISON, the counts of R161 and the amax of R164.
(DEDUCED, log 61) -/
def State.rowFlags (s : State) (c h : Nat) (r : RowOut) : State :=
  (s.modTile c h (fun t => { t with
    nzIn := t.nzIn + r.nz, nzLost := t.nzLost + r.lost, satOut := t.satOut || r.sat
    amax := toF32 (maxMag (f32 t.amax) (fp32.round r.amax)) })).flagTile c h
    ((if r.sat then [fAMAXOVF] else []) ++ (if r.nan then [fNAN, fPOISON] else []))

/-- Columns of output row `m` that `n` results of the tile reach, from column 0 on (R223). -/
def Geo.colsKnown (g : Geo) (n m : Nat) : Nat :=
  min g.nA (if g.sside then (if n ≤ m then 0 else (n - m - 1) / g.cols + 1) else min g.cols (n - m * g.cols))
/-- Columns that are converted together: an output group, a rotation block; a whole row in the ZRL form, whose ROWOFF places the next
row. (DEDUCED, log 24) -/
def Geo.outUnit (g : Geo) : Nat :=
  if g.d.zrlo then g.nA else max (if hasBlock g.d.scO then g.d.og else 1) (if g.d.rot ≠ 0 then g.d.rotN else 1)
/-- Columns of output row `m` that are converted and written once `n` results stand. -/
def Geo.colsOut (g : Geo) (n m : Nat) : Nat :=
  let k := g.colsKnown n m
  if k = g.nA then k else k / g.outUnit * g.outUnit

/-- Columns `lo` to `hi - 1` of a dense output row in the output slot: codes that share a byte with earlier ones keep those, and the
row's last byte is filled up with 0 bits (R40). -/
def State.putCodes (s : State) (c h : Nat) (g : Geo) (base m lo hi : Nat) (codes : List Nat) : State :=
  let w := fmtBits g.d.fmtO
  let b0 := lo * w / 8
  let e := if hi = g.nA then ceilDiv (hi * w) 8 * 8 else hi * w
  let at_ := base + m * g.outStride + b0
  let new := packCodes g.d.fmtO codes
  s.outWrite c h at_ (if lo * w % 8 = 0 && e % 8 = 0 then new
    else mergeBits (s.spad c at_ (ceilDiv e 8 - b0)) new (lo * w % 8) (e - lo * w))

/-- Columns `lo` to `hi - 1` of a dense output row converted and written, with their groups' scale bytes. -/
def State.putSeg (s : State) (c h : Nat) (g : Geo) (base : Nat) (hist : Option (List Byte)) (m lo hi : Nat) : State :=
  let r := (s.convOf c h g).outRow g hist m lo ((s.tile c h).outRow g m lo hi)
  ((s.rowFlags c h r).putCodes c h g base m lo hi r.codes).outWrite c h
    (base + g.d.mt * g.outStride + m * g.outGroups + lo / g.d.og) (if hasBlock g.d.scO then r.scales else [])

/-- A row of a ZRL output: its ROWOFF entry, its stream behind the rows before it, and behind the last row every row's scale bytes
(R182, R184, R359). -/
def State.putZrl (s : State) (c h : Nat) (g : Geo) (base : Nat) (hist : Option (List Byte)) (m : Nat) : State :=
  let p := s.convOf c h g
  let t := s.tile c h
  let row (k : Nat) : RowOut := p.outRow g hist k 0 (t.outRow g k 0 g.nA)
  let z := zrlRow g.d.fmtO g.d.zpO (row m).codes
  let e := t.zoff + z.length
  let data := base + 4 * (g.mA + 1)
  let sc := if hasBlock g.d.scO && m + 1 = g.mA then (upTo g.mA).flatMap (fun k => (row k).scales) else []
  let u := ((s.rowFlags c h (row m)).modTile c h (fun y => { y with zoff := e })).outWrite c h
    (base + 4 * (if m = 0 then 0 else m + 1)) ((if m = 0 then toLe 4 0 else []) ++ toLe 4 e)
  (u.outWrite c h (data + t.zoff) z).outWrite c h (data + e) sc

/-- What the results beyond the first `old` complete is converted and written into the output slot (R223). -/
def State.putOuts (s : State) (c h : Nat) (g : Geo) (hist : Option (List Byte)) (old n : Nat) : State :=
  let base := s.slotOff c ((s.tile c h).oslot.getD 0)
  (upTo g.mA).foldl (fun u m =>
    let lo := g.colsOut old m
    let hi := g.colsOut n m
    if lo < hi then (if g.d.zrlo then u.putZrl c h g base hist m else u.putSeg c h g base hist m lo hi) else u) s

/-- A chunk of the capped form: indices and values, and with a row's last chunk its count (R204). -/
def State.putCapped (s : State) (c h : Nat) (g : Geo) (x : ImChunk) (xs : List (W32 × W32)) : State :=
  let base := s.slotOff c ((s.tile c h).oslot.getD 0)
  let cap := g.d.capr
  let w := fmtBits g.d.fmtO
  let o := (s.convOf c h g).capped x.from_ (x.recs.map (fun y => x.row * g.d.nt + (y.1 - g.col0))) xs
  (((s.rowFlags c h o).outWrite c h (base + 4 * g.d.mt + 4 * (x.row * cap + x.from_)) (x.recs.flatMap (fun y => toLe 4 y.1))).outWrite
    c h (base + 4 * g.d.mt + 4 * g.d.mt * cap + x.row * ceilDiv (cap * w) 8 + x.from_ * w / 8) (packCodes g.d.fmtO o.codes)).outWrite
    c h (base + 4 * x.row) (if x.last then toLe 4 (x.from_ + x.recs.length) else [])

/-- The counts of the capped form's rows without a record. -/
def State.putEmpty (s : State) (c h : Nat) : State :=
  let base := s.slotOff c ((s.tile c h).oslot.getD 0)
  ((s.tile c h).finals.filter (·.recs.isEmpty)).foldl (fun u r => u.outWrite c h (base + 4 * r.row) (toLe 4 0)) s

/-! ### The commands -/

/-- The tile may pass its next chunk: DRAIN has named its slot, its checks have let it continue, its group's round has
committed, its layer's program is loaded, and no other tile is in the output path (R169, R224, R353, R431). -/
def State.pathOpen (s : State) (c h : Nat) : Bool :=
  let t := s.tile c h
  t.oslot.isSome && t.checked && (t.grp.isNone || t.released) && (s.tileCtx c h).prog &&
    (t.outSt = .running || t.outSt = .idle) && (upTo 8).all (fun k => k = h || ((s.core c).tile k).outSt ≠ .running) &&
    !s.stalled c (.out h)

/-- An SRAM error of a chunk: an uncorrectable one of the program stores is class P (R535). -/
def State.sramOut (s : State) (c h : Nat) (e : SramErr) : State :=
  match e with
  | .ue st off => if st.val = 6 then s.sramP c 6 off else s.sramTile c h e
  | _ => s.sramTile c h e

/-- The summary records a tile owes once `n` results stand where `old` stood: a step row's with its last output, one for every step
row; those of an index-match tile with its end (R233). -/
def State.fuseRows (s : State) (c h : Nat) (g : Geo) (old n : Nat) (last : Bool) : State :=
  if g.d.sumen then
    ((upTo g.rows).filter (fun r => if Desc.imatch g.d then last else old < (r + 1) * g.cols && (r + 1) * g.cols ≤ n)).foldl
      (fun u r => u.fuse c h g r) s
  else s

/-- The rows of a chunk within the actual lengths: output row in the tile, with its elements' places in the chunk and columns. -/
def Geo.liveRows (g : Geo) (live : List (Nat × Elt)) : List (Nat × List (Nat × Nat)) :=
  (live.map (fun y => (g.outPos y.2).1)).eraseDups.map (fun m =>
    (m, (live.filter (fun y => (g.outPos y.2).1 = m)).map (fun y => (y.1, (g.outPos y.2).2))))

/-- What steps 1 to 6 of R223 do with a chunk whose auxiliary operand `ax` and scales from history are there: `denied` port-B slots of
the vector engine delayed it (R224). -/
def State.runOut (s : State) (c h : Nat) (g : Geo) (denied : Nat) (es : List Elt) (ax : List (Nat × W32 × W32))
    (hist : Option (List Byte)) : State :=
  let t := s.tile c h
  let ix := (upTo es.length).zip es
  let (res, v) := runChunk (s.core c) g ax ix
  let old := t.res.length
  let last := t.chunk + 1 = s.chunkTotal c h g
  let s1 := (s.modCore c (fun q => { q with vec := v })).modTile c h (fun t =>
    { t with chunk := t.chunk + 1, res := t.res ++ res, outSt := .running })
  let s2 := s1.flagTile c h (if (ix.filter (fun y => g.inside y.2)).any (fun y => y.2.sovf) then [fSOVF] else [])
  let s3 := s2.fuseRows c h g old (old + res.length) last
  let s4 := ((s3.count64 .vecObusy c 1).count64 .vecOstall c denied).act c 3 (Prog.ceff (s3.core c).vec.store0 * es.length)
  if Desc.imatch g.d then
    (match t.imChunks[t.chunk]? with
      | some x => (let u := s4.putCapped c h g x res
                   if last then u.putEmpty c h else u)
      | none => s4)
  else s4.putOuts c h g hist old (old + res.length)

/-- One chunk through R223; it waits, and nothing of it happens, where a read of it stalls (R275). -/
def State.passChunk (s : State) (c h : Nat) (g : Geo) (denied : Nat) : State :=
  let es := s.chunkElts c h g (s.tile c h).chunk
  let live := ((upTo es.length).zip es).filter (fun y => g.inside y.2)
  match (if g.d.auxen && !Desc.imatch g.d then s.auxOf c h g (g.liveRows live) [] [] else (some ([], []), s)) with
  | (none, s1) => s1
  | (some (ax, bad), s1) =>
    match s1.history c h g with
    | (none, s2) => s2
    | (some hist, s2) => (bad.foldl (fun u m => u.zrlBad c h m) s2).runOut c h g denied es ax hist

/-- OUTPUT_CHUNK: the tile's next chunk of up to 256 outputs (R223, R224). (DESIGN CHOICE, log 11) -/
def execOutputChunk (c : CoreId) (h : Handle) (denied : Nat) (e : SramErr) (s : State) : Host.Outcome State Fault Refusal :=
  let g := s.geo c.val h.val
  if s.coreOpen c.val && s.pathOpen c.val h.val && (s.tile c.val h.val).chunk < s.chunkTotal c.val h.val g then
    .next ((s.passChunk c.val h.val g denied).sramOut c.val h.val e)
  else .next s

/-- The amax record of a tile (R164). -/
def State.writeAmax (s : State) (c h : Nat) (g : Geo) : State :=
  if g.d.dsmode = 0 then s
  else (s.engWrite c (g.d.amaxb + 4 * g.idx) (toLe 4 (s.tile c h).amax.toNat) pOut).2

/-- The pass has ended with its flags: a trigger requeues the tile, or it goes on to its commit (R153, R162, R169, R432). -/
def State.pathEnd (s : State) (c h : Nat) (g : Geo) (trig : Bool) : State :=
  let t := s.tile c h
  let hit := trig && (Desc.rtrig g.d).testBit 2 && !t.rigor
  if hit && s.mayRequeue c h && !t.contributed then s.requeue c h
  else ((if hit then s.ladderTop c h else s).writeAmax c h g).modTile c h (fun t => { t with outSt := .ended })

/-- OUTPUT_PATH_END: the tile has passed its last chunk; AMAXOVF and AMAXUNF are known and the response of DSMODE follows
(R160 to R162). -/
def execOutputPathEnd (c : CoreId) (h : Handle) (s : State) : Host.Outcome State Fault Refusal :=
  let g := s.geo c.val h.val
  let t := s.tile c.val h.val
  if s.coreOpen c.val && s.pathOpen c.val h.val && t.chunk = s.chunkTotal c.val h.val g then
    let s0 := if s.chunkTotal c.val h.val g = 0 then (s.fuseRows c.val h.val g 0 0 true).putEmpty c.val h.val else s
    let ul := (s.tileCtx c.val h.val).ul
    let unf := g.d.dsmode ≠ 0 && ul ≠ 0 && t.nzIn < t.nzLost * 2 ^ ul
    let s1 := s0.flagTile c.val h.val (if unf then [fAMAXUNF] else [])
    if g.d.dsmode = 2 && !t.jit && (t.satOut || unf) then
      .next ((s1.count .gauJit c.val 0 1).modTile c.val h.val (fun t => { t with
        jit := true, chunk := 0, res := [], nzIn := 0, nzLost := 0, satOut := false, amax := 0, zoff := 0 }))
    else
      let s2 := if g.d.dsmode = 3 && (t.satOut || unf) then s1.tileEvent c.val h.val 0x0106 2 t.amax.toNat else s1
      .next (s2.pathEnd c.val h.val g t.satOut)
  else .next s

end Sys2Proof.Machine
end

