-- ==== Sys2Proof/Machine/Vector.lean ====
section
/-! DEFINITION. The vector engine, the Rake, CONV and SORT as commands: program stores, starts and completions (R207, R228 to
R250, R345, R349, R353). -/
namespace Sys2Proof.Machine

/-! ### Program stores (R236, R353) -/

/-- A tile of an earlier context is in the output path or still owed a DRAIN (R353). -/
def State.olderOwed (s : State) (c id : Nat) : Bool :=
  (s.core c).busyHandles.any (fun h =>
    let t := s.tile c h
    t.ctx < id && t.outSt ≠ .ended && !(1 < Desc.tk (s.tileDesc c h) && !CRec.close t.rec_))

/-- The layer context whose image store 0 takes next: the oldest one not loaded that still has a tile, or is current (R353). -/
def State.progCtx (s : State) (c : Nat) : Option Ctx := (s.core c).heldCtxs.find? (fun x => !x.prog)

/-- PROGRAM_STORE_LOAD: the image at EPROG of the next layer context goes into program store 0 (R353). -/
def execProgramStoreLoad (c : CoreId) (s : State) : Host.Outcome State Fault Refusal :=
  let c := c.val
  match s.progCtx c with
  | none => .next s
  | some x =>
    if s.coreOpen c && !s.olderOwed c x.id && !s.stalled c .prog then
      match s.engRead c (Desc.eprog x.desc) 176 cVec (s.core c).vec.asStored with
      | (.stall d k, t) => .next (t.stallOn c (engStall c d .prog k 176))
      | (g, t) =>
        let p : Prog := BitVec.ofNat 1408 (ofLe (g.orZeros 176))
        .next ((t.modVec c (fun v => { v with store0 := p, cost0 := p.ceff, asStored := [] })).modCtx c x.id
          (fun y => { y with prog := true }))
    else .next s

/-! ### Issuing an engine's command (R345, R349) -/

/-- A command goes to its engine's queue place, or waits for it; `n` is its VLEN, written to VEC_VLEN where VS is set. -/
def State.issueJob (s : State) (c : Nat) (e : Engine) (w : BitVec 128) (vs : Bool) (n : Nat) : State :=
  let t := if vs then s.setRg .vecVlen c 0 0 (BitVec.ofNat 32 n) else s
  if t.placeFree c e then (t.enqueue c e w n).seqGoOn c else t.seqWait c (.engine e)

/-- VLEN of a command: Sa[31:0] with VS, else VEC_VLEN (R349). -/
def State.vlenOf (s : State) (c : Nat) (vs : Bool) (sa : Nat) : Nat :=
  if vs then s.scalar c sa % 2 ^ 32 else (s.rg .vecVlen c).toNat

/-- VLEN of an engine's command from its word. -/
def State.engVlen (s : State) (c : Nat) (e : Engine) (w : BitVec 128) : Nat :=
  match e with
  | .vprog => s.vlenOf c (flag w 112) (fld w 111 109)
  | .rake => s.vlenOf c (flag w 73) (fld w 72 70)
  | .conv => s.vlenOf c (flag w 105) (fld w 104 102)
  | _ => 0

/-- ENGINE_QUEUE_ADMIT: the command that waits for its engine's queue place takes it (R345). -/
def execEngineQueueAdmit (c : CoreId) (e : Engine) (s : State) : Host.Outcome State Fault Refusal :=
  let c := c.val
  if s.coreOpen c && (s.core c).seq.wait = .engine e && s.placeFree c e then
    let w := s.fetchWord c
    .next ((s.enqueue c e w (s.engVlen c e w)).seqDone c)
  else .next s

/-! ### Rows of a stream -/

/-- Elements in a row of a stream of `n` with width operand `w`; a width of 0 makes the stream one row (DESIGN CHOICE, log 25). -/
def rowW (w n : Nat) : Nat := if w = 0 then max 1 n else w
/-- Bytes of a stream of `n` elements in rows of `w`: every row starts on a byte (R40). -/
def streamBytes (f w n : Nat) : Nat :=
  let k := rowW w n
  n / k * rowBytes f k + rowBytes f (n % k)
/-- The code of element `i` of such a stream. -/
def streamCode (bs : List Byte) (f w n i : Nat) : Nat :=
  let k := rowW w n
  codeAt (bs.drop (i / k * rowBytes f k)) f (i % k)
/-- Scale bytes of such a stream: one for each group of each row. -/
def streamScales (w n g : Nat) : Nat :=
  let k := rowW w n
  n / k * ceilDiv k g + ceilDiv (n % k) g

/-! ### VPROG (R236, R245 to R250, R349) -/

/-- Elements a VPROG runs over: VLEN, at most the 1,024 of a source tile register; a stream in scratchpad is as long as VLEN, and
R346 refuses one that leaves the scratchpad (R248). (DEDUCED, log 56) -/
def vprogLen (w : BitVec 128) (vlen : Nat) : Nat := if flag w 36 then min vlen 1024 else vlen

/-- The scratchpad bytes a VPROG's program image lies in: none where store 1 is kept (R349). -/
def vprogImageAt (w : BitVec 128) : List (Nat × Nat) := if fld w 21 8 = 0x3FFF then [] else [(fld w 21 8 * 32, 176)]
/-- The scratchpad bytes a VPROG's source elements lie in: none where a tile register is the source (R349). -/
def vprogSource (w : BitVec 128) (vlen : Nat) : List (Nat × Nat) :=
  if flag w 36 then [] else [(fld w 35 22 * 32, streamBytes (fld w 44 40) (fld w 108 93) (vprogLen w vlen))]

/-- The image a VPROG runs: store 1 as it stands, or the image at PADDR, which the vector engine reads (R248, R274, R349). -/
def State.vprogImage (s : State) (c : Nat) (w : BitVec 128) : Prog :=
  if fld w 21 8 = 0x3FFF then (s.core c).vec.store1 else BitVec.ofNat 1408 (ofLe (s.asClass c cVec (fld w 21 8 * 32) 176))

/-- Tile registers and masks a VPROG writes (R248). -/
def vprogWrites (w : BitVec 128) (p : Prog) : List Nat :=
  (if flag w 45 then [] else [fld w 48 46]) ++ (p.ops.filter (·.opc = 0x1C)).map (fun m => 8 + m.imm % 8)
/-- Tile registers the layer program reads. -/
def Prog.reads (p : Prog) : List Nat := (p.ops.filter (fun m => 0x18 ≤ m.opc && m.opc ≤ 0x1A)).map (fun m => m.imm % 8)

/-- A VPROG of program `p` waits: a tile in the output path reads what it writes (R248). -/
def State.vprogHeld (s : State) (c : Nat) (w : BitVec 128) (p : Prog) : Bool :=
  (upTo 8).any (fun h => (s.tile c h).outSt = .running) &&
    (vprogWrites w p).any (fun r => (Prog.reads (s.core c).vec.store0).contains r)

/-- VPROG_START: the queued VPROG starts once the output path no longer reads what it writes; its image goes into store 1
(R248, R274, R349). -/
def execVprogStart (c : CoreId) (s : State) : Host.Outcome State Fault Refusal :=
  let c := c.val
  match s.queuedJob c .vprog with
  | none => .next s
  | some j =>
    let p := s.vprogImage c j.cmd
    if s.coreOpen c && (s.runningJob c .vprog).isNone && !s.stalled c (.eng .vprog) && !s.vprogHeld c j.cmd p then
      let (ok, t) := s.jobTouch c .vprog j.asStored cVec (vprogImageAt j.cmd)
      if !ok then .next t
      else .next ((t.modVec c (fun v => { v with store1 := p, cost1 := Prog.ceff p })).modSeq c (fun q =>
        { q with jobs := q.jobs.map (fun y => if y.eng = .vprog then { y with running := true } else y) }))
    else .next s

/-- An input element's starting (E0, E1): decoded without scales (R245); codebooks by table 0 (DESIGN CHOICE, log 25), U8Z by zero
point 0 (DESIGN CHOICE, log 123). -/
def startElem (f : Nat) (cb : Nat → Nat) (code : Nat) : W32 × W32 :=
  if isPair f then
    let w := fmtBits f / 2
    (toF32 ((fpOf f).dec (bits code 0 w)), toF32 ((fpOf f).dec (bits code w w)))
  else if isFloat f then (toF32 ((fpOf f).dec code), 0)
  else match elemVal f 0 cb code with
    | .fin s m e => let v : Int := (m * 2 ^ e.toNat : Nat); (ofI (if s then -v else v), 0)
    | _ => (0, 0)

/-- An element's mask bit (R246). -/
def State.maskOn (s : State) (c : Nat) (w : BitVec 128) (i : Nat) : Bool :=
  !flag w 91 || Vec.mask (s.core c).vec (fld w 90 88) i

/-- What a VPROG makes of its elements: results (E0, E1) in order, with whether each was masked; integer saturation. -/
structure VRun where
  v : Vec
  out : List (W32 × W32 × Bool) := []
  isat : Bool := false

/-- The elements of a VPROG run in order (R244 to R246). -/
def State.vprogRun (s : State) (c : Nat) (w : BitVec 128) (p : Prog) (ins : List (W32 × W32)) : VRun :=
  let k := rowW (fld w 108 93) ins.length
  let table := (s.core c).table
  ((upTo ins.length).zip ins).foldl (fun r y =>
    if !s.maskOn c w y.1 then
      let old := if flag w 45 then y.2 else (r.v.treg (fld w 48 46) y.1, 0)
      { r with out := r.out ++ [if flag w 92 then (0, 0, true) else (old.1, old.2, true)] }
    else
      let e := runElem p { i := y.1, x := y.1 % k, y := y.1 / k, table := table } r.v (startRegs y.2.1 y.2.2 0 0)
      let z := (e.e.getD 0 0, e.e.getD 1 0)
      { v := if flag w 45 then e.v else e.v.setTreg (fld w 48 46) y.1 z.1, out := r.out ++ [(z.1, z.2, false)],
        isat := r.isat || e.isat }) { v := (s.core c).vec }

/-- A VPROG under ZERO writes 0 to a masked element of its tile register. -/
def zeroMasked (w : BitVec 128) (r : VRun) : Vec :=
  if flag w 45 || !flag w 92 then r.v
  else ((upTo r.out.length).zip r.out).foldl (fun v y => if y.2.2.2 then v.setTreg (fld w 48 46) y.1 0 else v) r.v

/-- Rows of converted elements written at DST, with their scale bytes (R60 to R63, R349). -/
def State.putStream (s : State) (c : Nat) (e : Engine) (p : Conv) (og dst dsca w : Nat) (base : Nat → Nat) (xs : List FV) : State :=
  let k := rowW w xs.length
  let rows := chunksOf k (ceilDiv xs.length k) xs
  let outs := ((upTo rows.length).zip rows).map (fun y => p.rowV (y.1 * k) (base y.1) og (fun _ => none) y.2)
  let t := s.jobWrite c e dst (outs.flatMap (fun o => packCodes p.fmt o.codes))
  if p.block then t.jobWrite c e dsca (outs.flatMap (·.scales)) else t

/-- The summary registers take a summary (R250). (DESIGN CHOICE, log 25) -/
def State.latchSummary (s : State) (c : Nat) (x : Summary) : State :=
  (((s.setRg .vecSmax c 0 0 x.smax).setRg .vecSsum c 0 0 x.ssum).setRg .vecScnt c 0 0 x.scnt).setRg .vecSflg c 0 0 x.sflg
/-- SX of VEC_CTRL. (DEDUCED, log 62) -/
def State.sx (s : State) (c : Nat) : Int := sext 8 (s.rf .vecCtrl c 0 0 8)

/-- A converter for a command without a tile: its stochastic draws take a seed that the spec does not give, and its U8Z codes
zero point 0. (DESIGN CHOICE, log 25; DESIGN CHOICE, log 123) -/
def State.freeConv (s : State) (fmt : Nat) (block : Bool) (rnd : Nat) : Conv × State :=
  if rnd = 1 then
    let (v, t) := s.draw
    ({ fmt := fmt, block := block, stoch := true, seed := v % 2 ^ 64 }, t)
  else ({ fmt := fmt, block := block }, s)

/-- What a VPROG leaves: its results written or in its tile register, the Meter's count, its summary latched (R246, R250).
(DESIGN CHOICE, log 25) -/
def State.vprogFinish (s : State) (c : Nat) (j : Job) (ins : List (W32 × W32)) : State :=
  let w := j.cmd
  let p : Prog := (s.core c).vec.store1
  let r := s.vprogRun c w p ins
  let s1 := (s.modVec c (fun _ => zeroMasked w r)).act c 3 (Prog.ceff p * ins.length)
  let live := r.out.filter (fun y => !y.2.2)
  let sm := summaryOf p.oty r.isat (live.length < r.out.length) (!j.asStored.isEmpty) (s.sx c) (live.map (·.1))
  let s2 := if flag w 45 then
      let (cv, t) := s1.freeConv (fld w 67 63) (fld w 71 70 = 1) (fld w 69 68)
      t.putStream c .vprog cv (gsizeOf (fld w 73 72)) (fld w 62 49 * 32) (fld w 87 74 * 32) (fld w 108 93) (fun _ => 0)
        (r.out.map (fun y => let z := if p.oty then resultOf true [y.1, y.2.1] else (y.1, y.2.1)
                             (f32 z.1).add (f32 z.2)))
    else s1
  s2.latchSummary c sm

/-- VPROG_DONE: the running VPROG completes, once the output path no longer reads what it writes, and releases the slots it has
read (R248 to R250, R272). -/
def execVprogDone (c : CoreId) (s : State) : Host.Outcome State Fault Refusal :=
  let c := c.val
  match s.runningJob c .vprog with
  | none => .next s
  | some j =>
    if s.coreOpen c && !s.stalled c (.eng .vprog) && !s.vprogHeld c j.cmd (s.core c).vec.store1 then
      let w := j.cmd
      let n := vprogLen w j.vlen
      let f := fld w 44 40
      let (ok, t) := s.jobTouch c .vprog j.asStored cVec (vprogSource w j.vlen)
      if !ok then .next t
      else
        let ins := if flag w 36 then (upTo n).map (fun i => (Vec.treg (s.core c).vec (fld w 39 37) i, (0 : W32)))
          else (let bs := s.asClass c cVec (fld w 35 22 * 32) (streamBytes f (fld w 108 93) n)
                (upTo n).map (fun i => startElem f (s.cbOf c f 0) (streamCode bs f (fld w 108 93) n i)))
        .next (((t.vprogFinish c j ins).jobRelease c cVec (vprogImageAt w ++ vprogSource w j.vlen)).endJob c .vprog)
    else .next s

/-! ### RAKE (R228 to R235, R250, R349) -/

/-- Elements of a RAKE: from its tile register, or 32-bit words of its stream. -/
def State.rakeElems (s : State) (c : Nat) (w : BitVec 128) (n : Nat) : List W32 :=
  if flag w 35 then (upTo n).map (fun i => Vec.treg (s.core c).vec (fld w 38 36) i)
  else
    let bs := s.asClass c cRake (fld w 34 21 * 32) (4 * n)
    (upTo n).map (fun i => BitVec.ofNat 32 (leAt bs (4 * i) 4))

/-- Records of a RAKE: one for each row, or for each column (R228, R231). -/
def rakeRecs (i32 col : Bool) (x : Int) (w : Nat) (es : List W32) : List RakeRec :=
  let k := rowW w es.length
  let ix := (upTo es.length).zip es
  let n := if col then min k es.length else ceilDiv es.length k
  (upTo n).map (fun q => (ix.filter (fun y => (if col then y.1 % k else y.1 / k) = q)).foldl (fun r y => r.take i32 x y.1 y.2) {})

/-- Records written one after another from DST; fields the operation leaves keep what stands there (R228, R235). -/
def State.putRecs (s : State) (c op : Nat) (x : Int) (dst : Nat) : List RakeRec → State
  | [] => s
  | r :: rs =>
    let (v, t) := s.draw
    let u := t.jobWrite c .rake dst (r.bytes op x (t.spad c dst 48) v)
    (u.rakeCount c r).putRecs c op x (dst + 48) rs

/-- COMBINE: the records of the stream merged into one, or refused where their X differ (R234). More than 2^32 - 1 elements
leave SUM and SQ undefined (R230); the summary registers of a command over records are stated nowhere (DESIGN CHOICE, log 25). -/
def State.combine (s : State) (c : Nat) (w : BitVec 128) (n : Nat) : State :=
  let bs := s.asClass c cRake (fld w 34 21 * 32) (48 * n)
  let rs := (upTo n).map (fun i => rakeOfBytes ((bs.drop (48 * i)).take 48))
  match rs with
  | [] => s
  | r :: rest =>
    match rest.find? (fun y => y.2 ≠ r.2) with
    | some y =>
      (s.count .rkeXmis c 0 1).coreEvent c 0x0301 2 (pack [(16, ofInt 16 r.2), (16, ofInt 16 y.2)])
    | none =>
      let m := rest.foldl (fun a y => a.merge (flag w 39) y.1) r.1
      let (v, t) := s.draw
      let m1 := if 2 ^ 32 ≤ m.n then { m with rovf := true, sum := sext 96 v, sq := v / 2 ^ 96 % 2 ^ 96 } else m
      let (u, t2) := t.draw
      let t3 := t2.latchSummary c { smax := BitVec.ofNat 32 u, ssum := BitVec.ofNat 32 (u / 2 ^ 32),
                                    scnt := BitVec.ofNat 32 (u / 2 ^ 64), sflg := BitVec.ofNat 32 (u / 2 ^ 96 % 32) }
      t3.putRecs c 7 r.2 (fld w 53 40 * 32) [m1]

/-- RAKE_DONE: the running RAKE completes: its records and its summary, and the slots it has read are released (R228 to R235, R250,
R272). -/
def execRakeDone (c : CoreId) (s : State) : Host.Outcome State Fault Refusal :=
  let c := c.val
  match s.runningJob c .rake with
  | none => .next s
  | some j =>
    if s.coreOpen c && !s.stalled c (.eng .rake) then
      let w := j.cmd
      let op := fld w 11 8
      let n := if flag w 35 then min j.vlen 1024 else j.vlen
      let len := if op = 8 then 48 * n else 4 * n
      let src : List (Nat × Nat) := if flag w 35 && op ≠ 8 then [] else [(fld w 34 21 * 32, len)]
      let (ok, t) := s.jobTouch c .rake j.asStored cRake src
      if !ok then .next t
      else if op = 8 then .next (((t.combine c w n).jobRelease c cRake src).endJob c .rake)
      else
        let es := t.rakeElems c w n
        let x := sext 8 (fld w 20 13)
        let u := (t.putRecs c op x (fld w 53 40 * 32) (rakeRecs (flag w 39) (flag w 12) x (fld w 69 54) es)).act c 4 n
        .next (((u.latchSummary c (summaryOf (flag w 39) false false (!j.asStored.isEmpty) (s.sx c) es)).jobRelease c cRake src).endJob
          c .rake)
    else .next s

/-! ### CONV (R349) -/

/-- The exact values of a CONV's row: codes, scale bytes and table selects decoded group by group at m = 30 (R46, R50, R51, R56).
A NaN or infinite element is NaN alone (R49); scale code 0xFF and a select with a reserved bit make their group NaN (R75). U8Z
takes zero point 0 (DESIGN CHOICE, log 123). -/
def convRow (f g : Nat) (block : Bool) (cb : Nat → Nat → Nat) (codes : List Nat) (scales : List Byte) (sels : List Nat) : List FV :=
  let gs := chunksOf g (ceilDiv codes.length g) codes
  ((upTo gs.length).zip gs).flatMap (fun y =>
    let sel := sels.getD y.1 0
    let xs := y.2.map (fun code => elemVal f 0 (cb sel) code)
    let b := scales.getD y.1 0
    if (block && b = 0xFF) || selBad f sel then xs.map (fun _ => .nan)
    else
      let e := efmtOf f 30 (xs.filter (fun x => !x.exceptional))
      xs.map (fun x => if x.exceptional then .nan else .fin x.neg (magAt 30 e x) (e + (if block then e8 b else 0))))

/-- Offset from the scale base, and bytes, of the table selects of a stream: beside its scale bytes, or in their place (R46). -/
def streamSels (f : Nat) (block : Bool) (sca w n g : Nat) : Nat × Nat :=
  let k := rowW w n
  (if block then ceilDiv (sca + ceilDiv n k * ceilDiv k g) 64 * 64 - sca else 0, if isCb f then 2 * streamScales w n g else 0)

/-- CONV_DONE: the running CONV completes: decoded rows through the rotation and the converter (R349).
(DESIGN CHOICE, log 25) -/
def execConvDone (c : CoreId) (s : State) : Host.Outcome State Fault Refusal :=
  let c := c.val
  match s.runningJob c .conv with
  | none => .next s
  | some j =>
    if s.coreOpen c && !s.stalled c (.eng .conv) then
      let w := j.cmd
      let n := j.vlen
      let f := fld w 40 36
      let wd := fld w 101 86
      let g := gsizeOf (fld w 79 78)
      let block : Bool := fld w 42 41 = 1
      let len := streamBytes f wd n
      let sl := if block then streamScales wd n g else 0
      let sca := fld w 35 22 * 32
      let ts := streamSels f block sca wd n g
      let (ok, t) := s.jobTouch c .conv j.asStored cVec [(fld w 21 8 * 32, len), (sca, sl), (sca + ts.1, ts.2)]
      if !ok then .next t
      else
        let bs := s.asClass c cVec (fld w 21 8 * 32) len
        let sc := s.asClass c cVec sca sl
        let sels := words16 (s.asClass c cVec (sca + ts.1) ts.2)
        let k := rowW wd n
        let xs := (upTo (ceilDiv n k)).flatMap (fun r =>
          convRow f g block (s.cbOf c f) ((upTo (min k (n - r * k))).map (fun i => streamCode bs f wd n (r * k + i)))
            (sc.drop (r * ceilDiv k g)) (sels.drop (r * ceilDiv k g)))
        let (cv, u) := t.freeConv (fld w 75 71) (fld w 77 76 = 1) (fld w 81 80)
        let rseed := ((s.ctxOf c j.ctx).map (fun x => Desc.rseed x.desc)).getD 0
        let p := { cv with rot := fld w 83 82, rotN := gsizeOf (fld w 85 84), rseed := rseed }
        .next ((u.putStream c .conv p g (fld w 56 43 * 32) (fld w 70 57 * 32) wd (fun _ => 0) xs).endJob c .conv)
    else .next s

/-! ### SORT (R207) -/

/-- The bucket of a count: the last whose boundary it reaches. -/
def bucketOf (bnd : List Nat) (n : Nat) : Nat :=
  (((upTo bnd.length).filter (fun b => bnd.getD b 0 ≤ n)).getLast?).getD 0

/-- The permutation and the bucket starts (R207). -/
def sortOf (bnd counts : List Nat) : List Nat × List Nat :=
  let bs := counts.map (bucketOf bnd)
  let ix := (upTo bs.length).zip bs
  let per := (upTo bnd.length).map (fun b => (ix.filter (·.2 = b)).map (·.1))
  (per.flatten, (upTo bnd.length).map (fun b => ((per.take b).map List.length).sum))

/-- SORT_DONE: the running SORT writes its permutation and bucket starts (R207, R349). -/
def execSortDone (c : CoreId) (s : State) : Host.Outcome State Fault Refusal :=
  let c := c.val
  match s.runningJob c .sort with
  | none => .next s
  | some j =>
    if s.coreOpen c && !s.stalled c (.eng .sort) then
      let w := j.cmd
      let rows := fld w 99 68
      let nb := fld w 39 36 + 1
      let rp := fld w 21 8 * 32
      let bo := fld w 35 22 * 32
      let (ok, t) := s.jobTouch c .sort j.asStored cTile [(rp, 4 * (rows + 1)), (bo, 4 * nb)]
      if !ok then .next t
      else
        let ptr := s.asClass c cTile rp (4 * (rows + 1))
        let bnd := s.asClass c cTile bo (4 * nb)
        let counts := (upTo rows).map (fun r => (leAt ptr (4 * (r + 1)) 4 + 2 ^ 32 - leAt ptr (4 * r) 4) % 2 ^ 32)
        let x := sortOf ((upTo nb).map (fun b => leAt bnd (4 * b) 4)) counts
        .next (((t.jobWrite c .sort (fld w 53 40 * 32) (x.1.flatMap (toLe 4))).jobWrite c .sort (fld w 67 54 * 32)
          (x.2.flatMap (toLe 4))).endJob c .sort)
    else .next s

end Sys2Proof.Machine
end

