-- ==== Sys2Proof/Machine/RegView.lean ====
section
/-! DEFINITION. What the registers read whose value is the state of a unit: status registers, counters held by a unit, fuses,
the running image and the event log (R126 to R134, R171 to R178, R217 to R222, R254 to R262, R293 to R311, R332 to R340,
R368 to R371, R399 to R401, R439 to R442, R479 to R482, R503, R504, R531 to R534, R560, R561). -/
namespace Sys2Proof.Machine

/-- A signed value clamped to `n` bits and written in two's complement. -/
def clampBits (n : Nat) (x : Int) : Nat := ofInt n (max (-(2 ^ (n - 1) - 1)) (min (2 ^ (n - 1) - 1) x))

/-! ### Core blocks -/

/-- A group partial of a tile has been formed and is not yet added (R92). -/
def State.partialWaits (s : State) (c h : Nat) : Bool :=
  let t := s.tile c h
  let g := s.geo c h
  t.opened && !t.ended && !t.sumFrom && !s.isImatch c h && (upTo g.steps).any (fun n =>
    let st := g.stepAt n
    g.rowLive t st.1 && t.anchored g st.1 && (g.groupsOf st.2.1).any (fun q =>
      !t.added.contains (n, q, st.2.2) && s.groupDone c h g n q))

/-- A brick streams, or a group partial is in the pipeline of R92 (R129). -/
def State.arrBusy (s : State) (c : Nat) : Bool :=
  (s.core c).arr.bricks.any (fun x => x.2.done < x.2.begun) || (upTo 8).any (fun h => s.partialWaits c h)

/-- ARR_STATUS; whether the shadow registers are full is a matter of timing that no rule fixes: a free bit while a tile
streams (R129). (DEDUCED, log 83) -/
def State.arrStatus (s : State) (c : Nat) : Nat :=
  let a := (s.core c).arr
  let done := a.bricks.map (fun x => x.2.done)
  let all : List Nat := match a.cur with
    | none => []
    | some h => (upTo (s.geo c h).bricks).map (fun b => ((Sparse.get {} a.bricks b : Brick)).done)
  let lag := match all with
    | [] => 0
    | x :: l => min 4 (done.foldl max 0 - l.foldl min x)
  pack [(1, b2n (s.arrBusy c)), (4, (s.core c).inProgress), (1, if a.cur.isSome then Config.freeWord s.free % 2 else 0), (3, lag)]

/-- ARR_OTAGn: the tile of handle n while its accumulators are open (R134). (DEDUCED, log 83) -/
def State.arrOtag (s : State) (c h : Nat) : Nat :=
  let t := s.tile c h
  if !t.opened then 0
  else pack [(6, ptagOf (s.tileRung c h)), (2, s.tileRegime c h), (1, 1), (1, b2n (s.tileCtx c h).exact_), (4, t.rung), (2, 0),
             (16, CRec.epoch t.rec_)]

/-- GAU_STATUS. -/
def State.gauStatus (s : State) (c : Nat) : Nat :=
  let k := s.core c
  pack [(1, b2n (k.gauge.any (fun h => (k.tile h).gst = .running))), (2, min 2 k.gauge.length),
        (1, b2n ((s.curCtx c).getD {}).exact_), (2, k.lastFloor)]

/-- SVE_STATUS. -/
def State.sveStatus (s : State) (c : Nat) : Nat :=
  let k := s.core c
  let merging : Bool := k.seq.jobs.any (fun j => j.eng = .merge && j.running) || (upTo 8).any (fun h => (k.tile h).runs ≠ [])
  pack [(1, b2n k.arr.cur.isSome), (9, k.imTable.length), (1, b2n merging),
        (1, b2n ((upTo 8).any (fun h => (k.tile h).sst = .running)))]

/-- A tile of the core is in the output path. -/
def Core.outBusy (k : Core) : Option Nat := (upTo 8).find? (fun h => (k.tile h).outSt = .running)

/-- RKE_STATUS (R254). When within a MOMENTS command its finalisation is in progress is a matter of ACLK: FINAL is a free bit while one
runs. (DESIGN CHOICE, log 8; DEDUCED, log 83) -/
def State.rkeStatus (s : State) (c : Nat) : Nat :=
  let k := s.core c
  let fused : Bool := match k.outBusy with | some h => Desc.sumen (s.tileDesc c h) | none => false
  let job := k.seq.jobs.find? (fun j => j.eng = .rake && j.running)
  let final : Nat := match job with | some j => if fld j.cmd 11 8 = 6 then Config.freeWord s.free % 2 else 0 | none => 0
  pack [(1, b2n fused), (1, b2n job.isSome), (1, final)]

/-- VEC_STATUS. -/
def State.vecStatus (s : State) (c : Nat) : Nat :=
  let k := s.core c
  pack [(1, b2n k.outBusy.isSome), (1, b2n (k.seq.jobs.any (fun j => j.eng = .vprog && j.running))),
        (1, b2n (k.seq.jobs.any (fun j => j.eng = .vprog && s.vprogHeld c j.cmd (if j.running then k.vec.store1 else s.vprogImage c j.cmd)))), (8, k.vec.cost0), (8, k.vec.cost1)]

/-- Code of a slot's state. -/
def SlotSt.code : SlotSt → Nat
  | .empty => 0
  | .filling => 1
  | .full => 2
  | .draining => 3

/-- Code of a channel's state. -/
def ChSt.code : ChSt → Nat
  | .idle => 0
  | .run => 1
  | .wait => 2
  | .halted => 3

/-- DMA_CHn_STATUS. -/
def Chan.status (x : Chan) : Nat := pack [(2, x.st.code), (4, x.err), (2, 0), (24, x.rows)]

/-- DMA_BUSY. -/
def State.dmaBusy (s : State) (c : Nat) : Nat :=
  ((upTo 16).map (fun ch => let x := s.chan c ch; if x.st = .run || x.st = .wait then 2 ^ ch else 0)).sum

/-- SEQ_STATUS. -/
def State.seqStatus (s : State) (c : Nat) : Nat :=
  let q := (s.core c).seq
  let st := if q.halted then 3 else if q.wait ≠ .none then 2 else if q.rd = q.wr then 0 else 1
  let th := ((s.core c).busyHandles.map (2 ^ ·)).sum
  pack [(2, st), (1, b2n q.fault), (8, q.rd), (8, q.wr), (3, q.loops.length), (8, th), (1, b2n q.tout)]

/-- SEQ_LAYER. -/
def State.seqLayer (s : State) (c : Nat) : Nat :=
  let x := (s.curCtx c).getD {}
  pack [(16, Desc.lseq x.desc), (6, Desc.disp x.desc), (2, (s.core c).heldCtxs.length)]

/-! ### Hub blocks -/

/-- Code of a dispenser's state. -/
def DispSt.code : DispSt → Nat
  | .idle => 0
  | .armed => 1
  | .draining => 2

/-- SDT_DnSTAT. -/
def Disp.stat (x : Disp) : Nat :=
  pack [(2, x.st.code), (2, x.floor), (1, b2n x.guard), (1, b2n x.escd), (3, x.bkt), (9, (x.claims.filter (·.held)).length)]

/-- Claims held for budgets: while PKHOLD is set, every hold is the package cap's (R529, R534). (DEDUCED, log 83) -/
def State.budgetHeld (s : State) : Nat := if s.prc.pkhold then 0 else (s.heldWork (fun _ => true)).length

/-- uJ of a ledger kept in 2^-16 pJ (R521). -/
def toUj (n : Nat) : Nat := n / (2 ^ 16 * 10 ^ 6) % 2 ^ 64

/-- The session that MTR_SSEL names. -/
def State.meterSess (s : State) : Session := s.sess (s.rf .mtrSsel 0 0 0 16)

/-- A session's value, 0 while its context is FREE (R534). -/
def State.ofMeterSess (s : State) (f : Session → Nat) : Nat := if s.meterSess.st = .free then 0 else f s.meterSess

/-- Steps 7 and 8 of a partial load have ended, and its partitions apply one after another (R393). -/
def Trl.applies (x : Trl) : Bool :=
  x.partial_ && (x.st = .scrub || x.st = .apply) && x.moved.isEmpty && x.wbinv.isEmpty

/-- TRL_STATUS (R400). (DEDUCED, log 83) -/
def Trl.status (x : Trl) : Nat :=
  let st := match x.st with | .idle => 0 | .done => 2 | .failed => 3 | _ => 1
  let ph := match x.st with
    | .verify => 1
    | .quiesce => 2
    | .train | .scrub | .apply => 3
    | _ => 0
  pack [(2, st), (2, ph), (4, x.err), (6, if x.applies then x.changed.headD 0 else 0)]

/-- TRL_PARTn (R401). -/
def State.trlPart (s : State) (p : Nat) : Nat :=
  match s.partRec p with
  | some r => pack [(28, fld r 27 0), (1, 1)]
  | none => 0

/-- Four bytes of a digest held as the number its bytes spell little-endian. -/
def digestWord {w : Nat} (d : BitVec w) (i : Nat) : Nat := bits d.toNat (32 * i) 32

/-- CLR_CFG (R440). -/
def Cellar.cfg (x : Cellar) : Nat :=
  pack [(2, x.rate), (1, b2n (x.gib = 1024)), (4, x.initerr), (1, b2n x.sref), (1, b2n (x.hot ≠ []))]

/-- CLR_SCRUBPOS (R440). -/
def State.scrubPos (s : State) : Nat :=
  let total := s.capacity / 128
  pack [(10, if total = 0 then 0 else s.clr.patrol * 1000 / total), (22, s.clr.passes)]

/-- Code of a key slot's state. -/
def KeySt.code : KeySt → Nat
  | .unused => 0
  | .partition => 1
  | .session => 2
  | .locked => 3

/-- Code of a Tchiuth port's state. -/
def PortSt.code : PortSt → Nat
  | .down => 0
  | .training => 1
  | .up => 2
  | .failed => 3

/-- TCH_Pp_STATUS (R442). -/
def Port.status (x : Port) : Nat := pack [(2, x.st.code), (3, x.err), (12, x.peer), (3, x.peerPort), (9, x.rtt)]

/-- Code of a group's state. -/
def GrpSt.code : GrpSt → Nat
  | .closed => 0
  | .opened => 1
  | .done => 2
  | .aborted => 3

/-- TCH_GRPn_STATUS (R442). -/
def Group.status (x : Group) : Nat :=
  pack [(2, x.st.code), (3, x.cause), (1, b2n x.valid), (1, b2n (x.valid && x.parent = 0xFFF)), (1, b2n x.barLocal), (8, 0),
        (16, x.epoch)]

/-- Code of an Ethernet link's state. -/
def LinkSt.code : LinkSt → Nat
  | .down => 0
  | .training => 1
  | .up => 2
  | .failed => 3

/-- ETH_Pp_STATUS (R482). -/
def State.ethStatus (s : State) (p : Nat) : Nat :=
  let e := s.ethp p
  pack [(2, e.link.code), (2, e.speed), (1, b2n s.prc.lock), (1, b2n e.pver)]

/-- A host port's MAC address: MACBASE plus the port number (R482). (DEDUCED, log 103) -/
def macOf (p : Nat) : Nat := (Config.macBase.toNat + p) % 2 ^ 48

/-- Bytes `i` to `i + n - 1` of a MAC address, byte 0 the first on the wire, read little-endian. -/
def macBytes (m i n : Nat) : Nat := ofLe (((toLe 6 m).reverse.drop i).take n)

/-- A tenant record is valid (R466). -/
def tenantValid (r : Tenant) : Bool := fld r 31 0 ≠ 0 && flag r 39

/-- Code of a session's state. -/
def SesSt.code : SesSt → Nat
  | .free => 0
  | .halfopen => 1
  | .opened => 2
  | .rekey => 3
  | .closing => 4
  | .lost => 5

/-- SES_STATUS (R480). -/
def State.sesStatus (s : State) : Nat :=
  pack [(17, s.sessions.length), (11, (s.sessions.filter (fun n => (s.sess n).st = .halfopen)).length)]

/-- SES_CTXSTAT (R480). -/
def Session.stat (x : Session) : Nat := pack [(3, x.st.code), (6, x.part), (12, x.tenant), (5, x.rights)]

/-- SEC_STATUS (R504). -/
def Sec.status (x : Sec) : Nat :=
  let lvl := if x.dbg.testBit 1 then 2 else if x.dbg.testBit 0 then 1 else 0
  pack [(3, x.lc.toNat), (2, x.dbgdis.toNat), (3, x.bootCode), (2, lvl)]

/-- SEC_PSTATEk (R504). -/
def State.secPstate (s : State) (k : Nat) : Nat :=
  pack ((upTo 16).map (fun i => (2, if s.scrubbing (16 * k + i) then 2 else if (s.partRec (16 * k + i)).isSome then 1 else 0)))

/-- Code of a quadrant's state (R532). -/
def QuadSt.code : QuadSt → Nat
  | .off => 0
  | .gated => 1
  | .on => 2
  | .powering => 3

/-- The device state (R505): D3 from the end of its entry to the end of wake. -/
def State.dState (s : State) : Nat :=
  if s.prc.d3 = .asleep || s.prc.d3 = .waking then 3
  else if (upTo 4).any (fun q => s.quad q = .on) then 0
  else if (upTo 4).any (fun q => s.quad q = .gated) then 1
  else 2

/-- PRC_STATE (R532). -/
def State.prcState (s : State) : Nat :=
  pack ([(2, s.dState)] ++ (upTo 4).map (fun q => (2, (s.quad q).code)) ++
        [(1, b2n s.prc.tripped), (1, b2n s.prc.exthot), (1, b2n s.prc.pkhold)])

/-- Step in force in a quadrant (R528). -/
def State.quadStep (s : State) (q : Nat) : Nat :=
  max (max s.prc.kp (Sparse.get 0 s.prc.kt q)) (if s.prc.exthot then 12 else 0)
/-- Step of the hub FCLK (R515, R516, R528). -/
def State.hubStep (s : State) : Nat := max (Sparse.get 0 s.prc.kt 4) (if s.prc.exthot then 12 else 0)

/-- PRC_STRETCH (R532). -/
def State.stretch (s : State) : Nat :=
  pack ([(4, s.prc.kp)] ++ (upTo 4).map (fun q => (4, s.quadStep q)) ++ [(4, s.hubStep)])

/-- The bytes of a record (R540). -/
def Event.bytes (e : Event) : List Byte :=
  toLe 2 e.code ++
  toLe 1 (pack [(3, e.cls), (1, b2n e.session.isSome), (1, b2n e.core.isSome), (1, b2n e.part.isSome)]) ++
  toLe 1 (e.part.getD 0 % 64) ++ toLe 2 (e.session.getD 0) ++ toLe 1 (e.core.getD 0) ++ toLe 1 0 ++ toLe 8 e.time ++
  toLe 4 e.tile ++ toLe 2 e.epoch ++ toLe 1 (e.disp % 64) ++ toLe 1 0 ++ toLe 8 e.detail

/-- EVT_CSTATE code of a core (R561). -/
def CoreSt.code : CoreSt → Nat
  | .active => 0
  | .quiescing _ _ => 1
  | .disabled => 2
  | .fenced => 3

/-- EVT_STATUS (R561). -/
def Evt.status (x : Evt) : Nat := pack [(1, b2n x.dfault), (1, b2n x.bare), (1, b2n x.fallback), (3, x.lastrst)]

/-- What a register of a core block reads whose value a unit holds. -/
def State.coreView (s : State) (n : RegName) (c i : Nat) : Option Nat :=
  match n with
  | .arrStatus => some (s.arrStatus c)
  | .arrOtag => some (s.arrOtag c i)
  | .gauStatus => some (s.gauStatus c)
  | .sveStatus => some (s.sveStatus c)
  | .rkeStatus => some (s.rkeStatus c)
  | .vecStatus => some (s.vecStatus c)
  | .spdStatus => some ((s.rg .spdStatus c).toNat / 2 * 2 + b2n ((s.core c).stalls ≠ []))
  | .spdSlotCfg => some (setBits (s.rg .spdSlotCfg c i).toNat 13 2 (s.slot c i).st.code)
  | .dmaStatus => some (s.chan c i).status
  | .dmaBusy => some (s.dmaBusy c)
  | .seqStatus => some (s.seqStatus c)
  | .seqLasterr => some (s.core c).seq.lasterr.toNat
  | .seqLayer => some (s.seqLayer c)
  | .seqSeed => some ((s.curCtx c).getD {}).lseed.toNat
  | .seqLoop => some (((s.core c).seq.loops.map (·.cnt)).getD i 0)
  | _ => none

/-- Seed Tray, Meter and Pantry. -/
def State.sdtView (s : State) (n : RegName) (i : Nat) : Option Nat :=
  let x := s.disp i
  match n with
  | .sdtStat => some x.stat
  | .sdtEpoch => some (pack [(16, x.epoch), (16, x.lseq)])
  | .sdtNext => some x.next
  | .sdtTotal => some (if x.st = .idle then 0 else x.total)
  | .sdtDone => some x.done
  | .sdtQueue => some (pack [(12, (s.liveClaims i).length), (12, x.queue.length)])
  | .sdtRetry => some (min x.retry (2 ^ 32 - 1))
  | .sdtSpec => some (min x.spec (2 ^ 32 - 1))
  | .sdtAlen => some x.alen
  | .sdtHmrg => some (s.sdt.hub.filter (fun r => r.of i (s.disp i).lseq)).length
  | .sdtTbluse => some s.sdt.claims.length
  | .mtrStatus => some (pack [(1, b2n s.prc.pkhold), (12, s.budgetHeld)])
  | .mtrCal => some s.mtr.calscale
  | .mtrDev => some (toUj s.mtr.dev)
  | .mtrCore => some (toUj (Sparse.get 0 s.mtr.cores i))
  | .mtrLedg => some (toUj (Sparse.get 0 s.mtr.parts i))
  | .mtrSpend => some (Sparse.get 0 s.mtr.spend i)
  | .mtrWin => some (pack [(14, s.rf .mtrWin 0 i 0 14), (12, (s.heldWork (fun c => s.partOf c = some i)).length)])
  | .mtrSwin => some (s.ofMeterSess (·.swin.toNat))
  | .mtrSbud => some (s.ofMeterSess (·.sbud.toNat))
  | .mtrSledg => some (s.ofMeterSess (fun y => toUj y.led))
  | .mtrSspend => some (s.ofMeterSess (·.spend))
  | .pntOpstat => some (pack [(1, b2n s.pantryRuns.isSome), (6, s.pantryRuns.getD s.pnt.lastGroup)])
  | _ => none

/-- Loader, Cellar and Tchiuth. -/
def State.trlView (s : State) (n : RegName) (i : Nat) : Option Nat :=
  match n with
  | .trlStatus => some s.trl.status
  | .trlImgver => some s.cfg.imgver.toNat
  | .trlPseq => some (s.cfg.pseq % 65536)
  | .trlRb => some s.cfg.rbidx
  | .trlRbval => some s.cfg.rbval
  | .trlHash => some (digestWord s.cfg.hash i)
  | .trlPhash => some (digestWord s.cfg.phash i)
  | .trlPart => some (s.trlPart i)
  | .clrCfg => some s.clr.cfg
  | .clrCap => some s.clr.gib
  | .clrScrubpos => some s.scrubPos
  | .clrFillstat => some (pack [(2, s.clr.fillSt), (4, s.clr.fillErr)])
  | .clrKslot => some (s.kslot i).st.code
  | .tchStatus => some (s.port i).status
  | .grpStatus => some (s.group i).status
  | _ => none

/-- Ports, sessions and security. -/
def State.secView (s : State) (n : RegName) (i : Nat) : Option Nat :=
  match n with
  | .ethStatus => some (s.ethStatus i)
  | .ethMac => some (macBytes (macOf i) 0 4 + 2 ^ 32 * macBytes (macOf i) 4 2)
  | .sesStatus => some s.sesStatus
  | .sesCtxstat => some (s.sess (s.rf .sesSel 0 0 0 16)).stat
  | .sesTnstat => some (s.ses.tenants.filter (fun x => tenantValid x.2)).length
  | .secStatus => some s.sec.status
  | .secSerial => some s.sec.serial.toNat
  | .secOwnhash => some (digestWord s.sec.ownerHash i)
  | .secIdhash => some (if s.sec.idkey then leAt s.sec.identityHash (4 * i) 4 else 0)
  | .secLogdig => some (digestWord s.sec.digest i)
  | .secRb => some (Sparse.get 0 s.sec.rbctr i)
  | .secLogcnt => some (min s.sec.logCnt (2 ^ 32 - 1))
  | .secDbgchal => some s.sec.chal.toNat
  | .secDbgctl => some (pack [(1, 0), (1, b2n s.sec.tokBusy), (3, s.sec.tokRes)])
  | .secAttctl => some (pack [(1, 0), (1, b2n s.sec.attBusy)])
  | .secPstate => some (s.secPstate i)
  | _ => none

/-- Porch and events; `j` is the word of a log record. -/
def State.prcView (s : State) (n : RegName) (i j : Nat) : Option Nat :=
  match n with
  | .prcState => some s.prcState
  | .prcWakecfg => some (setBits (s.rg .prcWakecfg).toNat 3 3 s.prc.last)
  | .prcTime => some s.prc.time
  | .prcTsync => some (pack [(1, b2n s.prc.lock), (1, b2n s.prc.hold), (6, 0), (16, clampBits 16 s.prc.offset)])
  | .prcPkgpwr => some (pack [(12, s.prc.power / (2 ^ 20 * 1000)), (16, s.prc.credit / (2 ^ 20 * 10000)), (1, b2n (!s.prc.full))])
  | .prcStretch => some s.stretch
  | .prcTemp => some (pack [(12, ofInt 12 (Sparse.get 0 s.prc.temp i / 256)), (12, ofInt 12 (Sparse.get 0 s.prc.rawT i))])
  | .prcCur => some (Sparse.get 0 s.prc.cur i / 256 % 65536)
  | .prcVolt => some (Sparse.get 0 s.prc.volt i / 256 % 4096)
  | .evtStatus => some s.evt.status
  | .evtWrcnt => some (s.evt.cnt % 2 ^ 32)
  | .evtRdidx => some ((s.evt.cnt - s.evt.unread) % 8192)
  | .evtCstate => some (pack ((upTo 16).map (fun k => (2, (s.core (16 * i + k)).cst.code))))
  | .evtRec => some (match Sparse.get none s.evt.log i with
      | some e => leAt e.bytes (4 * j) 4
      | none => 0)
  | _ => none

/-- What a register reads whose value a unit holds: 64 bits for a pair. -/
def State.view (s : State) (x : RegRef) : Option Nat :=
  if x.n.row.b.isCore then s.coreView x.n x.c x.i
  else (s.sdtView x.n x.i).orElse (fun _ => (s.trlView x.n x.i).orElse (fun _ => (s.secView x.n x.i).orElse (fun _ =>
    s.prcView x.n x.i x.j)))

/-- What a register would read now, latches apart: the unit's value, else the stored one; write-only fields read 0 (R14). -/
def State.regValue (s : State) (x : RegRef) : W32 :=
  match s.view x with
  | some v => BitVec.ofNat 32 (if x.hi then v / 2 ^ 32 else v)
  | none =>
    (if x.hi then s.rgHi x.n x.c x.i x.j else s.rg x.n x.c x.i x.j) &&& maskOf x.fields (· ≠ .wo)

end Sys2Proof.Machine
end

