-- ==== Sys2Proof/Machine/Security.lean ====
section
/-! DEFINITION. Fuses and lifecycle, rollback counters, kills, debug unlock and attestation reports (R483, R484, R491, R493 to
R504). -/
namespace Sys2Proof.Machine

/-! ### Rollback counters (R495) -/

/-- RBVAL of the running image that a counter guards. (DEDUCED, log 84) -/
def State.runningRb (s : State) (i : Nat) : Option Nat :=
  match i with
  | 0 => s.sec.porchRb
  | 1 => s.sec.hubRb
  | _ => if s.cfg.rbidx = i then some s.cfg.rbval else none

/-- A counter raised to the RBVAL of the running image that it guards; a counter that no running image uses leaves an access
event. A counter never moves down (R495). (DEDUCED, log 84) -/
def State.advance (s : State) (r : Req) (i : Nat) : State :=
  match s.runningRb i with
  | none => s.access r (regAddr .secRbadv 0 0 0)
  | some v =>
    let was := Sparse.get 0 s.sec.rbctr i
    if was < v then ({ s with sec := { s.sec with rbctr := Sparse.put 0 s.sec.rbctr i v } }).attest attROLLBACK none else s

/-- ROLLBACK_ADVANCE. (DEDUCED, log 84) -/
def execRollbackAdvance (r : Req) (i : Fin 64) (s : State) : Host.Outcome State Fault Refusal :=
  .next (s.atReg r .secRbadv 0 0 (·.advance r i.val))

/-! ### Kill and scrub (R500, R547) -/

/-- PARTITION_KILL: GO in SEC_KILL. -/
def execPartitionKill (r : Req) (p : PartId) (s : State) : Host.Outcome State Fault Refusal :=
  .next (s.atReg r .secKill 0 0 (·.resetPart p.val 0 true))

/-- The host ports lose their links and what waits in them. -/
def State.ethDown (s : State) : State :=
  s.each (upTo 4) (fun t p => t.modEth p (fun e => { e with link := .down, egress := [], cur := none, neg := [], pver := false }))

/-- Step 2 of a warm reset, once every partition is scrubbed: Tchiuth and host ports go DOWN (R545). (DEDUCED, log 91) -/
def State.warmGoesOn (s : State) : State :=
  if s.evt.warm.isSome && s.sec.scrubs.isEmpty then
    (s.each (upTo 6) (fun t p => t.portDown p 0 .down)).ethDown
  else s

/-- A core whose quiesce the partition's reset overtakes ends it with the reset (R559). (DEDUCED, log 47) -/
def Core.endQuiesce (k : Core) : Core :=
  match k.cst with
  | .quiescing _ false => { k with cst := .disabled, scrub := false }
  | _ => k

/-- Step 7: the partition is READY; a kill ends with its log entry and KILL_DONE, a reset with PART_READY; its spend is 0
(R500, R530, R547). (DEDUCED, log 47) -/
def State.scrubbed (s : State) (x : Scrub) : State :=
  let t := { s with sec := { s.sec with scrubs := s.sec.scrubs.filter (·.part ≠ x.part) }
                    mtr := { s.mtr with spend := Sparse.put 0 s.mtr.spend x.part 0 } }
  let u := t.each (t.coresOf x.part) (fun v c => v.modCore c Core.endQuiesce)
  let v := if x.kill then (u.attest attSCRUBBED (some x.part)).partEvent x.part 0x0A01 0 0 else u.partEvent x.part 0x0007 0 0
  v.fullGoesOn.warmGoesOn

/-- KILL_SCRUB_DONE: zero-fill and INVZ of the partition have ended (R500 step 7, R502, R550). -/
def execKillScrubDone (p : PartId) (s : State) : Host.Outcome State Fault Refusal :=
  match s.sec.scrubs.find? (·.part = p.val) with
  | some x => if x.invz ≠ [] then .next s else .next (s.scrubbed x)
  | none => .next s

/-! ### Debug (R496 to R498) -/

/-- A range that SEC_DBGADDR or SEC_ATTADDR may name: aligned, in a HUB region, readable (R504). (DEDUCED, log 86) -/
def State.hubRange (s : State) (a n : Nat) : Bool :=
  a % 128 = 0 && (match s.regionAt a with | some r => r.hub && a + n ≤ r.base + r.size | none => false) &&
  (s.cellarRefusal a n).isNone

/-- Bytes of such a range; an address that is none reads zeros, with an access event (R30). (DEDUCED, log 86) -/
def State.hubRead (s : State) (r : Req) (a n : Nat) : List Byte × State :=
  if s.hubRange a n then ((s.cellarRead .normal a n).1, (s.cellarRead .normal a n).2.2) else (zeros n, s.access r a)

/-- A challenge drawn (R492, R497). (DESIGN CHOICE, log 8; DEDUCED, log 119) -/
def State.newChallenge (s : State) : State :=
  let (v, t) := s.draw
  { t with sec := { t.sec with chal := BitVec.ofNat 64 v } }

/-- GO in SEC_DBGCTL: the token is read, the challenge consumed and a new one drawn (R497). -/
def State.debugGo (s : State) (r : Req) : State :=
  if s.sec.tokBusy then s.access r (regAddr .secDbgctl 0 0 0)
  else
    let (bs, t) := s.hubRead r (s.rg64 .secDbgaddr % 2 ^ 48) 364
    State.newChallenge { t with sec := { t.sec with tok := bs, tokChal := t.sec.chal, tokBusy := true, tokRes := 0 } }

/-- DEBUG_UNLOCK. (DEDUCED, log 86) -/
def execDebugUnlock (r : Req) (s : State) : Host.Outcome State Fault Refusal :=
  .next (s.atReg r .secDbgctl 0 0 (·.debugGo r))

/-- The token's form is that of R497: its reserved values and bytes are as stated. (DEDUCED, log 85) -/
def tokenForm (t : List Byte) : Bool :=
  leAt t 0 4 = 0x4B544244 && (leAt t 4 1 = 1 || leAt t 4 1 = 2) && leAt t 5 1 ≤ 1 && leAt t 229 3 = 0

/-- The token names this device's identity (R497). (DEDUCED, log 85) -/
def Sec.named (x : Sec) (t : List Byte) : Bool := leAt t 8 8 = x.serial.toNat && (t.drop 32).take 64 = x.identityHash

/-- RESULT of the token's check, the causes in the order of their codes: 1 accepted (R497, R504). (DEDUCED, log 85) -/
def State.tokenResult (s : State) : Nat :=
  let t := s.sec.tok
  let vendor : Bool := leAt t 4 1 = 2
  let key := digestOf ((t.drop 96).take 133)
  let keyOk : Bool := key = (if vendor then s.sec.vendorHash else s.sec.ownerHash)
  if !tokenForm t || !keyOk then 2
  else if !signedBy ((t.drop 96).take 133) (t.take 232) (t.drop 232) then 3
  else if !s.sec.named t || s.sec.tokChal = 0 || leAt t 16 8 ≠ s.sec.tokChal.toNat then 4
  else if leAt t 24 8 * 10 ^ 9 ≤ s.prc.time then 5
  else if s.sec.dbgdis.toNat.testBit (if vendor then 1 else 0) then 6
  else if leAt t 5 1 = 1 && (s.sess (leAt t 6 2)).st ≠ .opened then 7
  else 1

/-- The owner level opens, for a session or for JTAG (R496). -/
def State.openOwner (s : State) : State :=
  let t := s.sec.tok
  ({ s with sec := { s.sec with
      dbg := s.sec.dbg / 2 * 2 + 1, dbgSession := if leAt t 5 1 = 1 then some (leAt t 6 2) else none
      dbgJtag := leAt t 5 1 = 0, expiry := leAt t 24 8 } }).attest attDEBUG none

/-- A vendor unlock begins: every partition and every session is killed and every key slot destroyed (R498).
(DEDUCED, log 87) -/
def State.beginVendor (s : State) : State :=
  let t0 := { s with sec := { s.sec with vendorDue := true } }
  let t1 := t0.each t0.parts (fun t p => t.resetPart p 0 true)
  let t2 := t1.each (t1.sessions ++ t1.mgmtSessions) (fun t n => t.killSession n)
  t2.each (t2.cfg.regions.filter (·.hub)) (fun t r => t.destroyKey r)

/-- DEBUG_TOKEN_CHECK_DONE: the check ends (R497, R498). (DEDUCED, log 85) -/
def execDebugTokenCheckDone (s : State) : Host.Outcome State Fault Refusal :=
  if !s.sec.tokBusy then .next s
  else
    let v := s.tokenResult
    let t := { s with sec := { s.sec with tokBusy := false, tokRes := v } }
    .next (if v ≠ 1 then t else if leAt s.sec.tok 4 1 = 2 then t.beginVendor else t.openOwner)

/-- VENDOR_UNLOCK_EFFECT: the vendor level opens once every partition has left SCRUBBING, those included whose kill waits for a
partial load (R398, R498). (DEDUCED, log 87) -/
def execVendorUnlockEffect (s : State) : Host.Outcome State Fault Refusal :=
  if s.sec.vendorDue && s.sec.scrubs.isEmpty && !s.trl.deferred.any (·.2.2) then
    .next (({ s with sec := { s.sec with vendorDue := false, dbg := s.sec.dbg % 2 + 2 } }).attest attDEBUG none)
  else .next s

/-- DEBUG_EXPIRY: the owner level closes at its EXPIRY (R496). -/
def execDebugExpiry (s : State) : Host.Outcome State Fault Refusal :=
  .next (if s.sec.dbg.testBit 0 && s.sec.expiry * 10 ^ 9 ≤ s.prc.time then s.closeDebug else s)

/-! ### Attestation (R494) -/

/-- GO in SEC_ATTCTL: the nonce is read and a report begins (R494, R504). -/
def State.attestGo (s : State) (r : Req) : State :=
  if s.sec.attBusy then s.access r (regAddr .secAttctl 0 0 0)
  else
    let (bs, t) := s.hubRead r (s.rg64 .secAttaddr % 2 ^ 48) 64
    { t with sec := { t.sec with attBusy := true, nonce := bs } }

/-- ATTESTATION_REPORT. (DEDUCED, log 86) -/
def execAttestationReport (r : Req) (s : State) : Host.Outcome State Fault Refusal :=
  .next (s.atReg r .secAttctl 0 0 (·.attestGo r))

/-- The identity certificate, at most 2,048 bytes (R491). -/
def certificate : List Byte := Config.certificate.take 2048

/-- Bytes 0 to 807 + CL of a report (R494). -/
def State.reportBody (s : State) : List Byte :=
  let cl := certificate.length
  toLe 4 0x54544142 ++ toLe 2 1 ++ toLe 2 0 ++ toLe 4 (940 + cl) ++ toLe 4 Config.romVersion.toNat ++
  padTo 64 s.sec.nonce ++ toLe 64 s.sec.porchHash.toNat ++ toLe 64 s.sec.hubHash.toNat ++ toLe 64 s.cfg.hash.toNat ++
  toLe 64 s.cfg.phash.toNat ++ toLe 2 s.cfg.pseq ++ toLe 2 s.cfg.devid ++ toLe 4 s.sec.status ++
  (upTo 64).flatMap (fun p => toLe 4 (s.trlPart p)) ++ (upTo 64).flatMap (fun i => toLe 1 (Sparse.get 0 s.sec.rbctr i)) ++
  toLe 64 s.sec.ownerHash.toNat ++ toLe 64 s.sec.digest.toNat ++ toLe 4 (min s.sec.logCnt (2 ^ 32 - 1)) ++
  toLe 8 s.prc.time ++ toLe 4 cl ++ certificate

/-- ATTESTATION_DONE: the report is written (R494). (DEDUCED, log 86) -/
def execAttestationDone (s : State) : Host.Outcome State Fault Refusal :=
  if !s.sec.attBusy then .next s
  else
    let a := s.rg64 .secAttaddr % 2 ^ 48
    let b := s.reportBody
    let (sig, s) := s.identitySign b
    let bs := b ++ sig
    let t := if s.hubRange a bs.length then (s.writeCellar .porch .normal a bs).2 else s
    .next { t with sec := { t.sec with attBusy := false } }

end Sys2Proof.Machine
end

