-- ==== Sys2Proof/Machine/Reset.lean ====
section
/-! DEFINITION. What the resets of the whole device leave: the hub's state lost or reset, cold reset, warm reset (R487, R489,
R511, R517, R543 to R546, R551, R552, R566 to R568). -/
namespace Sys2Proof.Machine

/-! ### The hub's registers and units -/

/-- The address of a register of the hub outside the Porch island that no image writes: not of PRC, SEC or EVT (R511, R543,
R545). -/
def hubReg (a : Nat) : Bool :=
  match regAt a with
  | some r => !r.n.row.b.isCore && r.n.row.b ≠ .prc && r.n.row.b ≠ .sec && r.n.row.b ≠ .evt && !hasAcc r.fields .img
  | none => false

/-- Those registers at their reset values. (DEDUCED, log 91) -/
def State.resetHubRegs (s : State) : State :=
  { s with regs := s.regs.filter (fun x => !hubReg x.1), latchRd := s.latchRd.filter (fun x => !hubReg x.1)
           latchWr := s.latchWr.filter (fun x => !hubReg x.1) }

/-- The Cellar controllers' own state; training, capacity, DRAM and key slots are kept. -/
def Cellar.restarted (x : Cellar) : Cellar :=
  { x with fill := none, fillSt := 0, fillErr := 0, hot := [], warm := [], patrol := 0, passes := 0, ceTime := [] }

/-- Work of the hub that a reset of the whole hub ends: transport, Pantry operation, requests, training of a load. -/
def State.endHubWork (s : State) : State :=
  { s with pnt := { lines := [], plru := [], op := none, lastGroup := 0 }
           tch := { s.tch with reqs := [] }
           ses := { s.ses with ctx := [], fails := [], locked := [], inq := s.ses.inq.filter (fun x => x.1 = 4) }
           clr := s.clr.restarted
           trl := {}
           sec := { s.sec with tokBusy := false, attBusy := false } }

/-- Everything of the hub outside the Porch island is lost: D3 and the thermal trip (R511, R517). (DEDUCED, log 92) -/
def State.loseHub (s : State) : State :=
  let t := (s.endHubWork.resetHubRegs).ethDown
  let u := t.each (upTo 6) (fun v p => v.modPort p (fun _ => {}))
  { u with sdt := {}, mtr := {}
           tch := { u.tch with nextTag := 0, groups := u.retained.groups }
           sec := { u.sec with scrubs := [] }
           prc := { u.prc with kp := 0, ovr := 0, pkhold := false } }

/-! ### Cold reset (R489, R544, R552, R566 to R568) -/

/-- The Cellar's DRAM alone: the scratchpads are gone. -/
def State.dramOnly (s : State) : List (Nat × Byte) := s.mem.filter (fun x => x.1 < 2 ^ 40)

/-- Every operation ends without record and everything takes its reset value, but for the fuses, the DRAM, the rails' commands
and the pins. The DRAM keeps its contents where its modules were in self-refresh; elsewhere they are open (R489).
(DESIGN CHOICE, log 5; DEDUCED, log 90) -/
def State.coldBase (s : State) (boot : Boot) : State :=
  let r := State.reset
  { r with
    pending := s.pending, free := s.free, outbox := s.outbox, mem := s.dramOnly
    clr := { mods := s.clr.mods, keyOf := s.clr.keyOf, poison := s.clr.poison, vers := s.clr.vers
             era := if s.clr.sref then s.clr.era else s.clr.era + 1, eraOf := s.clr.eraOf }
    sec := { serial := s.sec.serial, puf := s.sec.puf, vendorHash := s.sec.vendorHash, ownerHash := s.sec.ownerHash
             lc := s.sec.lc, dbgdis := s.sec.dbgdis, rbctr := s.sec.rbctr, boot := boot }
    prc := { standby := s.prc.standby, rails := s.prc.rails, sets := s.prc.sets, extProchot := s.prc.extProchot
             thermtrip := s.prc.thermtrip } }

/-- COLD_RESET: PORST_N is released with the board's rails present; the Porch ROM starts, and the modules are read (R403, R488
step 1). What the DRAM lost it lost as PORST_N fell. -/
def execColdReset (mods : List (Fin 16 × Module)) (s : State) : Host.Outcome State Fault Refusal :=
  let t := s.coldBase .rom
  .next { t with prc := { t.prc with porst := false, standby := true }
                 clr := { t.clr with mods := mods, era := if s.prc.porst then s.clr.era else t.clr.era } }

/-- PORST_N_ASSERT: the Porch stops at once and every operation ends; the rails hold what they were commanded to (R552,
R568). -/
def execPorstNAssert (s : State) : Host.Outcome State Fault Refusal :=
  let t := s.coldBase .held
  .next { t with prc := { t.prc with porst := true } }

/-- STANDBY_POWER_LOSS: the board removes VDD_PORCH and VDD_IO; every rail goes off, and with the keeper level the DRAM's
contents are open (R562, R566). (DEDUCED, log 90) -/
def execStandbyPowerLoss (s : State) : Host.Outcome State Fault Refusal :=
  let t := State.coldBase { s with clr := { s.clr with sref := false } } .held
  .next { t with prc := { t.prc with porst := true, standby := false, rails := [], thermtrip := false } }

/-- PROVISION_OWNER: the one request of a PROVISIONED device at its ROM: OWNERHASH burns, OWNED is set, and the device resets
cold (R484). -/
def execProvisionOwner (hash : BitVec 512) (s : State) : Host.Outcome State Fault Refusal :=
  if s.sec.boot = .rom && s.sec.lc = 1 then
    .next (State.coldBase { s with sec := { s.sec with ownerHash := s.sec.ownerHash ||| hash, lc := s.sec.lc ||| 2 } } .rom)
  else .next s

/-- DECOMMISSION: the fuse burns (R483). -/
def execDecommission (s : State) : Host.Outcome State Fault Refusal :=
  .next { s with sec := { s.sec with lc := s.sec.lc ||| 4 } }

/-! ### Warm reset (R545, R546, R551) -/

/-- Codes of LASTRST (R561). -/
abbrev rstWRST : Nat := 1
abbrev rstWARM : Nat := 2
abbrev rstWATCHDOG : Nat := 3

/-- A core in a warm reset: its memories zero-filled, its registers other than IMG reset; a quiesce ends with it (R544,
R559). (DEDUCED, log 91) -/
def State.warmCore (s : State) (c : Nat) : State :=
  (s.wipeCore c).modCore c (fun k => { k with owner := none, scrub := false
                                              cst := match k.cst with | .fenced => .fenced | _ => .active })

/-- Step 1: a load is discarded with the retained configuration; every partition is reset, every host session killed, every
key slot destroyed; owner debug closes (R496, R545, R551). (DEDUCED, log 91) -/
def State.beginWarm (s : State) (code : Nat) : State :=
  let bare := s.trlBusy
  let t0 := { s with trl := {}, evt := { s.evt with warm := some code, warmBare := bare, dfault := false }
                     retained := if bare then {} else s.retained }
  let t1 := if t0.sec.dbg.testBit 0 then t0.closeDebug else t0
  let t2 := t1.each t1.sessions (fun t n => t.killSession n)
  let t3 := t2.each t2.parts (fun t p => t.resetPart p prWARM false)
  let t4 := t3.each (t3.cfg.regions.filter (·.hub)) (fun t r => t.destroyKey r)
  let t5 := t4.each (upTo 256) (fun t c => t.warmCore c)
  let t6 := (t5.endHubWork.resetHubRegs).each (upTo 64) (fun t d => t.modDisp d (fun x => { x with quiesced := false }))
  let t7 := { t6 with mtr := { t6.mtr with spend := [], sessAct := [], partAct := [] } }
  t7.warmGoesOn

/-- A warm-reset trigger: ignored during a warm reset, in D3 and its entry, and after a thermal trip; a stopped boot reads its
boot set again (R487, R517, R546). -/
def State.warmReset (s : State) (code : Nat) : State :=
  if s.evt.warm.isSome || s.prc.d3 ≠ .none || s.prc.tripped || s.prc.porst then s
  else if s.sec.boot = .stopped then
    (match s.sec.bootCode with
      | 1 => { s with sec := { s.sec with boot := .rom, bootCode := 0 }, evt := { s.evt with lastrst := code } }
      | 2 | 3 => { s with sec := { s.sec with boot := .hubfw, bootCode := 0 }, evt := { s.evt with lastrst := code }, trl := {} }
      | _ => s)
  else s.beginWarm code

/-- WARM_RESET: WARM in EVT_RSTCTL; together with PRESET the write is dropped (R561). -/
def execWarmReset (r : Req) (alsoPreset : Bool) (s : State) : Host.Outcome State Fault Refusal :=
  .next (s.atReg r .evtRstctl 0 0 (fun s =>
    if alsoPreset then s.access r (regAddr .evtRstctl 0 0 0) else s.warmReset rstWARM))

/-- WRST_PIN: WRST_N low for at least 4 PCLK (R543, R572). -/
def execWrstPin (pclk : Nat) (s : State) : Host.Outcome State Fault Refusal :=
  .next (if 4 ≤ pclk then s.warmReset rstWRST else s)

/-- HUB_WATCHDOG: 100 ms without a heartbeat: the event, then a warm reset (R538). -/
def execHubWatchdog (s : State) : Host.Outcome State Fault Refusal :=
  if s.evt.warm.isSome || s.prc.d3 ≠ .none || s.prc.tripped || s.prc.porst then .next s
  else .next ((s.dEvent 0x0009 0).warmReset rstWATCHDOG)

/-- PARTITION_RESET: PRESET in EVT_RSTCTL (R547). -/
def execPartitionReset (r : Req) (p : PartId) (s : State) : Host.Outcome State Fault Refusal :=
  .next (s.atReg r .evtRstctl 0 0 (·.resetPart p.val prRSTCTL false))

/-! ### The event log's reader (R541) -/

/-- EVT_RDIDX written: the unread count follows, never above the records appended (R541). (DEDUCED, log 97) -/
def State.setRdidx (s : State) (v : W32) : State :=
  { s with evt := { s.evt with unread := min ((s.evt.cnt + 8192 - v.toNat % 8192) % 8192) s.evt.cnt } }

/-- EVT_RDIDX_WRITE. (DEDUCED, log 97) -/
def execEvtRdidxWrite (r : Req) (v : W32) (s : State) : Host.Outcome State Fault Refusal :=
  .next (s.atReg r .evtRdidx 0 0 (·.setRdidx v))

end Sys2Proof.Machine
end

