-- ==== Sys2Proof/Machine/Power.lean ====
section
/-! DEFINITION. Quadrant gating and power, D3 and wake, rails and setpoints, sensors, thermal steps, the package cap and the
time counter's discipline (R505 to R518, R520, R527 to R530, R562 to R568). -/
namespace Sys2Proof.Machine

/-! ### Rails (R562, R567) -/

/-- Level in mV that a sequence raises a rail to, by regulator 0 to 9 (R562, R567). -/
def railMv (k : Nat) : Nat := match k with | 7 => 900 | 8 => 1200 | 9 => 1100 | _ => 750

/-- Setpoint in mV of a rail: what it was last commanded to. -/
def State.setpoint (s : State) (k : Nat) : Nat :=
  if Sparse.get 0 s.prc.sets k = 0 then railMv k else Sparse.get 0 s.prc.sets k

/-- A voltage monitor of a rail (R513). -/
def railMonitor (k : Nat) : Nat := if k < 4 then 4 * k else if k < 6 then 12 + k else if k < 9 then 13 + k else 22

/-- The rail that a monitor watches; VDD_PORCH and VDD_IO are the board's. -/
def monitorRail (m : Nat) : Option Nat :=
  if m < 16 then some (m / 4)
  else match m with
    | 16 => some 4
    | 17 => some 5
    | 19 => some 6
    | 20 => some 7
    | 21 => some 8
    | 22 => some 9
    | _ => none

/-- A rail commanded on at a setpoint over PMBus. -/
def State.railOn (s : State) (k mv : Nat) : State :=
  ({ s with prc := { s.prc with sets := Sparse.put 0 s.prc.sets k mv
                                onAt := Sparse.put 0 s.prc.onAt k s.prc.time } }).send (.pmbus k true mv)

/-- A rail commanded off. -/
def State.railOff (s : State) (k : Nat) : State :=
  ({ s with prc := { s.prc with rails := s.prc.rails.filter (· ≠ k) } }).send (.pmbus k false 0)

/-- Rails turned off in an order. -/
def State.railsOff (s : State) (ks : List Nat) : State := s.each ks (fun t k => t.railOff k)

/-- VDDQ_DDR set to its keeper level, where it is on (R562, R567). -/
def State.keeper (s : State) : State := if s.prc.rails.contains 9 then s.railOn 9 1000 else s

/-- The next rail of a sequence is commanded on (R567). -/
def State.raise (s : State) (k mv : Nat) : State :=
  let t := s.railOn k mv
  { t with prc := { t.prc with raising := some k } }

/-! ### Quadrant gating and power (R506 to R510) -/

/-- The idle conditions of R506 hold for a core. -/
def State.coreIdle (s : State) (c : Nat) : Bool :=
  let k := s.core c
  let q := k.seq
  (q.halted || (q.wait = .none && q.rd = q.wr) || s.fenced c) && k.busyHandles.isEmpty && k.stalls.isEmpty && q.jobs.isEmpty &&
  (upTo 16).all (fun ch => (s.chan c ch).st ≠ .run && (s.chan c ch).st ≠ .wait)

/-- The cores of a quadrant. -/
def quadCores (q : Nat) : List Nat := (upTo 64).map (64 * q + ·)

/-- The idle conditions of R506 hold for a quadrant. -/
def State.quadIdle (s : State) (q : Nat) : Bool := (quadCores q).all s.coreIdle

/-- QUAD_GATE: an ON quadrant idle for IDLEGATE us is GATED; an IDLEGATE of 0 disables it (R506). -/
def execQuadGate (q : QuadId) (s : State) : Host.Outcome State Fault Refusal :=
  if s.quad q.val = .on && s.rf .prcPwrcfg 0 0 0 10 ≠ 0 && s.quadIdle q.val && s.prc.d3 = .none then .next (s.setQuad q.val .gated)
  else .next s

/-- QUAD_UNGATE: a transaction reaches a GATED quadrant (R507). (DEDUCED, log 28) -/
def execQuadUngate (q : QuadId) (s : State) : Host.Outcome State Fault Refusal :=
  .next (if s.quad q.val = .gated then s.setQuad q.val .on else s)

/-- Partitions with a block in a quadrant. (DEDUCED, log 93) -/
def State.quadParts (s : State) (q : Nat) : List Nat :=
  s.parts.filter (fun p => (upTo 16).any (fun k => s.cfg.partOfBlock (16 * q + k) = some p))

/-- QOFF is accepted (R508). (DEDUCED, log 93) -/
def State.mayOff (s : State) (q : Nat) : Bool :=
  (s.quad q = .on || s.quad q = .gated) && s.quadIdle q &&
  (s.quadParts q).all (fun p => (s.dispsOf p).all (fun d => (s.disp d).st = .idle) &&
    s.tch.groups.all (fun x => x.2.part ≠ p || x.2.st ≠ .opened))

/-- A quadrant is powered off: its cores' state is lost, its rails go off, and every session that owns a core there hears of it
(R508). (DEDUCED, log 93) -/
def State.quadOff (s : State) (q : Nat) : State :=
  let owners := ((quadCores q).filterMap (fun c => (s.core c).owner)).foldl (fun l n => insertAsc n l) []
  let t := ((s.each (quadCores q) (fun t c => t.wipeCore c)).setQuad q .off).railOff q
  t.each owners (fun u n => u.log { code := 0x0B01, cls := 0, part := some (u.sess n).part, session := some n, detail := q })

/-- QOFF: without QON for the same quadrant in the write (R508, R530). (DEDUCED, log 93) -/
def State.qoffAct (s : State) (r : Req) (q : Nat) (both : Bool) : State :=
  if both then s.access r (regAddr .prcPctl 0 0 0)
  else if s.quad q = .off then s
  else if s.mayOff q then s.quadOff q
  else s.access r (regAddr .prcPctl 0 0 0)

/-- QOFF. -/
def execQoff (r : Req) (q : QuadId) (alsoOn : Bool) (s : State) : Host.Outcome State Fault Refusal :=
  .next (s.atReg r .prcPctl 0 0 (·.qoffAct r q.val alsoOn))

/-- QON for an OFF quadrant: its rail is commanded on at its stored AVS code; for any other it has no effect (R510). -/
def State.qonAct (s : State) (r : Req) (q : Nat) (both : Bool) : State :=
  if both then s.access r (regAddr .prcPctl 0 0 0)
  else if s.quad q = .off && s.prc.d3 = .none && !s.prc.tripped then (s.setQuad q .powering).railOn q (Config.avsCode q)
  else s

/-- QON. (DEDUCED, log 93) -/
def execQon (r : Req) (q : QuadId) (alsoOff : Bool) (s : State) : Host.Outcome State Fault Refusal :=
  .next (s.atReg r .prcPctl 0 0 (·.qonAct r q.val alsoOff))

/-- QUAD_POWER_ON_DONE: rails and PLL are up and the zero-fill has ended: IMG fields from the retained configuration, every
sequencer HALTED, ON (R509, R510). -/
def execQuadPowerOnDone (q : QuadId) (s : State) : Host.Outcome State Fault Refusal :=
  if s.quad q.val = .powering && s.prc.rails.contains q.val then
    .next (((s.each (quadCores q.val) (fun t c => (t.wipeCore c).writeCoreImg t.retained c)).setQuad q.val .on).devEvent
      0x0B02 0 q.val)
  else .next s

/-! ### D3 (R511, R512) -/

/-- D3 is accepted (R511). -/
def State.mayD3 (s : State) : Bool :=
  s.prc.d3 = .none && !s.prc.tripped && (upTo 4).all (fun q => s.quad q = .off) && s.ses.ctx.isEmpty &&
  (upTo 64).all (fun d => (s.disp d).st = .idle) && !s.trlBusy && s.sec.scrubs.isEmpty && s.clr.fill.isNone &&
  s.clr.kills.isEmpty && s.pnt.op.isNone

/-- A D3 request: entry begins with WBINV on every valid slice group (R511). -/
def State.d3Act (s : State) (r : Req) : State :=
  if s.mayD3 then
    { s with prc := { s.prc with d3 := .entering, wakeSeen := 0
                                 d3ops := (upTo 64).filter (fun g => (s.rg .pntGrp 0 g).toNat.testBit 9) } }
  else s.access r (regAddr .prcPctl 0 0 0)

/-- D3_REQUEST. -/
def execD3Request (r : Req) (s : State) : Host.Outcome State Fault Refusal :=
  .next (s.atReg r .prcPctl 0 0 (·.d3Act r))

/-- Wake begins: the Porch raises the hub's rails (R512 steps 1 and 2). -/
def State.beginWake (s : State) (code : Nat) : State :=
  let t := { s with prc := { s.prc with d3 := .waking, last := code, wakeSeen := 0 } }
  t.raise 4 750

/-- Without a management-port source the lock is lost in D3 (R520). -/
def Prc.inD3 (p : Prc) (sel : Nat) : Prc :=
  if p.lock && sel ≠ 4 then { p with d3 := .asleep, lock := false, hold := true, good := 0 } else { p with d3 := .asleep }

/-- D3: ports DOWN, Cellar in self-refresh, the entry in the attestation log, hub and SerDes rails off and VDDQ_DDR at its
keeper level; the hub's state is lost (R511, R562). (DEDUCED, log 92) -/
def State.enterD3 (s : State) : State :=
  let t1 := s.each (upTo 6) (fun t p => t.portDown p 0 .down)
  let t2 := ((t1.attest attD3 none).railsOff [8, 7, 6, 5, 4]).keeper
  let t3 := t2.loseHub
  { t3 with clr := { t3.clr with sref := true }, prc := t3.prc.inD3 (s.rf .ethPtpsel 0 0 0 3) }

/-- D3_ENTRY_DONE: entry ends; a wake source that came meanwhile starts wake at once (R511, R512). -/
def execD3EntryDone (s : State) : Host.Outcome State Fault Refusal :=
  if s.prc.d3 = .entering && s.prc.d3ops.isEmpty then
    let t := s.enterD3
    .next (if t.prc.wakeSeen = 0 then t else t.beginWake t.prc.wakeSeen)
  else .next s

/-- A wake source that PRC_WAKECFG enables: in D3 it wakes, during entry it is kept; anywhere else it has no effect (R512,
R572). -/
def State.wake (s : State) (en code : Nat) : State :=
  if !(s.rg .prcWakecfg).toNat.testBit en || s.prc.tripped then s
  else match s.prc.d3 with
    | .asleep => s.beginWake code
    | .entering => if s.prc.wakeSeen = 0 then { s with prc := { s.prc with wakeSeen := code } } else s
    | _ => s

/-- WAKE_PIN: WAKE_N low for at least 4 PCLK (R512, R572). -/
def execWakePin (pclk : Nat) (s : State) : Host.Outcome State Fault Refusal :=
  .next (if 4 ≤ pclk then s.wake 1 2 else s)

/-- WAKE_TIMER: the time counter has reached PRC_WAKET (R512). -/
def execWakeTimer (s : State) : Host.Outcome State Fault Refusal :=
  .next (if s.rg64 .prcWaket ≤ s.prc.time then s.wake 2 3 else s)

/-- Every Tchiuth port begins training and every configured host port its link start (R416, R443).
(DESIGN CHOICE, log 89) -/
def State.startPorts (s : State) : State :=
  (s.each (upTo 6) (fun t p => t.portTrain p)).writeEth s.cfg

/-- D3_WAKE_DONE: the Cellar is ready, ports start, D2, PWR_WAKE (R512 steps 7 and 8). -/
def execD3WakeDone (s : State) : Host.Outcome State Fault Refusal :=
  if s.prc.d3 = .waking && !s.clr.sref then
    let t := { s with prc := { s.prc with d3 := .none } }
    .next ((t.devEvent 0x0B03 0 t.prc.last).startPorts)
  else .next s

/-! ### Rails in sequence (R510, R512, R567, R568) -/

/-- What follows a rail of a sequence: the hub's rails in order, then in a boot the quadrants' in order, then the zero-fill
(R567). -/
def State.railNext (s : State) (k : Nat) : State :=
  let t := { s with prc := { s.prc with raising := none } }
  if k = 9 then (if s.prc.d3 = .waking then t else t.raise 0 (railMv 0))
  else if k = 3 then { t with sec := { t.sec with boot := .zero } }
  else t.raise (k + 1) (railMv (k + 1))

/-- RAIL_IN_TOLERANCE: the rail commanded on is within its static tolerance (R510, R567). (DESIGN CHOICE, log 89) -/
def execRailInTolerance (rail : Fin 10) (s : State) : Host.Outcome State Fault Refusal :=
  let k := rail.val
  let t := { s with prc := { s.prc with rails := insertAsc k s.prc.rails } }
  if s.prc.raising = some k then .next (t.railNext k)
  else if k < 4 && s.quad k = .powering then .next t
  else .next s

/-- RAIL_SEQUENCE_TIMEOUT: 5 ms after it was commanded on the rail is not within tolerance: the rails raised go off in reverse
order, and RAIL_FAULT is raised. A boot or a wake stops there; a quadrant stays OFF (R568). (DEDUCED, log 94) -/
def execRailSequenceTimeout (rail : Fin 10) (s : State) : Host.Outcome State Fault Refusal :=
  let k := rail.val
  if s.prc.raising = some k then
    let t := { s with prc := { s.prc with raising := none }, sec := { s.sec with boot := .stopped } }
    .next ((t.railsOff ([3, 2, 1, 0, 9, 8, 7, 6, 5, 4].filter (fun j => j = k || s.prc.rails.contains j))).dEvent 0x0B06 (railMonitor k))
  else if k < 4 && s.quad k = .powering && !s.prc.rails.contains k then
    .next (((s.railOff k).setQuad k .off).dEvent 0x0B06 (railMonitor k))
  else .next s

/-- AVS_UPDATE: a quadrant's setpoint moves toward its target in steps of 5 mV, by at most 10 mV, at most once in 10 ms
(R563). -/
def execAvsUpdate (q : QuadId) (targetMv : Nat) (s : State) : Host.Outcome State Fault Refusal :=
  let q := q.val
  let cur := s.setpoint q
  let tout := max 550 (min 800 targetMv) / 5 * 5
  let new := if cur < tout then min tout (cur + 10) else max tout (cur - 10)
  let due : Bool := match s.prc.avsAt.find? (·.1 = q) with
    | some x => x.2 + 10 ^ 7 ≤ s.prc.time
    | none => true
  if s.prc.rails.contains q && due && new ≠ cur then
    .next (({ s with prc := { s.prc with sets := Sparse.put 0 s.prc.sets q new
                                         avsAt := Sparse.ins q s.prc.time s.prc.avsAt } }).send (.pmbus q true new))
  else .next s

/-- A RAIL_FAULT of a monitor, raised once while its condition lasts (R518). -/
def State.railFaultOn (s : State) (m : Nat) : State :=
  if s.prc.railFault.contains m then s
  else ({ s with prc := { s.prc with railFault := insertAsc m s.prc.railFault } }).dEvent 0x0B06 m

/-- PMBUS_ALERT: STATUS_WORD is read from every regulator; one that reports a fault, or its output off, while the Porch holds
its rail on raises RAIL_FAULT (R564). (DEDUCED, log 94) -/
def execPmbusAlert (pclk : Nat) (faults : List (Fin 10)) (s : State) : Host.Outcome State Fault Refusal :=
  if pclk < 4 then .next s
  else .next (s.each ((upTo 10).filter (fun k => faults.any (·.val = k) && s.prc.rails.contains k)) (fun t k =>
    t.dEvent 0x0B06 (railMonitor k)))

/-! ### Sensors (R513, R514, R517, R518) -/

/-- A filtered value, kept with 8 fraction bits: y + (x - y) 2^-k. (DEDUCED, log 94) -/
def filterStep (y x : Int) (k : Nat) : Int := y + (x * 256 - y) / 2 ^ k

/-- Filter exponent of a class: 0 temperatures, 1 currents, 2 voltages. -/
def State.filtK (s : State) (i : Nat) : Nat := s.rf .prcFilt 0 0 (4 * i) 4

/-- Every reading filtered, raw values inside their ranges. (DEDUCED, log 94) -/
def State.filterAll (s : State) (x : Readings) : State :=
  let p := s.prc
  let t (n : Nat) : Int := max (-320) (min 1200 (x.temp.getD n 0))
  let c (n : Nat) : Nat := min 65535 (x.cur.getD n 0)
  let v (n : Nat) : Nat := min 4095 (x.volt.getD n 0)
  { s with prc := { p with
      temp := (upTo 64).foldl (fun m n => Sparse.put 0 m n (filterStep (Sparse.get 0 m n) (t n) (s.filtK 0))) p.temp
      rawT := (upTo 64).foldl (fun m n => Sparse.put 0 m n (t n)) p.rawT
      cur := (upTo 16).foldl (fun (m : Sparse Nat) n => Sparse.put 0 m n (filterStep (Sparse.get 0 m n : Nat) (c n) (s.filtK 1)).toNat) p.cur
      volt := (upTo 24).foldl (fun (m : Sparse Nat) n => Sparse.put 0 m n (filterStep (Sparse.get 0 m n : Nat) (v n) (s.filtK 2)).toNat) p.volt
      periods := p.periods + 1 } }

/-- The monitor whose voltage a current point's power takes; SerDes takes monitor 20 (R513, R514). -/
def curMonitor (n : Nat) : Nat :=
  if n < 12 then 4 * (n / 3) + n % 3 else match n with | 12 => 16 | 13 => 17 | 14 => 20 | _ => 22

/-- Package power in 2^-20 mW: 1/16 A times 2^-8 by mV times 2^-8, and 3 W (R514). -/
def Prc.packagePower (p : Prc) : Nat :=
  ((upTo 16).map (fun n => Sparse.get 0 p.cur n * Sparse.get 0 p.volt (curMonitor n))).sum + 3000 * 2 ^ 20

/-- The thermal trip: THERMTRIP_N low, the trip in the log, every rail but VDD_PORCH off, TRIPPED (R517).
(DEDUCED, log 94) -/
def State.trip (s : State) (n : Nat) : State :=
  let t0 := (s.attest attTRIP none).devEvent 0x0B05 4 n
  let t1 := (t0.railsOff t0.prc.rails.reverse).loseHub
  let t2 := t1.each (upTo 256) (fun t c => t.wipeCore c)
  { t2 with clr := { t2.clr with sref := false, rate := 0 }, evt := { t2.evt with warm := none }
            sec := { t2.sec with boot := .stopped }
            prc := { t2.prc with thermtrip := true, tripped := true, raising := none, d3 := .none, quads := [(0, .off), (1, .off), (2, .off), (3, .off)] } }

/-- Diodes at 110 degrees or more, unfiltered. -/
def Prc.hotNow (p : Prc) : List Nat := (upTo 64).filter (fun n => 880 ≤ Sparse.get 0 p.rawT n)

/-- Monitors of rails held on whose filtered voltage is off by more than 5 % (R518). -/
def State.badNow (s : State) : List Nat :=
  (upTo 24).filter (fun m => match monitorRail m with
    | some k =>
      let v := Sparse.get 0 s.prc.volt m
      let w := s.setpoint k * 256
      s.prc.rails.contains k && Sparse.get 0 s.prc.onAt k + 5 * 10 ^ 6 ≤ s.prc.time && (20 * v < 19 * w || 21 * w < 20 * v)
    | none => false)

/-- Rail checks of a sample: RAIL_FAULT where a monitor is out of band in two consecutive samples (R518). -/
def State.railCheck (s : State) : State :=
  let bad := s.badNow
  let twice := bad.filter (s.prc.badV.contains ·)
  let t := { s with prc := { s.prc with badV := bad, railFault := s.prc.railFault.filter (bad.contains ·) } }
  t.each twice (fun u m => u.railFaultOn m)

/-! ### Peak credit and package step (R527 to R529) -/

/-- PCAP in 2^-20 mW. -/
def State.pcap (s : State) : Nat := s.rf .mtrCap 0 0 0 10 * 1000 * 2 ^ 20
/-- PPEAK in 2^-20 mW. -/
def State.ppeak (s : State) : Nat := s.rf .mtrCap 0 0 10 10 * 1000 * 2 ^ 20
/-- C_max: (PPEAK - PCAP) times 10 ms, in units of 2^-20 mW times 100 us. -/
def State.cmax (s : State) : Nat := (s.ppeak - s.pcap) * 100

/-- The credit is full at cold reset: C_max is known once the first image is applied (R527). -/
def State.fillCredit (s : State) : State :=
  if s.prc.fresh && s.ppeak ≠ 0 then { s with prc := { s.prc with fresh := false, credit := s.cmax, full := s.cmax ≠ 0 } } else s

/-- The credit's step and the limit that follows (R527). -/
def State.creditStep (s : State) : State :=
  let c := min s.cmax (s.prc.credit + s.pcap - s.prc.power)
  { s with prc := { s.prc with credit := c, full := if s.cmax = 0 then false else if c = s.cmax then true else if c = 0 then false else s.prc.full } }

/-- The limit L. -/
def State.limit (s : State) : Nat := if s.prc.full then s.ppeak else s.pcap

/-- The package step by the first test that holds (R528). -/
def State.packageStep (s : State) : State :=
  let p := s.prc.power
  let k := s.prc.kp
  let new := if s.ppeak < p then min 12 (k + 4) else if s.limit < p then min 12 (k + 1)
    else if p * 20 < s.limit * 19 then k - 1 else k
  { s with prc := { s.prc with kp := new, ovr := if k = 12 && s.limit < p then s.prc.ovr + 1 else 0 } }

/-- PKHOLD is set after ten periods at step 12 above L, and clears below 0.95 L, held claims then being presented (R529). -/
def State.holdStep (s : State) : State :=
  if !s.prc.pkhold && 10 ≤ s.prc.ovr then ({ s with prc := { s.prc with pkhold := true } }).devEvent 0x0B07 0 0
  else if s.prc.pkhold && s.prc.power * 20 < s.limit * 19 then
    ({ s with prc := { s.prc with pkhold := false } }).present_ (fun _ => true)
  else s

/-- The Meter's part of a sample, while the hub is on and an image has given the caps. (DEDUCED, log 94) -/
def State.capStep (s : State) : State :=
  let t := s.fillCredit
  if t.ppeak = 0 || !t.hubOn then t else ((t.creditStep).packageStep).holdStep

/-- SENSOR_SAMPLE: one sample period (R513, R514, R517, R518, R527 to R529). -/
def execSensorSample (x : Readings) (s : State) : Host.Outcome State Fault Refusal :=
  if x.temp.length ≠ 64 || x.cur.length ≠ 16 || x.volt.length ≠ 24 then .fault .malformedOperand
  else if s.prc.porst || s.prc.tripped then .next s
  else
    let t0 := s.filterAll x
    let t1 := { t0 with prc := { t0.prc with power := t0.prc.packagePower } }
    let hot := t1.prc.hotNow
    match hot.find? (s.prc.hotT.contains ·) with
    | some n => .next (({ t1 with prc := { t1.prc with hotT := hot } }).trip n)
    | none => .next (({ t1 with prc := { t1.prc with hotT := hot } }).railCheck.capStep)

/-! ### Thermal steps and PROCHOT_N (R515, R516) -/

/-- Diodes of a die: 14 on each compute die, 8 on the hub. -/
def dieDiodes (d : Nat) : List Nat := if d < 4 then (upTo 14).map (14 * d + ·) else (upTo 8).map (56 + ·)

/-- T_die in 1/8 degree times 2^8. -/
def Prc.dieTemp (p : Prc) (d : Nat) : Int :=
  match (dieDiodes d).map (fun n => Sparse.get 0 p.temp n) with
  | [] => 0
  | t :: l => l.foldl max t

/-- A die's thermal step after a tick. -/
def State.thermalNext (s : State) (d : Nat) : Nat :=
  let k := Sparse.get 0 s.prc.kt d
  let th : Int := s.rf .prcPwrcfg 0 0 10 7 * 8 * 256
  if th ≤ s.prc.dieTemp d then min 12 (k + 1)
  else if s.prc.dieTemp d < th - 3 * 8 * 256 then k - 1 else k

/-- THERMAL_STEP_TICK: each ms every die's step; PROCHOT_N is driven while any is above 0, and THERM_THROTTLE raised as an
episode starts; what the board drives is seen again when the device lets go (R515, R516). -/
def execThermalStepTick (s : State) : Host.Outcome State Fault Refusal :=
  if s.prc.porst || s.prc.tripped then .next s
  else
    let kt := (upTo 5).foldl (fun m d => Sparse.put 0 m d (s.thermalNext d)) s.prc.kt
    let now : Bool := (upTo 5).any (fun d => Sparse.get 0 kt d ≠ 0)
    let t := { s with prc := { s.prc with kt := kt, throttling := now, exthot := if now then s.prc.exthot else s.prc.extProchot } }
    match (upTo 5).find? (fun d => Sparse.get 0 kt d ≠ 0) with
    | some d => .next (if s.prc.throttling then t else t.devEvent 0x0B04 0 d)
    | none => .next t

/-- PROCHOT_IN: the board holds PROCHOT_N low; the device samples it while it does not drive the pin (R516). -/
def execProchotIn (pclk : Nat) (s : State) : Host.Outcome State Fault Refusal :=
  if pclk < 4 then .next s
  else .next { s with prc := { s.prc with extProchot := true, exthot := s.prc.exthot || !s.prc.throttling } }

/-- PROCHOT_N_RELEASE: the board lets the pin go (R516). -/
def execProchotNRelease (s : State) : Host.Outcome State Fault Refusal :=
  .next { s with prc := { s.prc with extProchot := false, exthot := s.prc.exthot && s.prc.throttling } }

/-! ### Pins that follow the state (R515, R539) -/

/-- PROCHOT_N is driven low by the device: some die's thermal step is above 0 (R515). -/
def State.prochotLow (s : State) : Bool := s.prc.throttling

/-- ALERT_N is driven low: DFAULT, a counter of events, a boot stopped under R487, or a rail fault that persists (R539). -/
def State.alertLow (s : State) : Bool :=
  s.evt.dfault || s.rg .evtCntP ≠ 0 || s.rg .evtCntD ≠ 0 || (s.sec.boot = .stopped && s.sec.bootCode ≠ 0) || !s.prc.railFault.isEmpty

/-! ### Time (R520) -/

/-- A sync's rate correction within 200 ppm, in 2^-32 ns an edge. (DEDUCED, log 95) -/
def syncRate (dev : Int) : Int := 40 * max (-858993) (min 858993 dev)

/-- PTP_SYNC: a sync on the port that ETH_PTPSEL names corrects the rate, steps a forward error above 1 us and slews a backward
one; eight within 100 ns set LOCK. In D3 only the management port counts (R520). (DEDUCED, log 95) -/
def execPtpSync (x : Sync) (s : State) : Host.Outcome State Fault Refusal :=
  let p := s.prc
  if x.port.val ≠ s.rf .ethPtpsel 0 0 0 3 || (s.prc.d3 = .asleep && x.port.val ≠ 4) || p.porst then .next s
  else
    let good := if x.offset.natAbs ≤ 100 then min 8 (p.good + 1) else 0
    let lock : Bool := p.lock || good = 8
    .next { s with prc := { p with
      rate := syncRate x.rate
      time := if x.offset < -1000 then (p.time + x.offset.natAbs) % 2 ^ 64 else p.time
      slew := if 0 < x.offset then x.offset.toNat * 2 ^ 32 else 0
      good := good, lock := lock, hold := p.hold && !lock, offset := x.offset } }

/-- PTP_SYNC_LOSS: 3 sync intervals without a sync: LOCK clears, HOLD is set (R520). (DEDUCED, log 95) -/
def execPtpSyncLoss (s : State) : Host.Outcome State Fault Refusal :=
  .next { s with prc := { s.prc with lock := false, hold := s.prc.hold || s.prc.lock, good := 0 } }

end Sys2Proof.Machine
end

