-- ==== Sys2Proof/Machine/MeterOps.lean ====
section
/-! DEFINITION. The Meter's ledgers, calibration and budget windows (R521 to R526, R530, R534). -/
namespace Sys2Proof.Machine

/-! ### Charges (R521, R522) -/

/-- Coefficient of an activity class. -/
def State.coef (s : State) (j : Nat) : Nat := (s.rg .mtrCoef 0 j).toNat

/-- Classes that CALSCALE scales (R522). -/
def scaledClass (j : Nat) : Bool := j ≤ 5 || j = 11

/-- Uncalibrated charge of counts by class over the classes that satisfy a test, in 2^-16 pJ. -/
def State.rawCharge (s : State) (cnt : Nat → Nat) (sel : Nat → Bool) : Nat :=
  (((upTo 12).filter sel).map (fun j => cnt j * s.coef j)).sum

/-- A charge put on the core, partition and session ledgers that take it. -/
def State.charge (s : State) (core part session : Option Nat) (n : Nat) : State :=
  let m := s.mtr
  let t := { s with mtr := { m with
      cores := match core with | some c => Sparse.upd 0 m.cores c (· + n) | none => m.cores
      parts := match part with | some p => Sparse.upd 0 m.parts p (· + n) | none => m.parts
      allSec := m.allSec + n } }
  match session with
  | some k => if (t.sess k).st = .free then t else t.modSess k (fun x => { x with led := x.led + n })
  | none => t

/-- Mesh links taken between cores and die bridges. (DEDUCED, log 45) -/
def State.bridgeTraffic (s : State) (c : Nat) : Nat :=
  (((s.core c).act.filter (fun x => 12 ≤ x.1)).map (fun x => x.2 * Config.bridgeLinks (x.1 - 12))).sum

/-- Counts of a core in the period: what it did, and 100 us for each core of a quadrant that is ON (R522).
(DEDUCED, log 45) -/
def State.coreCount (s : State) (c j : Nat) : Nat :=
  Sparse.get 0 (s.core c).act j + (if j = 6 then s.bridgeTraffic c else 0) + (if j = 11 && s.quad (quadOf c) = .on && s.prc.d3 = .none then 100 else 0)

/-- A core's activity charged to its ledger, its partition's and its owner's. (DEDUCED, log 45) -/
def State.chargeCore (s : State) (c : Nat) : State :=
  let q := s.rawCharge (s.coreCount c) scaledClass
  let n := q * s.mtr.calscale / 65536 + s.rawCharge (s.coreCount c) (fun j => !scaledClass j)
  let t := s.charge (some c) (s.partOf c) (s.core c).owner n
  ({ t with mtr := { t.mtr with qSec := t.mtr.qSec + q } }).modCore c (fun k => { k with act := [] })

/-- METER_CHARGE: the activity of 100 us is charged: cores; reduction-group traffic to its partition; Ethernet bytes to their
session and its partition (R521). (DEDUCED, log 45) -/
def execMeterCharge (s : State) : Host.Outcome State Fault Refusal :=
  if !s.hubOn then .next s
  else
    let t1 := s.each (upTo 256) (fun t c => t.chargeCore c)
    let t2 := t1.each t1.mtr.partAct (fun t x => t.charge none (some (x.1 / 16)) none (x.2 * t.coef (x.1 % 16)))
    let t3 := t2.each t2.mtr.sessAct (fun t x => t.charge none (some (t.sess x.1).part) (some x.1) (x.2 * t.coef 10))
    .next { t3 with mtr := { t3.mtr with partAct := [], sessAct := [] } }

/-- CALSCALE_UPDATE: each second, from the measured energies of the VDD_Q rails and of the package, in 2^-16 pJ (R521,
R523). -/
def execCalscaleUpdate (railsEnergy packageEnergy : Nat) (s : State) : Host.Outcome State Fault Refusal :=
  if !s.hubOn then .next s
  else
    let m := s.mtr
    let cal := if m.qSec = 0 then m.calscale else max 0x8000 (min 0x20000 (railsEnergy * 65536 / m.qSec))
    .next { s with mtr := { m with calscale := cal, qSec := 0, allSec := 0, dev := m.dev + (packageEnergy - m.allSec) } }

/-! ### Budget windows (R524, R526) -/

/-- A window boundary of a partition's budget: the spend falls by the budget and held claims are presented (R526). -/
def State.partBoundary (s : State) (p : Nat) : State :=
  if (s.partRec p).isNone || s.partBudget p = 0 then s
  else
    ({ s with mtr := { s.mtr with spend := Sparse.put 0 s.mtr.spend p (s.partSpend p - s.partBudget p) } }).present_
      (fun c => s.partOf c = some p)

/-- A window boundary of a session's budget. -/
def State.sessBoundary (s : State) (n : Nat) : State :=
  let x := s.sess n
  if x.st = .free || x.budget = 0 then s
  else (s.modSess n (fun x => { x with spend := x.spend - x.budget })).present_ (fun c => (s.core c).owner = some n)

/-- BUDGET_WINDOW_BOUNDARY: of partition or session `i` (R526). -/
def execBudgetWindowBoundary (session : Bool) (i : Nat) (s : State) : Host.Outcome State Fault Refusal :=
  .next (if session then s.sessBoundary i else s.partBoundary i)

/-- A session's window begins anew with a spend of 0, and its held claims are presented (R524, R526). (DEDUCED, log 44) -/
def State.restartWindow (s : State) (n : Nat) : State :=
  (s.modSess n (fun x => { x with t0 := s.prc.time, spend := 0 })).present_ (fun c => (s.core c).owner = some n)

/-- A write of MTR_SBUD_LO, with the _HI last written, or of MTR_SWIN, where a reserved code drops it (R12, R13, R534). A FREE
context takes nothing. -/
def State.setSessBudget (s : State) (r : Req) (lo : Bool) (v : W32) : State :=
  let n := s.rf .mtrSsel 0 0 0 16
  if lo then
    let b := v.toNat + 2 ^ 32 * (Sparse.get 0 s.latchWr (regAddr .mtrSbud 0 0 0)).toNat
    if (s.sess n).st = .free then s else (s.modSess n (fun x => { x with sbud := BitVec.ofNat 64 b })).restartWindow n
  else if reservedIn RegName.mtrSwin.row.fs v.toNat then s.access r (regAddr .mtrSwin 0 0 0)
  else if (s.sess n).st = .free then s
  else (s.modSess n (fun x => { x with swin := v &&& 0x7FFF })).restartWindow n

/-- SESSION_BUDGET_WRITE. -/
def execSessionBudgetWrite (r : Req) (lo : Bool) (v : W32) (s : State) : Host.Outcome State Fault Refusal :=
  .next (s.atReg r (if lo then .mtrSbud else .mtrSwin) 0 0 (fun s => s.setSessBudget r lo v))

end Sys2Proof.Machine
end

