-- ==== Sys2Proof/Machine/Dma.lean ====
section
/-! DEFINITION. DMA channels: descriptors, rows of COPY, FILL, ZENC and ZDEC, remote rows, completion and chaining, halts, and
the staging fetch (R277 to R284, R292, R303 to R307, R356, R422). -/
namespace Sys2Proof.Machine

/-! ### The descriptor (R277) -/

/-- `n` bits at bit `l` of the field group at byte `o` of a descriptor. -/
def ddf (d : BitVec 512) (o l n : Nat) : Nat := bits d.toNat (8 * o + l) n

def ddSrc (d : BitVec 512) : Nat := ddf d 0 0 48
def ddSdev (d : BitVec 512) : Nat := ddf d 0 48 12
def ddSrem (d : BitVec 512) : Bool := ddf d 0 60 1 = 1
def ddDst (d : BitVec 512) : Nat := ddf d 8 0 48
def ddDdev (d : BitVec 512) : Nat := ddf d 8 48 12
def ddDrem (d : BitVec 512) : Bool := ddf d 8 60 1 = 1
def ddX (d : BitVec 512) : Nat := ddf d 16 0 32
def ddY (d : BitVec 512) : Nat := ddf d 20 0 32
def ddZ (d : BitVec 512) : Nat := ddf d 24 0 32
def ddOp (d : BitVec 512) : Nat := ddf d 44 0 3
def ddFmt (d : BitVec 512) : Nat := ddf d 44 3 5
def ddS24 (d : BitVec 512) : Bool := ddf d 44 8 1 = 1
def ddHint (d : BitVec 512) : Hint := hintOf (ddf d 44 9 2)
def ddSetfull (d : BitVec 512) : Bool := ddf d 44 11 1 = 1
def ddRelease (d : BitVec 512) : Bool := ddf d 44 12 1 = 1
def ddChain (d : BitVec 512) : Bool := ddf d 44 13 1 = 1
def ddDslot (d : BitVec 512) : Option Nat := if ddf d 44 21 1 = 1 then some (ddf d 44 15 6) else none
def ddSslot (d : BitVec 512) : Option Nat := if ddf d 44 28 1 = 1 then some (ddf d 44 22 6) else none
def ddKlen (d : BitVec 512) : Nat := ddf d 48 0 32
def ddBound (d : BitVec 512) : Nat := ddf d 52 0 32
def ddNext (d : BitVec 512) : Nat := ddf d 56 0 48
def ddZp (d : BitVec 512) : Nat := ddf d 62 0 8

/-- Rows of a descriptor. -/
def ddRows (d : BitVec 512) : Nat := ddY d * ddZ d

/-- The stored form ZENC and ZDEC work on, as an operand side. -/
def ddSide (d : BitVec 512) : Side :=
  { weight := false, fmt := ddFmt d, sc := 0, zr := true, expc := 0, zp := ddZp d, ten := 0, pad := 0, s24 := ddS24 d }

/-- A channel refuses the descriptor at address `a` (R280). -/
def ddBad (d : BitVec 512) (a : Nat) : Bool :=
  let z := ddOp d = 1 || ddOp d = 2
  a % 64 ≠ 0 || 3 < ddOp d || !fmtOk (ddFmt d) || ddf d 44 9 2 = 3 || ddf d 44 14 1 ≠ 0 || ddf d 44 29 3 ≠ 0 ||
  ddf d 0 61 3 ≠ 0 || ddf d 8 61 3 ≠ 0 || ddf d 63 0 8 ≠ 0 || ddX d = 0 || 16777216 < ddX d || ddY d = 0 || ddZ d = 0 ||
  (ddSrem d && ddDrem d) ||
  (z && (ddFmt d = 0 || isCb (ddFmt d) || ddX d ≠ ceilDiv (ddKlen d * fmtBits (ddFmt d)) 8 || ddZ d ≠ 1)) ||
  (ddChain d && ddNext d % 64 ≠ 0)

/-- An address moved by signed strides. -/
def ddAt (base : Nat) (y z : Nat) (ys zs : Nat) : Nat :=
  (((base : Int) + z * sext 32 zs + y * sext 32 ys) % 2 ^ 48).toNat
/-- First source byte of row `r`, counted over planes (R278). -/
def ddRowSrc (d : BitVec 512) (r : Nat) : Nat := ddAt (ddSrc d) (r % ddY d) (r / ddY d) (ddf d 28 0 32) (ddf d 32 0 32)
/-- First destination byte of row `r`. -/
def ddRowDst (d : BitVec 512) (r : Nat) : Nat := ddAt (ddDst d) (r % ddY d) (r / ddY d) (ddf d 36 0 32) (ddf d 40 0 32)

/-! ### Starting (R277, R280, R305) -/

/-- The channel refuses its descriptor: HALTED with DESC and DMA_DESC (R280). -/
def State.chanDesc (s : State) (c ch a : Nat) : State :=
  (s.chanHalt c ch eDESC).coreEvent c 0x0406 2 (pack [(48, a), (4, ch)])

/-- The channel reads the descriptor at its address. -/
def State.loadDesc (s : State) (c ch : Nat) : State :=
  let a := (s.chan c ch).daddr
  if a % 64 ≠ 0 then s.chanDesc c ch a
  else match s.readMem (coreReq c) .normal a 64 with
    | (.ok bs, t) =>
      let d := BitVec.ofNat 512 (ofLe bs)
      if ddBad d a then t.chanDesc c ch a
      else t.modChan c ch (fun x => { x with desc := d, loaded := true, st := .run })
    | (g, t) => t.chanNo c ch g

/-- Requests of a channel are no longer waited for: a late response is dropped (R423). (DEDUCED, log 52) -/
def State.dropReqs (s : State) (c ch : Nat) : State :=
  { s with tch := { s.tch with reqs := s.tch.reqs.filter (fun q => q.for_ ≠ .dma c ch) } }

/-- A chain starts at a descriptor address. -/
def State.startChain (s : State) (c ch a : Nat) : State :=
  ((s.dropReqs c ch).modChan c ch (fun x => { st := .run, daddr := a, go := x.go + 1 })).loadDesc c ch

/-- DMA_CHn_DESC. -/
def State.dmaDescReg (s : State) (c ch : Nat) : Nat := s.rg64 .dmaDesc c ch % 2 ^ 48

/-- DMA_GO: the chain at DMA_CHn_DESC starts; on a channel that is not IDLE or HALTED it is dropped with an access event
(R305). (DEDUCED, log 52) -/
def State.dmaGo (s : State) (r : Req) (c ch : Nat) : State :=
  if s.chanFree c ch then s.startChain c ch (s.dmaDescReg c ch) else s.access r (regAddr .dmaCtrl c ch 0)

/-- HALT: the channel halts after the row in flight, at once where no row of its descriptor is left (R292, R305). -/
def State.dmaHalt (s : State) (c ch : Nat) : State :=
  let x := s.chan c ch
  if s.chanFree c ch then s
  else if x.use_ = .chain && x.loaded && x.rows = ddRows x.desc then s.chanHalt c ch eHALTCMD
  else s.modChan c ch (fun x => { x with halt := true })

/-- DMA_GO. -/
def execDmaGo (r : Req) (c : CoreId) (ch : ChanId) (s : State) : Host.Outcome State Fault Refusal :=
  .next (s.atReg r .dmaCtrl c.val ch.val (·.dmaGo r c.val ch.val))

/-- DMA_HALT. -/
def execDmaHalt (r : Req) (c : CoreId) (ch : ChanId) (s : State) : Host.Outcome State Fault Refusal :=
  .next (s.atReg r .dmaCtrl c.val ch.val (·.dmaHalt c.val ch.val))

/-! ### Rows (R278 to R283) -/

/-- A row is over: it counts, and a HALT takes effect (R292). -/
def State.rowEnd (s : State) (c ch : Nat) : State :=
  let x := s.chan c ch
  let t := s.modChan c ch (fun x => { x with st := .run, rows := x.rows + 1, sent := false })
  if x.halt then t.chanHalt c ch eHALTCMD else t

/-- A row's writes are made; those to another device are waited for before the row counts (R283, R284). -/
def State.rowDone (s : State) (c ch : Nat) : State :=
  if ddDrem (s.chan c ch).desc && 0 < (s.chan c ch).acks then s.modChan c ch (fun x => { x with st := .run, sent := true })
  else s.rowEnd c ch

/-- The channel writes bytes; a refused write halts it, a stalled one makes it wait (R275, R283). -/
def State.dmaPut (s : State) (c ch a : Nat) (h : Hint) (bs : List Byte) : Bool × State :=
  match s.writeMem (coreReq c) h a bs with
  | (.ok, t) => (true, t)
  | (.refused x, t) => (false, t.chanFault c ch x)
  | (.stall d n, t) => (false, (t.modChan c ch (fun x => { x with st := .wait })).stallOn c
      { who := .dma ch, slot := n, wr := true, off := 0, len := bs.length, data := [], at_ := if d = c then none else some d })

/-- Packets of a remote range: at most 4,096 bytes, none crossing a 4,096-byte boundary of the remote address (R422):
(offset, length). -/
def remotePieces (a n : Nat) : List (Nat × Nat) :=
  if n = 0 then []
  else (upTo ((a + n - 1) / 4096 - a / 4096 + 1)).map (fun i =>
    let lo := max a ((a / 4096 + i) * 4096)
    let hi := min (a + n) ((a / 4096 + i + 1) * 4096)
    (lo - a, hi - lo))

/-- A request refused at its source: TCH_NOROUTE, then DMA_FAULT and ACCESS (R283, R422). -/
def State.noRoute (s : State) (c ch dst a : Nat) : State := (s.coreEvent c 0x0803 2 dst).chanFault c ch a

/-- WRITEs of bytes to the remote destination (R284, R422). (DEDUCED, log 122) -/
def State.remotePut (s : State) (c ch a : Nat) (bs : List Byte) : Bool × State :=
  let d := ddDdev (s.chan c ch).desc
  if !s.mayOriginate (some c) d then (false, s.noRoute c ch d a)
  else (true, (remotePieces a bs.length).foldl (fun u p =>
    let b := (bs.drop p.1).take p.2
    (u.modChan c ch (fun x => { x with acks := x.acks + 1 })).request
      { typ := tWrite, dst := d, src := 0, len := b.length, addr := a + p.1, payload := b } (.dma c ch) 0) s)

/-- READs of a range of the remote source; the data of a piece goes to `dest` of its offset (R284, R422).
(DEDUCED, log 122) -/
def State.remoteGet (s : State) (c ch a n : Nat) (dest : Nat → Nat) : State :=
  let d := ddSdev (s.chan c ch).desc
  if !s.mayOriginate (some c) d then s.noRoute c ch d a
  else (remotePieces a n).foldl (fun u p =>
    (u.modChan c ch (fun x => { x with acks := x.acks + 1 })).request
      { typ := tRead, dst := d, src := 0, len := p.2, addr := a + p.1 } (.dma c ch) (dest p.1)) s

/-- Bytes written at the descriptor's destination, on this device or another (R277). (DEDUCED, log 122) -/
def State.rowPut (s : State) (c ch a : Nat) (bs : List Byte) : Bool × State :=
  let d := (s.chan c ch).desc
  if ddDrem d then s.remotePut c ch a bs else s.dmaPut c ch a (ddHint d) bs

/-- A list of writes made in turn until one does not go through. -/
def State.dmaPuts (s : State) (c ch : Nat) (h : Hint) : List (Nat × List Byte) → Bool × State
  | [] => (true, s)
  | (a, bs) :: rest =>
    if bs.isEmpty then s.dmaPuts c ch h rest
    else match s.dmaPut c ch a h bs with
      | (true, t) => t.dmaPuts c ch h rest
      | x => x

/-- The same at the descriptor's destination. -/
def State.rowPuts (s : State) (c ch : Nat) : List (Nat × List Byte) → Bool × State
  | [] => (true, s)
  | (a, bs) :: rest =>
    if bs.isEmpty then s.rowPuts c ch rest
    else match s.rowPut c ch a bs with
      | (true, t) => t.rowPuts c ch rest
      | x => x

/-- A row of FILL. -/
def fillRow (d : BitVec 512) : List Byte := (upTo (ddX d)).map (fun x => BitVec.ofNat 8 (ddKlen d / 256 ^ (x % 4)))

/-- A remote row: WRITEs of the row's data, or READs whose data comes back by RDATA (R278, R284, R422). -/
def State.remoteRow (s : State) (c ch : Nat) (row : List Byte) : State :=
  let d := (s.chan c ch).desc
  let r := (s.chan c ch).rows
  if ddDrem d then
    match s.remotePut c ch (ddRowDst d r) row with
    | (true, t) => t.rowDone c ch
    | (false, t) => t
  else s.remoteGet c ch (ddRowSrc d r) (ddX d) (ddRowDst d r + ·)

/-- Nothing of a row is gathered any more. -/
def Chan.ungathered (x : Chan) : Chan := { x with rbuf := [], roff := [], rgot := 0 }

/-- A row of ZENC: encoded and written with its ROWOFF entry, or the channel halts with ZSPACE (R186, R279, R281). -/
def State.zencRow (s : State) (c ch : Nat) (row : List Byte) : State :=
  let x := s.chan c ch
  let d := x.desc
  let sd := ddSide d
  let bl := blockBytes sd.fmt sd.s24
  let zs := if sd.s24 then zrlPut 0 ((chunksOf bl (ceilDiv row.length bl) row).map (fun b => (sd.zeroEnts (sd.blockEnts b), b)))
    else zrlRow sd.fmt sd.zp (codesAt row sd.fmt 0 (ddKlen d))
  let hd := 4 * (ddY d + 1)
  let space (t : State) : State := (t.chanHalt c ch eZSPACE).coreEvent c 0x0202 2 x.rows
  if ddBound d < hd then space s
  else
    let first := if x.rows = 0 then [(ddDst d, toLe 4 0)] else []
    match s.rowPuts c ch first with
    | (false, t) => t
    | (true, t) =>
      if ddBound d < hd + x.zoff + zs.length then space t
      else match t.rowPuts c ch [(ddDst d + hd + x.zoff, zs), (ddDst d + 4 * (x.rows + 1), toLe 4 (x.zoff + zs.length))] with
        | (true, u) => (u.modChan c ch (fun y => { y.ungathered with zoff := y.zoff + zs.length })).rowDone c ch
        | (false, u) => u

/-- A row's decoded blocks, a stored one that is a zero block among the zero blocks (R180, R183, R279). -/
def Side.zeroed (x : Side) (bl : List (Option (List Byte))) : List (Option (List Byte)) :=
  bl.map (fun b => b.filter (fun y => !x.zeroEnts (x.blockEnts y)))

/-- The bytes of a decoded stored block; a zero block as canonical zero codes (R180, R279). -/
def Side.denseBlock (x : Side) (b : Option (List Byte)) : List Byte :=
  match b with
  | some b => b
  | none => packCodes x.fmt (List.replicate 16 (zeroCode x.fmt x.zp)) ++ (if x.s24 then zeros 4 else [])

/-- A row's place in the ZRL tensor at the source. -/
def zdecTensor (d : BitVec 512) (r : Nat) : ZTensor := { base := ddSrc d, rows := ddY d, first := r, lo := 0, hi := ddKlen d }
/-- Address and length of a row's stream from its ROWOFF entries. -/
def zdecSeg (d : BitVec 512) (r : Nat) (off : List Byte) : Nat × Nat :=
  (zdecTensor d r).seg (blockBytes (ddFmt d) (ddS24 d)) (ddSide d).blockK off

/-- A row of ZDEC from its ROWOFF entries and its stream: decoded and written dense; a malformed row is finished and the
channel halts with ZFORMAT (R279, R282). -/
def State.zdecPut (s : State) (c ch : Nat) (off bs : List Byte) : State :=
  let x := s.chan c ch
  let d := x.desc
  let sd := ddSide d
  let y := zrlBlocks (blockBytes sd.fmt sd.s24) (ceilDiv (ddKlen d) sd.blockK) bs
  let bad := y.2 || leAt off 4 4 < leAt off 0 4
  let bl := sd.zeroed y.1
  let out := if sd.s24 then bl.flatMap sd.denseBlock
    else packCodes sd.fmt (((sd.zrlEnts bl).take (ddKlen d)).map entCode)
  match s.rowPut c ch (ddRowDst d x.rows) out with
  | (true, t) =>
    let u := t.modChan c ch (·.ungathered)
    if bad then ((u.modChan c ch (fun q => { q with rows := q.rows + 1 })).chanHalt c ch eZFORMAT).coreEvent c 0x0201 2 x.rows
    else u.rowDone c ch
  | (false, t) => t

/-- A row of ZDEC whose tensor lies on this device. -/
def State.zdecRow (s : State) (c ch : Nat) : State :=
  let x := s.chan c ch
  let d := x.desc
  match s.readMem (coreReq c) (ddHint d) (ddSrc d + 4 * x.rows) 8 with
  | (.ok off, t) =>
    let sg := zdecSeg d x.rows off
    match (if sg.2 = 0 then (.ok [], t) else t.readMem (coreReq c) (ddHint d) sg.1 sg.2) with
    | (.ok bs, u) => u.zdecPut c ch off bs
    | (g, u) => u.chanNo c ch g
  | (g, t) => t.chanNo c ch g

/-- Bytes of a source row. -/
def ddRowLen (d : BitVec 512) : Nat := if ddOp d = 1 && ddS24 d then (ddSide d).rowLen (ddKlen d) else ddX d

/-- A row of ZENC or ZDEC whose source lies on another device: what it needs is asked for and gathered first (R277).
(DEDUCED, log 122) -/
def State.gatherRow (s : State) (c ch : Nat) : State :=
  let x := s.chan c ch
  let d := x.desc
  let get (u : State) (n a len : Nat) : State :=
    (u.modChan c ch (fun y => { y with st := .run, rgot := n, rbuf := [] })).remoteGet c ch a len id
  if ddOp d = 1 then
    (if x.rgot = 2 then s.zencRow c ch x.rbuf else get s 2 (ddRowSrc d x.rows) (ddRowLen d))
  else match x.rgot with
    | 0 => get s 1 (ddSrc d + 4 * x.rows) 8
    | 1 =>
      let sg := zdecSeg d x.rows x.rbuf
      if sg.2 = 0 then s.zdecPut c ch x.rbuf []
      else get (s.modChan c ch (fun y => { y with roff := y.rbuf })) 2 sg.1 sg.2
    | _ => s.zdecPut c ch x.roff x.rbuf

/-- The channel's next row (R278 to R283). (DEDUCED, log 51) -/
def State.dmaRow (s : State) (c ch : Nat) : State :=
  let x := s.chan c ch
  let d := x.desc
  if ddOp d = 3 then
    (if ddDrem d then s.remoteRow c ch (fillRow d)
     else match s.dmaPut c ch (ddRowDst d x.rows) (ddHint d) (fillRow d) with
      | (true, t) => t.rowDone c ch
      | (false, t) => t)
  else if ddSrem d then (if ddOp d = 0 then s.remoteRow c ch [] else s.gatherRow c ch)
  else if ddOp d = 2 then s.zdecRow c ch
  else
    match s.readMem (coreReq c) (ddHint d) (ddRowSrc d x.rows) (ddRowLen d) with
    | (.ok bs, t) =>
      if ddOp d = 1 then t.zencRow c ch bs
      else if ddDrem d then t.remoteRow c ch bs
      else match t.dmaPut c ch (ddRowDst d x.rows) (ddHint d) bs with
        | (true, u) => u.rowDone c ch
        | (false, u) => u
    | (g, t) => t.chanNo c ch g

/-- A channel serves a descriptor chain and has a row to do: running, or waiting without a stall any more. -/
def State.rowDue (s : State) (c ch : Nat) : Bool :=
  let x := s.chan c ch
  x.use_ = .chain && (x.st = .run || x.st = .wait) && !s.stalled c (.dma ch) && (!x.loaded || x.rows < ddRows x.desc) &&
    !(ddSrem x.desc && 0 < x.acks) && !x.sent

/-- An SRAM error met by a row: an uncorrectable one of the scratchpad or the Pantry halts the channel with ACCESS, one of the
Pantry's tags is class P for the partition that owns the slice group (R535). -/
def State.sramRow (s : State) (c ch : Nat) : SramErr → Bool × State
  | .none => (true, s)
  | .ce st off => (true, s.sramCe c st.val off)
  | .ue st off =>
    if st.val = 9 then
      let p := match (s.groupAt (ddRowSrc (s.chan c ch).desc (s.chan c ch).rows)) with
        | some g => some (bits (s.rg .pntGrp 0 g).toNat 10 6)
        | none => s.partOf c
      (false, match p with
        | some p => s.pEvent p { code := 0x0003, cls := 3, detail := pack [(8, 9), (24, off), (32, 1)] }
        | none => s)
    else
      let d := (s.chan c ch).desc
      (false, (s.sramUe c st.val off 2).chanFault c ch (ddRowSrc d (s.chan c ch).rows))

/-- DRAM errors met by a row: in the lines that its source reads from the Cellar (R405 to R407). -/
def State.dramRow (s : State) (c ch : Nat) (de : LineErrs) : State :=
  let d := (s.chan c ch).desc
  if ddSrem d || ddOp d = 3 then s
  else s.readErrs (cellarLines (ddRowSrc d (s.chan c ch).rows) (max 1 (ddX d))) de

/-! ### Completion (R284) -/

/-- DMA_DESCRIPTOR_COMPLETE: every row is done and acknowledged; SETFULL and RELEASE take effect, and the chain goes on (R284,
R292). (DESIGN CHOICE, log 9) -/
def execDmaDescriptorComplete (c : CoreId) (ch : ChanId) (s : State) : Host.Outcome State Fault Refusal :=
  let c := c.val
  let ch := ch.val
  let x := s.chan c ch
  let d := x.desc
  if s.coreOpen c && x.use_ = .chain && x.st = .run && x.loaded && x.rows = ddRows d && x.acks = 0 then
    let s1 := match ddDslot d with
      | some n => if ddSetfull d then s.slotFull c n else s
      | none => s
    let s2 := match ddSslot d with
      | some n => if ddRelease d then s1.slotRelease c n cDma else s1
      | none => s1
    if ddChain d then
      .next ((s2.modChan c ch (fun x => { x with rows := 0, zoff := 0, daddr := ddNext d, loaded := false })).loadDesc c ch)
    else .next (s2.modChan c ch (fun x => { x with st := .idle }))
  else .next s

/-! ### The staging fetch (R356) -/

/-- The Cellar lines that a refill reads: those of the scale bytes and selects first, then of the chunk's rows, or of a ZRL
tensor's row offsets. -/
def State.refillLines (s : State) (c h : Nat) (w : Bool) : List Nat :=
  let g := s.geo c h
  let x := if w then g.d.sideW else g.d.sideA
  let b := (s.tile c h).bind w
  let r := g.chunkRange b b.chunks.length
  ((if b.scaled then [] else g.scaleSegs x) ++
    (if x.zr then (g.zTensors x).map (fun z => (z.base, 4 * (z.rows + 1))) else g.denseSegs x r.1 r.2)).flatMap
    (fun y => cellarLines y.1 y.2)

/-- STAGING_HALF_REFILL: the channel fetches the tile's scale bytes and its next chunk; a channel that the attempt's fetch has
waited for takes it up once it is free (R356). (DEDUCED, log 50) -/
def execStagingHalfRefill (c : CoreId) (h : Handle) (weight : Bool) (de : LineErrs) (s : State) : Host.Outcome State Fault Refusal :=
  let c := c.val
  let h := h.val
  let b := (s.tile c h).bind weight
  let x := s.chan c b.ch
  let g := s.geo c h
  if s.coreOpen c && b.bound && b.fetch && !b.failed && ((x.use_ = .fetch h weight && (x.st = .run || x.st = .wait)) || s.chanFree c b.ch) &&
      !s.stalled c (.dma b.ch) && (!b.scaled || b.chunks.length < g.chunkCount b) then
    let t0 := if s.chanFree c b.ch then s.fetchStart c b.ch h weight else s
    let t := (t0.readErrs (t0.refillLines c h weight) de).refill c h weight
    if x.halt && (t.chan c b.ch).st ≠ .idle then .next ((t.chanHalt c b.ch eHALTCMD).fetchFailed c h weight) else .next t
  else .next s

end Sys2Proof.Machine
end

