-- ==== Sys2Proof/Machine/LayerCheck.lean ====
section
/-! DEFINITION. What LAYER checks in a descriptor before it presents it (R346, R358, with R47, R70, R98, R116, R135, R140, R152,
R163, R166, R179, R181, R195, R199, R206, R208, R226, R227, R247, R312 to R314, R318, R320). -/
namespace Sys2Proof.Machine

/-! ### Reserved bits and codes (R358) -/

/-- Reserved bit ranges of the descriptor, by byte of their field group: (byte, low bit, width). (DEDUCED, log 56) -/
def descReserved : List (Nat × Nat × Nat) :=
  [(4, 30, 2), (20, 24, 8), (24, 24, 8), (28, 8, 8), (28, 24, 8), (32, 30, 2), (52, 24, 8), (80, 31, 1), (84, 26, 6),
   (100, 24, 8), (136, 18, 14), (140, 18, 14), (144, 14, 18), (240, 16, 16)]

/-- The rung words in use (R152). -/
def Desc.rungs (d : Desc) : List Nat := (upTo (d.nrung + 1)).map d.rung

/-- A rung word holds a reserved code or bit (R98, R152). -/
def rungBad (w : Nat) : Bool :=
  rungMs w = 0 || rungMs w = 31 || rungPb w < 2 || rungScout w = 3 || w.testBit 15

/-- A pad field holds its reserved code (R320). -/
def padBad (p : Nat) : Bool := bits p 0 2 = 3
/-- A pad is other than zero (R320). -/
def padNonzero (p : Nat) : Bool := bits p 0 2 = 2 || (bits p 0 2 = 1 && bits p 2 15 ≠ 0)

/-- Some rung in use scouts. -/
def Desc.scouts (d : Desc) : Bool := d.rungs.any (fun w => rungScout w ≠ 0)

/-- A reserved bit is set or a field holds a reserved code (R38, R47, R54, R63, R67, R135, R152, R179, R181, R226, R312, R313,
R320, R358). -/
def Desc.codesBad (d : Desc) : Bool :=
  descReserved.any (fun x => d.at_ x.1 x.2.1 x.2.2 ≠ 0) ||
  !fmtOk d.fmtA || !fmtOk d.fmtW || !fmtOk d.fmtO || isCb d.fmtO || !fmtOk d.auxfmt || isCb d.auxfmt ||
  d.gsizeCode = 3 || d.ogsizeCode = 3 || 1 < d.rnd || d.rot = 3 || d.rotn = 3 || d.sp24 = 3 ||
  bits d.gauge 0 4 = 13 || bits d.gauge 0 4 = 14 || (d.imatch && d.capr = 0) ||
  !orderOk d.lordb || !orderOk d.lordt || !orderOk d.lords || padBad d.padA || padBad d.padW ||
  d.rungs.any rungBad ||
  (d.scouts && bits d.sct 23 8 = 255) ||
  [(d.zrla, d.fmtA), (d.zrlw, d.fmtW), (d.zrlo, d.fmtO)].any (fun x => x.1 && (x.2 = 0 || isCb x.2))

/-! ### Rules that refuse a descriptor, whatever the resolved lengths -/

/-- The regime a rung names is allowed: the default, a wider one, or a narrower one permitted (R97). (DEDUCED, log 64) -/
def State.regimeOk (s : State) (c defreg r : Nat) : Bool :=
  r ≤ defreg || (r = staged && (s.rg .arrShape c).toNat.testBit 2) || (r = half16 && (s.rg .arrShape c).toNat.testBit 3)

/-- A rung's widths do not suit its regime (R98). (DEDUCED, log 64) -/
def Desc.regimeBad (d : Desc) (r w : Nat) : Bool :=
  ((r = staged || r = half16) && 4 < rungPb w) ||
  (r = half16 && (!singleExp d.serial.fmt (rungMs w) d.serial.sc || !singleExp d.parallel.fmt (rungMp w) d.parallel.sc))

/-- The largest K that the buckets allow (R166). -/
def Desc.kMax (d : Desc) : Nat :=
  if d.bdim = 3 then ((upTo (d.nbkt + 1)).map d.bkt).foldl max 0 else d.kdim
/-- A HALF16 rung can saturate at the largest K (R100). -/
def Desc.half16Sat (d : Desc) (w : Nat) : Bool := 32767 < d.kMax * (2 ^ rungMs w - 1) * (2 ^ rungMp w - 1)

/-- A rung that R98, R140, R152, R166, R195, R199 or R208 refuses. -/
def State.rungRefused (s : State) (c defreg : Nat) (exact_ : Bool) (d : Desc) (w : Nat) : Bool :=
  let r := regimeOf d defreg w
  let p := (s.rg .gauPerm c).toNat
  let sp := rungScout w
  let split := 15 < rungMs w || 15 < rungMp w
  (!d.imatch && (!s.regimeOk c defreg r || d.regimeBad r w)) ||
  (rungPrune w && (exact_ || !p.testBit 0)) || (sp = 2 && (exact_ || !p.testBit 1)) ||
  (exact_ && r = half16 && d.half16Sat w) ||
  (d.sp24 ≠ 0 && ((r = wide48 && 8 < rungPb w) || split)) ||
  (d.imatch && (!singleExp d.serial.fmt (rungMs w) d.serial.sc || !singleExp d.parallel.fmt (rungMp w) d.parallel.sc || split || rungPrune w || sp ≠ 0)) ||
  (sp ≠ 0 && (rungMs w ≤ d.scb + 1 || 15 < rungMs w || d.imatch))

/-- GRATE, GS, GMODE, GQ and UL in force: the descriptor's, or the core's defaults under GDEF (R135, R173). -/
def State.gaugeIn (s : State) (c : Nat) (d : Desc) : Nat :=
  if d.gdef then (s.rg .gauDefault c).toNat % 2 ^ 17 else d.gauge + 2 ^ 13 * d.ul

/-- The layer runs in Exact mode (R165). -/
def State.exactIn (s : State) (c : Nat) (d : Desc) : Bool := d.exact_ || (s.rg .gauPerm c).toNat.testBit 2

/-- The layer as a whole is refused (R163, R166, R181, R195, R199, R226, R227, R320, R358). -/
def State.layerRefused (s : State) (c : Nat) (exact_ : Bool) (d : Desc) : Bool :=
  (exact_ && ((s.gaugeIn c d).testBit 8 || d.seedsrc ≠ 0)) ||
  (d.dsmode = 2 && !hasBlock d.scO) ||
  (d.sp24 = 1 && padNonzero (if d.sside then d.padW else d.padA)) ||
  (d.imatch && (hasBlock d.scA || hasBlock d.scW || hasBlock d.scO || d.zrla || d.zrlw || d.zrlo || d.sp24 ≠ 0 || d.auxen)) ||
  (d.rot ≠ 0 && (d.nt % d.rotN ≠ 0 || isPair d.fmtO)) ||
  (d.aseg ≠ 0 && (d.aseg % 128 ≠ 0 || !d.zrla))

/-! ### Rules over the resolved lengths (R70, R116, R206, R314) -/

/-- Columns of a shape in a regime (R82). (DEDUCED, log 64) -/
def shapeCols (shape r : Nat) : Nat :=
  let w := if shape = 1 then 128 else if shape = 2 then 512 else 256
  if r = wide48 then w else 2 * w

/-- M_t and N_t break R116 in a regime; under SSIDE the columns hold rows of A (R78). -/
def Desc.tileBad (d : Desc) (shape r : Nat) : Bool :=
  (if r = half16 then 131072 else 32768) < d.mt * d.nt || shapeCols shape r < (if d.sside && !d.imatch then d.mt else d.nt)

/-- First byte and bytes of the merge area (R206). -/
def Desc.mergeArea (d : Desc) (alen : Nat) : Nat × Nat :=
  (d.auxb, d.tb * d.mB alen * (d.ksplit + 1) * (16 + 16 * d.capr))

/-- The merge area does not lie in one region of the partition, or the region is locked (R206). -/
def State.mergeAreaBad (s : State) (c : Nat) (d : Desc) (alen : Nat) : Bool :=
  d.imatch && 0 < d.ksplit &&
  (match s.regionOf (d.mergeArea alen).1 (d.mergeArea alen).2 with
   | none => true
   | some r => r.hub || some r.part ≠ s.partOf c || s.locked r)

/-- The descriptor is refused for its resolved lengths. -/
def State.lengthsBad (s : State) (c defreg : Nat) (d : Desc) (alen : Nat) : Bool :=
  let p := d.space alen
  let shape := s.rf .arrShape c 0 0 2
  (d.rot ≠ 0 && d.nA alen % d.rotN ≠ 0) ||
  d.slices alen < d.tk || 65536 < p.tm || 65536 < p.tn || 2 ^ 32 - 1 < p.size ||
  d.rungs.any (fun w => d.tileBad shape (regimeOf d defreg w)) || s.mergeAreaBad c d alen

/-! ### LAYER's checks in order (R346) -/

/-- The default regime a LAYER resolves rungs with: the armed layer's when it joins, else the partition's (R97, R396). -/
def State.layerReg (s : State) (c : Nat) (d : Desc) : Nat :=
  if (s.disp d.disp).joins d.lseq then (s.disp d.disp).defreg else s.defRegime (s.partOf c)

/-- The first cause for which a LAYER of descriptor `d`, length operand `n` and program image `p` is refused (R346). -/
def State.layerCause (s : State) (c : Nat) (d : Desc) (n : Nat) (p : Prog) : Option Nat :=
  let reg := s.layerReg c d
  let ex := s.exactIn c d
  if d.codesBad || d.rungs.any (s.rungRefused c reg ex d) || s.layerRefused c ex d || p.oty then some rDESC
  else if (s.partOf c).isNone || s.dispPart d.disp ≠ s.partOf c then some rDISP
  else if d.bucketBad n then some rBUCKET
  else if s.lengthsBad c reg d n then some rDESC
  else if p.bad then some rPROG
  else none

/-- The context a LAYER presents. -/
def State.layerCtx (s : State) (c : Nat) (d : Desc) (n : Nat) : Ctx :=
  { desc := d, alen := n, bkt := if d.bdim = 0 then 0 else ((d.bucket n).map (·.1)).getD 0
    gdef := s.gaugeIn c d, exact_ := s.exactIn c d }

end Sys2Proof.Machine
end

