-- ==== Sys2Proof/Machine/Sieve.lean ====
section
/-! DEFINITION. The Sieve's commands: the index-match path, the merge tree, the hub merge, and the end of a scout pass (R198 to
R206, R209 to R213). -/
namespace Sys2Proof.Machine

/-! ### IDX operands (R198, R359) -/

/-- The three arrays of an IDX operand: addresses of ROWPTR, IDX and VAL; the tensor's rows. -/
structure Idx where
  rowptr : Nat
  idx : Nat
  val : Nat
  rows : Nat
  deriving DecidableEq, Repr

/-- The header a side's slot starts with; none where the read stalls. -/
def State.idxOf (s : State) (c h : Nat) (w : Bool) (rows : Nat) : Option Idx × State :=
  let b := (s.tile c h).bind w
  match s.tileRead c h w (s.slotOff c b.dslot) 24 b.asStored with
  | (some bs, t) =>
    (some { rowptr := leAt bs 0 8 % 2 ^ 48, idx := leAt bs 8 8 % 2 ^ 48, val := leAt bs 16 8 % 2 ^ 48, rows := rows }, t)
  | (none, t) => (none, t)

/-- Bytes an index-match read of a side takes: zeros, with POISON, where it is refused; where a slot stalls, the stall is kept and
the row is matched again (R274, R275, R578). (DEDUCED, log 48) -/
def State.imRead (s : State) (c h : Nat) (w : Bool) (a n : Nat) : List Byte × State :=
  match s.engRead c a n cTile ((s.tile c h).bind w).asStored with
  | (.ok bs, t) => (bs, t)
  | (.stall d k, t) => (zeros n, t.stallOn c (engStall c d (.tile h w) k n))
  | (_, t) => (zeros n, t.flagTile c h [fPOISON])

/-- A dropped index or a bad row: IOOB, POISON, SVE_IOOB, SVE_LASTERR and IDX_OOB (R201, R222, R542). -/
def State.idxOob (s : State) (c h index row : Nat) : State :=
  ((((s.flagTile c h [fIOOB, fPOISON]).count .sveIoob c 0 1).sveErr c 2 (CRec.tile (s.tile c h).rec_)).tileEvent
    c h 0x0203 2 (pack [(32, index), (32, row)]))

/-- An entry of an IDX row: its index, its value, and whether it is NaN (R49, R59, R75). -/
structure IdxEnt where
  ix : Nat
  v : Int
  nan : Bool
  deriving DecidableEq, Repr

/-- An entry decoded at element width `m` through table `sel`: NaN too under an invalid tensor scale or a select with a reserved bit
(R46, R59, R75). -/
def State.idxEnt (s : State) (c : Nat) (x : Side) (m ix code sel : Nat) : IdxEnt :=
  let v := elemVal x.fmt x.zp (s.cbOf c x.fmt sel) code
  { ix := ix, v := elemAt m (efmtOf x.fmt m [v]) v
    nan := v.exceptional || (hasTensor x.sc && (tensorScale x.ten).isNone) || (isCb x.fmt && selBad x.fmt sel) }

/-- Row `r` of an IDX operand of side `x` at element width `m`; `sel` gives the table select of an index. `o` is the output row the
work belongs to. A ROWPTR that decreases or passes the array's end drops the row (R201). -/
def State.idxRow (s : State) (c h : Nat) (x : Side) (m : Nat) (q : Idx) (r o : Nat) (sel : Nat → Nat) : List IdxEnt × State :=
  let (a, s1) := s.imRead c h x.weight (q.rowptr + 4 * r) 8
  let (e, s2) := s1.imRead c h x.weight (q.rowptr + 4 * q.rows) 4
  let lo := leAt a 0 4
  let hi := leAt a 4 4
  if hi < lo ∨ leAt e 0 4 < hi then ([], s2.idxOob c h hi o)
  else
    let n := hi - lo
    let (ix, s3) := s2.imRead c h x.weight (q.idx + 4 * lo) (4 * n)
    let w := fmtBits x.fmt
    let b0 := lo * w / 8
    let (vs, s4) := s3.imRead c h x.weight (q.val + b0) (ceilDiv ((lo + n) * w) 8 - b0)
    ((upTo n).map (fun i =>
      let k := leAt ix (4 * i) 4
      s4.idxEnt c x m k (bits (leAt vs ((lo + i) * w / 8 - b0) (w / 8 + 2)) ((lo + i) * w % 8) w) (sel k)), s4)

/-- The table select of element `k` of row `r` of the activation as its SSLOT holds it (R46). -/
def Geo.imSelA (g : Geo) (b : Binding) (r k : Nat) : Nat := b.selAt g.allGroups r (k / g.d.g)
/-- The table select of element `n` of row `k` of the index-match weight (R46, R55, R198). -/
def Geo.imSelW (g : Geo) (b : Binding) (k n : Nat) : Nat := b.selAt (ceilDiv (g.d.nA g.alen) g.d.g) (k - g.k0) (n / g.d.g)

/-! ### The index-match table (R200) -/

/-- A record put at its place in an ascending list. -/
def insertRec (y : Nat × Int) : List (Nat × Int) → List (Nat × Int)
  | [] => [y]
  | z :: l => if y.1 < z.1 then y :: z :: l else z :: insertRec y l

/-- The table's entries as a run of a row, in ascending column order; the table is empty after it. -/
def State.emitRun (s : State) (c h row : Nat) : State :=
  let l := (s.core c).imTable.foldl (fun l y => insertRec y l) []
  (s.modTile c h (fun t => { t with runs := t.runs ++ [{ row := row, recs := l }] })).modCore c (fun k => { k with imTable := [] })

/-- A product added at its column, spilling a full table first; a NaN marks its output instead and sets NAN and POISON (R49, R75,
R200). (DEDUCED, log 48; DESIGN CHOICE, log 131) -/
def State.imAdd (s : State) (c h row col : Nat) (p : Int) (nan : Bool) : State :=
  let tb := (s.core c).imTable
  let v := if nan then 0 else p
  let t := if tb.any (·.1 = col) then
      s.modCore c (fun k => { k with imTable := k.imTable.map (fun y => if y.1 = col then (y.1, y.2 + v) else y) })
    else
      let t := if tb.length = 256 then (s.count .sveSpill c 0 1).emitRun c h row else s
      t.modCore c (fun k => { k with imTable := k.imTable ++ [(col, v)] })
  if nan && !(s.tile c h).imNan.contains (row, col) then
    (t.modTile c h (fun y => { y with imNan := y.imNan ++ [(row, col)] })).flagTile c h [fNAN, fPOISON]
  else t

/-- One A entry against W row `k`: a column outside the tensor is dropped, one outside the tile belongs to another. -/
def State.imEntry (s : State) (c h : Nat) (g : Geo) (qw : Idx) (row : Nat) (e : IdxEnt) : State :=
  let kA := g.d.kA g.alen
  if kA ≤ e.ix then s.idxOob c h e.ix row
  else if e.ix < g.k0 || g.k1 ≤ e.ix then s
  else
    let (ws, t) := s.idxRow c h g.d.sideW (g.sideBits true) qw ((if g.d.batw then g.b * kA else 0) + e.ix) row
      (g.imSelW (s.tile c h).bindW e.ix)
    ws.foldl (fun u y =>
      if g.d.nA g.alen ≤ y.ix then u.idxOob c h y.ix row
      else if y.ix < g.col0 || g.col0 + g.colsA ≤ y.ix then u
      else u.imAdd c h row y.ix (e.v * y.v) (e.nan || y.nan)) t

/-- All rows have ended and no run waits for the merge tree: accumulation has ended. -/
def State.imFinish (s : State) (c h : Nat) (g : Geo) : State :=
  let t := s.tile c h
  if t.row = g.rowsA && t.runs.isEmpty && !t.ended then s.accEnd c h else s

/-- The tile's last row has ended: it leaves the Sieve. -/
def State.imLeave (s : State) (c h : Nat) (g : Geo) : State :=
  if (s.tile c h).row = g.rowsA then (s.modTile c h (fun t => { t with streamed := true })).arrLeave c else s

/-- The stalled access of a tile's loader. -/
def Core.loadStall (k : Core) (h : Nat) : Option Stall :=
  k.stalls.find? (fun x => match x.who with | .tile i _ => i = h | _ => false)

/-- A row of the tile matched to its end. -/
def State.imRow (s : State) (c h : Nat) (g : Geo) (qa qw : Idx) (row : Nat) : State :=
  let (as, t) := s.idxRow c h g.d.sideA (g.sideBits false) qa ((g.sideBase false).1 + row) row (g.imSelA (s.tile c h).bindA row)
  ((as.foldl (fun u e => u.imEntry c h g qw row e) t).emitRun c h row).modTile c h (fun t => { t with row := row + 1 })

/-- IMATCH_ROW_END: the next row of the tile in the Sieve is matched to its end and its remaining entries are emitted as its
last run (R200, R201). A row one of whose reads stalls is matched once the slot lets it (R275). -/
def execImatchRowEnd (c : CoreId) (h : Handle) (s : State) : Host.Outcome State Fault Refusal :=
  let c := c.val
  let h := h.val
  let t := s.tile c h
  let g := s.geo c h
  if s.coreOpen c && t.opened && s.isImatch c h && (s.core c).arr.cur = some h && t.row < g.rowsA &&
      ((s.core c).loadStall h).isNone then
    match s.idxOf c h false (g.sideBase false).2 with
    | (none, u) => .next u
    | (some qa, u) =>
      match u.idxOf c h true ((if g.d.batw then g.d.tb else 1) * g.d.kA g.alen) with
      | (none, v) => .next v
      | (some qw, v) =>
        match v.slotScales c h g.d.sideA g with
        | (false, w) => .next w
        | (true, w) =>
          match w.slotScales c h g.d.sideW g with
          | (false, w1) => .next w1
          | (true, w1) =>
            let u1 := w1.imRow c h g qa qw t.row
            (match (u1.core c).loadStall h with
              | some x => .next (w1.stallOn c x)
              | none => .next (u1.imLeave c h g))
  else .next s

/-! ### The merge tree (R202, R203) -/

/-- Two ascending record lists merged, equal columns added; `fuel` bounds the records. -/
def merge2 : Nat → List (Nat × Int) → List (Nat × Int) → List (Nat × Int)
  | 0, _, _ => []
  | _, [], b => b
  | _, a, [] => a
  | f + 1, x :: a, y :: b =>
    if x.1 < y.1 then x :: merge2 f a (y :: b)
    else if y.1 < x.1 then y :: merge2 f (x :: a) b
    else (x.1, x.2 + y.2) :: merge2 f a b

/-- Runs merged into one: equal columns added exactly, zero sums dropped but for the columns that `keep` names (R203). -/
def mergeKeep (keep : Nat → Bool) (l : List (List (Nat × Int))) : List (Nat × Int) :=
  (l.foldl (fun a b => merge2 (a.length + b.length) a b) []).filter (fun y => y.2 ≠ 0 || keep y.1)
/-- Up to 8 runs merged into one: equal columns added exactly, zero sums dropped (R203). -/
def mergeRuns (l : List (List (Nat × Int))) : List (Nat × Int) := mergeKeep (fun _ => false) l

/-- A run as bytes: header and records (R202). -/
def runBytes (ptag regime : Nat) (ex : Bool) (part : Nat) (e : Int) (r : Run) : List Byte :=
  toLe 16 (pack [(32, r.recs.length), (32, r.row), (6, ptag), (2, regime), (1, b2n ex), (6, part), (1, 0), (16, ofInt 16 e)]) ++
    r.recs.flatMap (fun y => toLe 16 (pack [(32, y.1), (32, r.row), (64, ofInt 64 y.2)]))

/-- The records of a run's bytes after its header (R202). -/
def runRecs (n : Nat) (bs : List Byte) : List (Nat × Int) :=
  (upTo n).map (fun i => (leAt bs (16 * i) 4, sext 64 (leAt bs (16 * i + 8) 8)))

/-- Output row of the bucket that a row of the tile is (R206). -/
def Geo.bucketRow (g : Geo) (r : Nat) : Nat := g.b * g.d.mB g.alen + g.tm * g.d.mt + r

/-- A final run of more than CAPR records keeps its lowest columns: POISON, SVE_LASTERR and IDX_CAP (R204, R206). -/
def State.capRun (s : State) (c h : Nat) (g : Geo) (r : Run) : Run × State :=
  if r.recs.length ≤ g.d.capr then (r, s)
  else
    ({ r with recs := r.recs.take g.d.capr },
     ((s.flagTile c h [fPOISON]).sveErr c 3 (CRec.tile (s.tile c h).rec_)).tileEvent c h 0x0204 2
       (pack [(32, r.row), (32, r.recs.length)]))

/-- A row's final run: capped, kept for the output path, or written into the part's merge slot (R204 to R206). -/
def State.finalRun (s : State) (c h : Nat) (g : Geo) (r : Run) : State :=
  let (q, t) := s.capRun c h g r
  if g.d.ksplit = 0 then t.modTile c h (fun t => { t with finals := t.finals ++ [q] })
  else
    let i := g.bucketRow r.row
    let at_ := g.d.auxb + (i * (g.d.ksplit + 1) + g.tk) * (16 + 16 * g.d.capr)
    let u := (t.engWrite c at_ (runBytes (ptagOf (t.tileRung c h)) 0 (t.tileCtx c h).exact_ g.tk ((Desc.imExp g.d).getD 0)
      { q with row := i }) pOut).2
    u.modTile c h (fun t => { t with finals := t.finals ++ [q] })

/-- The tile and row whose runs the merge tree takes next: an ended row that has runs. -/
def Core.mergeNext (k : Core) : Option (Nat × Nat) :=
  (k.busyHandles.filterMap (fun h =>
    ((k.tile h).runs.find? (fun r => r.row < (k.tile h).row)).map (fun r => (h, r.row)))).head?

/-- A row's pass through the merge tree. -/
def State.mergePass (s : State) (c h row : Nat) : State :=
  let t := s.tile c h
  let g := s.geo c h
  let mine := t.runs.filter (·.row = row)
  let out : Run := { row := row, recs := mergeKeep (fun n => t.imNan.contains (row, n)) ((mine.take 8).map (·.recs)) }
  let rest := mine.drop 8
  let others := t.runs.filter (·.row ≠ row)
  if rest.isEmpty then
    ((s.modTile c h (fun t => { t with runs := others })).finalRun c h g out).imFinish c h g
  else s.modTile c h (fun t => { t with runs := others ++ rest ++ [out] })

/-- PREC_MISMATCH of a merge: own and received tags (R123, R542). -/
def State.mergeMismatch (s : State) (c op or_ rp rr : Nat) : State :=
  s.coreEvent c 0x0102 2 (pack [(6, op), (2, or_), (6, rp), (2, rr)])

/-- The ranges a MERGE reads: its LIST, and each run's header and records (R349, R202). (DEDUCED, log 69) -/
def State.mergeRanges (s : State) (c : Nat) (w : BitVec 128) : List (Nat × Nat) :=
  let n := fld w 24 22 + 1
  let lo := fld w 21 8 * 32
  (lo, 2 * n) :: (upTo n).map (fun i =>
    let a := s.spadLe c (lo + 2 * i) 2 * 32
    (a, 16 + 16 * s.spadLe c a 4))

/-- The bytes a MERGE writes and the tags of the runs it refuses under R123: the runs its LIST names, merged by R203; `rd`
reads scratchpad bytes. -/
def mergeOf (rd : Nat → Nat → List Byte) (w : BitVec 128) : List Byte × List (Nat × Nat) :=
  let n := fld w 24 22 + 1
  let lst := rd (fld w 21 8 * 32) (2 * n)
  let runs := (upTo n).map (fun i =>
    let a := leAt lst (2 * i) 2 * 32
    let hd := rd a 16
    (hd, runRecs (leAt hd 0 4) (rd (a + 16) (16 * leAt hd 0 4))))
  let h0 := (runs.headD ([], [])).1
  let same (hd : List Byte) : Bool := leAt hd 8 1 = leAt h0 8 1 && leAt hd 10 2 = leAt h0 10 2
  let out := mergeRuns ((runs.filter (fun r => same r.1)).map (·.2))
  (toLe 4 out.length ++ (padTo 16 h0).drop 4 ++
    (runBytes 0 0 false 0 0 { row := leAt h0 4 4, recs := out }).drop 16,
   (runs.filter (fun r => !same r.1)).map (fun r => (leAt h0 8 1, leAt r.1 8 1)))

/-- The output of a MERGE would pass DLEN (R349). -/
def State.mergeLong (s : State) (c : Nat) (w : BitVec 128) : Bool :=
  fld w 52 39 * 32 < (mergeOf (fun o n => s.spad c o n) w).1.length

/-- MERGE's engine work: the merged run written at DST (R203, R349); true once it is done. -/
def State.mergeJob (s : State) (c : Nat) (j : Job) : Bool × State :=
  let (ok, t) := s.jobTouch c .merge j.asStored cTile (s.mergeRanges c j.cmd)
  if !ok then (false, t)
  else
    let (bs, bad) := mergeOf (fun o n => s.asClass c cTile o n) j.cmd
    let u := bad.foldl (fun u r => u.mergeMismatch c (bits r.1 0 6) (bits r.1 6 2) (bits r.2 0 6) (bits r.2 6 2)) t
    (true, if fld j.cmd 52 39 * 32 < bs.length then u else u.jobWrite c .merge (fld j.cmd 38 25 * 32) bs)

/-- MERGE_TREE_DONE: a merge of up to 8 runs ends: a row of a tile, or with `cmd` the MERGE command at the tree (R203). -/
def execMergeTreeDone (c : CoreId) (cmd : Bool) (s : State) : Host.Outcome State Fault Refusal :=
  let c := c.val
  if !s.coreOpen c then .next s
  else if cmd then
    match s.runningJob c .merge with
    | some j =>
      if s.stalled c (.eng .merge) then .next s
      else
        let r := s.mergeJob c j
        .next (if r.1 then r.2.endJob c .merge else r.2)
    | none => .next s
  else match (s.core c).mergeNext with
    | some (h, row) => .next (s.mergePass c h row)
    | none => .next s

/-! ### The hub merge (R205, R206) -/

/-- The geometry of an output row of a dispenser's layer, as a tile of one row that spans N. -/
def Disp.rowGeo (x : Disp) (i : Nat) : Geo :=
  let d := x.desc
  let mB := max 1 (Desc.mB d x.alen)
  let m := i % mB
  let tm := m / Desc.mt d
  { d := d, alen := x.alen, b := i / mB, tm := tm, tn := 0, tk := 0, idx := x.space.index (i / mB) tm 0 0, sside := false
    rows := 1, cols := Desc.nA d x.alen, rowsA := 1, colsA := Desc.nA d x.alen, row0 := m, col0 := 0, k0 := 0
    k1 := Desc.kA d x.alen, s0 := 0, ms := 15, mp := 15, regime := wide48, shape := 0, prune := false }

/-- A merge slot's header and records: zeros where the hub cannot read it (R206). -/
def State.mergeSlot (s : State) (d : Desc) (i p : Nat) : (List Byte × List (Nat × Int)) × State :=
  let at_ := d.auxb + (i * (d.ksplit + 1) + p) * (16 + 16 * d.capr)
  let (g, t) := s.readMem .hub .normal at_ 16
  let hd := g.bytes 16
  let n := min (leAt hd 0 4) d.capr
  if n = 0 then ((hd, []), t)
  else
    let (y, u) := t.readMem .hub .normal (at_ + 16) (16 * n)
    ((hd, runRecs n (y.bytes (16 * n))), u)

/-- The slots of a row, one of each part. -/
def State.mergeSlots (s : State) (d : Desc) (i : Nat) : List (List Byte × List (Nat × Int)) × State :=
  (upTo (d.ksplit + 1)).foldl (fun st p =>
    let (q, t) := st.2.mergeSlot d i p
    (st.1 ++ [q], t)) ([], s)

/-- Two run headers agree in PTAG, REGIME and E (R123, R203). -/
def sameHeader (a b : List Byte) : Bool := leAt a 8 1 = leAt b 8 1 && leAt a 10 2 = leAt b 10 2

/-- What the converter makes of a merged row's results (R204, R205). -/
def Disp.hubConv (x : Disp) (i : Nat) (recs : List (Nat × Int)) (res : List (W32 × W32)) : RowOut :=
  let g := x.rowGeo i
  let d : Desc := x.desc
  let p : Conv := { fmt := d.fmtO, zp := d.zpO, block := false, ten := if hasTensor d.scO then some d.dscale else none
                    stoch := d.rnd = 1, seed := x.lseed.toNat, tile := g.idx, rot := d.rot, rotN := d.rotN, rseed := d.rseed }
  p.capped 0 (recs.map (fun y => g.row0 % Desc.mt d * Desc.nt d + y.1)) res

/-- The merged run of a row through the output path of its core: summary, element program, converter, capped form (R204 to
R206, R223, R233). (DEDUCED, log 51) -/
def State.hubRowOut (s : State) (x : Disp) (c i : Nat) (recs : List (Nat × Int)) : RowOut × List (W32 × Bool) × State :=
  let g := x.rowGeo i
  let d : Desc := x.desc
  let row := g.b * Desc.mA d x.alen + g.row0
  let e0 := recs.map (fun y => imE0 d y.2)
  let es : List Elt := (recs.zip e0).map (fun y => { row := 0, col := y.1.1, e0 := y.2.1, sovf := y.2.2, active := true })
  let (res, v) := runChunk (s.core c) g [] ((upTo es.length).zip es)
  let s1 := ((s.modCore c (fun k => { k with vec := v })).count64 .vecObusy c (ceilDiv es.length 256)).act c 3
    (Prog.ceff (s.core c).vec.store0 * es.length)
  let s2 := if Desc.sumen d then
      let r := es.foldl (fun a y => a.take false (sext 8 (Desc.xrow d)) y.col y.e0) ({} : RakeRec)
      let (fr, t) := s1.draw
      (t.engWrite c (Desc.sumb d + (g.idx * Desc.mt d + g.row0 % Desc.mt d) * 48) (r.bytes 7 (sext 8 (Desc.xrow d)) [] fr) pOut).2.rakeCount c r
    else s1
  let o := x.hubConv i recs res
  let vb := ceilDiv (d.capr * fmtBits d.fmtO) 8
  let t1 := (s2.engWrite c (d.obase + 4 * row) (toLe 4 recs.length) pDma).2
  let t2 := (t1.engWrite c (d.ixbase + 4 * row * d.capr) (recs.flatMap (fun y => toLe 4 y.1)) pDma).2
  (o, e0, (t2.engWrite c (d.ivbase + row * vb) (packCodes d.fmtO o.codes) pDma).2)

/-- The amax record of the row's tile: the largest over the tile's rows delivered so far (R164). (DEDUCED, log 51) -/
def State.hubAmaxPut (s : State) (x : Disp) (d c i : Nat) (a : FV) : State :=
  let n := (x.rowGeo i).idx
  if Desc.dsmode x.desc = 0 then s
  else
    let mine (y : HubAmax) : Bool := y.disp = d && y.lseq = x.lseq && y.tile = n
    let old : W32 := ((s.sdt.hubAmax.find? mine).map (·.amax)).getD 0
    let m := toF32 (maxMag (f32 old) (fp32.round a))
    let l := s.sdt.hubAmax.filter (fun y => !mine y) ++ [{ disp := d, lseq := x.lseq, tile := n, amax := m }]
    let t := { s with sdt := { s.sdt with hubAmax := l } }
    (t.engWrite c (Desc.amaxb x.desc + 4 * n) (toLe 4 m.toNat) pOut).2

/-- An event of a row the hub merge delivers to core `c` (R540). -/
def State.hubEvent (s : State) (x : Disp) (d c i code detail : Nat) : State :=
  s.log { code := code, cls := 2, part := s.partOf c, core := some c, tile := (x.rowGeo i).idx, epoch := x.epoch, disp := d,
          detail := detail }

/-- The TSW flags of a row the hub merge delivers: what the merge refused or cut off, and what the output path found (R121, R123,
R160, R161, R206). -/
def hubFlags (bad : Bool) (unf : Bool) (o : RowOut) (e0 : List (W32 × Bool)) : List Nat :=
  (if e0.any (·.2) then [fSOVF] else []) ++ (if o.sat then [fAMAXOVF] else []) ++ (if unf then [fAMAXUNF] else []) ++
    (if o.nan || e0.any (fun y => isNan y.1) then [fNAN] else []) ++ (if bad || o.nan || e0.any (fun y => isNan y.1) then [fPOISON] else [])

/-- A row's runs merged, those of another precision refused, cut to CAPR and passed through the output path; its flags make the word
its commit leaves in ARR_LASTTSW (R123, R203 to R206). (DEDUCED, log 51) -/
def State.hubDeliver (s : State) (x : Disp) (d c i : Nat) : State :=
  let (runs, s1) := s.mergeSlots x.desc i
  let h0 := (runs.headD ([], [])).1
  let off := runs.filter (fun r => !sameHeader r.1 h0)
  let all := mergeRuns ((runs.filter (fun r => sameHeader r.1 h0)).map (·.2))
  let cap := Desc.capr x.desc
  let s2 := off.foldl (fun t r =>
    t.hubEvent x d c i 0x0102 (pack [(6, bits (leAt h0 8 1) 0 6), (2, bits (leAt h0 8 1) 6 2), (6, bits (leAt r.1 8 1) 0 6),
      (2, bits (leAt r.1 8 1) 6 2)])) s1
  let s3 := if all.length ≤ cap then s2
    else (s2.sveErr c 3 (x.rowGeo i).idx).hubEvent x d c i 0x0204 (pack [(32, i), (32, all.length)])
  let (o, e0, s4) := s3.hubRowOut x c i (all.take cap)
  let ul := if Desc.gdef x.desc then s4.rf .gauDefault c 0 13 4 else Desc.ul x.desc
  let unf : Bool := Desc.dsmode x.desc ≠ 0 && ul ≠ 0 && o.nz < o.lost * 2 ^ ul
  let s5 := if Desc.dsmode x.desc = 3 && (o.sat || unf) then s4.hubEvent x d c i 0x0106 (toF32 (fp32.round o.amax)).toNat else s4
  (s5.hubAmaxPut x d c i o.amax).setRg .arrLasttsw c 0 0
    (tswOf (flagsOf (hubFlags (!off.isEmpty || cap < all.length) unf o e0)) 0 (bits (leAt h0 8 1) 0 6) 0 ((leAt h0 9 1).testBit 0))

/-- HUB_MERGE_DELIVER: a row whose parts are all accepted is merged and goes to the core that committed its last part, which
runs the output path on it and commits the row's output (R205, R206). -/
def execHubMergeDeliver (d : DispId) (row : Nat) (s : State) : Host.Outcome State Fault Refusal :=
  match s.sdt.hub.find? (fun r => r.disp = d.val && r.row = row && r.full) with
  | none => .next s
  | some r =>
    if !s.coreOpen r.core then .next s
    else
      let t := s.hubDeliver r.layer d.val r.core row
      .next { t with sdt := { t.sdt with hub := t.sdt.hub.erase r } }

/-! ### The end of a scout pass (R209 to R213) -/

/-- The bound B of an output in window units (R210). -/
def State.boundAt (s : State) (c h : Nat) (g : Geo) (r k : Nat) (y : Acc) : Int :=
  let t := s.tile c h
  let bs := t.bind g.d.serial.weight
  let bp := t.bind g.d.parallel.weight
  let f : Int := 2 ^ (g.ms - (Desc.scb g.d + 1)) - 1
  let sum := g.groups.foldl (fun (a : Dy) q =>
    let ds := s.decGroup c g g.d.serial bs g.ms r q
    let dp := s.decGroup c g g.d.parallel bp g.mp k q
    let m := dp.els.foldl (fun (n : Nat) z => n + z.2.1.natAbs) 0
    let e := max (-255) (min 255 (ds.e + dp.e))
    Dy.add a (f * m, e)) (0, 0)
  Dy.ceilAt (Dy.add sum (y.cnt, y.anchor - 32)) (y.anchor - 31)

/-- The activity test of R211: whether an output is inactive. -/
def inactive (d : Desc) (spec : Bool) (y : Acc) (b : Int) : Bool :=
  let t := Dy.floorAt (Desc.sctVal d) (y.anchor - 31)
  let v : Int := if Desc.sctype d then y.val.natAbs else y.val
  let k : Int := if spec then 2 ^ (Desc.scalpha d + 1) else 1
  let b' : Int := if spec && Desc.scalpha d = 3 then 0 else b
  !y.nan && !y.sat && (v * k + b' ≤ t * k)

/-- Mask bits as bytes, bit 0 first. -/
def maskBytes (l : List Bool) : List Byte :=
  toLe (ceilDiv l.length 8) (pack (l.map (fun b => (1, b2n b))))

/-- Steps 2 and 3 of R209: bounds, the activity test, the mask, and inactive outputs at value 0. (DEDUCED, log 42) -/
def State.scoutTest (s : State) (c h : Nat) (g : Geo) : State :=
  let t := s.tile c h
  let spec : Bool := s.tileScout c h = 2
  let acc := ((upTo t.acc.length).zip t.acc).map (fun z =>
    if g.within z.1 && inactive g.d spec z.2 (s.boundAt c h g (z.1 / g.cols) (z.1 % g.cols) z.2) then
      { z.2 with active := false, val := 0 }
    else z.2)
  let off := (acc.filter (fun y => !y.active)).length
  let bits_ := ((upTo acc.length).zip acc).map (fun z => g.within z.1 && z.2.active)
  let s1 := (s.engWrite c (g.d.scmask + g.idx * ceilDiv g.outs 8) (maskBytes bits_) pOut).2
  (s1.count .sveScin c 0 off).modTile c h (fun t => { t with acc := acc, pass2 := true, sst := .done, added := [] })

/-- The full pass of a scouted tile begins at the array; with no active output nothing is left to add (R209, R213). -/
def State.fullPass (s : State) (c h : Nat) : State :=
  if (s.geo c h).addsDue (s.tile c h) = 0 then s.accEnd c h else s

/-- SCOUT_PASS_DONE: every partial of the scout pass is in; the mask is written, a waiting SCOUT completes with the count of
active outputs, and after STEP the full pass follows (R209 to R213, R362). (DEDUCED, log 42) -/
def execScoutPassDone (c : CoreId) (h : Handle) (s : State) : Host.Outcome State Fault Refusal :=
  let c := c.val
  let h := h.val
  let t := s.tile c h
  let g := s.geo c h
  if s.coreOpen c && t.opened && t.sst = .running && g.addsDue t ≤ t.added.length then
    let s1 := s.scoutTest c h g
    if t.st = .claimed then .next ((s1.arrLeave c).scoutEnds c h) else .next ((s1.modArr c Arr.fresh).fullPass c h)
  else .next s

end Sys2Proof.Machine
end

