-- ==== Sys2Proof/Machine/TileCmds.lean ====
section
/-! DEFINITION. The sequencer's tile commands: SETPREC, CLAIM, LOADW, LOADA, PRELOAD, SCOUT, STEP, DRAIN, COMMIT, REDUCE, GAUGE, with
what opens, sends and stores a tile (R114, R124, R209, R346, R348, R355 to R357, R364, R428). -/
namespace Sys2Proof.Machine

/-! ### Causes of refusal -/

/-- The cause a tile command is refused for, after RESV and ADDR: STATE, then NOLAYER (R346). (DEDUCED, log 39) -/
def State.tileCause (s : State) (c : Nat) (suits : Bool) : Option Nat :=
  if !suits then some rSTATE else if (s.curCtx c).isNone then some rNOLAYER else none

/-- The first of a list of causes that holds. -/
def firstCause (l : List (Bool × Nat)) : Option Nat := (l.find? (·.1)).map (·.2)

/-- The command ends in its refusal, or does `f`. -/
def State.unless (s : State) (c op : Nat) (cause : Option Nat) (f : State → State) : State :=
  match cause with
  | some r => s.seqRefuse c op r
  | none => f s

/-- Handle operand of a tile command. -/
def wTh (w : BitVec 128) : Nat := fld w 10 8

/-- A handle that takes bindings: CLAIMED, STEP not issued (R355). -/
def State.takesBinding (s : State) (c h : Nat) : Bool := (s.tile c h).st = .claimed
/-- A part tile without CLOSE (R355). -/
def State.isPart (s : State) (c h : Nat) : Bool := 1 < Desc.tk (s.tileDesc c h) && !CRec.close (s.tile c h).rec_
/-- The rung a tile opens at, or has opened at. -/
def State.openRung (s : State) (c h : Nat) : Nat := if (s.tile c h).began then (s.tile c h).rung else s.startRung c h

/-! ### SETPREC (R124, R357) -/

/-- PTAG and REGIME of a rung of a tile's layer (R120, R123). -/
def State.tagsOf (s : State) (c h rung : Nat) : Nat × Nat :=
  let w := (s.tileDesc c h).rung rung
  (ptagOf w, regimeOf (s.tileDesc c h) (s.tileCtx c h).defreg w)

/-- The rung's PTAG or REGIME differs from the tile's. (DEDUCED, log 57) -/
def State.precDiffers (s : State) (c h rung : Nat) : Bool := s.tagsOf c h rung ≠ s.tagsOf c h (s.openRung c h)

/-- The refusal of SETPREC on an open tile: PREC_MISMATCH, then CMD_REFUSED (R124, R346). -/
def State.setprecPrec (s : State) (c h rung : Nat) : State :=
  let a := s.tagsOf c h (s.openRung c h)
  let b := s.tagsOf c h rung
  (s.tileEvent c h 0x0102 2 (pack [(6, a.1), (2, a.2), (6, b.1), (2, b.2)])).seqRefuse c 0x02 rPREC

/-- SETPREC's work on a fetched command. (DEDUCED, log 57) -/
def State.setprecCmd (s : State) (c : Nat) (w : BitVec 128) : State :=
  let h := wTh w
  let r := fld w 13 12
  if !onlyBits w [(8, 6)] then s.seqRefuse c 0x02 rRESV
  else if flag w 11 then
    s.unless c 0x02 (match s.curCtx c with
      | none => some rNOLAYER
      | some x => firstCause [(Desc.nrung x.desc < r, rSTATE), (x.exact_, rEXACT)])
      (fun s => (s.modCtx c ((s.curCtx c).getD {}).id (fun x => { x with nextRung := r })).seqGoOn c)
  else
    let t := s.tile c h
    if (t.began || t.st = .opened || t.st = .output) && s.precDiffers c h r then s.setprecPrec c h r
    else
      s.unless c 0x02 (match s.tileCause c (t.st = .claimed && r ≤ Desc.nrung (s.tileDesc c h)) with
        | some x => some x
        | none => if (s.tileCtx c h).exact_ then some rEXACT else none)
        (fun s => (s.modTile c h (fun t => { t with setRung := r })).seqGoOn c)

/-- SETPREC sets the starting rung of a handle, or of the context's later claims (R357). -/
def execSetprec (c : CoreId) (s : State) : Host.Outcome State Fault Refusal :=
  .next (s.seqRun c.val 0x02 (fun w => s.setprecCmd c.val w))

/-! ### CLAIM (R325, R355) -/

/-- CLAIM's work: the claim goes to the context's dispenser. (DEDUCED, log 96) -/
def State.claimCmd (s : State) (c : Nat) (w : BitVec 128) : State :=
  let h := wTh w
  if !onlyBits w [(8, 20)] then s.seqRefuse c 0x03 rRESV
  else
    s.unless c 0x03 (s.tileCause c ((s.tile c h).st = .free)) (fun s =>
      let d := Desc.disp ((s.curCtx c).getD {}).desc
      let (n, t) := s.arrive
      (t.modDisp d (fun x => { x with claims := x.claims ++ [{ core := c, h := h, arr := n }] })).seqWait c
        (.claim h (fld w 13 11) (fld w 27 14)))

/-- A core that is being quiesced issues no further claims (R548). (DEDUCED, log 96) -/
def Core.quiescing (k : Core) : Bool := match k.cst with | .quiescing _ _ => true | _ => false

/-- CLAIM asks the dispenser for a tile and waits for its record (R355); a QUIESCING core does not issue it (R548). -/
def execClaim (c : CoreId) (s : State) : Host.Outcome State Fault Refusal :=
  .next (if (s.core c.val).quiescing then s else s.seqRun c.val 0x03 (fun w => s.claimCmd c.val w))

/-! ### LOADW and LOADA (R356) -/

/-- The cause a LOADW or LOADA is refused for. (DEDUCED, log 48; DEDUCED, log 56) -/
def State.loadCause (s : State) (c : Nat) (w : BitVec 128) : Option Nat :=
  let h := wTh w
  let f : Bool := flag w 15
  if !onlyBits w (if f then [(8, 42)] else [(8, 20)]) then some rRESV
  else if (if f then 16384 < fld w 29 16 + fld w 43 30 else !s.declared c (fld w 21 16) || !s.declared c (fld w 27 22)) then some rADDR
  else s.tileCause c (s.takesBinding c h && !(f && s.isImatch c h))

/-- The operand is bound; with FETCH its channel starts (R356). -/
def State.bindOperand (s : State) (c : Nat) (weight : Bool) (w : BitVec 128) : State :=
  let h := wTh w
  let ch := fld w 14 11
  let b : Binding :=
    if flag w 15 then { bound := true, fetch := true, ch := ch, sbase := fld w 29 16, slen := fld w 43 30, kch := fld w 49 44 }
    else { bound := true, dslot := fld w 21 16, sslot := fld w 27 22 }
  let t := s.modBind c h weight (fun _ => b)
  if flag w 15 then t.fetchStart c ch h weight else t

/-- LOADW's or LOADA's work: it binds, or waits for its channel, and goes on when asked again once the channel is free.
(DESIGN CHOICE, log 55) -/
def State.loadCmd (s : State) (c op : Nat) (weight : Bool) : State :=
  if (s.core c).seq.wait = .channel then
    let w := s.fetchWord c
    if s.coreOpen c && fld w 7 0 = op && s.chanFree c (fld w 14 11) then (s.bindOperand c weight w).seqDone c else s
  else s.seqRun c op (fun w =>
    s.unless c op (s.loadCause c w) (fun s =>
      if flag w 15 && !s.chanFree c (fld w 14 11) then s.seqWait c .channel
      else (s.bindOperand c weight w).seqGoOn c))

/-- LOADW binds the tile's weight operand (R356). -/
def execLoadw (c : CoreId) (s : State) : Host.Outcome State Fault Refusal := .next (s.loadCmd c.val 0x04 true)
/-- LOADA binds the tile's activation operand (R356). -/
def execLoada (c : CoreId) (s : State) : Host.Outcome State Fault Refusal := .next (s.loadCmd c.val 0x05 false)

/-! ### PRELOAD (R113, R114) -/

/-- PRELOAD's work; one that comes after SCOUT has opened the tile comes late (R114, R346). (DEDUCED, log 56) -/
def State.preloadCmd (s : State) (c : Nat) (w : BitVec 128) : State :=
  let h := wTh w
  let f := fld w 16 12
  if !onlyBits w [(8, 15)] || !fmtOk f || isCb f then s.seqRefuse c 0x06 rRESV
  else
    s.unless c 0x06 (if !s.declared c (fld w 22 17) then some rADDR else s.tileCause c (s.takesBinding c h && !(s.tile c h).began))
      (fun s => (s.modTile c h (fun t => { t with pre := some (flag w 11, f, fld w 22 17) })).seqGoOn c)

/-- PRELOAD names what the tile's accumulators start from (R113, R114). -/
def execPreload (c : CoreId) (s : State) : Host.Outcome State Fault Refusal :=
  .next (s.seqRun c.val 0x06 (fun w => s.preloadCmd c.val w))

/-! ### SCOUT, STEP and the opening of a tile (R117, R209, R355) -/

/-- Both operands are bound. -/
def Tile.loaded (t : Tile) : Bool := t.bindA.bound && t.bindW.bound

/-- SCOUT's work: the command waits for the mask; it does not suit a tile that it has opened already. (DEDUCED, log 42) -/
def State.scoutCmd (s : State) (c : Nat) (w : BitVec 128) : State :=
  let h := wTh w
  if !onlyBits w [(8, 6)] then s.seqRefuse c 0x07 rRESV
  else
    s.unless c 0x07 (s.tileCause c (s.takesBinding c h && !(s.tile c h).began && (s.tile c h).loaded &&
        rungScout (Desc.rung (s.tileDesc c h) (s.startRung c h)) ≠ 0))
      (fun s => s.seqWait c (.scout h (fld w 13 11)))

/-- SCOUT runs the scout pass and the activity test of a tile ahead of STEP (R209). (DEDUCED, log 42) -/
def execScout (c : CoreId) (s : State) : Host.Outcome State Fault Refusal :=
  .next (s.seqRun c.val 0x07 (fun w => s.scoutCmd c.val w))

/-- A tile that SCOUT has opened goes on with STEP: the Gauge's work is due, and its full pass streams (R209, R355, R357). -/
def State.stepScouted (s : State) (c h : Nat) : State :=
  let t := (s.sampleDue c h).arrEnter c h false
  if (t.tile c h).pass2 then t.fullPass c h else t

/-- STEP's work: the handle is OPEN, and the tile's accumulators open once there is room; one that SCOUT has opened streams on. A
CLOSE tile streams as any other (R117, R355). (DEDUCED, log 39) -/
def State.stepCmd (s : State) (c : Nat) (w : BitVec 128) : State :=
  let h := wTh w
  let t := s.tile c h
  if !onlyBits w [(8, 3)] then s.seqRefuse c 0x08 rRESV
  else
    s.unless c 0x08 (s.tileCause c (s.takesBinding c h && t.loaded)) (fun s =>
      let u := s.modTile c h (fun t => { t with st := .opened })
      (if t.opened then u.stepScouted c h else u).seqGoOn c)

/-- STEP asks for the tile's accumulators to be opened and its steps to stream (R355). -/
def execStep (c : CoreId) (s : State) : Host.Outcome State Fault Refusal :=
  .next (s.seqRun c.val 0x08 (fun w => s.stepCmd c.val w))

/-- The tile waits to open: STEP or REDUCE SUM has issued, or its SCOUT waits; or a further attempt waits for room. -/
def State.wantsOpen (s : State) (c h : Nat) : Bool :=
  let t := s.tile c h
  if t.began then !t.opened && t.heldAt.isNone
  else t.st = .opened || t.st = .output ||
    (t.st = .claimed && (match (s.core c).seq.wait with | .scout k _ => k = h | _ => false))

/-- A tile's accumulators open; those of a CLOSE tile take its sum and its checks follow (R117, R169, R355). -/
def State.openTile (s : State) (c h : Nat) : State :=
  let t := s.tile c h
  (if t.began then s.openAttempt c h t.rung t.reran true else s.openAttempt c h (s.startRung c h) false false).attemptCheck c h

/-- TILE_OPEN: accumulation memory has room for the tile, and its accumulators open (R117, R355). -/
def execTileOpen (c : CoreId) (h : Handle) (s : State) : Host.Outcome State Fault Refusal :=
  let w := Desc.rung (s.tileDesc c.val h.val) (s.openRung c.val h.val)
  if s.coreOpen c.val && s.wantsOpen c.val h.val && s.hasRoom c.val h.val (s.geoAt c.val h.val w) then
    .next (s.openTile c.val h.val)
  else .next s

/-! ### DRAIN and REDUCE (R328, R355, R428) -/

/-- DRAIN's work. -/
def State.drainCmd (s : State) (c : Nat) (w : BitVec 128) : State :=
  let h := wTh w
  if !onlyBits w [(8, 9)] then s.seqRefuse c 0x09 rRESV
  else
    s.unless c 0x09 (if !s.declared c (fld w 16 11) then some rADDR
        else s.tileCause c ((s.tile c h).st = .opened && !s.isPart c h))
      (fun s => (s.modTile c h (fun t => { t with st := .output, oslot := some (fld w 16 11) })).seqGoOn c)

/-- DRAIN names the output slot the output path writes the tile into; the handle becomes OUTPUT (R355). -/
def execDrain (c : CoreId) (s : State) : Host.Outcome State Fault Refusal :=
  .next (s.seqRun c.val 0x09 (fun w => s.drainCmd c.val w))

/-- REDUCE's modes. -/
abbrev mPART : Nat := 0
abbrev mSUM : Nat := 1
abbrev mGROUP : Nat := 2

/-- REDUCE's cause of refusal after RESV. -/
def State.reduceCause (s : State) (c h mode : Nat) : Option Nat :=
  let t := s.tile c h
  s.tileCause c (if mode = mPART then t.st = .opened && s.isPart c h && t.partSent = 0
    else if mode = mSUM then t.st = .claimed && !t.began && CRec.close t.rec_
    else t.st = .opened && t.grp.isNone)

/-- A REDUCE of mode `mode` does `f` on its handle; one of another mode is left alone, the reserved one refused (R348).
(DESIGN CHOICE, log 40) -/
def State.reduceCmd (s : State) (c mode : Nat) (f : State → Nat → BitVec 128 → State) : State :=
  s.seqRun c 0x14 (fun w =>
    if !onlyBits w [(8, 13)] || fld w 12 11 = 3 then s.seqRefuse c 0x14 rRESV
    else if fld w 12 11 ≠ mode then s
    else s.unless c 0x14 (s.reduceCause c (wTh w) mode) (fun s => (f s (wTh w) w).seqGoOn c))

/-- REDUCE PART sends the part's accumulators into the partition tree, once its attempt has passed its checks (R169, R328, R355). -/
def execReducePart (c : CoreId) (s : State) : Host.Outcome State Fault Refusal :=
  .next (s.reduceCmd c.val mPART (fun s h _ =>
    ((s.modTile c.val h (fun t => { t with partSent := 1 })).modSeq c.val (fun q => { q with reds := q.reds + 1 })).sendPart c.val h))

/-- REDUCE SUM fills the CLOSE tile's accumulators with the tree's sum, once accumulation memory has room (R117, R328, R355). -/
def execReduceSum (c : CoreId) (s : State) : Host.Outcome State Fault Refusal :=
  .next (s.reduceCmd c.val mSUM (fun s h _ =>
    let t := s.modTile c.val h (fun t => { t with st := .opened, sumFrom := true })
    if t.hasRoom c.val h (t.geoAt c.val h (Desc.rung (t.tileDesc c.val h) (t.startRung c.val h))) then t.openTile c.val h else t))

/-- REDUCE GROUP enters the tile into a reduction group (R428). -/
def execReduceGroup (c : CoreId) (s : State) : Host.Outcome State Fault Refusal :=
  .next (s.reduceCmd c.val mGROUP (fun s h w => s.modTile c.val h (fun t => { t with grp := some (fld w 20 13) })))

/-- CONTRIBUTION_SEND: the attempt has passed its checks, and the tile's contribution goes to the hub (R428). -/
def execContributionSend (c : CoreId) (h : Handle) (s : State) : Host.Outcome State Fault Refusal :=
  let t := s.tile c.val h.val
  match t.grp with
  | some g => if s.coreOpen c.val && t.opened && t.checked && !t.contributed then .next (s.sendContribution c.val h.val g) else .next s
  | none => .next s

/-! ### COMMIT (R355, R364) -/

/-- COMMIT's work. (DESIGN CHOICE, log 55) -/
def State.commitCmd (s : State) (c : Nat) (w : BitVec 128) : State :=
  let h := wTh w
  let t := s.tile c h
  let sd := fld w 13 11
  if !onlyBits w [(8, 12)] then s.seqRefuse c 0x13 rRESV
  else if flag w 14 && t.st = .free && (s.curCtx c).isSome then (s.setScalar c sd 0).seqGoOn c
  else
    s.unless c 0x13 (s.tileCause c (t.st = .output || (t.st = .opened && t.partSent ≠ 0) || (flag w 14 && t.st = .free)))
      (fun s => (s.modTile c h (fun t => { t with commit := some { sd := sd, store := flag w 15, ch := fld w 19 16 } })).seqWait c
        (.commit h))

/-- COMMIT waits for the tile's output path or partial send to end, and for its commit (R355). -/
def execCommit (c : CoreId) (s : State) : Host.Outcome State Fault Refusal :=
  .next (s.seqRun c.val 0x13 (fun w => s.commitCmd c.val w))

/-- COMMIT_SEND: the output path or the partial send has ended, and the commit goes to the Seed Tray; ARR_LASTTSW shows the TSW
as it is sent (R130, R327, R355). -/
def execCommitSend (c : CoreId) (h : Handle) (s : State) : Host.Outcome State Fault Refusal :=
  let t := s.tile c.val h.val
  match t.commit with
  | some q =>
    if s.coreOpen c.val && !q.sent && !s.stalled c.val (.out h.val) && (if t.st = .output then t.outSt = .ended else t.partSent = 2) then
      let u := (s.modTile c.val h.val (fun t => { t with commit := some { q with sent := true } })).setRg .arrLasttsw c.val 0 0
        (s.tileTsw c.val h.val)
      .next { u with sdt := { u.sdt with commits := u.sdt.commits ++ [(c.val, h.val)] } }
    else .next s
  | none => .next s

/-! ### The copy of COMMIT with STORE (R359, R364) -/

/-- Address, bit offset in its first byte, and bits of output row `m` of the tile at its place (R39, R359). -/
def Geo.outPlace (g : Geo) (m : Nat) : Nat × Nat × Nat :=
  let w := fmtBits g.d.fmtO
  let lo := g.tn * g.d.nt * w
  (g.d.obase + (g.b * g.d.mA g.alen + g.tm * g.d.mt + m) * g.d.ostr + lo / 8, lo % 8, g.nA * w)

/-- First scale byte of output row `m` of the tile (R55, R359). -/
def Geo.outScale (g : Geo) (m : Nat) : Nat :=
  g.d.oscb + (g.b * g.d.mA g.alen + g.tm * g.d.mt + m) * ceilDiv (g.d.nA g.alen) g.d.og + g.tn * g.d.nt / g.d.og

/-- Scale bytes of a row of the tile. -/
def Geo.outScaleLen (g : Geo) : Nat := if hasBlock g.d.scO then ceilDiv g.nA g.d.og else 0

/-- The tile's output row ends inside a byte that a later tile's columns share. -/
def Geo.sharesTail (g : Geo) : Bool := g.tn * g.d.nt + g.nA < g.d.nA g.alen

/-- Scale rows of the tile from byte string `sc`, `n` bytes apart. (DEDUCED, log 24) -/
def Geo.scaleWrites (g : Geo) (sc : List Byte) (n : Nat) : List (Nat × List Byte) :=
  (upTo g.mA).map (fun m => (g.outScale m, (sc.drop (m * n)).take g.outScaleLen))

/-- One dense row written; a byte it shares with its neighbours keeps their bits, and where the tensor's row ends with the tile
its last byte's pad bits are written 0 (R40). -/
def State.storeRow (s : State) (c ch : Nat) (g : Geo) (slot : List Byte) (m : Nat) : Bool × State :=
  let (a, o, w) := g.outPlace m
  let row := (slot.drop (m * g.outStride)).take (rowBytes g.d.fmtO g.nA)
  let n := if g.sharesTail then w else ceilDiv (o + w) 8 * 8 - o
  if o = 0 && n % 8 = 0 then s.dmaPut c ch a .normal row
  else
    let len := ceilDiv (o + n) 8
    match s.readMem (coreReq c) .normal a len with
    | (.ok old, t) => t.dmaPut c ch a .normal (mergeBits old row o n)
    | (x, t) => (false, t.chanNo c ch x)

/-- Rows written in turn until one does not go through. -/
def State.storeRows (s : State) (c ch : Nat) (g : Geo) (slot : List Byte) : List Nat → Bool × State
  | [] => (true, s)
  | m :: ms =>
    match s.storeRow c ch g slot m with
    | (true, t) => t.storeRows c ch g slot ms
    | x => x

/-- Where a tile of the ZRL form goes: its region, and the bytes of its tensor (R182, R359). -/
def Geo.zrlPlace (g : Geo) (slot : List Byte) : Nat × Nat :=
  let p := g.d.space g.alen
  (g.d.obase + ((g.b * p.tm + g.tm) * p.tn + g.tn) * g.d.ozsz, 4 * (g.mA + 1) + leAt slot (4 * g.mA) 4)

/-- Writes of a tile in the capped form: counts, indices, values (R204, R359). -/
def Geo.cappedWrites (g : Geo) (slot : List Byte) (rows : List Nat) : List (Nat × List Byte) :=
  let cap := g.d.capr
  let vb := ceilDiv (cap * fmtBits g.d.fmtO) 8
  rows.flatMap (fun m =>
    let i := g.b * g.d.mA g.alen + g.tm * g.d.mt + m
    let n := leAt slot (4 * m) 4
    [(g.d.obase + 4 * i, toLe 4 n),
     (g.d.ixbase + 4 * i * cap, (slot.drop (4 * g.d.mt + 4 * m * cap)).take (4 * n)),
     (g.d.ivbase + i * vb, (slot.drop (4 * g.d.mt + 4 * g.d.mt * cap + m * vb)).take (ceilDiv (n * fmtBits g.d.fmtO) 8))])

/-- The copy from the slot's bytes: all of it, or under HALT the row in flight, a ZRL tensor counting as one row (R292, R305).
(DEDUCED, log 24) -/
def State.storeTile (s : State) (c ch : Nat) (g : Geo) (slot : List Byte) : Bool × State :=
  let halt := (s.chan c ch).halt
  let rows := upTo (if halt then min 1 g.mA else g.mA)
  let unless_ (l : List (Nat × List Byte)) : List (Nat × List Byte) := if halt then [] else l
  if g.d.imatch then s.dmaPuts c ch .normal (g.cappedWrites slot rows)
  else if g.d.zrlo then
    let z := g.zrlPlace slot
    s.dmaPuts c ch .normal ((z.1, slot.take z.2) :: unless_ (g.scaleWrites (slot.drop z.2) g.outScaleLen))
  else match s.storeRows c ch g slot rows with
    | (true, t) => t.dmaPuts c ch .normal (unless_ (g.scaleWrites (slot.drop (g.d.mt * g.outStride)) g.outGroups))
    | x => x

/-- COMMIT_STORE: the accepted commit's channel starts once it is free; it then copies the output slot to the tile's place, releases
it for class DMA, and the COMMIT completes; it completes too where the channel has halted, by HALT after the row in flight (R283,
R292, R305, R364). (DESIGN CHOICE, log 55) -/
def execCommitStore (c : CoreId) (h : Handle) (s : State) : Host.Outcome State Fault Refusal :=
  let c := c.val
  let h := h.val
  match (s.tile c h).commit with
  | none => .next s
  | some q =>
    let x := s.chan c q.ch
    if !s.coreOpen c || q.accepted ≠ some true then .next s
    else if x.use_ ≠ .store h then .next (if s.chanFree c q.ch then s.startStore c h q else s)
    else if x.st = .halted then .next ((s.modChan c q.ch (fun y => { y with use_ := .chain })).commitDone c h true)
    else if x.st ≠ .run then .next s
    else
      let n := (s.tile c h).oslot.getD 0
      match s.readMem (coreReq c) .normal (spadBase c + s.slotOff c n) (s.slotLen c n) with
      | (.ok bs, t) =>
        (match t.storeTile c q.ch (s.geo c h) bs with
          | (true, u) =>
            if x.halt then .next (((u.chanHalt c q.ch eHALTCMD).modChan c q.ch (fun y => { y with use_ := .chain })).commitDone c h true)
            else .next (((u.modChan c q.ch (fun y => { y with st := .idle, use_ := .chain })).slotRelease c n cDma).commitDone c h true)
          | (false, u) => .next u)
      | (g, t) => .next (t.chanNo c q.ch g)

/-! ### GAUGE (R357) -/

/-- GAUGE's work for a mode: FORCE or SKIP. -/
def State.gaugeCmd (s : State) (c : Nat) (skip : Bool) : State :=
  s.seqRun c 0x17 (fun w =>
    let h := wTh w
    if !onlyBits w [(8, 4)] then s.seqRefuse c 0x17 rRESV
    else if flag w 11 ≠ skip then s
    else s.unless c 0x17 (match s.tileCause c (s.takesBinding c h) with
        | some r => some r
        | none => if skip && (s.tileCtx c h).exact_ then some rEXACT else none)
      (fun s => (s.modTile c h (fun t =>
        if skip then { t with gskip := true, gforce := false } else { t with gforce := true, gskip := false })).seqGoOn c))

/-- GAUGE FORCE samples the tile whatever GRATE says (R357). -/
def execGaugeForce (c : CoreId) (s : State) : Host.Outcome State Fault Refusal := .next (s.gaugeCmd c.val false)
/-- GAUGE SKIP keeps the tile from being sampled (R357). -/
def execGaugeSkip (c : CoreId) (s : State) : Host.Outcome State Fault Refusal := .next (s.gaugeCmd c.val true)

end Sys2Proof.Machine
end

