-- ==== Sys2Proof/Machine/Quiesce.lean ====
section
/-! DEFINITION. Core quiesce, FORCE and the fault counts (R548, R549, R553, R556, R557, R559, R561). -/
namespace Sys2Proof.Machine

/-- Claims of a core that the Meter holds are answered ABORTED (R548 step 1). (DEDUCED, log 96) -/
def State.abortClaims (s : State) (c : Nat) : State := s.each (upTo 64) (fun t d => t.abortHeld d (fun q => q.core = c))

/-- Reduction groups to which a core's handles have contributed and whose round has not committed. (DEDUCED, log 96) -/
def State.contributedTo (s : State) (c : Nat) : List Nat :=
  ((upTo 8).filterMap (fun h =>
    let t := s.tile c h
    if t.contributed && !t.released then t.grp else none)).foldl (fun l g => insertAsc g l) []

/-- A forced quiesce: groups that hold a contribution of the core abort with RESET, and its open tiles abort but for one whose
commit has been sent (R548, R549, R553). (DEDUCED, log 96) -/
def State.forceQuiesce (s : State) (c : Nat) : State :=
  let t := s.each ((s.contributedTo c).filter (fun g => (s.group g).st = .opened)) (fun t g => t.resetGroup g)
  t.each ((t.core c).busyHandles.filter (fun h => match (t.tile c h).commit with | some q => !q.sent | none => true))
    (fun u h => u.forceTile c h)

/-- A quiesce begins or becomes forced (R548, R559). -/
def State.quiesceCore (s : State) (c : Nat) (force : Bool) : State :=
  match (s.core c).cst with
  | .active =>
    let t := (s.modCore c (fun k => { k with cst := .quiescing force false })).abortClaims c
    if force then t.forceQuiesce c else t
  | .quiescing f l =>
    if force && !f then (s.modCore c (fun k => { k with cst := .quiescing true l })).forceQuiesce c else s
  | _ => s

/-- CORE_QUIESCE: QUIESCE in EVT_CQCTL, with or without FORCE; together with ENABLE the write is dropped (R548, R561). -/
def execCoreQuiesce (r : Req) (c : CoreId) (force alsoEnable : Bool) (s : State) : Host.Outcome State Fault Refusal :=
  .next (s.atReg r .evtCqctl 0 0 (fun s =>
    if alsoEnable then s.access r (regAddr .evtCqctl 0 0 0) else s.quiesceCore c.val force))

/-- CORE_QUIESCE_FORCE: FORCE alone, on a QUIESCING core (R561). -/
def execCoreQuiesceForce (r : Req) (c : CoreId) (s : State) : Host.Outcome State Fault Refusal :=
  .next (s.atReg r .evtCqctl 0 0 (fun s => if (s.core c.val).quiescing then s.quiesceCore c.val true else s))

/-- No tile, DMA channel, output path or contribution of a core remains (R548 step 3). -/
def State.quiesced (s : State) (c : Nat) : Bool :=
  (s.core c).busyHandles.isEmpty && (upTo 16).all (fun ch => (s.chan c ch).st ≠ .run && (s.chan c ch).st ≠ .wait)

/-- CORE_QUIESCE_SCRUB: the core's scrub begins; what it still asked of the Seed Tray is dropped (R548 step 3). -/
def execCoreQuiesceScrub (c : CoreId) (s : State) : Host.Outcome State Fault Refusal :=
  let c := c.val
  if (s.core c).quiescing && !(s.core c).scrub && s.quiesced c then
    let t := s.each (upTo 64) (fun t d => t.modDisp d (fun x => { x with
      claims := x.claims.filter (·.core ≠ c), waiting := x.waiting.filter (· ≠ c) }))
    .next ((t.wipeCore c).modCore c (fun k => { k with scrub := true }))
  else .next s

/-- CORE_SCRUB_DONE: DISABLED under EVT_CQCTL; under a partial load the core leaves its partition or is FENCED (R397, R548
step 4). -/
def execCoreScrubDone (c : CoreId) (s : State) : Host.Outcome State Fault Refusal :=
  let c := c.val
  if !(s.core c).scrub then .next s
  else match (s.core c).cst with
    | .quiescing _ false => .next (s.modCore c (fun k => { k with cst := .disabled, scrub := false }))
    | .quiescing _ true =>
      let t := s.modCore c (fun k => { k with cst := if s.trl.new.enabled c then .active else .fenced, scrub := false, owner := none })
      .next { t with trl := { t.trl with moved := t.trl.moved.filter (· ≠ c) } }
    | _ => .next s

/-- ENABLE in EVT_CQCTL (R561). -/
def State.enableCore (s : State) (c : Nat) : State :=
  if (s.core c).cst = .disabled then s.modCore c (fun k => { k with cst := .active }) else s

/-- CORE_ENABLE: a DISABLED core is ACTIVE again, HALTED; for any other the write is dropped (R561). -/
def execCoreEnable (r : Req) (c : CoreId) (s : State) : Host.Outcome State Fault Refusal :=
  .next (s.atReg r .evtCqctl 0 0 (·.enableCore c.val))

/-- TILE_FORCE: GO in EVT_FORCE (R556). -/
def execTileForce (r : Req) (c : CoreId) (s : State) : Host.Outcome State Fault Refusal :=
  .next (s.atReg r .evtForce 0 0 (fun s => s.forceCore c.val))

/-- SUSPECT_CLEAR: 1 written to SUSPECT clears it and the count (R561). -/
def execSuspectClear (r : Req) (c : CoreId) (s : State) : Host.Outcome State Fault Refusal :=
  .next (s.atReg r .evtCflt 0 c.val (fun s => s.setRg .evtCflt 0 c.val 0 0))

end Sys2Proof.Machine
end

