-- ==== Sys2Proof/Machine/BootOps.lean ====
section
/-! DEFINITION. The boot chain: firmware images, the Porch firmware, the SRAM zero-fill and the hub firmware in a boot, a warm
reset and a wake (R484 to R493, R512, R545, R551, R567). -/
namespace Sys2Proof.Machine

/-! ### Firmware images (R485, R486) -/

/-- Header and body of a firmware image: what its signature is over. (DEDUCED, log 88) -/
def fwSigned (img : List Byte) : List Byte := img.take (512 + leAt img 12 4)

/-- The image's form is that of R485 for its kind. (DEDUCED, log 88) -/
def fwForm (kind : Nat) (img : List Byte) : Bool :=
  let n := leAt img 12 4
  leAt img 0 4 = 0x4D574652 && leAt img 4 1 = kind && n ≤ (if kind = 1 then 0x80000 else 0x400000) &&
  512 + n + 132 ≤ img.length && zeroAt img 5 3 && zeroAt img 157 355

/-- The image is accepted: its form, its key, its signature, its RBVAL (R486). (DEDUCED, log 88) -/
def State.fwOk (s : State) (kind ctr : Nat) (img : List Byte) : Bool :=
  fwForm kind img && digestOf ((img.drop 24).take 133) = s.sec.ownerHash &&
  signedBy ((img.drop 24).take 133) (fwSigned img) ((img.drop (fwSigned img).length).take 132) &&
  Sparse.get 0 s.sec.rbctr ctr ≤ leAt img 8 4 && leAt img 8 4 ≤ 255

/-- A firmware stage: copy A, else copy B; each copy read is measured. The copy accepted, and whether it is B (R487, R493).
(DEDUCED, log 88) -/
def State.fwStage (s : State) (kind ctr : Nat) (a b : List Byte) : Option (List Byte × Bool) × State :=
  let t := s.attest attSTAGE none
  if s.fwOk kind ctr a then (some (a, false), t)
  else
    let u := t.attest attSTAGE none
    if s.fwOk kind ctr b then (some (b, true), u) else (none, u)

/-- A stage that finds both copies refused stops the boot; BOOT names it (R487). (DEDUCED, log 88) -/
def State.bootStop (s : State) (code : Nat) : State := { s with sec := { s.sec with boot := .stopped, bootCode := code } }

/-- The device is OWNED: its highest lifecycle bit (R483, R484). -/
def Sec.owned (x : Sec) : Bool := x.lc.toNat / 2 = 1

/-- The Porch firmware starts: the identity key derived and the first challenge drawn, or the boot stopped without a PUF; then
the rails go off and the first is raised (R488 step 4, R490, R504, R567 steps 1 and 2). (DEDUCED, log 119) -/
def State.porchStarts (s : State) (pufOk : Bool) : State :=
  if !pufOk then s.bootStop 4
  else
    let t := State.newChallenge { s with sec := { s.sec with idkey := true, boot := .rails } }
    (((t.railsOff [0, 1, 2, 3, 4, 5, 6, 7, 8]).keeper)).raise 4 (railMv 4)

/-- PORCH_FIRMWARE_LOADED: the ROM of an OWNED device has read the Porch firmware (R484 to R488).
(DEDUCED, log 88) -/
def execPorchFirmwareLoaded (copyA copyB : List Byte) (pufOk : Bool) (s : State) : Host.Outcome State Fault Refusal :=
  if s.sec.boot ≠ .rom || !s.sec.owned then .next s
  else match s.fwStage 1 0 copyA copyB with
    | (none, t) => .next (t.bootStop 1)
    | (some (img, isB), t) =>
      .next (State.porchStarts { t with sec := { t.sec with
        porchHash := digestOf (fwSigned img), porchRb := some (leAt img 8 4), bootCode := if isB then 5 else 0 } } pufOk)

/-- SRAM_ZERO_FILL_DONE: step 5 of the boot ends (R488). -/
def execSramZeroFillDone (s : State) : Host.Outcome State Fault Refusal :=
  .next (if s.sec.boot = .zero then { s with sec := { s.sec with boot := .hubfw } } else s)

/-! ### The hub firmware starts -/

/-- In a boot it loads the primary image of copy A (R487, R488 step 7). -/
def State.bootImage (s : State) : State :=
  State.beginLoad { s with sec := { s.sec with boot := .image }, trl := { boot := true } } true imageA

/-- Budget windows go on from where they began: no load was applied (R524). -/
def State.keepWindows (s : State) (t0 : Sparse Nat) : State := { s with mtr := { s.mtr with t0 := t0 } }

/-- In a warm reset the IMG fields come from the retained configuration, or the device comes up bare and may load the fallback
image; epochs bump, WARM_RESET is raised, ports start (R545 steps 4 and 5, R551). (DEDUCED, log 91) -/
def State.warmStarts (s : State) : State :=
  let code := (s.evt.warm).getD 0
  let bare := s.evt.warmBare
  let t0 := { s with evt := { s.evt with warm := none, warmBare := false, lastrst := code
                                         bare := s.evt.bare || bare, fallback := s.evt.fallback && !bare }
                     sec := { s.sec with boot := .ran } }
  let g : Cfg := if bare then {} else t0.retained
  let t1 := (((t0.writeImg g).bumpAll).each (upTo 256) (fun t c =>
    t.modCore c (fun k => { k with cst := if g.enabled c then .active else .fenced }))).keepWindows s.mtr.t0
  let t2 := if bare then ({ t1 with tch := { t1.tch with groups := [] }, clr := { t1.clr with kslots := [] } }).attest attDISCARD none
    else t1
  let t3 := (t2.devEvent 0x0008 0 code).startPorts
  if bare && t3.rf .evtRstcfg 0 0 0 1 = 1 then
    State.beginLoad { t3 with trl := { fallback := true } } true (t3.rf .evtRstcfg 0 0 1 15 * 65536)
  else t3

/-- In a wake the hub's IMG fields come from the retained configuration and the Cellar leaves self-refresh (R512 step 6).
(DEDUCED, log 92) -/
def State.wakeStarts (s : State) : State :=
  let t := s.writeImg s.retained
  { t with clr := { t.clr with sref := false }, tch := { t.tch with groups := t.retained.groups } }

/-- The hub firmware is awaited: in a boot, in a warm reset once every partition is scrubbed, in a wake once the hub's rails are
up. -/
def State.awaitsHub (s : State) : Bool :=
  s.sec.boot = .hubfw || (s.evt.warm.isSome && s.sec.scrubs.isEmpty) ||
  (s.prc.d3 = .waking && s.prc.raising.isNone && s.clr.sref && s.sec.boot ≠ .stopped)

/-- The hub firmware's start. -/
def State.hubStarts (s : State) : State :=
  if s.sec.boot = .hubfw then s.bootImage
  else if s.evt.warm.isSome then s.warmStarts
  else s.wakeStarts

/-- HUB_FIRMWARE_LOADED (R486 to R488, R512, R545). (DEDUCED, log 88) -/
def execHubFirmwareLoaded (copyA copyB : List Byte) (s : State) : Host.Outcome State Fault Refusal :=
  if !s.awaitsHub then .next s
  else match s.fwStage 2 1 copyA copyB with
    | (none, t) => .next (t.bootStop 2)
    | (some (img, isB), t) =>
      .next (State.hubStarts { t with sec := { t.sec with
        hubHash := digestOf (fwSigned img), hubRb := some (leAt img 8 4), bootCode := if isB then 5 else t.sec.bootCode } })

end Sys2Proof.Machine
end

