-- ==== Sys2Proof/Machine/CellarOps.lean ====
section
/-! DEFINITION. Patrol scrub, module temperatures and the fill engine (R404 to R408, R411, R412, R440, R500 step 8). -/
namespace Sys2Proof.Machine

/-! ### Patrol scrub (R404, R408) -/

/-- Line of a channel and a channel address, both counted in lines: the fold of R404 undone. -/
def lineOf (c ca : Nat) : Nat :=
  let hi := ca / 32
  let mid := c ^^^ bits hi 8 4 ^^^ bits hi 20 4
  hi * 512 + mid * 32 + ca % 32

/-- The `n`-th line of a patrol pass: ascending channel address, the sixteen channels in turn at each. (DEDUCED, log 79) -/
def patrolLine (n : Nat) : Nat := lineOf (n % 16) (n / 16)

/-- Patrol scrub runs: a trained Cellar outside self-refresh, PERIOD not 0 (R408, R511). (DEDUCED, log 79) -/
def State.patrols (s : State) : Bool := s.capacity ≠ 0 && !s.clr.sref && s.rf .clrScrub 0 0 0 8 ≠ 0

/-- PATROL_SCRUB_LINE: the next line is read and corrected or poisoned; the last one ends the pass (R408).
(DEDUCED, log 79) -/
def execPatrolScrubLine (e : DramErr) (s : State) : Host.Outcome State Fault Refusal :=
  if !s.patrols then .next s
  else
    let t := s.dramErr (patrolLine s.clr.patrol) e
    let n := s.clr.patrol + 1
    let whole : Bool := s.capacity ≤ n * 128
    .next { t with clr := { t.clr with patrol := if whole then 0 else n
                                       passes := if whole then (t.clr.passes + 1) % 2 ^ 22 else t.clr.passes } }

/-! ### Module temperatures (R408) -/

/-- A channel in or out of an ascending list. -/
def setMember (b : Bool) (c : Nat) (l : List Nat) : List Nat := if b then insertAsc c l else l.filter (· ≠ c)

/-- MODULE_THERMAL: from 85 degrees on the channel's refresh rate doubles; from 95 on its command rate halves too, HOT is set
and CELLAR_HOT raised as it gets there. -/
def execModuleThermal (ch : Fin 16) (degC : Int) (s : State) : Host.Outcome State Fault Refusal :=
  let was := s.clr.hot.contains ch.val
  let hot : Bool := 95 ≤ degC
  let t := { s with clr := { s.clr with warm := setMember (85 ≤ degC) ch.val s.clr.warm, hot := setMember hot ch.val s.clr.hot } }
  .next (if hot && !was then t.devEvent 0x0704 0 ch.val else t)

/-! ### The fill engine (R412) -/

/-- A line filled: on the DRAM under a key version, and in place where its region's slice group holds it.
(DEDUCED, log 78) -/
def State.fillLine (s : State) (l v : Nat) (bs : List Byte) : State :=
  let t := s.putLine l v bs false
  match t.groupAt (l * 128) with
  | none => t
  | some g =>
    let st := t.setOf g l
    match t.hitWay st l with
    | some w => t.setWay st w (some { line := l, data := padTo 128 bs, dirty := false, poison := false })
    | none => t

/-- A fill pattern over one line. -/
def patLine (pat : W32) : List Byte := (upTo 32).flatMap (fun _ => toLe 4 pat.toNat)

/-- Why a software fill halts at a line: 1 RANGE, 2 LOCKED (R412, R440). -/
def State.fillStop (s : State) (l : Nat) : Nat :=
  if s.capacity ≤ l * 128 then 1
  else match s.regionAt (l * 128) with
    | some r => if s.locked r then 2 else 0
    | none => 0

/-- Lines filled one after another until one halts the fill; lines of an image being read are refused (R390).
(DEDUCED, log 78) -/
def State.fillLines (s : State) (pat : W32) : List Nat → Nat × State
  | [] => (0, s)
  | l :: ls =>
    match s.fillStop l with
    | 0 => (if (s.imageHeld (l * 128) 128).isSome then s else s.fillLine l (s.verAt (l * 128)) (patLine pat)).fillLines pat ls
    | e + 1 => (e + 1, s)

/-- The software fill ends: DONE, or HALTED with a cause. -/
def State.endFill (s : State) (err : Nat) : State :=
  { s with clr := { s.clr with fill := none, fillSt := if err = 0 then 2 else 3, fillErr := err } }

/-- A fill starts; an unaligned range halts it at once with RANGE (R412, R440). -/
def State.startFill (s : State) : State :=
  let b := s.rg64 .clrFillbase % 2 ^ 48
  let n := s.rg64 .clrFillsize % 2 ^ 48
  if b % 128 ≠ 0 || n % 128 ≠ 0 then s.endFill 1
  else { s with clr := { s.clr with fill := some { who := .soft, base := b, size := n, pat := s.rg .clrFillpat }
                                    fillSt := 1, fillErr := 0 } }

/-- GO in CLR_FILLCTL (R412). (DEDUCED, log 78) -/
def State.fillGo (s : State) (r : Req) : State :=
  if s.clr.fill.isSome then s.access r (regAddr .clrFillctl 0 0 0) else s.startFill

/-- CELLAR_FILL_GO: a GO while a fill runs is dropped with an access event (R412). -/
def execCellarFillGo (r : Req) (s : State) : Host.Outcome State Fault Refusal :=
  .next (s.atReg r .clrFillctl 0 0 (·.fillGo r))

/-- A running fill halts with HALTCMD after some of its lines; how many is free (R412). (DEDUCED, log 78) -/
def State.haltFill (s : State) : State :=
  match s.clr.fill with
  | none => s
  | some f =>
    let (v, t) := s.draw
    let ls := linesOf f.base f.size
    ((t.fillLines f.pat (ls.take (v % (ls.length + 1)))).2).endFill 3

/-- CELLAR_FILL_HALT. -/
def execCellarFillHalt (r : Req) (s : State) : Host.Outcome State Fault Refusal :=
  .next (s.atReg r .clrFillctl 0 0 (·.haltFill))

/-- A kill fill done: zeros over the region, as plaintext where it was locked, and its entry in the log (R411, R412, R500).
(DEDUCED, log 78) -/
def State.killFill (s : State) (f : Fill) : State :=
  let plain : Bool := match f.who with | .zkill _ p _ => p | .soft => false
  let part : Option Nat := match f.who with | .zkill _ _ p => some p | .soft => none
  let t := { s with clr := { s.clr with kills := s.clr.kills.drop 1 } }
  (t.each (linesOf f.base f.size) (fun u l => u.fillLine l (if plain then 0 else u.verAt (l * 128)) (zeros 128))).attest
    attFILL part

/-- CELLAR_FILL_DONE: the fill at the engine ends, kill fills ahead of the software fill (R412). -/
def execCellarFillDone (s : State) : Host.Outcome State Fault Refusal :=
  match s.clr.kills, s.clr.fill with
  | f :: _, _ => .next (s.killFill f)
  | [], some f => let y := s.fillLines f.pat (linesOf f.base f.size); .next (y.2.endFill y.1)
  | [], none => .next s

end Sys2Proof.Machine
end

