-- ==== Sys2Proof/Machine/Windows.lean ====
section
/-! DEFINITION. Declaring and clearing slots, stalled accesses that go on or time out, and accesses from outside a core (R271 to
R275, R285 to R287, R299 to R302, R361, R423). -/
namespace Sys2Proof.Machine

/-! ### Declaring slots (R271, R300, R301) -/

/-- A slot's range overlaps another declared slot's. -/
def State.slotOverlap (s : State) (c n base len : Nat) : Bool :=
  (upTo 64).any (fun m => m ≠ n && s.declared c m &&
    (let w := s.slotWords c m; base < w.1 + w.2 && w.1 < base + len))

/-- A declaration with these registers is refused (R271). -/
def State.declBad (s : State) (c n vb vc : Nat) : Bool :=
  s.slotOverlap c n (bits vb 0 14) (bits vb 14 14 + 1) || (s.declared c n && (s.slot c n).st ≠ .empty) ||
  16383 < bits vb 0 14 + bits vb 14 14 || (vc.testBit 12 && bits vc 4 8 &&& 0x78 = 0)

/-- The write is refused: SLOT_DECL (R271). -/
def State.declRefuse (s : State) (c n : Nat) : State := (s.spdErr c 4 n).coreEvent c 0x0401 2 n

/-- A write of a slot's registers takes effect or is refused (R271). -/
def State.declare (s : State) (c n : Nat) (cfg : Bool) (v : Nat) : State :=
  let vb0 := (s.rg .spdSlotBase c n).toNat
  let vc0 := (s.rg .spdSlotCfg c n).toNat % 2 ^ 13
  let vb := if cfg then vb0 else v % 2 ^ 28
  let vc := if cfg then v % 2 ^ 13 else vc0
  let was := vc0.testBit 0
  let now := vc.testBit 0
  let bad := if now then (!was || vb ≠ vb0 || vc ≠ vc0) && s.declBad c n vb vc else was && (s.slot c n).st ≠ .empty
  if bad then s.declRefuse c n
  else
    let t := (s.setRg .spdSlotBase c n 0 (BitVec.ofNat 32 vb)).setRg .spdSlotCfg c n 0 (BitVec.ofNat 32 vc)
    if cfg && v.testBit 15 then t.setSlot c n {} else t

/-- SLOT_DECLARE: a write of SPD_SLOTn_CFG, or of SPD_SLOTn_BASE; a reserved producer class drops it (R12, R271, R272); at a core
whose space is closed it is refused (R30). -/
def execSlotDeclare (c : CoreId) (n : SlotId) (cfg : Bool) (v : W32) (s : State) : Host.Outcome State Fault Refusal :=
  if !s.coreOpen c.val then .next (s.refuse (.core c) (regAddr (if cfg then .spdSlotCfg else .spdSlotBase) c.val n.val 0))
  else if cfg && 5 ≤ bits v.toNat 1 3 then .next (s.access (.core c) (regAddr .spdSlotCfg c.val n.val 0))
  else .next (s.declare c.val n.val cfg v.toNat)

/-- SLOT_CLEAR: SLCLR sets the slot EMPTY (R273); at a core whose space is closed the write is refused (R30). -/
def execSlotClear (c : CoreId) (n : SlotId) (s : State) : Host.Outcome State Fault Refusal :=
  if s.coreOpen c.val then .next (s.setSlot c.val n.val {})
  else .next (s.refuse (.core c) (regAddr .spdSlotCfg c.val n.val 0))

/-! ### Messages of a session in progress -/

/-- A message in progress changed. -/
def State.modMsg (s : State) (n seq : Nat) (f : InMsg → InMsg) : State :=
  s.modSess n (fun x => { x with inMsgs := x.inMsgs.map (fun m => if m.seq = seq then f m else m) })
/-- Response data gathered at a place. -/
def InMsg.put (m : InMsg) (pos : Nat) (bs : List Byte) : InMsg :=
  { m with data := m.data.take pos ++ zeros (pos - m.data.length) ++ bs ++ m.data.drop (pos + bs.length) }
/-- A failure takes the message's STATUS: the one whose payload offset is least (R461). -/
def InMsg.fail (m : InMsg) (code detail : Nat) : InMsg :=
  if m.status = 0 || detail < m.status / 256 then { m with status := statusOf code detail } else m

/-! ### Accesses from outside a core (R285, R286, R361, R423) -/

/-- A response of this device to a remote request (R421). -/
def State.respondRemote (s : State) (d tag typ status : Nat) (pl : List Byte) : State :=
  s.sendTo { typ := typ, dst := d, src := s.devId, tag := tag, len := pl.length, status := status, payload := pl }

/-- The answer to an access from outside: a response packet, a place in a message's data, or the data outward. -/
def State.inReply (s : State) (r : Req) (tag : Option Nat) (pos : Nat) (rd : Bool) (bs : List Byte) : State :=
  match r, tag with
  | .remote d, some t => if rd then s.respondRemote d.val t tRdata 0 bs else s.respondRemote d.val t tWack 0 []
  | r, some q => match reqSession r with
    | some n => if rd then s.modMsg n q (·.put pos bs) else s
    | none => s
  | r, none => if rd then s.send (.data r bs) else s.send (.done r)

/-- The answer to a refused access from outside: NACK WINDOW, or REFUSED with zero-filled data (R30, R286, R423). -/
def State.inRefused (s : State) (r : Req) (tag : Option Nat) (pos : Nat) (rd : Bool) (n : Nat) : State :=
  match r, tag with
  | .remote d, some t => s.respondRemote d.val t tNack 1 []
  | r, some q => match reqSession r with
    | some m => s.modMsg m q (fun y => (if rd then y.put pos (zeros n) else y).fail stREFUSED pos)
    | none => s
  | r, none => if rd then s.send (.data r (zeros n)) else s

/-- The slot at which an earlier access of the same requester and direction still stalls, where a new access touches it too: the new
one waits behind it (R22). -/
def State.behind (s : State) (r : Req) (c off n : Nat) (wr : Bool) : Option Nat :=
  ((s.core c).stalls.find? (fun x => x.who = .inbound r && x.wr = wr && (s.slotsAt c off n).contains x.slot)).map (·.slot)

/-- What has become of a read from outside: its answer goes out, or it stalls. -/
def State.inGot (s : State) (r : Req) (c off n : Nat) (tag : Option Nat) (pos : Nat) : Got → State
  | .ok bs => s.inReply r tag pos true bs
  | .stall _ k => s.stallOn c { who := .inbound r, slot := k, wr := false, off := off, len := n, data := [], tag := tag, pos := pos }
  | _ => s.inRefused r tag pos true n

/-- Likewise for a write of bytes. -/
def State.inPut (s : State) (r : Req) (c off : Nat) (bs : List Byte) (tag : Option Nat) (pos : Nat) : Put → State
  | .ok => s.inReply r tag pos false []
  | .stall _ k =>
    s.stallOn c { who := .inbound r, slot := k, wr := true, off := off, len := bs.length, data := bs, tag := tag, pos := pos }
  | .refused _ => s.inRefused r tag pos false bs.length

/-- A data access from outside to a core's scratchpad; `tag` and `pos` say to which message or packet its answer belongs. One that
its windows admit waits behind an earlier one of its requester (R22, R285). -/
def State.inData (s : State) (r : Req) (c off : Nat) (x : Option (List Byte)) (n : Nat) (tag : Option Nat) (pos : Nat) : State :=
  let wait (n : Nat) (need : Need) (wr : Bool) : Option Nat :=
    if s.spadNo c off n = none && s.admitted r c off n need then s.behind r c off n wr else none
  match x with
  | none => match wait n .rd false with
    | some k => s.inGot r c off n tag pos (.stall c k)
    | none => let y := s.readSpad r c off n
              y.2.inGot r c off n tag pos y.1
  | some bs => match wait bs.length .wr true with
    | some k => s.inPut r c off bs tag pos (.stall c k)
    | none => let y := s.writeSpad r c off bs
              y.2.inPut r c off bs tag pos y.1

/-- A stalled access from outside is tried again: its windows were checked as it arrived (R275, R287). -/
def State.inAgain (s : State) (r : Req) (c : Nat) (x : Stall) : State :=
  if x.wr then (let y := s.writeAtSlots r c x.off x.data
                y.2.inPut r c x.off x.data x.tag x.pos y.1)
  else (let y := s.readAtSlots r c x.off x.len
        y.2.inGot r c x.off x.len x.tag x.pos y.1)

/-- The declared slot whose first byte is at an offset. -/
def State.slotFrom (s : State) (c off : Nat) : Option Nat := (upTo 64).find? (fun n => s.declared c n && s.slotOff c n = off)

/-- A SIGNAL transaction at a core: FULL, or a release for the requester's class; true where it is admitted (R273, R285,
R361). -/
def State.inSignal (s : State) (r : Req) (c off : Nat) (full : Bool) : Bool × State :=
  match s.spadNo c off 1 with
  | some a => (false, s.refuse r a)
  | none =>
    if !s.admitted r c off 1 .sig then (false, s.winRefuse r c off)
    else
      let t := s.ungate c
      match t.slotFrom c off with
      | some n => (true, if full then t.slotFull c n else t.slotRelease c n (reqClass r).2)
      | none => (true, t)

/-! ### The debug window (R28, R118) -/

/-- The accumulation memory as the debug window shows it: the words of the open tiles, one tile after another.
(DESIGN CHOICE, log 29) -/
def State.accBytes (s : State) (c : Nat) : List Byte :=
  ((s.core c).openHandles).flatMap (fun h =>
    let r := s.tileRegime c h
    (s.tile c h).acc.flatMap (fun a => toLe (wordBytes r) (a.word r)))

/-- The session holds the DEBUG right for its partition (R462, R496). (DESIGN CHOICE, log 29) -/
def State.debugs (s : State) (r : Req) : Bool := s.sec.dbg.testBit 0 && (reqSession r).isSome && s.sec.dbgSession = reqSession r

/-- A read of core `c`'s debug window. (DESIGN CHOICE, log 29) -/
def State.debugRead (s : State) (r : Req) (c off n : Nat) : Got × State :=
  let a := spadBase c + 0x80000 + off
  if s.coreOpen c && s.debugs r && s.reqPart r = s.partOf c && off + n ≤ 0x40000 then
    (.ok (padTo n ((s.accBytes c).drop off)), s.ungate c)
  else (.refused a, s.refuse r a)

/-- INBOUND_ACCESS: a data access or SIGNAL transaction from outside reaches core `c`, or a read of its debug
window (R118, R285, R286). -/
def execInboundAccess (r : Req) (c : CoreId) (off : BitVec 20) (x : Access) (s : State) : Host.Outcome State Fault Refusal :=
  match x with
  | .read n =>
    if 0x80000 ≤ off.toNat && off.toNat < 0xC0000 then
      (match s.debugRead r c.val (off.toNat - 0x80000) n with
        | (g, t) => .next (t.send (.data r (g.bytes n))))
    else .next (s.inData r c.val off.toNat none n none 0)
  | .write bs => .next (s.inData r c.val off.toNat (some bs) bs.length none 0)
  | .full =>
    let y := s.inSignal r c.val off.toNat true
    .next (if y.1 then y.2.send (.done r) else y.2)
  | .release =>
    let y := s.inSignal r c.val off.toNat false
    .next (if y.1 then y.2.send (.done r) else y.2)

/-! ### Stalled accesses (R275) -/

/-- The core whose slot a stalled access waits for. -/
def Stall.core (x : Stall) (c : Nat) : Nat := x.at_.getD c

/-- The stalled access taken out of the list. -/
def State.takeStall (s : State) (c i : Nat) : State := s.modCore c (fun k => { k with stalls := k.stalls.eraseIdx i })

/-- The slot's state now allows the access; a slot no longer declared orders nothing (R271, R274); a WAITSLOT for EMPTY needs EMPTY
itself (R360). -/
def State.stallFree (s : State) (c : Nat) (x : Stall) : Bool :=
  if x.who = .seq then (if x.wr then (s.slot c x.slot).st = .empty else !s.slotBusy c x.slot false)
  else !s.declared (x.core c) x.slot || !s.slotBusy (x.core c) x.slot x.wr

/-- No earlier stalled access of the same requester and direction waits for the same slot (R22). -/
def Core.stallFirst (k : Core) (i : Nat) (x : Stall) : Bool :=
  (k.stalls.take i).all (fun y => y.who ≠ x.who || y.wr ≠ x.wr || y.slot ≠ x.slot || y.at_ ≠ x.at_)

/-- SLOT_ACCESS_RESUME: the stalled access proceeds, its slot's state allowing it, accesses of one requester in the order in which
they arrived (R22, R275). A WAITSLOT goes on by
WAITSLOT_RESUME. (DEDUCED, log 54) -/
def execSlotAccessResume (c : CoreId) (i : Nat) (s : State) : Host.Outcome State Fault Refusal :=
  let c := c.val
  match (s.core c).stalls[i]? with
  | none => .next s
  | some x =>
    if !s.coreOpen c || !s.stallFree c x || !(s.core c).stallFirst i x then .next s
    else
      let t := s.takeStall c i
      match x.who with
      | .seq => .next s
      | .inbound r => .next (t.inAgain r c x)
      | .dma ch => .next (t.modChan c ch (fun y => { y with st := .run }))
      | .out h => .next (if x.wr then t.outWrite c h x.off x.data else t)
      | .anch h row => .next (t.anchorWrite c h row x.off x.pos x.data)
      | .eng e => .next (if x.wr then t.jobWrite c e x.off x.data else t)
      | .tile _ _ | .prog | .desc => .next t

/-- The timeout is recorded and raised; a requester from outside receives the event (R275, R542). (DEDUCED, log 53) -/
def State.timeoutEvent (s : State) (c : Nat) (x : Stall) : State :=
  let t := s.spdErr c (if x.wr then 2 else 1) x.slot
  let code := if x.wr then 0x0404 else 0x0403
  match x.who with
  | .inbound (.remote _) => t.coreEvent c code 2 x.slot
  | .inbound r => t.reqEvent r code 2 x.slot
  | _ => t.coreEvent c code 2 x.slot

/-- SLOT_TIMEOUT: the stalled access ends as R275's table states. -/
def execSlotTimeout (c : CoreId) (i : Nat) (s : State) : Host.Outcome State Fault Refusal :=
  let c := c.val
  match (s.core c).stalls[i]? with
  | none => .next s
  | some x =>
    if !s.coreOpen c || s.stallFree c x || !(s.core c).stallFirst i x then .next s
    else
      let t := (s.takeStall c i).timeoutEvent c x
      let key := slotKey (x.core c) x.slot
      match x.who with
      | .tile h w => .next ((t.modBind c h w (fun b => { b with asStored := b.asStored ++ [key] })).flagTile c h [fPOISON])
      | .out h =>
        .next ((if x.wr then t else t.modTile c h (fun y => { y with outStored := y.outStored ++ [key] })).flagTile c h [fPOISON])
      | .anch h row => .next ((t.anchored c h (t.geo c h) row x.pos).flagTile c h [fPOISON])
      | .eng e => .next (if x.wr then t else t.jobAsStored c e key)
      | .prog => .next (t.modVec c (fun v => { v with asStored := v.asStored ++ [key] }))
      | .desc => .next (t.modSeq c (fun q => { q with asStored := q.asStored ++ [key] }))
      | .dma ch =>
        let u := t.chanHalt c ch (if x.wr then eOVERRUN else eUNDERRUN)
        (match (t.chan c ch).use_ with
          | .fetch h w => .next (u.fetchFailed c h w)
          | _ => .next u)
      | .seq =>
        .next (((t.modSeq c (fun q => { q with tout := true }))).seqDone c)
      | .inbound r =>
        match r, x.tag with
        | .remote d, some tag =>
          .next (if x.wr then t.respondRemote d.val tag tWack 0 [] else t.respondRemote d.val tag tRdata 0 (zeros x.len))
        | r, some q =>
          (match reqSession r with
            | some n => .next (t.modMsg n q (fun y => (if x.wr then y else y.put x.pos (zeros x.len)).fail
                (if x.wr then stOVERRUN else stUNDERRUN) x.pos))
            | none => .next t)
        | r, none => .next (if x.wr then t.send (.done r) else t.send (.data r (zeros x.len)))

end Sys2Proof.Machine
end

