-- ==== Sys2Proof/Machine/Sequencer.lean ====
section
/-! DEFINITION. The sequencer's ring, LAYER, its engine and control commands, and its register actions (R342 to R354, R360 to
R371). -/
namespace Sys2Proof.Machine

/-! ### The ring (R342) -/

/-- RING_WRITE_INDEX: a write of bytes 0 to 3 of the control word, by the core's DMA or through a window, sets the write index
(R342). (DEDUCED, log 118) -/
def execRingWriteIndex (r : Req) (c : CoreId) (idx : Byte) (s : State) : Host.Outcome State Fault Refusal :=
  .next (s.inData r c.val (s.ringOff c.val + 4096) (some (toLe 4 idx.toNat)) 4 none 0)

/-! ### LAYER (R346, R351 to R354) -/

/-- The event that goes with a refusal of LAYER for BUCKET (R318, R346). -/
def State.layerRefuse (s : State) (c r : Nat) (d : Desc) (n : Nat) : State :=
  (if r = rBUCKET then
    s.log { code := 0x0502, cls := 2, part := s.partOf c, core := some c, disp := d.disp, detail := n } else s).seqRefuse c 0x01 r

/-- LAYER reads `n` bytes at a device physical address as a class: zeros where the read is refused, none where a slot stalls it, the
stall being kept; the slots whose wait has timed out are read as stored (R274, R275). (DESIGN CHOICE, log 133) -/
def State.layerRead (s : State) (c a n cls : Nat) : Option (List Byte) × State :=
  match s.engRead c a n cls (s.core c).seq.asStored with
  | (.stall d k, t) => (none, if t.stalled c .desc then t else t.stallOn c (engStall c d .desc k n))
  | (g, t) => (some (g.orZeros n), t)

/-- LAYER with its descriptor and its program image: the checks in their order, then the descriptor is presented, or waits for a
free context (R346, R351, R352). -/
def State.layerWith (s : State) (c n : Nat) (d : Desc) (p : Prog) : State :=
  let t := s.modSeq c (fun q => { q with asStored := [] })
  match t.layerCause c d n p with
  | some r => t.layerRefuse c r d n
  | none =>
    let x := t.layerCtx c d n
    t.seqWait c (if 2 ≤ ((t.core c).heldCtxs.filter (fun y => !(t.core c).retired y.id)).length then .layerCtx x else .present x)

/-- LAYER's work: it reads the descriptor as class SEQ and the image as class VEC; where a slot stalls one of them it stays at the
read index and is tried again (R274, R275, R346, R351). (DESIGN CHOICE, log 133) -/
def State.layerCmd (s : State) (c : Nat) (w : BitVec 128) : State :=
  let off := fld w 21 8 * 32
  let n := if flag w 22 then s.scalar c (fld w 25 23) % 2 ^ 32 else fld w 57 26
  if !onlyBits w [(8, 50)] then s.seqRefuse c 0x01 rRESV
  else if !spadFits off 256 then s.seqRefuse c 0x01 rADDR
  else match s.layerRead c (spadBase c + off) 256 cSeq with
    | (none, t) => t
    | (some bs, t) =>
      let d : Desc := BitVec.ofNat 2048 (ofLe bs)
      match t.layerRead c (Desc.eprog d) 176 cVec with
      | (none, u) => u
      | (some im, u) => u.layerWith c n d (BitVec.ofNat 1408 (ofLe im))

/-- LAYER reads and checks a descriptor and presents it to its dispenser (R351). -/
def execLayer (c : CoreId) (s : State) : Host.Outcome State Fault Refusal :=
  .next (s.seqRun c.val 0x01 (fun w => s.layerCmd c.val w))

/-- LAYER_CONTEXT_FREE: a LAYER that waited for a free context presents its descriptor (R352). -/
def execLayerContextFree (c : CoreId) (s : State) : Host.Outcome State Fault Refusal :=
  let k := s.core c.val
  match k.seq.wait with
  | .layerCtx x =>
    if s.coreOpen c.val && (k.seq.ctxs.filter (fun y => !k.retired y.id)).length < 2 then
      .next (s.modSeq c.val (fun q => { q with wait := .present x }))
    else .next s
  | _ => .next s

/-! ### Engine commands (R345, R346, R349) -/

/-- A range of `n` bytes from a word address leaves the scratchpad. -/
def leaves (word n : Nat) : Bool := !spadFits (word * 32) n

/-- A converter's field names a format it does not write (R47). -/
def outFmtBad (f : Nat) : Bool := !fmtOk f || isCb f

/-- The cause a VPROG is refused for. (DEDUCED, log 56) -/
def State.vprogCause (s : State) (c : Nat) (w : BitVec 128) : Option Nat :=
  let n := vprogLen w (s.engVlen c .vprog w)
  let conv : Bool := flag w 45
  let wd := fld w 108 93
  firstCause [
    (!onlyBits w [(8, 105)] || !fmtOk (fld w 44 40) || !fmtOk (fld w 67 63) || (conv && isCb (fld w 67 63)) ||
      1 < fld w 69 68 || 1 < fld w 71 70 || fld w 73 72 = 3, rRESV),
    ((vprogImageAt w).any (fun y => !spadFits y.1 y.2) || (vprogSource w (s.engVlen c .vprog w)).any (fun y => !spadFits y.1 y.2) ||
      (conv && (leaves (fld w 62 49) (streamBytes (fld w 67 63) wd n) ||
        (fld w 71 70 = 1 && leaves (fld w 87 74) (streamScales wd n (gsizeOf (fld w 73 72)))))), rADDR),
    (Prog.bad (s.vprogImage c w), rPROG)]

/-- VPROG hands an element program to the vector engine (R349). -/
def execVprog (c : CoreId) (s : State) : Host.Outcome State Fault Refusal :=
  .next (s.seqRun c.val 0x0A (fun w =>
    s.unless c.val 0x0A (s.vprogCause c.val w) (fun s => s.issueJob c.val .vprog w (flag w 112) (s.engVlen c.val .vprog w))))

/-- Records a RAKE writes. -/
def rakeRecords (w : BitVec 128) (n : Nat) : Nat :=
  let k := rowW (fld w 69 54) n
  if fld w 11 8 = 8 then 1 else if flag w 12 then min k n else ceilDiv n k

/-- The cause a RAKE is refused for. (DEDUCED, log 56) -/
def State.rakeCause (s : State) (c : Nat) (w : BitVec 128) : Option Nat :=
  let v := s.engVlen c .rake w
  let n := if flag w 35 then min v 1024 else v
  let op := fld w 11 8
  firstCause [
    (!onlyBits w [(8, 66)] || 8 < op, rRESV),
    ((op = 8 && leaves (fld w 34 21) (48 * n)) || (op ≠ 8 && !flag w 35 && leaves (fld w 34 21) (4 * n)) ||
      leaves (fld w 53 40) (48 * rakeRecords w n), rADDR)]

/-- RAKE hands a reduction to the Rake (R349). -/
def execRake (c : CoreId) (s : State) : Host.Outcome State Fault Refusal :=
  .next (s.seqRun c.val 0x0B (fun w =>
    s.unless c.val 0x0B (s.rakeCause c.val w) (fun s => s.issueJob c.val .rake w (flag w 73) (s.engVlen c.val .rake w))))

/-- The cause a CONV is refused for; a width that R70 forbids under ROT is refused as RESV, and ROT with a pair format is taken.
(DEDUCED, log 56; DESIGN CHOICE, log 125) -/
def State.convCause (s : State) (c : Nat) (w : BitVec 128) : Option Nat :=
  let n := s.engVlen c .conv w
  let wd := fld w 101 86
  let g := gsizeOf (fld w 79 78)
  let ts := streamSels (fld w 40 36) (fld w 42 41 = 1) (fld w 35 22 * 32) wd n g
  firstCause [
    (!onlyBits w [(8, 98)] || !fmtOk (fld w 40 36) || 1 < fld w 42 41 || outFmtBad (fld w 75 71) || 1 < fld w 77 76 ||
      fld w 79 78 = 3 || 1 < fld w 81 80 || fld w 83 82 = 3 || fld w 85 84 = 3 ||
      (fld w 83 82 ≠ 0 && wd % gsizeOf (fld w 85 84) ≠ 0), rRESV),
    (leaves (fld w 21 8) (streamBytes (fld w 40 36) wd n) || (fld w 42 41 = 1 && leaves (fld w 35 22) (streamScales wd n g)) ||
      (isCb (fld w 40 36) && leaves (fld w 35 22) (ts.1 + ts.2)) ||
      leaves (fld w 56 43) (streamBytes (fld w 75 71) wd n) || (fld w 77 76 = 1 && leaves (fld w 70 57) (streamScales wd n g)), rADDR),
    (fld w 83 82 ≠ 0 && (s.curCtx c).isNone, rNOLAYER)]

/-- CONV hands a format conversion to the converter (R349). -/
def execConv (c : CoreId) (s : State) : Host.Outcome State Fault Refusal :=
  .next (s.seqRun c.val 0x0C (fun w =>
    s.unless c.val 0x0C (s.convCause c.val w) (fun s => s.issueJob c.val .conv w (flag w 105) (s.engVlen c.val .conv w))))

/-- The descriptor address a DMA command names (R349). -/
def dmaAddr (c : Nat) (w : BitVec 128) : Nat := if flag w 12 then spadBase c + 32 * fld w 26 13 else fld w 60 13

/-- The DMA command starts its channel: DMA_CHn_DESC takes the address first (R305, R349). -/
def State.dmaStart (s : State) (c : Nat) (w : BitVec 128) : State :=
  (s.setRg64 .dmaDesc c (fld w 11 8) 0 (dmaAddr c w)).startChain c (fld w 11 8) (dmaAddr c w)

/-- DMA's work: it starts its channel, or waits for it and starts when asked again once the channel is free (R349).
(DESIGN CHOICE, log 55) -/
def State.dmaCmd (s : State) (c : Nat) : State :=
  if (s.core c).seq.wait = .channel then
    let w := s.fetchWord c
    if s.coreOpen c && fld w 7 0 = 0x0D && s.chanFree c (fld w 11 8) then (s.dmaStart c w).seqDone c else s
  else s.seqRun c 0x0D (fun w =>
    s.unless c 0x0D (firstCause [(!onlyBits w (if flag w 12 then [(8, 19)] else [(8, 53)]), rRESV),
        (flag w 12 && leaves (fld w 26 13) 64, rADDR)]) (fun s =>
      if s.chanFree c (fld w 11 8) then (s.dmaStart c w).seqGoOn c else s.seqWait c .channel))

/-- DMA starts a channel on a descriptor (R349). -/
def execDma (c : CoreId) (s : State) : Host.Outcome State Fault Refusal := .next (s.dmaCmd c.val)

/-- SORT hands a sorting of rows into buckets to its engine (R207, R349). -/
def execSort (c : CoreId) (s : State) : Host.Outcome State Fault Refusal :=
  .next (s.seqRun c.val 0x15 (fun w =>
    let rows := fld w 99 68
    let nb := fld w 39 36 + 1
    s.unless c.val 0x15 (firstCause [(!onlyBits w [(8, 92)], rRESV),
        (leaves (fld w 21 8) (4 * (rows + 1)) || leaves (fld w 35 22) (4 * nb) || leaves (fld w 53 40) (4 * rows) ||
          leaves (fld w 67 54) (4 * nb), rADDR)])
      (fun s => s.issueJob c.val .sort w false 0)))

/-- MERGE hands a merge of runs to the merge tree; an output past DLEN refuses it (R203, R349). -/
def execMerge (c : CoreId) (s : State) : Host.Outcome State Fault Refusal :=
  .next (s.seqRun c.val 0x16 (fun w =>
    let short := onlyBits w [(8, 45)]
    s.unless c.val 0x16 (firstCause [(!short, rRESV),
        (leaves (fld w 21 8) 16 || leaves (fld w 38 25) (fld w 52 39 * 32) ||
          (s.mergeRanges c.val w).any (fun x => !spadFits x.1 x.2) || s.mergeLong c.val w, rADDR)])
      (fun s => s.issueJob c.val .merge w false 0)))

/-! ### NOP, WAITSLOT, SIGNAL (R350, R360, R361) -/

/-- NOP only advances the sequencer (R350). -/
def execNop (c : CoreId) (s : State) : Host.Outcome State Fault Refusal :=
  .next (s.seqRun c.val 0x00 (fun w => s.unless c.val 0x00 (if onlyBits w [] then none else some rRESV) (·.seqGoOn c.val)))

/-- The slot of a WAITSLOT is in the state it wants. (DEDUCED, log 68) -/
def State.slotWanted (s : State) (c : Nat) (w : BitVec 128) : Bool :=
  let st := (s.slot c (fld w 13 8)).st
  if flag w 14 then st = .empty else st = .full || st = .draining

/-- WAITSLOT completes: it loads, releases, and clears TO (R360). (DEDUCED, log 68) -/
def State.waitslotEnd (s : State) (c : Nat) (w : BitVec 128) : State :=
  let n := fld w 13 8
  let off := s.slotOff c n + fld w 33 20 * 32 + 8 * fld w 35 34
  let t := if flag w 16 then
      let (r, u) := s.spadRead c off 8 cSeq [slotKey c n]
      u.setScalar c (fld w 19 17) (ofLe (r.bytes 8))
    else s
  (if flag w 15 then t.slotRelease c n cSeq else t).modSeq c (fun q => { q with tout := false })

/-- WAITSLOT's work. -/
def State.waitslotCmd (s : State) (c : Nat) (w : BitVec 128) : State :=
  let n := fld w 13 8
  s.unless c 0x0E (firstCause [(!onlyBits w [(8, 28)], rRESV),
      (!s.declared c n || (flag w 16 && (s.slotWords c n).2 ≤ fld w 33 20), rADDR)]) (fun s =>
    if s.slotWanted c w then (s.waitslotEnd c w).seqGoOn c
    else (s.seqWait c (.slot n)).stallOn c { who := .seq, slot := n, wr := flag w 14, off := 0, len := 0, data := [] })

/-- WAITSLOT waits for a slot's state (R360). -/
def execWaitslot (c : CoreId) (s : State) : Host.Outcome State Fault Refusal :=
  .next (s.seqRun c.val 0x0E (fun w => s.waitslotCmd c.val w))

/-- WAITSLOT_RESUME: the slot has reached the state that the waiting WAITSLOT wants (R360). -/
def execWaitslotResume (c : CoreId) (s : State) : Host.Outcome State Fault Refusal :=
  let c := c.val
  match (s.core c).seq.wait with
  | .slot _ =>
    let w := s.fetchWord c
    if s.coreOpen c && s.slotWanted c w then .next (((s.unstall c (· = .seq)).waitslotEnd c w).seqDone c) else .next s
  | _ => .next s

/-- SIGNAL of a kind does `f` on its slot; one of another kind is left alone (R350). -/
def State.signalCmd (s : State) (c kind : Nat) (f : State → Nat → BitVec 128 → State) : State :=
  s.seqRun c 0x0F (fun w =>
    if fld w 9 8 ≠ kind then s
    else s.unless c 0x0F (firstCause [(!onlyBits w [(8, 29)], rRESV),
        ((kind < 2 || flag w 36) && !s.declared c (fld w 15 10), rADDR)])
      (fun s => (f s (fld w 15 10) w).seqGoOn c))

/-- A SIGNAL transaction to a core of this device or to another device (R285, R361, R422); a remote one uses the sender's own
declaration of the slot for its first word. (DEDUCED, log 66) -/
def State.signalRemote (s : State) (c n : Nat) (full : Bool) (w : BitVec 128) : State :=
  let d := fld w 23 16
  if flag w 36 then
    let dev := fld w 35 24
    if s.mayOriginate (some c) dev then
      (s.modSeq c (fun q => { q with sigs := q.sigs + 1 })).request
        { typ := tSignal, dst := dev, src := 0, addr := spadBase d + s.slotOff c n, status := b2n (!full) } (.signal c) 0
    else s.coreEvent c 0x0803 2 dev
  else (s.inSignal (coreReq c) d (s.slotOff d n) full).2

/-- SIGNAL FULL makes the slot FULL (R361). -/
def execSignalFull (c : CoreId) (s : State) : Host.Outcome State Fault Refusal :=
  .next (s.signalCmd c.val 0 (fun s n _ => s.slotFull c.val n))
/-- SIGNAL RELEASE releases the slot for class SEQ (R361). -/
def execSignalRelease (c : CoreId) (s : State) : Host.Outcome State Fault Refusal :=
  .next (s.signalCmd c.val 1 (fun s n _ => s.slotRelease c.val n cSeq))
/-- SIGNAL remote FULL (R361). -/
def execSignalRemoteFull (c : CoreId) (s : State) : Host.Outcome State Fault Refusal :=
  .next (s.signalCmd c.val 2 (fun s n w => s.signalRemote c.val n true w))
/-- SIGNAL remote RELEASE (R361). -/
def execSignalRemoteRelease (c : CoreId) (s : State) : Host.Outcome State Fault Refusal :=
  .next (s.signalCmd c.val 3 (fun s n w => s.signalRemote c.val n false w))

/-! ### FENCE (R363) -/

/-- A channel's chain still has remote writes to send, or some that are not acknowledged: those to another device, and to another
core's scratchpad (R272, R284). (DEDUCED, log 66) -/
def State.chanRemote (s : State) (c ch : Nat) : Bool :=
  let x := s.chan c ch
  let d := x.desc
  x.use_ = .chain && (x.acks ≠ 0 || ((x.st = .run || x.st = .wait) &&
    (!x.loaded || ddDrem d || ddChain d || (match whereIs (ddDst d) with | .spad e _ => e ≠ c | _ => false))))

/-- Every SIGNAL and remote write of the core is acknowledged (R363). (DEDUCED, log 66) -/
def State.sigsDone (s : State) (c : Nat) : Bool :=
  (s.core c).seq.sigs = 0 &&
  s.tch.reqs.all (fun r => r.read || (match r.for_ with | .dma d _ => d ≠ c | .signal d => d ≠ c)) &&
  (upTo 16).all (fun ch => !s.chanRemote c ch)

/-- The conditions of a FENCE's own core hold. (DEDUCED, log 66) -/
def State.fenceOwn (s : State) (c : Nat) (w : BitVec 128) : Bool :=
  let k := s.core c
  (!flag w 8 || (setBitsOf 16 (fld w 31 16)).all (s.chanFree c)) &&
  (!flag w 9 || (upTo 8).all (fun h => (k.tile h).oslot.isNone || ((k.tile h).outSt = .ended && !s.stalled c (.out h)))) &&
  (!flag w 10 || s.sigsDone c) && (!flag w 11 || k.seq.reds = 0) &&
  (!flag w 12 || k.busyHandles.all (fun h => some (k.tile h).ctx = (s.curCtx c).map (·.id)))

/-- Cores that take part in a partition's barriers: those neither fenced nor disabled. (DEDUCED, log 67) -/
def State.barrierCores (s : State) (c : Nat) : List Nat :=
  match s.partOf c with
  | some p => (s.coresOf p).filter (fun d => (s.core d).cst ≠ .fenced && (s.core d).cst ≠ .disabled)
  | none => [c]

/-- Every other core has reached the barrier that core `c` waits at. (DEDUCED, log 67) -/
def State.barrierMet (s : State) (c : Nat) : Bool :=
  (s.barrierCores c).all (fun d => d = c ||
    let q := (s.core d).seq
    (s.core c).seq.barriers < q.barriers || (q.barriers = (s.core c).seq.barriers && q.atBarrier))

/-- A FENCE that waits: its core's conditions, then the barrier, then it completes. -/
def State.fenceTry (s : State) (c : Nat) : State :=
  let w := s.fetchWord c
  if !(s.core c).seq.atBarrier && !s.fenceOwn c w then s
  else if !flag w 13 then s.seqDone c
  else
    let t := s.modSeq c (fun q => { q with atBarrier := true })
    if t.barrierMet c then (t.modSeq c (fun q => { q with atBarrier := false, barriers := q.barriers + 1 })).seqDone c else t

/-- FENCE: the fence arrives, and completes at once where its conditions hold and it names no barrier (R363). -/
def execFence (c : CoreId) (s : State) : Host.Outcome State Fault Refusal :=
  .next (s.seqRun c.val 0x10 (fun w =>
    s.unless c.val 0x10 (if onlyBits w [(8, 6), (16, 16)] then none else some rRESV) (fun s =>
      (s.seqWait c.val .fence).fenceTry c.val)))

/-- FENCE_RELEASE: the waiting fence looks at its conditions and at its partition's barrier (R363). -/
def execFenceRelease (c : CoreId) (s : State) : Host.Outcome State Fault Refusal :=
  if s.coreOpen c.val && (s.core c.val).seq.wait = .fence then .next (s.fenceTry c.val) else .next s

/-! ### BRANCH and LOOP (R365, R366) -/

/-- The condition of a BRANCH holds. -/
def State.branchHolds (s : State) (c : Nat) (w : BitVec 128) : Bool :=
  let lsb := fld w 23 18
  let wid := fld w 29 24 + 1
  let f := bits (s.scalar c (fld w 14 12)) lsb wid
  let g := bits (s.scalar c (fld w 17 15)) lsb wid
  let imm := fld w 69 38
  match fld w 11 8 with
  | 0 => true
  | 1 => f = imm
  | 2 => f ≠ imm
  | 3 => f < imm
  | 4 => imm ≤ f
  | 5 => f = g
  | 6 => f ≠ g
  | 7 => (s.core c).seq.tout
  | 8 => (s.rg .vecSflg c).toNat.testBit 0
  | 9 => (s.rg .vecScnt c).toNat = 0
  | 10 => (f32 (BitVec.ofNat 32 imm)).lt (f32 (s.rg .vecSmax c))
  | _ => false

/-- Every VPROG and RAKE issued before is complete. -/
def State.enginesDone (s : State) (c : Nat) : Bool := (s.core c).seq.jobs.all (fun j => j.eng ≠ .vprog && j.eng ≠ .rake)

/-- The next command after a BRANCH. -/
def State.branchNext (s : State) (c : Nat) (w : BitVec 128) : Nat :=
  if s.branchHolds c w then fld w 37 30 else (s.core c).seq.rd + 1

/-- BRANCH's work: it jumps or goes on; a condition on a summary waits for the engines (R350, R365).
(DESIGN CHOICE, log 55) -/
def State.branchCmd (s : State) (c : Nat) : State :=
  if (s.core c).seq.wait = .branch then
    if s.coreOpen c && s.enginesDone c then
      let n := s.branchNext c (s.fetchWord c)
      s.seqDoneAt c n
    else s
  else s.seqRun c 0x11 (fun w =>
    let cond := fld w 11 8
    s.unless c 0x11 (if !onlyBits w [(8, 62)] || 0xA < cond || 63 < fld w 23 18 + fld w 29 24 then some rRESV else none) (fun s =>
      if 8 ≤ cond && !s.enginesDone c then s.seqWait c .branch
      else (s.issued c).setRd c (s.branchNext c w)))

/-- BRANCH jumps where its condition holds (R365). -/
def execBranch (c : CoreId) (s : State) : Host.Outcome State Fault Refusal := .next (s.branchCmd c.val)

/-- LOOP, either form, on its fetched word. -/
def State.loopCmd (s : State) (c : Nat) (end_ : Bool) (f : State → BitVec 128 → State) : State :=
  s.seqRun c 0x12 (fun w =>
    if flag w 10 ≠ end_ then s
    else s.unless c 0x12 (if onlyBits w [(8, 39)] then none else some rRESV) (fun s => f s w))

/-- LOOP START sets the next counter and records its start (R366). -/
def execLoopStart (c : CoreId) (s : State) : Host.Outcome State Fault Refusal :=
  .next (s.loopCmd c.val false (fun s w =>
    let q := (s.core c.val).seq
    let n := if flag w 11 then s.scalar c.val (fld w 14 12) % 2 ^ 32 else fld w 46 15
    if q.loops.length ≠ fld w 9 8 || n = 0 then s.seqRefuse c.val 0x12 rLOOP
    else (s.modSeq c.val (fun q => { q with loops := q.loops ++ [{ cnt := n, start := (q.rd + 1) % 256 }] })).seqGoOn c.val))

/-- LOOP END counts the innermost loop down, and jumps to its start or ends it (R366). -/
def execLoopEnd (c : CoreId) (s : State) : Host.Outcome State Fault Refusal :=
  .next (s.loopCmd c.val true (fun s w =>
    let q := (s.core c.val).seq
    match q.loops.getLast? with
    | none => s.seqRefuse c.val 0x12 rLOOP
    | some l =>
      if q.loops.length ≠ fld w 9 8 + 1 then s.seqRefuse c.val 0x12 rLOOP
      else if 1 < l.cnt then
        ((s.issued c.val).modSeq c.val (fun q => { q with loops := q.loops.dropLast ++ [{ l with cnt := l.cnt - 1 }] })).setRd
          c.val l.start
      else (s.modSeq c.val (fun q => { q with loops := q.loops.dropLast })).seqGoOn c.val))

/-! ### EVENT and HALT (R366) -/

/-- EVENT raises SEQ_USER to the owning session and the log (R366, R542). -/
def execEvent (c : CoreId) (s : State) : Host.Outcome State Fault Refusal :=
  .next (s.seqRun c.val 0x18 (fun w =>
    s.unless c.val 0x18 (if onlyBits w [(8, 84)] then none else some rRESV) (fun s =>
      let v := if flag w 27 then s.scalar c.val (fld w 26 24) else fld w 91 28
      (s.log { code := 0x0504, cls := 0, part := s.partOf c.val, session := s.ownerOf c.val, core := some c.val,
               detail := pack [(16, fld w 23 8), (48, v)] }).seqGoOn c.val)))

/-- HALT raises SEQ_HALT and enters HALTED without FAULT, behind itself in the ring (R342, R366). -/
def execHalt (c : CoreId) (s : State) : Host.Outcome State Fault Refusal :=
  .next (s.seqRun c.val 0x19 (fun w =>
    s.unless c.val 0x19 (if onlyBits w [(8, 16)] then none else some rRESV) (fun s =>
      (((s.log { code := 0x0505, cls := 0, part := s.partOf c.val, session := s.ownerOf c.val, core := some c.val,
                 detail := fld w 23 8 }).seqGoOn c.val).modSeq c.val (fun q => { q with halted := true })).writeRd c.val)))

/-! ### GO, STOP, CLR (R367, R369) -/

/-- GO: FAULT clears and the sequencer resumes; while it is not HALTED, while DFAULT stands and on a DISABLED core the write is
dropped with an access event, likewise on a core that no partition has, which stays HALTED (R380, R538, R548). (DEDUCED, log 68) -/
def State.seqGoAct (s : State) (r : Req) (c : Nat) : State :=
  if (s.core c).seq.halted && !s.evt.dfault && (s.core c).cst ≠ .disabled && (s.partOf c).isSome then s.modSeq c (fun q => { q with halted := false, fault := false })
  else s.access r (regAddr .seqCtrl c 0 0)

/-- STOP: WAITSLOT's wait ends with the read index at it; another blocking command completes first (R367). -/
def State.seqStopAct (s : State) (c : Nat) : State :=
  match (s.core c).seq.wait with
  | .none => s.modSeq c (fun q => { q with halted := true })
  | .slot _ => (s.unstall c (· = .seq)).modSeq c (fun q => { q with wait := .none, halted := true })
  | _ => s.modSeq c (fun q => { q with stop := true })

/-- CLR while HALTED: both indices 0, loops and TO cleared (R369). (DEDUCED, log 68) -/
def State.seqClrAct (s : State) (c : Nat) : State :=
  if (s.core c).seq.halted then s.modSeq c (fun q => { q with rd := 0, wr := 0, loops := [], tout := false }) else s

/-- SEQ_GO. -/
def execSeqGo (r : Req) (c : CoreId) (s : State) : Host.Outcome State Fault Refusal :=
  .next (s.atReg r .seqCtrl c.val 0 (·.seqGoAct r c.val))
/-- SEQ_STOP. -/
def execSeqStop (r : Req) (c : CoreId) (s : State) : Host.Outcome State Fault Refusal :=
  .next (s.atReg r .seqCtrl c.val 0 (·.seqStopAct c.val))
/-- SEQ_CLR. -/
def execSeqClr (r : Req) (c : CoreId) (s : State) : Host.Outcome State Fault Refusal :=
  .next (s.atReg r .seqCtrl c.val 0 (·.seqClrAct c.val))

end Sys2Proof.Machine
end

