-- ==== Sys2Proof/Machine/Tchiuth.lean ====
section
/-! DEFINITION. The Tchiuth links: flits, packets, training, routing, remote accesses and the messages of reduction groups (R414 to
R438, R442). -/
namespace Sys2Proof.Machine

/-! ### Flits in (R414, R415) -/

/-- The packets that a byte stream holds whole, and the bytes of one that has begun. A header of zeros is padding. -/
def packetsOf : Nat → List Byte → List (List Byte × List Byte) × List Byte
  | 0, bs => ([], bs)
  | fuel + 1, bs =>
    if bs.length < 32 then (if bs.all (· = 0) then ([], []) else ([], bs))
    else if (bs.take 32).all (· = 0) then ([], [])
    else
      let n := payloadLen bs
      if bs.length < 32 + n then ([], bs)
      else
        let y := packetsOf fuel (bs.drop (32 + n))
        ((bs.take 32, (bs.drop 32).take n) :: y.1, y.2)

/-- The packets and the rest that a flit's stream makes with what the port holds: a packet under way goes on, and the next starts
where FIRST says. -/
def Port.takeStream (p : Port) (first : Nat) (stream : List Byte) : List (List Byte × List Byte) × List Byte :=
  if p.rxBuf.isEmpty then
    if first = 0xFF then ([], []) else packetsOf 8 (stream.drop (first - 8))
  else packetsOf 9 (p.rxBuf ++ stream)

/-- A packet that reaches the packet layer: queued, or dropped and counted (R421). -/
def State.packetIn (s : State) (p : Nat) (h payload : List Byte) : State :=
  let k := parseHeader h payload
  if knownType k.typ && headerClean h k.typ && k.src ≠ s.devId then s.modPort p (fun x => { x with rxq := x.rxq ++ [k] })
  else s.count .tchBadpkt 0 0 1

/-- Position of a flit's number among those kept. -/
def ackIndex (seq : Nat) (l : List Flit) : Option Nat := (upTo l.length).find? (fun i => (l.map (·.seq))[i]? = some seq)
/-- Flits that an acknowledgement covers leave the sender (R415). -/
def Port.acked (p : Port) (seq : Nat) : Port :=
  match ackIndex seq p.unacked with
  | some i => { p with unacked := p.unacked.drop (i + 1) }
  | none => p

/-- Every kept flit is sent again; one sent 8 times already takes the port DOWN with RETRY, and it retrains (R415). -/
def State.resend (s : State) (p : Nat) : State :=
  let fl := (s.port p).unacked
  if fl.any (8 ≤ ·.sent) then s.portDown p 5 .training
  else
    let t := (s.modPort p (fun x => { x with unacked := x.unacked.map (fun f => { f with sent := f.sent + 1 }) })).count
      .tchRetry 0 p fl.length
    t.each fl (fun u f => u.send (.flit p f.bytes))

/-- A flit without packet bytes: an acknowledgement, or a NAK (R414, R415; DESIGN CHOICE, log 18). -/
def State.sendAck (s : State) (p : Nat) (nak : Bool) : State :=
  let x := s.port p
  s.send (.flit p (mkFlit ((x.txSeq + 65535) % 65536) x.ackOf x.rxAny nak 0xFF []))

/-- A flit without error: what it acknowledges, the credits it returns, and its packets when it comes in order.
(DESIGN CHOICE, log 58) -/
def State.goodFlit (s : State) (p : Nat) (flit : List Byte) : State :=
  let w := leAt flit 0 8
  let ackv := w.testBit 32
  let s1 := s.modPort p (fun x =>
    let y := if ackv then x.acked (bits w 16 16) else x
    { y with credits := Sparse.upd 0 y.credits (bits w 42 3) (· + bits w 45 12) })
  let s2 := if w.testBit 33 then s1.resend p else s1
  let x := s2.port p
  if x.st = .up && bits w 0 16 = x.rxSeq then
    let y := x.takeStream (bits w 34 8) ((flit.drop 8).take 244)
    let t := s2.modPort p (fun x => { x with rxSeq := (x.rxSeq + 1) % 65536, rxAny := true, rxBuf := y.2 })
    (t.each y.1 (fun u k => u.packetIn p k.1 k.2)).sendAck p false
  else s2

/-- FLIT_RECEIVE: checked and taken, or discarded with NAK (R414, R415). -/
def execFlitReceive (p : PortId) (flit : List Byte) (fecCorrected fecUncorrectable : Bool) (s : State) :
    Host.Outcome State Fault Refusal :=
  if flit.length ≠ 256 then .fault .malformedOperand
  else if (s.port p.val).st ≠ .up then .next s
  else
    let s1 := if fecCorrected then s.count .tchFeccor 0 p.val 1 else s
    if fecUncorrectable then .next ((s1.count .tchFecunc 0 p.val 1).sendAck p.val true)
    else if crc32 (flit.take 252) ≠ leAt flit 252 4 then .next ((s1.count .tchCrcerr 0 p.val 1).sendAck p.val true)
    else .next (s1.goodFlit p.val flit)

/-- FLIT_RETRY_TIMEOUT: no acknowledgement within 1 us (R415). -/
def execFlitRetryTimeout (p : PortId) (s : State) : Host.Outcome State Fault Refusal :=
  if (s.port p.val).st = .up && !(s.port p.val).unacked.isEmpty then .next (s.resend p.val) else .next s

/-! ### Training (R416, R417, R442, R554) -/

/-- TCH_RETRAIN. -/
def execTchRetrain (r : Req) (p : PortId) (s : State) : Host.Outcome State Fault Refusal :=
  .next (s.atReg r .tchCtrl 0 p.val (·.portTrain p.val))
/-- TCH_DISABLE: DOWN with ERR DISABLED until RETRAIN. -/
def execTchDisable (r : Req) (p : PortId) (s : State) : Host.Outcome State Fault Refusal :=
  .next (s.atReg r .tchCtrl 0 p.val (·.portDown p.val 6 .down))

/-- What a trained link is refused for: PEER, TOPO, RTT (R416). (DEDUCED, log 80) -/
def State.trainErr (s : State) (p peer port topo rtt : Nat) : Nat :=
  let e := s.portCfg p
  if peer ≠ fld e 19 8 || port ≠ fld e 22 20 then 2
  else if topo ≠ (s.rg .tchTopo).toNat % 4096 then 3
  else if 300 < rtt then 4
  else 0

/-- Training fails: the port tries again up to 3 times, then stays FAILED (R416). (DEDUCED, log 80) -/
def State.trainFail (s : State) (p err : Nat) : State :=
  s.modPort p (fun x => { x with err := err, tries := x.tries + 1, st := if x.tries < 3 then .training else .failed })

/-- TCH_TRAIN_DONE. (DEDUCED, log 80) -/
def execTchTrainDone (p : PortId) (t : TrainResult) (s : State) : Host.Outcome State Fault Refusal :=
  let p := p.val
  if (s.port p).st ≠ .training then .next s
  else match t with
    | .phyFail => .next (s.trainFail p 1)
    | .up peer port topo rtt =>
      let s1 := s.modPort p (fun x => { x with peer := peer.val, peerPort := port.val, rtt := min rtt 511 })
      match s1.trainErr p peer.val port.val topo.toNat rtt with
      | 0 => .next ((s1.modPort p (fun x => { x with st := .up, err := 0, tries := 0 })).log
               { code := 0x0801, cls := 0, part := s.portPart p, detail := p })
      | e + 1 => .next (s1.trainFail p (e + 1))

/-- TCH_LINK_DOWN: a port that was UP goes DOWN (R417). (DEDUCED, log 80) -/
def execTchLinkDown (p : PortId) (s : State) : Host.Outcome State Fault Refusal :=
  if (s.port p.val).st = .up then .next (s.portDown p.val 1 .down) else .next s

/-! ### The packet at the head of a port's queue -/

/-- The oldest packet a port has delivered, its type as asked and this device its destination; with it the state after it is
taken. (DEDUCED, log 82) -/
def State.headPacket (s : State) (p typ : Nat) : Option (Packet × State) :=
  match (s.port p).rxq with
  | k :: rest =>
    if k.typ = typ && k.dst = s.devId then some (k, s.modPort p (fun x => { x with rxq := rest })) else none
  | [] => none

/-- A command that handles the packet at the head. -/
def State.onPacket (s : State) (p : PortId) (typ : Nat) (f : Packet → State → State) : Host.Outcome State Fault Refusal :=
  match s.headPacket p.val typ with
  | some (k, t) => .next (f k t)
  | none => .next s

/-- A packet dropped and counted. (DEDUCED, log 81) -/
def State.badPacket (s : State) : State := s.count .tchBadpkt 0 0 1

/-- TCH_FORWARD: a packet for another device goes on by its route; a request that cannot is answered NACK NOROUTE (R418, R422). -/
def execTchForward (p : PortId) (s : State) : Host.Outcome State Fault Refusal :=
  match (s.port p.val).rxq with
  | [] => .next s
  | k :: rest =>
    if k.dst = s.devId then .next s
    else
      let t := s.modPort p.val (fun x => { x with rxq := rest })
      let no := if k.typ = tWrite || k.typ = tRead || k.typ = tSignal then t.respondRemote k.src k.tag tNack 2 [] else t
      match t.route k.dst with
      | none => .next no
      | some q => .next (if (t.port q).st = .up && t.inTopo k.dst then t.sendPacket q k else no)

/-! ### Requests from other devices (R423, R424) -/

/-- A remote requester. -/
def remoteReq (d : Nat) : Req := .remote (Fin.ofNat 4096 d)

/-- A remote data access to a scratchpad; any other address is refused (R287, R423, R424). -/
def State.remoteData (s : State) (k : Packet) (x : Option (List Byte)) : State :=
  match whereIs k.addr with
  | .spad c off => s.inData (remoteReq k.src) c off x k.len (some k.tag) 0
  | _ => s.respondRemote k.src k.tag tNack 1 []

/-- TCH_WRITE. -/
def execTchWrite (p : PortId) (s : State) : Host.Outcome State Fault Refusal :=
  s.onPacket p tWrite (fun k t => t.remoteData k (some k.payload))
/-- TCH_READ. -/
def execTchRead (p : PortId) (s : State) : Host.Outcome State Fault Refusal :=
  s.onPacket p tRead (fun k t => t.remoteData k none)

/-- A remote SIGNAL (R361, R423). (DEDUCED, log 66) -/
def State.remoteSignal (s : State) (k : Packet) : State :=
  match whereIs k.addr with
  | .spad c off =>
    let y := s.inSignal (remoteReq k.src) c off (!k.status.testBit 0)
    y.2.respondRemote k.src k.tag (if y.1 then tSack else tNack) (if y.1 then 0 else 1) []
  | _ => s.respondRemote k.src k.tag tNack 1 []
/-- TCH_SIGNAL. -/
def execTchSignal (p : PortId) (s : State) : Host.Outcome State Fault Refusal :=
  s.onPacket p tSignal (fun k t => t.remoteSignal k)

/-! ### Responses to this device's requests (R421, R423) -/

/-- The outstanding request that a response answers. -/
def State.reqOf (s : State) (k : Packet) : Option OutReq := s.tch.reqs.find? (fun q => q.tag = k.tag && q.dst = k.src)
/-- A request is no longer outstanding. -/
def State.endReq (s : State) (q : OutReq) : State := { s with tch := { s.tch with reqs := s.tch.reqs.erase q } }

/-- A write of a channel is acknowledged (R284). -/
def State.wacked (s : State) (q : OutReq) : State :=
  match q.for_, q.read with
  | .dma c ch, false =>
    let t := (s.endReq q).modChan c ch (fun x => { x with acks := x.acks - 1 })
    if (t.chan c ch).sent && (t.chan c ch).acks = 0 then t.rowEnd c ch else t
  | _, _ => s
/-- TCH_WACK; a late one is dropped. -/
def execTchWack (p : PortId) (s : State) : Host.Outcome State Fault Refusal :=
  s.onPacket p tWack (fun k t => match t.reqOf k with | some q => t.wacked q | none => t)

/-- Bytes put at a place of a list. -/
def putAt (l : List Byte) (pos : Nat) (bs : List Byte) : List Byte :=
  l.take pos ++ zeros (pos - l.length) ++ bs ++ l.drop (pos + bs.length)

/-- Data of a row of ZENC or ZDEC joins what has come of the row; the last of it lets the row go on. (DEDUCED, log 122) -/
def State.gathered (s : State) (q : OutReq) (c ch : Nat) (bs : List Byte) : State :=
  let v := ((s.endReq q).mesh c none bs.length).modChan c ch (fun x => { x with acks := x.acks - 1, rbuf := putAt x.rbuf q.dest bs })
  if (v.chan c ch).acks = 0 then v.gatherRow c ch else v

/-- A read's data is written at its destination; the last of a row ends the row (R278, R284). A write that stalls leaves the packet
waiting. (DEDUCED, log 51; DEDUCED, log 82) -/
def State.readBack (s t : State) (q : OutReq) (bs : List Byte) : State :=
  match q.for_, q.read with
  | .dma c ch, true =>
    if ddOp (t.chan c ch).desc ≠ 0 then t.gathered q c ch bs
    else (match t.dmaPut c ch q.dest (ddHint (t.chan c ch).desc) bs with
      | (true, u) =>
        let v := ((u.endReq q).mesh c none bs.length).modChan c ch (fun x => { x with acks := x.acks - 1 })
        if (v.chan c ch).acks = 0 then v.rowDone c ch else v
      | (false, u) =>
        if (u.chan c ch).st = .halted then u.dropReqs c ch
        else if s.stalled c (.dma ch) then s
        else s.modCore c (fun _ => u.core c))
  | _, _ => t
/-- TCH_RDATA; a late one is dropped. (DEDUCED, log 52) -/
def execTchRdata (p : PortId) (s : State) : Host.Outcome State Fault Refusal :=
  s.onPacket p tRdata (fun k t => match t.reqOf k with | some q => s.readBack t q k.payload | none => t)

/-- TCH_SACK: a SIGNAL is acknowledged (R363). -/
def execTchSack (p : PortId) (s : State) : Host.Outcome State Fault Refusal :=
  s.onPacket p tSack (fun k t => match t.reqOf k with
    | some q => (match q.for_ with
      | .signal c => (t.endReq q).modSeq c (fun x => { x with sigs := x.sigs - 1 })
      | .dma _ _ => t)
    | none => t)

/-- A request ends at its requester as a refusal, after the event of the refusal itself (R283, R423). (DEDUCED, log 53) -/
def State.reqRefused (s : State) (q : OutReq) (code detail : Nat) : State :=
  match q.for_ with
  | .dma c ch =>
    let t := (s.endReq q).coreEvent c code 2 detail
    if t.chanFree c ch then t else (t.dropReqs c ch).chanFault c ch q.addr
  | .signal c => ((s.endReq q).coreEvent c code 2 detail).modSeq c (fun x => { x with sigs := x.sigs - 1 })

/-- TCH_NACK: WINDOW_REFUSED, or TCH_NOROUTE (R422, R423). -/
def execTchNack (p : PortId) (s : State) : Host.Outcome State Fault Refusal :=
  s.onPacket p tNack (fun k t => match t.reqOf k with
    | some q => if k.status = 2 then t.reqRefused q 0x0803 q.dst else t.reqRefused q 0x0405 q.addr
    | none => t)

/-- TCH_TIMEOUT: no response within 2^TOEXP us (R423). -/
def execTchTimeout (tag : Fin 65536) (s : State) : Host.Outcome State Fault Refusal :=
  match s.tch.reqs.find? (·.tag = tag.val) with
  | some q => .next (s.reqRefused q 0x0804 (pack [(12, q.dst), (4, 0), (16, q.tag)]))
  | none => .next s

/-! ### Reduction messages (R425 to R433, R438) -/

/-- A reduction message at its group: one with another TDIGEST aborts the epoch with TREE; one of no group, of another epoch than
the open one, or from no neighbour of the tree on that side is dropped and counted (R425, R426). (DEDUCED, log 81) -/
def State.onGroup (s : State) (k : Packet) (fromParent : Bool) (f : Group → State) : State :=
  let x := s.group k.grp
  if !x.valid then s.badPacket
  else if k.tdigest ≠ x.tdigest then s.abortGroup k.grp cauTREE false
  else if x.st ≠ .opened || k.epoch ≠ x.epoch then s.badPacket
  else if fromParent && k.src ≠ x.parent || !fromParent && !x.kids.any (·.1 = k.src) then s.badPacket
  else f x

/-- The outputs of a SUM or RESULT; none where the payload does not fit what the header says. -/
def outsOf (k : Packet) : Option (List Acc) :=
  let w := wordBytes k.regime
  if k.regime = 3 || k.payload.length ≠ (k.cntm1 + 1) * (w + 2) then none
  else some ((upTo (k.cntm1 + 1)).map (fun i =>
    Acc.ofWord k.regime (leAt k.payload (i * (w + 2)) w) (sext 16 (leAt k.payload (i * (w + 2) + w) 2)) 0))

/-- The round and the outputs of a SUM or RESULT lie within the epoch's tiles and slots (R427). -/
def State.inArea (s : State) (k : Packet) : Bool :=
  s.tbase k.grp ≤ k.tile && k.tile < s.tbase k.grp + s.tcount k.grp &&
  slotNeed (k.first + k.cntm1 + 1) k.regime ≤ s.slotb k.grp

/-- A SUM from a child joins the slot (R429, R430). Its count is taken with its first output. (DEDUCED, log 81) -/
def State.sumIn (s : State) (k : Packet) : State :=
  match outsOf k with
  | none => s.badPacket
  | some xs =>
    if !s.inArea k then s.badPacket
    else
      let t := s.arrival k.grp k.tile k.first k.ptag k.regime k.flags (if k.first = 0 then k.gcnt else 0) xs
      let u := t.modRound k.grp k.tile (fun r => { r with got := Sparse.upd 0 r.got k.src (· + xs.length) })
      u.roundStep k.grp k.tile
/-- TCH_SUM. -/
def execTchSum (p : PortId) (s : State) : Host.Outcome State Fault Refusal :=
  s.onPacket p tSum (fun k t => t.onGroup k false (fun _ => t.sumIn k))

/-- A RESULT from the parent overwrites the slot; with its last output the member stages it (R431). (DEDUCED, log 81) -/
def State.resultIn (s : State) (k : Packet) : State :=
  match outsOf k, (s.group k.grp).round k.tile with
  | some xs, some r =>
    if r.staged || !s.inArea k then s.badPacket
    else
      let n := r.resGot + xs.length
      let t := s.modRound k.grp k.tile (fun r => { r with
        acc := overAt k.first (r.acc ++ List.replicate (k.first + xs.length - r.acc.length) ({} : Acc)) xs
        flags := r.flags ||| k.flags, gcnt := k.gcnt, resGot := n, ptag := k.ptag, regime := k.regime })
      if r.acc.length ≤ n then (t.writeSlot k.grp k.tile).stageRound k.grp k.tile else t
  | _, _ => s.badPacket
/-- TCH_RESULT. -/
def execTchResult (p : PortId) (s : State) : Host.Outcome State Fault Refusal :=
  s.onPacket p tResult (fun k t => t.onGroup k true (fun _ => t.resultIn k))

/-- TCH_STAGED (R431). -/
def execTchStaged (p : PortId) (s : State) : Host.Outcome State Fault Refusal :=
  s.onPacket p tStaged (fun k t => t.onGroup k false (fun x => match x.round k.tile with
    | some _ => (t.modRound k.grp k.tile (fun r => { r with stagedKids := insertAsc k.src r.stagedKids })).stagedStep k.grp k.tile
    | none => t.badPacket))

/-- TCH_COMMIT (R431). -/
def execTchCommit (p : PortId) (s : State) : Host.Outcome State Fault Refusal :=
  s.onPacket p tCommit (fun k t => t.onGroup k true (fun x => match x.round k.tile with
    | some _ => t.roundCommit k.grp k.tile
    | none => t.badPacket))

/-- An ABORT from the parent sets the group ABORTED, unless it is, and goes on to the children; one from a child goes on toward the
root, which aborts and tells every child (R433, R437). (DEDUCED, log 70) -/
def State.abortIn (s : State) (k : Packet) : State :=
  let x := s.group k.grp
  if !x.valid then s.badPacket
  else if k.tdigest ≠ x.tdigest then s.abortGroup k.grp cauTREE false
  else if k.epoch ≠ x.epoch || x.st = .closed then s.badPacket
  else if x.parent ≠ 0xFFF && k.src = x.parent then
    let t := s.toKids k.grp { s.groupPacket k.grp tAbort 0 0 with status := k.status }
    if x.st = .opened then t.endRounds k.grp k.status false else t
  else if x.kids.any (·.1 = k.src) then
    if x.parent = 0xFFF then s.abortGroup k.grp k.status false
    else s.toParent k.grp { s.groupPacket k.grp tAbort 0 0 with status := k.status }
  else s.badPacket
/-- TCH_ABORT. -/
def execTchAbort (p : PortId) (s : State) : Host.Outcome State Fault Refusal := s.onPacket p tAbort (fun k t => t.abortIn k)

/-- TCH_BARUP (R438). -/
def execTchBarup (p : PortId) (s : State) : Host.Outcome State Fault Refusal :=
  s.onPacket p tBarup (fun k t => t.onGroup k false (fun _ =>
    (t.modGroup k.grp (fun x => { x with barKids := insertAsc k.src x.barKids })).barrierStep k.grp))
/-- TCH_BARDOWN (R438). -/
def execTchBardown (p : PortId) (s : State) : Host.Outcome State Fault Refusal :=
  s.onPacket p tBardown (fun k t => t.onGroup k true (fun _ => t.barrierDown k.grp))

/-! ### Epochs (R426, R433, R437) -/

/-- OPEN is refused with AREA: no image record, an area not within one unlocked region of the group's partition, or TCOUNT 0
(R426, R442). (DEDUCED, log 82) -/
def State.openBad (s : State) (g : Nat) : Bool :=
  let n := s.tcount g * s.slotb g
  !(s.group g).valid || s.tcount g = 0 ||
  (match s.regionOf (s.area g) n with
    | some r => r.hub || r.part ≠ (s.group g).part || s.locked r || n = 0
    | none => true)

/-- OPEN in TCH_GRPn_CTRL; on an OPEN group it is dropped with an access event (R426). -/
def State.openGroup (s : State) (r : Req) (g epoch : Nat) : State :=
  if (s.group g).st = .opened then s.access r (regAddr .grpCtrl 0 g 0)
  else if s.openBad g then s.modGroup g (fun x => { x with st := .closed, cause := cauAREA, rounds := [] })
  else s.modGroup g (fun x => { x with st := .opened, cause := 0, epoch := epoch, rounds := [], committed := 0 })

/-- GROUP_OPEN. -/
def execGroupOpen (r : Req) (g : GroupId) (epoch : Fin 65536) (s : State) : Host.Outcome State Fault Refusal :=
  .next (s.atReg r .grpCtrl 0 g.val (·.openGroup r g.val epoch.val))

/-- GROUP_ABORT. -/
def execGroupAbort (r : Req) (g : GroupId) (s : State) : Host.Outcome State Fault Refusal :=
  .next (s.atReg r .grpCtrl 0 g.val (·.abortGroup g.val cauSOFTWARE false))

/-- ROUND_TIMEOUT: a round that has had its first arrival has not committed in time; away from the root a staged one is in doubt
(R433, R435). -/
def execRoundTimeout (g : GroupId) (tile : Nat) (s : State) : Host.Outcome State Fault Refusal :=
  match (s.group g.val).round tile with
  | some r => if r.committed then .next s else .next (s.abortGroup g.val cauTIMEOUT ((s.group g.val).parent ≠ 0xFFF))
  | none => .next s

end Sys2Proof.Machine
end

