-- ==== Sys2Proof/Machine/Tenants.lean ====
section
/-! DEFINITION. Tenant records, and session kills asked through SES_KILL (R466, R480, R499). -/
namespace Sys2Proof.Machine

/-- The record staged in SES_TNDATA (R480). (DEDUCED, log 36) -/
def State.stagedTenant (s : State) : Tenant :=
  BitVec.ofNat 1024 (ofLe ((upTo 32).flatMap (fun k => toLe 4 (s.rg .sesTndata 0 k).toNat)))

/-- A tenant record replaced. -/
def State.setTenant (s : State) (i : Nat) (r : Tenant) : State :=
  { s with ses := { s.ses with tenants := Sparse.put 0 s.ses.tenants i r } }

/-- The sessions that a tenant record opened. -/
def State.sessionsBy (s : State) (i : Nat) : List Nat :=
  (s.sessions ++ s.mgmtSessions).filter (fun n => (s.sess n).known && (s.sess n).tenant = i)

/-- CLEAR in SES_TNCTL: the record is empty and its sessions are killed (R480). -/
def State.clearTenant (s : State) (i : Nat) : State :=
  let t := s.setTenant i 0
  t.each (t.sessionsBy i) (fun t n => t.killSession n)

/-- TENANT_WRITE: the staged record is installed; sessions already open are unchanged (R480). -/
def execTenantWrite (r : Req) (i : Fin 4096) (s : State) : Host.Outcome State Fault Refusal :=
  .next (s.atReg r .sesTnctl 0 0 (fun s => s.setTenant i.val s.stagedTenant))

/-- TENANT_CLEAR. -/
def execTenantClear (r : Req) (i : Fin 4096) (s : State) : Host.Outcome State Fault Refusal :=
  .next (s.atReg r .sesTnctl 0 0 (·.clearTenant i.val))

/-- SES_KILL_GO: GO in SES_KILL kills the session; a FREE context takes nothing (R480, R499). -/
def execSesKillGo (r : Req) (n : SessId) (s : State) : Host.Outcome State Fault Refusal :=
  .next (s.atReg r .sesKill 0 0 (·.killSession n.val))

end Sys2Proof.Machine
end

