-- ==== Sys2Proof/Machine/Registers.lean ====
section
/-! DEFINITION. Register accesses: refusals, reserved codes, access types, 64-bit pairs, and the actions that writes start
(R11 to R17, R30, R577); rows of a DMA transfer, which may reach registers too; the I3C target (R519). -/
namespace Sys2Proof.Machine

/-! ### Reads (R11, R13, R14) -/

/-- Reading a register clears its RC fields (R14). -/
def State.readClear (s : State) (x : RegRef) (v : W32) : State :=
  let m := maskOf x.fields (· = .rc)
  if m = 0 then s
  else if x.hi then s.setRgHi x.n x.c x.i x.j (v &&& ~~~m) else s.setRg x.n x.c x.i x.j (v &&& ~~~m)

/-- What a read leaves of the latch of its pair: _LO latches the high half, _HI consumes it (R13). -/
def State.latchFor (s : State) (x : RegRef) : State :=
  if !x.n.row.pair then s
  else { s with latchRd := Sparse.put none s.latchRd (regAddr x.n x.c x.i x.j)
                  (if x.hi then none else some (s.regValue { x with hi := true })) }

/-- The value a read returns: a latched high half, or the current value (R13). -/
def State.readValue (s : State) (x : RegRef) : W32 :=
  match (if x.hi then Sparse.get none s.latchRd (regAddr x.n x.c x.i x.j) else none) with
  | some v => v
  | none => s.regValue x

/-- A read of ARR_STATUS takes one free value while a tile streams, one of RKE_STATUS while a RAKE runs. (DESIGN CHOICE, log 8) -/
def State.freeRead (s : State) (x : RegRef) : State :=
  if (x.n = .arrStatus && (s.core x.c).arr.cur.isSome) ||
      (x.n = .rkeStatus && (s.core x.c).seq.jobs.any (fun j => j.eng = .rake && j.running)) then
    { s with free := s.free + 1 } else s

/-- The register that an access reaches: aligned 32 bits, at a register, permitted (R11, R30). -/
def State.reach (s : State) (r : Req) (a size : Nat) (wr : Bool) : Option RegRef :=
  if size ≠ 4 || a % 4 ≠ 0 then none
  else match regAt a with
    | some x => if s.mayReg r x wr then some x else none
    | none => none

/-- The access runs the clocks of its quadrant (R507). (DEDUCED, log 28) -/
def State.ungateFor (s : State) (x : RegRef) : State := if x.n.row.b.isCore then s.ungate x.c else s

/-- A register read; none where it is refused (R11, R30). -/
def State.regRead (s : State) (r : Req) (a size : Nat) : Option W32 × State :=
  match s.reach r a size false with
  | none => (none, s.refuse r a)
  | some x =>
    let v := s.readValue x
    (some v, ((((s.latchFor x).readClear x v).freeRead x).ungateFor x))

/-! ### Writes (R12 to R15, R577) -/

/-- RW fields take the value written; every other bit keeps its own. A pair takes both halves when _LO is written (R13). -/
def State.storeRw (s : State) (x : RegRef) (v : W32) : State :=
  let m := maskOf x.n.row.fs (· = .rw)
  let t := if m = 0 then s else s.setRg x.n x.c x.i x.j ((s.rg x.n x.c x.i x.j &&& ~~~m) ||| (v &&& m))
  if !x.n.row.pair then t
  else
    let k := maskOf x.n.row.hi (· = .rw)
    if k = 0 then t
    else t.setRgHi x.n x.c x.i x.j
      ((t.rgHi x.n x.c x.i x.j &&& ~~~k) ||| (Sparse.get 0 s.latchWr (regAddr x.n x.c x.i x.j) &&& k))

/-- A write that a state of its unit makes the device drop with an access event (R369, R442, R482). (DEDUCED, log 33) -/
def State.regBusy (s : State) (x : RegRef) (v : Nat) : Bool :=
  match x.n with
  | .seqRing => !(s.core x.c).seq.halted || 16383 < bits v 0 14 + 128
  | .seqS => !(s.core x.c).seq.halted
  | .tchTopo => (upTo 6).any (fun p => (s.port p).st = .training || (s.port p).st = .up)
  | .grpTbase | .grpTcount | .grpArea | .grpSlot => (s.group x.i).st = .opened
  | .ethIdle => bits v 0 20 = 0 && (s.rg .ethTsn 0 x.i).toNat.testBit (8 + x.j)
  | _ => false

/-- Conflicting actions in one write: dropped with an access event (R305, R333, R480, R561). (DESIGN CHOICE, log 32) -/
def actsClash (n : RegName) (v : Nat) : Bool :=
  match n with
  | .dmaCtrl => v.testBit 0 && v.testBit 1
  | .sdtCtrl => 1 < (setBitsOf 3 v).length
  | .sesTnctl => v.testBit 12 && v.testBit 13
  | .evtRstctl => v.testBit 0 && v.testBit 1
  | .evtCqctl => v.testBit 8 && v.testBit 10
  | _ => false

/-- An action taken where its bit is written 1. -/
def State.onBit (s : State) (v i : Nat) (f : State → State) : State := if v.testBit i then f s else s

/-- What a write to a core's register starts; none: its RW fields are set. (DESIGN CHOICE, log 32) -/
def State.coreAct (s : State) (r : Req) (x : RegRef) (v : Nat) : Option State :=
  match x.n with
  | .arrCntclr => some (s.onBit v 0 (·.cntclr x.c))
  | .spdSlotBase => some (s.declare x.c x.i false v)
  | .spdSlotCfg => some (s.declare x.c x.i true v)
  | .dmaCtrl => some ((s.onBit v 0 (·.dmaGo r x.c x.i)).onBit v 1 (·.dmaHalt x.c x.i))
  | .seqCtrl => some (((s.onBit v 0 (·.seqGoAct r x.c)).onBit v 1 (·.seqStopAct x.c)).onBit v 2 (·.seqClrAct x.c))
  | _ => none

/-- The same in the Seed Tray, the Pantry, the Cellar, the loader and Tchiuth. (DESIGN CHOICE, log 32) -/
def State.memAct (s : State) (r : Req) (x : RegRef) (v : Nat) : Option State :=
  match x.n with
  | .sdtCtrl => some (((s.onBit v 0 (·.bumpDisp x.i)).onBit v 1 (fun t => t.rewindDisp x.i (t.rg .sdtRewto 0 x.i).toNat false)).onBit
      v 2 (·.disarmDisp x.i))
  | .pntOpctl => some (s.pantryStart r (match bits v 0 2 with
      | 1 => some .wb
      | 2 => some .wbinv
      | 3 => some .invz
      | _ => none) (bits v 2 6))
  | .pntCntsel => some (s.cntsel (bits v 0 6))
  | .clrFillctl => some ((s.onBit v 0 (·.fillGo r)).onBit v 1 (·.haltFill))
  | .trlCtrl => some (s.onBit v 0 (·.trlGo r (v.testBit 1)))
  | .tchCtrl => some ((s.onBit v 0 (·.portTrain x.i)).onBit v 1 (·.portDown x.i 6 .down))
  | .grpCtrl => some ((s.onBit v 0 (·.openGroup r x.i (bits v 16 16))).onBit v 1 (·.abortGroup x.i cauSOFTWARE false))
  | _ => none

/-- QOFF and QON of one write, quadrant by quadrant (R530). -/
def State.quadActs (s : State) (r : Req) (v : Nat) : State :=
  s.each (upTo 4) (fun t q =>
    if v.testBit q && v.testBit (4 + q) then t.access r (regAddr .prcPctl 0 0 0)
    else (t.onBit v q (·.qoffAct r q false)).onBit v (4 + q) (·.qonAct r q false))

/-- The same in sessions, security, the Porch, the Meter and the event block. (DESIGN CHOICE, log 32; DEDUCED, log 36) -/
def State.hubAct (s : State) (r : Req) (x : RegRef) (v : Nat) : Option State :=
  match x.n with
  | .sesKill => some (s.onBit v 16 (·.killSession (bits v 0 16)))
  | .sesTnctl => some ((s.onBit v 12 (fun t => t.setTenant (bits v 0 12) t.stagedTenant)).onBit v 13 (·.clearTenant (bits v 0 12)))
  | .sesTndata => some (s.setRg .sesTndata 0 x.i 0 (BitVec.ofNat 32 v))
  | .secRbadv => some (s.advance r (bits v 0 6))
  | .secKill => some (s.onBit v 6 (·.resetPart (bits v 0 6) 0 true))
  | .secDbgctl => some (s.onBit v 0 (·.debugGo r))
  | .secAttctl => some (s.onBit v 0 (·.attestGo r))
  | .prcPctl => some ((s.quadActs r v).onBit v 8 (·.d3Act r))
  | .mtrSwin => some (s.setSessBudget r false (BitVec.ofNat 32 v))
  | .mtrSbud => some (s.setSessBudget r true (BitVec.ofNat 32 v))
  | .evtRdidx => some (s.setRdidx (BitVec.ofNat 32 v))
  | .evtRstctl => some ((s.onBit v 0 (·.warmReset rstWARM)).onBit v 1 (·.resetPart (bits v 2 6) prRSTCTL false))
  | .evtCqctl => some
      (let c := bits v 0 8
       let t := if v.testBit 8 then s.quiesceCore c (v.testBit 9)
         else if v.testBit 9 && (s.core c).quiescing then s.quiesceCore c true else s
       t.onBit v 10 (·.enableCore c))
  | .evtForce => some (s.onBit v 8 (·.forceCore (bits v 0 8)))
  | .evtCflt => some (s.onBit v 16 (fun t => t.setRg .evtCflt 0 x.i 0 0))
  | _ => none

/-- A permitted write of _LO or of a single register takes effect: actions, or RW fields (R577). -/
def State.regEffect (s : State) (r : Req) (x : RegRef) (v : W32) : State :=
  match (s.coreAct r x v.toNat).orElse (fun _ => (s.memAct r x v.toNat).orElse (fun _ => s.hubAct r x v.toNat)) with
  | some t => t
  | none => s.storeRw x v

/-- A permitted register write (R12, R13, R14, R577). -/
def State.writeReg (s : State) (r : Req) (x : RegRef) (v : W32) : State :=
  let t := s.ungateFor x
  if reservedIn x.fields v.toNat || t.regBusy x v.toNat || actsClash x.n v.toNat then t.access r x.addr
  else
    let u := if x.hi then { t with latchWr := Sparse.put 0 t.latchWr (regAddr x.n x.c x.i x.j) v } else t.regEffect r x v
    if hasAcc x.fields .img then u.access r x.addr else u

/-- A register write; false where it is refused (R11, R30). -/
def State.regWrite (s : State) (r : Req) (a size : Nat) (v : W32) : Bool × State :=
  match s.reach r a size true with
  | none => (false, s.refuse r a)
  | some x => (true, s.writeReg r x v)

/-! ### The three commands -/

/-- REGISTER_WRITE. -/
def execRegisterWrite (r : Req) (a : Addr) (size : Nat) (v : W32) (s : State) : Host.Outcome State Fault Refusal :=
  let y := s.regWrite r a.toNat size v
  .next (if y.1 then y.2.send (.done r) else y.2)

/-- A read's value goes to its requester; a refused read returns 0x0000_0000 (R11, R30). -/
def State.readTo (s : State) (r : Req) (a size : Nat) : State :=
  let y := s.regRead r a size
  y.2.send (.regData r (y.1.getD 0))

/-- REGISTER_READ_CLEAR: a register read; RC fields clear (R14). -/
def execRegisterReadClear (r : Req) (a : Addr) (size : Nat) (s : State) : Host.Outcome State Fault Refusal :=
  .next (s.readTo r a.toNat size)

/-- LO_HALF_READ: an aligned 32-bit read; at a _LO half it latches the high half (R13). -/
def execLoHalfRead (r : Req) (a : Addr) (s : State) : Host.Outcome State Fault Refusal := .next (s.readTo r a.toNat 4)

/-! ### DMA rows (R278 to R283) -/

/-- An address in a control space or a hub block. (DEDUCED, log 35) -/
def isReg (a : Nat) : Bool :=
  match whereIs a with
  | .ctl _ _ | .hub _ => true
  | _ => false

/-- A row's bytes go to its destination, a register or memory. (DEDUCED, log 35) -/
def State.rowTo (s : State) (c ch : Nat) (bs : List Byte) : State :=
  let x := s.chan c ch
  let d := x.desc
  let a := ddRowDst d x.rows
  if isReg a then
    match s.regWrite (coreReq c) a bs.length (BitVec.ofNat 32 (ofLe bs)) with
    | (true, t) => t.rowDone c ch
    | (false, t) => t.chanFault c ch a
  else match s.dmaPut c ch a (ddHint d) bs with
    | (true, t) => t.rowDone c ch
    | (false, t) => t

/-- A COPY or FILL row that reads or writes a register: an aligned 32-bit access, or refused (R11, R30).
(DEDUCED, log 35) -/
def State.regRow (s : State) (c ch : Nat) : State :=
  let x := s.chan c ch
  let d := x.desc
  let src := ddRowSrc d x.rows
  if ddOp d = 3 then s.rowTo c ch (fillRow d)
  else if isReg src then
    match s.regRead (coreReq c) src (ddX d) with
    | (some v, t) => if ddDrem d then t.remoteRow c ch (toLe 4 v.toNat) else t.rowTo c ch (toLe 4 v.toNat)
    | (none, t) => t.chanFault c ch src
  else match s.readMem (coreReq c) (ddHint d) src (ddX d) with
    | (.ok bs, t) => t.rowTo c ch bs
    | (g, t) => t.chanNo c ch g

/-- The row reaches a register on this device. (DEDUCED, log 35) -/
def ddReg (d : BitVec 512) (r : Nat) : Bool :=
  let put : Bool := !ddDrem d && isReg (ddRowDst d r)
  (ddOp d = 0 && !ddSrem d && (isReg (ddRowSrc d r) || put)) || (ddOp d = 3 && put)

/-- DMA_ROW_COMPLETE: the channel's next row; first its descriptor, where the read of it had stalled (R278 to R283). -/
def execDmaRowComplete (c : CoreId) (ch : ChanId) (e : SramErr) (de : LineErrs) (s : State) : Host.Outcome State Fault Refusal :=
  let c := c.val
  let ch := ch.val
  if !s.coreOpen c || !s.rowDue c ch then .next s
  else if !(s.chan c ch).loaded then .next (s.loadDesc c ch)
  else
    match (s.dramRow c ch de).sramRow c ch e with
    | (false, t) => .next t
    | (true, t) => .next (if ddReg (t.chan c ch).desc (t.chan c ch).rows then t.regRow c ch else t.dmaRow c ch)

/-! ### I3C (R519) -/

/-- The target answers: it has power and a dynamic address. (DESIGN CHOICE, log 34) -/
def State.i3cUp (s : State) : Bool := s.prc.standby && !s.prc.porst && s.prc.i3c.isSome

/-- Bytes of the PRC registers from an offset on, read word by word; past offset 0x29F they are free.
(DESIGN CHOICE, log 34) -/
def State.i3cBytes (s : State) (off n : Nat) : List Byte × State :=
  (upTo ((off % 4 + n + 3) / 4)).foldl (fun (y : List Byte × State) i =>
    let o := off / 4 * 4 + 4 * i
    if o < 0x2A0 then
      match y.2.regRead .porch (Blk.prc.base + o) 4 with
      | (some v, t) => (y.1 ++ toLe 4 v.toNat, t)
      | (none, t) => (y.1 ++ zeros 4, t)
    else let (v, t) := y.2.draw; (y.1 ++ toLe 4 v, t)) ([], s)

/-- I3C_READ. (DESIGN CHOICE, log 34) -/
def execI3cRead (off : BitVec 16) (len : Nat) (s : State) : Host.Outcome State Fault Refusal :=
  if s.i3cUp then
    let y := s.i3cBytes off.toNat len
    .next (y.2.send (.i3c ((y.1.drop (off.toNat % 4)).take len)))
  else .next (s.send .i3cNack)

/-- I3C_WRITE: NACKed. (DESIGN CHOICE, log 34) -/
def execI3cWrite (_off : BitVec 16) (_data : List Byte) (s : State) : Host.Outcome State Fault Refusal := .next (s.send .i3cNack)

/-- I3C_ADDRESS_ASSIGN: ENTDAA, or SETDASA at static address 0x2C. (DESIGN CHOICE, log 34) -/
def execI3cAddressAssign (setdasa : Bool) (static_ dyn : BitVec 7) (s : State) : Host.Outcome State Fault Refusal :=
  if s.prc.standby && !s.prc.porst && (!setdasa || static_ = 0x2C) then .next { s with prc := { s.prc with i3c := some dyn.toNat } }
  else .next s

end Sys2Proof.Machine
end

