-- ==== Sys2Proof/Machine/Ethernet.lean ====
section
/-! DEFINITION. Frames on the host ports and the management port: what is answered, filtered, admitted to Hacor Transport or
dropped; acknowledgements and the sequence window; links, gates and egress (R443 to R451, R455 to R458, R512). -/
namespace Sys2Proof.Machine

/-! ### What a frame is (R444) -/

/-- The port's IPv6 address, byte 0 the first (R482). -/
def State.ip6 (s : State) (p : Nat) : Nat := ofLe ((upTo 4).flatMap (fun n => toLe 4 (s.rg .ethIp6 0 p n).toNat))

/-- An IPv4 address is the port's; 0 turns IPv4 off (R482). -/
def State.ours4 (s : State) (p : Nat) (a : W32) : Bool := a ≠ 0 && a = s.rg .ethIp4 0 p
/-- An IPv6 address is the port's; all 0 turns IPv6 off. -/
def State.ours6 (s : State) (p : Nat) (a : BitVec 128) : Bool := a ≠ 0 && a.toNat = s.ip6 p

/-- The answer to an ARP request, Neighbor Solicitation or echo request, with its length (R444). (DEDUCED, log 102) -/
def State.answerTo (s : State) (p : Nat) (b : FrameBody) : Option Nat :=
  match b with
  | .arp a => if s.ours4 p a then some 64 else none
  | .ns a => if s.ours6 p a then some 90 else none
  | .echo4 a d => if s.ours4 p a then some (max 64 (46 + d.length)) else none
  | .echo6 a d => if s.ours6 p a then some (66 + d.length) else none
  | _ => none

/-- The HXT frame that a frame on a host port carries (R444, R480). (DEDUCED, log 103) -/
def State.hxtOf (s : State) (p : Nat) (f : Frame) : Option HxtFrame :=
  let udp (ok : Bool) (port : Nat) (h : HxtFrame) : Option HxtFrame :=
    if ok && s.rf .sesCfg 0 0 16 1 = 1 && port = s.rf .sesCfg 0 0 0 16 then some h else none
  match f.body with
  | .hxtUdp4 a port h => udp (s.ours4 p a) port h
  | .hxtUdp6 a port h => udp (s.ours6 p a) port h
  | .hxtEty h => if s.rf .sesCfg 0 0 17 1 = 1 && f.da.toNat = macOf p then some h else none
  | _ => none

/-! ### Queues, filters and stream gates (R449, R450) -/

/-- Owner byte of the receive queue that a frame's priority takes (R388, R449). -/
def State.ownerByte (s : State) (p : Nat) (f : Frame) : Nat :=
  let e := s.ethp p
  let q := bits e.qmap (3 * (if f.tagged then f.pcp.val else 0)) 3
  bits e.owners (8 * q) 8

/-- The queue admits an HXT frame: EN, and the partition of the session it names; an OPEN, and a frame that names a FREE
context, on any enabled queue that is not the hub's (R449). (DEDUCED, log 100) -/
def State.queueOk (s : State) (p : Nat) (f : Frame) (h : HxtFrame) : Bool :=
  let o := s.ownerByte p f
  let x := s.sess (h.session % 65536)
  o.testBit 7 && (if h.typ = mOPEN || x.st = .free then !o.testBit 6 else o % 64 = x.part && !o.testBit 6)

/-- The live stream filters of a port, ascending (R450). -/
def State.liveFilters (s : State) (p : Nat) : List Nat :=
  let a := regAddr .ethFilt2 0 p 0
  s.regs.filterMap (fun x =>
    if a ≤ x.1 && x.1 < a + 0x4000 && (x.1 - a) % 16 = 0 && x.2.toNat.testBit 7 then some ((x.1 - a) / 16) else none)

/-- A filter matches a frame: destination address, VLAN ID (0 where untagged), and PCP where PCPV is set (R450).
(DEDUCED, log 101) -/
def State.filterHits (s : State) (p : Nat) (f : Frame) (i : Nat) : Bool :=
  let w1 := (s.rg .ethFilt1 0 p i).toNat
  macBytes f.da.toNat 0 4 = (s.rg .ethFilt0 0 p i).toNat && macBytes f.da.toNat 4 2 = bits w1 0 16 &&
  (if f.tagged then f.vid.val else 0) = bits w1 16 12 &&
  (!w1.testBit 31 || (if f.tagged then f.pcp.val else 0) = bits w1 28 3)

/-- A stream gate is open now; none past the end of a list whose intervals do not sum to CYCLE (R447, R450).
(DEDUCED, log 101) -/
def State.gateOpen (s : State) (p g : Nat) : Option Bool :=
  let l := (upTo 16).map (fun i => ((s.rg .ethGate 0 p (16 * g + i)).toNat % 2, (s.rg .ethGateIv 0 p (16 * g + i)).toNat))
  if !s.prc.lock || l.all (fun x => x.1 = 0 && x.2 = 0) then some true
  else (l[(gateWalk l 0 ((s.ethp p).phase s.prc.time)).1]?).map (fun x => x.1 = 1)

/-- The first matching filter lets a frame pass (R449). -/
def State.filtered (s : State) (p : Nat) (f : Frame) : Bool × State :=
  match (s.liveFilters p).find? (s.filterHits p f) with
  | none => (true, s)
  | some i =>
    let w := (s.rg .ethFilt2 0 p i).toNat
    let big : Bool := bits w 16 16 ≠ 0 && bits w 16 16 < f.bytes
    if !w.testBit 6 then (!big, s)
    else match s.gateOpen p (bits w 0 6) with
      | some b => (b && !big, s)
      | none => let (v, t) := s.draw; (v % 2 = 1 && !big, t)

/-! ### Header, tag and window (R455, R456) -/

/-- VER, TYPE or a reserved bit is wrong, or the frame is of a kind that a host does not send (R451, R452, R455).
(DEDUCED, log 99) -/
def badHeader (h : HxtFrame) : Bool :=
  h.ver ≠ 1 || h.typ = 0 || 10 < h.typ || h.resvBit || (!h.ackonly && (h.resp || h.typ = mEVENT))

/-- A fragment's index, count and payload fit its message's LEN (R453). (DEDUCED, log 99) -/
def fragFits (h : HxtFrame) (fs : Nat) : Bool :=
  if h.typ = mWRITE then
    let n := h.len - 8
    8 ≤ h.len && n ≤ 1048576 && h.nfrag + 1 = max 1 (ceilDiv n fs) && h.frag ≤ h.nfrag &&
    h.payload.length = (if h.frag = 0 then 8 else 0) + min fs (n - h.frag * fs)
  else h.nfrag = 0 && h.frag = 0 && h.payload.length = h.len

/-- The next number expected, numbers received above it passed over: `fuel` bounds them. (DESIGN CHOICE, log 105) -/
def advanceE (sack : List Nat) : Nat → Nat → Nat
  | 0, e => e
  | k + 1, e => if sack.contains e then advanceE sack k (e + 1) else e

/-- A message has wholly arrived (R456). (DESIGN CHOICE, log 105) -/
def Session.arrived (x : Session) (q : Nat) : Session :=
  let all := q :: x.sack
  let e := advanceE all all.length x.inSeq
  { x with inSeq := e, sack := all.filter (e ≤ ·) }

/-- The message number has wholly arrived before. -/
def Session.had (x : Session) (q : Nat) : Bool := q < x.inSeq || x.sack.contains q

/-- Incomplete messages over all sessions (R457). -/
def State.openMsgs (s : State) : Nat :=
  ((s.sessions ++ s.mgmtSessions).map (fun n => (s.sess n).inMsgs.length)).sum

/-- SRTT, RTTVAR and RTO after a measured round trip of `r` ns (R458). -/
def Session.measured (x : Session) (r : Nat) : Session :=
  let d := max x.srtt r - min x.srtt r
  let v := (3 * x.rttvar + d) / 4
  let m := (7 * x.srtt + r) / 8
  { x with srtt := m, rttvar := v, rto := max 50000 (min 10000000 (m + 4 * v)) }

/-- A device message is acknowledged by a frame (R451). (DEDUCED, log 106) -/
def acks (h : HxtFrame) (q : Nat) : Bool := q < h.ack || (h.ack < q && q ≤ h.ack + 64 && h.sack.toNat.testBit (q - h.ack - 1))

/-- ACK and SACK of a frame: the messages they name are acknowledged, round trips measured, and waiting ones sent; an
acknowledged CLOSE response frees the context (R456, R458, R474). -/
def State.takeAck (s : State) (n : Nat) (h : HxtFrame) : State :=
  let x := s.sess n
  let got := x.outMsgs.filter (fun m => acks h m.seq)
  if x.st = .closing && got.any (fun m => m.typ = mCLOSE) then s.freeCtx n
  else
    (s.modSess n (fun x =>
      (got.filter (·.tx = 0)).foldl (fun x m => x.measured (s.prc.time - m.at_))
        { x with hostAck := if h.ack ≤ x.outSeq then max x.hostAck h.ack else x.hostAck
                 outMsgs := x.outMsgs.filter (fun m => !acks h m.seq) })).flushOut n

/-- REKEY_DUE as the host's numbers reach 0xFFFF_0000 (R475). -/
def State.rekeyDue (s : State) (n was : Nat) : State :=
  if was < 0xFFFF0000 && 0xFFFF0000 ≤ (s.sess n).inSeq then
    s.log { code := 0x0902, cls := 0, part := some (s.sess n).part, session := some n, detail := 0 }
  else s

/-- A message's fragment that arrives: it joins its message, which may thereby have wholly arrived. -/
def Session.fragment (x : Session) (h : HxtFrame) : Session :=
  let y := if x.inMsgs.any (·.seq = h.seq) then x
    else { x with inMsgs := x.inMsgs ++ [{ seq := h.seq, typ := h.typ, nfrag := h.nfrag, len := h.len, head := h.payload }] }
  let z := { y with inMsgs := y.inMsgs.map (fun (m : InMsg) => if m.seq = h.seq then { m with frags := h.frag :: m.frags } else m) }
  if z.inMsgs.any (fun m => m.seq = h.seq && m.nfrag < m.frags.length) then z.arrived h.seq else z

/-- A frame that passed R455 waits to be acted on. -/
def State.queueFrame (s : State) (port : Nat) (h : HxtFrame) : State :=
  { s with ses := { s.ses with inq := s.ses.inq ++ [(port, h)] } }

/-- The frame was received: an acknowledgement is due (R456). -/
def State.owesAck (s : State) (n : Nat) : State := s.modSess n (fun x => { x with unackedIn := x.unackedIn + 1 })

/-- Step 6 of R455, and a fragment's arrival (R456, R457, R474). -/
def State.window (s : State) (port n : Nat) (h : HxtFrame) : State :=
  let x := s.sess n
  let here := x.inMsgs.find? (·.seq = h.seq)
  if x.st = .closing && (match x.closeSeq with | some q => q < h.seq | none => false) then s
  else if x.had h.seq || (match here with | some m => m.frags.contains h.frag | none => false) then s.owesAck n
  else if x.inSeq + 255 < h.seq || 2 ^ 32 ≤ h.seq then s
  else if !fragFits h x.fragsz then s.count .sesBadfrm 0 0 1
  else if here.isNone && (h.frag ≠ 0 || 16384 ≤ s.openMsgs) then s
  else
    let t := ((s.takeAck n h).owesAck n).modSess n (·.fragment h)
    (t.rekeyDue n x.inSeq).queueFrame port h

/-- Steps 4 to 6 of R455. (DEDUCED, log 99) -/
def State.hxtAccept (s : State) (port : Nat) (h : HxtFrame) (bytes : Nat) : State :=
  let n := sessNum port h
  let x := s.sess n
  if !h.ackonly && (h.typ = mOPEN || h.typ = mAUTH) then s.queueFrame port h
  else if x.st ≠ .opened && x.st ≠ .closing then s
  else match (if h.kepoch = x.kepoch then x.unsealed h else none) with
    | none => s.count .sesTagfail 0 0 1
    | some h =>
      let t := if n < 65536 then { s with mtr := { s.mtr with sessAct := Sparse.upd 0 s.mtr.sessAct n (· + bytes) } } else s
      if h.ackonly then t.queueFrame port h else t.window port n h

/-! ### Reception (R444, R445) -/

/-- A frame of good check sequence on a host port (R444, R449, R455). (DEDUCED, log 100; DEDUCED, log 102) -/
def State.ethIn (s : State) (p : Nat) (f : Frame) : State :=
  let drop := s.count .ethRxdrop 0 p 1
  if 9216 < f.bytes then drop
  else match s.hxtOf p f with
    | some h =>
      if badHeader h then s.count .sesBadfrm 0 0 1
      else if !s.queueOk p f h then drop
      else (match s.filtered p f with
        | (false, t) => t.count .ethGatedrop 0 p 1
        | (true, t) => t.hxtAccept p h f.bytes)
    | none => match s.answerTo p f.body with
      | none => drop
      | some n => match s.filtered p f with
        | (false, t) => t.count .ethGatedrop 0 p 1
        | (true, t) => t.egress p { q := 0, bytes := n, answer := some f.body }

/-- A memory error that the frame's reception met: the context store's kills the session it names, a buffer's drops the frame
(R535). True where the frame goes on. (DEDUCED, log 104) -/
def State.ethSram (s : State) (p : Nat) (f : Frame) : SramErr → Bool × State
  | .none => (true, s)
  | .ce st off => (true, s.sramCeHub st.val off)
  | .ue st off =>
    let d := pack [(8, st.val), (24, off), (32, 1)]
    if st.val = 11 then
      (match s.hxtOf p f with
        | some h =>
          let n := h.session % 65536
          if (s.sess n).st = .free then (true, s)
          else (false, (s.log { code := 0x0003, cls := 2, part := some (s.sess n).part, session := some n, detail := d }).killSession n)
        | none => (true, s))
    else (false, s.devEvent 0x0003 1 d)

/-- ETH_FRAME_RECEIVE: a frame on host port `p`. -/
def execEthFrameReceive (p : Fin 4) (f : Frame) (e : SramErr) (s : State) : Host.Outcome State Fault Refusal :=
  if (s.ethp p.val).link ≠ .up then .next s
  else if !f.fcsOk then .next (s.count .ethFcserr 0 p.val 1)
  else match s.ethSram p.val f e with
    | (false, t) => .next t
    | (true, t) => .next (t.ethIn p.val f)

/-- MGMT_FRAME_RECEIVE: a frame on the management port: HXT of EtherType 0x88B5 to its MAC address, anything else is dropped.
An OPEN carries with it the context that it would take (R445, R455). (DEDUCED, log 103) -/
def execMgmtFrameReceive (f : Frame) (assign : Fin 4) (s : State) : Host.Outcome State Fault Refusal :=
  if (s.ethp 4).link ≠ .up || !f.fcsOk || 9216 < f.bytes then .next s
  else match f.body with
    | .hxtEty h =>
      if f.da.toNat ≠ macOf 4 then .next s
      else if badHeader h then .next (s.count .sesBadfrm 0 0 1)
      else .next (s.hxtAccept 4 (if h.typ = mOPEN then { h with session := assign.val } else h) 0)
    | _ => .next s

/-- WAKE_MGMT_FRAME: a management frame that passes steps 1 and 2 of R455 (R512). -/
def execWakeMgmtFrame (f : HxtFrame) (s : State) : Host.Outcome State Fault Refusal :=
  .next (if badHeader f then s else s.wake 0 1)

/-! ### Links (R443) -/

/-- A port may hold a link: the management port, or a host port whose SPEED is not off. (DEDUCED, log 116) -/
def State.linkable (s : State) (p : Nat) : Bool := p = 4 || (s.ethp p).speed ≠ 0

/-- ETH_LINK_TRAIN_DONE. (DEDUCED, log 116) -/
def execEthLinkTrainDone (p : EthId) (ok preempt : Bool) (s : State) : Host.Outcome State Fault Refusal :=
  let e := s.ethp p.val
  if !s.linkable p.val || (e.link ≠ .training && e.link ≠ .down) then .next s
  else .next ((s.modEth p.val (fun e => { e with link := if ok then .up else .failed, pver := ok && preempt })).egressStart p.val)

/-- ETH_LINK_LOSS: the frame in transmission is lost with the link. (DEDUCED, log 116) -/
def execEthLinkLoss (p : EthId) (s : State) : Host.Outcome State Fault Refusal :=
  if (s.ethp p.val).link = .up then .next (s.modEth p.val (fun e => { e with link := .down, pver := false, cur := none }))
  else .next s

/-! ### Gates and egress (R447, R448) -/

/-- GATE_ENTRY_EXPIRY: the interval in force has ended by the time counter; the next entry's states apply, a preemptable
frame whose gate has closed waits again, and a frame may start (R447, R448). (DEDUCED, log 101) -/
def execGateEntryExpiry (p : Fin 4) (s : State) : Host.Outcome State Fault Refusal :=
  let p := p.val
  let e := s.ethp p
  let i := (gateWalk e.gcl 0 (e.phase s.prc.time)).1
  if !s.prc.lock || e.gcl.isEmpty || i = e.pos then .next s
  else
    let t := s.modEth p (fun e => { e with pos := i })
    let u := match e.cur with
      | some f =>
        if s.preemptable p f.q && !(e.gcl.getD i (0, 0)).1.testBit f.q then
          t.modEth p (fun e => { e with cur := none, egress := f :: e.egress })
        else t
      | none => t
    .next (u.egressStart p)

/-- EGRESS_FRAME_DONE: the frame has gone out; a shaped queue's credit may have turned negative, which is free (R446, R448).
(DESIGN CHOICE, log 46) -/
def execEgressFrameDone (p : Fin 4) (s : State) : Host.Outcome State Fault Refusal :=
  let p := p.val
  match (s.ethp p).cur with
  | none => .next s
  | some f =>
    let t := (s.modEth p (fun e => { e with cur := none })).send (.frame p f)
    let (v, u) := if (s.rg .ethTsn 0 p).toNat.testBit (8 + f.q) then t.draw else (0, t)
    let w := if v % 2 = 1 then u.modEth p (fun e => { e with neg := insertAsc f.q e.neg }) else u
    let y := match f.hxt with
      | some h => { w with mtr := { w.mtr with sessAct := Sparse.upd 0 w.mtr.sessAct h.session (· + f.bytes) } }
      | none => w
    .next (y.egressStart p)

/-- CBS_CREDIT_RECOVERED (R448). (DESIGN CHOICE, log 46) -/
def execCbsCreditRecovered (p : Fin 4) (q : Fin 8) (s : State) : Host.Outcome State Fault Refusal :=
  if (s.ethp p.val).neg.contains q.val then
    .next ((s.modEth p.val (fun e => { e with neg := e.neg.filter (· ≠ q.val) })).egressStart p.val)
  else .next s

end Sys2Proof.Machine
end

