-- ==== Sys2Proof/Machine/Gauge.lean ====
section
/-! DEFINITION. The Gauge's commands (R142 to R151, R169). -/
namespace Sys2Proof.Machine

/-- Every step row within the actual lengths has its anchors (R149). -/
def Tile.allAnchored (t : Tile) (g : Geo) : Bool := (upTo g.rowsA).all (t.anchored g)

/-- GAUGE_SAMPLE_START: the samples of the first tile the Gauge holds begin, its operands and anchors being there (R149,
R150). -/
def execGaugeSampleStart (c : CoreId) (h : Handle) (s : State) : Host.Outcome State Fault Refusal :=
  let t := s.tile c.val h.val
  let g := s.geo c.val h.val
  if s.coreOpen c.val && t.opened && t.gst = .due && (s.core c.val).gauge.head? = some h.val && t.allAnchored g then
    let r := s.opsReady c.val h.val g g.k1
    if r.1 then .next (r.2.modTile c.val h.val (fun t => { t with gst := .running })) else .next r.2
  else .next s

/-- GAUGE_SAMPLE_DONE: the samples have finished; `waited` is the ACLK a third sampled tile delayed its comparison (R150).
With accumulation over, the checks of the attempt follow (R147, R169). (DESIGN CHOICE, log 11) -/
def execGaugeSampleDone (c : CoreId) (h : Handle) (waited : Nat) (s : State) : Host.Outcome State Fault Refusal :=
  let t := s.tile c.val h.val
  let g := s.geo c.val h.val
  if s.coreOpen c.val && t.gst = .running then
    let s1 := s.modTile c.val h.val (fun t => { t with gst := .finished })
    let s2 := s1.modCore c.val (fun k => { k with gauge := k.gauge.filter (· ≠ h.val) })
    let s3 := (s2.count .gauWait c.val 0 waited).act c.val 5 ((s.tileCtx c.val h.val).gs * (g.k1 - g.k0))
    .next (s3.attemptCheck c.val h.val)
  else .next s

end Sys2Proof.Machine
end

