-- ==== Sys2Proof/Machine/Sessions.lean ====
section
/-! DEFINITION. The handshake, the states of a session, acknowledgements, retransmission and events (R456, R458, R465 to
R475, R478). -/
namespace Sys2Proof.Machine

/-! ### Frames waiting to be acted on -/

/-- The oldest waiting frame that satisfies a test, and the state without it. -/
def State.takeFrame (s : State) (p : Nat × HxtFrame → Bool) : Option ((Nat × HxtFrame) × State) :=
  match s.ses.inq.find? p with
  | none => none
  | some x => some (x, { s with ses := { s.ses with inq := s.ses.inq.erase x } })

/-- A frame of a message type. -/
def isTyp (t : Nat) (x : Nat × HxtFrame) : Bool := !x.2.ackonly && x.2.typ = t

/-! ### OPEN (R466 to R469, R472, R473, R475, R478) -/

/-- The valid record of a tenant ID whose MGMT bit suits the port: its index and the record (R466, R469). -/
def State.tenantOf (s : State) (port tid : Nat) : Option (Nat × Tenant) :=
  s.ses.tenants.find? (fun x => tenantValid x.2 && fld x.2 31 0 = tid && flag x.2 38 = decide (port = 4))

/-- SALT and ITER of an OPEN response: the record's for a password tenant, zeros for a stored key, and what the device derives
from the ID where no record suits (R468, R469). -/
def State.saltOf (s : State) (port tid : Nat) : List Byte :=
  match s.tenantOf port tid with
  | some (_, r) => if fld r 49 48 = 1 then (toLe 128 r.toNat).drop 16 |>.take 32 |> (· ++ toLe 4 (fld r 127 96)) else zeros 36
  | none => toLe 32 (Config.fakeSalt tid) ++ toLe 4 (10000 + Config.fakeSalt (tid + 2 ^ 32) % 9990001)

/-- An OPEN answered unsigned, with a status alone. (DEDUCED, log 107) -/
def State.openNo (s : State) (port n code : Nat) : State := s.reply port n mOPEN (toLe 4 code ++ zeros 404)

/-- The response of an OPEN for context `n` but for its signature: the nonce and the ephemeral private key are given (R468). -/
def State.openHead (s : State) (port n tid nonce eph : Nat) : List Byte :=
  toLe 4 0 ++ toLe 2 n ++ toLe 2 0 ++ toLe 32 nonce ++ publicKey eph ++ zeros 3 ++ s.saltOf port tid ++ s.sec.identityHash

/-- The signed response of an OPEN for context `n`, with the ephemeral private key; that key and the nonce are drawn (R468, R491,
R492). (DEDUCED, log 107) -/
def State.openAnswer (s : State) (port n tid : Nat) (pl : List Byte) : (List Byte × Nat) × State :=
  let (v1, t1) := s.draw
  let (v2, t2) := t1.draw
  let eph := 1 + v2 % (n521 - 1)
  let head := s.openHead port n tid v1 eph
  let (sig, t3) := t2.identitySign (pl ++ head)
  ((head ++ sig, eph), t3)

/-- An OPEN's payload breaks R467; a host key that is no point of the curve is none. (DEDUCED, log 107) -/
def openBadForm (pl : List Byte) : Bool :=
  pl.length ≠ 176 || !keyPoint ((pl.drop 40).take 133) || 8 ≤ leAt pl 4 1 || 32 ≤ leAt pl 5 1 || leAt pl 173 3 ≠ 0 || (!(leAt pl 4 1).testBit 2 && leAt pl 6 2 ≠ 0)

/-- OPENs of a port are answered BUSY: in D3 and its entry, and on a host port in a warm reset and under DFAULT (R511, R538,
R545). (DEDUCED, log 109) -/
def State.opensHeld (s : State) (port : Nat) : Bool :=
  s.prc.d3 ≠ .none || (port < 4 && (s.evt.warm.isSome || s.evt.dfault))

/-- Contexts in HALFOPEN (R472). (DEDUCED, log 109) -/
def State.halfOpen (s : State) : List Nat := (s.sessions ++ s.mgmtSessions).filter (fun n => (s.sess n).st = .halfopen)

/-- A tenant has its MAXSESS sessions (R466, R469). -/
def State.tenantFull (s : State) (port tid : Nat) : Bool :=
  match s.tenantOf port tid with
  | some (i, r) => fld r 79 64 ≤ (s.sessionsBy i).length
  | none => false

/-- The partition of a host port's tenant is SCRUBBING: no session can be allotted in it (R501). (DEDUCED, log 109) -/
def State.tenantScrubs (s : State) (port tid : Nat) : Bool :=
  port < 4 && (match s.tenantOf port tid with
    | some (_, r) => s.scrubbing (fld r 37 32)
    | none => false)

/-- The context that a handshake with the same tenant, port and nonce runs on (R469). (DEDUCED, log 117) -/
def State.handshake (s : State) (port tid : Nat) (hn : List Byte) : Option Nat :=
  (s.sessions ++ s.mgmtSessions).find? (fun n =>
    let x := s.sess n
    (x.st = .halfopen || x.st = .rekey) && x.tid.toNat = tid && x.port = port && x.hn = hn)

/-- A new context in HALFOPEN (R467, R473). -/
def State.halfContext (s : State) (port n tid : Nat) (pl resp : List Byte) (eph : Nat) : State :=
  let r := s.tenantOf port tid
  let x : Session :=
    { st := .halfopen, tenant := (r.map (·.1)).getD 0, tid := BitVec.ofNat 32 tid, known := r.isSome
      part := (r.map (fun y => fld y.2 37 32)).getD 0, txq := (r.map (fun y => fld y.2 52 50)).getD 0
      asked := leAt pl 5 1 &&& ((r.map (fun y => fld y.2 43 40)).getD 0)
      fragsz := 1024 * 2 ^ (leAt pl 4 1 % 4), port := port, hn := (pl.drop 8).take 32, opened := pl, eph := eph, resp := resp }
  s.modSess n (fun _ => x)

/-- OPEN for a new session in context `n` (R467 to R469). (DEDUCED, log 98) -/
def State.openNew (s : State) (port n : Nat) (pl : List Byte) : State :=
  let tid := leAt pl 0 4
  if (s.sess n).st ≠ .free || s.opensHeld port || s.ses.locked.contains tid || s.tenantFull port tid ||
      s.tenantScrubs port tid || 1024 ≤ s.halfOpen.length then s.openNo port n stBUSY
  else
    let y := s.openAnswer port n tid pl
    (y.2.halfContext port n tid pl y.1.1 y.1.2).reply port n mOPEN y.1.1

/-- OPEN with RESUME of session `n`: OPEN or LOST, of the same tenant, becomes REKEY; anything else is answered BUSY (R473 to
R475). (DEDUCED, log 108) -/
def State.openResume (s : State) (port n : Nat) (pl : List Byte) : State :=
  let tid := leAt pl 0 4
  let x := s.sess n
  if (x.st = .opened || x.st = .lost) && x.known && x.tid.toNat = tid && !s.opensHeld port && !s.ses.locked.contains tid then
    let y := s.openAnswer port n tid pl
    (y.2.modSess n (fun x => { x with st := .rekey, wasLost := decide (x.st = .lost), port := port,
                                      hn := (pl.drop 8).take 32, opened := pl, eph := y.1.2, resp := y.1.1 })).reply
      port n mOPEN y.1.1
  else s.openNo port n stBUSY

/-- A resume waits while a FENCE of the session waits (R478). (DEDUCED, log 108) -/
def State.fenceWaits (s : State) (n : Nat) : Bool := (s.sess n).st = .opened && (s.sess n).inMsgs.any (·.typ = mFENCE)

/-- The context a resume names. (DEDUCED, log 108) -/
def resumed (port : Nat) (pl : List Byte) : Nat := if port = 4 then 65536 + leAt pl 6 2 % 4 else leAt pl 6 2

/-- HXT_OPEN: the oldest OPEN is answered. `assign` is the context that the device would take for a host session; while it is
not FREE and another is, nothing happens (R467 to R472). (DEDUCED, log 117) -/
def execHxtOpen (assign : SessId) (inRate : Bool) (s : State) : Host.Outcome State Fault Refusal :=
  match s.takeFrame (isTyp mOPEN) with
  | none => .next s
  | some ((port, h), t) =>
    let pl := h.payload
    let n := if port = 4 then 65536 + h.session % 4 else assign.val
    if !inRate then .next (t.count .sesHsdrop 0 0 1)
    else if openBadForm pl then .next (t.openNo port n stRESV)
    else match t.handshake port (leAt pl 0 4) ((pl.drop 8).take 32) with
      | some m => .next (t.reply port m mOPEN (t.sess m).resp)
      | none =>
        if (leAt pl 4 1).testBit 2 then
          (if t.fenceWaits (resumed port pl) then .next s else .next (t.openResume port (resumed port pl) pl))
        else if port < 4 && (t.sess n).st ≠ .free && t.ses.ctx.length < 65536 then .next s
        else .next (t.openNew port n pl)

/-! ### AUTH (R470, R471, R475) -/

/-- The credential of a session's tenant record: bytes 48 to 111 (R466). -/
def State.credential (s : State) (n : Nat) : List Byte :=
  ((toLe 128 (Sparse.get 0 s.ses.tenants (s.sess n).tenant).toNat).drop 48).take 64

/-- T1 followed by SIG: the OPEN's payload and its whole response (R468, R470). -/
def Session.transcript (x : Session) : List Byte := x.opened ++ x.resp

/-- The MAC an AUTH of the session must carry (R470). -/
def State.macOf (s : State) (n : Nat) : List Byte := authMac (s.credential n) (s.sess n).transcript

/-- The keys that an accepted AUTH makes for a key epoch (R471). -/
def State.newKeys (s : State) (n : Nat) (auth : List Byte) (kepoch : Nat) : List Byte :=
  let x := s.sess n
  sessionKeys x.transcript auth (sharedX x.eph ((x.opened.drop 40).take 133)) (s.credential n) kepoch

/-- What a handshake leaves nothing of once AUTH is answered (R471). -/
def Session.forget (x : Session) : Session := { x with opened := [], eph := 0, resp := [] }

/-- A mismatch: DENIED, the failure counted and recorded, the context freed or back where it was; the eighth in a row locks
the tenant out (R470, R473). (DEDUCED, log 107; DEDUCED, log 109) -/
def State.authFails (s : State) (port n : Nat) : State :=
  let x := s.sess n
  let tid := x.tid.toNat
  let k := Sparse.get 0 s.ses.fails tid + 1
  let t := (s.reply port n mAUTH (toLe 4 stDENIED ++ [0])).count .sesAuthfail 0 0 1
  let u := { t with ses := { t.ses with fails := Sparse.put 0 t.ses.fails tid (if 8 ≤ k then 0 else k)
                                        locked := if 8 ≤ k then insertAsc tid t.ses.locked else t.ses.locked } }
  let w := if x.st = .halfopen then u.freeCtx n
    else (u.modSess n (fun x => { x.forget with st := if x.wasLost then .lost else .opened })).flushOut n
  w.devEvent 0x0901 0 tid

/-- A new session opens under its keys: its rights are those asked that its record grants (R462, R470, R471). -/
def State.authOpens (s : State) (n : Nat) (auth : List Byte) : State :=
  let keys := s.newKeys n auth 0
  let t := s.modSess n (fun x => { x.forget with st := .opened, rights := x.asked, keys := keys })
  t.post n mAUTH true (toLe 4 stOK ++ toLe 1 (t.sess n).rights)

/-- A resume completes: the key epoch rises with new keys, both counts restart, what the host sent unacknowledged is discarded and what the
device sent unacknowledged goes out again (R471, R475). (DEDUCED, log 110) -/
def State.authResumes (s : State) (n : Nat) (auth : List Byte) : State :=
  let ke := ((s.sess n).kepoch + 1) % 65536
  let keys := s.newKeys n auth ke
  let old := ((s.sess n).outMsgs ++ (s.sess n).queued).filter (·.typ ≠ mAUTH)
  let t := ((s.dropFrames n).dropStalls n).modSess n (fun x =>
    { x.forget with
      st := .opened, kepoch := ke, keys := keys, inSeq := 0, sack := [], inMsgs := [], outSeq := 0
      outMsgs := [], queued := [], hostAck := 0, unackedIn := 0, ackCtr := 0 })
  old.foldl (fun u m => u.post n m.typ m.resp m.payload m.src) (t.post n mAUTH true (toLe 4 stOK ++ toLe 1 (t.sess n).rights))

/-- A duplicate AUTH after acceptance: the response again, as one more transmission (R470). (DEDUCED, log 110) -/
def State.authAgain (s : State) (n : Nat) : State :=
  let m : OutMsg := match (s.sess n).outMsgs.find? (·.typ = mAUTH) with
    | some m => { m with tx := min 15 (m.tx + 1) }
    | none => { seq := 0, typ := mAUTH, resp := true, payload := toLe 4 stOK ++ toLe 1 (s.sess n).rights, tx := 1 }
  (s.modSess n (fun x => { x with outMsgs := x.outMsgs.map (fun y => if y.typ = mAUTH then m else y) })).sendMsg n m m.tx

/-- HXT_AUTH: the oldest AUTH; its MAC is held to that of R470. An AUTH that finds its context FREE does nothing (R478). -/
def execHxtAuth (s : State) : Host.Outcome State Fault Refusal :=
  match s.takeFrame (isTyp mAUTH) with
  | none => .next s
  | some ((port, h), t) =>
    let n := sessNum port h
    let x := t.sess n
    match x.st with
    | .halfopen | .rekey =>
      if x.known && h.payload = t.macOf n then
        let u := { t with ses := { t.ses with fails := Sparse.put 0 t.ses.fails x.tid.toNat 0 } }
        .next (if x.st = .rekey then u.authResumes n h.payload else u.authOpens n h.payload)
      else .next (t.authFails port n)
    | .opened => .next (t.authAgain n)
    | _ => .next t

/-- AUTH_LOCKOUT_EXPIRY: the tenant's OPENs are served again (R470). (DEDUCED, log 109) -/
def execAuthLockoutExpiry (tenant : W32) (s : State) : Host.Outcome State Fault Refusal :=
  .next { s with ses := { s.ses with locked := s.ses.locked.filter (· ≠ tenant.toNat) } }

/-! ### Timers of a context (R472, R473) -/

/-- HALFOPEN_TIMEOUT: no valid AUTH within 100 ms. -/
def execHalfopenTimeout (n : CtxId) (s : State) : Host.Outcome State Fault Refusal :=
  if (s.sess n.val).st = .halfopen then .next (s.freeCtx n.val) else .next s

/-- REKEY_TIMEOUT: back to LOST, or to OPEN. -/
def execRekeyTimeout (n : CtxId) (s : State) : Host.Outcome State Fault Refusal :=
  if (s.sess n.val).st = .rekey then
    .next ((s.modSess n.val (fun x => { x.forget with st := if x.wasLost then .lost else .opened })).flushOut n.val)
  else .next s

/-- LINGER_EXPIRY: a LOST session is killed (R473, R499). -/
def execLingerExpiry (n : CtxId) (s : State) : Host.Outcome State Fault Refusal :=
  if (s.sess n.val).st = .lost then .next (s.killSession n.val) else .next s

/-! ### Acknowledgements (R456) -/

/-- HXT_ACKONLY: the oldest acknowledgement-only frame. -/
def execHxtAckonly (s : State) : Host.Outcome State Fault Refusal :=
  match s.takeFrame (·.2.ackonly) with
  | none => .next s
  | some ((port, h), t) =>
    let n := sessNum port h
    .next (if (t.sess n).st = .opened || (t.sess n).st = .closing then t.takeAck n h else t)

/-- ACK_TIMER: an acknowledgement is due and an ACKONLY frame goes out; its TYPE is free (R451, R456). -/
def execAckTimer (n : CtxId) (s : State) : Host.Outcome State Fault Refusal :=
  let n := n.val
  let x := s.sess n
  if x.unackedIn = 0 || (x.st ≠ .opened && x.st ≠ .closing) then .next s
  else
    let (v, t) := s.draw
    let f : HxtFrame :=
      { ver := 1, typ := v % 256, resp := false, ackonly := true, resvBit := false, tx := 0, session := n % 65536
        kepoch := x.kepoch, seq := x.ackCtr, ack := x.inSeq, sack := x.sackBits, frag := 0xFFFF, nfrag := 0, len := 0
        payload := [], tag := zeros 16 }
    .next ((t.modSess n (fun x => { x with ackCtr := (x.ackCtr + 1) % 2 ^ 32 })).sendFrame n f)

/-! ### Retransmission (R458, R474, R475) -/

/-- Bytes of a READ's source as they are now; the debug window of R28 reads as 0 where its reader no longer holds the debug
right (R11, R118, R458). -/
def State.reread (s : State) (n a len : Nat) : List Byte × State :=
  let r : Req := if n < 65536 then .session (Fin.ofNat 65536 n) else .mgmt (Fin.ofNat 4 n)
  match whereIs a with
  | .cellar => let y := s.cellarRead .normal a len; (y.1, y.2.2)
  | .spad c off => (s.spad c off len, s)
  | .debug c off =>
    match s.debugRead r c off len with
    | (.ok v, t) => (v, t)
    | (_, t) => (zeros len, t)
  | _ =>
    (upTo (len / 4)).foldl (fun (y : List Byte × State) i =>
      match y.2.regRead r (a + 4 * i) 4 with
      | (some v, t) => (y.1 ++ toLe 4 v.toNat, t)
      | (none, t) => (y.1 ++ zeros 4, t)) ([], s)

/-- A message goes out once more; a READ response reads its source again. RTO doubles (R458). (DEDUCED, log 110) -/
def State.retransmit (s : State) (n : Nat) (m : OutMsg) : State :=
  let y := match m.src with
    | some (a, len) => let y := s.reread n a len; (m.payload.take 4 ++ y.1, y.2)
    | none => (m.payload, s)
  let m1 : OutMsg := { m with tx := m.tx + 1, payload := y.1 }
  (y.2.modSess n (fun x => { x with
    rto := min 10000000 (2 * x.rto)
    outMsgs := x.outMsgs.map (fun z => if z.seq = m.seq then m1 else z) })).sendMsg n m1 m1.tx

/-- HXT_RTO_EXPIRY: message `seq` is not acknowledged in time: it is sent again, and after its sixteenth transmission the
session is LOST, or a CLOSING context is freed (R458, R473, R474). -/
def execHxtRtoExpiry (n : CtxId) (seq : Nat) (s : State) : Host.Outcome State Fault Refusal :=
  let n := n.val
  let x := s.sess n
  match x.outMsgs.find? (·.seq = seq) with
  | none => .next s
  | some m =>
    if x.st ≠ .opened && x.st ≠ .closing then .next s
    else if m.tx < 15 then .next (s.retransmit n m)
    else if x.st = .opened then .next (s.modSess n (fun x => { x with st := .lost }))
    else if m.typ = mCLOSE then .next (s.freeCtx n)
    else .next s

/-! ### Events (R465) -/

/-- EVENT_MESSAGE_SEND: up to 32 records that wait go out in an EVENT message, the window having room (R456, R465). -/
def execEventMessageSend (n : CtxId) (s : State) : Host.Outcome State Fault Refusal :=
  let n := n.val
  let x := s.sess n
  if x.st ≠ .opened || x.events = [] || x.queued ≠ [] || !x.maySend x.outSeq then .next s
  else
    let es := x.events.take 32
    let t := s.modSess n (fun x => { x with events := x.events.drop 32, discarded := 0 })
    .next (t.post n mEVENT false (toLe 4 es.length ++ toLe 4 x.discarded ++ es.flatMap Event.bytes))

end Sys2Proof.Machine
end

