-- ==== Sys2Proof/Machine/Messages.lean ====
section
/-! DEFINITION. WRITE, READ, FENCE, KILL, STAT, CLOSE and SUBMIT messages: when they begin, what they reach and how they end
(R445, R452, R453, R457, R459 to R464, R474, R476, R477, R496). -/
namespace Sys2Proof.Machine

/-! ### Order (R459) -/

/-- Types that wait until every earlier message is complete. -/
def isOrdered (t : Nat) : Bool := t = mFENCE || t = mSUBMIT || t = mKILL || t = mSTAT || t = mCLOSE

/-- The messages numbered below `q` have all arrived or begun to. -/
def Session.reached (x : Session) (q : Nat) : Bool :=
  (upTo (q - x.inSeq)).all (fun i => x.sack.contains (x.inSeq + i) || x.inMsgs.any (·.seq = x.inSeq + i))

/-- A WRITE or READ numbered `q` may begin: every earlier message has begun, and none of them is one that later ones wait for. -/
def Session.mayBegin (x : Session) (q : Nat) : Bool :=
  x.reached q && x.inMsgs.all (fun m => q ≤ m.seq || (m.begun && !isOrdered m.typ))

/-- Every message numbered below `q` is complete. -/
def Session.clearTo (x : Session) (q : Nat) : Bool := x.reached q && x.inMsgs.all (fun m => q ≤ m.seq)

/-- The requester that a session's accesses are made by (R445). -/
def reqFor (n : Nat) : Req := if n < 65536 then .session (Fin.ofNat 65536 n) else .mgmt (Fin.ofNat 4 n)

/-- The message of a waiting frame. -/
def State.msgFor (s : State) (x : Nat × HxtFrame) : Option InMsg :=
  (s.sess (sessNum x.1 x.2)).inMsgs.find? (·.seq = x.2.seq)

/-! ### What an address admits (R460, R496) -/

/-- An aperture of the session holds a range and grants the access (R460, R463). (DEDUCED, log 30) -/
def Session.apertureOk (x : Session) (a len : Nat) (wr : Bool) : Bool :=
  x.aps.any (fun (y : Nat × Option Aperture) => match y.2 with
    | some p => (if wr then p.wr else p.rd) && p.base ≤ a && a + len ≤ p.base + p.size
    | none => false)

/-- The first word of a range that is no register access this requester may make (R11, R30). (DEDUCED, log 30) -/
def State.regsNo (s : State) (r : Req) (a len : Nat) (wr : Bool) : Option Nat :=
  if a % 4 ≠ 0 || len % 4 ≠ 0 then some a
  else ((upTo (len / 4)).map (fun i => a + 4 * i)).find? (fun b => (s.reach r b 4 wr).isNone)

/-- A range of addresses is refused to a session: the first failing address and the state with its event (R286, R30, R460). -/
def State.rangeNo (s : State) (n a len : Nat) (wr : Bool) : Option (Nat × State) :=
  let r := reqFor n
  let no (b : Nat) (t : State) : Option (Nat × State) := some (b, t)
  match whereIs a with
  | .spad c off =>
    if 65536 ≤ n || !s.coreOpen c then no a (s.refuse r a)
    else if !s.admitted r c off len (if wr then .wr else .rd) then no a (s.winRefuse r c off)
    else none
  | .ctl c _ =>
    if a + len ≤ ctlBase c + 0x8000 then (s.regsNo r a len wr).bind (fun b => no b (s.refuse r b)) else no a (s.refuse r a)
  | .hub _ => if 65536 ≤ n then (s.regsNo r a len wr).bind (fun b => no b (s.refuse r b)) else no a (s.refuse r a)
  | .cellar =>
    if n < 65536 && (s.sess n).apertureOk a len wr then
      (s.cellarRefusal a len).bind (fun x => no x.1 (s.cellarRefuse r x.1 x.2))
    else no a (s.refuse r a)
  | .debug c off =>
    if !wr && s.coreOpen c && s.debugs r && s.reqPart r = s.partOf c && off + len ≤ 0x40000 then none else no a (s.refuse r a)
  | .nothing => no a (s.refuse r a)

/-- Status of a refusal at an address: LOCKED in a locked region (R461). -/
def State.refusalCode (s : State) (a : Nat) : Nat :=
  match whereIs a with
  | .cellar => if s.cellarNo a = some .locked then stLOCKED else stREFUSED
  | _ => stREFUSED

/-! ### WRITE (R457, R460) -/

/-- A fragment's bytes go to an admitted address; `pos` is their place in the payload. -/
def State.placeAt (s : State) (n q a pos : Nat) (bs : List Byte) : State :=
  let r := reqFor n
  match whereIs a with
  | .spad c off => s.inData r c off (some bs) bs.length (some q) pos
  | .cellar => (s.writeCellar r .normal a bs).2
  | _ => (upTo (bs.length / 4)).foldl (fun t i => (t.regWrite r (a + 4 * i) 4 (BitVec.ofNat 32 (leAt bs (4 * i) 4))).2) s

/-- A refused range marks its message (R460, R461). -/
def State.noteRefusal (s : State) (n q pos a : Nat) (x : Nat × State) : State :=
  x.2.modMsg n q (·.fail (s.refusalCode x.1) (pos + (x.1 - a)))

/-- A fragment is checked again on its arrival and placed (R457, R460). -/
def State.placeFragment (s : State) (n q a pos : Nat) (bs : List Byte) : State :=
  if bs.isEmpty then s
  else match s.rangeNo n a bs.length true, s.imageHeld a bs.length with
    | some x, _ => s.noteRefusal n q pos a x
    | none, some x => (s.refuse (reqFor n) x).modMsg n q (·.fail stREFUSED (pos + (x - a)))
    | none, none => s.placeAt n q a pos bs

/-- Fragment 0 of a WRITE: ADDR is taken and the whole range is checked (R452, R460). -/
def State.writeBegins (s : State) (n q len a : Nat) : State :=
  let t := s.modMsg n q (fun m => { m with begun := true })
  if 2 ^ 48 ≤ a then t.modMsg n q (fun m => { m.fail stRESV 0 with no := true })
  else if len = 0 then t
  else match t.rangeNo n a len true with
    | some x => (t.noteRefusal n q 8 a x).modMsg n q (fun m => { m with no := true })
    | none => t

/-- HXT_WRITE: the oldest WRITE fragment whose message may begin or has begun. -/
def execHxtWrite (s : State) : Host.Outcome State Fault Refusal :=
  match s.takeFrame (fun x => isTyp mWRITE x && (match s.msgFor x with
      | some m => m.begun || (x.2.frag = 0 && (s.sess (sessNum x.1 x.2)).mayBegin m.seq)
      | none => true)) with
  | none => .next s
  | some ((port, h), t) =>
    let n := sessNum port h
    match t.msgFor (port, h) with
    | none => .next t
    | some m =>
      let a := leAt m.head 0 8
      let u := if h.frag = 0 then t.writeBegins n h.seq (m.len - 8) a else t
      let no : Bool := match u.msgFor (port, h) with | some y => y.no | none => true
      let off := h.frag * (t.sess n).fragsz
      if no then .next u
      else if h.frag = 0 then .next (u.placeFragment n h.seq a 8 (h.payload.drop 8))
      else .next (u.placeFragment n h.seq (a + off) (8 + off) h.payload)

/-! ### READ -/

/-- Lines of an admitted Cellar range read one after another; a poisoned line reads as zeros (R407, R461). -/
def State.readLines (s : State) (n q a len : Nat) : State :=
  (linesOf a len).foldl (fun t l =>
    let lo := max a (l * 128)
    let hi := min (a + len) (l * 128 + 128)
    match t.readCellar (reqFor n) .normal lo (hi - lo) with
    | (.ok bs, u) => u.modMsg n q (·.put (4 + (lo - a)) bs)
    | (.poisoned _, u) => u.modMsg n q (fun m => (m.put (4 + (lo - a)) (zeros (hi - lo))).fail stPOISON (4 + (lo - a)))
    | (_, u) => u) s

/-- An admitted range is read; its bytes gather behind the STATUS of the response. (DEDUCED, log 111) -/
def State.readAt (s : State) (n q a len : Nat) : State :=
  match whereIs a with
  | .spad c off => s.inData (reqFor n) c off none len (some q) 4
  | .cellar => s.readLines n q a len
  | .debug c off => s.modMsg n q (·.put 4 (padTo len ((s.accBytes c).drop off)))
  | _ => (upTo (len / 4)).foldl (fun t i => match t.regRead (reqFor n) (a + 4 * i) 4 with
      | (some v, u) => u.modMsg n q (·.put (4 + 4 * i) (toLe 4 v.toNat))
      | (none, u) => u) s

/-- A READ begins: a form that R452 does not give is answered RESV; a refused range reads zeros (R460, R461). Its lines of the
Cellar can hold errors (R405). -/
def State.readBegins (s : State) (n : Nat) (m : InMsg) (de : LineErrs) : State :=
  let a := leAt m.head 0 8
  let len := leAt m.head 8 4
  let t := s.modMsg n m.seq (fun y => { y with begun := true })
  if m.len ≠ 12 || 2 ^ 48 ≤ a || len = 0 || 1048576 < len then t.modMsg n m.seq (fun y => { y.fail stRESV 0 with no := true })
  else match t.rangeNo n a len false with
    | some x => t.noteRefusal n m.seq 4 a x
    | none => (t.readErrs (cellarLines a len) de).readAt n m.seq a len

/-- HXT_READ: the oldest READ that may begin. -/
def execHxtRead (de : LineErrs) (s : State) : Host.Outcome State Fault Refusal :=
  match s.takeFrame (fun x => isTyp mREAD x && (match s.msgFor x with
      | some m => (s.sess (sessNum x.1 x.2)).mayBegin m.seq
      | none => true)) with
  | none => .next s
  | some ((port, h), t) =>
    match t.msgFor (port, h) with
    | none => .next t
    | some m => .next (t.readBegins (sessNum port h) m de)

/-! ### Completion (R457, R459) -/

/-- An access of the message still stalls on a slot. -/
def State.msgStalls (s : State) (n q : Nat) : Bool :=
  s.cores.any (fun (x : Nat × Core) => x.2.stalls.any (fun y => y.tag = some q &&
    (match y.who with | .inbound r => reqSession r = some n | _ => false)))

/-- The message's operation has ended: begun, every fragment arrived and acted on, no access of it stalled. -/
def State.msgOver (s : State) (n : Nat) (m : InMsg) : Bool :=
  m.begun && !isOrdered m.typ && m.nfrag < m.frags.length && !s.msgStalls n m.seq &&
  !s.ses.inq.any (fun x => !x.2.ackonly && x.2.typ = m.typ && x.2.seq = m.seq && sessNum x.1 x.2 = n)

/-- The response of a WRITE or READ. (DESIGN CHOICE, log 105) -/
def State.finishMsg (s : State) (n : Nat) (m : InMsg) : State :=
  let t := s.modSess n (fun x => { x with inMsgs := x.inMsgs.filter (fun y => y.seq ≠ m.seq) })
  if m.typ = mREAD && !m.no then
    let len := leAt m.head 8 4
    t.post n mREAD true (toLe 4 m.status ++ padTo len (m.data.drop 4))
      (if m.status = 0 then some (leAt m.head 0 8, len) else none)
  else t.post n m.typ true (toLe 4 m.status)

/-- HXT_MESSAGE_COMPLETE: a WRITE's or READ's operation ends and its response is sent. (DESIGN CHOICE, log 105) -/
def execHxtMessageComplete (n : CtxId) (seq : Nat) (s : State) : Host.Outcome State Fault Refusal :=
  match (s.sess n.val).inMsgs.find? (·.seq = seq) with
  | some m => .next (if s.msgOver n.val m then s.finishMsg n.val m else s)
  | none => .next s

/-! ### FENCE, STAT, KILL, CLOSE (R459, R464) -/

/-- The 64 bytes of STAT (R464). (DEDUCED, log 111) -/
def Session.statBytes (x : Session) : List Byte :=
  toLe 4 0 ++ toLe 1 x.st.code ++ toLe 1 x.rights ++ toLe 2 x.kepoch ++ toLe 4 x.inSeq ++ toLe 4 x.outSeq ++ toLe 4 x.srtt ++
  toLe 4 (x.rto / 1000) ++ toLe 8 (toUj x.led) ++ toLe 4 x.lost ++ toLe 1 x.part ++ zeros 27

/-- KILL with a right and well-formed operand (R445, R464, R499, R500). (DEDUCED, log 112) -/
def State.killMsg (s : State) (n : Nat) (m : InMsg) : State :=
  let w := leAt m.head 0 4
  let x := s.sess n
  let o := if n < 65536 then bits w 16 16 else 65536 + bits w 16 16 % 4
  if m.len ≠ 4 || bits w 2 14 ≠ 0 || bits w 0 2 = 3 then s.endMsg n m stRESV 0
  else if bits w 0 2 = 2 then
    if !x.rights.testBit 2 then s.endMsg n m stRIGHTS 0
    else (s.endMsg n m stOK 0).resetPart (if n < 65536 then x.part else bits w 16 6) 0 true
  else if bits w 0 2 = 0 || o = n then (s.endMsg n m stOK 0).killSession n
  else if (s.sess o).st ≠ .free && (s.sess o).known && (s.sess o).tenant = x.tenant then (s.killSession o).endMsg n m stOK 0
  else s.endMsg n m stREFUSED 0

/-- CLOSE acts: windows, apertures, keys and events go, and the response is sent (R464). (DEDUCED, log 110) -/
def State.closeMsg (s : State) (n : Nat) (m : InMsg) : State :=
  if m.len ≠ 0 then s.endMsg n m stRESV 0 else (s.dropSession n).endMsg n m stOK 0

/-- STAT (R464). -/
def State.statMsg (s : State) (n : Nat) (m : InMsg) : State :=
  if m.len ≠ 0 then s.endMsg n m stRESV 0
  else
    let t := s.modSess n (fun x => { x with inMsgs := x.inMsgs.filter (fun y => y.seq ≠ m.seq) })
    t.post n mSTAT true (t.sess n).statBytes

/-- FENCE is complete once every earlier message is; a management session has none (R445, R459). -/
def State.fenceMsg (s : State) (n : Nat) (m : InMsg) : State :=
  s.endMsg n m (if m.len ≠ 0 || 65536 ≤ n then stRESV else stOK) 0

/-! ### SUBMIT (R463) -/

/-- An entry's outcome: a status code and the state. -/
abbrev Entry := Nat × State

/-- RING: the write index, the owner and, with GO, the start of a HALTED sequencer without FAULT; refused at a core whose
space is closed (R30); dropped on a DISABLED core, and with GO under DFAULT (R342, R463, R477, R538, R548). (DEDUCED, log 113) -/
def State.ringEntry (s : State) (n : Nat) (e : List Byte) : Entry :=
  let w := leAt e 0 4
  let c := bits w 0 8
  if bits w 17 15 ≠ 0 then (stRESV, s)
  else if s.partOf c ≠ some (s.sess n).part then (stREFUSED, s)
  else if !s.coreOpen c then (stREFUSED, s.refuse (reqFor n) (spadBase c + s.ringOff c + 4096))
  else if (s.core c).cst = .disabled || (w.testBit 16 && s.evt.dfault) then (stREFUSED, s.access (reqFor n) (regAddr .seqCtrl c 0 0))
  else
    let t := ((s.ungate c).store c (s.ringOff c + 4096) (toLe 4 (bits w 8 8))).modCore c (fun k => { k with owner := some n })
    (stOK, if w.testBit 16 && (t.core c).seq.halted && !(t.core c).seq.fault then t.seqGoAct (reqFor n) c else t)

/-- REG: one register write (R463). (DEDUCED, log 113) -/
def State.regEntry (s : State) (n : Nat) (e : List Byte) : Entry :=
  let a := leAt e 0 8
  if 2 ^ 48 ≤ a then (stRESV, s)
  else if !(s.sess n).rights.testBit 0 then (stRIGHTS, s)
  else match s.regWrite (reqFor n) a 4 (BitVec.ofNat 32 (leAt e 8 4)) with
    | (true, t) => (stOK, t)
    | (false, t) => (stREFUSED, t)

/-- SIGNAL: a declared slot is marked FULL or released for class SESSION (R272, R273, R463). (DEDUCED, log 113) -/
def State.signalEntry (s : State) (n : Nat) (e : List Byte) : Entry :=
  let w := leAt e 0 4
  let c := bits w 0 8
  let k := bits w 8 6
  if bits w 15 17 ≠ 0 then (stRESV, s)
  else if !s.coreOpen c then (stREFUSED, s.refuse (reqFor n) (spadBase c + s.slotOff c k))
  else if !s.declared c k then (stREFUSED, s)
  else if !s.admitted (reqFor n) c (s.slotOff c k) 32 .sig then (stREFUSED, s.winRefuse (reqFor n) c (s.slotOff c k))
  else (stOK, if w.testBit 14 then (s.ungate c).slotRelease c k cSession else (s.ungate c).slotFull c k)

/-- Apertures in use over all sessions (R463). -/
def State.aperturesUsed (s : State) : Nat := (s.sessions.map (fun n => (s.sess n).aps.length)).sum

/-- APERTURE: a Cellar aperture set or cleared (R463). (DEDUCED, log 113) -/
def State.apertureEntry (s : State) (n : Nat) (e : List Byte) : Entry :=
  let w := leAt e 0 4
  let i := bits w 0 3
  let base := leAt e 8 8
  let size := leAt e 16 8
  let set (p : Option Aperture) : State := s.modSess n (fun x => { x with aps := Sparse.put none x.aps i p })
  let inRegion : Bool := match s.regionAt base with
    | some r => !r.hub && r.part = (s.sess n).part && base + size ≤ r.base + r.size
    | none => false
  if bits w 6 26 ≠ 0 || leAt e 4 4 ≠ 0 then (stRESV, s)
  else if w.testBit 5 then (stOK, set none)
  else if base % 4096 ≠ 0 || size % 4096 ≠ 0 || size = 0 || !inRegion || s.scrubbing (s.sess n).part then (stREFUSED, s)
  else if (Sparse.get none (s.sess n).aps i).isNone && 8192 ≤ s.aperturesUsed then (stBUSY, s)
  else (stOK, set (some { rd := w.testBit 3, wr := w.testBit 4, base := base, size := size }))

/-- BINDKEY: a locked session-key region of the partition is bound and a key drawn; one already bound to this session stays as
it is (R410, R463, R498). (DEDUCED, log 113) -/
def State.bindEntry (s : State) (n : Nat) (e : List Byte) : Entry :=
  let w := leAt e 0 4
  let k := bits w 0 10
  let x := s.sess n
  let mine : Bool := s.cfg.regions.any (fun r => !r.hub && r.ksrc = 1 && r.kslot = k && r.part = x.part)
  let y := s.kslot k
  if bits w 10 22 ≠ 0 then (stRESV, s)
  else if !x.rights.testBit 3 then (stRIGHTS, s)
  else if !mine || s.scrubbing x.part then (stREFUSED, s)
  else if y.st = .session then (if y.bound = some n then (stOK, s) else (stREFUSED, s))
  else if s.vendorOpen then (stREFUSED, s)
  else (stOK, s.newKey k .session (some n))

/-- Bytes of an entry of a KIND. -/
def entryBytes : Nat → Nat
  | 1 => 12
  | 3 => 24
  | _ => 4

/-- One entry of a KIND. -/
def State.entry (s : State) (n kind : Nat) (e : List Byte) : Entry :=
  match kind with
  | 0 => s.ringEntry n e
  | 1 => s.regEntry n e
  | 2 => s.signalEntry n e
  | 3 => s.apertureEntry n e
  | _ => s.bindEntry n e

/-- Entries in order; the first that fails ends them: its status and index (R463). (DESIGN CHOICE, log 114) -/
def State.entries (s : State) (n kind i : Nat) : List (List Byte) → Nat × State
  | [] => (statusOf stOK 0, s)
  | e :: es =>
    match s.entry n kind e with
    | (0, t) => t.entries n kind (i + 1) es
    | (k, t) => (statusOf k i, t)

/-- SUBMIT acts (R445, R463). (DESIGN CHOICE, log 114) -/
def State.submitMsg (s : State) (n : Nat) (m : InMsg) : State :=
  let kind := leAt m.head 0 1
  let cnt := leAt m.head 1 1 + 1
  if 65536 ≤ n || m.len < 4 || 4 < kind || 64 < cnt || leAt m.head 2 2 ≠ 0 || m.len ≠ 4 + cnt * entryBytes kind then
    s.endMsg n m stRESV 0
  else
    let y := s.entries n kind 0 (chunksOf (entryBytes kind) cnt (m.head.drop 4))
    y.2.endMsg n m (y.1 % 256) (y.1 / 256)

/-! ### Ordered messages -/

/-- An ordered message acts. -/
def State.orderedAct (s : State) (n : Nat) (m : InMsg) : State :=
  if m.typ = mFENCE then s.fenceMsg n m
  else if m.typ = mSTAT then s.statMsg n m
  else if m.typ = mKILL then s.killMsg n m
  else if m.typ = mCLOSE then s.closeMsg n m
  else s.submitMsg n m

/-- An ordered message's frame is taken: a CLOSE moves the context to CLOSING at once; the message acts if every earlier one is
complete, and waits otherwise (R459, R464). -/
def State.ordered (s : State) (p : Nat × HxtFrame → Bool) : State :=
  match s.takeFrame p with
  | none => s
  | some ((port, h), t) =>
    let n := sessNum port h
    match t.msgFor (port, h) with
    | none => t
    | some m =>
      let u := t.modMsg n h.seq (fun y => { y with begun := true })
      let v := if h.typ = mCLOSE && m.len = 0 then u.modSess n (fun x => { x with st := .closing, closeSeq := some h.seq }) else u
      if (v.sess n).clearTo h.seq then v.orderedAct n m else v

/-- HXT_FENCE. -/
def execHxtFence (s : State) : Host.Outcome State Fault Refusal := .next (s.ordered (isTyp mFENCE))
/-- HXT_STAT. -/
def execHxtStat (s : State) : Host.Outcome State Fault Refusal := .next (s.ordered (isTyp mSTAT))
/-- HXT_KILL. -/
def execHxtKill (s : State) : Host.Outcome State Fault Refusal := .next (s.ordered (isTyp mKILL))
/-- HXT_CLOSE. -/
def execHxtClose (s : State) : Host.Outcome State Fault Refusal := .next (s.ordered (isTyp mCLOSE))

/-- A SUBMIT of a KIND. (DESIGN CHOICE, log 114) -/
def isSubmit (k : Nat) (x : Nat × HxtFrame) : Bool := isTyp mSUBMIT x && leAt x.2.payload 0 1 = k

/-- SUBMIT_RING: the oldest SUBMIT of KIND RING, or of a reserved KIND. (DESIGN CHOICE, log 114) -/
def execSubmitRing (s : State) : Host.Outcome State Fault Refusal :=
  .next (s.ordered (fun x => isSubmit 0 x || (isTyp mSUBMIT x && 4 < leAt x.2.payload 0 1)))
/-- SUBMIT_REG. -/
def execSubmitReg (s : State) : Host.Outcome State Fault Refusal := .next (s.ordered (isSubmit 1))
/-- SUBMIT_SIGNAL. -/
def execSubmitSignal (s : State) : Host.Outcome State Fault Refusal := .next (s.ordered (isSubmit 2))
/-- SUBMIT_APERTURE. -/
def execSubmitAperture (s : State) : Host.Outcome State Fault Refusal := .next (s.ordered (isSubmit 3))
/-- SUBMIT_BINDKEY. -/
def execSubmitBindkey (s : State) : Host.Outcome State Fault Refusal := .next (s.ordered (isSubmit 4))

/-- ORDERED_MESSAGE_START: an ordered message that waited acts, every earlier one being complete (R459). -/
def execOrderedMessageStart (n : CtxId) (s : State) : Host.Outcome State Fault Refusal :=
  let x := s.sess n.val
  match x.inMsgs.find? (fun m => m.begun && isOrdered m.typ && x.clearTo m.seq) with
  | some m => .next (s.orderedAct n.val m)
  | none => .next s

end Sys2Proof.Machine
end

