-- ==== Sys2Proof/Machine/Dispatch.lean ====
section
/-! DEFINITION. The dispatch: one arm for each constructor of Instr, one call of its meaning. -/
namespace Sys2Proof.Machine

/-- The effect of a command on everything but the queue. -/
def exec (i : Instr) (s : State) : Host.Outcome State Fault Refusal :=
  match i with
  | .registerWrite r a size v => Sys2Proof.Machine.execRegisterWrite r a size v s
  | .registerReadClear r a size => Sys2Proof.Machine.execRegisterReadClear r a size s
  | .loHalfRead r a => Sys2Proof.Machine.execLoHalfRead r a s
  | .brickStepBegin c b promo e => Sys2Proof.Machine.execBrickStepBegin c b promo e s
  | .brickStepComplete c b => Sys2Proof.Machine.execBrickStepComplete c b s
  | .brickSwap c b full => Sys2Proof.Machine.execBrickSwap c b full s
  | .anchorTableWritten c h step at_ => Sys2Proof.Machine.execAnchorTableWritten c h step at_ s
  | .groupPartialAdd c h step group pass residue e => Sys2Proof.Machine.execGroupPartialAdd c h step group pass residue e s
  | .arrCntclr c => Sys2Proof.Machine.execArrCntclr c s
  | .gaugeSampleStart c h => Sys2Proof.Machine.execGaugeSampleStart c h s
  | .gaugeSampleDone c h waited => Sys2Proof.Machine.execGaugeSampleDone c h waited s
  | .outputChunk c h denied e => Sys2Proof.Machine.execOutputChunk c h denied e s
  | .outputPathEnd c h => Sys2Proof.Machine.execOutputPathEnd c h s
  | .imatchRowEnd c h => Sys2Proof.Machine.execImatchRowEnd c h s
  | .mergeTreeDone c cmd => Sys2Proof.Machine.execMergeTreeDone c cmd s
  | .hubMergeDeliver d row => Sys2Proof.Machine.execHubMergeDeliver d row s
  | .scoutPassDone c h => Sys2Proof.Machine.execScoutPassDone c h s
  | .programStoreLoad c => Sys2Proof.Machine.execProgramStoreLoad c s
  | .engineQueueAdmit c e => Sys2Proof.Machine.execEngineQueueAdmit c e s
  | .vprogStart c => Sys2Proof.Machine.execVprogStart c s
  | .vprogDone c => Sys2Proof.Machine.execVprogDone c s
  | .rakeDone c => Sys2Proof.Machine.execRakeDone c s
  | .slotDeclare c n cfg v => Sys2Proof.Machine.execSlotDeclare c n cfg v s
  | .slotClear c n => Sys2Proof.Machine.execSlotClear c n s
  | .slotAccessResume c idx => Sys2Proof.Machine.execSlotAccessResume c idx s
  | .slotTimeout c idx => Sys2Proof.Machine.execSlotTimeout c idx s
  | .inboundAccess r c off x => Sys2Proof.Machine.execInboundAccess r c off x s
  | .dmaGo r c ch => Sys2Proof.Machine.execDmaGo r c ch s
  | .dmaHalt r c ch => Sys2Proof.Machine.execDmaHalt r c ch s
  | .dmaRowComplete c ch e de => Sys2Proof.Machine.execDmaRowComplete c ch e de s
  | .dmaDescriptorComplete c ch => Sys2Proof.Machine.execDmaDescriptorComplete c ch s
  | .stagingHalfRefill c h weight de => Sys2Proof.Machine.execStagingHalfRefill c h weight de s
  | .pantryWb r g => Sys2Proof.Machine.execPantryWb r g s
  | .pantryWbinv r g => Sys2Proof.Machine.execPantryWbinv r g s
  | .pantryInvz r g => Sys2Proof.Machine.execPantryInvz r g s
  | .pantryOpDone => Sys2Proof.Machine.execPantryOpDone s
  | .pantryCntsel r g => Sys2Proof.Machine.execPantryCntsel r g s
  | .dispenserPresent c => Sys2Proof.Machine.execDispenserPresent c s
  | .deferredArm d => Sys2Proof.Machine.execDeferredArm d s
  | .claimServe d => Sys2Proof.Machine.execClaimServe d s
  | .commitResolve c h => Sys2Proof.Machine.execCommitResolve c h s
  | .partialSumArrival c h => Sys2Proof.Machine.execPartialSumArrival c h s
  | .bump r d => Sys2Proof.Machine.execBump r d s
  | .rewind r d => Sys2Proof.Machine.execRewind r d s
  | .disarm r d => Sys2Proof.Machine.execDisarm r d s
  | .ringWriteIndex r c idx => Sys2Proof.Machine.execRingWriteIndex r c idx s
  | .layer c => Sys2Proof.Machine.execLayer c s
  | .layerContextFree c => Sys2Proof.Machine.execLayerContextFree c s
  | .setprec c => Sys2Proof.Machine.execSetprec c s
  | .claim c => Sys2Proof.Machine.execClaim c s
  | .loadw c => Sys2Proof.Machine.execLoadw c s
  | .loada c => Sys2Proof.Machine.execLoada c s
  | .preload c => Sys2Proof.Machine.execPreload c s
  | .scout c => Sys2Proof.Machine.execScout c s
  | .step c => Sys2Proof.Machine.execStep c s
  | .tileOpen c h => Sys2Proof.Machine.execTileOpen c h s
  | .drain c => Sys2Proof.Machine.execDrain c s
  | .commit c => Sys2Proof.Machine.execCommit c s
  | .commitSend c h => Sys2Proof.Machine.execCommitSend c h s
  | .commitStore c h => Sys2Proof.Machine.execCommitStore c h s
  | .reducePart c => Sys2Proof.Machine.execReducePart c s
  | .reduceSum c => Sys2Proof.Machine.execReduceSum c s
  | .reduceGroup c => Sys2Proof.Machine.execReduceGroup c s
  | .contributionSend c h => Sys2Proof.Machine.execContributionSend c h s
  | .gaugeForce c => Sys2Proof.Machine.execGaugeForce c s
  | .gaugeSkip c => Sys2Proof.Machine.execGaugeSkip c s
  | .vprog c => Sys2Proof.Machine.execVprog c s
  | .rake c => Sys2Proof.Machine.execRake c s
  | .conv c => Sys2Proof.Machine.execConv c s
  | .dma c => Sys2Proof.Machine.execDma c s
  | .sort c => Sys2Proof.Machine.execSort c s
  | .merge c => Sys2Proof.Machine.execMerge c s
  | .nop c => Sys2Proof.Machine.execNop c s
  | .waitslot c => Sys2Proof.Machine.execWaitslot c s
  | .waitslotResume c => Sys2Proof.Machine.execWaitslotResume c s
  | .signalFull c => Sys2Proof.Machine.execSignalFull c s
  | .signalRelease c => Sys2Proof.Machine.execSignalRelease c s
  | .signalRemoteFull c => Sys2Proof.Machine.execSignalRemoteFull c s
  | .signalRemoteRelease c => Sys2Proof.Machine.execSignalRemoteRelease c s
  | .fence c => Sys2Proof.Machine.execFence c s
  | .fenceRelease c => Sys2Proof.Machine.execFenceRelease c s
  | .branch c => Sys2Proof.Machine.execBranch c s
  | .loopStart c => Sys2Proof.Machine.execLoopStart c s
  | .loopEnd c => Sys2Proof.Machine.execLoopEnd c s
  | .event c => Sys2Proof.Machine.execEvent c s
  | .halt c => Sys2Proof.Machine.execHalt c s
  | .seqGo r c => Sys2Proof.Machine.execSeqGo r c s
  | .seqStop r c => Sys2Proof.Machine.execSeqStop r c s
  | .seqClr r c => Sys2Proof.Machine.execSeqClr r c s
  | .trlGo r flash => Sys2Proof.Machine.execTrlGo r flash s
  | .trlImageReadDone flash => Sys2Proof.Machine.execTrlImageReadDone flash s
  | .trlVerifyDone => Sys2Proof.Machine.execTrlVerifyDone s
  | .cellarTrainDone failed => Sys2Proof.Machine.execCellarTrainDone failed s
  | .quiescePoint => Sys2Proof.Machine.execQuiescePoint s
  | .quiesceTimeout => Sys2Proof.Machine.execQuiesceTimeout s
  | .partitionApplyDone => Sys2Proof.Machine.execPartitionApplyDone s
  | .patrolScrubLine e => Sys2Proof.Machine.execPatrolScrubLine e s
  | .moduleThermal ch degC => Sys2Proof.Machine.execModuleThermal ch degC s
  | .cellarFillGo r => Sys2Proof.Machine.execCellarFillGo r s
  | .cellarFillHalt r => Sys2Proof.Machine.execCellarFillHalt r s
  | .cellarFillDone => Sys2Proof.Machine.execCellarFillDone s
  | .flitReceive p flit fecCorrected fecUncorrectable => Sys2Proof.Machine.execFlitReceive p flit fecCorrected fecUncorrectable s
  | .flitRetryTimeout p => Sys2Proof.Machine.execFlitRetryTimeout p s
  | .tchRetrain r p => Sys2Proof.Machine.execTchRetrain r p s
  | .tchDisable r p => Sys2Proof.Machine.execTchDisable r p s
  | .tchTrainDone p t => Sys2Proof.Machine.execTchTrainDone p t s
  | .tchLinkDown p => Sys2Proof.Machine.execTchLinkDown p s
  | .tchForward p => Sys2Proof.Machine.execTchForward p s
  | .tchWrite p => Sys2Proof.Machine.execTchWrite p s
  | .tchRead p => Sys2Proof.Machine.execTchRead p s
  | .tchSignal p => Sys2Proof.Machine.execTchSignal p s
  | .tchWack p => Sys2Proof.Machine.execTchWack p s
  | .tchRdata p => Sys2Proof.Machine.execTchRdata p s
  | .tchSack p => Sys2Proof.Machine.execTchSack p s
  | .tchNack p => Sys2Proof.Machine.execTchNack p s
  | .tchTimeout tag => Sys2Proof.Machine.execTchTimeout tag s
  | .tchSum p => Sys2Proof.Machine.execTchSum p s
  | .tchResult p => Sys2Proof.Machine.execTchResult p s
  | .tchStaged p => Sys2Proof.Machine.execTchStaged p s
  | .tchCommit p => Sys2Proof.Machine.execTchCommit p s
  | .tchAbort p => Sys2Proof.Machine.execTchAbort p s
  | .tchBarup p => Sys2Proof.Machine.execTchBarup p s
  | .tchBardown p => Sys2Proof.Machine.execTchBardown p s
  | .groupOpen r g epoch => Sys2Proof.Machine.execGroupOpen r g epoch s
  | .groupAbort r g => Sys2Proof.Machine.execGroupAbort r g s
  | .roundTimeout g tile => Sys2Proof.Machine.execRoundTimeout g tile s
  | .ethFrameReceive p f e => Sys2Proof.Machine.execEthFrameReceive p f e s
  | .hxtOpen assign inRate => Sys2Proof.Machine.execHxtOpen assign inRate s
  | .hxtAuth => Sys2Proof.Machine.execHxtAuth s
  | .hxtClose => Sys2Proof.Machine.execHxtClose s
  | .hxtWrite => Sys2Proof.Machine.execHxtWrite s
  | .hxtRead de => Sys2Proof.Machine.execHxtRead de s
  | .submitRing => Sys2Proof.Machine.execSubmitRing s
  | .submitReg => Sys2Proof.Machine.execSubmitReg s
  | .submitSignal => Sys2Proof.Machine.execSubmitSignal s
  | .submitAperture => Sys2Proof.Machine.execSubmitAperture s
  | .submitBindkey => Sys2Proof.Machine.execSubmitBindkey s
  | .hxtFence => Sys2Proof.Machine.execHxtFence s
  | .hxtKill => Sys2Proof.Machine.execHxtKill s
  | .hxtStat => Sys2Proof.Machine.execHxtStat s
  | .orderedMessageStart n => Sys2Proof.Machine.execOrderedMessageStart n s
  | .hxtMessageComplete n seq => Sys2Proof.Machine.execHxtMessageComplete n seq s
  | .hxtAckonly => Sys2Proof.Machine.execHxtAckonly s
  | .ackTimer n => Sys2Proof.Machine.execAckTimer n s
  | .hxtRtoExpiry n seq => Sys2Proof.Machine.execHxtRtoExpiry n seq s
  | .eventMessageSend n => Sys2Proof.Machine.execEventMessageSend n s
  | .halfopenTimeout n => Sys2Proof.Machine.execHalfopenTimeout n s
  | .lingerExpiry n => Sys2Proof.Machine.execLingerExpiry n s
  | .authLockoutExpiry tenant => Sys2Proof.Machine.execAuthLockoutExpiry tenant s
  | .gateEntryExpiry p => Sys2Proof.Machine.execGateEntryExpiry p s
  | .egressFrameDone p => Sys2Proof.Machine.execEgressFrameDone p s
  | .sesKillGo r n => Sys2Proof.Machine.execSesKillGo r n s
  | .tenantWrite r idx => Sys2Proof.Machine.execTenantWrite r idx s
  | .tenantClear r idx => Sys2Proof.Machine.execTenantClear r idx s
  | .provisionOwner hash => Sys2Proof.Machine.execProvisionOwner hash s
  | .rollbackAdvance r idx => Sys2Proof.Machine.execRollbackAdvance r idx s
  | .partitionKill r p => Sys2Proof.Machine.execPartitionKill r p s
  | .killScrubDone p => Sys2Proof.Machine.execKillScrubDone p s
  | .debugUnlock r => Sys2Proof.Machine.execDebugUnlock r s
  | .vendorUnlockEffect => Sys2Proof.Machine.execVendorUnlockEffect s
  | .debugExpiry => Sys2Proof.Machine.execDebugExpiry s
  | .attestationReport r => Sys2Proof.Machine.execAttestationReport r s
  | .attestationDone => Sys2Proof.Machine.execAttestationDone s
  | .coldReset mods => Sys2Proof.Machine.execColdReset mods s
  | .porchFirmwareLoaded copyA copyB pufOk => Sys2Proof.Machine.execPorchFirmwareLoaded copyA copyB pufOk s
  | .hubFirmwareLoaded copyA copyB => Sys2Proof.Machine.execHubFirmwareLoaded copyA copyB s
  | .sramZeroFillDone => Sys2Proof.Machine.execSramZeroFillDone s
  | .quadGate q => Sys2Proof.Machine.execQuadGate q s
  | .quadUngate q => Sys2Proof.Machine.execQuadUngate q s
  | .qoff r q alsoOn => Sys2Proof.Machine.execQoff r q alsoOn s
  | .qon r q alsoOff => Sys2Proof.Machine.execQon r q alsoOff s
  | .quadPowerOnDone q => Sys2Proof.Machine.execQuadPowerOnDone q s
  | .d3Request r => Sys2Proof.Machine.execD3Request r s
  | .d3EntryDone => Sys2Proof.Machine.execD3EntryDone s
  | .wakeMgmtFrame f => Sys2Proof.Machine.execWakeMgmtFrame f s
  | .wakePin pclk => Sys2Proof.Machine.execWakePin pclk s
  | .wakeTimer => Sys2Proof.Machine.execWakeTimer s
  | .d3WakeDone => Sys2Proof.Machine.execD3WakeDone s
  | .sensorSample x => Sys2Proof.Machine.execSensorSample x s
  | .thermalStepTick => Sys2Proof.Machine.execThermalStepTick s
  | .prochotIn pclk => Sys2Proof.Machine.execProchotIn pclk s
  | .i3cRead off len => Sys2Proof.Machine.execI3cRead off len s
  | .i3cWrite off data => Sys2Proof.Machine.execI3cWrite off data s
  | .i3cAddressAssign setdasa static_ dyn => Sys2Proof.Machine.execI3cAddressAssign setdasa static_ dyn s
  | .ptpSync x => Sys2Proof.Machine.execPtpSync x s
  | .ptpSyncLoss => Sys2Proof.Machine.execPtpSyncLoss s
  | .meterCharge => Sys2Proof.Machine.execMeterCharge s
  | .calscaleUpdate railsEnergy packageEnergy => Sys2Proof.Machine.execCalscaleUpdate railsEnergy packageEnergy s
  | .budgetWindowBoundary session idx => Sys2Proof.Machine.execBudgetWindowBoundary session idx s
  | .sessionBudgetWrite r lo v => Sys2Proof.Machine.execSessionBudgetWrite r lo v s
  | .hubWatchdog => Sys2Proof.Machine.execHubWatchdog s
  | .evtRdidxWrite r v => Sys2Proof.Machine.execEvtRdidxWrite r v s
  | .warmReset r alsoPreset => Sys2Proof.Machine.execWarmReset r alsoPreset s
  | .wrstPin pclk => Sys2Proof.Machine.execWrstPin pclk s
  | .partitionReset r p => Sys2Proof.Machine.execPartitionReset r p s
  | .coreQuiesce r c force alsoEnable => Sys2Proof.Machine.execCoreQuiesce r c force alsoEnable s
  | .coreQuiesceForce r c => Sys2Proof.Machine.execCoreQuiesceForce r c s
  | .coreQuiesceScrub c => Sys2Proof.Machine.execCoreQuiesceScrub c s
  | .coreEnable r c => Sys2Proof.Machine.execCoreEnable r c s
  | .tileForce r c => Sys2Proof.Machine.execTileForce r c s
  | .suspectClear r c => Sys2Proof.Machine.execSuspectClear r c s
  | .pmbusAlert pclk faults => Sys2Proof.Machine.execPmbusAlert pclk faults s
  | .railInTolerance rail => Sys2Proof.Machine.execRailInTolerance rail s
  | .railSequenceTimeout rail => Sys2Proof.Machine.execRailSequenceTimeout rail s
  | .avsUpdate q targetMv => Sys2Proof.Machine.execAvsUpdate q targetMv s
  | .ethLinkTrainDone p ok preempt => Sys2Proof.Machine.execEthLinkTrainDone p ok preempt s
  | .ethLinkLoss p => Sys2Proof.Machine.execEthLinkLoss p s
  | .mgmtFrameReceive f assign => Sys2Proof.Machine.execMgmtFrameReceive f assign s
  | .rekeyTimeout n => Sys2Proof.Machine.execRekeyTimeout n s
  | .convDone c => Sys2Proof.Machine.execConvDone c s
  | .sortDone c => Sys2Proof.Machine.execSortDone c s
  | .coreScrubDone c => Sys2Proof.Machine.execCoreScrubDone c s
  | .debugTokenCheckDone => Sys2Proof.Machine.execDebugTokenCheckDone s
  | .porstNAssert => Sys2Proof.Machine.execPorstNAssert s
  | .standbyPowerLoss => Sys2Proof.Machine.execStandbyPowerLoss s
  | .prochotNRelease => Sys2Proof.Machine.execProchotNRelease s
  | .cbsCreditRecovered p q => Sys2Proof.Machine.execCbsCreditRecovered p q s
  | .decommission => Sys2Proof.Machine.execDecommission s

end Sys2Proof.Machine
end

