-- ==== Sys2Proof/Machine/Step.lean ====
section
/-! DEFINITION. One step: the command at the front of the queue, or a PCLK edge where none waits (DESIGN CHOICE, log 1, DESIGN CHOICE, log 2). -/
namespace Sys2Proof.Machine

/-- Take the command at the front of the queue and run it with the queue's rest.
(DESIGN CHOICE, log 1; DESIGN CHOICE, log 11) -/
def step (s : State) : Host.Outcome State Fault Refusal :=
  match s.pending with
  | [] => .next s.idle
  | i :: rest => exec i { s with pending := rest }

/-- The state with the command a word spells put at the front of the queue; no word spells one (DESIGN CHOICE, log 2). -/
def State.withFetchWord (s : State) (nbits w : Nat) : State :=
  match decodeTableWord nbits w with
  | some i => { s with pending := i :: s.pending }
  | none => s

end Sys2Proof.Machine
end

