-- ==== Sys2Proof/WellFormed.lean ====
section
/-! DEFINITION. Operands an interface of the device can carry: widths and lengths that the types of `Instr` leave open. -/
namespace Sys2Proof

/-- An HXT frame fits its header's fields (R451). -/
def HxtFrame.wellFormed (f : HxtFrame) : Bool :=
  f.ver < 16 && f.typ < 256 && f.tx < 16 && f.session < 65536 && f.kepoch < 65536 && f.seq < 2 ^ 32 &&
  f.ack < 2 ^ 32 && f.frag < 65536 && f.nfrag < 65536 && f.len < 2 ^ 21 && f.tag.length = 16

/-- The transport frame a frame carries, if any, is well formed. -/
def FrameBody.wellFormed : FrameBody → Bool
  | .hxtUdp4 _ p h | .hxtUdp6 _ p h => p < 65536 && h.wellFormed
  | .hxtEty h => h.wellFormed
  | _ => true

/-- An Ethernet frame's length is at least the least of Ethernet, and what it carries is well formed. -/
def Frame.wellFormed (f : Frame) : Bool := 64 ≤ f.bytes && f.body.wellFormed

/-- The readings of a sample period: 64 diodes, 16 current points, 24 monitors (R513). -/
def Readings.wellFormed (x : Readings) : Bool :=
  decide (x.temp.length = 64) && decide (x.cur.length = 16) && decide (x.volt.length = 24)

/-- A word access is 1, 2 or 4 bytes wide. -/
def sizeOk (n : Nat) : Bool := n = 1 || n = 2 || n = 4

/-- The access from outside a core carries at least one byte and stays inside the core's megabyte. -/
def Access.wellFormed (off : Nat) : Access → Bool
  | .read n => 0 < n && off + n ≤ 0x100000
  | .write d => 0 < d.length && off + d.length ≤ 0x100000
  | .full | .release => true

/-- The operands are ones that an interface of the device can carry. -/
def Instr.wellFormed : Instr → Bool
  | .registerWrite _ _ n _ | .registerReadClear _ _ n => sizeOk n
  | .inboundAccess _ _ off x => x.wellFormed off.toNat
  | .flitReceive _ fl _ _ => decide (fl.length = 256)
  | .ethFrameReceive _ f _ | .mgmtFrameReceive f _ => f.wellFormed
  | .wakeMgmtFrame f => f.wellFormed
  | .sensorSample x => x.wellFormed
  | .groupPartialAdd _ _ _ _ _ rs _ => rs.all (· < 512)
  | .i3cWrite _ d => 0 < d.length
  | _ => true

end Sys2Proof
end

