-- ==== Sys2Proof/Safety.lean ====
section
/-! DEFINITION. The terms that statements use: what counts as a safe run, and what a command leaves unchanged. -/
namespace Sys2Proof

open Sys2Proof.Machine

/-- Every waiting command is well formed. -/
def QueueWellFormed (s : State) : Prop := ∀ i ∈ s.pending, i.wellFormed = true

/-- The step answers a next state. -/
def Goes (s : State) : Prop := ∃ t, Machine.step s = .next t

/-- `k` steps go on. -/
def Safe : Nat → State → Prop
  | 0, _ => True
  | k + 1, s => ∃ t, Machine.step s = .next t ∧ Safe k t

/-- The parts of the state. -/
inductive Part where
  | pending | free | outbox | regs | latches | mem | cores | sdt | pnt | clr | tch | eth | ses | sec | trl | cfg | retained
  | prc | mtr | evt
  deriving DecidableEq, Repr

/-- Two states hold the same in a part. -/
def Part.same (s t : State) : Part → Prop
  | .pending => t.pending = s.pending
  | .free => t.free = s.free
  | .outbox => t.outbox = s.outbox
  | .regs => t.regs = s.regs
  | .latches => t.latchRd = s.latchRd ∧ t.latchWr = s.latchWr
  | .mem => t.mem = s.mem
  | .cores => t.cores = s.cores
  | .sdt => t.sdt = s.sdt
  | .pnt => t.pnt = s.pnt
  | .clr => t.clr = s.clr
  | .tch => t.tch = s.tch
  | .eth => t.eth = s.eth
  | .ses => t.ses = s.ses
  | .sec => t.sec = s.sec
  | .trl => t.trl = s.trl
  | .cfg => t.cfg = s.cfg
  | .retained => t.retained = s.retained
  | .prc => t.prc = s.prc
  | .mtr => t.mtr = s.mtr
  | .evt => t.evt = s.evt

/-- From `s` to `t` nothing changes but what the listed parts hold. -/
def only (ps : List Part) (s t : State) : Prop := ∀ p, p ∈ ps ∨ p.same s t

/-- Of the registers, none but those at the listed addresses changes. -/
def onlyRegs (l : List Nat) (s t : State) : Prop := ∀ (d : W32) a, a ∈ l ∨ Sparse.get d t.regs a = Sparse.get d s.regs a

/-- Of the cores, none but `c` changes. -/
def onlyCore (c : Nat) (s t : State) : Prop := ∀ d, d ≠ c → t.core d = s.core d

/-- Of core `c`'s tiles, none but handle `h`'s changes. -/
def onlyTile (c h : Nat) (s t : State) : Prop := ∀ k, k ≠ h → t.tile c k = s.tile c k

/-- Of the dispensers, none but `d` changes. -/
def onlyDisp (d : Nat) (s t : State) : Prop := ∀ k, k ≠ d → t.disp k = s.disp k

/-- Of the sessions, none but `n` changes. -/
def onlySess (n : Nat) (s t : State) : Prop := ∀ k, k ≠ n → t.sess k = s.sess k

/-! ### What a sequencer's command does to the sequencer itself (R343, R345, R346, R371) -/

/-- A 32-bit counter has counted `k` more, or stands at its greatest value. -/
def counted (n : RegName) (c i k : Nat) (s t : State) : Prop :=
  t.rg n c i = BitVec.ofNat 32 (satAdd 32 (s.rg n c i).toNat k)

/-- Core `c`'s sequencer issues a command that does not block and goes on to the next one. -/
def goesOn (c : Nat) (s t : State) : Prop :=
  (t.core c).seq.rd = ((s.core c).seq.rd + 1) % 256 ∧ (t.core c).seq.wait = (s.core c).seq.wait ∧
    (t.core c).seq.halted = (s.core c).seq.halted ∧ counted .seqIssued c 0 1 s t

/-- Core `c`'s sequencer issues a command that blocks, and waits at it. -/
def waitsIn (c : Nat) (w : Wait) (s t : State) : Prop :=
  (t.core c).seq.rd = (s.core c).seq.rd ∧ (t.core c).seq.wait = w ∧ counted .seqIssued c 0 1 s t

/-- The blocking command of core `c` completes: the sequencer goes on, or halts for a STOP that came meanwhile. -/
def completes (c : Nat) (s t : State) : Prop :=
  (t.core c).seq.rd = ((s.core c).seq.rd + 1) % 256 ∧ (t.core c).seq.wait = .none ∧
    (t.core c).seq.halted = ((s.core c).seq.halted || (s.core c).seq.stop) ∧ (t.core c).seq.stop = false

/-- Memory changes at most in the read index of core `c`'s ring (R342). -/
def onlyRingIndex (c : Nat) (s t : State) : Prop :=
  ∀ a, a < spadBase c + (s.ringOff c + 4100) ∨ spadBase c + (s.ringOff c + 4104) ≤ a → t.byte a = s.byte a

/-- One event is appended to the log, with the time (R541). -/
def logged (e : Event) (s t : State) : Prop :=
  t.evt.cnt = s.evt.cnt + 1 ∧ Sparse.get none t.evt.log (s.evt.cnt % 8192) = some { e with time := s.prc.time }

/-- Core `c`'s sequencer fetches a command of an opcode. -/
def fetchesOp (c op : Nat) (s : State) : Prop := s.fetches c = true ∧ fld (s.fetchWord c) 7 0 = op

/-- Memory keeps its canonical form: addresses strictly rising, no entry that reads as an unlisted one. -/
abbrev MemWf (s : State) : Prop := Sparse.wf (0 : Byte) s.mem = true

end Sys2Proof
end

