-- ==== Sys2Proof/Certificates/Slice0/Obligations.lean ====
section
/-! DEFINITION. The statements for the provers. -/

open Sys2Proof Sys2Proof.Machine

/-! ### The step -/

/-- A step takes the command at the front of the queue and runs it with the queue's rest. -/
def Obligations.StepRunsFrontCommand : Prop :=
  ∀ (c : Instr) (rest : List Instr) (s : State), s.pending = c :: rest → step s = exec c { s with pending := rest }

/-- A step of a state where no command waits is one PCLK edge of the Porch, and nothing else changes (the model's choice, log
1); with PORST_N low or without standby power nothing happens. -/
def Obligations.EmptyQueueTicks : Prop :=
  ∀ s : State, s.pending = [] →
    ((s.prc.porst = false ∧ s.prc.standby = true) → ∃ t, step s = .next t ∧ only [.prc] s t ∧
      t.prc = { s.prc with
        time := (s.prc.time + (s.prc.frac + (s.prc.edge - s.prc.slewed)) / 2 ^ 32) % 2 ^ 64
        frac := (s.prc.frac + (s.prc.edge - s.prc.slewed)) % 2 ^ 32
        slew := s.prc.slew - s.prc.slewed }) ∧
    ((s.prc.porst = true ∨ s.prc.standby = false) → step s = .next s)

/-- No command but the front one leaves the queue, none joins it and none overtakes: the queue after a step is its rest. -/
def Obligations.QueueFirstInFirstOut : Prop :=
  ∀ s t : State, step s = .next t → t.pending = s.pending.tail

/-- Every step keeps memory in its canonical form. -/
def Obligations.MemoryStaysCanonical : Prop :=
  ∀ s t : State, MemWf s → step s = .next t → MemWf t

/-- Memory has its canonical form after reset, and every byte of it reads 0 there (log 6). -/
def Obligations.ResetMemory : Prop :=
  MemWf State.reset ∧ ∀ a, State.reset.byte a = 0

/-- A well-formed command never stops the block: it answers a next state in every state. That a command whose condition does
not hold leaves the state as it is is the model's choice (log 9). -/
def Obligations.NoCommandStops : Prop :=
  ∀ (i : Instr) (s : State), i.wellFormed = true → ∃ t, exec i s = .next t

/-! ### Registers -/

/-- REGISTER_WRITE (R577, R12, R14): an admitted write of a single register that starts no action sets the RW fields and
keeps every other bit; a reserved code leaves the whole register as it was; a refused write is dropped with its refusal
(R11). -/
def Obligations.RegisterWrite : Prop :=
  (∀ (r : Req) (a : Addr) (v : W32) (s : State) (x : RegRef), s.reach r a.toNat 4 true = some x → s.ungateFor x = s →
    reservedIn x.fields v.toNat = false → s.regBusy x v.toNat = false → actsClash x.n v.toNat = false → x.hi = false →
    x.n.row.pair = false → hasAcc x.fields .img = false → s.coreAct r x v.toNat = none → s.memAct r x v.toNat = none →
    s.hubAct r x v.toNat = none →
    ∃ t, exec (.registerWrite r a 4 v) s = .next t ∧
      t.rg x.n x.c x.i x.j = (s.rg x.n x.c x.i x.j &&& ~~~maskOf x.n.row.fs (· = .rw)) ||| (v &&& maskOf x.n.row.fs (· = .rw)) ∧
      onlyRegs [regAddr x.n x.c x.i x.j] s t ∧ t.outbox = s.outbox ++ [.done r] ∧ only [.regs, .outbox] s t) ∧
  (∀ (r : Req) (a : Addr) (v : W32) (s : State) (x : RegRef), s.reach r a.toNat 4 true = some x → s.ungateFor x = s →
    reservedIn x.fields v.toNat = true →
    exec (.registerWrite r a 4 v) s = .next ((s.access r x.addr).send (.done r))) ∧
  (∀ (r : Req) (a : Addr) (n : Nat) (v : W32) (s : State), s.reach r a.toNat n true = none →
    exec (.registerWrite r a n v) s = .next (s.refuse r a.toNat))

/-- REGISTER_READ_CLEAR (R14): a read returns the current value and clears the RC fields it holds; LO_HALF_READ (R13): a read
of _LO returns the low half and latches the high half of the same quantity; a refused read returns 0 (R11). A register that
streams no tile is meant. -/
def Obligations.RegisterReads : Prop :=
  (∀ (r : Req) (a : Addr) (s : State) (x : RegRef), s.reach r a.toNat 4 false = some x → s.ungateFor x = s →
    x.n.row.pair = false → x.hi = false → x.n ≠ .arrStatus → maskOf x.fields (· = .rc) ≠ 0 →
    ∃ t, exec (.registerReadClear r a 4) s = .next t ∧ t.outbox = s.outbox ++ [.regData r (s.regValue x)] ∧
      t.rg x.n x.c x.i x.j = s.regValue x &&& ~~~maskOf x.fields (· = .rc) ∧
      onlyRegs [regAddr x.n x.c x.i x.j] s t ∧ only [.regs, .outbox] s t) ∧
  (∀ (r : Req) (a : Addr) (s : State) (x : RegRef), s.reach r a.toNat 4 false = some x → s.ungateFor x = s →
    x.n.row.pair = true → x.hi = false → maskOf x.fields (· = .rc) = 0 → x.n ≠ .arrStatus →
    ∃ t, exec (.loHalfRead r a) s = .next t ∧ t.outbox = s.outbox ++ [.regData r (s.regValue x)] ∧
      t.readValue { x with hi := true } = s.regValue { x with hi := true } ∧ t.latchWr = s.latchWr ∧
      only [.latches, .outbox] s t) ∧
  (∀ (r : Req) (a : Addr) (n : Nat) (s : State),
    (s.reach r a.toNat n false = none → exec (.registerReadClear r a n) s = .next ((s.refuse r a.toNat).send (.regData r 0))) ∧
    (s.reach r a.toNat 4 false = none → exec (.loHalfRead r a) s = .next ((s.refuse r a.toNat).send (.regData r 0))))

/-- A latched high half is returned by the next read of _HI, whatever the quantity has become, and that read consumes the
latch (R13). -/
def Obligations.LatchedHalfIsReadOnce : Prop :=
  ∀ (s : State) (x : RegRef) (v : W32), x.n.row.pair = true → x.hi = true →
    Sparse.get none s.latchRd (regAddr x.n x.c x.i x.j) = some v →
    s.readValue x = v ∧ (s.latchFor x).readValue x = (s.latchFor x).regValue x

/-! ### The array and the Gauge -/

/-- Bricks (R81, R86, R89, R91): a brick whose previous step is done, whose step's load is active, with its operands there
and its run-ahead granted, begins the step at the latest of the end of its previous step, that grant, and the filling of its
lane registers; a step ends after its cost and promotions, and its cost counts in ARR_BCYC; a swap takes the load of the next
step into the active lane registers once the shadow registers are full. Numbering steps over K-slices and passes, the bound
on promotions, the order in which waits are counted and the fill order of the registers are readings of the spec (logs 37,
126, 127, 129). -/
def Obligations.Bricks : Prop :=
  (∀ (c : CoreId) (b : BrickId) (promo h ahead : Nat) (u s : State),
    let g := s.geo c.val h
    let k := (s.core c.val).arr.brick b.val
    (s.core c.val).arr.cur = some h → s.coreOpen c.val = true → s.isImatch c.val h = false → b.val < g.bricks →
    k.done = k.begun → k.begun < g.steps → k.active = some (g.load k.begun) → s.aheadAt c.val h g k.begun = some ahead →
    s.opsReady c.val h g (g.kRange (g.stepAt k.begun).2.1).2 = (true, u) →
    ∃ t, exec (.brickStepBegin c b promo .none) s = .next t ∧
      ((t.core c.val).arr.brick b.val).begun = k.begun + 1 ∧ ((t.core c.val).arr.brick b.val).done = k.done ∧
      ((t.core c.val).arr.brick b.val).beginT = max (max k.doneT ahead) k.ready ∧
      onlyCore c.val u t ∧ only [.cores, .regs] u t) ∧
  (∀ (c : CoreId) (b : BrickId) (h : Nat) (s : State),
    let g := s.geo c.val h
    let k := (s.core c.val).arr.brick b.val
    (s.core c.val).arr.cur = some h → s.coreOpen c.val = true → k.begun = k.done + 1 → b.val < g.bricks →
    k.done + 1 < g.steps →
    ∃ t, exec (.brickStepComplete c b) s = .next t ∧
      ((t.core c.val).arr.brick b.val).done = k.done + 1 ∧
      ((t.core c.val).arr.brick b.val).doneT = k.beginT + k.cost + k.promo ∧
      t.rg64 .arrBcyc c.val = (s.rg64 .arrBcyc c.val + k.cost) % 2 ^ 64 ∧
      onlyCore c.val s t ∧ only [.cores, .regs] s t) ∧
  (∀ (c : CoreId) (b : BrickId) (full h : Nat) (u s : State),
    let g := s.geo c.val h
    let k := (s.core c.val).arr.brick b.val
    (s.core c.val).arr.cur = some h → s.coreOpen c.val = true → s.isImatch c.val h = false → b.val < g.bricks →
    k.done = k.begun → k.begun < g.steps → k.active ≠ some (g.load k.begun) →
    (s.core c.val).arr.fullOk (g.fillTime k.begun) b.val full = true →
    s.sideReady c.val h g.d.parallel g (g.kRange (g.stepAt k.begun).2.1).2 = (true, u) →
    ∃ t, exec (.brickSwap c b full) s = .next t ∧
      (t.core c.val).arr.brick b.val =
        { k with active := some (g.load k.begun), ready := full, fulls := k.fulls ++ [full],
                 lanes := u.loadWords c.val h g b.val k.begun, shadow := k.lanes } ∧
      onlyCore c.val u t ∧ only [.cores] u t)

/-- Anchors and group partials: the anchors of a step row are written, the rows before it having theirs, and its outputs
marked (R104); a group partial is added once, by R105 to R107, to each active output of its row (R92); ARR_CNTCLR sets the
six counter pairs to 0 (R132). An error of the residue check comes with the command (log 10); what the table holds past the
actual lengths is the model's choice (log 130). -/
def Obligations.AnchorsAndPartials : Prop :=
  (∀ (c : CoreId) (h : Handle) (step at_ : Nat) (u s : State),
    let g := s.geo c.val h.val
    let row := (g.stepAt step).1
    s.coreOpen c.val = true → (s.tile c.val h.val).opened = true → s.isImatch c.val h.val = false →
    (s.tile c.val h.val).sumFrom = false → step < g.steps → (s.tile c.val h.val).anchored g row = false →
    (upTo row).all ((s.tile c.val h.val).anchored g) = true → s.stalled c.val (.anch h.val row) = false →
    (s.tile c.val h.val).pre = none → s.scalesReady c.val h.val g = (true, u) → (s.core c.val).arr.cur ≠ some h.val →
    (∀ n, u.slotCheck c.val (anchorOff g.d h.val g.outs (row * g.cols)) (2 * g.colsA) true pOut ≠ .stall n) → g.colsA ≤ g.cols →
    (s.tile c.val h.val).acc.length = g.rows * g.cols → row < g.rows →
    ∃ t, exec (.anchorTableWritten c h step at_) s = .next t ∧
      (∀ k, k < g.colsA → k < g.cols → (t.tile c.val h.val).acc[row * g.cols + k]? = some
        { anchor := g.anchor ((u.tile c.val h.val).bind g.d.serial.weight) ((u.tile c.val h.val).bind g.d.parallel.weight) row k none,
          anch := true }) ∧
      onlyCore c.val u t) ∧
  (∀ (c : CoreId) (h : Handle) (step group pass : Nat) (s : State),
    let g := s.geo c.val h.val
    let u := s.tile c.val h.val
    let row := (g.stepAt step).1
    s.coreOpen c.val = true → u.opened = true → u.ended = false → s.isImatch c.val h.val = false → u.sumFrom = false →
    step < g.steps → pass = (g.stepAt step).2.2 → (g.groupsOf (g.stepAt step).2.1).contains group = true →
    g.rowLive u row = true → u.anchored g row = true → u.added.contains (step, group, pass) = false →
    s.groupDone c.val h.val g step group = true →
    u.pass2 = false → u.added.length + 1 < g.addsDue u →
    ∃ t, exec (.groupPartialAdd c h step group pass [] .none) s = .next t ∧
      (t.tile c.val h.val).added = (step, group, pass) :: u.added ∧
      (∀ k a, u.acc[row * g.cols + k]? = some a → k < g.cols → k < g.colsA → a.active = true →
        (t.tile c.val h.val).acc[row * g.cols + k]? =
          some (a.take g.regime (s.groupPart c.val h.val g row k group pass a.anchor).1 false)) ∧
      onlyCore c.val s t ∧ onlyTile c.val h.val s t ∧ only [.cores] s t) ∧
  (∀ (c : CoreId) (s : State), s.coreOpen c.val = true →
    ∃ t, exec (.arrCntclr c) s = .next t ∧
      (∀ n, n ∈ [RegName.arrBcyc, .arrBstep, .arrZskip, .arrWait, .arrLstall, .arrPstall] → t.rg64 n c.val = 0) ∧
      only [.regs] s t)

/-- The Gauge (R149, R150): the samples of the first tile it holds begin when its operands and anchors are there; when they
have finished the tile gives up its place and the delay counts in GAU_WAIT. The waiting time is an operand (log 10). -/
def Obligations.GaugeSamples : Prop :=
  (∀ (c : CoreId) (h : Handle) (u s : State),
    s.coreOpen c.val = true → (s.tile c.val h.val).opened = true → (s.tile c.val h.val).gst = .due →
    (s.core c.val).gauge.head? = some h.val → (s.tile c.val h.val).allAnchored (s.geo c.val h.val) = true →
    s.opsReady c.val h.val (s.geo c.val h.val) (s.geo c.val h.val).k1 = (true, u) →
    ∃ t, exec (.gaugeSampleStart c h) s = .next t ∧
      t.tile c.val h.val = { u.tile c.val h.val with gst := .running } ∧
      onlyTile c.val h.val u t ∧ onlyCore c.val u t ∧ only [.cores] u t) ∧
  (∀ (c : CoreId) (h : Handle) (waited : Nat) (s : State),
    s.coreOpen c.val = true → (s.tile c.val h.val).gst = .running → (s.tile c.val h.val).ended = false →
    ∃ t, exec (.gaugeSampleDone c h waited) s = .next t ∧
      t.tile c.val h.val = { s.tile c.val h.val with gst := .finished } ∧
      (t.core c.val).gauge = (s.core c.val).gauge.filter (· ≠ h.val) ∧
      t.rg .gauWait c.val = BitVec.ofNat 32 (satAdd 32 (s.rg .gauWait c.val).toNat waited) ∧
      onlyRegs [regAddr .gauWait c.val 0 0] s t ∧ onlyTile c.val h.val s t ∧ onlyCore c.val s t ∧ only [.cores, .regs] s t)

/-! ### The output path and the Sieve -/

/-- The output path (R223, R224, R160, R162): a chunk whose auxiliary rows and history are read passes and counts; once the
last has passed with nothing saturated and AMAXUNF off, the path of the tile has ended; under the JIT response a saturating
pass is run again from the first chunk. -/
def Obligations.OutputPath : Prop :=
  (∀ (c : CoreId) (h : Handle) (denied : Nat) (ax : List (Nat × W32 × W32)) (bad : List Nat) (hist : Option (List Byte))
      (u v s : State),
    let g := s.geo c.val h.val
    let es := s.chunkElts c.val h.val g (s.tile c.val h.val).chunk
    s.coreOpen c.val = true → s.pathOpen c.val h.val = true → (s.tile c.val h.val).chunk < s.chunkTotal c.val h.val g →
    (if g.d.auxen && !Desc.imatch g.d then
        s.auxOf c.val h.val g (g.liveRows (((upTo es.length).zip es).filter (fun y => g.inside y.2))) [] []
      else (some ([], []), s)) = (some (ax, bad), u) →
    u.history c.val h.val g = (some hist, v) →
    ∃ t, exec (.outputChunk c h denied .none) s = .next t ∧
      (t.tile c.val h.val).chunk = (v.tile c.val h.val).chunk + 1 ∧ (t.tile c.val h.val).outSt = .running) ∧
  (∀ (c : CoreId) (h : Handle) (s : State), s.coreOpen c.val = true → s.pathOpen c.val h.val = true →
    (s.tile c.val h.val).chunk = s.chunkTotal c.val h.val (s.geo c.val h.val) → 0 < s.chunkTotal c.val h.val (s.geo c.val h.val) →
    (s.geo c.val h.val).d.dsmode = 0 → (s.tile c.val h.val).satOut = false →
    ∃ t, exec (.outputPathEnd c h) s = .next t ∧ t.tile c.val h.val = { s.tile c.val h.val with outSt := .ended } ∧
      onlyTile c.val h.val s t ∧ onlyCore c.val s t ∧ only [.cores] s t) ∧
  (∀ (c : CoreId) (h : Handle) (s : State), s.coreOpen c.val = true → s.pathOpen c.val h.val = true →
    (s.tile c.val h.val).chunk = s.chunkTotal c.val h.val (s.geo c.val h.val) → 0 < s.chunkTotal c.val h.val (s.geo c.val h.val) →
    (s.geo c.val h.val).d.dsmode = 2 → (s.tile c.val h.val).jit = false → (s.tile c.val h.val).satOut = true →
    ∃ t, exec (.outputPathEnd c h) s = .next t ∧ (t.tile c.val h.val).jit = true ∧ (t.tile c.val h.val).chunk = 0 ∧
      (t.tile c.val h.val).satOut = false ∧ (t.tile c.val h.val).acc = (s.tile c.val h.val).acc ∧
      t.rg .gauJit c.val = BitVec.ofNat 32 (satAdd 32 (s.rg .gauJit c.val).toNat 1) ∧
      onlyTile c.val h.val s t ∧ onlyCore c.val s t ∧ only [.cores, .regs] s t)

/-- The Sieve: a row of an index-match tile ends and the next one is due (R200); the merge tree makes one run of a row's
first 8 where more wait (R203); a running MERGE ends (R345); a merged row leaves the hub's table for its core (R206); the end
of a scout pass completes a waiting SCOUT with the count of active outputs (R209, R362). How a scout latches its settings and
where the flags of a merged row stand are readings of the spec (logs 42, 51). -/
def Obligations.SieveCommands : Prop :=
  (∀ (c : CoreId) (h : Handle) (qa qw : Idx) (u v w x s : State),
    let g := s.geo c.val h.val
    s.coreOpen c.val = true → (s.tile c.val h.val).opened = true → s.isImatch c.val h.val = true →
    (s.core c.val).arr.cur = some h.val → (s.tile c.val h.val).row < g.rowsA →
    s.idxOf c.val h.val false (g.sideBase false).2 = (some qa, u) →
    u.idxOf c.val h.val true ((if g.d.batw then g.d.tb else 1) * g.d.kA g.alen) = (some qw, v) →
    v.slotScales c.val h.val g.d.sideA g = (true, w) → w.slotScales c.val h.val g.d.sideW g = (true, x) →
    ((s.core c.val).loadStall h.val).isNone = true →
    ((x.imRow c.val h.val g qa qw (s.tile c.val h.val).row).core c.val).loadStall h.val = none →
    ∃ t, exec (.imatchRowEnd c h) s = .next t ∧ (t.tile c.val h.val).row = (s.tile c.val h.val).row + 1) ∧
  (∀ (c : CoreId) (h row : Nat) (s : State), s.coreOpen c.val = true → (s.core c.val).mergeNext = some (h, row) →
    8 < ((s.tile c.val h).runs.filter (·.row = row)).length →
    ∃ t, exec (.mergeTreeDone c false) s = .next t ∧
      (t.tile c.val h).runs = (s.tile c.val h).runs.filter (·.row ≠ row) ++ ((s.tile c.val h).runs.filter (·.row = row)).drop 8 ++
        [{ row := row, recs := mergeKeep (fun n => (s.tile c.val h).imNan.contains (row, n))
             ((((s.tile c.val h).runs.filter (·.row = row)).take 8).map (·.recs)) }] ∧
      onlyTile c.val h s t ∧ onlyCore c.val s t ∧ only [.cores] s t) ∧
  (∀ (c : CoreId) (j : Job) (u s : State), s.coreOpen c.val = true → s.runningJob c.val .merge = some j →
    s.stalled c.val (.eng .merge) = false → s.mergeJob c.val j = (true, u) →
    ∃ t, exec (.mergeTreeDone c true) s = .next t ∧
      (∀ k ∈ (t.core c.val).seq.jobs, k.eng = .merge → { k with running := false } ∈ (u.core c.val).seq.jobs) ∧
      onlyCore c.val u t ∧ only [.cores] u t) ∧
  (∀ (d : DispId) (row : Nat) (r : HubRow) (s : State),
    s.sdt.hub.find? (fun r => r.disp = d.val && r.row = row && r.full) = some r →
    s.coreOpen r.core = true →
    ∃ t, exec (.hubMergeDeliver d row) s = .next t ∧ t.sdt.hub = s.sdt.hub.erase r) ∧
  (∀ (c : CoreId) (h : Handle) (sd : Nat) (s : State), s.coreOpen c.val = true → (s.tile c.val h.val).opened = true →
    (s.tile c.val h.val).sst = .running →
    (s.geo c.val h.val).addsDue (s.tile c.val h.val) ≤ (s.tile c.val h.val).added.length →
    (s.tile c.val h.val).st = .claimed → (s.core c.val).seq.wait = .scout h.val sd →
    ∃ t, exec (.scoutPassDone c h) s = .next t ∧ (t.tile c.val h.val).pass2 = true ∧ (t.core c.val).seq.wait = .none ∧
      t.scalar c.val sd = (t.tile c.val h.val).activeCount (s.geo c.val h.val) % 2 ^ 64)

/-- SORT (R207): the permutation lists every row once, bucket by bucket, and rows of one bucket in their own order; a bucket
holds the rows whose count lies between its boundary and the next, the last being open above; each start is the place of the
bucket's first row. -/
def Obligations.SortOrder : Prop :=
  ∀ (bnd counts : List Nat), bnd ≠ [] → bnd.getD 0 0 = 0 → bnd.Pairwise (· < ·) →
    (sortOf bnd counts).1.Perm (List.range counts.length) ∧
    (∀ n, bucketOf bnd n < bnd.length ∧ bnd.getD (bucketOf bnd n) 0 ≤ n ∧
      (bucketOf bnd n + 1 < bnd.length → n < bnd.getD (bucketOf bnd n + 1) 0)) ∧
    (∀ i j a b : Nat, i < j → (sortOf bnd counts).1[i]? = some a → (sortOf bnd counts).1[j]? = some b →
      bucketOf bnd (counts.getD a 0) < bucketOf bnd (counts.getD b 0) ∨
      (bucketOf bnd (counts.getD a 0) = bucketOf bnd (counts.getD b 0) ∧ a < b)) ∧
    (∀ b k : Nat, (sortOf bnd counts).2[b]? = some k →
      k = ((List.range counts.length).filter (fun r => bucketOf bnd (counts.getD r 0) < b)).length)

/-! ### The engines -/

/-- The engines' queue places (R345, R353, R248): the layer's image goes into program store 0 with its cost; a command that
waits for its engine's place takes it and the sequencer goes on; a queued VPROG starts with its image in store 1. -/
def Obligations.EngineQueues : Prop :=
  (∀ (c : CoreId) (x : Ctx) (bs : List Byte) (u s : State), s.progCtx c.val = some x → s.coreOpen c.val = true →
    s.stalled c.val .prog = false → s.olderOwed c.val x.id = false →
    s.engRead c.val (Desc.eprog x.desc) 176 cVec (s.core c.val).vec.asStored = (.ok bs, u) →
    ∃ t, exec (.programStoreLoad c) s = .next t ∧ (t.core c.val).vec.store0 = BitVec.ofNat 1408 (ofLe bs) ∧
      (t.core c.val).vec.store1 = (u.core c.val).vec.store1 ∧ (t.core c.val).seq.ctxs.length = (u.core c.val).seq.ctxs.length ∧
      onlyCore c.val u t ∧ only [.cores] u t) ∧
  (∀ (c : CoreId) (e : Engine) (s : State), s.coreOpen c.val = true → (s.core c.val).seq.wait = .engine e →
    s.placeFree c.val e = true →
    ∃ t, exec (.engineQueueAdmit c e) s = .next t ∧ (t.core c.val).seq.wait = .none ∧
      (t.core c.val).seq.rd = ((s.core c.val).seq.rd + 1) % 256 ∧
      (∃ j ∈ (t.core c.val).seq.jobs, j.eng = e ∧ j.cmd = s.fetchWord c.val)) ∧
  (∀ (c : CoreId) (j : Job) (u s : State), s.queuedJob c.val .vprog = some j → s.coreOpen c.val = true →
    s.runningJob c.val .vprog = none → s.stalled c.val (.eng .vprog) = false →
    s.vprogHeld c.val j.cmd (s.vprogImage c.val j.cmd) = false →
    s.jobTouch c.val .vprog j.asStored cVec (vprogImageAt j.cmd) = (true, u) →
    ∃ t, exec (.vprogStart c) s = .next t ∧ (t.core c.val).vec.store1 = s.vprogImage c.val j.cmd ∧
      t.runningJob c.val .vprog = some { j with running := true } ∧ onlyCore c.val u t ∧ only [.cores] u t)

/-- The engines' commands complete (R248, R250, R345, R349): the command leaves its engine; a VPROG and a RAKE over a tile
register latch the summary of their elements. Summary registers of a command over records are free values (log 25). -/
def Obligations.EngineCompletions : Prop :=
  (∀ (c : CoreId) (j : Job) (s : State),
    let n := vprogLen j.cmd j.vlen
    let ins := (upTo n).map (fun i => (Vec.treg (s.core c.val).vec (fld j.cmd 39 37) i, (0 : W32)))
    let r := s.vprogRun c.val j.cmd (s.core c.val).vec.store1 ins
    let live := r.out.filter (fun y => !y.2.2)
    let sm := summaryOf (Prog.oty (s.core c.val).vec.store1) r.isat (live.length < r.out.length) (!j.asStored.isEmpty) (s.sx c.val)
      (live.map (·.1))
    s.runningJob c.val .vprog = some j → s.coreOpen c.val = true → s.stalled c.val (.eng .vprog) = false →
    s.vprogHeld c.val j.cmd (s.core c.val).vec.store1 = false → flag j.cmd 36 = true → flag j.cmd 45 = false →
    ∃ t, exec (.vprogDone c) s = .next t ∧ t.rg .vecSmax c.val = sm.smax ∧ t.rg .vecSsum c.val = sm.ssum ∧
      t.rg .vecScnt c.val = sm.scnt ∧ t.rg .vecSflg c.val = sm.sflg ∧
      (t.core c.val).seq.jobs = (s.core c.val).seq.jobs.filter (fun k => !(k.eng = .vprog && k.running)) ∧
      (t.core c.val).vec = zeroMasked j.cmd r ∧ onlyCore c.val s t ∧ only [.cores, .regs] s t) ∧
  (∀ (c : CoreId) (j : Job) (s : State),
    let n := min j.vlen 1024
    let es := s.rakeElems c.val j.cmd n
    let sm := summaryOf (flag j.cmd 39) false false (!j.asStored.isEmpty) (s.sx c.val) es
    s.runningJob c.val .rake = some j → s.coreOpen c.val = true → s.stalled c.val (.eng .rake) = false →
    flag j.cmd 35 = true → fld j.cmd 11 8 ≠ 8 → (s.core c.val).seq.jobs.filter (fun k => k.eng = .rake) = [j] →
    ∃ t, exec (.rakeDone c) s = .next t ∧ t.rg .vecSmax c.val = sm.smax ∧ t.rg .vecSsum c.val = sm.ssum ∧
      t.rg .vecScnt c.val = sm.scnt ∧ t.rg .vecSflg c.val = sm.sflg ∧
      (t.core c.val).seq.jobs.filter (fun k => k.eng = .rake) = []) ∧
  (∀ (c : CoreId) (j : Job) (u s : State),
    let g := gsizeOf (fld j.cmd 79 78)
    let sca := fld j.cmd 35 22 * 32
    let ts := streamSels (fld j.cmd 40 36) (fld j.cmd 42 41 = 1) sca (fld j.cmd 101 86) j.vlen g
    s.runningJob c.val .conv = some j → s.coreOpen c.val = true → s.stalled c.val (.eng .conv) = false →
    s.jobTouch c.val .conv j.asStored cVec [(fld j.cmd 21 8 * 32, streamBytes (fld j.cmd 40 36) (fld j.cmd 101 86) j.vlen),
      (sca, if fld j.cmd 42 41 = 1 then streamScales (fld j.cmd 101 86) j.vlen g else 0), (sca + ts.1, ts.2)] = (true, u) →
    (s.core c.val).seq.jobs.filter (fun k => k.eng = .conv) = [j] →
    ∃ t, exec (.convDone c) s = .next t ∧ (t.core c.val).seq.jobs.filter (fun k => k.eng = .conv) = []) ∧
  (∀ (c : CoreId) (j : Job) (u s : State), s.runningJob c.val .sort = some j → s.coreOpen c.val = true →
    s.stalled c.val (.eng .sort) = false →
    s.jobTouch c.val .sort j.asStored cTile [(fld j.cmd 21 8 * 32, 4 * (fld j.cmd 99 68 + 1)),
      (fld j.cmd 35 22 * 32, 4 * (fld j.cmd 39 36 + 1))] = (true, u) →
    (s.core c.val).seq.jobs.filter (fun k => k.eng = .sort) = [j] →
    ∃ t, exec (.sortDone c) s = .next t ∧ (t.core c.val).seq.jobs.filter (fun k => k.eng = .sort) = [])

/-! ### Slots, windows and DMA -/

/-- Slot states (R272, R273): FULL is entered from EMPTY or FILLING alone; a release counts only for a class of CMASK, under
HOLD not for TILE, VEC or RAKE, while the slot is FULL or DRAINING, leaves it DRAINING, and empties it with the last class
that must release. -/
def Obligations.SlotStates : Prop :=
  (∀ (c n : Nat) (s : State), s.declared c n = true → (s.slot c n).st = .empty ∨ (s.slot c n).st = .filling →
    s.barrierOf c n = none → s.slotFull c n = s.setSlot c n { st := .full }) ∧
  (∀ (c n : Nat) (s : State), (s.slot c n).st = .full ∨ (s.slot c n).st = .draining → s.slotFull c n = s) ∧
  (∀ (c n cls : Nat) (s : State), s.declared c n = true → (s.cmask c n).testBit cls = true → (s.slotHold c n && cls < 3) = false →
    (s.slot c n).st = .full ∨ (s.slot c n).st = .draining →
    ((s.slotRelease c n cls).slot c n =
      if (s.mustRelease c n) &&& setBits (s.slot c n).rel cls 1 1 = s.mustRelease c n then {}
      else { st := .draining, rel := setBits (s.slot c n).rel cls 1 1 }) ∧
    (∀ m, m ≠ n → (s.slotRelease c n cls).slot c m = s.slot c m) ∧ onlyCore c s (s.slotRelease c n cls) ∧
    only [.cores] s (s.slotRelease c n cls)) ∧
  (∀ (c n cls : Nat) (s : State),
    (s.cmask c n).testBit cls = false ∨ (s.slotHold c n && cls < 3) = true ∨ (s.slot c n).st = .empty ∨ (s.slot c n).st = .filling →
    s.slotRelease c n cls = s)

/-- SLOT_DECLARE (R271): an admitted declaration stands in the slot's registers; one that R271 forbids changes neither
register and is recorded. SLOT_CLEAR (R273) makes the slot EMPTY. At a core whose space is closed both are refused (R30). -/
def Obligations.SlotDeclarations : Prop :=
  (∀ (c : CoreId) (n : SlotId) (v : W32) (s : State), s.coreOpen c.val = true → bits v.toNat 1 3 < 5 → v.toNat.testBit 15 = false →
    s.declared c.val n.val = false → v.toNat.testBit 0 = true →
    s.declBad c.val n.val (s.rg .spdSlotBase c.val n.val).toNat (v.toNat % 2 ^ 13) = false →
    ∃ t, exec (.slotDeclare c n true v) s = .next t ∧ t.rg .spdSlotCfg c.val n.val = BitVec.ofNat 32 (v.toNat % 2 ^ 13) ∧
      t.declared c.val n.val = true ∧ onlyRegs [regAddr .spdSlotBase c.val n.val 0, regAddr .spdSlotCfg c.val n.val 0] s t ∧
      only [.regs] s t) ∧
  (∀ (c : CoreId) (n : SlotId) (v : W32) (s : State), s.coreOpen c.val = true → bits v.toNat 1 3 < 5 →
    s.declared c.val n.val = false → v.toNat.testBit 0 = true →
    s.declBad c.val n.val (s.rg .spdSlotBase c.val n.val).toNat (v.toNat % 2 ^ 13) = true →
    exec (.slotDeclare c n true v) s = .next (s.declRefuse c.val n.val)) ∧
  (∀ (c : CoreId) (n : SlotId) (s : State), s.coreOpen c.val = true →
    ∃ t, exec (.slotClear c n) s = .next t ∧ t.slot c.val n.val = {} ∧ (∀ m, m ≠ n.val → t.slot c.val m = s.slot c.val m) ∧
      onlyCore c.val s t ∧ only [.cores] s t) ∧
  (∀ (c : CoreId) (n : SlotId) (v : W32) (s : State), s.coreOpen c.val = false →
    exec (.slotDeclare c n true v) s = .next (s.refuse (.core c) (regAddr .spdSlotCfg c.val n.val 0)) ∧
    exec (.slotClear c n) s = .next (s.refuse (.core c) (regAddr .spdSlotCfg c.val n.val 0)))

/-- Stalled accesses (R275): one goes on when its slot's state allows it, and leaves the list; one that times out on a read
of a tile takes the data as stored with POISON. An access from outside reads and writes the scratchpad, and fills and
releases a slot, through a window (R285, R361). -/
def Obligations.StallsAndInbound : Prop :=
  (∀ (c : CoreId) (i ch : Nat) (x : Stall) (s : State), (s.core c.val).stalls[i]? = some x → s.coreOpen c.val = true →
    s.stallFree c.val x = true → (s.core c.val).stallFirst i x = true → x.who = .dma ch →
    ∃ t, exec (.slotAccessResume c i) s = .next t ∧ (t.core c.val).stalls = (s.core c.val).stalls.eraseIdx i ∧
      (t.chan c.val ch).st = .run ∧ onlyCore c.val s t ∧ only [.cores] s t) ∧
  (∀ (c : CoreId) (i h : Nat) (w : Bool) (x : Stall) (s : State), (s.core c.val).stalls[i]? = some x → s.coreOpen c.val = true →
    s.stallFree c.val x = false → (s.core c.val).stallFirst i x = true → x.who = .tile h w → x.wr = false →
    ∃ t, exec (.slotTimeout c i) s = .next t ∧ (t.core c.val).stalls = (s.core c.val).stalls.eraseIdx i ∧
      slotKey (x.core c.val) x.slot ∈ ((t.tile c.val h).bind w).asStored ∧ ((t.tile c.val h).tsw.toNat.testBit 13) = true ∧
      t.rg .spdLasterr c.val = BitVec.ofNat 32 (pack [(4, 1), (6, x.slot), (1, 0)])) ∧
  (∀ (r : Req) (c : CoreId) (off : BitVec 20) (bs : List Byte) (s : State), s.coreOpen c.val = true → off.toNat + bs.length ≤ 0x80000 →
    reqCore r ≠ some c.val → s.admitted r c.val off.toNat bs.length .wr = true →
    s.slotCheck c.val off.toNat bs.length true (reqClass r).1 = .ok → s.behind r c.val off.toNat bs.length true = none →
    ∃ t, exec (.inboundAccess r c off (.write bs)) s = .next t ∧ t.spad c.val off.toNat bs.length = bs ∧
      (∀ a, (a < spadBase c.val + off.toNat ∨ spadBase c.val + off.toNat + bs.length ≤ a) → t.byte a = s.byte a) ∧
      t.outbox = s.outbox ++ [.done r] ∧ onlyCore c.val s t) ∧
  (∀ (r : Req) (c : CoreId) (off : BitVec 20) (n : Nat) (s : State), s.coreOpen c.val = true → off.toNat + n ≤ 0x80000 →
    off.toNat < 0x80000 → reqCore r ≠ some c.val → s.admitted r c.val off.toNat n .rd = true →
    s.slotCheck c.val off.toNat n false (reqClass r).2 = .ok → s.behind r c.val off.toNat n false = none →
    ∃ t, exec (.inboundAccess r c off (.read n)) s = .next t ∧ t.outbox = s.outbox ++ [.data r (s.spad c.val off.toNat n)] ∧
      only [.cores, .outbox, .prc] s t) ∧
  (∀ (r : Req) (c : CoreId) (off : BitVec 20) (m : Nat) (s : State), s.coreOpen c.val = true → off.toNat < 0x80000 →
    s.admitted r c.val off.toNat 1 .sig = true → s.slotFrom c.val off.toNat = some m →
    ((s.slot c.val m).st = .empty ∨ (s.slot c.val m).st = .filling → (s.setSlot c.val m { st := .full }).barrierOf c.val m = none →
      ∃ t, exec (.inboundAccess r c off .full) s = .next t ∧ t.slot c.val m = { st := .full } ∧ t.outbox = s.outbox ++ [.done r] ∧
        t.mem = s.mem ∧ onlyCore c.val s t) ∧
    (∃ t, exec (.inboundAccess r c off .release) s = .next t ∧
      t.slot c.val m = (s.slotRelease c.val m (reqClass r).2).slot c.val m ∧ t.outbox = s.outbox ++ [.done r] ∧ t.mem = s.mem ∧
      onlyCore c.val s t))

/-- DMA (R277, R278, R284, R292, R305): GO on a free channel starts its chain with the channel running or with the state that
the reading of its descriptor leaves; HALT marks a running one, and halts one that has no row left; a local COPY row is
stored and counted; the last descriptor of a chain leaves the channel IDLE; the staging fetch takes the next chunk into the
tile's binding, and its channel goes IDLE with the last one (R356). When a staging half is filled again is a reading of the
spec (log 50). -/
def Obligations.DmaChannels : Prop :=
  (∀ (r : Req) (c : CoreId) (ch : ChanId) (s : State),
    s.mayReg r { n := .dmaCtrl, c := c.val, i := ch.val, j := 0, hi := false } true = true → s.chanFree c.val ch.val = true →
    ∃ t, exec (.dmaGo r c ch) s = .next t ∧ (t.chan c.val ch.val).go = (s.chan c.val ch.val).go + 1 ∧
      (t.chan c.val ch.val).daddr = s.rg64 .dmaDesc c.val ch.val % 2 ^ 48 ∧ (t.chan c.val ch.val).st ≠ .idle) ∧
  (∀ (r : Req) (c : CoreId) (ch : ChanId) (s : State),
    let x := s.chan c.val ch.val
    s.mayReg r { n := .dmaCtrl, c := c.val, i := ch.val, j := 0, hi := false } true = true → s.chanFree c.val ch.val = false →
    ((x.use_ = .chain && x.loaded && x.rows = ddRows x.desc) = false →
      ∃ t, exec (.dmaHalt r c ch) s = .next t ∧ t.chan c.val ch.val = { x with halt := true } ∧
        onlyCore c.val s t ∧ only [.cores] s t) ∧
    ((x.use_ = .chain && x.loaded && x.rows = ddRows x.desc) = true →
      ∃ t, exec (.dmaHalt r c ch) s = .next t ∧ (t.chan c.val ch.val).st = .halted ∧ (t.chan c.val ch.val).err = eHALTCMD ∧
        onlyCore c.val s t)) ∧
  (∀ (c : CoreId) (ch : ChanId) (bs : List Byte) (de : LineErrs) (u v s : State),
    let x := s.chan c.val ch.val
    s.coreOpen c.val = true → s.rowDue c.val ch.val = true → x.loaded = true → ddOp x.desc = 0 → ddSrem x.desc = false →
    ddDrem x.desc = false → isReg (ddRowSrc x.desc x.rows) = false → isReg (ddRowDst x.desc x.rows) = false → x.halt = false →
    (s.dramRow c.val ch.val de).readMem (coreReq c.val) (ddHint x.desc) (ddRowSrc x.desc x.rows) (ddX x.desc) = (.ok bs, u) →
    u.writeMem (coreReq c.val) (ddHint x.desc) (ddRowDst x.desc x.rows) bs = (.ok, v) → v.chan c.val ch.val = x →
    ∃ t, exec (.dmaRowComplete c ch .none de) s = .next t ∧ t.chan c.val ch.val = { x with st := .run, rows := x.rows + 1 } ∧
      onlyCore c.val v t ∧ only [.cores] v t) ∧
  (∀ (c : CoreId) (ch : ChanId) (s : State),
    let x := s.chan c.val ch.val
    s.coreOpen c.val = true → x.use_ = .chain → x.st = .run → x.loaded = true → x.rows = ddRows x.desc → x.acks = 0 →
    ddChain x.desc = false → ddSetfull x.desc = false → ddRelease x.desc = false →
    ∃ t, exec (.dmaDescriptorComplete c ch) s = .next t ∧ t.chan c.val ch.val = { x with st := .idle } ∧
      onlyCore c.val s t ∧ only [.cores] s t) ∧
  (∀ (c : CoreId) (h : Handle) (w : Bool) (de : LineErrs) (s : State),
    let b := (s.tile c.val h.val).bind w
    let g := s.geo c.val h.val
    s.coreOpen c.val = true → b.bound = true → b.fetch = true → b.failed = false → (s.chan c.val b.ch).use_ = .fetch h.val w →
    (s.chan c.val b.ch).st = .run → s.stalled c.val (.dma b.ch) = false → b.chunks.length < g.chunkCount b →
    (s.chan c.val b.ch).halt = false →
    exec (.stagingHalfRefill c h w de) s = .next ((s.readErrs (s.refillLines c.val h.val w) de).refill c.val h.val w)) ∧
  (∀ (c h : Nat) (w : Bool) (l : List (List Byte)) (u s : State),
    let b := (s.tile c h).bind w
    let g := s.geo c h
    let x := if w then g.d.sideW else g.d.sideA
    b.scaled = true → b.chunks.length < g.chunkCount b → x.zr = false → (s.chan c b.ch).st = .run →
    s.readAll c (g.denseSegs x (g.chunkRange b b.chunks.length).1 (g.chunkRange b b.chunks.length).2) = (.ok l, u) →
    (((s.refill c h w).tile c h).bind w).chunks.length = b.chunks.length + 1 ∧
    ((s.refill c h w).chan c b.ch).st = (if b.chunks.length + 1 < g.chunkCount b then .run else .idle))

/-! ### The Pantry and the Seed Tray -/

/-- The Pantry's operations (R291, R311): WB and WBINV run and end, WBINV and INVZ leave no line of their group; while one
runs a further one is dropped with an access event; PNT_CNTSEL restarts both counts. When their effects take place is the
model's choice (log 49). -/
def Obligations.PantryOperations : Prop :=
  (∀ (r : Req) (g : Fin 64) (s : State), s.mayReg r { n := .pntOpctl, c := 0, i := 0, j := 0, hi := false } true = true →
    s.pantryRuns = none →
    (∃ t, exec (.pantryWb r g) s = .next t ∧ t.pnt = { s.pnt with op := some (.wb, g.val), lastGroup := g.val } ∧ only [.pnt] s t) ∧
    (∃ t, exec (.pantryWbinv r g) s = .next t ∧ t.pnt = { s.pnt with op := some (.wbinv, g.val), lastGroup := g.val } ∧
      only [.pnt] s t) ∧
    (∃ t, exec (.pantryInvz r g) s = .next t ∧ t.pnt.op = some (.invz, g.val) ∧
      (∀ x ∈ t.pnt.lines, s.inGroup g.val (x.1 / 16 / 768) = false))) ∧
  (∀ (r : Req) (g : Fin 64) (s : State), s.mayReg r { n := .pntOpctl, c := 0, i := 0, j := 0, hi := false } true = true →
    s.pantryRuns ≠ none →
    exec (.pantryWb r g) s = .next (s.access r (regAddr .pntOpctl 0 0 0)) ∧
    exec (.pantryWbinv r g) s = .next (s.access r (regAddr .pntOpctl 0 0 0)) ∧
    exec (.pantryInvz r g) s = .next (s.access r (regAddr .pntOpctl 0 0 0))) ∧
  (∀ (g : Nat) (s : State), s.pnt.op = some (.wbinv, g) →
    ∃ t, exec .pantryOpDone s = .next t ∧ t.pnt.op = none ∧
      (∀ x ∈ t.pnt.lines, s.inGroup g (x.1 / 16 / 768) = false)) ∧
  (∀ (g : Nat) (s : State), s.pnt.op = some (.wb, g) → ∃ t, exec .pantryOpDone s = .next t ∧ t.pnt.op = none) ∧
  (∀ (r : Req) (g : Fin 64) (s : State), s.mayReg r { n := .pntCntsel, c := 0, i := 0, j := 0, hi := false } true = true →
    ∃ t, exec (.pantryCntsel r g) s = .next t ∧ t.rg .pntCntsel = BitVec.ofNat 32 g.val ∧ t.rg64 .pntHit = 0 ∧ t.rg64 .pntMiss = 0 ∧
      only [.regs] s t)

/-- A LAYER's answer (R322, R351, R352): an IDLE dispenser that the layer does not join arms with it, and the core's context
is the descriptor; one that holds another layer makes the LAYER wait, and the oldest waiting one is answered once it is IDLE.
-/
def Obligations.LayersAreAnswered : Prop :=
  (∀ (c : CoreId) (x : Ctx) (s : State),
    let d := Desc.disp x.desc
    (s.core c.val).seq.wait = .present x → s.coreOpen c.val = true → (s.disp d).joins (Desc.lseq x.desc) = true →
    Desc.bdim x.desc = 0 ∨ (s.disp d).alen = x.alen →
    ∃ t, exec (.dispenserPresent c) s = .next t ∧ completes c.val s t ∧
      t.curCtx c.val = some { x with id := (s.core c.val).seq.nextCtx, defreg := (s.disp d).defreg,
                                     lseed := (s.disp d).lseed, gseed := (s.disp d).gseed } ∧
      (∀ e, t.disp e = s.disp e) ∧ onlyCore c.val s t ∧ onlyRingIndex c.val s t ∧ only [.cores, .mem] s t) ∧
  (∀ (c : CoreId) (x : Ctx) (s : State),
    let d := Desc.disp x.desc
    (s.core c.val).seq.wait = .present x → s.coreOpen c.val = true → (s.disp d).joins (Desc.lseq x.desc) = false →
    (s.disp d).st = .idle →
    ∃ t, exec (.dispenserPresent c) s = .next t ∧ completes c.val s t ∧ (t.curCtx c.val).map (·.desc) = some x.desc ∧
      (t.disp d).lseq = Desc.lseq x.desc ∧ (t.disp d).desc = x.desc ∧ (t.disp d).next = 0 ∧ (t.disp d).done = 0 ∧
      (t.disp d).retry = 0 ∧ (t.disp d).floor = 0 ∧ (t.disp d).queue = [] ∧
      (t.disp d).epoch = ((s.disp d).epoch + 1) % 65536 ∧ onlyDisp d s t ∧ onlyCore c.val s t) ∧
  (∀ (c : CoreId) (x : Ctx) (s : State),
    let d := Desc.disp x.desc
    (s.core c.val).seq.wait = .present x → s.coreOpen c.val = true → (s.disp d).joins (Desc.lseq x.desc) = false →
    (s.disp d).st ≠ .idle →
    ∃ t, exec (.dispenserPresent c) s = .next t ∧ (t.core c.val).seq.wait = .layerBusy x ∧
      (t.core c.val).seq.rd = (s.core c.val).seq.rd ∧ c.val ∈ (t.disp d).waiting ∧ onlyDisp d s t ∧ onlyCore c.val s t ∧
      only [.cores, .sdt] s t) ∧
  (∀ (d : DispId) (c : Nat) (x : Ctx) (s : State),
    (s.disp d.val).waiting = [c] → (s.core c).seq.wait = .layerBusy x → Desc.disp x.desc = d.val →
    (s.disp d.val).st = .idle → (s.disp d.val).joins (Desc.lseq x.desc) = false →
    ∃ t, exec (.deferredArm d) s = .next t ∧ completes c s t ∧ (t.disp d.val).waiting = [] ∧
      (t.disp d.val).lseq = Desc.lseq x.desc ∧ (t.disp d.val).next = 0 ∧ onlyDisp d.val s t ∧ onlyCore c s t)

/-- Claims (R324, R325, R355): the dispenser answers its oldest claim with a status alone where one applies; else the item is
the core's, its handle CLAIMED with the record, an entry open; a commit that is accepted closes its entry and counts in DONE,
a stale one counts in SDT_DnDUP (R327), and the handle is FREE. -/
def Obligations.ClaimsAndCommits : Prop :=
  (∀ (d : DispId) (r : ClaimReq) (l : List ClaimReq) (sd raddr : Nat) (s : State),
    (s.disp d.val).claims = r :: l → r.held = false → (s.disp d.val).quiesced = false →
    (s.core r.core).seq.wait = .claim r.h sd raddr → s.claimStatus d.val r.core ∈ [1, 2, 3, 4] →
    ∃ t, exec (.claimServe d) s = .next t ∧ completes r.core s t ∧ t.tile r.core r.h = s.tile r.core r.h ∧
      (t.disp d.val).claims = (s.disp d.val).claims.filter (fun z => z ≠ r) ∧ t.sdt.claims = s.sdt.claims ∧
      fld (BitVec.ofNat 64 (t.scalar r.core sd)) 51 48 = s.claimStatus d.val r.core ∧ onlyDisp d.val s t ∧ onlyCore r.core s t) ∧
  (∀ (d : DispId) (r : ClaimReq) (l : List ClaimReq) (q : QItem) (sd raddr : Nat) (s : State),
    let x := s.disp d.val
    x.claims = r :: l → r.held = false → x.quiesced = false →
    (s.core r.core).seq.wait = .claim r.h sd raddr → s.claimStatus d.val r.core = 0 → x.item = some q →
    s.admits r.core (s.estimate x.desc x.alen (x.record q)
      (Desc.rung x.desc (max ((s.curCtx r.core).getD {}).nextRung x.floor))) = true →
    ∃ t, exec (.claimServe d) s = .next t ∧ completes r.core s t ∧
      t.tile r.core r.h = { st := .claimed, rec_ := x.record q, ctx := ((s.curCtx r.core).getD {}).id,
                            setRung := ((s.curCtx r.core).getD {}).nextRung } ∧
      t.sdt.claims = s.sdt.claims ++ [{ core := r.core, h := r.h, disp := d.val, tile := q.tile, close := q.close, epoch := x.epoch }] ∧
      (t.disp d.val).claims = x.claims.filter (fun z => z ≠ r) ∧ (t.disp d.val).queue = x.queue.drop 1 ∧
      onlyDisp d.val s t ∧ onlyCore r.core s t) ∧
  (∀ (c : CoreId) (h : Handle) (e : Claim) (q : CommitReq) (s : State),
    s.sdt.commits.contains (c.val, h.val) = true →
    s.claimAt c.val (Desc.disp (s.tileDesc c.val h.val)) (CRec.tile (s.tile c.val h.val).rec_)
      (CRec.epoch (s.tile c.val h.val).rec_) = some e →
    e.stale = false → (s.tile c.val h.val).commit = some q → q.store = false →
    ∃ t, exec (.commitResolve c h) s = .next t ∧ t.tile c.val h.val = {} ∧ t.sdt.claims = s.sdt.claims.erase e ∧
      (t.disp e.disp).done = min ((s.disp e.disp).done + 1) (2 ^ 32 - 1) ∧
      (c.val, h.val) ∉ t.sdt.commits) ∧
  (∀ (c : CoreId) (h : Handle) (s : State),
    let d := Desc.disp (s.tileDesc c.val h.val)
    s.sdt.commits.contains (c.val, h.val) = true →
    s.claimAt c.val d (CRec.tile (s.tile c.val h.val).rec_) (CRec.epoch (s.tile c.val h.val).rec_) = none →
    (∀ q, (s.tile c.val h.val).commit = some q → q.sd < 8) →
    ∃ t, exec (.commitResolve c h) s = .next t ∧ t.tile c.val h.val = {} ∧ t.sdt.claims = s.sdt.claims ∧
      (t.disp d).done = (s.disp d).done ∧ counted .sdtDup 0 d 1 s t ∧ (c.val, h.val) ∉ t.sdt.commits) ∧
  (∀ (c : CoreId) (h : Handle) (s : State),
    s.coreOpen c.val = true → (s.core c.val).seq.parts.head? = some h.val → s.isImatch c.val h.val = false →
    ∃ t, exec (.partialSumArrival c h) s = .next t ∧ (t.tile c.val h.val).partSent = 2 ∧
      (t.core c.val).seq.reds = (s.core c.val).seq.reds - 1 ∧ (t.core c.val).seq.parts = (s.core c.val).seq.parts.drop 1 ∧
      (∃ p, t.sdt.partSums = s.sdt.partSums ++ [p] ∧ p.acc = (s.tile c.val h.val).acc ∧
        p.tile = CRec.tile (s.tile c.val h.val).rec_) ∧
      onlyTile c.val h.val s t ∧ onlyCore c.val s t ∧ only [.cores, .sdt] s t)

/-- BUMP, REWIND, DISARM (R329): the epoch bumps and the layer's open claims become STALE or close; BUMP puts their tiles
into the return queue and keeps the counter, REWIND sets the counter to SDT_DnREWTO and empties the queue, DISARM leaves
IDLE. The order in which BUMP queues tiles is the model's choice (log 20). -/
def Obligations.LayersAreBumped : Prop :=
  (∀ (r : Req) (d : DispId) (s : State),
    let x := s.disp d.val
    s.mayReg r { n := .sdtCtrl, c := 0, i := d.val, j := 0, hi := false } true = true →
    ∃ t, exec (.bump r d) s = .next t ∧ (t.disp d.val).epoch = (x.epoch + 1) % 65536 ∧ (t.disp d.val).next = x.next ∧
      (t.disp d.val).done = x.done ∧ (t.disp d.val).parts = x.parts ∧
      (t.disp d.val).queue = x.queue ++ ((s.sdt.claims.filter (fun y => y.disp = d.val && !y.stale)).map
        (fun y => ({ tile := y.tile, close := y.close } : QItem))) ∧
      (∀ y ∈ t.sdt.claims, y.disp = d.val → y.stale = true) ∧ onlyDisp d.val s t ∧ only [.sdt] s t) ∧
  (∀ (r : Req) (d : DispId) (s : State),
    s.mayReg r { n := .sdtCtrl, c := 0, i := d.val, j := 0, hi := false } true = true →
    ∃ t, exec (.rewind r d) s = .next t ∧ (t.disp d.val).epoch = ((s.disp d.val).epoch + 1) % 65536 ∧
      (t.disp d.val).next = (s.rg .sdtRewto 0 d.val).toNat ∧ (t.disp d.val).queue = [] ∧ (t.disp d.val).done = 0 ∧
      (t.disp d.val).parts = [] ∧ (∀ y ∈ t.sdt.claims, y.disp = d.val → y.stale = true) ∧ onlyDisp d.val s t ∧ only [.sdt] s t) ∧
  (∀ (r : Req) (d : DispId) (s : State),
    s.mayReg r { n := .sdtCtrl, c := 0, i := d.val, j := 0, hi := false } true = true →
    ∃ t, exec (.disarm r d) s = .next t ∧ (t.disp d.val).epoch = ((s.disp d.val).epoch + 1) % 65536 ∧
      (t.disp d.val).st = .idle ∧ (t.disp d.val).complete = false ∧ (t.disp d.val).queue = [] ∧
      (∀ y ∈ t.sdt.claims, y.disp ≠ d.val) ∧ onlyDisp d.val s t)

/-! ### The sequencer -/

/-- The ring's write index (R342) and SEQ_CTRL (R367, R369): a write of the control word through a window sets the write
index; GO resumes a HALTED sequencer and clears FAULT; STOP halts one that waits for nothing, and one that waits in a
blocking command after it; CLR clears indices, loops and TO while HALTED. CLR of a sequencer that runs is a reading of the
spec (log 68). -/
def Obligations.SequencerControl : Prop :=
  (∀ (r : Req) (c : CoreId) (idx : Byte) (s : State), s.coreOpen c.val = true → reqCore r ≠ some c.val →
    s.ringOff c.val + 4100 ≤ 0x80000 → s.admitted r c.val (s.ringOff c.val + 4096) 4 .wr = true →
    s.slotCheck c.val (s.ringOff c.val + 4096) 4 true (reqClass r).1 = .ok →
    s.behind r c.val (s.ringOff c.val + 4096) 4 true = none →
    ∃ t, exec (.ringWriteIndex r c idx) s = .next t ∧ (t.core c.val).seq = { (s.core c.val).seq with wr := idx.toNat } ∧
      t.outbox = s.outbox ++ [.done r] ∧ onlyCore c.val s t ∧
      (∀ a, a < spadBase c.val + (s.ringOff c.val + 4096) ∨ spadBase c.val + (s.ringOff c.val + 4100) ≤ a → t.byte a = s.byte a)) ∧
  (∀ (r : Req) (c : CoreId) (s : State),
    s.mayReg r { n := .seqCtrl, c := c.val, i := 0, j := 0, hi := false } true = true →
    (s.core c.val).seq.halted = true → s.evt.dfault = false → (s.core c.val).cst ≠ .disabled → (s.partOf c.val).isSome = true →
    ∃ t, exec (.seqGo r c) s = .next t ∧ t.core c.val = { s.core c.val with
        seq := { (s.core c.val).seq with halted := false, fault := false } } ∧
      onlyCore c.val s t ∧ only [.cores] s t) ∧
  (∀ (r : Req) (c : CoreId) (s : State),
    s.mayReg r { n := .seqCtrl, c := c.val, i := 0, j := 0, hi := false } true = true → (s.core c.val).seq.wait = .none →
    ∃ t, exec (.seqStop r c) s = .next t ∧ (t.core c.val).seq = { (s.core c.val).seq with halted := true } ∧
      onlyCore c.val s t ∧ only [.cores] s t) ∧
  (∀ (r : Req) (c : CoreId) (s : State),
    s.mayReg r { n := .seqCtrl, c := c.val, i := 0, j := 0, hi := false } true = true →
    (s.core c.val).seq.wait ≠ .none → (∀ n, (s.core c.val).seq.wait ≠ .slot n) →
    ∃ t, exec (.seqStop r c) s = .next t ∧ (t.core c.val).seq = { (s.core c.val).seq with stop := true } ∧
      onlyCore c.val s t ∧ only [.cores] s t) ∧
  (∀ (r : Req) (c : CoreId) (s : State),
    s.mayReg r { n := .seqCtrl, c := c.val, i := 0, j := 0, hi := false } true = true → (s.core c.val).seq.halted = true →
    ∃ t, exec (.seqClr r c) s = .next t ∧
      (t.core c.val).seq = { (s.core c.val).seq with rd := 0, wr := 0, loops := [], tout := false } ∧
      onlyCore c.val s t ∧ only [.cores] s t)

/-- Layer, rung and claim (R345, R351, R352, R355, R357): a LAYER whose descriptor passes every check presents it, and one
that finds no free context does so once there is one; SETPREC sets a claimed handle's starting rung, or with NEXT the
context's; a CLAIM joins its dispenser's claims; a command with a bit that R347 requires 0 is refused RESV and the read index
stays (R346). -/
def Obligations.LayerSetprecClaim : Prop :=
  (∀ (c : CoreId) (bs im : List Byte) (v u s : State),
    let w := s.fetchWord c.val
    let d : Desc := BitVec.ofNat 2048 (ofLe bs)
    let n := if flag w 22 then s.scalar c.val (fld w 25 23) % 2 ^ 32 else fld w 57 26
    let x := u.modSeq c.val (fun q => { q with asStored := [] })
    fetchesOp c.val 0x01 s → onlyBits w [(8, 50)] = true → spadFits (fld w 21 8 * 32) 256 = true →
    s.layerRead c.val (spadBase c.val + fld w 21 8 * 32) 256 cSeq = (some bs, v) →
    v.layerRead c.val (Desc.eprog d) 176 cVec = (some im, u) →
    x.layerCause c.val d n (BitVec.ofNat 1408 (ofLe im)) = none →
    (((x.core c.val).heldCtxs.filter (fun y => !(x.core c.val).retired y.id)).length < 2 →
      ∃ t, exec (.layer c) s = .next t ∧ waitsIn c.val (.present (x.layerCtx c.val d n)) u t ∧ onlyCore c.val u t ∧
        only [.cores, .regs] u t) ∧
    (2 ≤ ((x.core c.val).heldCtxs.filter (fun y => !(x.core c.val).retired y.id)).length →
      ∃ t, exec (.layer c) s = .next t ∧ waitsIn c.val (.layerCtx (x.layerCtx c.val d n)) u t ∧ onlyCore c.val u t ∧
        only [.cores, .regs] u t)) ∧
  (∀ (c : CoreId) (x : Ctx) (s : State), (s.core c.val).seq.wait = .layerCtx x → s.coreOpen c.val = true →
    ((s.core c.val).seq.ctxs.filter (fun y => !(s.core c.val).retired y.id)).length < 2 →
    ∃ t, exec (.layerContextFree c) s = .next t ∧ (t.core c.val).seq = { (s.core c.val).seq with wait := .present x } ∧
      onlyCore c.val s t ∧ only [.cores] s t) ∧
  (∀ (c : CoreId) (s : State),
    let w := s.fetchWord c.val
    fetchesOp c.val 0x02 s → onlyBits w [(8, 6)] = true → flag w 11 = false → (s.tile c.val (wTh w)).st = .claimed →
    (s.tile c.val (wTh w)).began = false ∨ s.precDiffers c.val (wTh w) (fld w 13 12) = false →
    fld w 13 12 ≤ Desc.nrung (s.tileDesc c.val (wTh w)) → (s.tileCtx c.val (wTh w)).exact_ = false → (s.curCtx c.val).isSome = true →
    ∃ t, exec (.setprec c) s = .next t ∧ goesOn c.val s t ∧
      t.tile c.val (wTh w) = { s.tile c.val (wTh w) with setRung := fld w 13 12 } ∧
      onlyTile c.val (wTh w) s t ∧ onlyCore c.val s t ∧ onlyRingIndex c.val s t ∧ only [.cores, .regs, .mem] s t) ∧
  (∀ (c : CoreId) (x : Ctx) (s : State),
    let w := s.fetchWord c.val
    fetchesOp c.val 0x02 s → onlyBits w [(8, 6)] = true → flag w 11 = true → s.curCtx c.val = some x →
    fld w 13 12 ≤ Desc.nrung x.desc → x.exact_ = false →
    ∃ t, exec (.setprec c) s = .next t ∧ goesOn c.val s t ∧ t.curCtx c.val = some { x with nextRung := fld w 13 12 } ∧
      (∀ h, t.tile c.val h = s.tile c.val h) ∧ onlyCore c.val s t ∧ onlyRingIndex c.val s t) ∧
  (∀ (c : CoreId) (x : Ctx) (s : State),
    let w := s.fetchWord c.val
    fetchesOp c.val 0x03 s → (s.core c.val).quiescing = false → onlyBits w [(8, 20)] = true →
    (s.tile c.val (wTh w)).st = .free → s.curCtx c.val = some x →
    ∃ t, exec (.claim c) s = .next t ∧ waitsIn c.val (.claim (wTh w) (fld w 13 11) (fld w 27 14)) s t ∧
      (t.disp (Desc.disp x.desc)).claims =
        (s.disp (Desc.disp x.desc)).claims ++ [{ core := c.val, h := wTh w, arr := s.sdt.arrived }] ∧
      onlyDisp (Desc.disp x.desc) s t ∧ onlyCore c.val s t ∧ only [.cores, .regs, .sdt] s t) ∧
  (∀ (c : CoreId) (s : State), fetchesOp c.val 0x00 s → onlyBits (s.fetchWord c.val) [] = false →
    ∃ t, exec (.nop c) s = .next t ∧ (t.core c.val).seq.halted = true ∧ (t.core c.val).seq.fault = true ∧
      (t.core c.val).seq.rd = (s.core c.val).seq.rd ∧
      (t.core c.val).seq.lasterr = BitVec.ofNat 32 (0x01 + 256 * ((s.core c.val).seq.rd % 256)) ∧ onlyCore c.val s t ∧
      onlyRingIndex c.val s t)

/-- Tile commands (R355 to R357, R364): LOADW and LOADA bind an operand, in slots or by a channel's fetch, and wait for a
channel that is not free; PRELOAD, DRAIN, COMMIT and GAUGE act on their handle; SCOUT waits for its mask; STEP opens the
handle, and one that SCOUT has opened streams on. The sequencer goes on, or waits in a SCOUT or a COMMIT. A command that
waits for its channel goes on when it is sent again, by the model's choice (log 55); a SCOUT of a tile that one has opened is
a reading of the spec (log 42). -/
def Obligations.TileCommands : Prop :=
  (∀ (c : CoreId) (s : State),
    let w := s.fetchWord c.val
    let b : Binding := { bound := true, dslot := fld w 21 16, sslot := fld w 27 22 }
    s.loadCause c.val w = none → flag w 15 = false →
    (fetchesOp c.val 0x04 s → ∃ t, exec (.loadw c) s = .next t ∧ goesOn c.val s t ∧
      t.tile c.val (wTh w) = { s.tile c.val (wTh w) with bindW := b } ∧ onlyTile c.val (wTh w) s t ∧ onlyCore c.val s t ∧
      onlyRingIndex c.val s t ∧ only [.cores, .regs, .mem] s t) ∧
    (fetchesOp c.val 0x05 s → ∃ t, exec (.loada c) s = .next t ∧ goesOn c.val s t ∧
      t.tile c.val (wTh w) = { s.tile c.val (wTh w) with bindA := b } ∧ onlyTile c.val (wTh w) s t ∧ onlyCore c.val s t ∧
      onlyRingIndex c.val s t ∧ only [.cores, .regs, .mem] s t)) ∧
  (∀ (c : CoreId) (s : State),
    let w := s.fetchWord c.val
    let ch := fld w 14 11
    let b : Binding := { bound := true, fetch := true, ch := ch, sbase := fld w 29 16, slen := fld w 43 30, kch := fld w 49 44 }
    let fetches (weight : Bool) (t : State) : Prop :=
      (t.chan c.val ch).st = .run ∧ (t.chan c.val ch).use_ = .fetch (wTh w) weight ∧
      (∀ k, k ≠ ch → t.chan c.val k = s.chan c.val k) ∧
      t.tile c.val (wTh w) = (if weight then { s.tile c.val (wTh w) with bindW := b } else { s.tile c.val (wTh w) with bindA := b }) ∧
      onlyTile c.val (wTh w) s t ∧ onlyCore c.val s t ∧ onlyRingIndex c.val s t ∧ only [.cores, .regs, .mem] s t
    flag w 15 = true →
    (s.loadCause c.val w = none → s.chanFree c.val ch = true →
      (fetchesOp c.val 0x04 s → ∃ t, exec (.loadw c) s = .next t ∧ goesOn c.val s t ∧ fetches true t) ∧
      (fetchesOp c.val 0x05 s → ∃ t, exec (.loada c) s = .next t ∧ goesOn c.val s t ∧ fetches false t)) ∧
    (s.loadCause c.val w = none → s.chanFree c.val ch = false →
      (fetchesOp c.val 0x04 s → ∃ t, exec (.loadw c) s = .next t ∧ waitsIn c.val .channel s t ∧ onlyCore c.val s t ∧
        only [.cores, .regs] s t) ∧
      (fetchesOp c.val 0x05 s → ∃ t, exec (.loada c) s = .next t ∧ waitsIn c.val .channel s t ∧ onlyCore c.val s t ∧
        only [.cores, .regs] s t)) ∧
    ((s.core c.val).seq.wait = .channel → s.coreOpen c.val = true → s.chanFree c.val ch = true →
      (fld w 7 0 = 0x04 → ∃ t, exec (.loadw c) s = .next t ∧ completes c.val s t ∧ fetches true t) ∧
      (fld w 7 0 = 0x05 → ∃ t, exec (.loada c) s = .next t ∧ completes c.val s t ∧ fetches false t))) ∧
  (∀ (c : CoreId) (s : State),
    let w := s.fetchWord c.val
    let h := wTh w
    fetchesOp c.val 0x06 s → onlyBits w [(8, 15)] = true → fmtOk (fld w 16 12) = true → isCb (fld w 16 12) = false →
    s.declared c.val (fld w 22 17) = true → (s.tile c.val h).st = .claimed → (s.tile c.val h).began = false →
    (s.curCtx c.val).isSome = true →
    ∃ t, exec (.preload c) s = .next t ∧ goesOn c.val s t ∧
      t.tile c.val h = { s.tile c.val h with pre := some (flag w 11, fld w 16 12, fld w 22 17) } ∧
      onlyTile c.val h s t ∧ onlyCore c.val s t ∧ onlyRingIndex c.val s t ∧ only [.cores, .regs, .mem] s t) ∧
  (∀ (c : CoreId) (s : State),
    let w := s.fetchWord c.val
    let h := wTh w
    fetchesOp c.val 0x07 s → onlyBits w [(8, 6)] = true → (s.tile c.val h).st = .claimed → (s.tile c.val h).began = false →
    (s.tile c.val h).loaded = true → rungScout (Desc.rung (s.tileDesc c.val h) (s.startRung c.val h)) ≠ 0 →
    (s.curCtx c.val).isSome = true →
    ∃ t, exec (.scout c) s = .next t ∧ waitsIn c.val (.scout h (fld w 13 11)) s t ∧
      (∀ k, t.tile c.val k = s.tile c.val k) ∧ onlyCore c.val s t ∧ only [.cores, .regs] s t) ∧
  (∀ (c : CoreId) (s : State),
    let w := s.fetchWord c.val
    let h := wTh w
    fetchesOp c.val 0x08 s → onlyBits w [(8, 3)] = true → (s.tile c.val h).st = .claimed → (s.tile c.val h).loaded = true →
    (s.curCtx c.val).isSome = true →
    ((s.tile c.val h).opened = false → ∃ t, exec (.step c) s = .next t ∧ goesOn c.val s t ∧
      t.tile c.val h = { s.tile c.val h with st := .opened } ∧ onlyTile c.val h s t ∧ onlyCore c.val s t ∧
      onlyRingIndex c.val s t ∧ only [.cores, .regs, .mem] s t) ∧
    ((s.tile c.val h).opened = true → (s.tile c.val h).pass2 = false →
      ∃ t, exec (.step c) s = .next t ∧ goesOn c.val s t ∧ (t.tile c.val h).st = .opened ∧
        ((t.core c.val).arr.cur = some h ∨ h ∈ (t.core c.val).arr.queue) ∧ onlyCore c.val s t ∧ onlyRingIndex c.val s t) ∧
    ((s.tile c.val h).opened = true → (s.geo c.val h).addsDue (s.tile c.val h) ≠ 0 →
      ∃ t, exec (.step c) s = .next t ∧ goesOn c.val s t ∧ (t.tile c.val h).st = .opened ∧
        ((t.core c.val).arr.cur = some h ∨ h ∈ (t.core c.val).arr.queue) ∧ onlyCore c.val s t ∧ onlyRingIndex c.val s t)) ∧
  (∀ (c : CoreId) (s : State),
    let w := s.fetchWord c.val
    let h := wTh w
    fetchesOp c.val 0x09 s → onlyBits w [(8, 9)] = true → s.declared c.val (fld w 16 11) = true →
    (s.tile c.val h).st = .opened → s.isPart c.val h = false → (s.curCtx c.val).isSome = true →
    ∃ t, exec (.drain c) s = .next t ∧ goesOn c.val s t ∧
      t.tile c.val h = { s.tile c.val h with st := .output, oslot := some (fld w 16 11) } ∧
      onlyTile c.val h s t ∧ onlyCore c.val s t ∧ onlyRingIndex c.val s t ∧ only [.cores, .regs, .mem] s t) ∧
  (∀ (c : CoreId) (s : State),
    let w := s.fetchWord c.val
    let h := wTh w
    fetchesOp c.val 0x13 s → onlyBits w [(8, 12)] = true → (s.curCtx c.val).isSome = true →
    ((s.tile c.val h).st = .output ∨ ((s.tile c.val h).st = .opened ∧ (s.tile c.val h).partSent ≠ 0) →
      ∃ t, exec (.commit c) s = .next t ∧ waitsIn c.val (.commit h) s t ∧
        t.tile c.val h = { s.tile c.val h with commit := some { sd := fld w 13 11, store := flag w 15, ch := fld w 19 16 } } ∧
        onlyTile c.val h s t ∧ onlyCore c.val s t ∧ only [.cores, .regs] s t) ∧
    (flag w 14 = true → (s.tile c.val h).st = .free →
      ∃ t, exec (.commit c) s = .next t ∧ goesOn c.val s t ∧ t.scalar c.val (fld w 13 11) = 0 ∧
        (∀ k, t.tile c.val k = s.tile c.val k) ∧ onlyCore c.val s t ∧ onlyRingIndex c.val s t ∧ only [.cores, .regs, .mem] s t)) ∧
  (∀ (c : CoreId) (s : State),
    let w := s.fetchWord c.val
    let h := wTh w
    fetchesOp c.val 0x17 s → onlyBits w [(8, 4)] = true → (s.tile c.val h).st = .claimed → (s.curCtx c.val).isSome = true →
    (flag w 11 = false → ∃ t, exec (.gaugeForce c) s = .next t ∧ goesOn c.val s t ∧
      t.tile c.val h = { s.tile c.val h with gforce := true, gskip := false } ∧ onlyTile c.val h s t ∧ onlyCore c.val s t ∧
      onlyRingIndex c.val s t ∧ only [.cores, .regs, .mem] s t) ∧
    (flag w 11 = true → (s.tileCtx c.val h).exact_ = false → ∃ t, exec (.gaugeSkip c) s = .next t ∧ goesOn c.val s t ∧
      t.tile c.val h = { s.tile c.val h with gskip := true, gforce := false } ∧ onlyTile c.val h s t ∧ onlyCore c.val s t ∧
      onlyRingIndex c.val s t ∧ only [.cores, .regs, .mem] s t))

/-- A tile's way to its commit: it opens where accumulation memory has room, with the settings in force, and joins the array
(R117, R125, R355, R555); REDUCE marks it (R328, R428) and SUM fills a CLOSE tile once there is room; a contribution enters
its group's round, or a refused one ends the tile; a commit is sent once its output path or its partial send has ended, and
ARR_LASTTSW takes its TSW (R130, R355); the copy of a COMMIT with STORE ends the tile (R364). REDUCE SUM without a sum held
is the model's choice (log 40); a refused contribution is a reading of the spec (log 70). -/
def Obligations.TileProgress : Prop :=
  (∀ (c : CoreId) (h : Handle) (s : State), s.coreOpen c.val = true → (s.tile c.val h.val).st = .opened →
    (s.tile c.val h.val).began = false → (s.tile c.val h.val).sumFrom = false →
    s.hasRoom c.val h.val (s.geoAt c.val h.val (Desc.rung (s.tileDesc c.val h.val) (s.startRung c.val h.val))) = true →
    ∃ t, exec (.tileOpen c h) s = .next t ∧ (t.tile c.val h.val).opened = true ∧ (t.tile c.val h.val).began = true ∧
      (t.tile c.val h.val).st = .opened ∧ (t.tile c.val h.val).rung = s.startRung c.val h.val ∧
      (t.tile c.val h.val).latched.lockstep = (s.rg .arrCtrl c.val).toNat.testBit 1 ∧
      (t.tile c.val h.val).latched.scdis = (s.rg .sveCtrl c.val).toNat.testBit 1 ∧
      (t.tile c.val h.val).latched.gdis = (s.rg .gauCtrl c.val).toNat.testBit 0 ∧
      ((t.core c.val).arr.cur = some h.val ∨ h.val ∈ (t.core c.val).arr.queue) ∧ onlyCore c.val s t ∧ only [.cores] s t) ∧
  (∀ (c : CoreId) (s : State),
    let w := s.fetchWord c.val
    let h := wTh w
    fetchesOp c.val 0x14 s → onlyBits w [(8, 13)] = true → (s.curCtx c.val).isSome = true →
    (fld w 12 11 = 0 → (s.tile c.val h).st = .opened → s.isPart c.val h = true → (s.tile c.val h).partSent = 0 →
      ∃ t, exec (.reducePart c) s = .next t ∧ goesOn c.val s t ∧ t.tile c.val h = { s.tile c.val h with partSent := 1 } ∧
        (t.core c.val).seq.reds = (s.core c.val).seq.reds + 1 ∧
        ((s.tile c.val h).checked = true → h ∈ (t.core c.val).seq.parts) ∧ onlyTile c.val h s t ∧ onlyCore c.val s t) ∧
    (fld w 12 11 = 1 → (s.tile c.val h).st = .claimed → (s.tile c.val h).began = false → CRec.close (s.tile c.val h).rec_ = true →
      let room := s.hasRoom c.val h (s.geoAt c.val h (Desc.rung (s.tileDesc c.val h) (s.startRung c.val h)))
      (∀ p, room = true →
        s.sdt.sums.find? (fun y => y.disp = Desc.disp (s.tileDesc c.val h) && y.tile = CRec.tile (s.tile c.val h).rec_) = some p →
        ∃ t, exec (.reduceSum c) s = .next t ∧ goesOn c.val s t ∧ (t.tile c.val h).acc = p.acc ∧ (t.tile c.val h).opened = true ∧
          (t.tile c.val h).st = .opened ∧ onlyTile c.val h s t ∧ onlyCore c.val s t) ∧
      (room = false →
        ∃ t, exec (.reduceSum c) s = .next t ∧ goesOn c.val s t ∧
          t.tile c.val h = { s.tile c.val h with st := .opened, sumFrom := true } ∧ onlyTile c.val h s t ∧ onlyCore c.val s t)) ∧
    (fld w 12 11 = 2 → (s.tile c.val h).st = .opened → (s.tile c.val h).grp = none →
      ∃ t, exec (.reduceGroup c) s = .next t ∧ goesOn c.val s t ∧
        t.tile c.val h = { s.tile c.val h with grp := some (fld w 20 13) } ∧ onlyTile c.val h s t ∧ onlyCore c.val s t)) ∧
  (∀ (c : CoreId) (h : Handle) (g : Nat) (s : State),
    let x := s.tile c.val h.val
    x.grp = some g → s.coreOpen c.val = true → x.opened = true → x.checked = true → x.contributed = false → x.acc ≠ [] →
    s.contributionBad c.val g (CRec.tile x.rec_) x.acc.length (s.tileRegime c.val h.val) = false →
    (s.group g).round (CRec.tile x.rec_) = none → (s.group g).kids ≠ [] →
    ∃ t, exec (.contributionSend c h) s = .next t ∧ (t.tile c.val h.val).contributed = true ∧
      ∃ r, (t.group g).round (CRec.tile x.rec_) = some r ∧ r.local_ = some (c.val, h.val) ∧ r.acc.length = x.acc.length ∧
        r.sentUp = false) ∧
  (∀ (c : CoreId) (h : Handle) (g : Nat) (s : State),
    let x := s.tile c.val h.val
    x.grp = some g → s.coreOpen c.val = true → x.opened = true → x.checked = true → x.contributed = false →
    s.contributionBad c.val g (CRec.tile x.rec_) x.acc.length (s.tileRegime c.val h.val) = true →
    ∃ t, exec (.contributionSend c h) s = .next t ∧ t.tile c.val h.val = {} ∧ t.tch.groups = s.tch.groups) ∧
  (∀ (c : CoreId) (h : Handle) (q : CommitReq) (s : State),
    let x := s.tile c.val h.val
    x.commit = some q → s.coreOpen c.val = true → q.sent = false → s.stalled c.val (.out h.val) = false →
    (x.st = .output ∧ x.outSt = .ended) ∨ (x.st ≠ .output ∧ x.partSent = 2) →
    ∃ t, exec (.commitSend c h) s = .next t ∧ t.sdt.commits = s.sdt.commits ++ [(c.val, h.val)] ∧
      t.tile c.val h.val = { x with commit := some { q with sent := true } } ∧ onlyTile c.val h.val s t ∧ onlyCore c.val s t ∧
      t.rg .arrLasttsw c.val = s.tileTsw c.val h.val ∧ onlyRegs [regAddr .arrLasttsw c.val 0 0] s t ∧
      only [.cores, .regs, .sdt] s t) ∧
  (∀ (c : CoreId) (h : Handle) (q : CommitReq) (bs : List Byte) (u v s : State),
    let n := (s.tile c.val h.val).oslot.getD 0
    (s.tile c.val h.val).commit = some q → s.coreOpen c.val = true → (s.chan c.val q.ch).use_ = .store h.val →
    q.accepted = some true → (s.chan c.val q.ch).st = .run → (s.chan c.val q.ch).halt = false →
    s.readMem (coreReq c.val) .normal (spadBase c.val + s.slotOff c.val n) (s.slotLen c.val n) = (.ok bs, u) →
    u.storeTile c.val q.ch (s.geo c.val h.val) bs = (true, v) →
    ∃ t, exec (.commitStore c h) s = .next t ∧ t.tile c.val h.val = {} ∧ (t.chan c.val q.ch).st = .idle ∧
      (t.chan c.val q.ch).use_ = .chain)

/-- Engine commands (R345, R349): a VPROG, RAKE, CONV, SORT or MERGE that no check refuses takes its engine's free queue
place and the sequencer goes on; DMA starts its channel's chain at the address it names. -/
def Obligations.EngineCommands : Prop :=
  (∀ (c : CoreId) (s : State),
    let w := s.fetchWord c.val
    let taken (e : Engine) (t : State) : Prop := goesOn c.val s t ∧
      (∃ j ∈ (t.core c.val).seq.jobs, j.eng = e ∧ j.cmd = w ∧ j.vlen = s.engVlen c.val e w) ∧
      (t.core c.val).seq.jobs.length = (s.core c.val).seq.jobs.length + 1 ∧ onlyCore c.val s t ∧ onlyRingIndex c.val s t ∧
      only [.cores, .regs, .mem] s t
    (fetchesOp c.val 0x0A s → s.vprogCause c.val w = none → s.placeFree c.val .vprog = true →
      ∃ t, exec (.vprog c) s = .next t ∧ taken .vprog t) ∧
    (fetchesOp c.val 0x0B s → s.rakeCause c.val w = none → s.placeFree c.val .rake = true →
      ∃ t, exec (.rake c) s = .next t ∧ taken .rake t) ∧
    (fetchesOp c.val 0x0C s → s.convCause c.val w = none → s.placeFree c.val .conv = true →
      ∃ t, exec (.conv c) s = .next t ∧ taken .conv t) ∧
    (fetchesOp c.val 0x15 s → onlyBits w [(8, 92)] = true → leaves (fld w 21 8) (4 * (fld w 99 68 + 1)) = false →
      leaves (fld w 35 22) (4 * (fld w 39 36 + 1)) = false → leaves (fld w 53 40) (4 * fld w 99 68) = false →
      leaves (fld w 67 54) (4 * (fld w 39 36 + 1)) = false → s.placeFree c.val .sort = true →
      ∃ t, exec (.sort c) s = .next t ∧ taken .sort t) ∧
    (fetchesOp c.val 0x16 s → onlyBits w [(8, 45)] = true → leaves (fld w 21 8) 16 = false →
      leaves (fld w 38 25) (fld w 52 39 * 32) = false → (s.mergeRanges c.val w).any (fun x => !spadFits x.1 x.2) = false →
      s.mergeLong c.val w = false → s.placeFree c.val .merge = true →
      ∃ t, exec (.merge c) s = .next t ∧ taken .merge t)) ∧
  (∀ (c : CoreId) (s : State),
    let w := s.fetchWord c.val
    fetchesOp c.val 0x0D s → onlyBits w [(8, 53)] = true → flag w 12 = false → s.chanFree c.val (fld w 11 8) = true →
    ∃ t, exec (.dma c) s = .next t ∧ (t.chan c.val (fld w 11 8)).go = (s.chan c.val (fld w 11 8)).go + 1 ∧
      (t.chan c.val (fld w 11 8)).daddr = fld w 60 13 ∧ (t.core c.val).seq.rd = ((s.core c.val).seq.rd + 1) % 256)

/-- NOP, WAITSLOT, SIGNAL and FENCE (R350, R360, R361, R363): NOP only goes on; WAITSLOT goes on, or waits for its slot's
state and goes on once it is there; SIGNAL fills or releases a slot here, on another core through a window, or on another
device; a FENCE whose conditions hold goes on, another waits, and is released with its barrier. Which cores a partition
barrier waits for is a reading of the spec (log 67). -/
def Obligations.WaitsSignalsFences : Prop :=
  (∀ (c : CoreId) (s : State), fetchesOp c.val 0x00 s → onlyBits (s.fetchWord c.val) [] = true →
    ∃ t, exec (.nop c) s = .next t ∧ goesOn c.val s t ∧ (t.core c.val).tiles = (s.core c.val).tiles ∧ onlyCore c.val s t ∧
      onlyRegs [regAddr .seqIssued c.val 0 0] s t ∧ onlyRingIndex c.val s t ∧ only [.cores, .regs, .mem] s t) ∧
  (∀ (c : CoreId) (s : State),
    let w := s.fetchWord c.val
    fetchesOp c.val 0x0E s → onlyBits w [(8, 28)] = true → s.declared c.val (fld w 13 8) = true → flag w 16 = false →
    (flag w 15 = false → s.slotWanted c.val w = true →
      ∃ t, exec (.waitslot c) s = .next t ∧ goesOn c.val s t ∧ (t.core c.val).seq.tout = false ∧
        (∀ n, t.slot c.val n = s.slot c.val n) ∧ onlyCore c.val s t ∧ onlyRingIndex c.val s t) ∧
    (s.slotWanted c.val w = false →
      ∃ t, exec (.waitslot c) s = .next t ∧ waitsIn c.val (.slot (fld w 13 8)) s t ∧
        t.stalled c.val .seq = true)) ∧
  (∀ (c : CoreId) (n : Nat) (s : State),
    let w := s.fetchWord c.val
    (s.core c.val).seq.wait = .slot n → s.coreOpen c.val = true → s.slotWanted c.val w = true → flag w 16 = false → flag w 15 = false →
    ∃ t, exec (.waitslotResume c) s = .next t ∧ completes c.val s t ∧ (t.core c.val).seq.tout = false ∧
      t.stalled c.val .seq = false ∧ onlyCore c.val s t ∧ onlyRingIndex c.val s t) ∧
  (∀ (c : CoreId) (s : State),
    let w := s.fetchWord c.val
    let n := fld w 15 10
    fetchesOp c.val 0x0F s → onlyBits w [(8, 29)] = true → s.declared c.val n = true →
    (fld w 9 8 = 0 → (s.slot c.val n).st = .empty ∨ (s.slot c.val n).st = .filling →
      (s.setSlot c.val n { st := .full }).barrierOf c.val n = none →
      ∃ t, exec (.signalFull c) s = .next t ∧ goesOn c.val s t ∧ t.slot c.val n = { st := .full } ∧ onlyCore c.val s t ∧
        onlyRingIndex c.val s t) ∧
    (fld w 9 8 = 1 →
      ∃ t, exec (.signalRelease c) s = .next t ∧ goesOn c.val s t ∧ t.slot c.val n = (s.slotRelease c.val n cSeq).slot c.val n ∧
        onlyCore c.val s t ∧ onlyRingIndex c.val s t)) ∧
  (∀ (c : CoreId) (m : Nat) (s : State),
    let w := s.fetchWord c.val
    let d := fld w 23 16
    let o := s.slotOff d (fld w 15 10)
    fetchesOp c.val 0x0F s → onlyBits w [(8, 29)] = true → flag w 36 = false → s.coreOpen d = true → o < 0x80000 →
    s.admitted (coreReq c.val) d o 1 .sig = true → s.slotFrom d o = some m →
    (fld w 9 8 = 2 → (s.slot d m).st = .empty ∨ (s.slot d m).st = .filling →
      (s.setSlot d m { st := .full }).barrierOf d m = none →
      ∃ t, exec (.signalRemoteFull c) s = .next t ∧ goesOn c.val s t ∧ t.slot d m = { st := .full } ∧ onlyRingIndex c.val s t) ∧
    (fld w 9 8 = 3 →
      ∃ t, exec (.signalRemoteRelease c) s = .next t ∧ goesOn c.val s t ∧ t.slot d m = (s.slotRelease d m cRemote).slot d m ∧
        onlyRingIndex c.val s t)) ∧
  (∀ (c : CoreId) (s : State),
    let w := s.fetchWord c.val
    fetchesOp c.val 0x0F s → onlyBits w [(8, 29)] = true → flag w 36 = true → s.declared c.val (fld w 15 10) = true →
    s.mayOriginate (some c.val) (fld w 35 24) = true → fld w 9 8 = 2 →
    ∃ t, exec (.signalRemoteFull c) s = .next t ∧ goesOn c.val s t ∧ (t.core c.val).seq.sigs = (s.core c.val).seq.sigs + 1 ∧
      t.tch.reqs = s.tch.reqs ++
        [{ tag := s.tch.nextTag, for_ := .signal c.val, dst := fld w 35 24,
           addr := spadBase (fld w 23 16) + s.slotOff c.val (fld w 15 10) }] ∧ onlyCore c.val s t) ∧
  (∀ (c : CoreId) (s : State),
    let w := s.fetchWord c.val
    fetchesOp c.val 0x10 s → onlyBits w [(8, 6), (16, 16)] = true →
    (s.fenceOwn c.val w = true → flag w 13 = false →
      ∃ t, exec (.fence c) s = .next t ∧ (t.core c.val).seq.rd = ((s.core c.val).seq.rd + 1) % 256 ∧
        (t.core c.val).seq.wait = .none ∧ counted .seqIssued c.val 0 1 s t ∧ onlyCore c.val s t ∧ onlyRingIndex c.val s t) ∧
    (s.fenceOwn c.val w = false → (s.core c.val).seq.atBarrier = false →
      ∃ t, exec (.fence c) s = .next t ∧ waitsIn c.val .fence s t ∧ onlyCore c.val s t ∧ only [.cores, .regs] s t)) ∧
  (∀ (c : CoreId) (s : State),
    let w := s.fetchWord c.val
    (s.core c.val).seq.wait = .fence → s.coreOpen c.val = true → s.fenceOwn c.val w = true →
    (flag w 13 = false → ∃ t, exec (.fenceRelease c) s = .next t ∧ completes c.val s t ∧ onlyCore c.val s t ∧
      onlyRingIndex c.val s t) ∧
    (flag w 13 = true → (∀ d ∈ s.barrierCores c.val, d = c.val ∨ (s.core c.val).seq.barriers < (s.core d).seq.barriers ∨
        ((s.core d).seq.barriers = (s.core c.val).seq.barriers ∧ (s.core d).seq.atBarrier = true)) →
      ∃ t, exec (.fenceRelease c) s = .next t ∧ completes c.val s t ∧
        (t.core c.val).seq.barriers = (s.core c.val).seq.barriers + 1 ∧ (t.core c.val).seq.atBarrier = false ∧
        onlyCore c.val s t ∧ onlyRingIndex c.val s t))

/-- BRANCH and LOOP (R350, R365, R366): a BRANCH of any condition goes to TARGET where it holds and to the next command where
it does not, one on a summary register once every VPROG and RAKE is complete; LOOP START opens a loop of IMM or Sa rounds,
LOOP END counts it down and goes back to its start, or ends it. EVENT, with IMM or Sa, and HALT (R366) raise their events;
HALT halts without FAULT behind itself. -/
def Obligations.BranchesLoopsEvents : Prop :=
  (∀ (c : CoreId) (s : State),
    let w := s.fetchWord c.val
    fetchesOp c.val 0x11 s → onlyBits w [(8, 62)] = true → fld w 11 8 ≤ 0xA → fld w 23 18 + fld w 29 24 ≤ 63 →
    (fld w 11 8 < 8 ∨ s.enginesDone c.val = true →
      ∃ t, exec (.branch c) s = .next t ∧
        (t.core c.val).seq.rd = (if s.branchHolds c.val w then fld w 37 30 else ((s.core c.val).seq.rd + 1) % 256) ∧
        counted .seqIssued c.val 0 1 s t ∧ onlyCore c.val s t ∧ onlyRingIndex c.val s t ∧ only [.cores, .regs, .mem] s t) ∧
    (8 ≤ fld w 11 8 → s.enginesDone c.val = false →
      ∃ t, exec (.branch c) s = .next t ∧ waitsIn c.val .branch s t ∧ onlyCore c.val s t ∧ only [.cores, .regs] s t)) ∧
  (∀ (c : CoreId) (s : State),
    let w := s.fetchWord c.val
    let q := (s.core c.val).seq
    q.wait = .branch → s.coreOpen c.val = true → s.enginesDone c.val = true →
    ∃ t, exec (.branch c) s = .next t ∧ (t.core c.val).seq.wait = .none ∧
      (t.core c.val).seq.rd = (if s.branchHolds c.val w then fld w 37 30 else (q.rd + 1) % 256) ∧
      (t.core c.val).seq.halted = (q.halted || q.stop) ∧ onlyCore c.val s t ∧ onlyRingIndex c.val s t ∧ only [.cores, .mem] s t) ∧
  (∀ (c : CoreId) (s : State),
    let w := s.fetchWord c.val
    let q := (s.core c.val).seq
    let n := if flag w 11 then s.scalar c.val (fld w 14 12) % 2 ^ 32 else fld w 46 15
    fetchesOp c.val 0x12 s → onlyBits w [(8, 39)] = true → flag w 10 = false → q.loops.length = fld w 9 8 → n ≠ 0 →
    ∃ t, exec (.loopStart c) s = .next t ∧ goesOn c.val s t ∧
      (t.core c.val).seq.loops = q.loops ++ [{ cnt := n, start := (q.rd + 1) % 256 }] ∧ onlyCore c.val s t ∧
      onlyRingIndex c.val s t) ∧
  (∀ (c : CoreId) (l : Loop) (s : State),
    let w := s.fetchWord c.val
    let q := (s.core c.val).seq
    fetchesOp c.val 0x12 s → onlyBits w [(8, 39)] = true → flag w 10 = true → q.loops.getLast? = some l →
    q.loops.length = fld w 9 8 + 1 →
    (1 < l.cnt → ∃ t, exec (.loopEnd c) s = .next t ∧ (t.core c.val).seq.rd = l.start % 256 ∧
      (t.core c.val).seq.loops = q.loops.dropLast ++ [{ l with cnt := l.cnt - 1 }] ∧ counted .seqIssued c.val 0 1 s t ∧
      onlyCore c.val s t ∧ onlyRingIndex c.val s t) ∧
    (l.cnt ≤ 1 → ∃ t, exec (.loopEnd c) s = .next t ∧ goesOn c.val s t ∧ (t.core c.val).seq.loops = q.loops.dropLast ∧
      onlyCore c.val s t ∧ onlyRingIndex c.val s t)) ∧
  (∀ (c : CoreId) (s : State),
    let w := s.fetchWord c.val
    let v := if flag w 27 then s.scalar c.val (fld w 26 24) else fld w 91 28
    fetchesOp c.val 0x18 s → onlyBits w [(8, 84)] = true →
    ∃ t, exec (.event c) s = .next t ∧ goesOn c.val s t ∧
      logged { code := 0x0504, cls := 0, part := s.partOf c.val, session := (s.core c.val).owner, core := some c.val,
               detail := fld w 23 8 + 65536 * (v % 2 ^ 48) } s t ∧ onlyCore c.val s t ∧ onlyRingIndex c.val s t) ∧
  (∀ (c : CoreId) (s : State),
    let w := s.fetchWord c.val
    fetchesOp c.val 0x19 s → onlyBits w [(8, 16)] = true →
    ∃ t, exec (.halt c) s = .next t ∧ (t.core c.val).seq.halted = true ∧ (t.core c.val).seq.fault = (s.core c.val).seq.fault ∧
      (t.core c.val).seq.rd = ((s.core c.val).seq.rd + 1) % 256 ∧
      logged { code := 0x0505, cls := 0, part := s.partOf c.val, session := (s.core c.val).owner, core := some c.val,
               detail := fld w 23 8 } s t ∧ onlyCore c.val s t ∧ onlyRingIndex c.val s t)

/-! ### The trellis loader -/

/-- Full loads (R390, R391, R400, R403): GO begins to read from an admitted source, and fails with SOURCE at another; a BUSY
loader drops it; the image's structure and its verification refuse the load with their cause, or it goes on to the next
state; with the Cellar trained at the highest common rate of supported modules, and nothing to reset, the configuration is in
force and retained. A Cellar that cannot train leaves its cause in INITERR, and DFAULT, and the configuration is in force all
the same. Which cause INITERR names where two hold is a reading of the spec (log 73). -/
def Obligations.FullLoads : Prop :=
  (∀ (r : Req) (flash : Bool) (s : State),
    let src := s.rg64 .trlSrc % 2 ^ 48
    s.mayReg r { n := .trlCtrl, c := 0, i := 0, j := 0, hi := false } true = true →
    (s.trlBusy = false → s.sourceOk flash src = true →
      ∃ t, exec (.trlGo r flash) s = .next t ∧ t.trl.st = .read ∧ t.trl.err = 0 ∧ t.trl.flash = flash ∧ t.trl.src = src ∧
        t.trl.img = [] ∧ only [.trl] s t) ∧
    (s.trlBusy = false → s.sourceOk flash src = false →
      ∃ t, exec (.trlGo r flash) s = .next t ∧ t.trl.st = .failed ∧ t.trl.err = trlSOURCE ∧
        logged { code := 0x0602, cls := 2, detail := trlSOURCE } s t) ∧
    (s.trlBusy = true → exec (.trlGo r flash) s = .next (s.access r (regAddr .trlCtrl 0 0 0)))) ∧
  (∀ (bs : List Byte) (s : State), s.trl.st = .read → s.trl.flash = true →
    (s.imageCause bs (bs.take (imgLength bs)) = none →
      ∃ t, exec (.trlImageReadDone bs) s = .next t ∧ t.trl.st = .verify ∧ t.trl.img = bs.take (imgLength bs) ∧ only [.trl] s t) ∧
    (∀ e, s.imageCause bs (bs.take (imgLength bs)) = some e → s.trl.boot = false →
      ∃ t, exec (.trlImageReadDone bs) s = .next t ∧ t.trl.st = .failed ∧ t.trl.err = e ∧ t.cfg = s.cfg ∧
        logged { code := 0x0602, cls := 2, detail := e } s t)) ∧
  (∀ s : State, s.trl.st = .verify →
    (∀ e, s.verify = .inl e → s.trl.boot = false →
      ∃ t, exec .trlVerifyDone s = .next t ∧ t.trl.st = .failed ∧ t.trl.err = e ∧ t.cfg = s.cfg) ∧
    (∀ g, s.verify = .inr g → s.trl.partial_ = false → s.cfg.parts = [] → s.ses.ctx = [] → s.sec.scrubs = [] →
      s.clr.rate = 0 →
      ∃ t, exec .trlVerifyDone s = .next t ∧ t.trl.st = .train ∧ t.trl.new = g ∧ only [.trl] s t)) ∧
  (∀ (failed : List (Fin 16)) (s : State),
    let e := initErr s.clr.mods failed
    s.trl.st = .train →
    ∃ t, exec (.cellarTrainDone failed) s = .next t ∧ t.trl.st = .done ∧ t.cfg = s.trl.new ∧ t.retained = s.trl.new ∧
      t.clr.initerr = e ∧ t.clr.rate = (if e = 0 then commonRate s.clr.mods else 0) ∧
      t.clr.gib = (if e = 0 then installedGib s.clr.mods else 0) ∧ (e ≠ 0 → t.evt.dfault = true))

/-- Partial loads (R393 to R395): an accepted one holds the claims of the changed partitions; at the quiesce point it goes on
to scrub the leaving cores and write slice groups back, or fails with PERMBUSY; QTO fails it with QUIESCE; partitions apply
one after another, and after the last the whole configuration is in force and retained. -/
def Obligations.PartialLoads : Prop :=
  (∀ (g : Cfg) (s : State), s.trl.st = .verify → s.verify = .inr g → s.trl.partial_ = true →
    (∀ p ∈ s.trl.changed, flag (Sparse.get 0 g.parts p) 28 = false) →
    ∃ t, exec .trlVerifyDone s = .next t ∧ t.trl.st = .quiesce ∧ t.trl.new = g ∧
      (∀ d ∈ s.changedDisps, (t.disp d).quiesced = true) ∧ only [.trl, .sdt] s t) ∧
  (∀ s : State, s.trl.st = .quiesce → s.allQuiet = true →
    (s.trl.changed.any s.permBusy = true →
      ∃ t, exec .quiescePoint s = .next t ∧ t.trl.st = .failed ∧ t.trl.err = trlPERMBUSY ∧ t.cfg = s.cfg) ∧
    (s.trl.changed.any s.permBusy = false →
      ∃ t, exec .quiescePoint s = .next t ∧ t.trl.st = .scrub ∧ t.trl.moved = s.leaving ∧ t.trl.wbinv = s.changedGroups)) ∧
  (∀ s : State, s.trl.st = .quiesce → s.allQuiet = false → s.trl.changed.any (fun p => !s.forced p) = true →
    ∃ t, exec .quiesceTimeout s = .next t ∧ t.trl.st = .failed ∧ t.trl.err = trlQUIESCE ∧ t.cfg = s.cfg ∧
      logged { code := 0x0602, cls := 2, detail := trlQUIESCE } s t) ∧
  (∀ (p q : Nat) (l : List Nat) (s : State), s.trl.st = .scrub ∨ s.trl.st = .apply → s.trl.partial_ = true → s.trl.moved = [] →
    s.trl.wbinv = [] → s.trl.deferred = [] →
    (s.trl.changed = p :: q :: l →
      ∃ t, exec .partitionApplyDone s = .next t ∧ t.trl.st = .apply ∧ t.trl.changed = q :: l ∧ t.retained = s.retained) ∧
    (s.trl.changed = [p] →
      ∃ t, exec .partitionApplyDone s = .next t ∧ t.trl.st = .done ∧ t.trl.err = 0 ∧ t.cfg = s.trl.new ∧ t.retained = s.trl.new))

/-! ### The Cellar -/

/-- The Cellar: a patrol line read without error, with a corrected or with an uncorrectable one moves the patrol on, the last
of a pass counts it; an uncorrectable one poisons its line and raises CELLAR_UE (R405, R407, R408); a hot module is throttled
and raised once, a warm one is not hot, a cool one neither (R408); a fill starts, is dropped while one runs, halts unaligned
with RANGE or by HALT with HALTCMD, and ends DONE or halts at the line that stops it (R412). The code RANGE for an unaligned
fill is a reading of the spec (log 78); an error is given by its symbols, by the model's choice (log 137). -/
def Obligations.CellarCommands : Prop :=
  (∀ (e : DramErr) (s : State),
    let n := s.clr.patrol + 1
    s.patrols = true →
    ∃ t, exec (.patrolScrubLine e) s = .next t ∧ t.clr.patrol = (if s.capacity ≤ n * 128 then 0 else n) ∧
      t.clr.passes = (if s.capacity ≤ n * 128 then (s.clr.passes + 1) % 2 ^ 22 else s.clr.passes) ∧ t.mem = s.mem ∧
      only [.clr, .regs, .evt, .ses] s t ∧ (e = [] → t.clr.poison = s.clr.poison ∧ only [.clr] s t) ∧
      (decodeBurst e false = .uncorrectable ∨ decodeBurst e true = .uncorrectable →
        patrolLine s.clr.patrol ∈ t.clr.poison ∧ t.rg64 .clrLastue = patrolLine s.clr.patrol * 128 % 2 ^ 64 ∧
        counted .clrUecnt 0 0 1 s t)) ∧
  (∀ (ch : Fin 16) (degC : Int) (s : State),
    (95 ≤ degC →
      ∃ t, exec (.moduleThermal ch degC) s = .next t ∧ ch.val ∈ t.clr.hot ∧ ch.val ∈ t.clr.warm ∧
        (s.clr.hot.contains ch.val = false → logged { code := 0x0704, cls := 0, detail := ch.val } s t) ∧
        (s.clr.hot.contains ch.val = true → only [.clr] s t)) ∧
    (85 ≤ degC → degC < 95 →
      ∃ t, exec (.moduleThermal ch degC) s = .next t ∧ ch.val ∉ t.clr.hot ∧ ch.val ∈ t.clr.warm ∧ only [.clr] s t) ∧
    (degC < 85 →
      ∃ t, exec (.moduleThermal ch degC) s = .next t ∧ ch.val ∉ t.clr.hot ∧ ch.val ∉ t.clr.warm ∧ only [.clr] s t)) ∧
  (∀ (r : Req) (s : State),
    let b := s.rg64 .clrFillbase % 2 ^ 48
    let n := s.rg64 .clrFillsize % 2 ^ 48
    s.mayReg r { n := .clrFillctl, c := 0, i := 0, j := 0, hi := false } true = true →
    (s.clr.fill = none → b % 128 = 0 → n % 128 = 0 →
      ∃ t, exec (.cellarFillGo r) s = .next t ∧
        t.clr = { s.clr with fill := some { who := .soft, base := b, size := n, pat := s.rg .clrFillpat }, fillSt := 1, fillErr := 0 } ∧
        only [.clr] s t) ∧
    (s.clr.fill = none → b % 128 ≠ 0 ∨ n % 128 ≠ 0 →
      ∃ t, exec (.cellarFillGo r) s = .next t ∧ t.clr = { s.clr with fillSt := 3, fillErr := 1 } ∧ only [.clr] s t) ∧
    (s.clr.fill ≠ none → exec (.cellarFillGo r) s = .next (s.access r (regAddr .clrFillctl 0 0 0))) ∧
    (s.clr.fill ≠ none →
      ∃ t, exec (.cellarFillHalt r) s = .next t ∧ t.clr.fill = none ∧ t.clr.fillSt = 3 ∧ t.clr.fillErr = 3) ∧
    (s.clr.fill = none → exec (.cellarFillHalt r) s = .next s)) ∧
  (∀ (f : Fill) (s : State),
    let e := (s.fillLines f.pat (linesOf f.base f.size)).1
    let u := (s.fillLines f.pat (linesOf f.base f.size)).2
    s.clr.kills = [] → s.clr.fill = some f →
    ∃ t, exec .cellarFillDone s = .next t ∧
      t.clr = { u.clr with fill := none, fillSt := if e = 0 then 2 else 3, fillErr := e } ∧ t.mem = u.mem ∧ only [.clr] u t) ∧
  (∀ (f : Fill) (l : List Fill) (s : State), s.clr.kills = f :: l →
    ∃ t, exec .cellarFillDone s = .next t ∧ t.clr.kills = l ∧ t.clr.fill = s.clr.fill ∧ t.clr.fillSt = s.clr.fillSt)

/-- A line filled (R412) holds its bytes on the DRAM, and no other byte of memory changes. Under which key version a fill
writes is a state of the model (log 13). -/
def Obligations.FilledLine : Prop :=
  ∀ (s : State) (l v : Nat) (bs : List Byte), bs.length = 128 →
    (s.fillLine l v bs).bytes (l * 128) 128 = bs ∧
    (∀ a, (a < l * 128 ∨ l * 128 + 128 ≤ a) → (s.fillLine l v bs).byte a = s.byte a)

/-! ### Tchiuth -/

/-- Flits and ports (R414 to R417): an uncorrectable flit and one of wrong CRC are counted and answered NAK; a flit without
error in order advances the number expected and is acknowledged, one out of order is not taken; what is unacknowledged is
sent again; a port trains where the image enables it, comes UP as trained or tries again, and goes DOWN. How packets fill
flits is the model's choice (log 18). -/
def Obligations.LinkCommands : Prop :=
  (∀ (p : PortId) (flit : List Byte) (s : State), flit.length = 256 → (s.port p.val).st = .up →
    (∃ t f, exec (.flitReceive p flit false true) s = .next t ∧ counted .tchFecunc 0 p.val 1 s t ∧
      t.outbox = s.outbox ++ [.flit p.val f] ∧ (leAt f 0 8).testBit 33 = true ∧ only [.regs, .outbox] s t) ∧
    (crc32 (flit.take 252) ≠ leAt flit 252 4 →
      ∃ t f, exec (.flitReceive p flit false false) s = .next t ∧ counted .tchCrcerr 0 p.val 1 s t ∧
        t.outbox = s.outbox ++ [.flit p.val f] ∧ (leAt f 0 8).testBit 33 = true ∧ only [.regs, .outbox] s t) ∧
    (crc32 (flit.take 252) = leAt flit 252 4 → (leAt flit 0 8).testBit 33 = false →
      (bits (leAt flit 0 8) 0 16 = (s.port p.val).rxSeq →
        ∃ t f, exec (.flitReceive p flit false false) s = .next t ∧
          (t.port p.val).rxSeq = ((s.port p.val).rxSeq + 1) % 65536 ∧ (t.port p.val).rxAny = true ∧
          t.outbox = s.outbox ++ [.flit p.val f] ∧ (leAt f 0 8).testBit 33 = false ∧ only [.tch, .regs, .outbox] s t) ∧
      (bits (leAt flit 0 8) 0 16 ≠ (s.port p.val).rxSeq →
        ∃ t, exec (.flitReceive p flit false false) s = .next t ∧ (t.port p.val).rxSeq = (s.port p.val).rxSeq ∧
          (t.port p.val).rxq = (s.port p.val).rxq ∧ (t.port p.val).rxBuf = (s.port p.val).rxBuf ∧ only [.tch] s t))) ∧
  (∀ (p : PortId) (s : State), (s.port p.val).st = .up → (s.port p.val).unacked ≠ [] →
    ((∀ f ∈ (s.port p.val).unacked, f.sent < 8) →
      ∃ t, exec (.flitRetryTimeout p) s = .next t ∧
        (t.port p.val).unacked = (s.port p.val).unacked.map (fun f => { f with sent := f.sent + 1 }) ∧
        t.outbox = s.outbox ++ (s.port p.val).unacked.map (fun f => .flit p.val f.bytes) ∧
        counted .tchRetry 0 p.val (s.port p.val).unacked.length s t ∧ only [.tch, .regs, .outbox] s t) ∧
    ((∃ f ∈ (s.port p.val).unacked, 8 ≤ f.sent) →
      ∃ t, exec (.flitRetryTimeout p) s = .next t ∧ (t.port p.val).st = .training ∧ (t.port p.val).err = 5)) ∧
  (∀ (r : Req) (p : PortId) (s : State),
    s.mayReg r { n := .tchCtrl, c := 0, i := p.val, j := 0, hi := false } true = true →
    (flag (s.portCfg p.val) 7 = true →
      ∃ t, exec (.tchRetrain r p) s = .next t ∧ (t.port p.val).st = .training ∧ (t.port p.val).tries = 0 ∧ (t.port p.val).err = 0) ∧
    (∃ t, exec (.tchDisable r p) s = .next t ∧ (t.port p.val).st = .down ∧ (t.port p.val).err = 6)) ∧
  (∀ (p : PortId) (peer : Fin 4096) (port : Fin 8) (topo : BitVec 12) (rtt : Nat) (s : State),
    (s.port p.val).st = .training → s.trainErr p.val peer.val port.val topo.toNat rtt = 0 →
    ∃ t, exec (.tchTrainDone p (.up peer port topo rtt)) s = .next t ∧ (t.port p.val).st = .up ∧ (t.port p.val).err = 0 ∧
      (t.port p.val).peer = peer.val ∧ (t.port p.val).rtt = min rtt 511 ∧
      logged { code := 0x0801, cls := 0, part := s.portPart p.val, detail := p.val } s t) ∧
  (∀ (p : PortId) (s : State), (s.port p.val).st = .training →
    ∃ t, exec (.tchTrainDone p .phyFail) s = .next t ∧
      t.port p.val = { s.port p.val with
        err := 1
        tries := (s.port p.val).tries + 1
        st := if (s.port p.val).tries < 3 then .training else .failed } ∧ only [.tch] s t) ∧
  (∀ (p : PortId) (s : State), (s.port p.val).st = .up →
    ∃ t, exec (.tchLinkDown p) s = .next t ∧ (t.port p.val).st = .down ∧ (t.port p.val).err = 1 ∧
      (t.port p.val).unacked = [] ∧ (s.tch.groups = [] → counted .tchDown 0 p.val 1 s t ∧
        logged { code := 0x0802, cls := 2, part := s.portPart p.val, detail := p.val + 8 } s t))

/-- Packets for another device go on, or a request that no route, port or place in the topology takes is answered NACK
NOROUTE (R418, R422); a remote WRITE, READ and SIGNAL act on a scratchpad through an open window and are answered; one that
no window admits, or at any other address, is answered NACK WINDOW and changes no memory (R285, R423, R424). -/
def Obligations.RemoteRequests : Prop :=
  (∀ (p : PortId) (k : Packet) (l : List Packet) (s : State),
    let u := s.modPort p.val (fun x => { x with rxq := l })
    let goes := ∃ q, s.route k.dst = some q ∧ (s.port q).st = .up ∧ s.inTopo k.dst = true
    (s.port p.val).rxq = k :: l → k.dst ≠ s.devId →
    (goes →
      ∃ t, exec (.tchForward p) s = .next t ∧ (t.port p.val).rxq = l ∧ s.outbox.length < t.outbox.length ∧ t.mem = s.mem ∧
        only [.tch, .outbox] s t) ∧
    (¬ goes → k.typ = tWrite ∨ k.typ = tRead ∨ k.typ = tSignal →
      exec (.tchForward p) s = .next (u.respondRemote k.src k.tag tNack 2 [])) ∧
    (¬ goes → k.typ ≠ tWrite → k.typ ≠ tRead → k.typ ≠ tSignal → exec (.tchForward p) s = .next u)) ∧
  (∀ (p : PortId) (k : Packet) (l : List Packet) (c off : Nat) (s : State),
    let d := Fin.ofNat 4096 k.src
    (s.port p.val).rxq = k :: l → k.dst = s.devId → whereIs k.addr = .spad c off → s.coreOpen c = true →
    (k.typ = tWrite → off + k.payload.length ≤ 0x80000 → s.admitted (.remote d) c off k.payload.length .wr = true →
      s.slotCheck c off k.payload.length true pRemote = .ok → s.behind (.remote d) c off k.payload.length true = none →
      ∃ t u : State, exec (.tchWrite p) s = .next t ∧ t = u.respondRemote d.val k.tag tWack 0 [] ∧
        u.spad c off k.payload.length = k.payload ∧ (u.port p.val).rxq = l ∧ onlyCore c s u ∧ u.outbox = s.outbox ∧
        (∀ a, (a < spadBase c + off ∨ spadBase c + off + k.payload.length ≤ a) → t.byte a = s.byte a)) ∧
    (k.typ = tRead → off + k.len ≤ 0x80000 → s.admitted (.remote d) c off k.len .rd = true →
      s.slotCheck c off k.len false cRemote = .ok → s.behind (.remote d) c off k.len false = none →
      ∃ t u : State, exec (.tchRead p) s = .next t ∧ t = u.respondRemote d.val k.tag tRdata 0 (s.spad c off k.len) ∧
        (u.port p.val).rxq = l ∧ t.mem = s.mem ∧ onlyCore c s u ∧ u.outbox = s.outbox) ∧
    (k.typ = tSignal → off < 0x80000 → s.admitted (.remote d) c off 1 .sig = true →
      ∃ t u : State, exec (.tchSignal p) s = .next t ∧ t = u.respondRemote k.src k.tag tSack 0 [] ∧
        (∀ m, s.slotFrom c off = some m →
          u.slot c m = (if k.status.testBit 0 then s.slotRelease c m cRemote else s.slotFull c m).slot c m) ∧
        (s.slotFrom c off = none → u.core c = s.core c) ∧ (u.port p.val).rxq = l ∧ t.mem = s.mem ∧ onlyCore c s u) ∧
    (k.typ = tWrite → off + k.payload.length ≤ 0x80000 → s.admitted (.remote d) c off k.payload.length .wr = false →
      ∃ t u : State, exec (.tchWrite p) s = .next t ∧ t = u.respondRemote d.val k.tag tNack 1 [] ∧ t.mem = s.mem ∧ u.cores = s.cores) ∧
    (k.typ = tRead → off + k.len ≤ 0x80000 → s.admitted (.remote d) c off k.len .rd = false →
      ∃ t u : State, exec (.tchRead p) s = .next t ∧ t = u.respondRemote d.val k.tag tNack 1 [] ∧ t.mem = s.mem ∧ u.cores = s.cores) ∧
    (k.typ = tSignal → off < 0x80000 → s.admitted (.remote d) c off 1 .sig = false →
      ∃ t u : State, exec (.tchSignal p) s = .next t ∧ t = u.respondRemote k.src k.tag tNack 1 [] ∧ t.mem = s.mem ∧ u.cores = s.cores)) ∧
  (∀ (p : PortId) (k : Packet) (l : List Packet) (s : State),
    let u := s.modPort p.val (fun x => { x with rxq := l })
    (s.port p.val).rxq = k :: l → k.dst = s.devId → (∀ c off, whereIs k.addr ≠ .spad c off) →
    (k.typ = tWrite → exec (.tchWrite p) s = .next (u.respondRemote k.src k.tag tNack 1 [])) ∧
    (k.typ = tRead → exec (.tchRead p) s = .next (u.respondRemote k.src k.tag tNack 1 [])) ∧
    (k.typ = tSignal → exec (.tchSignal p) s = .next (u.respondRemote k.src k.tag tNack 1 [])))

/-- Responses (R284, R363, R423): WACK and RDATA count a channel's acknowledgements down, the last of a row ends it; SACK
counts the core's outstanding signals down; a NACK and a response that does not come end the request with their events, and
halt a channel that runs with ACCESS and DMA_FAULT. A response to no request is dropped. At which device the events are
raised is a reading of the spec (log 53). -/
def Obligations.RemoteResponses : Prop :=
  let ev (s : State) (c code detail : Nat) : Event := { code := code, cls := 2, part := s.partOf c, core := some c, detail := detail }
  let signalEnds (s t : State) (q : OutReq) (c code detail : Nat) : Prop :=
    (t.core c).seq = { (s.core c).seq with sigs := (s.core c).seq.sigs - 1 } ∧ t.tch.reqs = s.tch.reqs.erase q ∧
      logged (ev s c code detail) s t ∧ onlyCore c s t ∧ t.mem = s.mem
  let channelEnds (s t : State) (q : OutReq) (c ch code detail : Nat) : Prop :=
    t.mem = s.mem ∧ onlyCore c s t ∧
      (s.chanFree c ch = false → (t.chan c ch).st = .halted ∧ (t.chan c ch).err = eACCESS ∧ (∀ x ∈ t.tch.reqs, x.for_ ≠ .dma c ch) ∧
        t.evt.cnt = s.evt.cnt + 2 ∧
        Sparse.get none t.evt.log (s.evt.cnt % 8192) = some { ev s c code detail with time := s.prc.time } ∧
        Sparse.get none t.evt.log ((s.evt.cnt + 1) % 8192) =
          some { ev s c 0x0407 (q.addr % 2 ^ 48 + 2 ^ 48 * (ch % 16)) with time := s.prc.time }) ∧
      (s.chanFree c ch = true → t.chan c ch = s.chan c ch ∧ t.tch.reqs = s.tch.reqs.erase q ∧ logged (ev s c code detail) s t)
  (∀ (p : PortId) (k : Packet) (l : List Packet) (q : OutReq) (s : State),
    let u := s.modPort p.val (fun x => { x with rxq := l })
    let code := if k.status = 2 then 0x0803 else 0x0405
    let detail := if k.status = 2 then q.dst else q.addr
    (s.port p.val).rxq = k :: l → k.dst = s.devId → s.reqOf k = some q →
    (∀ c ch, k.typ = tWack → q.for_ = .dma c ch → q.read = false →
      let y := { s.chan c ch with acks := (s.chan c ch).acks - 1 }
      ∃ t, exec (.tchWack p) s = .next t ∧ t.tch.reqs = s.tch.reqs.erase q ∧ (t.port p.val).rxq = l ∧ onlyCore c s t ∧
        only [.tch, .cores] s t ∧ (y.sent = false ∨ y.acks ≠ 0 → t.chan c ch = y) ∧
        (y.sent = true → y.acks = 0 → (t.chan c ch).rows = y.rows + 1 ∧ (t.chan c ch).sent = false ∧
          (t.chan c ch).st = (if y.halt then .halted else .run))) ∧
    (∀ c ch v, k.typ = tRdata → q.for_ = .dma c ch → q.read = true → ddOp (s.chan c ch).desc = 0 →
      u.dmaPut c ch q.dest (ddHint (s.chan c ch).desc) k.payload = (true, v) →
      let w := ((v.endReq q).mesh c none k.payload.length).modChan c ch (fun x => { x with acks := x.acks - 1 })
      exec (.tchRdata p) s = .next (if (v.chan c ch).acks - 1 = 0 then w.rowDone c ch else w)) ∧
    (∀ c ch, k.typ = tRdata → q.for_ = .dma c ch → q.read = true → ddOp (s.chan c ch).desc ≠ 0 →
      2 ≤ (s.chan c ch).acks →
      ∃ t, exec (.tchRdata p) s = .next t ∧ (t.chan c ch).rbuf = putAt (s.chan c ch).rbuf q.dest k.payload ∧
        (t.chan c ch).acks = (s.chan c ch).acks - 1 ∧ t.tch.reqs = s.tch.reqs.erase q ∧ (t.port p.val).rxq = l ∧
        onlyCore c s t ∧ only [.tch, .cores] s t) ∧
    (∀ c, k.typ = tSack → q.for_ = .signal c →
      ∃ t, exec (.tchSack p) s = .next t ∧ (t.core c).seq = { (s.core c).seq with sigs := (s.core c).seq.sigs - 1 } ∧
        t.tch.reqs = s.tch.reqs.erase q ∧ (t.port p.val).rxq = l ∧ onlyCore c s t ∧ only [.tch, .cores] s t) ∧
    (∀ c, k.typ = tNack → q.for_ = .signal c →
      ∃ t, exec (.tchNack p) s = .next t ∧ signalEnds s t q c code detail ∧ (t.port p.val).rxq = l) ∧
    (∀ c ch, k.typ = tNack → q.for_ = .dma c ch →
      ∃ t, exec (.tchNack p) s = .next t ∧ channelEnds s t q c ch code detail ∧ (t.port p.val).rxq = l)) ∧
  (∀ (p : PortId) (k : Packet) (l : List Packet) (s : State),
    let u := s.modPort p.val (fun x => { x with rxq := l })
    (s.port p.val).rxq = k :: l → k.dst = s.devId → s.reqOf k = none →
    (k.typ = tWack → exec (.tchWack p) s = .next u) ∧ (k.typ = tRdata → exec (.tchRdata p) s = .next u) ∧
    (k.typ = tSack → exec (.tchSack p) s = .next u) ∧ (k.typ = tNack → exec (.tchNack p) s = .next u)) ∧
  (∀ (tag : Fin 65536) (q : OutReq) (s : State),
    let detail := q.dst % 4096 + 65536 * (q.tag % 65536)
    s.tch.reqs.find? (·.tag = tag.val) = some q →
    (∀ c, q.for_ = .signal c → ∃ t, exec (.tchTimeout tag) s = .next t ∧ signalEnds s t q c 0x0804 detail) ∧
    (∀ c ch, q.for_ = .dma c ch → ∃ t, exec (.tchTimeout tag) s = .next t ∧ channelEnds s t q c ch 0x0804 detail))

/-- Messages of a reduction group (R429 to R433, R438) from a neighbour of the tree, of the open epoch: a child's SUM joins
its round; the parent's RESULT overwrites it; STAGED marks the child; COMMIT commits the round and releases the contributor;
ABORT ends the epoch with its cause; BARUP marks an arrival, BARDOWN clears the barrier. -/
def Obligations.ReductionMessages : Prop :=
  ∀ (p : PortId) (k : Packet) (l : List Packet) (s : State),
    let x := s.group k.grp
    (s.port p.val).rxq = k :: l → k.dst = s.devId → x.valid = true → k.tdigest = x.tdigest → x.st = .opened → k.epoch = x.epoch →
    (∀ xs, x.kids.any (fun y => y.1 = k.src) = true → k.typ = tSum → outsOf k = some xs → s.inArea k = true → x.round k.tile = none →
      ∃ t r, exec (.tchSum p) s = .next t ∧ (t.group k.grp).round k.tile = some r ∧ r.acc.length = k.first + xs.length ∧
        r.ptag = k.ptag ∧ r.regime = k.regime ∧ Sparse.get 0 r.got k.src = xs.length ∧ r.local_ = none) ∧
    (∀ xs r, k.src = x.parent → k.typ = tResult → outsOf k = some xs → x.round k.tile = some r → r.staged = false →
      s.inArea k = true → r.resGot + xs.length < r.acc.length →
      ∃ t r', exec (.tchResult p) s = .next t ∧ (t.group k.grp).round k.tile = some r' ∧ r'.resGot = r.resGot + xs.length ∧
        (r'.acc.drop k.first).take xs.length = xs ∧ r'.staged = false ∧ only [.tch] s t) ∧
    (∀ r, x.kids.any (fun y => y.1 = k.src) = true → k.typ = tStaged → x.round k.tile = some r → r.staged = false →
      ∃ t r', exec (.tchStaged p) s = .next t ∧ (t.group k.grp).round k.tile = some r' ∧ k.src ∈ r'.stagedKids ∧
        r'.committed = r.committed ∧ only [.tch] s t) ∧
    (∀ r, k.src = x.parent → k.typ = tCommit → x.round k.tile = some r → r.committed = false →
      ∃ t r', exec (.tchCommit p) s = .next t ∧ (t.group k.grp).round k.tile = some r' ∧ r'.committed = true ∧
        (t.group k.grp).committed = x.committed + 1 ∧
        (∀ c h, r.local_ = some (c, h) → (t.tile c h).released = true)) ∧
    (k.src = x.parent → x.parent ≠ 0xFFF → k.typ = tAbort →
      ∃ t, exec (.tchAbort p) s = .next t ∧ (t.group k.grp).st = .aborted ∧ (t.group k.grp).cause = k.status) ∧
    (x.kids.any (fun y => y.1 = k.src) = true → k.typ = tBarup → x.barLocal = false →
      ∃ t, exec (.tchBarup p) s = .next t ∧ k.src ∈ (t.group k.grp).barKids ∧ (t.group k.grp).barLocal = false ∧ only [.tch] s t) ∧
    (k.src = x.parent → k.typ = tBardown →
      ∃ t, exec (.tchBardown p) s = .next t ∧ (t.group k.grp).barLocal = false ∧ (t.group k.grp).barKids = [] ∧
        (t.group k.grp).barUp = false)

/-- Epochs (R426, R433, R442): OPEN opens a group with the epoch and no rounds, leaves it CLOSED with AREA where the area is
not admitted, and is dropped on an OPEN group; ABORT and a round that does not commit in time end the epoch with their
causes. -/
def Obligations.GroupEpochs : Prop :=
  (∀ (r : Req) (g : GroupId) (e : Fin 65536) (s : State),
    let x := s.group g.val
    s.mayReg r { n := .grpCtrl, c := 0, i := g.val, j := 0, hi := false } true = true →
    (x.st ≠ .opened → s.openBad g.val = false →
      ∃ t, exec (.groupOpen r g e) s = .next t ∧
        t.group g.val = { x with st := .opened, cause := 0, epoch := e.val, rounds := [], committed := 0 } ∧
        (∀ k, k ≠ g.val → t.group k = s.group k) ∧ only [.tch] s t) ∧
    (x.st ≠ .opened → s.openBad g.val = true →
      ∃ t, exec (.groupOpen r g e) s = .next t ∧ t.group g.val = { x with st := .closed, cause := 6, rounds := [] } ∧
        (∀ k, k ≠ g.val → t.group k = s.group k) ∧ only [.tch] s t) ∧
    (x.st = .opened → exec (.groupOpen r g e) s = .next (s.access r (regAddr .grpCtrl 0 g.val 0))) ∧
    (x.st = .opened →
      ∃ t, exec (.groupAbort r g) s = .next t ∧ (t.group g.val).st = .aborted ∧ (t.group g.val).cause = 1 ∧
        (∀ y ∈ (t.group g.val).rounds, y.committed = true))) ∧
  (∀ (g : GroupId) (tile : Nat) (r : Round) (s : State), (s.group g.val).st = .opened → (s.group g.val).round tile = some r →
    r.committed = false →
    ∃ t, exec (.roundTimeout g tile) s = .next t ∧ (t.group g.val).st = .aborted ∧ (t.group g.val).cause = 3)

/-! ### Host ports and Hacor Transport -/

/-- Frames and links (R443 to R448): a frame of bad check sequence and one that is for nobody are counted; an ARP request for
the port's address is answered; management HXT is taken; links come UP and are lost; a gate entry follows the time counter; a
frame leaves, and a shaper's credit recovers. When a shaper's credit is negative is free (log 46). -/
def Obligations.FramesAndLinks : Prop :=
  (∀ (p : Fin 4) (f : Frame) (s : State), (s.ethp p.val).link = .up →
    (f.fcsOk = false →
      ∃ t, exec (.ethFrameReceive p f .none) s = .next t ∧ counted .ethFcserr 0 p.val 1 s t ∧ only [.regs] s t) ∧
    (f.fcsOk = true → f.body = .other →
      ∃ t, exec (.ethFrameReceive p f .none) s = .next t ∧ counted .ethRxdrop 0 p.val 1 s t ∧ only [.regs] s t) ∧
    (∀ a, f.fcsOk = true → f.bytes ≤ 9216 → f.body = .arp a → s.ours4 p.val a = true → s.liveFilters p.val = [] →
      ∃ t, exec (.ethFrameReceive p f .none) s = .next t ∧
        (({ q := 0, bytes := 64, answer := some (.arp a) } : EFrame) ∈ (t.ethp p.val).egress ∨
          (t.ethp p.val).cur = some { q := 0, bytes := 64, answer := some (.arp a) }) ∧ only [.eth] s t)) ∧
  (∀ (f : Frame) (h : HxtFrame) (i : Fin 4) (s : State), (s.ethp 4).link = .up → f.fcsOk = true → f.bytes ≤ 9216 →
    f.body = .hxtEty h → f.da.toNat = macOf 4 → badHeader h = false → h.ackonly = false → h.typ = mAUTH →
    ∃ t, exec (.mgmtFrameReceive f i) s = .next t ∧ t.ses.inq = s.ses.inq ++ [(4, h)] ∧ only [.ses] s t) ∧
  (∀ (p : EthId) (ok preempt : Bool) (s : State), s.linkable p.val = true → (s.ethp p.val).link = .training →
    ∃ t, exec (.ethLinkTrainDone p ok preempt) s = .next t ∧ (t.ethp p.val).link = (if ok then .up else .failed) ∧
      (t.ethp p.val).pver = (ok && preempt) ∧ only [.eth] s t) ∧
  (∀ (p : EthId) (s : State), (s.ethp p.val).link = .up →
    ∃ t, exec (.ethLinkLoss p) s = .next t ∧ t.ethp p.val = { s.ethp p.val with link := .down, pver := false, cur := none } ∧
      (∀ q, q ≠ p.val → t.ethp q = s.ethp q) ∧ only [.eth] s t) ∧
  (∀ (p : Fin 4) (s : State),
    let i := (gateWalk (s.ethp p.val).gcl 0 ((s.ethp p.val).phase s.prc.time)).1
    s.prc.lock = true → (s.ethp p.val).gcl ≠ [] → i ≠ (s.ethp p.val).pos →
    ∃ t, exec (.gateEntryExpiry p) s = .next t ∧ (t.ethp p.val).pos = i ∧ (∀ q, q ≠ p.val → t.ethp q = s.ethp q) ∧ only [.eth] s t) ∧
  (∀ (p : Fin 4) (f : EFrame) (s : State), (s.ethp p.val).cur = some f → (s.rg .ethTsn 0 p.val).toNat.testBit (8 + f.q) = false →
    f.hxt = none →
    ∃ t, exec (.egressFrameDone p) s = .next t ∧ t.outbox = s.outbox ++ [.frame p.val f] ∧ (t.ethp p.val).neg = (s.ethp p.val).neg ∧
      only [.eth, .outbox] s t) ∧
  (∀ (p : Fin 4) (q : Fin 8) (s : State), (s.ethp p.val).neg.contains q.val = true →
    ∃ t, exec (.cbsCreditRecovered p q) s = .next t ∧ q.val ∉ (t.ethp p.val).neg ∧ only [.eth] s t)

/-- The handshake (R467 to R473, R475): an OPEN past the rate is dropped and counted, one of bad form answered RESV, any
other new one that nothing holds takes its context to HALFOPEN; an AUTH of the right MAC opens it with the rights asked and
its keys, or completes a resume with the next key epoch, another frees it, or ends the resume, and is counted; lockouts,
half-open contexts, resumes and lingering sessions end. Which context is used comes with the command (log 117); the answer to
a key off the curve and for a SCRUBBING partition is a reading of the spec (logs 107, 109). -/
def Obligations.Handshake : Prop :=
  (∀ (n : SessId) (port : Nat) (h : HxtFrame) (u s : State), s.takeFrame (isTyp mOPEN) = some ((port, h), u) →
    (∃ t, exec (.hxtOpen n false) s = .next t ∧ counted .sesHsdrop 0 0 1 s t ∧ t.ses = u.ses ∧ only [.ses, .regs] s t) ∧
    (openBadForm h.payload = true →
      exec (.hxtOpen n true) s = .next (u.openNo port (if port = 4 then 65536 + h.session % 4 else n.val) stRESV)) ∧
    (port < 4 → openBadForm h.payload = false → (leAt h.payload 4 1).testBit 2 = false →
      u.handshake port (leAt h.payload 0 4) ((h.payload.drop 8).take 32) = none → (u.sess n.val).st = .free →
      u.opensHeld port = false → u.ses.locked.contains (leAt h.payload 0 4) = false → u.tenantFull port (leAt h.payload 0 4) = false →
      u.tenantScrubs port (leAt h.payload 0 4) = false → u.halfOpen.length < 1024 →
      ∃ t, exec (.hxtOpen n true) s = .next t ∧ (t.sess n.val).st = .halfopen ∧ (t.sess n.val).tid.toNat = leAt h.payload 0 4 ∧
        (t.sess n.val).port = port ∧ (t.sess n.val).known = (u.tenantOf port (leAt h.payload 0 4)).isSome ∧
        onlySess n.val s t ∧ only [.ses, .eth, .free] s t)) ∧
  (∀ (port : Nat) (h : HxtFrame) (u s : State),
    let n := sessNum port h
    let right := (s.sess n).known = true ∧ h.payload = s.macOf n
    s.takeFrame (isTyp mAUTH) = some ((port, h), u) →
    (right → (s.sess n).st = .halfopen →
      ∃ t, exec .hxtAuth s = .next t ∧ (t.sess n).st = .opened ∧ (t.sess n).rights = (s.sess n).asked ∧
        (t.sess n).keys = s.newKeys n h.payload 0 ∧ Sparse.get 0 t.ses.fails (s.sess n).tid.toNat = 0) ∧
    (right → (s.sess n).st = .rekey →
      let ke := ((s.sess n).kepoch + 1) % 65536
      ∃ t, exec .hxtAuth s = .next t ∧ (t.sess n).st = .opened ∧ (t.sess n).kepoch = ke ∧
        (t.sess n).keys = s.newKeys n h.payload ke ∧ (t.sess n).inSeq = 0 ∧ Sparse.get 0 t.ses.fails (s.sess n).tid.toNat = 0) ∧
    (¬ right → (s.sess n).st = .halfopen ∨ (s.sess n).st = .rekey →
      ∃ t, exec .hxtAuth s = .next t ∧ counted .sesAuthfail 0 0 1 s t ∧
        logged { code := 0x0901, cls := 0, detail := (s.sess n).tid.toNat } s t ∧
        ((s.sess n).st = .halfopen → t.sess n = {}) ∧
        ((s.sess n).st = .rekey → (t.sess n).st = (if (s.sess n).wasLost then .lost else .opened))) ∧
    ((s.sess n).st = .free → exec .hxtAuth s = .next u)) ∧
  (∀ (x : W32) (s : State),
    ∃ t, exec (.authLockoutExpiry x) s = .next t ∧ t.ses.locked = s.ses.locked.filter (· ≠ x.toNat) ∧ t.ses.ctx = s.ses.ctx ∧
      only [.ses] s t) ∧
  (∀ (n : CtxId) (s : State), (s.sess n.val).st = .halfopen →
    ∃ t, exec (.halfopenTimeout n) s = .next t ∧ t.sess n.val = {} ∧ onlySess n.val s t ∧ only [.ses] s t) ∧
  (∀ (n : CtxId) (s : State), (s.sess n.val).st = .rekey →
    ∃ t, exec (.rekeyTimeout n) s = .next t ∧ (t.sess n.val).st = (if (s.sess n.val).wasLost then .lost else .opened) ∧
      (t.sess n.val).resp = []) ∧
  (∀ (n : CtxId) (s : State), (s.sess n.val).st = .lost →
    ∃ t, exec (.lingerExpiry n) s = .next t ∧ t.sess n.val = {})

/-- A waiting message begins or ends (R457, R459, R460, R464): each admitted fragment of a WRITE to a scratchpad stores its
bytes and a READ of one gathers the bytes read; a message that is over is answered and leaves the session's list; FENCE,
STAT, CLOSE and KILL act once every earlier message is complete, at once or when they waited. -/
def Obligations.SessionMessages : Prop :=
  (∀ (port : Nat) (h : HxtFrame) (l : List (Nat × HxtFrame)) (m : InMsg) (c off : Nat) (s : State),
    let n := sessNum port h
    let a := leAt m.head 0 8
    s.ses.inq = (port, h) :: l → n < 65536 → s.msgFor (port, h) = some m → m.begun = false → m.no = false →
    (s.sess n).mayBegin m.seq = true → a < 2 ^ 48 → whereIs a = .spad c off → s.coreOpen c = true →
    (∀ bs, isTyp mWRITE (port, h) = true → h.frag = 0 → bs = h.payload.drop 8 → h.payload.length = m.len → 8 < m.len →
      off + bs.length ≤ 0x80000 → s.admitted (reqFor n) c off bs.length .wr = true →
      s.slotCheck c off bs.length true pSession = .ok → s.behind (reqFor n) c off bs.length true = none →
      s.imageHeld a bs.length = none →
      ∃ t, exec .hxtWrite s = .next t ∧ t.spad c off bs.length = bs ∧ t.ses.inq = l ∧
        (∀ b, (b < spadBase c + off ∨ spadBase c + off + bs.length ≤ b) → t.byte b = s.byte b) ∧
        (∃ y ∈ (t.sess n).inMsgs, y.seq = h.seq ∧ y.begun = true ∧ y.no = false) ∧ onlyCore c s t ∧ onlySess n s t) ∧
    (∀ (len : Nat) (de : LineErrs), isTyp mREAD (port, h) = true → m.len = 12 → len = leAt m.head 8 4 → 0 < len → len ≤ 1048576 →
      off + len ≤ 0x80000 → s.admitted (reqFor n) c off len .rd = true → s.slotCheck c off len false cSession = .ok →
      s.behind (reqFor n) c off len false = none →
      ∃ t, exec (.hxtRead de) s = .next t ∧ t.ses.inq = l ∧ t.mem = s.mem ∧
        (∃ y ∈ (t.sess n).inMsgs, y.seq = h.seq ∧ y.begun = true ∧ (y.data.drop 4).take len = s.spad c off len) ∧
        onlyCore c s t ∧ onlySess n s t)) ∧
  (∀ (port : Nat) (h : HxtFrame) (l : List (Nat × HxtFrame)) (m : InMsg) (c off : Nat) (s : State),
    let n := sessNum port h
    let a := leAt m.head 0 8 + h.frag * (s.sess n).fragsz
    let bs := h.payload
    s.ses.inq = (port, h) :: l → n < 65536 → s.msgFor (port, h) = some m → m.begun = true → m.no = false →
    isTyp mWRITE (port, h) = true → h.frag ≠ 0 → bs ≠ [] → whereIs a = .spad c off → s.coreOpen c = true → off + bs.length ≤ 0x80000 →
    s.admitted (reqFor n) c off bs.length .wr = true → s.slotCheck c off bs.length true pSession = .ok →
    s.behind (reqFor n) c off bs.length true = none → s.imageHeld a bs.length = none →
    ∃ t, exec .hxtWrite s = .next t ∧ t.spad c off bs.length = bs ∧ t.ses.inq = l ∧
      (∀ b, (b < spadBase c + off ∨ spadBase c + off + bs.length ≤ b) → t.byte b = s.byte b) ∧ onlyCore c s t ∧ onlySess n s t) ∧
  (∀ (n : CtxId) (q : Nat) (m : InMsg) (s : State), (s.sess n.val).inMsgs.find? (·.seq = q) = some m → m.typ = mWRITE →
    s.msgOver n.val m = true →
    ∃ t, exec (.hxtMessageComplete n q) s = .next t ∧ (t.sess n.val).inMsgs = (s.sess n.val).inMsgs.filter (fun y => y.seq ≠ m.seq) ∧
      (t.sess n.val).outSeq = (s.sess n.val).outSeq + 1 ∧ t.mem = s.mem) ∧
  (∀ (port : Nat) (h : HxtFrame) (l : List (Nat × HxtFrame)) (m : InMsg) (s : State),
    let n := sessNum port h
    let answered (t : State) : Prop := t.ses.inq = l ∧ (t.sess n).inMsgs = (s.sess n).inMsgs.filter (fun y => y.seq ≠ h.seq) ∧
      (t.sess n).outSeq = (s.sess n).outSeq + 1
    s.ses.inq = (port, h) :: l → n < 65536 → s.msgFor (port, h) = some m → m.typ = h.typ → (s.sess n).clearTo h.seq = true → m.len = 0 →
    (isTyp mFENCE (port, h) = true → ∃ t, exec .hxtFence s = .next t ∧ answered t ∧ (t.sess n).st = (s.sess n).st ∧ t.mem = s.mem) ∧
    (isTyp mSTAT (port, h) = true → ∃ t, exec .hxtStat s = .next t ∧ answered t ∧ (t.sess n).st = (s.sess n).st ∧ t.mem = s.mem) ∧
    (isTyp mCLOSE (port, h) = true → ∃ t, exec .hxtClose s = .next t ∧ (t.sess n).st = .closing ∧ (t.sess n).aps = [] ∧
      (t.sess n).closeSeq = some h.seq)) ∧
  (∀ (port : Nat) (h : HxtFrame) (l : List (Nat × HxtFrame)) (m : InMsg) (s : State),
    let n := sessNum port h
    s.ses.inq = (port, h) :: l → s.msgFor (port, h) = some m → isTyp mKILL (port, h) = true → m.typ = mKILL →
    (s.sess n).clearTo h.seq = true → (s.sess n).st = .opened → m.len = 4 → leAt m.head 0 4 = 0 →
    ∃ t, exec .hxtKill s = .next t ∧ t.sess n = {}) ∧
  (∀ (n : CtxId) (m : InMsg) (s : State),
    (s.sess n.val).inMsgs.find? (fun m => m.begun && isOrdered m.typ && (s.sess n.val).clearTo m.seq) = some m →
    (m.typ = mFENCE ∨ m.typ = mSTAT → ∃ t, exec (.orderedMessageStart n) s = .next t ∧
      (t.sess n.val).inMsgs = (s.sess n.val).inMsgs.filter (fun y => y.seq ≠ m.seq) ∧
      (t.sess n.val).outSeq = (s.sess n.val).outSeq + 1 ∧ t.mem = s.mem) ∧
    (m.typ = mCLOSE → m.len = 0 → ∃ t, exec (.orderedMessageStart n) s = .next t ∧ (t.sess n.val).aps = []) ∧
    (m.typ = mKILL → m.len = 4 → leAt m.head 0 4 = 0 → (s.sess n.val).st ≠ .free →
      ∃ t, exec (.orderedMessageStart n) s = .next t ∧ t.sess n.val = {}) ∧
    (m.typ = mSUBMIT → ∃ t, exec (.orderedMessageStart n) s = .next t ∧ t = s.submitMsg n.val m))

/-- SUBMIT (R463). Of one entry: RING writes the write index, takes the core, and with GO starts a HALTED sequencer without
FAULT; REG makes its register access; SIGNAL fills the slot, or releases it for class SESSION; APERTURE is set or cleared;
BINDKEY binds the region's slot to the session with a key drawn anew; each answers OK. Up to 64 entries act one after
another, and the answer carries the status and index of the one that ends them. A SUBMIT message runs in one command by the
model's choice (log 114). -/
def Obligations.Submits : Prop :=
  ∀ (port : Nat) (h : HxtFrame) (l : List (Nat × HxtFrame)) (m : InMsg) (k cnt : Nat) (s : State),
    let n := sessNum port h
    let u := State.modMsg { s with ses := { s.ses with inq := l } } n h.seq (fun y => { y with begun := true })
    let es := chunksOf (entryBytes k) cnt (m.head.drop 4)
    let e := es.headD []
    let w := leAt e 0 4
    let cc := bits w 0 8
    s.ses.inq = (port, h) :: l → n < 65536 → s.msgFor (port, h) = some m → isSubmit k (port, h) = true → m.typ = mSUBMIT →
    (s.sess n).clearTo h.seq = true → leAt m.head 0 1 = k → leAt m.head 1 1 + 1 = cnt → cnt ≤ 64 → leAt m.head 2 2 = 0 →
    m.len = 4 + cnt * entryBytes k →
    (let done := (u.entries n k 0 es).2.endMsg n m ((u.entries n k 0 es).1 % 256) ((u.entries n k 0 es).1 / 256)
     (k = 0 → exec .submitRing s = .next done) ∧ (k = 1 → exec .submitReg s = .next done) ∧
     (k = 2 → exec .submitSignal s = .next done) ∧ (k = 3 → exec .submitAperture s = .next done) ∧
     (k = 4 → exec .submitBindkey s = .next done)) ∧
    (k = 0 → es = [e] → bits w 17 15 = 0 → s.partOf cc = some (s.sess n).part → s.coreOpen cc = true → (s.core cc).cst ≠ .disabled →
      s.ringOff cc + 4100 ≤ 0x80000 → w.testBit 16 = false ∨ s.evt.dfault = false →
      ∃ v : State, exec .submitRing s = .next (v.endMsg n m stOK 0) ∧ (v.core cc).owner = some n ∧ (v.core cc).seq.wr = bits w 8 8 ∧
        (v.core cc).seq.halted = ((s.core cc).seq.halted && !(w.testBit 16 && !(s.core cc).seq.fault)) ∧ onlyCore cc s v) ∧
    (∀ v, k = 1 → es = [e] → leAt e 0 8 < 2 ^ 48 → (s.sess n).rights.testBit 0 = true →
      u.regWrite (reqFor n) (leAt e 0 8) 4 (BitVec.ofNat 32 (leAt e 8 4)) = (true, v) →
      exec .submitReg s = .next (v.endMsg n m stOK 0)) ∧
    (k = 2 → es = [e] → bits w 15 17 = 0 → s.coreOpen cc = true → s.declared cc (bits w 8 6) = true →
      s.admitted (reqFor n) cc (s.slotOff cc (bits w 8 6)) 32 .sig = true →
      ∃ v : State, exec .submitSignal s = .next (v.endMsg n m stOK 0) ∧
        v.slot cc (bits w 8 6) =
          (if w.testBit 14 then s.slotRelease cc (bits w 8 6) cSession else s.slotFull cc (bits w 8 6)).slot cc (bits w 8 6) ∧
        onlyCore cc s v ∧ v.mem = s.mem) ∧
    (k = 3 → es = [e] → bits w 6 26 = 0 → leAt e 4 4 = 0 →
      (∀ r, w.testBit 5 = false → leAt e 8 8 % 4096 = 0 → leAt e 16 8 % 4096 = 0 → leAt e 16 8 ≠ 0 →
        s.regionAt (leAt e 8 8) = some r → r.hub = false → r.part = (s.sess n).part →
        leAt e 8 8 + leAt e 16 8 ≤ r.base + r.size → s.scrubbing (s.sess n).part = false → s.aperturesUsed < 8192 →
        ∃ v : State, exec .submitAperture s = .next (v.endMsg n m stOK 0) ∧ Sparse.get none (v.sess n).aps (bits w 0 3) =
          some { rd := w.testBit 3, wr := w.testBit 4, base := leAt e 8 8, size := leAt e 16 8 } ∧ v.mem = s.mem) ∧
      (w.testBit 5 = true →
        ∃ v : State, exec .submitAperture s = .next (v.endMsg n m stOK 0) ∧ Sparse.get none (v.sess n).aps (bits w 0 3) = none ∧
          v.mem = s.mem)) ∧
    (k = 4 → es = [e] → bits w 10 22 = 0 → (s.sess n).rights.testBit 3 = true →
      s.cfg.regions.any (fun r => !r.hub && r.ksrc = 1 && r.kslot = bits w 0 10 && r.part = (s.sess n).part) = true →
      s.scrubbing (s.sess n).part = false → (s.kslot (bits w 0 10)).st ≠ .session → s.vendorOpen = false →
      ∃ v : State, exec .submitBindkey s = .next (v.endMsg n m stOK 0) ∧
        v.kslot (bits w 0 10) = { st := .session, ver := s.clr.vers + 1, bound := some n } ∧ v.mem = s.mem)

/-- Acknowledgements, retransmission and events (R456, R458, R465): what a frame acknowledges is kept no longer; the timer
sends an acknowledgement; an unacknowledged message goes out again with RTO doubled, and after its sixteenth transmission the
session is LOST; waiting events go out in an EVENT message, at most 32. -/
def Obligations.TransportTimers : Prop :=
  (∀ (port : Nat) (h : HxtFrame) (u s : State),
    let n := sessNum port h
    s.takeFrame (·.2.ackonly) = some ((port, h), u) → (s.sess n).st = .opened → (s.sess n).queued = [] →
    ∃ t, exec .hxtAckonly s = .next t ∧ (t.sess n).outMsgs = (s.sess n).outMsgs.filter (fun m => !acks h m.seq) ∧
      (t.sess n).st = .opened ∧ onlySess n s t ∧ only [.ses] s t) ∧
  (∀ (n : CtxId) (s : State), (s.sess n.val).st = .opened → (s.sess n.val).unackedIn ≠ 0 →
    ∃ t, exec (.ackTimer n) s = .next t ∧ (t.sess n.val).unackedIn = 0 ∧
      (t.sess n.val).ackCtr = ((s.sess n.val).ackCtr + 1) % 2 ^ 32 ∧ (t.sess n.val).outSeq = (s.sess n.val).outSeq ∧
      onlySess n.val s t ∧ only [.ses, .eth, .outbox, .free] s t) ∧
  (∀ (n : CtxId) (q : Nat) (m : OutMsg) (s : State), (s.sess n.val).outMsgs.find? (·.seq = q) = some m →
    (s.sess n.val).st = .opened →
    (15 ≤ m.tx → ∃ t, exec (.hxtRtoExpiry n q) s = .next t ∧ t.sess n.val = { s.sess n.val with st := .lost } ∧
      onlySess n.val s t ∧ only [.ses] s t) ∧
    (m.tx < 15 → m.src = none →
      ∃ t, exec (.hxtRtoExpiry n q) s = .next t ∧ (t.sess n.val).rto = min 10000000 (2 * (s.sess n.val).rto) ∧
        (t.sess n.val).st = .opened ∧ (t.sess n.val).outMsgs.find? (·.seq = q) = some { m with tx := m.tx + 1 } ∧
        onlySess n.val s t ∧ only [.ses, .eth, .outbox] s t)) ∧
  (∀ (n : CtxId) (s : State), (s.sess n.val).st = .opened → (s.sess n.val).events ≠ [] → (s.sess n.val).queued = [] →
    (s.sess n.val).maySend (s.sess n.val).outSeq = true → (s.sess n.val).outSeq + 1 ≠ 0xFFFF0000 →
    ∃ t, exec (.eventMessageSend n) s = .next t ∧ (t.sess n.val).events = (s.sess n.val).events.drop 32 ∧
      (t.sess n.val).discarded = 0 ∧ (t.sess n.val).outSeq = (s.sess n.val).outSeq + 1 ∧ onlySess n.val s t ∧
      only [.ses, .eth, .outbox] s t)

/-- Tenants and session kills (R466, R480, R499): WRITE installs the staged record, CLEAR empties one, and SES_KILL frees a
session's context. -/
def Obligations.TenantsAndKills : Prop :=
  (∀ (r : Req) (i : Fin 4096) (s : State), s.mayReg r { n := .sesTnctl, c := 0, i := 0, j := 0, hi := false } true = true →
    (∃ t, exec (.tenantWrite r i) s = .next t ∧ Sparse.get 0 t.ses.tenants i.val = s.stagedTenant ∧
      (∀ k, k ≠ i.val → Sparse.get 0 t.ses.tenants k = Sparse.get 0 s.ses.tenants k) ∧ t.ses.ctx = s.ses.ctx ∧ only [.ses] s t) ∧
    (∃ t, exec (.tenantClear r i) s = .next t ∧ Sparse.get 0 t.ses.tenants i.val = 0 ∧
      (∀ k, k ≠ i.val → Sparse.get 0 t.ses.tenants k = Sparse.get 0 s.ses.tenants k) ∧
      (s.sessionsBy i.val = [] → only [.ses] s t))) ∧
  (∀ (r : Req) (n : SessId) (s : State), s.mayReg r { n := .sesKill, c := 0, i := 0, j := 0, hi := false } true = true →
    (s.sess n.val).st ≠ .free →
    ∃ t, exec (.sesKillGo r n) s = .next t ∧ t.sess n.val = {})

/-! ### Security -/

/-- Fuses, counters and kills (R398, R483, R484, R495, R500, R502, R547): the owner's hash burns once and the device resets
cold; a counter follows the running image's RBVAL upward, and one that no running image uses leaves an access event; a kill
makes its partition SCRUBBING with every scratchpad of it 0, widens a reset under way, waits for a load that is applying the
partition, and does nothing where there is none; a scrub ends, once its slice groups are invalidated, with KILL_DONE or
PART_READY and a spend of 0. -/
def Obligations.FusesAndKills : Prop :=
  (∀ (x : BitVec 512) (s : State),
    (s.sec.boot = .rom → s.sec.lc = 1 →
      ∃ t, exec (.provisionOwner x) s = .next t ∧ t.sec.ownerHash = s.sec.ownerHash ||| x ∧ t.sec.lc = 3 ∧ t.sec.boot = .rom ∧
        t.sec.rbctr = s.sec.rbctr ∧ t.sec.serial = s.sec.serial ∧ t.sec.puf = s.sec.puf ∧ t.regs = [] ∧ t.cores = []) ∧
    (s.sec.boot ≠ .rom ∨ s.sec.lc ≠ 1 → exec (.provisionOwner x) s = .next s)) ∧
  (∀ s : State, ∃ t, exec .decommission s = .next t ∧ t.sec = { s.sec with lc := s.sec.lc ||| 4 } ∧ only [.sec] s t) ∧
  (∀ (r : Req) (i : Fin 64) (s : State), s.mayReg r { n := .secRbadv, c := 0, i := 0, j := 0, hi := false } true = true →
    (∀ v, s.runningRb i.val = some v →
      ∃ t, exec (.rollbackAdvance r i) s = .next t ∧ Sparse.get 0 t.sec.rbctr i.val = max (Sparse.get 0 s.sec.rbctr i.val) v ∧
        (∀ j, j ≠ i.val → Sparse.get 0 t.sec.rbctr j = Sparse.get 0 s.sec.rbctr j) ∧ only [.sec] s t) ∧
    (s.runningRb i.val = none → exec (.rollbackAdvance r i) s = .next (s.access r (regAddr .secRbadv 0 0 0)))) ∧
  (∀ (r : Req) (p : PartId) (s : State), s.mayReg r { n := .secKill, c := 0, i := 0, j := 0, hi := false } true = true →
    (s.scrubbing p.val = false → s.applying p.val = false → (s.partRec p.val).isSome = true →
      ∃ t, exec (.partitionKill r p) s = .next t ∧ (∃ x ∈ t.sec.scrubs, x.part = p.val ∧ x.kill = true) ∧
        (∀ c ∈ s.coresOf p.val, ∀ o, o < 0x80000 → t.byte (spadBase c + o) = 0) ∧ t.cfg = s.cfg) ∧
    (s.scrubbing p.val = true →
      ∃ t, exec (.partitionKill r p) s = .next t ∧ (∃ x ∈ t.sec.scrubs, x.part = p.val ∧ x.kill = true) ∧ t.cfg = s.cfg) ∧
    (s.scrubbing p.val = false → s.applying p.val = true →
      exec (.partitionKill r p) s = .next { s with trl := { s.trl with deferred := s.trl.deferred ++ [(p.val, 0, true)] } }) ∧
    (s.scrubbing p.val = false → s.trlBusy = false → s.partRec p.val = none → exec (.partitionKill r p) s = .next s)) ∧
  (∀ (p : PartId) (x : Scrub) (s : State), s.sec.scrubs.find? (·.part = p.val) = some x →
    (x.invz = [] → s.trl.st ≠ .scrub → s.evt.warm = none →
      ∃ t, exec (.killScrubDone p) s = .next t ∧ t.sec.scrubs = s.sec.scrubs.filter (·.part ≠ p.val) ∧ t.partSpend p.val = 0 ∧
        logged { code := if x.kill then 0x0A01 else 0x0007, cls := 0, part := some p.val } s t) ∧
    (x.invz ≠ [] → exec (.killScrubDone p) s = .next s))

/-- Debug and attestation (R494, R496 to R498): a token's check consumes the challenge and ends with its result; only one
accepted opens the owner level, or, at the vendor level, begins a kill of every partition; the vendor level opens once
nothing is SCRUBBING; the owner level closes at its expiry; a report begins with its nonce and ends. The order of a token's
checks is a reading of the spec (log 85). -/
def Obligations.DebugAndAttestation : Prop :=
  (∀ (r : Req) (s : State), s.mayReg r { n := .secDbgctl, c := 0, i := 0, j := 0, hi := false } true = true → s.sec.tokBusy = false →
    ∃ t, exec (.debugUnlock r) s = .next t ∧ t.sec.tokBusy = true ∧ t.sec.tokRes = 0 ∧ t.sec.tokChal = s.sec.chal ∧
      t.sec.dbg = s.sec.dbg) ∧
  (∀ s : State, s.sec.tokBusy = true →
    (s.tokenResult ≠ 1 →
      ∃ t, exec .debugTokenCheckDone s = .next t ∧ t.sec = { s.sec with tokBusy := false, tokRes := s.tokenResult } ∧
        only [.sec] s t) ∧
    (s.tokenResult = 1 → leAt s.sec.tok 4 1 = 1 →
      ∃ t, exec .debugTokenCheckDone s = .next t ∧ t.sec.tokBusy = false ∧ t.sec.tokRes = 1 ∧
        t.sec.dbg = s.sec.dbg / 2 * 2 + 1 ∧ t.sec.expiry = leAt s.sec.tok 24 8 ∧ only [.sec] s t) ∧
    (s.tokenResult = 1 → leAt s.sec.tok 4 1 = 2 → s.trlBusy = false →
      ∃ t, exec .debugTokenCheckDone s = .next t ∧ t.sec.tokBusy = false ∧ t.sec.tokRes = 1 ∧ t.sec.vendorDue = true ∧
        (∀ p ∈ s.parts, ∃ x ∈ t.sec.scrubs, x.part = p ∧ x.kill = true) ∧ t.cfg = s.cfg)) ∧
  (∀ s : State, s.sec.vendorDue = true → s.sec.scrubs = [] → s.trl.deferred.any (·.2.2) = false →
    ∃ t, exec .vendorUnlockEffect s = .next t ∧ t.sec.dbg = s.sec.dbg % 2 + 2 ∧ t.sec.vendorDue = false ∧ only [.sec] s t) ∧
  (∀ s : State, s.sec.dbg.testBit 0 = true → s.sec.expiry * 10 ^ 9 ≤ s.prc.time →
    ∃ t, exec .debugExpiry s = .next t ∧ t.sec.dbg = s.sec.dbg / 2 * 2 ∧ t.sec.dbgSession = none ∧ t.sec.dbgJtag = false ∧
      only [.sec] s t) ∧
  (∀ (r : Req) (s : State), s.mayReg r { n := .secAttctl, c := 0, i := 0, j := 0, hi := false } true = true → s.sec.attBusy = false →
    ∃ t, exec (.attestationReport r) s = .next t ∧ t.sec.attBusy = true ∧
      t.sec.nonce = (s.hubRead r (s.rg64 .secAttaddr % 2 ^ 48) 64).1) ∧
  (∀ s : State, s.sec.attBusy = true →
    ∃ t, exec .attestationDone s = .next t ∧ t.sec.attBusy = false)

/-- The boot chain and the resets of the device (R487 to R490, R552, R566 to R568): a cold reset keeps the fuses and the
DRAM's cells and nothing else, and reads the modules; PORST_N low and a lost standby supply hold it; a firmware copy that
verifies, A before B, starts its stage, two that do not stop the boot with the stage's code; rails rise in order, and one
that does not come up stops the boot. That a copy that is refused is measured, and what a warm reset of a stopped boot reads
again, are readings of the spec (log 88). -/
def Obligations.BootAndColdReset : Prop :=
  (∀ s : State,
    let cold (t : State) : Prop := t.sec.ownerHash = s.sec.ownerHash ∧ t.sec.lc = s.sec.lc ∧ t.sec.dbgdis = s.sec.dbgdis ∧
      t.sec.rbctr = s.sec.rbctr ∧ t.sec.serial = s.sec.serial ∧ t.sec.puf = s.sec.puf ∧ t.sec.vendorHash = s.sec.vendorHash ∧
      t.regs = [] ∧ t.cores = [] ∧ t.sdt = {} ∧ t.ses = {} ∧ t.evt = {} ∧ t.cfg = {} ∧ t.retained = {} ∧
      t.trl = {} ∧ t.eth = [] ∧ t.mtr = {} ∧ (∀ a, t.byte a = if a < 2 ^ 40 then s.byte a else 0) ∧ t.pending = s.pending
    (∀ mods, ∃ t, exec (.coldReset mods) s = .next t ∧ cold t ∧ t.clr.mods = mods ∧ t.sec.boot = .rom ∧ t.prc.porst = false ∧
      t.prc.standby = true) ∧
    (∃ t, exec .porstNAssert s = .next t ∧ cold t ∧ t.sec.boot = .held ∧ t.prc.porst = true ∧ t.prc.rails = s.prc.rails) ∧
    (∃ t, exec .standbyPowerLoss s = .next t ∧ cold t ∧ t.sec.boot = .held ∧ t.prc.standby = false ∧ t.prc.rails = [] ∧
      t.prc.thermtrip = false)) ∧
  (∀ (a b : List Byte) (puf : Bool) (s : State),
    let img := if s.fwOk 1 0 a then a else b
    s.sec.boot = .rom → s.sec.owned = true →
    (s.fwOk 1 0 a = true ∨ s.fwOk 1 0 b = true → puf = true →
      ∃ t, exec (.porchFirmwareLoaded a b puf) s = .next t ∧ t.sec.boot = .rails ∧ t.sec.porchRb = some (leAt img 8 4) ∧
        t.sec.bootCode = (if s.fwOk 1 0 a then 0 else 5) ∧ t.sec.idkey = true ∧ t.prc.raising = some 4) ∧
    (s.fwOk 1 0 a = true ∨ s.fwOk 1 0 b = true → puf = false →
      ∃ t, exec (.porchFirmwareLoaded a b puf) s = .next t ∧ t.sec.boot = .stopped ∧ t.sec.bootCode = 4 ∧ only [.sec] s t) ∧
    (s.fwOk 1 0 a = false → s.fwOk 1 0 b = false →
      ∃ t, exec (.porchFirmwareLoaded a b puf) s = .next t ∧ t.sec.boot = .stopped ∧ t.sec.bootCode = 1 ∧ only [.sec] s t)) ∧
  (∀ (a b : List Byte) (s : State),
    let img := if s.fwOk 2 1 a then a else b
    s.awaitsHub = true →
    (s.fwOk 2 1 a = true ∨ s.fwOk 2 1 b = true →
      ∃ t, exec (.hubFirmwareLoaded a b) s = .next t ∧ t.sec.hubRb = some (leAt img 8 4) ∧
        t.sec.hubHash = digestOf (fwSigned img) ∧
        (s.sec.boot = .hubfw → t.sec.boot = .image ∧ t.trl.boot = true ∧
          t.sec.bootCode = (if s.fwOk 2 1 a then s.sec.bootCode else 5)) ∧
        (s.sec.boot ≠ .hubfw → s.evt.warm.isSome = true → t.evt.warm = none ∧ t.sec.boot = .ran) ∧
        (s.sec.boot ≠ .hubfw → s.evt.warm = none → t.clr.sref = false)) ∧
    (s.fwOk 2 1 a = false → s.fwOk 2 1 b = false →
      ∃ t, exec (.hubFirmwareLoaded a b) s = .next t ∧ t.sec.boot = .stopped ∧ t.sec.bootCode = 2 ∧ only [.sec] s t)) ∧
  (∀ s : State, s.sec.boot = .zero →
    ∃ t, exec .sramZeroFillDone s = .next t ∧ t.sec = { s.sec with boot := .hubfw } ∧ only [.sec] s t) ∧
  (∀ (k : Fin 10) (s : State), s.prc.raising = some k.val →
    (k.val ≠ 3 → k.val ≠ 9 →
      ∃ t, exec (.railInTolerance k) s = .next t ∧ k.val ∈ t.prc.rails ∧ t.prc.raising = some (k.val + 1) ∧
        t.outbox = s.outbox ++ [.pmbus (k.val + 1) true (railMv (k.val + 1))] ∧ only [.prc, .outbox] s t) ∧
    (k.val = 3 →
      ∃ t, exec (.railInTolerance k) s = .next t ∧ 3 ∈ t.prc.rails ∧ t.prc.raising = none ∧ t.sec.boot = .zero ∧
        only [.prc, .sec] s t) ∧
    (∃ t, exec (.railSequenceTimeout k) s = .next t ∧ t.sec.boot = .stopped ∧ t.prc.raising = none ∧ k.val ∉ t.prc.rails ∧
      t.evt.dfault = true))

/-! ### Power, Porch and Meter -/

/-- Quadrants and rails (R506 to R510, R563, R564): gating and ungating; QOFF of an idle quadrant loses its cores' memories
and turns its rail off, QON commands it on, and it is ON with its rail; both bits in one write drop it; a setpoint moves at
most 10 mV; an alert of a rail held on is a RAIL_FAULT. What QOFF does to a POWERING or OFF quadrant is a reading of the spec
(log 93). -/
def Obligations.QuadrantsAndRails : Prop :=
  (∀ (q : QuadId) (s : State), s.quad q.val = .on → s.rf .prcPwrcfg 0 0 0 10 ≠ 0 → s.quadIdle q.val = true → s.prc.d3 = .none →
    ∃ t, exec (.quadGate q) s = .next t ∧ t.quad q.val = .gated ∧ (∀ k, k ≠ q.val → t.quad k = s.quad k) ∧ only [.prc] s t) ∧
  (∀ (q : QuadId) (s : State), s.quad q.val = .gated →
    ∃ t, exec (.quadUngate q) s = .next t ∧ t.quad q.val = .on ∧ (∀ k, k ≠ q.val → t.quad k = s.quad k) ∧ only [.prc] s t) ∧
  (∀ (r : Req) (q : QuadId) (s : State), s.mayReg r { n := .prcPctl, c := 0, i := 0, j := 0, hi := false } true = true →
    (s.mayOff q.val = true →
      ∃ t, exec (.qoff r q false) s = .next t ∧ t.quad q.val = .off ∧ q.val ∉ t.prc.rails ∧
        (∀ c ∈ quadCores q.val, ∀ o, o < 0x80000 → t.byte (spadBase c + o) = 0) ∧
        (∀ k, k ≠ q.val → t.quad k = s.quad k)) ∧
    (exec (.qoff r q true) s = .next (s.access r (regAddr .prcPctl 0 0 0))) ∧
    (s.quad q.val = .off → s.prc.d3 = .none → s.prc.tripped = false →
      ∃ t, exec (.qon r q false) s = .next t ∧ t.quad q.val = .powering ∧
        t.outbox = s.outbox ++ [.pmbus q.val true (Config.avsCode q.val)] ∧ only [.prc, .outbox] s t) ∧
    (exec (.qon r q true) s = .next (s.access r (regAddr .prcPctl 0 0 0)))) ∧
  (∀ (q : QuadId) (s : State), s.quad q.val = .powering → s.prc.rails.contains q.val = true →
    ∃ t, exec (.quadPowerOnDone q) s = .next t ∧ t.quad q.val = .on ∧ (∀ k, k ≠ q.val → t.quad k = s.quad k) ∧
      logged { code := 0x0B02, cls := 0, detail := q.val } s t) ∧
  (∀ (q : QuadId) (mv : Nat) (s : State),
    let tout := max 550 (min 800 mv) / 5 * 5
    s.prc.rails.contains q.val = true → s.prc.avsAt.find? (·.1 = q.val) = none →
    (s.setpoint q.val < tout →
      ∃ t, exec (.avsUpdate q mv) s = .next t ∧ t.setpoint q.val = min tout (s.setpoint q.val + 10) ∧ only [.prc, .outbox] s t) ∧
    (tout < s.setpoint q.val →
      ∃ t, exec (.avsUpdate q mv) s = .next t ∧ t.setpoint q.val = max tout (s.setpoint q.val - 10) ∧ only [.prc, .outbox] s t)) ∧
  (∀ (pclk : Nat) (k : Fin 10) (s : State), 4 ≤ pclk → s.prc.rails.contains k.val = true →
    ∃ t, exec (.pmbusAlert pclk [k]) s = .next t ∧ t.evt.dfault = true)

/-- D3 (R511, R512): an admitted request begins entry with the valid slice groups to write back; entry ends in D3 with the
Cellar in self-refresh and the Seed Tray's state lost; an enabled source wakes it by raising the first rail, and the wake
ends in D2. What D3 loses of the Meter is a reading of the spec (log 92). -/
def Obligations.SleepAndWake : Prop :=
  (∀ (r : Req) (s : State), s.mayReg r { n := .prcPctl, c := 0, i := 0, j := 0, hi := false } true = true → s.mayD3 = true →
    ∃ t, exec (.d3Request r) s = .next t ∧ t.prc.d3 = .entering ∧ t.prc.wakeSeen = 0 ∧
      t.prc.d3ops = (upTo 64).filter (fun g => (s.rg .pntGrp 0 g).toNat.testBit 9) ∧ only [.prc] s t) ∧
  (∀ s : State, s.prc.d3 = .entering → s.prc.d3ops = [] → s.prc.wakeSeen = 0 →
    ∃ t, exec .d3EntryDone s = .next t ∧ t.prc.d3 = .asleep ∧ t.clr.sref = true ∧ t.sdt = {} ∧ t.cfg = s.cfg ∧
      t.retained = s.retained) ∧
  (∀ (f : HxtFrame) (pclk : Nat) (s : State), s.prc.d3 = .asleep → s.prc.tripped = false →
    let woken (code : Nat) (t : State) : Prop := t.prc.d3 = .waking ∧ t.prc.last = code ∧ t.prc.raising = some 4 ∧
      t.outbox = s.outbox ++ [.pmbus 4 true 750] ∧ only [.prc, .outbox] s t
    ((s.rg .prcWakecfg).toNat.testBit 0 = true → badHeader f = false →
      ∃ t, exec (.wakeMgmtFrame f) s = .next t ∧ woken 1 t) ∧
    ((s.rg .prcWakecfg).toNat.testBit 1 = true → 4 ≤ pclk → ∃ t, exec (.wakePin pclk) s = .next t ∧ woken 2 t) ∧
    ((s.rg .prcWakecfg).toNat.testBit 2 = true → s.rg64 .prcWaket ≤ s.prc.time →
      ∃ t, exec .wakeTimer s = .next t ∧ woken 3 t)) ∧
  (∀ s : State, s.prc.d3 = .waking → s.clr.sref = false →
    ∃ t, exec .d3WakeDone s = .next t ∧ t.prc.d3 = .none ∧ t.prc.last = s.prc.last)

/-- The Porch's inputs (R513, R515 to R520): a sample filters every reading; a diode at 110 degrees in two samples trips the
device; a tick moves each die's thermal step; PROCHOT_N, syncs and their loss; the I3C target reads a register, NACKs writes
and takes an address. The I3C target's answers outside its registers are the model's choice (log 34). -/
def Obligations.PorchInputs : Prop :=
  (∀ (x : Readings) (s : State), x.temp.length = 64 → x.cur.length = 16 → x.volt.length = 24 → s.prc.porst = false →
    s.prc.tripped = false →
    ((∀ v ∈ x.temp, v < 880) →
      ∃ t, exec (.sensorSample x) s = .next t ∧ t.prc.periods = s.prc.periods + 1 ∧ t.prc.tripped = false ∧
        (∀ n, n < 64 → Sparse.get 0 t.prc.temp n =
          filterStep (Sparse.get 0 s.prc.temp n) (max (-320) (min 1200 (x.temp.getD n 0))) (s.filtK 0))) ∧
    (∀ n, n < 64 → 880 ≤ x.temp.getD n 0 → n ∈ s.prc.hotT →
      ∃ t, exec (.sensorSample x) s = .next t ∧ t.prc.tripped = true ∧ t.prc.thermtrip = true ∧ t.sec.boot = .stopped)) ∧
  (∀ s : State, s.prc.porst = false → s.prc.tripped = false →
    ∃ t, exec .thermalStepTick s = .next t ∧ (∀ d, d < 5 → Sparse.get 0 t.prc.kt d = s.thermalNext d) ∧
      t.prc.throttling = (upTo 5).any (fun d => s.thermalNext d ≠ 0)) ∧
  (∀ (pclk : Nat) (s : State),
    (4 ≤ pclk → ∃ t, exec (.prochotIn pclk) s = .next t ∧
      t.prc = { s.prc with extProchot := true, exthot := s.prc.exthot || !s.prc.throttling } ∧ only [.prc] s t) ∧
    (pclk < 4 → exec (.prochotIn pclk) s = .next s) ∧
    (∃ t, exec .prochotNRelease s = .next t ∧
      t.prc = { s.prc with extProchot := false, exthot := s.prc.exthot && s.prc.throttling } ∧ only [.prc] s t)) ∧
  (∀ (x : Sync) (s : State), x.port.val = s.rf .ethPtpsel 0 0 0 3 → s.prc.d3 ≠ .asleep → s.prc.porst = false →
    ∃ t, exec (.ptpSync x) s = .next t ∧ t.prc.offset = x.offset ∧ t.prc.rate = syncRate x.rate ∧
      (x.offset < -1000 → t.prc.time = (s.prc.time + x.offset.natAbs) % 2 ^ 64) ∧ (-1000 ≤ x.offset → t.prc.time = s.prc.time) ∧
      (x.offset.natAbs ≤ 100 → 7 ≤ s.prc.good → t.prc.lock = true ∧ t.prc.hold = false) ∧ only [.prc] s t) ∧
  (∀ s : State, ∃ t, exec .ptpSyncLoss s = .next t ∧
    t.prc = { s.prc with lock := false, hold := s.prc.hold || s.prc.lock, good := 0 } ∧ only [.prc] s t) ∧
  (∀ (off : BitVec 16) (bs : List Byte) (v : W32) (u s : State), s.i3cUp = true →
    (off.toNat % 4 = 0 → off.toNat < 0x2A0 → s.regRead .porch (Blk.prc.base + off.toNat) 4 = (some v, u) →
      exec (.i3cRead off 4) s = .next (u.send (.i3c (toLe 4 v.toNat)))) ∧
    (∃ t, exec (.i3cWrite off bs) s = .next t ∧ t.outbox = s.outbox ++ [.i3cNack] ∧ only [.outbox] s t)) ∧
  (∀ (st dyn : BitVec 7) (s : State), s.prc.standby = true → s.prc.porst = false →
    ∃ t, exec (.i3cAddressAssign false st dyn) s = .next t ∧ t.prc = { s.prc with i3c := some dyn.toNat } ∧ only [.prc] s t)

/-- The Meter (R521, R523 to R526, R534): a charge takes every core's activity; CALSCALE is the measured over the charged
energy within its bounds; at a window's boundary the spend falls by the budget; a session's budget write restarts its window.
-/
def Obligations.MeterCommands : Prop :=
  (∀ s : State, s.hubOn = true →
    ∃ t, exec .meterCharge s = .next t ∧ (∀ c, c < 256 → (t.core c).act = []) ∧ t.mtr.partAct = [] ∧ t.mtr.sessAct = [] ∧
      t.mtr.calscale = s.mtr.calscale ∧ only [.cores, .mtr, .ses] s t) ∧
  (∀ (a b : Nat) (s : State), s.hubOn = true → s.mtr.qSec ≠ 0 →
    ∃ t, exec (.calscaleUpdate a b) s = .next t ∧ t.mtr.calscale = max 0x8000 (min 0x20000 (a * 65536 / s.mtr.qSec)) ∧
      t.mtr.qSec = 0 ∧ t.mtr.allSec = 0 ∧ t.mtr.dev = s.mtr.dev + (b - s.mtr.allSec) ∧ only [.mtr] s t) ∧
  (∀ (p : Nat) (s : State), (s.partRec p).isSome = true → s.partBudget p ≠ 0 → s.heldWork (fun c => s.partOf c = some p) = [] →
    ∃ t, exec (.budgetWindowBoundary false p) s = .next t ∧ t.partSpend p = s.partSpend p - s.partBudget p ∧
      (∀ q, q ≠ p → t.partSpend q = s.partSpend q) ∧ only [.mtr] s t) ∧
  (∀ (n : Nat) (s : State), n < 65536 → (s.sess n).st ≠ .free → (s.sess n).budget ≠ 0 →
    s.heldWork (fun c => (s.core c).owner = some n) = [] →
    ∃ t, exec (.budgetWindowBoundary true n) s = .next t ∧
      t.sess n = { s.sess n with spend := (s.sess n).spend - (s.sess n).budget } ∧ onlySess n s t ∧ only [.ses] s t) ∧
  (∀ (r : Req) (v : W32) (s : State),
    let n := s.rf .mtrSsel 0 0 0 16
    s.mayReg r { n := .mtrSwin, c := 0, i := 0, j := 0, hi := false } true = true →
    reservedIn RegName.mtrSwin.row.fs v.toNat = false → (s.sess n).st ≠ .free → s.heldWork (fun c => (s.core c).owner = some n) = [] →
    ∃ t, exec (.sessionBudgetWrite r false v) s = .next t ∧
      t.sess n = { s.sess n with swin := v &&& 0x7FFF, t0 := s.prc.time, spend := 0 } ∧ onlySess n s t ∧ only [.ses] s t)

/-! ### Reliability and reset -/

/-- Resets and the log's reader (R487, R541, R545 to R547, R561): EVT_RDIDX leaves the records after it unread; a warm-reset
trigger begins a warm reset with its cause, restarts a stopped boot at its stage, and with PRESET in the same write is
dropped; a partition reset makes its partition SCRUBBING, adds nothing to a scrub, and waits for a load that is applying the
partition. A read index beyond the records is a reading of the spec (log 97). -/
def Obligations.ResetsAndLog : Prop :=
  (∀ (r : Req) (v : W32) (s : State), s.mayReg r { n := .evtRdidx, c := 0, i := 0, j := 0, hi := false } true = true →
    ∃ t, exec (.evtRdidxWrite r v) s = .next t ∧
      t.evt = { s.evt with unread := min ((s.evt.cnt + 8192 - v.toNat % 8192) % 8192) s.evt.cnt } ∧ only [.evt] s t) ∧
  (∀ (r : Req) (pclk : Nat) (s : State),
    s.evt.warm = none → s.prc.d3 = .none → s.prc.tripped = false → s.prc.porst = false →
    let stage := if s.sec.bootCode = 1 then .rom else if s.sec.bootCode = 2 ∨ s.sec.bootCode = 3 then .hubfw else .stopped
    (s.sec.boot ≠ .stopped →
      (s.mayReg r { n := .evtRstctl, c := 0, i := 0, j := 0, hi := false } true = true →
        ∃ t, exec (.warmReset r false) s = .next t ∧ t.evt.warm = some 2 ∧ t.evt.dfault = false ∧ t.trl = {}) ∧
      (4 ≤ pclk → ∃ t, exec (.wrstPin pclk) s = .next t ∧ t.evt.warm = some 1 ∧ t.evt.dfault = false) ∧
      (∃ t, exec .hubWatchdog s = .next t ∧ t.evt.warm = some 3 ∧ t.evt.dfault = false)) ∧
    (s.sec.boot = .stopped → 4 ≤ pclk →
      ∃ t, exec (.wrstPin pclk) s = .next t ∧ t.sec.boot = stage ∧ t.evt.warm = none ∧ only [.sec, .evt, .trl] s t)) ∧
  (∀ (r : Req) (s : State), s.mayReg r { n := .evtRstctl, c := 0, i := 0, j := 0, hi := false } true = true →
    exec (.warmReset r true) s = .next (s.access r (regAddr .evtRstctl 0 0 0))) ∧
  (∀ (pclk : Nat) (s : State), pclk < 4 → exec (.wrstPin pclk) s = .next s) ∧
  (∀ (r : Req) (p : PartId) (s : State), s.mayReg r { n := .evtRstctl, c := 0, i := 0, j := 0, hi := false } true = true →
    (s.scrubbing p.val = false → s.applying p.val = false → (s.partRec p.val).isSome = true →
      ∃ t, exec (.partitionReset r p) s = .next t ∧ (∃ x ∈ t.sec.scrubs, x.part = p.val ∧ x.kill = false) ∧
        (∀ c ∈ s.coresOf p.val, ∀ o, o < 0x80000 → t.byte (spadBase c + o) = 0) ∧ t.cfg = s.cfg) ∧
    (s.scrubbing p.val = true → exec (.partitionReset r p) s = .next s) ∧
    (s.scrubbing p.val = false → s.applying p.val = true →
      exec (.partitionReset r p) s = .next { s with trl := { s.trl with deferred := s.trl.deferred ++ [(p.val, 2, false)] } }))

/-- Core quiesce and FORCE (R548, R549, R556, R561): QUIESCE and FORCE mark an ACTIVE core, the scrub of one that is quiet
zero-fills its scratchpad, and its end leaves it DISABLED, whence ENABLE makes it ACTIVE; GO in EVT_FORCE frees the tiles it
may abort; SUSPECT clears. -/
def Obligations.CoreQuiesce : Prop :=
  (∀ (r : Req) (c : CoreId) (s : State), s.mayReg r { n := .evtCqctl, c := 0, i := 0, j := 0, hi := false } true = true →
    ((s.core c.val).cst = .active →
      ∃ t, exec (.coreQuiesce r c false false) s = .next t ∧ (t.core c.val).cst = .quiescing false false) ∧
    (∀ l, (s.core c.val).cst = .quiescing false l →
      ∃ t, exec (.coreQuiesceForce r c) s = .next t ∧ (t.core c.val).cst = .quiescing true l) ∧
    ((s.core c.val).cst = .disabled →
      ∃ t, exec (.coreEnable r c) s = .next t ∧ t.core c.val = { s.core c.val with cst := .active } ∧ onlyCore c.val s t ∧
        only [.cores] s t)) ∧
  (∀ (c : CoreId) (s : State), (s.core c.val).quiescing = true → (s.core c.val).scrub = false → s.quiesced c.val = true →
    ∃ t, exec (.coreQuiesceScrub c) s = .next t ∧ (t.core c.val).scrub = true ∧ (t.core c.val).cst = (s.core c.val).cst ∧
      (∀ o, o < 0x80000 → t.byte (spadBase c.val + o) = 0) ∧
      (∀ a, a < spadBase c.val ∨ spadBase c.val + 0x80000 ≤ a → t.byte a = s.byte a) ∧ onlyCore c.val s t) ∧
  (∀ (c : CoreId) (f : Bool) (s : State), (s.core c.val).scrub = true → (s.core c.val).cst = .quiescing f false →
    ∃ t, exec (.coreScrubDone c) s = .next t ∧ t.core c.val = { s.core c.val with cst := .disabled, scrub := false } ∧
      onlyCore c.val s t ∧ only [.cores] s t) ∧
  (∀ (r : Req) (c : CoreId) (s : State), s.mayReg r { n := .evtForce, c := 0, i := 0, j := 0, hi := false } true = true →
    ∃ t, exec (.tileForce r c) s = .next t ∧
      (∀ h, h < 8 → (s.tile c.val h).forceable = true → (t.tile c.val h).st = .free)) ∧
  (∀ (r : Req) (c : CoreId) (s : State), s.mayReg r { n := .evtCflt, c := 0, i := c.val, j := 0, hi := false } true = true →
    ∃ t, exec (.suspectClear r c) s = .next t ∧ t.rg .evtCflt 0 c.val = 0 ∧ onlyRegs [regAddr .evtCflt 0 c.val 0] s t ∧
      only [.regs] s t)

/-! ### Codes, tile indexes and counters -/

/-- R39: element i of a row occupies stream bits i × w to i × w + w − 1, and stream bit j is bit (j mod 8) of byte (j div 8), in
the rows that are read and in those that are written. -/
def Obligations.PackedRows : Prop :=
  ∀ (f : Nat),
    (∀ (row : List Byte) (i b : Nat), b < fmtBits f →
      (codeAt row f i).testBit b = (row.getD ((i * fmtBits f + b) / 8) 0).getLsbD ((i * fmtBits f + b) % 8)) ∧
    (∀ (row : List Byte) (i : Nat), codeAt row f i < 2 ^ fmtBits f) ∧
    (∀ (cs : List Nat) (i b : Nat), i < cs.length → b < fmtBits f →
      ((packCodes f cs).getD ((i * fmtBits f + b) / 8) 0).getLsbD ((i * fmtBits f + b) % 8) = (cs.getD i 0).testBit b) ∧
    (∀ cs : List Nat, (∀ c ∈ cs, c < 2 ^ fmtBits f) → codesAt (packCodes f cs) f 0 cs.length = cs)

/-- R42: an In element with two's complement value v decodes to s = 1 when v < 0 and M = |v|, the most negative value too, at
m_f = n; R43: a U8Z element q decodes to q − z, and its m_f is 8. -/
def Obligations.IntegerElements : Prop :=
  (∀ (f zp : Nat) (cb : Nat → Nat), intN f ≠ 0 →
    let v (c : Nat) : Int := if c < 2 ^ (intN f - 1) then (c : Int) else (c : Int) - 2 ^ intN f
    fmtBits f = intN f ∧ fmtMf f = intN f ∧
    (∀ c, c < 2 ^ intN f → elemVal f zp cb c = .fin (v c < 0) (v c).natAbs 0 ∧ magAt (intN f) 0 (elemVal f zp cb c) = (v c).natAbs) ∧
    (∀ cs : List Nat, (∀ c ∈ cs, c < 2 ^ intN f) → efmtOf f (intN f) (cs.map (elemVal f zp cb)) = 0)) ∧
  (∀ (q zp : Nat) (cb : Nat → Nat), q < 256 → zp < 256 →
    elemVal 0x09 zp cb q = .fin (q < zp) ((q : Int) - zp).natAbs 0 ∧ fmtMf 0x09 = 8 ∧
    magAt 8 0 (elemVal 0x09 zp cb q) = ((q : Int) - zp).natAbs)

/-- The tile index and the coordinates name the same tiles (R313, R315, R316): every tile of a space has one index below the
space's size, from which its coordinates are read back, and every index below it is some tile's, in each loop order and in
the Hilbert order. -/
def Obligations.TileIndexRoundTrip : Prop :=
  ∀ p : Space, 1 ≤ p.blkm → 1 ≤ p.blkn → orderOk p.lordb = true → orderOk p.lordt = true →
    (∀ b tm tn tk, b < p.tb → tm < p.tm → tn < p.tn → tk < p.tk →
      p.index b tm tn tk < p.size ∧ p.coords (p.index b tm tn tk) = some (b, tm, tn, tk)) ∧
    (∀ i, i < p.size → ∃ b tm tn tk, p.coords i = some (b, tm, tn, tk) ∧ b < p.tb ∧ tm < p.tm ∧ tn < p.tn ∧ tk < p.tk ∧
      p.index b tm tn tk = i)

/-- No step moves a rollback counter down or un-burns a fuse (R483, R495): counters never fall, set bits of OWNERHASH and of
the lifecycle stay set, and DBGDIS stays as it is. -/
def Obligations.FusesNeverClear : Prop :=
  ∀ s t : State, step s = .next t →
    (∀ i, Sparse.get 0 s.sec.rbctr i ≤ Sparse.get 0 t.sec.rbctr i) ∧
    t.sec.ownerHash &&& s.sec.ownerHash = s.sec.ownerHash ∧ t.sec.lc &&& s.sec.lc = s.sec.lc ∧ t.sec.dbgdis = s.sec.dbgdis
end

