-- ==== Sys2Proof/Laws/Sparse.lean ====
section
/-! SUPPORT. Sparse maps: reading after writing, and the canonical form. -/
set_option Elab.async false

namespace Sys2Proof.Machine

variable {α : Type}

@[simp] theorem Sparse.get_nil (d : α) (k : Nat) : Sparse.get d [] k = d := rfl

theorem Sparse.get_ins_self (d : α) (m : Sparse α) (k : Nat) (v : α) : Sparse.get d (Sparse.ins k v m) k = v := by
  induction m with
  | nil => simp [Sparse.ins, Sparse.get]
  | cons x m ih =>
    obtain ⟨a, b⟩ := x
    simp only [Sparse.ins]
    split
    · simp [Sparse.get]
    · split
      · simp [Sparse.get]
      · simp [Sparse.get, *]

theorem Sparse.get_ins_ne (d : α) (m : Sparse α) {k j : Nat} (v : α) (h : j ≠ k) :
    Sparse.get d (Sparse.ins k v m) j = Sparse.get d m j := by
  induction m with
  | nil => simp [Sparse.ins, Sparse.get, h]
  | cons x m ih =>
    obtain ⟨a, b⟩ := x
    simp only [Sparse.ins]
    split
    · simp [Sparse.get, h]
    · split
      · next h2 => subst h2; simp [Sparse.get, h]
      · simp [Sparse.get, ih]

theorem Sparse.get_erase_self (d : α) (m : Sparse α) (k : Nat) : Sparse.get d (Sparse.erase k m) k = d := by
  induction m with
  | nil => rfl
  | cons x m ih =>
    obtain ⟨a, b⟩ := x
    simp only [Sparse.erase]
    split
    · exact ih
    · simp [Sparse.get, *]

theorem Sparse.get_erase_ne (d : α) (m : Sparse α) {k j : Nat} (h : j ≠ k) :
    Sparse.get d (Sparse.erase k m) j = Sparse.get d m j := by
  induction m with
  | nil => rfl
  | cons x m ih =>
    obtain ⟨a, b⟩ := x
    simp only [Sparse.erase]
    split
    · next h2 => subst h2; simp [Sparse.get, h, ih]
    · simp [Sparse.get, ih]

theorem Sparse.erase_eq_filter (k : Nat) (m : Sparse α) : Sparse.erase k m = m.filter (fun x => !decide (k = x.1)) := by
  induction m with
  | nil => rfl
  | cons x m ih =>
    obtain ⟨a, b⟩ := x
    by_cases h : k = a
    · subst h; simp [Sparse.erase, ih]
    · simp [Sparse.erase, h, ih]

variable [DecidableEq α]

/-- What was written is read. -/
@[simp] theorem Sparse.get_put_self (d : α) (m : Sparse α) (k : Nat) (v : α) : Sparse.get d (Sparse.put d m k v) k = v := by
  simp only [Sparse.put]
  split
  · next h => rw [h]; exact Sparse.get_erase_self d m k
  · exact Sparse.get_ins_self d m k v

/-- A write leaves every other key alone, whatever default either side reads with. -/
theorem Sparse.get_put_ne (e d : α) (m : Sparse α) {k j : Nat} (v : α) (h : j ≠ k) :
    Sparse.get e (Sparse.put d m k v) j = Sparse.get e m j := by
  simp only [Sparse.put]
  split
  · exact Sparse.get_erase_ne e m h
  · exact Sparse.get_ins_ne e m v h

/-- Both at once. -/
theorem Sparse.get_put (d : α) (m : Sparse α) (k j : Nat) (v : α) :
    Sparse.get d (Sparse.put d m k v) j = if j = k then v else Sparse.get d m j := by
  split
  · next h => subst h; exact Sparse.get_put_self d m _ v
  · next h => exact Sparse.get_put_ne d d m v h

@[simp] theorem Sparse.get_upd_self (d : α) (m : Sparse α) (k : Nat) (f : α → α) :
    Sparse.get d (Sparse.upd d m k f) k = f (Sparse.get d m k) := Sparse.get_put_self d m k _

theorem Sparse.wfFrom_weaken (d : α) {lo lo' : Option Nat} (m : Sparse α)
    (h : ∀ k v m', m = (k, v) :: m' → (match lo' with | none => true | some l => decide (l < k)) = true)
    (w : Sparse.wfFrom d lo m = true) : Sparse.wfFrom d lo' m = true := by
  cases m with
  | nil => rfl
  | cons x m =>
    obtain ⟨a, b⟩ := x
    simp only [Sparse.wfFrom, Bool.and_eq_true] at w ⊢
    exact ⟨⟨h a b m rfl, w.1.2⟩, w.2⟩

/-- Removing entries keeps the form. -/
theorem Sparse.wfFrom_filter (d : α) (p : Nat × α → Bool) (m : Sparse α) :
    ∀ lo, Sparse.wfFrom d lo m = true → Sparse.wfFrom d lo (m.filter p) = true := by
  induction m with
  | nil => intro lo _; rfl
  | cons x m ih =>
    obtain ⟨a, b⟩ := x
    intro lo w
    simp only [Sparse.wfFrom, Bool.and_eq_true] at w
    have w2 := ih _ w.2
    simp only [List.filter_cons]
    split
    · simp only [Sparse.wfFrom, Bool.and_eq_true]
      exact ⟨w.1, w2⟩
    · refine Sparse.wfFrom_weaken d _ ?_ w2
      intro k v m' e
      cases lo with
      | none => rfl
      | some l =>
        have h1 : l < a := by simpa using w.1.1
        rw [e] at w2
        have h2 : a < k := by
          simp only [Sparse.wfFrom, Bool.and_eq_true, decide_eq_true_eq] at w2
          exact w2.1.1
        simpa using Nat.lt_trans h1 h2

theorem Sparse.wfFrom_ins (d : α) (k : Nat) (v : α) (hv : v ≠ d) (m : Sparse α) :
    ∀ lo : Option Nat, (match lo with | none => true | some l => decide (l < k)) = true → Sparse.wfFrom d lo m = true →
      Sparse.wfFrom d lo (Sparse.ins k v m) = true := by
  induction m with
  | nil =>
    intro lo h _
    simp only [Sparse.ins, Sparse.wfFrom, Bool.and_true, Bool.and_eq_true]
    exact ⟨h, by simpa using hv⟩
  | cons x m ih =>
    obtain ⟨a, b⟩ := x
    intro lo h w
    simp only [Sparse.wfFrom, Bool.and_eq_true] at w
    simp only [Sparse.ins]
    split
    · next h1 =>
      simp only [Sparse.wfFrom, Bool.and_eq_true]
      exact ⟨⟨h, by simpa using hv⟩, ⟨by simpa using h1, w.1.2⟩, w.2⟩
    · split
      · next h2 =>
        subst h2
        simp only [Sparse.wfFrom, Bool.and_eq_true]
        exact ⟨⟨h, by simpa using hv⟩, w.2⟩
      · next h1 h2 =>
        simp only [Sparse.wfFrom, Bool.and_eq_true]
        exact ⟨w.1, ih (some a) (by simp; omega) w.2⟩

/-- A write keeps the canonical form. -/
theorem Sparse.wf_put (d : α) (m : Sparse α) (k : Nat) (v : α) (w : Sparse.wf d m = true) :
    Sparse.wf d (Sparse.put d m k v) = true := by
  simp only [Sparse.put]
  split
  · rw [Sparse.erase_eq_filter]; exact Sparse.wfFrom_filter d _ m none w
  · next h => exact Sparse.wfFrom_ins d k v h m none rfl w

/-- Taking entries out keeps the canonical form. -/
theorem Sparse.wf_filter (d : α) (m : Sparse α) (p : Nat × α → Bool) (w : Sparse.wf d m = true) :
    Sparse.wf d (m.filter p) = true := Sparse.wfFrom_filter d p m none w

theorem Sparse.get_below (d : α) (m : Sparse α) : ∀ (lo : Option Nat) (k : Nat),
    (match lo with | none => False | some l => k ≤ l) → Sparse.wfFrom d lo m = true → Sparse.get d m k = d := by
  induction m with
  | nil => intros; rfl
  | cons x m ih =>
    obtain ⟨a, b⟩ := x
    intro lo k h w
    cases lo with
    | none => exact h.elim
    | some l =>
      simp only [Sparse.wfFrom, Bool.and_eq_true, decide_eq_true_eq] at w
      have : k ≠ a := by have := w.1.1; omega
      simp only [Sparse.get, this, if_false]
      exact ih (some a) k (by have := w.1.1; simp; omega) w.2

theorem Sparse.ext_from (d : α) (m n : Sparse α) : ∀ (l1 l2 : Option Nat), Sparse.wfFrom d l1 m = true →
    Sparse.wfFrom d l2 n = true → (∀ k, Sparse.get d m k = Sparse.get d n k) → m = n := by
  induction m generalizing n with
  | nil =>
    intro l1 l2 _ w2 h
    cases n with
    | nil => rfl
    | cons y n =>
      obtain ⟨a, b⟩ := y
      have := h a
      simp only [Sparse.wfFrom, Bool.and_eq_true, decide_eq_true_eq] at w2
      simp [Sparse.get] at this
      exact absurd this.symm w2.1.2
  | cons x m ih =>
    obtain ⟨a, b⟩ := x
    intro l1 l2 w1 w2 h
    simp only [Sparse.wfFrom, Bool.and_eq_true, decide_eq_true_eq] at w1
    cases n with
    | nil =>
      have := h a
      simp [Sparse.get] at this
      exact absurd this w1.1.2
    | cons y n =>
      obtain ⟨a', b'⟩ := y
      simp only [Sparse.wfFrom, Bool.and_eq_true, decide_eq_true_eq] at w2
      have hab : a = a' := by
        rcases Nat.lt_trichotomy a a' with hl | hl | hl
        · have := h a
          rw [show Sparse.get d ((a', b') :: n) a = d from by
            simp only [Sparse.get, Nat.ne_of_lt hl, if_false]
            exact Sparse.get_below d n (some a') a (by simp; omega) w2.2] at this
          simp [Sparse.get] at this
          exact absurd this w1.1.2
        · exact hl
        · have := h a'
          rw [show Sparse.get d ((a, b) :: m) a' = d from by
            simp only [Sparse.get, Nat.ne_of_lt hl, if_false]
            exact Sparse.get_below d m (some a) a' (by simp; omega) w1.2] at this
          simp [Sparse.get] at this
          exact absurd this.symm w2.1.2
      subst hab
      have hb := h a
      simp [Sparse.get] at hb
      subst hb
      congr 1
      refine ih n (some a) (some a) w1.2 w2.2 (fun k => ?_)
      by_cases hk : k = a
      · subst hk
        rw [Sparse.get_below d m (some k) k (by simp) w1.2, Sparse.get_below d n (some k) k (by simp) w2.2]
      · have := h k
        simpa [Sparse.get, hk] using this

/-- Two maps in canonical form that read alike are equal. -/
theorem Sparse.ext (d : α) (m n : Sparse α) (w1 : Sparse.wf d m = true) (w2 : Sparse.wf d n = true)
    (h : ∀ k, Sparse.get d m k = Sparse.get d n k) : m = n := Sparse.ext_from d m n none none w1 w2 h

end Sys2Proof.Machine
end

