-- ==== Sys2Proof/Laws/State.lean ====
section
/-! SUPPORT. What each update of the state leaves in each field: one lemma per update and field, and what each reads back. -/
set_option Elab.async false

namespace Sys2Proof.Machine

variable (s : State)

@[simp] theorem State.setRg_pending (n : RegName) (c i j : Nat) (v : W32) : (s.setRg n c i j v).pending = s.pending := rfl
@[simp] theorem State.setRg_free (n : RegName) (c i j : Nat) (v : W32) : (s.setRg n c i j v).free = s.free := rfl
@[simp] theorem State.setRg_outbox (n : RegName) (c i j : Nat) (v : W32) : (s.setRg n c i j v).outbox = s.outbox := rfl
@[simp] theorem State.setRg_latchRd (n : RegName) (c i j : Nat) (v : W32) : (s.setRg n c i j v).latchRd = s.latchRd := rfl
@[simp] theorem State.setRg_latchWr (n : RegName) (c i j : Nat) (v : W32) : (s.setRg n c i j v).latchWr = s.latchWr := rfl
@[simp] theorem State.setRg_mem (n : RegName) (c i j : Nat) (v : W32) : (s.setRg n c i j v).mem = s.mem := rfl
@[simp] theorem State.setRg_cores (n : RegName) (c i j : Nat) (v : W32) : (s.setRg n c i j v).cores = s.cores := rfl
@[simp] theorem State.setRg_sdt (n : RegName) (c i j : Nat) (v : W32) : (s.setRg n c i j v).sdt = s.sdt := rfl
@[simp] theorem State.setRg_pnt (n : RegName) (c i j : Nat) (v : W32) : (s.setRg n c i j v).pnt = s.pnt := rfl
@[simp] theorem State.setRg_clr (n : RegName) (c i j : Nat) (v : W32) : (s.setRg n c i j v).clr = s.clr := rfl
@[simp] theorem State.setRg_tch (n : RegName) (c i j : Nat) (v : W32) : (s.setRg n c i j v).tch = s.tch := rfl
@[simp] theorem State.setRg_eth (n : RegName) (c i j : Nat) (v : W32) : (s.setRg n c i j v).eth = s.eth := rfl
@[simp] theorem State.setRg_ses (n : RegName) (c i j : Nat) (v : W32) : (s.setRg n c i j v).ses = s.ses := rfl
@[simp] theorem State.setRg_sec (n : RegName) (c i j : Nat) (v : W32) : (s.setRg n c i j v).sec = s.sec := rfl
@[simp] theorem State.setRg_trl (n : RegName) (c i j : Nat) (v : W32) : (s.setRg n c i j v).trl = s.trl := rfl
@[simp] theorem State.setRg_cfg (n : RegName) (c i j : Nat) (v : W32) : (s.setRg n c i j v).cfg = s.cfg := rfl
@[simp] theorem State.setRg_retained (n : RegName) (c i j : Nat) (v : W32) : (s.setRg n c i j v).retained = s.retained := rfl
@[simp] theorem State.setRg_prc (n : RegName) (c i j : Nat) (v : W32) : (s.setRg n c i j v).prc = s.prc := rfl
@[simp] theorem State.setRg_mtr (n : RegName) (c i j : Nat) (v : W32) : (s.setRg n c i j v).mtr = s.mtr := rfl
@[simp] theorem State.setRg_evt (n : RegName) (c i j : Nat) (v : W32) : (s.setRg n c i j v).evt = s.evt := rfl

@[simp] theorem State.setRgHi_pending (n : RegName) (c i j : Nat) (v : W32) : (s.setRgHi n c i j v).pending = s.pending := rfl
@[simp] theorem State.setRgHi_free (n : RegName) (c i j : Nat) (v : W32) : (s.setRgHi n c i j v).free = s.free := rfl
@[simp] theorem State.setRgHi_outbox (n : RegName) (c i j : Nat) (v : W32) : (s.setRgHi n c i j v).outbox = s.outbox := rfl
@[simp] theorem State.setRgHi_latchRd (n : RegName) (c i j : Nat) (v : W32) : (s.setRgHi n c i j v).latchRd = s.latchRd := rfl
@[simp] theorem State.setRgHi_latchWr (n : RegName) (c i j : Nat) (v : W32) : (s.setRgHi n c i j v).latchWr = s.latchWr := rfl
@[simp] theorem State.setRgHi_mem (n : RegName) (c i j : Nat) (v : W32) : (s.setRgHi n c i j v).mem = s.mem := rfl
@[simp] theorem State.setRgHi_cores (n : RegName) (c i j : Nat) (v : W32) : (s.setRgHi n c i j v).cores = s.cores := rfl
@[simp] theorem State.setRgHi_sdt (n : RegName) (c i j : Nat) (v : W32) : (s.setRgHi n c i j v).sdt = s.sdt := rfl
@[simp] theorem State.setRgHi_pnt (n : RegName) (c i j : Nat) (v : W32) : (s.setRgHi n c i j v).pnt = s.pnt := rfl
@[simp] theorem State.setRgHi_clr (n : RegName) (c i j : Nat) (v : W32) : (s.setRgHi n c i j v).clr = s.clr := rfl
@[simp] theorem State.setRgHi_tch (n : RegName) (c i j : Nat) (v : W32) : (s.setRgHi n c i j v).tch = s.tch := rfl
@[simp] theorem State.setRgHi_eth (n : RegName) (c i j : Nat) (v : W32) : (s.setRgHi n c i j v).eth = s.eth := rfl
@[simp] theorem State.setRgHi_ses (n : RegName) (c i j : Nat) (v : W32) : (s.setRgHi n c i j v).ses = s.ses := rfl
@[simp] theorem State.setRgHi_sec (n : RegName) (c i j : Nat) (v : W32) : (s.setRgHi n c i j v).sec = s.sec := rfl
@[simp] theorem State.setRgHi_trl (n : RegName) (c i j : Nat) (v : W32) : (s.setRgHi n c i j v).trl = s.trl := rfl
@[simp] theorem State.setRgHi_cfg (n : RegName) (c i j : Nat) (v : W32) : (s.setRgHi n c i j v).cfg = s.cfg := rfl
@[simp] theorem State.setRgHi_retained (n : RegName) (c i j : Nat) (v : W32) : (s.setRgHi n c i j v).retained = s.retained := rfl
@[simp] theorem State.setRgHi_prc (n : RegName) (c i j : Nat) (v : W32) : (s.setRgHi n c i j v).prc = s.prc := rfl
@[simp] theorem State.setRgHi_mtr (n : RegName) (c i j : Nat) (v : W32) : (s.setRgHi n c i j v).mtr = s.mtr := rfl
@[simp] theorem State.setRgHi_evt (n : RegName) (c i j : Nat) (v : W32) : (s.setRgHi n c i j v).evt = s.evt := rfl

@[simp] theorem State.setRg64_pending (n : RegName) (c i j v : Nat) : (s.setRg64 n c i j v).pending = s.pending := rfl
@[simp] theorem State.setRg64_free (n : RegName) (c i j v : Nat) : (s.setRg64 n c i j v).free = s.free := rfl
@[simp] theorem State.setRg64_outbox (n : RegName) (c i j v : Nat) : (s.setRg64 n c i j v).outbox = s.outbox := rfl
@[simp] theorem State.setRg64_latchRd (n : RegName) (c i j v : Nat) : (s.setRg64 n c i j v).latchRd = s.latchRd := rfl
@[simp] theorem State.setRg64_latchWr (n : RegName) (c i j v : Nat) : (s.setRg64 n c i j v).latchWr = s.latchWr := rfl
@[simp] theorem State.setRg64_mem (n : RegName) (c i j v : Nat) : (s.setRg64 n c i j v).mem = s.mem := rfl
@[simp] theorem State.setRg64_cores (n : RegName) (c i j v : Nat) : (s.setRg64 n c i j v).cores = s.cores := rfl
@[simp] theorem State.setRg64_sdt (n : RegName) (c i j v : Nat) : (s.setRg64 n c i j v).sdt = s.sdt := rfl
@[simp] theorem State.setRg64_pnt (n : RegName) (c i j v : Nat) : (s.setRg64 n c i j v).pnt = s.pnt := rfl
@[simp] theorem State.setRg64_clr (n : RegName) (c i j v : Nat) : (s.setRg64 n c i j v).clr = s.clr := rfl
@[simp] theorem State.setRg64_tch (n : RegName) (c i j v : Nat) : (s.setRg64 n c i j v).tch = s.tch := rfl
@[simp] theorem State.setRg64_eth (n : RegName) (c i j v : Nat) : (s.setRg64 n c i j v).eth = s.eth := rfl
@[simp] theorem State.setRg64_ses (n : RegName) (c i j v : Nat) : (s.setRg64 n c i j v).ses = s.ses := rfl
@[simp] theorem State.setRg64_sec (n : RegName) (c i j v : Nat) : (s.setRg64 n c i j v).sec = s.sec := rfl
@[simp] theorem State.setRg64_trl (n : RegName) (c i j v : Nat) : (s.setRg64 n c i j v).trl = s.trl := rfl
@[simp] theorem State.setRg64_cfg (n : RegName) (c i j v : Nat) : (s.setRg64 n c i j v).cfg = s.cfg := rfl
@[simp] theorem State.setRg64_retained (n : RegName) (c i j v : Nat) : (s.setRg64 n c i j v).retained = s.retained := rfl
@[simp] theorem State.setRg64_prc (n : RegName) (c i j v : Nat) : (s.setRg64 n c i j v).prc = s.prc := rfl
@[simp] theorem State.setRg64_mtr (n : RegName) (c i j v : Nat) : (s.setRg64 n c i j v).mtr = s.mtr := rfl
@[simp] theorem State.setRg64_evt (n : RegName) (c i j v : Nat) : (s.setRg64 n c i j v).evt = s.evt := rfl

@[simp] theorem State.count_pending (n : RegName) (c i k : Nat) : (s.count n c i k).pending = s.pending := rfl
@[simp] theorem State.count_free (n : RegName) (c i k : Nat) : (s.count n c i k).free = s.free := rfl
@[simp] theorem State.count_outbox (n : RegName) (c i k : Nat) : (s.count n c i k).outbox = s.outbox := rfl
@[simp] theorem State.count_latchRd (n : RegName) (c i k : Nat) : (s.count n c i k).latchRd = s.latchRd := rfl
@[simp] theorem State.count_latchWr (n : RegName) (c i k : Nat) : (s.count n c i k).latchWr = s.latchWr := rfl
@[simp] theorem State.count_mem (n : RegName) (c i k : Nat) : (s.count n c i k).mem = s.mem := rfl
@[simp] theorem State.count_cores (n : RegName) (c i k : Nat) : (s.count n c i k).cores = s.cores := rfl
@[simp] theorem State.count_sdt (n : RegName) (c i k : Nat) : (s.count n c i k).sdt = s.sdt := rfl
@[simp] theorem State.count_pnt (n : RegName) (c i k : Nat) : (s.count n c i k).pnt = s.pnt := rfl
@[simp] theorem State.count_clr (n : RegName) (c i k : Nat) : (s.count n c i k).clr = s.clr := rfl
@[simp] theorem State.count_tch (n : RegName) (c i k : Nat) : (s.count n c i k).tch = s.tch := rfl
@[simp] theorem State.count_eth (n : RegName) (c i k : Nat) : (s.count n c i k).eth = s.eth := rfl
@[simp] theorem State.count_ses (n : RegName) (c i k : Nat) : (s.count n c i k).ses = s.ses := rfl
@[simp] theorem State.count_sec (n : RegName) (c i k : Nat) : (s.count n c i k).sec = s.sec := rfl
@[simp] theorem State.count_trl (n : RegName) (c i k : Nat) : (s.count n c i k).trl = s.trl := rfl
@[simp] theorem State.count_cfg (n : RegName) (c i k : Nat) : (s.count n c i k).cfg = s.cfg := rfl
@[simp] theorem State.count_retained (n : RegName) (c i k : Nat) : (s.count n c i k).retained = s.retained := rfl
@[simp] theorem State.count_prc (n : RegName) (c i k : Nat) : (s.count n c i k).prc = s.prc := rfl
@[simp] theorem State.count_mtr (n : RegName) (c i k : Nat) : (s.count n c i k).mtr = s.mtr := rfl
@[simp] theorem State.count_evt (n : RegName) (c i k : Nat) : (s.count n c i k).evt = s.evt := rfl

@[simp] theorem State.count16_pending (n : RegName) (c i k : Nat) : (s.count16 n c i k).pending = s.pending := rfl
@[simp] theorem State.count16_free (n : RegName) (c i k : Nat) : (s.count16 n c i k).free = s.free := rfl
@[simp] theorem State.count16_outbox (n : RegName) (c i k : Nat) : (s.count16 n c i k).outbox = s.outbox := rfl
@[simp] theorem State.count16_latchRd (n : RegName) (c i k : Nat) : (s.count16 n c i k).latchRd = s.latchRd := rfl
@[simp] theorem State.count16_latchWr (n : RegName) (c i k : Nat) : (s.count16 n c i k).latchWr = s.latchWr := rfl
@[simp] theorem State.count16_mem (n : RegName) (c i k : Nat) : (s.count16 n c i k).mem = s.mem := rfl
@[simp] theorem State.count16_cores (n : RegName) (c i k : Nat) : (s.count16 n c i k).cores = s.cores := rfl
@[simp] theorem State.count16_sdt (n : RegName) (c i k : Nat) : (s.count16 n c i k).sdt = s.sdt := rfl
@[simp] theorem State.count16_pnt (n : RegName) (c i k : Nat) : (s.count16 n c i k).pnt = s.pnt := rfl
@[simp] theorem State.count16_clr (n : RegName) (c i k : Nat) : (s.count16 n c i k).clr = s.clr := rfl
@[simp] theorem State.count16_tch (n : RegName) (c i k : Nat) : (s.count16 n c i k).tch = s.tch := rfl
@[simp] theorem State.count16_eth (n : RegName) (c i k : Nat) : (s.count16 n c i k).eth = s.eth := rfl
@[simp] theorem State.count16_ses (n : RegName) (c i k : Nat) : (s.count16 n c i k).ses = s.ses := rfl
@[simp] theorem State.count16_sec (n : RegName) (c i k : Nat) : (s.count16 n c i k).sec = s.sec := rfl
@[simp] theorem State.count16_trl (n : RegName) (c i k : Nat) : (s.count16 n c i k).trl = s.trl := rfl
@[simp] theorem State.count16_cfg (n : RegName) (c i k : Nat) : (s.count16 n c i k).cfg = s.cfg := rfl
@[simp] theorem State.count16_retained (n : RegName) (c i k : Nat) : (s.count16 n c i k).retained = s.retained := rfl
@[simp] theorem State.count16_prc (n : RegName) (c i k : Nat) : (s.count16 n c i k).prc = s.prc := rfl
@[simp] theorem State.count16_mtr (n : RegName) (c i k : Nat) : (s.count16 n c i k).mtr = s.mtr := rfl
@[simp] theorem State.count16_evt (n : RegName) (c i k : Nat) : (s.count16 n c i k).evt = s.evt := rfl

@[simp] theorem State.count64_pending (n : RegName) (c k : Nat) : (s.count64 n c k).pending = s.pending := rfl
@[simp] theorem State.count64_free (n : RegName) (c k : Nat) : (s.count64 n c k).free = s.free := rfl
@[simp] theorem State.count64_outbox (n : RegName) (c k : Nat) : (s.count64 n c k).outbox = s.outbox := rfl
@[simp] theorem State.count64_latchRd (n : RegName) (c k : Nat) : (s.count64 n c k).latchRd = s.latchRd := rfl
@[simp] theorem State.count64_latchWr (n : RegName) (c k : Nat) : (s.count64 n c k).latchWr = s.latchWr := rfl
@[simp] theorem State.count64_mem (n : RegName) (c k : Nat) : (s.count64 n c k).mem = s.mem := rfl
@[simp] theorem State.count64_cores (n : RegName) (c k : Nat) : (s.count64 n c k).cores = s.cores := rfl
@[simp] theorem State.count64_sdt (n : RegName) (c k : Nat) : (s.count64 n c k).sdt = s.sdt := rfl
@[simp] theorem State.count64_pnt (n : RegName) (c k : Nat) : (s.count64 n c k).pnt = s.pnt := rfl
@[simp] theorem State.count64_clr (n : RegName) (c k : Nat) : (s.count64 n c k).clr = s.clr := rfl
@[simp] theorem State.count64_tch (n : RegName) (c k : Nat) : (s.count64 n c k).tch = s.tch := rfl
@[simp] theorem State.count64_eth (n : RegName) (c k : Nat) : (s.count64 n c k).eth = s.eth := rfl
@[simp] theorem State.count64_ses (n : RegName) (c k : Nat) : (s.count64 n c k).ses = s.ses := rfl
@[simp] theorem State.count64_sec (n : RegName) (c k : Nat) : (s.count64 n c k).sec = s.sec := rfl
@[simp] theorem State.count64_trl (n : RegName) (c k : Nat) : (s.count64 n c k).trl = s.trl := rfl
@[simp] theorem State.count64_cfg (n : RegName) (c k : Nat) : (s.count64 n c k).cfg = s.cfg := rfl
@[simp] theorem State.count64_retained (n : RegName) (c k : Nat) : (s.count64 n c k).retained = s.retained := rfl
@[simp] theorem State.count64_prc (n : RegName) (c k : Nat) : (s.count64 n c k).prc = s.prc := rfl
@[simp] theorem State.count64_mtr (n : RegName) (c k : Nat) : (s.count64 n c k).mtr = s.mtr := rfl
@[simp] theorem State.count64_evt (n : RegName) (c k : Nat) : (s.count64 n c k).evt = s.evt := rfl

@[simp] theorem State.setCore_pending (c : Nat) (x : Core) : (s.setCore c x).pending = s.pending := rfl
@[simp] theorem State.setCore_free (c : Nat) (x : Core) : (s.setCore c x).free = s.free := rfl
@[simp] theorem State.setCore_outbox (c : Nat) (x : Core) : (s.setCore c x).outbox = s.outbox := rfl
@[simp] theorem State.setCore_regs (c : Nat) (x : Core) : (s.setCore c x).regs = s.regs := rfl
@[simp] theorem State.setCore_latchRd (c : Nat) (x : Core) : (s.setCore c x).latchRd = s.latchRd := rfl
@[simp] theorem State.setCore_latchWr (c : Nat) (x : Core) : (s.setCore c x).latchWr = s.latchWr := rfl
@[simp] theorem State.setCore_mem (c : Nat) (x : Core) : (s.setCore c x).mem = s.mem := rfl
@[simp] theorem State.setCore_sdt (c : Nat) (x : Core) : (s.setCore c x).sdt = s.sdt := rfl
@[simp] theorem State.setCore_pnt (c : Nat) (x : Core) : (s.setCore c x).pnt = s.pnt := rfl
@[simp] theorem State.setCore_clr (c : Nat) (x : Core) : (s.setCore c x).clr = s.clr := rfl
@[simp] theorem State.setCore_tch (c : Nat) (x : Core) : (s.setCore c x).tch = s.tch := rfl
@[simp] theorem State.setCore_eth (c : Nat) (x : Core) : (s.setCore c x).eth = s.eth := rfl
@[simp] theorem State.setCore_ses (c : Nat) (x : Core) : (s.setCore c x).ses = s.ses := rfl
@[simp] theorem State.setCore_sec (c : Nat) (x : Core) : (s.setCore c x).sec = s.sec := rfl
@[simp] theorem State.setCore_trl (c : Nat) (x : Core) : (s.setCore c x).trl = s.trl := rfl
@[simp] theorem State.setCore_cfg (c : Nat) (x : Core) : (s.setCore c x).cfg = s.cfg := rfl
@[simp] theorem State.setCore_retained (c : Nat) (x : Core) : (s.setCore c x).retained = s.retained := rfl
@[simp] theorem State.setCore_prc (c : Nat) (x : Core) : (s.setCore c x).prc = s.prc := rfl
@[simp] theorem State.setCore_mtr (c : Nat) (x : Core) : (s.setCore c x).mtr = s.mtr := rfl
@[simp] theorem State.setCore_evt (c : Nat) (x : Core) : (s.setCore c x).evt = s.evt := rfl

@[simp] theorem State.modCore_pending (c : Nat) (f : Core → Core) : (s.modCore c f).pending = s.pending := rfl
@[simp] theorem State.modCore_free (c : Nat) (f : Core → Core) : (s.modCore c f).free = s.free := rfl
@[simp] theorem State.modCore_outbox (c : Nat) (f : Core → Core) : (s.modCore c f).outbox = s.outbox := rfl
@[simp] theorem State.modCore_regs (c : Nat) (f : Core → Core) : (s.modCore c f).regs = s.regs := rfl
@[simp] theorem State.modCore_latchRd (c : Nat) (f : Core → Core) : (s.modCore c f).latchRd = s.latchRd := rfl
@[simp] theorem State.modCore_latchWr (c : Nat) (f : Core → Core) : (s.modCore c f).latchWr = s.latchWr := rfl
@[simp] theorem State.modCore_mem (c : Nat) (f : Core → Core) : (s.modCore c f).mem = s.mem := rfl
@[simp] theorem State.modCore_sdt (c : Nat) (f : Core → Core) : (s.modCore c f).sdt = s.sdt := rfl
@[simp] theorem State.modCore_pnt (c : Nat) (f : Core → Core) : (s.modCore c f).pnt = s.pnt := rfl
@[simp] theorem State.modCore_clr (c : Nat) (f : Core → Core) : (s.modCore c f).clr = s.clr := rfl
@[simp] theorem State.modCore_tch (c : Nat) (f : Core → Core) : (s.modCore c f).tch = s.tch := rfl
@[simp] theorem State.modCore_eth (c : Nat) (f : Core → Core) : (s.modCore c f).eth = s.eth := rfl
@[simp] theorem State.modCore_ses (c : Nat) (f : Core → Core) : (s.modCore c f).ses = s.ses := rfl
@[simp] theorem State.modCore_sec (c : Nat) (f : Core → Core) : (s.modCore c f).sec = s.sec := rfl
@[simp] theorem State.modCore_trl (c : Nat) (f : Core → Core) : (s.modCore c f).trl = s.trl := rfl
@[simp] theorem State.modCore_cfg (c : Nat) (f : Core → Core) : (s.modCore c f).cfg = s.cfg := rfl
@[simp] theorem State.modCore_retained (c : Nat) (f : Core → Core) : (s.modCore c f).retained = s.retained := rfl
@[simp] theorem State.modCore_prc (c : Nat) (f : Core → Core) : (s.modCore c f).prc = s.prc := rfl
@[simp] theorem State.modCore_mtr (c : Nat) (f : Core → Core) : (s.modCore c f).mtr = s.mtr := rfl
@[simp] theorem State.modCore_evt (c : Nat) (f : Core → Core) : (s.modCore c f).evt = s.evt := rfl

@[simp] theorem State.modTile_pending (c h : Nat) (f : Tile → Tile) : (s.modTile c h f).pending = s.pending := rfl
@[simp] theorem State.modTile_free (c h : Nat) (f : Tile → Tile) : (s.modTile c h f).free = s.free := rfl
@[simp] theorem State.modTile_outbox (c h : Nat) (f : Tile → Tile) : (s.modTile c h f).outbox = s.outbox := rfl
@[simp] theorem State.modTile_regs (c h : Nat) (f : Tile → Tile) : (s.modTile c h f).regs = s.regs := rfl
@[simp] theorem State.modTile_latchRd (c h : Nat) (f : Tile → Tile) : (s.modTile c h f).latchRd = s.latchRd := rfl
@[simp] theorem State.modTile_latchWr (c h : Nat) (f : Tile → Tile) : (s.modTile c h f).latchWr = s.latchWr := rfl
@[simp] theorem State.modTile_mem (c h : Nat) (f : Tile → Tile) : (s.modTile c h f).mem = s.mem := rfl
@[simp] theorem State.modTile_sdt (c h : Nat) (f : Tile → Tile) : (s.modTile c h f).sdt = s.sdt := rfl
@[simp] theorem State.modTile_pnt (c h : Nat) (f : Tile → Tile) : (s.modTile c h f).pnt = s.pnt := rfl
@[simp] theorem State.modTile_clr (c h : Nat) (f : Tile → Tile) : (s.modTile c h f).clr = s.clr := rfl
@[simp] theorem State.modTile_tch (c h : Nat) (f : Tile → Tile) : (s.modTile c h f).tch = s.tch := rfl
@[simp] theorem State.modTile_eth (c h : Nat) (f : Tile → Tile) : (s.modTile c h f).eth = s.eth := rfl
@[simp] theorem State.modTile_ses (c h : Nat) (f : Tile → Tile) : (s.modTile c h f).ses = s.ses := rfl
@[simp] theorem State.modTile_sec (c h : Nat) (f : Tile → Tile) : (s.modTile c h f).sec = s.sec := rfl
@[simp] theorem State.modTile_trl (c h : Nat) (f : Tile → Tile) : (s.modTile c h f).trl = s.trl := rfl
@[simp] theorem State.modTile_cfg (c h : Nat) (f : Tile → Tile) : (s.modTile c h f).cfg = s.cfg := rfl
@[simp] theorem State.modTile_retained (c h : Nat) (f : Tile → Tile) : (s.modTile c h f).retained = s.retained := rfl
@[simp] theorem State.modTile_prc (c h : Nat) (f : Tile → Tile) : (s.modTile c h f).prc = s.prc := rfl
@[simp] theorem State.modTile_mtr (c h : Nat) (f : Tile → Tile) : (s.modTile c h f).mtr = s.mtr := rfl
@[simp] theorem State.modTile_evt (c h : Nat) (f : Tile → Tile) : (s.modTile c h f).evt = s.evt := rfl

@[simp] theorem State.modSeq_pending (c : Nat) (f : Seq → Seq) : (s.modSeq c f).pending = s.pending := rfl
@[simp] theorem State.modSeq_free (c : Nat) (f : Seq → Seq) : (s.modSeq c f).free = s.free := rfl
@[simp] theorem State.modSeq_outbox (c : Nat) (f : Seq → Seq) : (s.modSeq c f).outbox = s.outbox := rfl
@[simp] theorem State.modSeq_regs (c : Nat) (f : Seq → Seq) : (s.modSeq c f).regs = s.regs := rfl
@[simp] theorem State.modSeq_latchRd (c : Nat) (f : Seq → Seq) : (s.modSeq c f).latchRd = s.latchRd := rfl
@[simp] theorem State.modSeq_latchWr (c : Nat) (f : Seq → Seq) : (s.modSeq c f).latchWr = s.latchWr := rfl
@[simp] theorem State.modSeq_mem (c : Nat) (f : Seq → Seq) : (s.modSeq c f).mem = s.mem := rfl
@[simp] theorem State.modSeq_sdt (c : Nat) (f : Seq → Seq) : (s.modSeq c f).sdt = s.sdt := rfl
@[simp] theorem State.modSeq_pnt (c : Nat) (f : Seq → Seq) : (s.modSeq c f).pnt = s.pnt := rfl
@[simp] theorem State.modSeq_clr (c : Nat) (f : Seq → Seq) : (s.modSeq c f).clr = s.clr := rfl
@[simp] theorem State.modSeq_tch (c : Nat) (f : Seq → Seq) : (s.modSeq c f).tch = s.tch := rfl
@[simp] theorem State.modSeq_eth (c : Nat) (f : Seq → Seq) : (s.modSeq c f).eth = s.eth := rfl
@[simp] theorem State.modSeq_ses (c : Nat) (f : Seq → Seq) : (s.modSeq c f).ses = s.ses := rfl
@[simp] theorem State.modSeq_sec (c : Nat) (f : Seq → Seq) : (s.modSeq c f).sec = s.sec := rfl
@[simp] theorem State.modSeq_trl (c : Nat) (f : Seq → Seq) : (s.modSeq c f).trl = s.trl := rfl
@[simp] theorem State.modSeq_cfg (c : Nat) (f : Seq → Seq) : (s.modSeq c f).cfg = s.cfg := rfl
@[simp] theorem State.modSeq_retained (c : Nat) (f : Seq → Seq) : (s.modSeq c f).retained = s.retained := rfl
@[simp] theorem State.modSeq_prc (c : Nat) (f : Seq → Seq) : (s.modSeq c f).prc = s.prc := rfl
@[simp] theorem State.modSeq_mtr (c : Nat) (f : Seq → Seq) : (s.modSeq c f).mtr = s.mtr := rfl
@[simp] theorem State.modSeq_evt (c : Nat) (f : Seq → Seq) : (s.modSeq c f).evt = s.evt := rfl

@[simp] theorem State.modArr_pending (c : Nat) (f : Arr → Arr) : (s.modArr c f).pending = s.pending := rfl
@[simp] theorem State.modArr_free (c : Nat) (f : Arr → Arr) : (s.modArr c f).free = s.free := rfl
@[simp] theorem State.modArr_outbox (c : Nat) (f : Arr → Arr) : (s.modArr c f).outbox = s.outbox := rfl
@[simp] theorem State.modArr_regs (c : Nat) (f : Arr → Arr) : (s.modArr c f).regs = s.regs := rfl
@[simp] theorem State.modArr_latchRd (c : Nat) (f : Arr → Arr) : (s.modArr c f).latchRd = s.latchRd := rfl
@[simp] theorem State.modArr_latchWr (c : Nat) (f : Arr → Arr) : (s.modArr c f).latchWr = s.latchWr := rfl
@[simp] theorem State.modArr_mem (c : Nat) (f : Arr → Arr) : (s.modArr c f).mem = s.mem := rfl
@[simp] theorem State.modArr_sdt (c : Nat) (f : Arr → Arr) : (s.modArr c f).sdt = s.sdt := rfl
@[simp] theorem State.modArr_pnt (c : Nat) (f : Arr → Arr) : (s.modArr c f).pnt = s.pnt := rfl
@[simp] theorem State.modArr_clr (c : Nat) (f : Arr → Arr) : (s.modArr c f).clr = s.clr := rfl
@[simp] theorem State.modArr_tch (c : Nat) (f : Arr → Arr) : (s.modArr c f).tch = s.tch := rfl
@[simp] theorem State.modArr_eth (c : Nat) (f : Arr → Arr) : (s.modArr c f).eth = s.eth := rfl
@[simp] theorem State.modArr_ses (c : Nat) (f : Arr → Arr) : (s.modArr c f).ses = s.ses := rfl
@[simp] theorem State.modArr_sec (c : Nat) (f : Arr → Arr) : (s.modArr c f).sec = s.sec := rfl
@[simp] theorem State.modArr_trl (c : Nat) (f : Arr → Arr) : (s.modArr c f).trl = s.trl := rfl
@[simp] theorem State.modArr_cfg (c : Nat) (f : Arr → Arr) : (s.modArr c f).cfg = s.cfg := rfl
@[simp] theorem State.modArr_retained (c : Nat) (f : Arr → Arr) : (s.modArr c f).retained = s.retained := rfl
@[simp] theorem State.modArr_prc (c : Nat) (f : Arr → Arr) : (s.modArr c f).prc = s.prc := rfl
@[simp] theorem State.modArr_mtr (c : Nat) (f : Arr → Arr) : (s.modArr c f).mtr = s.mtr := rfl
@[simp] theorem State.modArr_evt (c : Nat) (f : Arr → Arr) : (s.modArr c f).evt = s.evt := rfl

@[simp] theorem State.modVec_pending (c : Nat) (f : Vec → Vec) : (s.modVec c f).pending = s.pending := rfl
@[simp] theorem State.modVec_free (c : Nat) (f : Vec → Vec) : (s.modVec c f).free = s.free := rfl
@[simp] theorem State.modVec_outbox (c : Nat) (f : Vec → Vec) : (s.modVec c f).outbox = s.outbox := rfl
@[simp] theorem State.modVec_regs (c : Nat) (f : Vec → Vec) : (s.modVec c f).regs = s.regs := rfl
@[simp] theorem State.modVec_latchRd (c : Nat) (f : Vec → Vec) : (s.modVec c f).latchRd = s.latchRd := rfl
@[simp] theorem State.modVec_latchWr (c : Nat) (f : Vec → Vec) : (s.modVec c f).latchWr = s.latchWr := rfl
@[simp] theorem State.modVec_mem (c : Nat) (f : Vec → Vec) : (s.modVec c f).mem = s.mem := rfl
@[simp] theorem State.modVec_sdt (c : Nat) (f : Vec → Vec) : (s.modVec c f).sdt = s.sdt := rfl
@[simp] theorem State.modVec_pnt (c : Nat) (f : Vec → Vec) : (s.modVec c f).pnt = s.pnt := rfl
@[simp] theorem State.modVec_clr (c : Nat) (f : Vec → Vec) : (s.modVec c f).clr = s.clr := rfl
@[simp] theorem State.modVec_tch (c : Nat) (f : Vec → Vec) : (s.modVec c f).tch = s.tch := rfl
@[simp] theorem State.modVec_eth (c : Nat) (f : Vec → Vec) : (s.modVec c f).eth = s.eth := rfl
@[simp] theorem State.modVec_ses (c : Nat) (f : Vec → Vec) : (s.modVec c f).ses = s.ses := rfl
@[simp] theorem State.modVec_sec (c : Nat) (f : Vec → Vec) : (s.modVec c f).sec = s.sec := rfl
@[simp] theorem State.modVec_trl (c : Nat) (f : Vec → Vec) : (s.modVec c f).trl = s.trl := rfl
@[simp] theorem State.modVec_cfg (c : Nat) (f : Vec → Vec) : (s.modVec c f).cfg = s.cfg := rfl
@[simp] theorem State.modVec_retained (c : Nat) (f : Vec → Vec) : (s.modVec c f).retained = s.retained := rfl
@[simp] theorem State.modVec_prc (c : Nat) (f : Vec → Vec) : (s.modVec c f).prc = s.prc := rfl
@[simp] theorem State.modVec_mtr (c : Nat) (f : Vec → Vec) : (s.modVec c f).mtr = s.mtr := rfl
@[simp] theorem State.modVec_evt (c : Nat) (f : Vec → Vec) : (s.modVec c f).evt = s.evt := rfl

@[simp] theorem State.modChan_pending (c ch : Nat) (f : Chan → Chan) : (s.modChan c ch f).pending = s.pending := rfl
@[simp] theorem State.modChan_free (c ch : Nat) (f : Chan → Chan) : (s.modChan c ch f).free = s.free := rfl
@[simp] theorem State.modChan_outbox (c ch : Nat) (f : Chan → Chan) : (s.modChan c ch f).outbox = s.outbox := rfl
@[simp] theorem State.modChan_regs (c ch : Nat) (f : Chan → Chan) : (s.modChan c ch f).regs = s.regs := rfl
@[simp] theorem State.modChan_latchRd (c ch : Nat) (f : Chan → Chan) : (s.modChan c ch f).latchRd = s.latchRd := rfl
@[simp] theorem State.modChan_latchWr (c ch : Nat) (f : Chan → Chan) : (s.modChan c ch f).latchWr = s.latchWr := rfl
@[simp] theorem State.modChan_mem (c ch : Nat) (f : Chan → Chan) : (s.modChan c ch f).mem = s.mem := rfl
@[simp] theorem State.modChan_sdt (c ch : Nat) (f : Chan → Chan) : (s.modChan c ch f).sdt = s.sdt := rfl
@[simp] theorem State.modChan_pnt (c ch : Nat) (f : Chan → Chan) : (s.modChan c ch f).pnt = s.pnt := rfl
@[simp] theorem State.modChan_clr (c ch : Nat) (f : Chan → Chan) : (s.modChan c ch f).clr = s.clr := rfl
@[simp] theorem State.modChan_tch (c ch : Nat) (f : Chan → Chan) : (s.modChan c ch f).tch = s.tch := rfl
@[simp] theorem State.modChan_eth (c ch : Nat) (f : Chan → Chan) : (s.modChan c ch f).eth = s.eth := rfl
@[simp] theorem State.modChan_ses (c ch : Nat) (f : Chan → Chan) : (s.modChan c ch f).ses = s.ses := rfl
@[simp] theorem State.modChan_sec (c ch : Nat) (f : Chan → Chan) : (s.modChan c ch f).sec = s.sec := rfl
@[simp] theorem State.modChan_trl (c ch : Nat) (f : Chan → Chan) : (s.modChan c ch f).trl = s.trl := rfl
@[simp] theorem State.modChan_cfg (c ch : Nat) (f : Chan → Chan) : (s.modChan c ch f).cfg = s.cfg := rfl
@[simp] theorem State.modChan_retained (c ch : Nat) (f : Chan → Chan) : (s.modChan c ch f).retained = s.retained := rfl
@[simp] theorem State.modChan_prc (c ch : Nat) (f : Chan → Chan) : (s.modChan c ch f).prc = s.prc := rfl
@[simp] theorem State.modChan_mtr (c ch : Nat) (f : Chan → Chan) : (s.modChan c ch f).mtr = s.mtr := rfl
@[simp] theorem State.modChan_evt (c ch : Nat) (f : Chan → Chan) : (s.modChan c ch f).evt = s.evt := rfl

@[simp] theorem State.setSlot_pending (c n : Nat) (x : Slot) : (s.setSlot c n x).pending = s.pending := rfl
@[simp] theorem State.setSlot_free (c n : Nat) (x : Slot) : (s.setSlot c n x).free = s.free := rfl
@[simp] theorem State.setSlot_outbox (c n : Nat) (x : Slot) : (s.setSlot c n x).outbox = s.outbox := rfl
@[simp] theorem State.setSlot_regs (c n : Nat) (x : Slot) : (s.setSlot c n x).regs = s.regs := rfl
@[simp] theorem State.setSlot_latchRd (c n : Nat) (x : Slot) : (s.setSlot c n x).latchRd = s.latchRd := rfl
@[simp] theorem State.setSlot_latchWr (c n : Nat) (x : Slot) : (s.setSlot c n x).latchWr = s.latchWr := rfl
@[simp] theorem State.setSlot_mem (c n : Nat) (x : Slot) : (s.setSlot c n x).mem = s.mem := rfl
@[simp] theorem State.setSlot_sdt (c n : Nat) (x : Slot) : (s.setSlot c n x).sdt = s.sdt := rfl
@[simp] theorem State.setSlot_pnt (c n : Nat) (x : Slot) : (s.setSlot c n x).pnt = s.pnt := rfl
@[simp] theorem State.setSlot_clr (c n : Nat) (x : Slot) : (s.setSlot c n x).clr = s.clr := rfl
@[simp] theorem State.setSlot_tch (c n : Nat) (x : Slot) : (s.setSlot c n x).tch = s.tch := rfl
@[simp] theorem State.setSlot_eth (c n : Nat) (x : Slot) : (s.setSlot c n x).eth = s.eth := rfl
@[simp] theorem State.setSlot_ses (c n : Nat) (x : Slot) : (s.setSlot c n x).ses = s.ses := rfl
@[simp] theorem State.setSlot_sec (c n : Nat) (x : Slot) : (s.setSlot c n x).sec = s.sec := rfl
@[simp] theorem State.setSlot_trl (c n : Nat) (x : Slot) : (s.setSlot c n x).trl = s.trl := rfl
@[simp] theorem State.setSlot_cfg (c n : Nat) (x : Slot) : (s.setSlot c n x).cfg = s.cfg := rfl
@[simp] theorem State.setSlot_retained (c n : Nat) (x : Slot) : (s.setSlot c n x).retained = s.retained := rfl
@[simp] theorem State.setSlot_prc (c n : Nat) (x : Slot) : (s.setSlot c n x).prc = s.prc := rfl
@[simp] theorem State.setSlot_mtr (c n : Nat) (x : Slot) : (s.setSlot c n x).mtr = s.mtr := rfl
@[simp] theorem State.setSlot_evt (c n : Nat) (x : Slot) : (s.setSlot c n x).evt = s.evt := rfl

@[simp] theorem State.act_pending (c j n : Nat) : (s.act c j n).pending = s.pending := rfl
@[simp] theorem State.act_free (c j n : Nat) : (s.act c j n).free = s.free := rfl
@[simp] theorem State.act_outbox (c j n : Nat) : (s.act c j n).outbox = s.outbox := rfl
@[simp] theorem State.act_regs (c j n : Nat) : (s.act c j n).regs = s.regs := rfl
@[simp] theorem State.act_latchRd (c j n : Nat) : (s.act c j n).latchRd = s.latchRd := rfl
@[simp] theorem State.act_latchWr (c j n : Nat) : (s.act c j n).latchWr = s.latchWr := rfl
@[simp] theorem State.act_mem (c j n : Nat) : (s.act c j n).mem = s.mem := rfl
@[simp] theorem State.act_sdt (c j n : Nat) : (s.act c j n).sdt = s.sdt := rfl
@[simp] theorem State.act_pnt (c j n : Nat) : (s.act c j n).pnt = s.pnt := rfl
@[simp] theorem State.act_clr (c j n : Nat) : (s.act c j n).clr = s.clr := rfl
@[simp] theorem State.act_tch (c j n : Nat) : (s.act c j n).tch = s.tch := rfl
@[simp] theorem State.act_eth (c j n : Nat) : (s.act c j n).eth = s.eth := rfl
@[simp] theorem State.act_ses (c j n : Nat) : (s.act c j n).ses = s.ses := rfl
@[simp] theorem State.act_sec (c j n : Nat) : (s.act c j n).sec = s.sec := rfl
@[simp] theorem State.act_trl (c j n : Nat) : (s.act c j n).trl = s.trl := rfl
@[simp] theorem State.act_cfg (c j n : Nat) : (s.act c j n).cfg = s.cfg := rfl
@[simp] theorem State.act_retained (c j n : Nat) : (s.act c j n).retained = s.retained := rfl
@[simp] theorem State.act_prc (c j n : Nat) : (s.act c j n).prc = s.prc := rfl
@[simp] theorem State.act_mtr (c j n : Nat) : (s.act c j n).mtr = s.mtr := rfl
@[simp] theorem State.act_evt (c j n : Nat) : (s.act c j n).evt = s.evt := rfl

@[simp] theorem State.modDisp_pending (d : Nat) (f : Disp → Disp) : (s.modDisp d f).pending = s.pending := rfl
@[simp] theorem State.modDisp_free (d : Nat) (f : Disp → Disp) : (s.modDisp d f).free = s.free := rfl
@[simp] theorem State.modDisp_outbox (d : Nat) (f : Disp → Disp) : (s.modDisp d f).outbox = s.outbox := rfl
@[simp] theorem State.modDisp_regs (d : Nat) (f : Disp → Disp) : (s.modDisp d f).regs = s.regs := rfl
@[simp] theorem State.modDisp_latchRd (d : Nat) (f : Disp → Disp) : (s.modDisp d f).latchRd = s.latchRd := rfl
@[simp] theorem State.modDisp_latchWr (d : Nat) (f : Disp → Disp) : (s.modDisp d f).latchWr = s.latchWr := rfl
@[simp] theorem State.modDisp_mem (d : Nat) (f : Disp → Disp) : (s.modDisp d f).mem = s.mem := rfl
@[simp] theorem State.modDisp_cores (d : Nat) (f : Disp → Disp) : (s.modDisp d f).cores = s.cores := rfl
@[simp] theorem State.modDisp_pnt (d : Nat) (f : Disp → Disp) : (s.modDisp d f).pnt = s.pnt := rfl
@[simp] theorem State.modDisp_clr (d : Nat) (f : Disp → Disp) : (s.modDisp d f).clr = s.clr := rfl
@[simp] theorem State.modDisp_tch (d : Nat) (f : Disp → Disp) : (s.modDisp d f).tch = s.tch := rfl
@[simp] theorem State.modDisp_eth (d : Nat) (f : Disp → Disp) : (s.modDisp d f).eth = s.eth := rfl
@[simp] theorem State.modDisp_ses (d : Nat) (f : Disp → Disp) : (s.modDisp d f).ses = s.ses := rfl
@[simp] theorem State.modDisp_sec (d : Nat) (f : Disp → Disp) : (s.modDisp d f).sec = s.sec := rfl
@[simp] theorem State.modDisp_trl (d : Nat) (f : Disp → Disp) : (s.modDisp d f).trl = s.trl := rfl
@[simp] theorem State.modDisp_cfg (d : Nat) (f : Disp → Disp) : (s.modDisp d f).cfg = s.cfg := rfl
@[simp] theorem State.modDisp_retained (d : Nat) (f : Disp → Disp) : (s.modDisp d f).retained = s.retained := rfl
@[simp] theorem State.modDisp_prc (d : Nat) (f : Disp → Disp) : (s.modDisp d f).prc = s.prc := rfl
@[simp] theorem State.modDisp_mtr (d : Nat) (f : Disp → Disp) : (s.modDisp d f).mtr = s.mtr := rfl
@[simp] theorem State.modDisp_evt (d : Nat) (f : Disp → Disp) : (s.modDisp d f).evt = s.evt := rfl

@[simp] theorem State.modPort_pending (p : Nat) (f : Port → Port) : (s.modPort p f).pending = s.pending := rfl
@[simp] theorem State.modPort_free (p : Nat) (f : Port → Port) : (s.modPort p f).free = s.free := rfl
@[simp] theorem State.modPort_outbox (p : Nat) (f : Port → Port) : (s.modPort p f).outbox = s.outbox := rfl
@[simp] theorem State.modPort_regs (p : Nat) (f : Port → Port) : (s.modPort p f).regs = s.regs := rfl
@[simp] theorem State.modPort_latchRd (p : Nat) (f : Port → Port) : (s.modPort p f).latchRd = s.latchRd := rfl
@[simp] theorem State.modPort_latchWr (p : Nat) (f : Port → Port) : (s.modPort p f).latchWr = s.latchWr := rfl
@[simp] theorem State.modPort_mem (p : Nat) (f : Port → Port) : (s.modPort p f).mem = s.mem := rfl
@[simp] theorem State.modPort_cores (p : Nat) (f : Port → Port) : (s.modPort p f).cores = s.cores := rfl
@[simp] theorem State.modPort_sdt (p : Nat) (f : Port → Port) : (s.modPort p f).sdt = s.sdt := rfl
@[simp] theorem State.modPort_pnt (p : Nat) (f : Port → Port) : (s.modPort p f).pnt = s.pnt := rfl
@[simp] theorem State.modPort_clr (p : Nat) (f : Port → Port) : (s.modPort p f).clr = s.clr := rfl
@[simp] theorem State.modPort_eth (p : Nat) (f : Port → Port) : (s.modPort p f).eth = s.eth := rfl
@[simp] theorem State.modPort_ses (p : Nat) (f : Port → Port) : (s.modPort p f).ses = s.ses := rfl
@[simp] theorem State.modPort_sec (p : Nat) (f : Port → Port) : (s.modPort p f).sec = s.sec := rfl
@[simp] theorem State.modPort_trl (p : Nat) (f : Port → Port) : (s.modPort p f).trl = s.trl := rfl
@[simp] theorem State.modPort_cfg (p : Nat) (f : Port → Port) : (s.modPort p f).cfg = s.cfg := rfl
@[simp] theorem State.modPort_retained (p : Nat) (f : Port → Port) : (s.modPort p f).retained = s.retained := rfl
@[simp] theorem State.modPort_prc (p : Nat) (f : Port → Port) : (s.modPort p f).prc = s.prc := rfl
@[simp] theorem State.modPort_mtr (p : Nat) (f : Port → Port) : (s.modPort p f).mtr = s.mtr := rfl
@[simp] theorem State.modPort_evt (p : Nat) (f : Port → Port) : (s.modPort p f).evt = s.evt := rfl

@[simp] theorem State.modGroup_pending (g : Nat) (f : Group → Group) : (s.modGroup g f).pending = s.pending := rfl
@[simp] theorem State.modGroup_free (g : Nat) (f : Group → Group) : (s.modGroup g f).free = s.free := rfl
@[simp] theorem State.modGroup_outbox (g : Nat) (f : Group → Group) : (s.modGroup g f).outbox = s.outbox := rfl
@[simp] theorem State.modGroup_regs (g : Nat) (f : Group → Group) : (s.modGroup g f).regs = s.regs := rfl
@[simp] theorem State.modGroup_latchRd (g : Nat) (f : Group → Group) : (s.modGroup g f).latchRd = s.latchRd := rfl
@[simp] theorem State.modGroup_latchWr (g : Nat) (f : Group → Group) : (s.modGroup g f).latchWr = s.latchWr := rfl
@[simp] theorem State.modGroup_mem (g : Nat) (f : Group → Group) : (s.modGroup g f).mem = s.mem := rfl
@[simp] theorem State.modGroup_cores (g : Nat) (f : Group → Group) : (s.modGroup g f).cores = s.cores := rfl
@[simp] theorem State.modGroup_sdt (g : Nat) (f : Group → Group) : (s.modGroup g f).sdt = s.sdt := rfl
@[simp] theorem State.modGroup_pnt (g : Nat) (f : Group → Group) : (s.modGroup g f).pnt = s.pnt := rfl
@[simp] theorem State.modGroup_clr (g : Nat) (f : Group → Group) : (s.modGroup g f).clr = s.clr := rfl
@[simp] theorem State.modGroup_eth (g : Nat) (f : Group → Group) : (s.modGroup g f).eth = s.eth := rfl
@[simp] theorem State.modGroup_ses (g : Nat) (f : Group → Group) : (s.modGroup g f).ses = s.ses := rfl
@[simp] theorem State.modGroup_sec (g : Nat) (f : Group → Group) : (s.modGroup g f).sec = s.sec := rfl
@[simp] theorem State.modGroup_trl (g : Nat) (f : Group → Group) : (s.modGroup g f).trl = s.trl := rfl
@[simp] theorem State.modGroup_cfg (g : Nat) (f : Group → Group) : (s.modGroup g f).cfg = s.cfg := rfl
@[simp] theorem State.modGroup_retained (g : Nat) (f : Group → Group) : (s.modGroup g f).retained = s.retained := rfl
@[simp] theorem State.modGroup_prc (g : Nat) (f : Group → Group) : (s.modGroup g f).prc = s.prc := rfl
@[simp] theorem State.modGroup_mtr (g : Nat) (f : Group → Group) : (s.modGroup g f).mtr = s.mtr := rfl
@[simp] theorem State.modGroup_evt (g : Nat) (f : Group → Group) : (s.modGroup g f).evt = s.evt := rfl

@[simp] theorem State.modEth_pending (p : Nat) (f : Eth → Eth) : (s.modEth p f).pending = s.pending := rfl
@[simp] theorem State.modEth_free (p : Nat) (f : Eth → Eth) : (s.modEth p f).free = s.free := rfl
@[simp] theorem State.modEth_outbox (p : Nat) (f : Eth → Eth) : (s.modEth p f).outbox = s.outbox := rfl
@[simp] theorem State.modEth_regs (p : Nat) (f : Eth → Eth) : (s.modEth p f).regs = s.regs := rfl
@[simp] theorem State.modEth_latchRd (p : Nat) (f : Eth → Eth) : (s.modEth p f).latchRd = s.latchRd := rfl
@[simp] theorem State.modEth_latchWr (p : Nat) (f : Eth → Eth) : (s.modEth p f).latchWr = s.latchWr := rfl
@[simp] theorem State.modEth_mem (p : Nat) (f : Eth → Eth) : (s.modEth p f).mem = s.mem := rfl
@[simp] theorem State.modEth_cores (p : Nat) (f : Eth → Eth) : (s.modEth p f).cores = s.cores := rfl
@[simp] theorem State.modEth_sdt (p : Nat) (f : Eth → Eth) : (s.modEth p f).sdt = s.sdt := rfl
@[simp] theorem State.modEth_pnt (p : Nat) (f : Eth → Eth) : (s.modEth p f).pnt = s.pnt := rfl
@[simp] theorem State.modEth_clr (p : Nat) (f : Eth → Eth) : (s.modEth p f).clr = s.clr := rfl
@[simp] theorem State.modEth_tch (p : Nat) (f : Eth → Eth) : (s.modEth p f).tch = s.tch := rfl
@[simp] theorem State.modEth_ses (p : Nat) (f : Eth → Eth) : (s.modEth p f).ses = s.ses := rfl
@[simp] theorem State.modEth_sec (p : Nat) (f : Eth → Eth) : (s.modEth p f).sec = s.sec := rfl
@[simp] theorem State.modEth_trl (p : Nat) (f : Eth → Eth) : (s.modEth p f).trl = s.trl := rfl
@[simp] theorem State.modEth_cfg (p : Nat) (f : Eth → Eth) : (s.modEth p f).cfg = s.cfg := rfl
@[simp] theorem State.modEth_retained (p : Nat) (f : Eth → Eth) : (s.modEth p f).retained = s.retained := rfl
@[simp] theorem State.modEth_prc (p : Nat) (f : Eth → Eth) : (s.modEth p f).prc = s.prc := rfl
@[simp] theorem State.modEth_mtr (p : Nat) (f : Eth → Eth) : (s.modEth p f).mtr = s.mtr := rfl
@[simp] theorem State.modEth_evt (p : Nat) (f : Eth → Eth) : (s.modEth p f).evt = s.evt := rfl

@[simp] theorem State.send_pending (o : Out) : (s.send o).pending = s.pending := rfl
@[simp] theorem State.send_free (o : Out) : (s.send o).free = s.free := rfl
@[simp] theorem State.send_regs (o : Out) : (s.send o).regs = s.regs := rfl
@[simp] theorem State.send_latchRd (o : Out) : (s.send o).latchRd = s.latchRd := rfl
@[simp] theorem State.send_latchWr (o : Out) : (s.send o).latchWr = s.latchWr := rfl
@[simp] theorem State.send_mem (o : Out) : (s.send o).mem = s.mem := rfl
@[simp] theorem State.send_cores (o : Out) : (s.send o).cores = s.cores := rfl
@[simp] theorem State.send_sdt (o : Out) : (s.send o).sdt = s.sdt := rfl
@[simp] theorem State.send_pnt (o : Out) : (s.send o).pnt = s.pnt := rfl
@[simp] theorem State.send_clr (o : Out) : (s.send o).clr = s.clr := rfl
@[simp] theorem State.send_tch (o : Out) : (s.send o).tch = s.tch := rfl
@[simp] theorem State.send_eth (o : Out) : (s.send o).eth = s.eth := rfl
@[simp] theorem State.send_ses (o : Out) : (s.send o).ses = s.ses := rfl
@[simp] theorem State.send_sec (o : Out) : (s.send o).sec = s.sec := rfl
@[simp] theorem State.send_trl (o : Out) : (s.send o).trl = s.trl := rfl
@[simp] theorem State.send_cfg (o : Out) : (s.send o).cfg = s.cfg := rfl
@[simp] theorem State.send_retained (o : Out) : (s.send o).retained = s.retained := rfl
@[simp] theorem State.send_prc (o : Out) : (s.send o).prc = s.prc := rfl
@[simp] theorem State.send_mtr (o : Out) : (s.send o).mtr = s.mtr := rfl
@[simp] theorem State.send_evt (o : Out) : (s.send o).evt = s.evt := rfl

@[simp] theorem State.setQuad_pending (q : Nat) (x : QuadSt) : (s.setQuad q x).pending = s.pending := rfl
@[simp] theorem State.setQuad_free (q : Nat) (x : QuadSt) : (s.setQuad q x).free = s.free := rfl
@[simp] theorem State.setQuad_outbox (q : Nat) (x : QuadSt) : (s.setQuad q x).outbox = s.outbox := rfl
@[simp] theorem State.setQuad_regs (q : Nat) (x : QuadSt) : (s.setQuad q x).regs = s.regs := rfl
@[simp] theorem State.setQuad_latchRd (q : Nat) (x : QuadSt) : (s.setQuad q x).latchRd = s.latchRd := rfl
@[simp] theorem State.setQuad_latchWr (q : Nat) (x : QuadSt) : (s.setQuad q x).latchWr = s.latchWr := rfl
@[simp] theorem State.setQuad_mem (q : Nat) (x : QuadSt) : (s.setQuad q x).mem = s.mem := rfl
@[simp] theorem State.setQuad_cores (q : Nat) (x : QuadSt) : (s.setQuad q x).cores = s.cores := rfl
@[simp] theorem State.setQuad_sdt (q : Nat) (x : QuadSt) : (s.setQuad q x).sdt = s.sdt := rfl
@[simp] theorem State.setQuad_pnt (q : Nat) (x : QuadSt) : (s.setQuad q x).pnt = s.pnt := rfl
@[simp] theorem State.setQuad_clr (q : Nat) (x : QuadSt) : (s.setQuad q x).clr = s.clr := rfl
@[simp] theorem State.setQuad_tch (q : Nat) (x : QuadSt) : (s.setQuad q x).tch = s.tch := rfl
@[simp] theorem State.setQuad_eth (q : Nat) (x : QuadSt) : (s.setQuad q x).eth = s.eth := rfl
@[simp] theorem State.setQuad_ses (q : Nat) (x : QuadSt) : (s.setQuad q x).ses = s.ses := rfl
@[simp] theorem State.setQuad_sec (q : Nat) (x : QuadSt) : (s.setQuad q x).sec = s.sec := rfl
@[simp] theorem State.setQuad_trl (q : Nat) (x : QuadSt) : (s.setQuad q x).trl = s.trl := rfl
@[simp] theorem State.setQuad_cfg (q : Nat) (x : QuadSt) : (s.setQuad q x).cfg = s.cfg := rfl
@[simp] theorem State.setQuad_retained (q : Nat) (x : QuadSt) : (s.setQuad q x).retained = s.retained := rfl
@[simp] theorem State.setQuad_mtr (q : Nat) (x : QuadSt) : (s.setQuad q x).mtr = s.mtr := rfl
@[simp] theorem State.setQuad_evt (q : Nat) (x : QuadSt) : (s.setQuad q x).evt = s.evt := rfl

@[simp] theorem State.setByte_pending (a : Nat) (v : Byte) : (s.setByte a v).pending = s.pending := rfl
@[simp] theorem State.setByte_free (a : Nat) (v : Byte) : (s.setByte a v).free = s.free := rfl
@[simp] theorem State.setByte_outbox (a : Nat) (v : Byte) : (s.setByte a v).outbox = s.outbox := rfl
@[simp] theorem State.setByte_regs (a : Nat) (v : Byte) : (s.setByte a v).regs = s.regs := rfl
@[simp] theorem State.setByte_latchRd (a : Nat) (v : Byte) : (s.setByte a v).latchRd = s.latchRd := rfl
@[simp] theorem State.setByte_latchWr (a : Nat) (v : Byte) : (s.setByte a v).latchWr = s.latchWr := rfl
@[simp] theorem State.setByte_cores (a : Nat) (v : Byte) : (s.setByte a v).cores = s.cores := rfl
@[simp] theorem State.setByte_sdt (a : Nat) (v : Byte) : (s.setByte a v).sdt = s.sdt := rfl
@[simp] theorem State.setByte_pnt (a : Nat) (v : Byte) : (s.setByte a v).pnt = s.pnt := rfl
@[simp] theorem State.setByte_clr (a : Nat) (v : Byte) : (s.setByte a v).clr = s.clr := rfl
@[simp] theorem State.setByte_tch (a : Nat) (v : Byte) : (s.setByte a v).tch = s.tch := rfl
@[simp] theorem State.setByte_eth (a : Nat) (v : Byte) : (s.setByte a v).eth = s.eth := rfl
@[simp] theorem State.setByte_ses (a : Nat) (v : Byte) : (s.setByte a v).ses = s.ses := rfl
@[simp] theorem State.setByte_sec (a : Nat) (v : Byte) : (s.setByte a v).sec = s.sec := rfl
@[simp] theorem State.setByte_trl (a : Nat) (v : Byte) : (s.setByte a v).trl = s.trl := rfl
@[simp] theorem State.setByte_cfg (a : Nat) (v : Byte) : (s.setByte a v).cfg = s.cfg := rfl
@[simp] theorem State.setByte_retained (a : Nat) (v : Byte) : (s.setByte a v).retained = s.retained := rfl
@[simp] theorem State.setByte_prc (a : Nat) (v : Byte) : (s.setByte a v).prc = s.prc := rfl
@[simp] theorem State.setByte_mtr (a : Nat) (v : Byte) : (s.setByte a v).mtr = s.mtr := rfl
@[simp] theorem State.setByte_evt (a : Nat) (v : Byte) : (s.setByte a v).evt = s.evt := rfl

@[simp] theorem State.setKslot_pending (k : Nat) (x : KSlot) : (s.setKslot k x).pending = s.pending := rfl
@[simp] theorem State.setKslot_free (k : Nat) (x : KSlot) : (s.setKslot k x).free = s.free := rfl
@[simp] theorem State.setKslot_outbox (k : Nat) (x : KSlot) : (s.setKslot k x).outbox = s.outbox := rfl
@[simp] theorem State.setKslot_regs (k : Nat) (x : KSlot) : (s.setKslot k x).regs = s.regs := rfl
@[simp] theorem State.setKslot_latchRd (k : Nat) (x : KSlot) : (s.setKslot k x).latchRd = s.latchRd := rfl
@[simp] theorem State.setKslot_latchWr (k : Nat) (x : KSlot) : (s.setKslot k x).latchWr = s.latchWr := rfl
@[simp] theorem State.setKslot_mem (k : Nat) (x : KSlot) : (s.setKslot k x).mem = s.mem := rfl
@[simp] theorem State.setKslot_cores (k : Nat) (x : KSlot) : (s.setKslot k x).cores = s.cores := rfl
@[simp] theorem State.setKslot_sdt (k : Nat) (x : KSlot) : (s.setKslot k x).sdt = s.sdt := rfl
@[simp] theorem State.setKslot_pnt (k : Nat) (x : KSlot) : (s.setKslot k x).pnt = s.pnt := rfl
@[simp] theorem State.setKslot_tch (k : Nat) (x : KSlot) : (s.setKslot k x).tch = s.tch := rfl
@[simp] theorem State.setKslot_eth (k : Nat) (x : KSlot) : (s.setKslot k x).eth = s.eth := rfl
@[simp] theorem State.setKslot_ses (k : Nat) (x : KSlot) : (s.setKslot k x).ses = s.ses := rfl
@[simp] theorem State.setKslot_sec (k : Nat) (x : KSlot) : (s.setKslot k x).sec = s.sec := rfl
@[simp] theorem State.setKslot_trl (k : Nat) (x : KSlot) : (s.setKslot k x).trl = s.trl := rfl
@[simp] theorem State.setKslot_cfg (k : Nat) (x : KSlot) : (s.setKslot k x).cfg = s.cfg := rfl
@[simp] theorem State.setKslot_retained (k : Nat) (x : KSlot) : (s.setKslot k x).retained = s.retained := rfl
@[simp] theorem State.setKslot_prc (k : Nat) (x : KSlot) : (s.setKslot k x).prc = s.prc := rfl
@[simp] theorem State.setKslot_mtr (k : Nat) (x : KSlot) : (s.setKslot k x).mtr = s.mtr := rfl
@[simp] theorem State.setKslot_evt (k : Nat) (x : KSlot) : (s.setKslot k x).evt = s.evt := rfl

@[simp] theorem State.setWay_pending (st w : Nat) (x : Option PLine) : (s.setWay st w x).pending = s.pending := rfl
@[simp] theorem State.setWay_free (st w : Nat) (x : Option PLine) : (s.setWay st w x).free = s.free := rfl
@[simp] theorem State.setWay_outbox (st w : Nat) (x : Option PLine) : (s.setWay st w x).outbox = s.outbox := rfl
@[simp] theorem State.setWay_regs (st w : Nat) (x : Option PLine) : (s.setWay st w x).regs = s.regs := rfl
@[simp] theorem State.setWay_latchRd (st w : Nat) (x : Option PLine) : (s.setWay st w x).latchRd = s.latchRd := rfl
@[simp] theorem State.setWay_latchWr (st w : Nat) (x : Option PLine) : (s.setWay st w x).latchWr = s.latchWr := rfl
@[simp] theorem State.setWay_mem (st w : Nat) (x : Option PLine) : (s.setWay st w x).mem = s.mem := rfl
@[simp] theorem State.setWay_cores (st w : Nat) (x : Option PLine) : (s.setWay st w x).cores = s.cores := rfl
@[simp] theorem State.setWay_sdt (st w : Nat) (x : Option PLine) : (s.setWay st w x).sdt = s.sdt := rfl
@[simp] theorem State.setWay_clr (st w : Nat) (x : Option PLine) : (s.setWay st w x).clr = s.clr := rfl
@[simp] theorem State.setWay_tch (st w : Nat) (x : Option PLine) : (s.setWay st w x).tch = s.tch := rfl
@[simp] theorem State.setWay_eth (st w : Nat) (x : Option PLine) : (s.setWay st w x).eth = s.eth := rfl
@[simp] theorem State.setWay_ses (st w : Nat) (x : Option PLine) : (s.setWay st w x).ses = s.ses := rfl
@[simp] theorem State.setWay_sec (st w : Nat) (x : Option PLine) : (s.setWay st w x).sec = s.sec := rfl
@[simp] theorem State.setWay_trl (st w : Nat) (x : Option PLine) : (s.setWay st w x).trl = s.trl := rfl
@[simp] theorem State.setWay_cfg (st w : Nat) (x : Option PLine) : (s.setWay st w x).cfg = s.cfg := rfl
@[simp] theorem State.setWay_retained (st w : Nat) (x : Option PLine) : (s.setWay st w x).retained = s.retained := rfl
@[simp] theorem State.setWay_prc (st w : Nat) (x : Option PLine) : (s.setWay st w x).prc = s.prc := rfl
@[simp] theorem State.setWay_mtr (st w : Nat) (x : Option PLine) : (s.setWay st w x).mtr = s.mtr := rfl
@[simp] theorem State.setWay_evt (st w : Nat) (x : Option PLine) : (s.setWay st w x).evt = s.evt := rfl

@[simp] theorem State.zeroRange_pending (a n : Nat) : (s.zeroRange a n).pending = s.pending := rfl
@[simp] theorem State.zeroRange_free (a n : Nat) : (s.zeroRange a n).free = s.free := rfl
@[simp] theorem State.zeroRange_outbox (a n : Nat) : (s.zeroRange a n).outbox = s.outbox := rfl
@[simp] theorem State.zeroRange_regs (a n : Nat) : (s.zeroRange a n).regs = s.regs := rfl
@[simp] theorem State.zeroRange_latchRd (a n : Nat) : (s.zeroRange a n).latchRd = s.latchRd := rfl
@[simp] theorem State.zeroRange_latchWr (a n : Nat) : (s.zeroRange a n).latchWr = s.latchWr := rfl
@[simp] theorem State.zeroRange_cores (a n : Nat) : (s.zeroRange a n).cores = s.cores := rfl
@[simp] theorem State.zeroRange_sdt (a n : Nat) : (s.zeroRange a n).sdt = s.sdt := rfl
@[simp] theorem State.zeroRange_pnt (a n : Nat) : (s.zeroRange a n).pnt = s.pnt := rfl
@[simp] theorem State.zeroRange_clr (a n : Nat) : (s.zeroRange a n).clr = s.clr := rfl
@[simp] theorem State.zeroRange_tch (a n : Nat) : (s.zeroRange a n).tch = s.tch := rfl
@[simp] theorem State.zeroRange_eth (a n : Nat) : (s.zeroRange a n).eth = s.eth := rfl
@[simp] theorem State.zeroRange_ses (a n : Nat) : (s.zeroRange a n).ses = s.ses := rfl
@[simp] theorem State.zeroRange_sec (a n : Nat) : (s.zeroRange a n).sec = s.sec := rfl
@[simp] theorem State.zeroRange_trl (a n : Nat) : (s.zeroRange a n).trl = s.trl := rfl
@[simp] theorem State.zeroRange_cfg (a n : Nat) : (s.zeroRange a n).cfg = s.cfg := rfl
@[simp] theorem State.zeroRange_retained (a n : Nat) : (s.zeroRange a n).retained = s.retained := rfl
@[simp] theorem State.zeroRange_prc (a n : Nat) : (s.zeroRange a n).prc = s.prc := rfl
@[simp] theorem State.zeroRange_mtr (a n : Nat) : (s.zeroRange a n).mtr = s.mtr := rfl
@[simp] theorem State.zeroRange_evt (a n : Nat) : (s.zeroRange a n).evt = s.evt := rfl

@[simp] theorem State.modSess_pending (n : Nat) (f : Session → Session) : (s.modSess n f).pending = s.pending := by
  unfold State.modSess; split <;> rfl
@[simp] theorem State.modSess_free (n : Nat) (f : Session → Session) : (s.modSess n f).free = s.free := by
  unfold State.modSess; split <;> rfl
@[simp] theorem State.modSess_outbox (n : Nat) (f : Session → Session) : (s.modSess n f).outbox = s.outbox := by
  unfold State.modSess; split <;> rfl
@[simp] theorem State.modSess_regs (n : Nat) (f : Session → Session) : (s.modSess n f).regs = s.regs := by
  unfold State.modSess; split <;> rfl
@[simp] theorem State.modSess_latchRd (n : Nat) (f : Session → Session) : (s.modSess n f).latchRd = s.latchRd := by
  unfold State.modSess; split <;> rfl
@[simp] theorem State.modSess_latchWr (n : Nat) (f : Session → Session) : (s.modSess n f).latchWr = s.latchWr := by
  unfold State.modSess; split <;> rfl
@[simp] theorem State.modSess_mem (n : Nat) (f : Session → Session) : (s.modSess n f).mem = s.mem := by
  unfold State.modSess; split <;> rfl
@[simp] theorem State.modSess_cores (n : Nat) (f : Session → Session) : (s.modSess n f).cores = s.cores := by
  unfold State.modSess; split <;> rfl
@[simp] theorem State.modSess_sdt (n : Nat) (f : Session → Session) : (s.modSess n f).sdt = s.sdt := by
  unfold State.modSess; split <;> rfl
@[simp] theorem State.modSess_pnt (n : Nat) (f : Session → Session) : (s.modSess n f).pnt = s.pnt := by
  unfold State.modSess; split <;> rfl
@[simp] theorem State.modSess_clr (n : Nat) (f : Session → Session) : (s.modSess n f).clr = s.clr := by
  unfold State.modSess; split <;> rfl
@[simp] theorem State.modSess_tch (n : Nat) (f : Session → Session) : (s.modSess n f).tch = s.tch := by
  unfold State.modSess; split <;> rfl
@[simp] theorem State.modSess_eth (n : Nat) (f : Session → Session) : (s.modSess n f).eth = s.eth := by
  unfold State.modSess; split <;> rfl
@[simp] theorem State.modSess_sec (n : Nat) (f : Session → Session) : (s.modSess n f).sec = s.sec := by
  unfold State.modSess; split <;> rfl
@[simp] theorem State.modSess_trl (n : Nat) (f : Session → Session) : (s.modSess n f).trl = s.trl := by
  unfold State.modSess; split <;> rfl
@[simp] theorem State.modSess_cfg (n : Nat) (f : Session → Session) : (s.modSess n f).cfg = s.cfg := by
  unfold State.modSess; split <;> rfl
@[simp] theorem State.modSess_retained (n : Nat) (f : Session → Session) : (s.modSess n f).retained = s.retained := by
  unfold State.modSess; split <;> rfl
@[simp] theorem State.modSess_prc (n : Nat) (f : Session → Session) : (s.modSess n f).prc = s.prc := by
  unfold State.modSess; split <;> rfl
@[simp] theorem State.modSess_mtr (n : Nat) (f : Session → Session) : (s.modSess n f).mtr = s.mtr := by
  unfold State.modSess; split <;> rfl
@[simp] theorem State.modSess_evt (n : Nat) (f : Session → Session) : (s.modSess n f).evt = s.evt := by
  unfold State.modSess; split <;> rfl

/-! ### Read back -/

@[simp] theorem State.core_setCore_self (c : Nat) (x : Core) : (s.setCore c x).core c = x := Sparse.get_put_self _ _ _ _
theorem State.core_setCore_ne {c d : Nat} (x : Core) (h : d ≠ c) : (s.setCore c x).core d = s.core d :=
  Sparse.get_put_ne _ _ _ _ h
@[simp] theorem State.core_modCore_self (c : Nat) (f : Core → Core) : (s.modCore c f).core c = f (s.core c) :=
  Sparse.get_put_self _ _ _ _
theorem State.core_modCore_ne {c d : Nat} (f : Core → Core) (h : d ≠ c) : (s.modCore c f).core d = s.core d :=
  Sparse.get_put_ne _ _ _ _ h
@[simp] theorem Core.tile_modTile_self (k : Core) (h : Nat) (f : Tile → Tile) : (k.modTile h f).tile h = f (k.tile h) :=
  Sparse.get_put_self _ _ _ _
theorem Core.tile_modTile_ne (k : Core) {h j : Nat} (f : Tile → Tile) (n : j ≠ h) : (k.modTile h f).tile j = k.tile j :=
  Sparse.get_put_ne _ _ _ _ n
@[simp] theorem State.tile_modTile_self (c h : Nat) (f : Tile → Tile) : (s.modTile c h f).tile c h = f (s.tile c h) := by
  simp [State.modTile, State.tile]
theorem State.tile_modTile_ne {c h j : Nat} (f : Tile → Tile) (n : j ≠ h) : (s.modTile c h f).tile c j = s.tile c j := by
  simp [State.modTile, State.tile, Core.tile_modTile_ne _ _ n]
@[simp] theorem State.slot_setSlot_self (c n : Nat) (x : Slot) : (s.setSlot c n x).slot c n = x := by
  simp [State.setSlot, State.slot]
theorem State.slot_setSlot_ne {c n m : Nat} (x : Slot) (h : m ≠ n) : (s.setSlot c n x).slot c m = s.slot c m := by
  simp [State.setSlot, State.slot, Sparse.get_put_ne _ _ _ _ h]
@[simp] theorem State.chan_modChan_self (c n : Nat) (f : Chan → Chan) : (s.modChan c n f).chan c n = f (s.chan c n) := by
  simp [State.modChan, State.chan]
theorem State.chan_modChan_ne {c n m : Nat} (f : Chan → Chan) (h : m ≠ n) : (s.modChan c n f).chan c m = s.chan c m := by
  simp [State.modChan, State.chan, Sparse.get_put_ne _ _ _ _ h]
@[simp] theorem State.disp_modDisp_self (d : Nat) (f : Disp → Disp) : (s.modDisp d f).disp d = f (s.disp d) :=
  Sparse.get_put_self _ _ _ _
theorem State.disp_modDisp_ne {d e : Nat} (f : Disp → Disp) (h : e ≠ d) : (s.modDisp d f).disp e = s.disp e :=
  Sparse.get_put_ne _ _ _ _ h
@[simp] theorem State.port_modPort_self (p : Nat) (f : Port → Port) : (s.modPort p f).port p = f (s.port p) :=
  Sparse.get_put_self _ _ _ _
theorem State.port_modPort_ne {p q : Nat} (f : Port → Port) (h : q ≠ p) : (s.modPort p f).port q = s.port q :=
  Sparse.get_put_ne _ _ _ _ h
@[simp] theorem State.group_modGroup_self (g : Nat) (f : Group → Group) : (s.modGroup g f).group g = f (s.group g) :=
  Sparse.get_put_self _ _ _ _
theorem State.group_modGroup_ne {g k : Nat} (f : Group → Group) (h : k ≠ g) : (s.modGroup g f).group k = s.group k :=
  Sparse.get_put_ne _ _ _ _ h
@[simp] theorem State.ethp_modEth_self (p : Nat) (f : Eth → Eth) : (s.modEth p f).ethp p = f (s.ethp p) :=
  Sparse.get_put_self _ _ _ _
theorem State.ethp_modEth_ne {p q : Nat} (f : Eth → Eth) (h : q ≠ p) : (s.modEth p f).ethp q = s.ethp q :=
  Sparse.get_put_ne _ _ _ _ h
@[simp] theorem State.sess_modSess_self (n : Nat) (f : Session → Session) : (s.modSess n f).sess n = f (s.sess n) := by
  by_cases h : n < 65536 <;> simp [State.modSess, State.sess, h]
theorem State.sess_modSess_ne {n m : Nat} (f : Session → Session) (h : m ≠ n) : (s.modSess n f).sess m = s.sess m := by
  by_cases h1 : n < 65536 <;> by_cases h2 : m < 65536 <;> simp [State.modSess, State.sess, h1, h2] <;>
    exact Sparse.get_put_ne _ _ _ _ (by omega)
@[simp] theorem State.quad_setQuad_self (q : Nat) (x : QuadSt) : (s.setQuad q x).quad q = x := Sparse.get_put_self _ _ _ _
theorem State.quad_setQuad_ne {q r : Nat} (x : QuadSt) (h : r ≠ q) : (s.setQuad q x).quad r = s.quad r :=
  Sparse.get_put_ne _ _ _ _ h
@[simp] theorem State.byte_setByte_self (a : Nat) (v : Byte) : (s.setByte a v).byte a = v := Sparse.get_put_self _ _ _ _
theorem State.byte_setByte_ne {a b : Nat} (v : Byte) (h : b ≠ a) : (s.setByte a v).byte b = s.byte b :=
  Sparse.get_put_ne _ _ _ _ h
@[simp] theorem State.rg_setRg_self (n : RegName) (c i j : Nat) (v : W32) : (s.setRg n c i j v).rg n c i j = v :=
  Sparse.get_put_self _ _ _ _
@[simp] theorem State.kslot_setKslot_self (k : Nat) (x : KSlot) : (s.setKslot k x).kslot k = x := Sparse.get_put_self _ _ _ _

/-! ### Reads through updates of other parts -/

@[simp] theorem State.core_setRg (n : RegName) (c i j : Nat) (v : W32) (cx : Nat) : (s.setRg n c i j v).core cx = s.core cx := rfl
@[simp] theorem State.core_setRgHi (n : RegName) (c i j : Nat) (v : W32) (cx : Nat) : (s.setRgHi n c i j v).core cx = s.core cx := rfl
@[simp] theorem State.core_setRg64 (n : RegName) (c i j v : Nat) (cx : Nat) : (s.setRg64 n c i j v).core cx = s.core cx := rfl
@[simp] theorem State.core_count (n : RegName) (c i k : Nat) (cx : Nat) : (s.count n c i k).core cx = s.core cx := rfl
@[simp] theorem State.core_count16 (n : RegName) (c i k : Nat) (cx : Nat) : (s.count16 n c i k).core cx = s.core cx := rfl
@[simp] theorem State.core_count64 (n : RegName) (c k : Nat) (cx : Nat) : (s.count64 n c k).core cx = s.core cx := rfl
@[simp] theorem State.core_modDisp (d : Nat) (f : Disp → Disp) (cx : Nat) : (s.modDisp d f).core cx = s.core cx := rfl
@[simp] theorem State.core_modPort (p : Nat) (f : Port → Port) (cx : Nat) : (s.modPort p f).core cx = s.core cx := rfl
@[simp] theorem State.core_modGroup (g : Nat) (f : Group → Group) (cx : Nat) : (s.modGroup g f).core cx = s.core cx := rfl
@[simp] theorem State.core_modEth (p : Nat) (f : Eth → Eth) (cx : Nat) : (s.modEth p f).core cx = s.core cx := rfl
@[simp] theorem State.core_send (o : Out) (cx : Nat) : (s.send o).core cx = s.core cx := rfl
@[simp] theorem State.core_setQuad (q : Nat) (x : QuadSt) (cx : Nat) : (s.setQuad q x).core cx = s.core cx := rfl
@[simp] theorem State.core_setByte (a : Nat) (v : Byte) (cx : Nat) : (s.setByte a v).core cx = s.core cx := rfl
@[simp] theorem State.core_setKslot (k : Nat) (x : KSlot) (cx : Nat) : (s.setKslot k x).core cx = s.core cx := rfl
@[simp] theorem State.core_setWay (st w : Nat) (x : Option PLine) (cx : Nat) : (s.setWay st w x).core cx = s.core cx := rfl
@[simp] theorem State.core_zeroRange (a n : Nat) (cx : Nat) : (s.zeroRange a n).core cx = s.core cx := rfl
@[simp] theorem State.core_modSess (n : Nat) (f : Session → Session) (cx : Nat) : (s.modSess n f).core cx = s.core cx := by
  unfold State.modSess; split <;> rfl
@[simp] theorem State.tile_setRg (n : RegName) (c i j : Nat) (v : W32) (cx hx : Nat) : (s.setRg n c i j v).tile cx hx = s.tile cx hx := rfl
@[simp] theorem State.tile_setRgHi (n : RegName) (c i j : Nat) (v : W32) (cx hx : Nat) : (s.setRgHi n c i j v).tile cx hx = s.tile cx hx := rfl
@[simp] theorem State.tile_setRg64 (n : RegName) (c i j v : Nat) (cx hx : Nat) : (s.setRg64 n c i j v).tile cx hx = s.tile cx hx := rfl
@[simp] theorem State.tile_count (n : RegName) (c i k : Nat) (cx hx : Nat) : (s.count n c i k).tile cx hx = s.tile cx hx := rfl
@[simp] theorem State.tile_count16 (n : RegName) (c i k : Nat) (cx hx : Nat) : (s.count16 n c i k).tile cx hx = s.tile cx hx := rfl
@[simp] theorem State.tile_count64 (n : RegName) (c k : Nat) (cx hx : Nat) : (s.count64 n c k).tile cx hx = s.tile cx hx := rfl
@[simp] theorem State.tile_modDisp (d : Nat) (f : Disp → Disp) (cx hx : Nat) : (s.modDisp d f).tile cx hx = s.tile cx hx := rfl
@[simp] theorem State.tile_modPort (p : Nat) (f : Port → Port) (cx hx : Nat) : (s.modPort p f).tile cx hx = s.tile cx hx := rfl
@[simp] theorem State.tile_modGroup (g : Nat) (f : Group → Group) (cx hx : Nat) : (s.modGroup g f).tile cx hx = s.tile cx hx := rfl
@[simp] theorem State.tile_modEth (p : Nat) (f : Eth → Eth) (cx hx : Nat) : (s.modEth p f).tile cx hx = s.tile cx hx := rfl
@[simp] theorem State.tile_send (o : Out) (cx hx : Nat) : (s.send o).tile cx hx = s.tile cx hx := rfl
@[simp] theorem State.tile_setQuad (q : Nat) (x : QuadSt) (cx hx : Nat) : (s.setQuad q x).tile cx hx = s.tile cx hx := rfl
@[simp] theorem State.tile_setByte (a : Nat) (v : Byte) (cx hx : Nat) : (s.setByte a v).tile cx hx = s.tile cx hx := rfl
@[simp] theorem State.tile_setKslot (k : Nat) (x : KSlot) (cx hx : Nat) : (s.setKslot k x).tile cx hx = s.tile cx hx := rfl
@[simp] theorem State.tile_setWay (st w : Nat) (x : Option PLine) (cx hx : Nat) : (s.setWay st w x).tile cx hx = s.tile cx hx := rfl
@[simp] theorem State.tile_zeroRange (a n : Nat) (cx hx : Nat) : (s.zeroRange a n).tile cx hx = s.tile cx hx := rfl
@[simp] theorem State.tile_modSess (n : Nat) (f : Session → Session) (cx hx : Nat) : (s.modSess n f).tile cx hx = s.tile cx hx := by
  unfold State.modSess; split <;> rfl
@[simp] theorem State.slot_setRg (n : RegName) (c i j : Nat) (v : W32) (cx nx : Nat) : (s.setRg n c i j v).slot cx nx = s.slot cx nx := rfl
@[simp] theorem State.slot_setRgHi (n : RegName) (c i j : Nat) (v : W32) (cx nx : Nat) : (s.setRgHi n c i j v).slot cx nx = s.slot cx nx := rfl
@[simp] theorem State.slot_setRg64 (n : RegName) (c i j v : Nat) (cx nx : Nat) : (s.setRg64 n c i j v).slot cx nx = s.slot cx nx := rfl
@[simp] theorem State.slot_count (n : RegName) (c i k : Nat) (cx nx : Nat) : (s.count n c i k).slot cx nx = s.slot cx nx := rfl
@[simp] theorem State.slot_count16 (n : RegName) (c i k : Nat) (cx nx : Nat) : (s.count16 n c i k).slot cx nx = s.slot cx nx := rfl
@[simp] theorem State.slot_count64 (n : RegName) (c k : Nat) (cx nx : Nat) : (s.count64 n c k).slot cx nx = s.slot cx nx := rfl
@[simp] theorem State.slot_modDisp (d : Nat) (f : Disp → Disp) (cx nx : Nat) : (s.modDisp d f).slot cx nx = s.slot cx nx := rfl
@[simp] theorem State.slot_modPort (p : Nat) (f : Port → Port) (cx nx : Nat) : (s.modPort p f).slot cx nx = s.slot cx nx := rfl
@[simp] theorem State.slot_modGroup (g : Nat) (f : Group → Group) (cx nx : Nat) : (s.modGroup g f).slot cx nx = s.slot cx nx := rfl
@[simp] theorem State.slot_modEth (p : Nat) (f : Eth → Eth) (cx nx : Nat) : (s.modEth p f).slot cx nx = s.slot cx nx := rfl
@[simp] theorem State.slot_send (o : Out) (cx nx : Nat) : (s.send o).slot cx nx = s.slot cx nx := rfl
@[simp] theorem State.slot_setQuad (q : Nat) (x : QuadSt) (cx nx : Nat) : (s.setQuad q x).slot cx nx = s.slot cx nx := rfl
@[simp] theorem State.slot_setByte (a : Nat) (v : Byte) (cx nx : Nat) : (s.setByte a v).slot cx nx = s.slot cx nx := rfl
@[simp] theorem State.slot_setKslot (k : Nat) (x : KSlot) (cx nx : Nat) : (s.setKslot k x).slot cx nx = s.slot cx nx := rfl
@[simp] theorem State.slot_setWay (st w : Nat) (x : Option PLine) (cx nx : Nat) : (s.setWay st w x).slot cx nx = s.slot cx nx := rfl
@[simp] theorem State.slot_zeroRange (a n : Nat) (cx nx : Nat) : (s.zeroRange a n).slot cx nx = s.slot cx nx := rfl
@[simp] theorem State.slot_modSess (n : Nat) (f : Session → Session) (cx nx : Nat) : (s.modSess n f).slot cx nx = s.slot cx nx := by
  unfold State.modSess; split <;> rfl
@[simp] theorem State.chan_setRg (n : RegName) (c i j : Nat) (v : W32) (cx nx : Nat) : (s.setRg n c i j v).chan cx nx = s.chan cx nx := rfl
@[simp] theorem State.chan_setRgHi (n : RegName) (c i j : Nat) (v : W32) (cx nx : Nat) : (s.setRgHi n c i j v).chan cx nx = s.chan cx nx := rfl
@[simp] theorem State.chan_setRg64 (n : RegName) (c i j v : Nat) (cx nx : Nat) : (s.setRg64 n c i j v).chan cx nx = s.chan cx nx := rfl
@[simp] theorem State.chan_count (n : RegName) (c i k : Nat) (cx nx : Nat) : (s.count n c i k).chan cx nx = s.chan cx nx := rfl
@[simp] theorem State.chan_count16 (n : RegName) (c i k : Nat) (cx nx : Nat) : (s.count16 n c i k).chan cx nx = s.chan cx nx := rfl
@[simp] theorem State.chan_count64 (n : RegName) (c k : Nat) (cx nx : Nat) : (s.count64 n c k).chan cx nx = s.chan cx nx := rfl
@[simp] theorem State.chan_modDisp (d : Nat) (f : Disp → Disp) (cx nx : Nat) : (s.modDisp d f).chan cx nx = s.chan cx nx := rfl
@[simp] theorem State.chan_modPort (p : Nat) (f : Port → Port) (cx nx : Nat) : (s.modPort p f).chan cx nx = s.chan cx nx := rfl
@[simp] theorem State.chan_modGroup (g : Nat) (f : Group → Group) (cx nx : Nat) : (s.modGroup g f).chan cx nx = s.chan cx nx := rfl
@[simp] theorem State.chan_modEth (p : Nat) (f : Eth → Eth) (cx nx : Nat) : (s.modEth p f).chan cx nx = s.chan cx nx := rfl
@[simp] theorem State.chan_send (o : Out) (cx nx : Nat) : (s.send o).chan cx nx = s.chan cx nx := rfl
@[simp] theorem State.chan_setQuad (q : Nat) (x : QuadSt) (cx nx : Nat) : (s.setQuad q x).chan cx nx = s.chan cx nx := rfl
@[simp] theorem State.chan_setByte (a : Nat) (v : Byte) (cx nx : Nat) : (s.setByte a v).chan cx nx = s.chan cx nx := rfl
@[simp] theorem State.chan_setKslot (k : Nat) (x : KSlot) (cx nx : Nat) : (s.setKslot k x).chan cx nx = s.chan cx nx := rfl
@[simp] theorem State.chan_setWay (st w : Nat) (x : Option PLine) (cx nx : Nat) : (s.setWay st w x).chan cx nx = s.chan cx nx := rfl
@[simp] theorem State.chan_zeroRange (a n : Nat) (cx nx : Nat) : (s.zeroRange a n).chan cx nx = s.chan cx nx := rfl
@[simp] theorem State.chan_modSess (n : Nat) (f : Session → Session) (cx nx : Nat) : (s.modSess n f).chan cx nx = s.chan cx nx := by
  unfold State.modSess; split <;> rfl
@[simp] theorem State.disp_setRg (n : RegName) (c i j : Nat) (v : W32) (dx : Nat) : (s.setRg n c i j v).disp dx = s.disp dx := rfl
@[simp] theorem State.disp_setRgHi (n : RegName) (c i j : Nat) (v : W32) (dx : Nat) : (s.setRgHi n c i j v).disp dx = s.disp dx := rfl
@[simp] theorem State.disp_setRg64 (n : RegName) (c i j v : Nat) (dx : Nat) : (s.setRg64 n c i j v).disp dx = s.disp dx := rfl
@[simp] theorem State.disp_count (n : RegName) (c i k : Nat) (dx : Nat) : (s.count n c i k).disp dx = s.disp dx := rfl
@[simp] theorem State.disp_count16 (n : RegName) (c i k : Nat) (dx : Nat) : (s.count16 n c i k).disp dx = s.disp dx := rfl
@[simp] theorem State.disp_count64 (n : RegName) (c k : Nat) (dx : Nat) : (s.count64 n c k).disp dx = s.disp dx := rfl
@[simp] theorem State.disp_setCore (c : Nat) (x : Core) (dx : Nat) : (s.setCore c x).disp dx = s.disp dx := rfl
@[simp] theorem State.disp_modCore (c : Nat) (f : Core → Core) (dx : Nat) : (s.modCore c f).disp dx = s.disp dx := rfl
@[simp] theorem State.disp_modTile (c h : Nat) (f : Tile → Tile) (dx : Nat) : (s.modTile c h f).disp dx = s.disp dx := rfl
@[simp] theorem State.disp_modSeq (c : Nat) (f : Seq → Seq) (dx : Nat) : (s.modSeq c f).disp dx = s.disp dx := rfl
@[simp] theorem State.disp_modArr (c : Nat) (f : Arr → Arr) (dx : Nat) : (s.modArr c f).disp dx = s.disp dx := rfl
@[simp] theorem State.disp_modVec (c : Nat) (f : Vec → Vec) (dx : Nat) : (s.modVec c f).disp dx = s.disp dx := rfl
@[simp] theorem State.disp_modChan (c ch : Nat) (f : Chan → Chan) (dx : Nat) : (s.modChan c ch f).disp dx = s.disp dx := rfl
@[simp] theorem State.disp_setSlot (c n : Nat) (x : Slot) (dx : Nat) : (s.setSlot c n x).disp dx = s.disp dx := rfl
@[simp] theorem State.disp_act (c j n : Nat) (dx : Nat) : (s.act c j n).disp dx = s.disp dx := rfl
@[simp] theorem State.disp_modPort (p : Nat) (f : Port → Port) (dx : Nat) : (s.modPort p f).disp dx = s.disp dx := rfl
@[simp] theorem State.disp_modGroup (g : Nat) (f : Group → Group) (dx : Nat) : (s.modGroup g f).disp dx = s.disp dx := rfl
@[simp] theorem State.disp_modEth (p : Nat) (f : Eth → Eth) (dx : Nat) : (s.modEth p f).disp dx = s.disp dx := rfl
@[simp] theorem State.disp_send (o : Out) (dx : Nat) : (s.send o).disp dx = s.disp dx := rfl
@[simp] theorem State.disp_setQuad (q : Nat) (x : QuadSt) (dx : Nat) : (s.setQuad q x).disp dx = s.disp dx := rfl
@[simp] theorem State.disp_setByte (a : Nat) (v : Byte) (dx : Nat) : (s.setByte a v).disp dx = s.disp dx := rfl
@[simp] theorem State.disp_setKslot (k : Nat) (x : KSlot) (dx : Nat) : (s.setKslot k x).disp dx = s.disp dx := rfl
@[simp] theorem State.disp_setWay (st w : Nat) (x : Option PLine) (dx : Nat) : (s.setWay st w x).disp dx = s.disp dx := rfl
@[simp] theorem State.disp_zeroRange (a n : Nat) (dx : Nat) : (s.zeroRange a n).disp dx = s.disp dx := rfl
@[simp] theorem State.disp_modSess (n : Nat) (f : Session → Session) (dx : Nat) : (s.modSess n f).disp dx = s.disp dx := by
  unfold State.modSess; split <;> rfl
@[simp] theorem State.port_setRg (n : RegName) (c i j : Nat) (v : W32) (px : Nat) : (s.setRg n c i j v).port px = s.port px := rfl
@[simp] theorem State.port_setRgHi (n : RegName) (c i j : Nat) (v : W32) (px : Nat) : (s.setRgHi n c i j v).port px = s.port px := rfl
@[simp] theorem State.port_setRg64 (n : RegName) (c i j v : Nat) (px : Nat) : (s.setRg64 n c i j v).port px = s.port px := rfl
@[simp] theorem State.port_count (n : RegName) (c i k : Nat) (px : Nat) : (s.count n c i k).port px = s.port px := rfl
@[simp] theorem State.port_count16 (n : RegName) (c i k : Nat) (px : Nat) : (s.count16 n c i k).port px = s.port px := rfl
@[simp] theorem State.port_count64 (n : RegName) (c k : Nat) (px : Nat) : (s.count64 n c k).port px = s.port px := rfl
@[simp] theorem State.port_setCore (c : Nat) (x : Core) (px : Nat) : (s.setCore c x).port px = s.port px := rfl
@[simp] theorem State.port_modCore (c : Nat) (f : Core → Core) (px : Nat) : (s.modCore c f).port px = s.port px := rfl
@[simp] theorem State.port_modTile (c h : Nat) (f : Tile → Tile) (px : Nat) : (s.modTile c h f).port px = s.port px := rfl
@[simp] theorem State.port_modSeq (c : Nat) (f : Seq → Seq) (px : Nat) : (s.modSeq c f).port px = s.port px := rfl
@[simp] theorem State.port_modArr (c : Nat) (f : Arr → Arr) (px : Nat) : (s.modArr c f).port px = s.port px := rfl
@[simp] theorem State.port_modVec (c : Nat) (f : Vec → Vec) (px : Nat) : (s.modVec c f).port px = s.port px := rfl
@[simp] theorem State.port_modChan (c ch : Nat) (f : Chan → Chan) (px : Nat) : (s.modChan c ch f).port px = s.port px := rfl
@[simp] theorem State.port_setSlot (c n : Nat) (x : Slot) (px : Nat) : (s.setSlot c n x).port px = s.port px := rfl
@[simp] theorem State.port_act (c j n : Nat) (px : Nat) : (s.act c j n).port px = s.port px := rfl
@[simp] theorem State.port_modDisp (d : Nat) (f : Disp → Disp) (px : Nat) : (s.modDisp d f).port px = s.port px := rfl
@[simp] theorem State.port_modEth (p : Nat) (f : Eth → Eth) (px : Nat) : (s.modEth p f).port px = s.port px := rfl
@[simp] theorem State.port_send (o : Out) (px : Nat) : (s.send o).port px = s.port px := rfl
@[simp] theorem State.port_setQuad (q : Nat) (x : QuadSt) (px : Nat) : (s.setQuad q x).port px = s.port px := rfl
@[simp] theorem State.port_setByte (a : Nat) (v : Byte) (px : Nat) : (s.setByte a v).port px = s.port px := rfl
@[simp] theorem State.port_setKslot (k : Nat) (x : KSlot) (px : Nat) : (s.setKslot k x).port px = s.port px := rfl
@[simp] theorem State.port_setWay (st w : Nat) (x : Option PLine) (px : Nat) : (s.setWay st w x).port px = s.port px := rfl
@[simp] theorem State.port_zeroRange (a n : Nat) (px : Nat) : (s.zeroRange a n).port px = s.port px := rfl
@[simp] theorem State.port_modSess (n : Nat) (f : Session → Session) (px : Nat) : (s.modSess n f).port px = s.port px := by
  unfold State.modSess; split <;> rfl
@[simp] theorem State.group_setRg (n : RegName) (c i j : Nat) (v : W32) (gx : Nat) : (s.setRg n c i j v).group gx = s.group gx := rfl
@[simp] theorem State.group_setRgHi (n : RegName) (c i j : Nat) (v : W32) (gx : Nat) : (s.setRgHi n c i j v).group gx = s.group gx := rfl
@[simp] theorem State.group_setRg64 (n : RegName) (c i j v : Nat) (gx : Nat) : (s.setRg64 n c i j v).group gx = s.group gx := rfl
@[simp] theorem State.group_count (n : RegName) (c i k : Nat) (gx : Nat) : (s.count n c i k).group gx = s.group gx := rfl
@[simp] theorem State.group_count16 (n : RegName) (c i k : Nat) (gx : Nat) : (s.count16 n c i k).group gx = s.group gx := rfl
@[simp] theorem State.group_count64 (n : RegName) (c k : Nat) (gx : Nat) : (s.count64 n c k).group gx = s.group gx := rfl
@[simp] theorem State.group_setCore (c : Nat) (x : Core) (gx : Nat) : (s.setCore c x).group gx = s.group gx := rfl
@[simp] theorem State.group_modCore (c : Nat) (f : Core → Core) (gx : Nat) : (s.modCore c f).group gx = s.group gx := rfl
@[simp] theorem State.group_modTile (c h : Nat) (f : Tile → Tile) (gx : Nat) : (s.modTile c h f).group gx = s.group gx := rfl
@[simp] theorem State.group_modSeq (c : Nat) (f : Seq → Seq) (gx : Nat) : (s.modSeq c f).group gx = s.group gx := rfl
@[simp] theorem State.group_modArr (c : Nat) (f : Arr → Arr) (gx : Nat) : (s.modArr c f).group gx = s.group gx := rfl
@[simp] theorem State.group_modVec (c : Nat) (f : Vec → Vec) (gx : Nat) : (s.modVec c f).group gx = s.group gx := rfl
@[simp] theorem State.group_modChan (c ch : Nat) (f : Chan → Chan) (gx : Nat) : (s.modChan c ch f).group gx = s.group gx := rfl
@[simp] theorem State.group_setSlot (c n : Nat) (x : Slot) (gx : Nat) : (s.setSlot c n x).group gx = s.group gx := rfl
@[simp] theorem State.group_act (c j n : Nat) (gx : Nat) : (s.act c j n).group gx = s.group gx := rfl
@[simp] theorem State.group_modDisp (d : Nat) (f : Disp → Disp) (gx : Nat) : (s.modDisp d f).group gx = s.group gx := rfl
@[simp] theorem State.group_modEth (p : Nat) (f : Eth → Eth) (gx : Nat) : (s.modEth p f).group gx = s.group gx := rfl
@[simp] theorem State.group_send (o : Out) (gx : Nat) : (s.send o).group gx = s.group gx := rfl
@[simp] theorem State.group_setQuad (q : Nat) (x : QuadSt) (gx : Nat) : (s.setQuad q x).group gx = s.group gx := rfl
@[simp] theorem State.group_setByte (a : Nat) (v : Byte) (gx : Nat) : (s.setByte a v).group gx = s.group gx := rfl
@[simp] theorem State.group_setKslot (k : Nat) (x : KSlot) (gx : Nat) : (s.setKslot k x).group gx = s.group gx := rfl
@[simp] theorem State.group_setWay (st w : Nat) (x : Option PLine) (gx : Nat) : (s.setWay st w x).group gx = s.group gx := rfl
@[simp] theorem State.group_zeroRange (a n : Nat) (gx : Nat) : (s.zeroRange a n).group gx = s.group gx := rfl
@[simp] theorem State.group_modSess (n : Nat) (f : Session → Session) (gx : Nat) : (s.modSess n f).group gx = s.group gx := by
  unfold State.modSess; split <;> rfl
@[simp] theorem State.ethp_setRg (n : RegName) (c i j : Nat) (v : W32) (px : Nat) : (s.setRg n c i j v).ethp px = s.ethp px := rfl
@[simp] theorem State.ethp_setRgHi (n : RegName) (c i j : Nat) (v : W32) (px : Nat) : (s.setRgHi n c i j v).ethp px = s.ethp px := rfl
@[simp] theorem State.ethp_setRg64 (n : RegName) (c i j v : Nat) (px : Nat) : (s.setRg64 n c i j v).ethp px = s.ethp px := rfl
@[simp] theorem State.ethp_count (n : RegName) (c i k : Nat) (px : Nat) : (s.count n c i k).ethp px = s.ethp px := rfl
@[simp] theorem State.ethp_count16 (n : RegName) (c i k : Nat) (px : Nat) : (s.count16 n c i k).ethp px = s.ethp px := rfl
@[simp] theorem State.ethp_count64 (n : RegName) (c k : Nat) (px : Nat) : (s.count64 n c k).ethp px = s.ethp px := rfl
@[simp] theorem State.ethp_setCore (c : Nat) (x : Core) (px : Nat) : (s.setCore c x).ethp px = s.ethp px := rfl
@[simp] theorem State.ethp_modCore (c : Nat) (f : Core → Core) (px : Nat) : (s.modCore c f).ethp px = s.ethp px := rfl
@[simp] theorem State.ethp_modTile (c h : Nat) (f : Tile → Tile) (px : Nat) : (s.modTile c h f).ethp px = s.ethp px := rfl
@[simp] theorem State.ethp_modSeq (c : Nat) (f : Seq → Seq) (px : Nat) : (s.modSeq c f).ethp px = s.ethp px := rfl
@[simp] theorem State.ethp_modArr (c : Nat) (f : Arr → Arr) (px : Nat) : (s.modArr c f).ethp px = s.ethp px := rfl
@[simp] theorem State.ethp_modVec (c : Nat) (f : Vec → Vec) (px : Nat) : (s.modVec c f).ethp px = s.ethp px := rfl
@[simp] theorem State.ethp_modChan (c ch : Nat) (f : Chan → Chan) (px : Nat) : (s.modChan c ch f).ethp px = s.ethp px := rfl
@[simp] theorem State.ethp_setSlot (c n : Nat) (x : Slot) (px : Nat) : (s.setSlot c n x).ethp px = s.ethp px := rfl
@[simp] theorem State.ethp_act (c j n : Nat) (px : Nat) : (s.act c j n).ethp px = s.ethp px := rfl
@[simp] theorem State.ethp_modDisp (d : Nat) (f : Disp → Disp) (px : Nat) : (s.modDisp d f).ethp px = s.ethp px := rfl
@[simp] theorem State.ethp_modPort (p : Nat) (f : Port → Port) (px : Nat) : (s.modPort p f).ethp px = s.ethp px := rfl
@[simp] theorem State.ethp_modGroup (g : Nat) (f : Group → Group) (px : Nat) : (s.modGroup g f).ethp px = s.ethp px := rfl
@[simp] theorem State.ethp_send (o : Out) (px : Nat) : (s.send o).ethp px = s.ethp px := rfl
@[simp] theorem State.ethp_setQuad (q : Nat) (x : QuadSt) (px : Nat) : (s.setQuad q x).ethp px = s.ethp px := rfl
@[simp] theorem State.ethp_setByte (a : Nat) (v : Byte) (px : Nat) : (s.setByte a v).ethp px = s.ethp px := rfl
@[simp] theorem State.ethp_setKslot (k : Nat) (x : KSlot) (px : Nat) : (s.setKslot k x).ethp px = s.ethp px := rfl
@[simp] theorem State.ethp_setWay (st w : Nat) (x : Option PLine) (px : Nat) : (s.setWay st w x).ethp px = s.ethp px := rfl
@[simp] theorem State.ethp_zeroRange (a n : Nat) (px : Nat) : (s.zeroRange a n).ethp px = s.ethp px := rfl
@[simp] theorem State.ethp_modSess (n : Nat) (f : Session → Session) (px : Nat) : (s.modSess n f).ethp px = s.ethp px := by
  unfold State.modSess; split <;> rfl
@[simp] theorem State.byte_setRg (n : RegName) (c i j : Nat) (v : W32) (ax : Nat) : (s.setRg n c i j v).byte ax = s.byte ax := rfl
@[simp] theorem State.byte_setRgHi (n : RegName) (c i j : Nat) (v : W32) (ax : Nat) : (s.setRgHi n c i j v).byte ax = s.byte ax := rfl
@[simp] theorem State.byte_setRg64 (n : RegName) (c i j v : Nat) (ax : Nat) : (s.setRg64 n c i j v).byte ax = s.byte ax := rfl
@[simp] theorem State.byte_count (n : RegName) (c i k : Nat) (ax : Nat) : (s.count n c i k).byte ax = s.byte ax := rfl
@[simp] theorem State.byte_count16 (n : RegName) (c i k : Nat) (ax : Nat) : (s.count16 n c i k).byte ax = s.byte ax := rfl
@[simp] theorem State.byte_count64 (n : RegName) (c k : Nat) (ax : Nat) : (s.count64 n c k).byte ax = s.byte ax := rfl
@[simp] theorem State.byte_setCore (c : Nat) (x : Core) (ax : Nat) : (s.setCore c x).byte ax = s.byte ax := rfl
@[simp] theorem State.byte_modCore (c : Nat) (f : Core → Core) (ax : Nat) : (s.modCore c f).byte ax = s.byte ax := rfl
@[simp] theorem State.byte_modTile (c h : Nat) (f : Tile → Tile) (ax : Nat) : (s.modTile c h f).byte ax = s.byte ax := rfl
@[simp] theorem State.byte_modSeq (c : Nat) (f : Seq → Seq) (ax : Nat) : (s.modSeq c f).byte ax = s.byte ax := rfl
@[simp] theorem State.byte_modArr (c : Nat) (f : Arr → Arr) (ax : Nat) : (s.modArr c f).byte ax = s.byte ax := rfl
@[simp] theorem State.byte_modVec (c : Nat) (f : Vec → Vec) (ax : Nat) : (s.modVec c f).byte ax = s.byte ax := rfl
@[simp] theorem State.byte_modChan (c ch : Nat) (f : Chan → Chan) (ax : Nat) : (s.modChan c ch f).byte ax = s.byte ax := rfl
@[simp] theorem State.byte_setSlot (c n : Nat) (x : Slot) (ax : Nat) : (s.setSlot c n x).byte ax = s.byte ax := rfl
@[simp] theorem State.byte_act (c j n : Nat) (ax : Nat) : (s.act c j n).byte ax = s.byte ax := rfl
@[simp] theorem State.byte_modDisp (d : Nat) (f : Disp → Disp) (ax : Nat) : (s.modDisp d f).byte ax = s.byte ax := rfl
@[simp] theorem State.byte_modPort (p : Nat) (f : Port → Port) (ax : Nat) : (s.modPort p f).byte ax = s.byte ax := rfl
@[simp] theorem State.byte_modGroup (g : Nat) (f : Group → Group) (ax : Nat) : (s.modGroup g f).byte ax = s.byte ax := rfl
@[simp] theorem State.byte_modEth (p : Nat) (f : Eth → Eth) (ax : Nat) : (s.modEth p f).byte ax = s.byte ax := rfl
@[simp] theorem State.byte_send (o : Out) (ax : Nat) : (s.send o).byte ax = s.byte ax := rfl
@[simp] theorem State.byte_setQuad (q : Nat) (x : QuadSt) (ax : Nat) : (s.setQuad q x).byte ax = s.byte ax := rfl
@[simp] theorem State.byte_setKslot (k : Nat) (x : KSlot) (ax : Nat) : (s.setKslot k x).byte ax = s.byte ax := rfl
@[simp] theorem State.byte_setWay (st w : Nat) (x : Option PLine) (ax : Nat) : (s.setWay st w x).byte ax = s.byte ax := rfl
@[simp] theorem State.byte_modSess (n : Nat) (f : Session → Session) (ax : Nat) : (s.modSess n f).byte ax = s.byte ax := by
  unfold State.modSess; split <;> rfl
@[simp] theorem State.quad_setRg (n : RegName) (c i j : Nat) (v : W32) (qx : Nat) : (s.setRg n c i j v).quad qx = s.quad qx := rfl
@[simp] theorem State.quad_setRgHi (n : RegName) (c i j : Nat) (v : W32) (qx : Nat) : (s.setRgHi n c i j v).quad qx = s.quad qx := rfl
@[simp] theorem State.quad_setRg64 (n : RegName) (c i j v : Nat) (qx : Nat) : (s.setRg64 n c i j v).quad qx = s.quad qx := rfl
@[simp] theorem State.quad_count (n : RegName) (c i k : Nat) (qx : Nat) : (s.count n c i k).quad qx = s.quad qx := rfl
@[simp] theorem State.quad_count16 (n : RegName) (c i k : Nat) (qx : Nat) : (s.count16 n c i k).quad qx = s.quad qx := rfl
@[simp] theorem State.quad_count64 (n : RegName) (c k : Nat) (qx : Nat) : (s.count64 n c k).quad qx = s.quad qx := rfl
@[simp] theorem State.quad_setCore (c : Nat) (x : Core) (qx : Nat) : (s.setCore c x).quad qx = s.quad qx := rfl
@[simp] theorem State.quad_modCore (c : Nat) (f : Core → Core) (qx : Nat) : (s.modCore c f).quad qx = s.quad qx := rfl
@[simp] theorem State.quad_modTile (c h : Nat) (f : Tile → Tile) (qx : Nat) : (s.modTile c h f).quad qx = s.quad qx := rfl
@[simp] theorem State.quad_modSeq (c : Nat) (f : Seq → Seq) (qx : Nat) : (s.modSeq c f).quad qx = s.quad qx := rfl
@[simp] theorem State.quad_modArr (c : Nat) (f : Arr → Arr) (qx : Nat) : (s.modArr c f).quad qx = s.quad qx := rfl
@[simp] theorem State.quad_modVec (c : Nat) (f : Vec → Vec) (qx : Nat) : (s.modVec c f).quad qx = s.quad qx := rfl
@[simp] theorem State.quad_modChan (c ch : Nat) (f : Chan → Chan) (qx : Nat) : (s.modChan c ch f).quad qx = s.quad qx := rfl
@[simp] theorem State.quad_setSlot (c n : Nat) (x : Slot) (qx : Nat) : (s.setSlot c n x).quad qx = s.quad qx := rfl
@[simp] theorem State.quad_act (c j n : Nat) (qx : Nat) : (s.act c j n).quad qx = s.quad qx := rfl
@[simp] theorem State.quad_modDisp (d : Nat) (f : Disp → Disp) (qx : Nat) : (s.modDisp d f).quad qx = s.quad qx := rfl
@[simp] theorem State.quad_modPort (p : Nat) (f : Port → Port) (qx : Nat) : (s.modPort p f).quad qx = s.quad qx := rfl
@[simp] theorem State.quad_modGroup (g : Nat) (f : Group → Group) (qx : Nat) : (s.modGroup g f).quad qx = s.quad qx := rfl
@[simp] theorem State.quad_modEth (p : Nat) (f : Eth → Eth) (qx : Nat) : (s.modEth p f).quad qx = s.quad qx := rfl
@[simp] theorem State.quad_send (o : Out) (qx : Nat) : (s.send o).quad qx = s.quad qx := rfl
@[simp] theorem State.quad_setByte (a : Nat) (v : Byte) (qx : Nat) : (s.setByte a v).quad qx = s.quad qx := rfl
@[simp] theorem State.quad_setKslot (k : Nat) (x : KSlot) (qx : Nat) : (s.setKslot k x).quad qx = s.quad qx := rfl
@[simp] theorem State.quad_setWay (st w : Nat) (x : Option PLine) (qx : Nat) : (s.setWay st w x).quad qx = s.quad qx := rfl
@[simp] theorem State.quad_zeroRange (a n : Nat) (qx : Nat) : (s.zeroRange a n).quad qx = s.quad qx := rfl
@[simp] theorem State.quad_modSess (n : Nat) (f : Session → Session) (qx : Nat) : (s.modSess n f).quad qx = s.quad qx := by
  unfold State.modSess; split <;> rfl
@[simp] theorem State.kslot_setRg (n : RegName) (c i j : Nat) (v : W32) (kx : Nat) : (s.setRg n c i j v).kslot kx = s.kslot kx := rfl
@[simp] theorem State.kslot_setRgHi (n : RegName) (c i j : Nat) (v : W32) (kx : Nat) : (s.setRgHi n c i j v).kslot kx = s.kslot kx := rfl
@[simp] theorem State.kslot_setRg64 (n : RegName) (c i j v : Nat) (kx : Nat) : (s.setRg64 n c i j v).kslot kx = s.kslot kx := rfl
@[simp] theorem State.kslot_count (n : RegName) (c i k : Nat) (kx : Nat) : (s.count n c i k).kslot kx = s.kslot kx := rfl
@[simp] theorem State.kslot_count16 (n : RegName) (c i k : Nat) (kx : Nat) : (s.count16 n c i k).kslot kx = s.kslot kx := rfl
@[simp] theorem State.kslot_count64 (n : RegName) (c k : Nat) (kx : Nat) : (s.count64 n c k).kslot kx = s.kslot kx := rfl
@[simp] theorem State.kslot_setCore (c : Nat) (x : Core) (kx : Nat) : (s.setCore c x).kslot kx = s.kslot kx := rfl
@[simp] theorem State.kslot_modCore (c : Nat) (f : Core → Core) (kx : Nat) : (s.modCore c f).kslot kx = s.kslot kx := rfl
@[simp] theorem State.kslot_modTile (c h : Nat) (f : Tile → Tile) (kx : Nat) : (s.modTile c h f).kslot kx = s.kslot kx := rfl
@[simp] theorem State.kslot_modSeq (c : Nat) (f : Seq → Seq) (kx : Nat) : (s.modSeq c f).kslot kx = s.kslot kx := rfl
@[simp] theorem State.kslot_modArr (c : Nat) (f : Arr → Arr) (kx : Nat) : (s.modArr c f).kslot kx = s.kslot kx := rfl
@[simp] theorem State.kslot_modVec (c : Nat) (f : Vec → Vec) (kx : Nat) : (s.modVec c f).kslot kx = s.kslot kx := rfl
@[simp] theorem State.kslot_modChan (c ch : Nat) (f : Chan → Chan) (kx : Nat) : (s.modChan c ch f).kslot kx = s.kslot kx := rfl
@[simp] theorem State.kslot_setSlot (c n : Nat) (x : Slot) (kx : Nat) : (s.setSlot c n x).kslot kx = s.kslot kx := rfl
@[simp] theorem State.kslot_act (c j n : Nat) (kx : Nat) : (s.act c j n).kslot kx = s.kslot kx := rfl
@[simp] theorem State.kslot_modDisp (d : Nat) (f : Disp → Disp) (kx : Nat) : (s.modDisp d f).kslot kx = s.kslot kx := rfl
@[simp] theorem State.kslot_modPort (p : Nat) (f : Port → Port) (kx : Nat) : (s.modPort p f).kslot kx = s.kslot kx := rfl
@[simp] theorem State.kslot_modGroup (g : Nat) (f : Group → Group) (kx : Nat) : (s.modGroup g f).kslot kx = s.kslot kx := rfl
@[simp] theorem State.kslot_modEth (p : Nat) (f : Eth → Eth) (kx : Nat) : (s.modEth p f).kslot kx = s.kslot kx := rfl
@[simp] theorem State.kslot_send (o : Out) (kx : Nat) : (s.send o).kslot kx = s.kslot kx := rfl
@[simp] theorem State.kslot_setQuad (q : Nat) (x : QuadSt) (kx : Nat) : (s.setQuad q x).kslot kx = s.kslot kx := rfl
@[simp] theorem State.kslot_setByte (a : Nat) (v : Byte) (kx : Nat) : (s.setByte a v).kslot kx = s.kslot kx := rfl
@[simp] theorem State.kslot_setWay (st w : Nat) (x : Option PLine) (kx : Nat) : (s.setWay st w x).kslot kx = s.kslot kx := rfl
@[simp] theorem State.kslot_zeroRange (a n : Nat) (kx : Nat) : (s.zeroRange a n).kslot kx = s.kslot kx := rfl
@[simp] theorem State.kslot_modSess (n : Nat) (f : Session → Session) (kx : Nat) : (s.modSess n f).kslot kx = s.kslot kx := by
  unfold State.modSess; split <;> rfl
@[simp] theorem State.sess_setRg (n : RegName) (c i j : Nat) (v : W32) (nx : Nat) : (s.setRg n c i j v).sess nx = s.sess nx := rfl
@[simp] theorem State.sess_setRgHi (n : RegName) (c i j : Nat) (v : W32) (nx : Nat) : (s.setRgHi n c i j v).sess nx = s.sess nx := rfl
@[simp] theorem State.sess_setRg64 (n : RegName) (c i j v : Nat) (nx : Nat) : (s.setRg64 n c i j v).sess nx = s.sess nx := rfl
@[simp] theorem State.sess_count (n : RegName) (c i k : Nat) (nx : Nat) : (s.count n c i k).sess nx = s.sess nx := rfl
@[simp] theorem State.sess_count16 (n : RegName) (c i k : Nat) (nx : Nat) : (s.count16 n c i k).sess nx = s.sess nx := rfl
@[simp] theorem State.sess_count64 (n : RegName) (c k : Nat) (nx : Nat) : (s.count64 n c k).sess nx = s.sess nx := rfl
@[simp] theorem State.sess_setCore (c : Nat) (x : Core) (nx : Nat) : (s.setCore c x).sess nx = s.sess nx := rfl
@[simp] theorem State.sess_modCore (c : Nat) (f : Core → Core) (nx : Nat) : (s.modCore c f).sess nx = s.sess nx := rfl
@[simp] theorem State.sess_modTile (c h : Nat) (f : Tile → Tile) (nx : Nat) : (s.modTile c h f).sess nx = s.sess nx := rfl
@[simp] theorem State.sess_modSeq (c : Nat) (f : Seq → Seq) (nx : Nat) : (s.modSeq c f).sess nx = s.sess nx := rfl
@[simp] theorem State.sess_modArr (c : Nat) (f : Arr → Arr) (nx : Nat) : (s.modArr c f).sess nx = s.sess nx := rfl
@[simp] theorem State.sess_modVec (c : Nat) (f : Vec → Vec) (nx : Nat) : (s.modVec c f).sess nx = s.sess nx := rfl
@[simp] theorem State.sess_modChan (c ch : Nat) (f : Chan → Chan) (nx : Nat) : (s.modChan c ch f).sess nx = s.sess nx := rfl
@[simp] theorem State.sess_setSlot (c n : Nat) (x : Slot) (nx : Nat) : (s.setSlot c n x).sess nx = s.sess nx := rfl
@[simp] theorem State.sess_act (c j n : Nat) (nx : Nat) : (s.act c j n).sess nx = s.sess nx := rfl
@[simp] theorem State.sess_modDisp (d : Nat) (f : Disp → Disp) (nx : Nat) : (s.modDisp d f).sess nx = s.sess nx := rfl
@[simp] theorem State.sess_modPort (p : Nat) (f : Port → Port) (nx : Nat) : (s.modPort p f).sess nx = s.sess nx := rfl
@[simp] theorem State.sess_modGroup (g : Nat) (f : Group → Group) (nx : Nat) : (s.modGroup g f).sess nx = s.sess nx := rfl
@[simp] theorem State.sess_modEth (p : Nat) (f : Eth → Eth) (nx : Nat) : (s.modEth p f).sess nx = s.sess nx := rfl
@[simp] theorem State.sess_send (o : Out) (nx : Nat) : (s.send o).sess nx = s.sess nx := rfl
@[simp] theorem State.sess_setQuad (q : Nat) (x : QuadSt) (nx : Nat) : (s.setQuad q x).sess nx = s.sess nx := rfl
@[simp] theorem State.sess_setByte (a : Nat) (v : Byte) (nx : Nat) : (s.setByte a v).sess nx = s.sess nx := rfl
@[simp] theorem State.sess_setKslot (k : Nat) (x : KSlot) (nx : Nat) : (s.setKslot k x).sess nx = s.sess nx := rfl
@[simp] theorem State.sess_setWay (st w : Nat) (x : Option PLine) (nx : Nat) : (s.setWay st w x).sess nx = s.sess nx := rfl
@[simp] theorem State.sess_zeroRange (a n : Nat) (nx : Nat) : (s.zeroRange a n).sess nx = s.sess nx := rfl
@[simp] theorem State.rg_setCore (c : Nat) (x : Core) (rx : RegName) (cx ix jx : Nat) : (s.setCore c x).rg rx cx ix jx = s.rg rx cx ix jx := rfl
@[simp] theorem State.rg_modCore (c : Nat) (f : Core → Core) (rx : RegName) (cx ix jx : Nat) : (s.modCore c f).rg rx cx ix jx = s.rg rx cx ix jx := rfl
@[simp] theorem State.rg_modTile (c h : Nat) (f : Tile → Tile) (rx : RegName) (cx ix jx : Nat) : (s.modTile c h f).rg rx cx ix jx = s.rg rx cx ix jx := rfl
@[simp] theorem State.rg_modSeq (c : Nat) (f : Seq → Seq) (rx : RegName) (cx ix jx : Nat) : (s.modSeq c f).rg rx cx ix jx = s.rg rx cx ix jx := rfl
@[simp] theorem State.rg_modArr (c : Nat) (f : Arr → Arr) (rx : RegName) (cx ix jx : Nat) : (s.modArr c f).rg rx cx ix jx = s.rg rx cx ix jx := rfl
@[simp] theorem State.rg_modVec (c : Nat) (f : Vec → Vec) (rx : RegName) (cx ix jx : Nat) : (s.modVec c f).rg rx cx ix jx = s.rg rx cx ix jx := rfl
@[simp] theorem State.rg_modChan (c ch : Nat) (f : Chan → Chan) (rx : RegName) (cx ix jx : Nat) : (s.modChan c ch f).rg rx cx ix jx = s.rg rx cx ix jx := rfl
@[simp] theorem State.rg_setSlot (c n : Nat) (x : Slot) (rx : RegName) (cx ix jx : Nat) : (s.setSlot c n x).rg rx cx ix jx = s.rg rx cx ix jx := rfl
@[simp] theorem State.rg_act (c j n : Nat) (rx : RegName) (cx ix jx : Nat) : (s.act c j n).rg rx cx ix jx = s.rg rx cx ix jx := rfl
@[simp] theorem State.rg_modDisp (d : Nat) (f : Disp → Disp) (rx : RegName) (cx ix jx : Nat) : (s.modDisp d f).rg rx cx ix jx = s.rg rx cx ix jx := rfl
@[simp] theorem State.rg_modPort (p : Nat) (f : Port → Port) (rx : RegName) (cx ix jx : Nat) : (s.modPort p f).rg rx cx ix jx = s.rg rx cx ix jx := rfl
@[simp] theorem State.rg_modGroup (g : Nat) (f : Group → Group) (rx : RegName) (cx ix jx : Nat) : (s.modGroup g f).rg rx cx ix jx = s.rg rx cx ix jx := rfl
@[simp] theorem State.rg_modEth (p : Nat) (f : Eth → Eth) (rx : RegName) (cx ix jx : Nat) : (s.modEth p f).rg rx cx ix jx = s.rg rx cx ix jx := rfl
@[simp] theorem State.rg_send (o : Out) (rx : RegName) (cx ix jx : Nat) : (s.send o).rg rx cx ix jx = s.rg rx cx ix jx := rfl
@[simp] theorem State.rg_setQuad (q : Nat) (x : QuadSt) (rx : RegName) (cx ix jx : Nat) : (s.setQuad q x).rg rx cx ix jx = s.rg rx cx ix jx := rfl
@[simp] theorem State.rg_setByte (a : Nat) (v : Byte) (rx : RegName) (cx ix jx : Nat) : (s.setByte a v).rg rx cx ix jx = s.rg rx cx ix jx := rfl
@[simp] theorem State.rg_setKslot (k : Nat) (x : KSlot) (rx : RegName) (cx ix jx : Nat) : (s.setKslot k x).rg rx cx ix jx = s.rg rx cx ix jx := rfl
@[simp] theorem State.rg_setWay (st w : Nat) (x : Option PLine) (rx : RegName) (cx ix jx : Nat) : (s.setWay st w x).rg rx cx ix jx = s.rg rx cx ix jx := rfl
@[simp] theorem State.rg_zeroRange (a n : Nat) (rx : RegName) (cx ix jx : Nat) : (s.zeroRange a n).rg rx cx ix jx = s.rg rx cx ix jx := rfl
@[simp] theorem State.rg_modSess (n : Nat) (f : Session → Session) (rx : RegName) (cx ix jx : Nat) :
    (s.modSess n f).rg rx cx ix jx = s.rg rx cx ix jx := by
  unfold State.modSess; split <;> rfl

end Sys2Proof.Machine
end

