-- ==== Sys2Proof/Laws/Mem.lean ====
section
/-! SUPPORT. Bytes of memory: what each memory operation stores and keeps, and that each keeps the canonical form. -/
set_option Elab.async false

namespace Sys2Proof.Machine

variable (s : State)

/-! ### One field per operation -/

@[simp] theorem State.setBytes_pending (a : Nat) (bs : List Byte) : (s.setBytes a bs).pending = s.pending := by
  induction bs generalizing s a with
  | nil => rfl
  | cons x l ih => exact ih (s.setByte a x) (a + 1)
@[simp] theorem State.setBytes_free (a : Nat) (bs : List Byte) : (s.setBytes a bs).free = s.free := by
  induction bs generalizing s a with
  | nil => rfl
  | cons x l ih => exact ih (s.setByte a x) (a + 1)
@[simp] theorem State.setBytes_outbox (a : Nat) (bs : List Byte) : (s.setBytes a bs).outbox = s.outbox := by
  induction bs generalizing s a with
  | nil => rfl
  | cons x l ih => exact ih (s.setByte a x) (a + 1)
@[simp] theorem State.setBytes_regs (a : Nat) (bs : List Byte) : (s.setBytes a bs).regs = s.regs := by
  induction bs generalizing s a with
  | nil => rfl
  | cons x l ih => exact ih (s.setByte a x) (a + 1)
@[simp] theorem State.setBytes_latchRd (a : Nat) (bs : List Byte) : (s.setBytes a bs).latchRd = s.latchRd := by
  induction bs generalizing s a with
  | nil => rfl
  | cons x l ih => exact ih (s.setByte a x) (a + 1)
@[simp] theorem State.setBytes_latchWr (a : Nat) (bs : List Byte) : (s.setBytes a bs).latchWr = s.latchWr := by
  induction bs generalizing s a with
  | nil => rfl
  | cons x l ih => exact ih (s.setByte a x) (a + 1)
@[simp] theorem State.setBytes_cores (a : Nat) (bs : List Byte) : (s.setBytes a bs).cores = s.cores := by
  induction bs generalizing s a with
  | nil => rfl
  | cons x l ih => exact ih (s.setByte a x) (a + 1)
@[simp] theorem State.setBytes_sdt (a : Nat) (bs : List Byte) : (s.setBytes a bs).sdt = s.sdt := by
  induction bs generalizing s a with
  | nil => rfl
  | cons x l ih => exact ih (s.setByte a x) (a + 1)
@[simp] theorem State.setBytes_pnt (a : Nat) (bs : List Byte) : (s.setBytes a bs).pnt = s.pnt := by
  induction bs generalizing s a with
  | nil => rfl
  | cons x l ih => exact ih (s.setByte a x) (a + 1)
@[simp] theorem State.setBytes_clr (a : Nat) (bs : List Byte) : (s.setBytes a bs).clr = s.clr := by
  induction bs generalizing s a with
  | nil => rfl
  | cons x l ih => exact ih (s.setByte a x) (a + 1)
@[simp] theorem State.setBytes_tch (a : Nat) (bs : List Byte) : (s.setBytes a bs).tch = s.tch := by
  induction bs generalizing s a with
  | nil => rfl
  | cons x l ih => exact ih (s.setByte a x) (a + 1)
@[simp] theorem State.setBytes_eth (a : Nat) (bs : List Byte) : (s.setBytes a bs).eth = s.eth := by
  induction bs generalizing s a with
  | nil => rfl
  | cons x l ih => exact ih (s.setByte a x) (a + 1)
@[simp] theorem State.setBytes_ses (a : Nat) (bs : List Byte) : (s.setBytes a bs).ses = s.ses := by
  induction bs generalizing s a with
  | nil => rfl
  | cons x l ih => exact ih (s.setByte a x) (a + 1)
@[simp] theorem State.setBytes_sec (a : Nat) (bs : List Byte) : (s.setBytes a bs).sec = s.sec := by
  induction bs generalizing s a with
  | nil => rfl
  | cons x l ih => exact ih (s.setByte a x) (a + 1)
@[simp] theorem State.setBytes_trl (a : Nat) (bs : List Byte) : (s.setBytes a bs).trl = s.trl := by
  induction bs generalizing s a with
  | nil => rfl
  | cons x l ih => exact ih (s.setByte a x) (a + 1)
@[simp] theorem State.setBytes_cfg (a : Nat) (bs : List Byte) : (s.setBytes a bs).cfg = s.cfg := by
  induction bs generalizing s a with
  | nil => rfl
  | cons x l ih => exact ih (s.setByte a x) (a + 1)
@[simp] theorem State.setBytes_retained (a : Nat) (bs : List Byte) : (s.setBytes a bs).retained = s.retained := by
  induction bs generalizing s a with
  | nil => rfl
  | cons x l ih => exact ih (s.setByte a x) (a + 1)
@[simp] theorem State.setBytes_prc (a : Nat) (bs : List Byte) : (s.setBytes a bs).prc = s.prc := by
  induction bs generalizing s a with
  | nil => rfl
  | cons x l ih => exact ih (s.setByte a x) (a + 1)
@[simp] theorem State.setBytes_mtr (a : Nat) (bs : List Byte) : (s.setBytes a bs).mtr = s.mtr := by
  induction bs generalizing s a with
  | nil => rfl
  | cons x l ih => exact ih (s.setByte a x) (a + 1)
@[simp] theorem State.setBytes_evt (a : Nat) (bs : List Byte) : (s.setBytes a bs).evt = s.evt := by
  induction bs generalizing s a with
  | nil => rfl
  | cons x l ih => exact ih (s.setByte a x) (a + 1)
@[simp] theorem State.setSpad_pending (c off : Nat) (bs : List Byte) : (s.setSpad c off bs).pending = s.pending := State.setBytes_pending s _ bs
@[simp] theorem State.setSpad_free (c off : Nat) (bs : List Byte) : (s.setSpad c off bs).free = s.free := State.setBytes_free s _ bs
@[simp] theorem State.setSpad_outbox (c off : Nat) (bs : List Byte) : (s.setSpad c off bs).outbox = s.outbox := State.setBytes_outbox s _ bs
@[simp] theorem State.setSpad_regs (c off : Nat) (bs : List Byte) : (s.setSpad c off bs).regs = s.regs := State.setBytes_regs s _ bs
@[simp] theorem State.setSpad_latchRd (c off : Nat) (bs : List Byte) : (s.setSpad c off bs).latchRd = s.latchRd := State.setBytes_latchRd s _ bs
@[simp] theorem State.setSpad_latchWr (c off : Nat) (bs : List Byte) : (s.setSpad c off bs).latchWr = s.latchWr := State.setBytes_latchWr s _ bs
@[simp] theorem State.setSpad_cores (c off : Nat) (bs : List Byte) : (s.setSpad c off bs).cores = s.cores := State.setBytes_cores s _ bs
@[simp] theorem State.setSpad_sdt (c off : Nat) (bs : List Byte) : (s.setSpad c off bs).sdt = s.sdt := State.setBytes_sdt s _ bs
@[simp] theorem State.setSpad_pnt (c off : Nat) (bs : List Byte) : (s.setSpad c off bs).pnt = s.pnt := State.setBytes_pnt s _ bs
@[simp] theorem State.setSpad_clr (c off : Nat) (bs : List Byte) : (s.setSpad c off bs).clr = s.clr := State.setBytes_clr s _ bs
@[simp] theorem State.setSpad_tch (c off : Nat) (bs : List Byte) : (s.setSpad c off bs).tch = s.tch := State.setBytes_tch s _ bs
@[simp] theorem State.setSpad_eth (c off : Nat) (bs : List Byte) : (s.setSpad c off bs).eth = s.eth := State.setBytes_eth s _ bs
@[simp] theorem State.setSpad_ses (c off : Nat) (bs : List Byte) : (s.setSpad c off bs).ses = s.ses := State.setBytes_ses s _ bs
@[simp] theorem State.setSpad_sec (c off : Nat) (bs : List Byte) : (s.setSpad c off bs).sec = s.sec := State.setBytes_sec s _ bs
@[simp] theorem State.setSpad_trl (c off : Nat) (bs : List Byte) : (s.setSpad c off bs).trl = s.trl := State.setBytes_trl s _ bs
@[simp] theorem State.setSpad_cfg (c off : Nat) (bs : List Byte) : (s.setSpad c off bs).cfg = s.cfg := State.setBytes_cfg s _ bs
@[simp] theorem State.setSpad_retained (c off : Nat) (bs : List Byte) : (s.setSpad c off bs).retained = s.retained := State.setBytes_retained s _ bs
@[simp] theorem State.setSpad_prc (c off : Nat) (bs : List Byte) : (s.setSpad c off bs).prc = s.prc := State.setBytes_prc s _ bs
@[simp] theorem State.setSpad_mtr (c off : Nat) (bs : List Byte) : (s.setSpad c off bs).mtr = s.mtr := State.setBytes_mtr s _ bs
@[simp] theorem State.setSpad_evt (c off : Nat) (bs : List Byte) : (s.setSpad c off bs).evt = s.evt := State.setBytes_evt s _ bs

/-! ### Reading back -/

/-- Bytes outside the range written are as before. -/
theorem State.byte_setBytes_out (a : Nat) (bs : List Byte) (b : Nat) (h : b < a ∨ a + bs.length ≤ b) :
    (s.setBytes a bs).byte b = s.byte b := by
  induction bs generalizing s a with
  | nil => rfl
  | cons x l ih =>
    simp only [List.length_cons] at h
    rw [State.setBytes, ih (s.setByte a x) (a + 1) (by omega)]
    exact State.byte_setByte_ne s x (by omega)

/-- A byte of the range written is the one written there. -/
theorem State.byte_setBytes_in (a : Nat) (bs : List Byte) (i : Nat) (h : i < bs.length) :
    (s.setBytes a bs).byte (a + i) = bs[i] := by
  induction bs generalizing s a i with
  | nil => simp at h
  | cons x l ih =>
    rw [State.setBytes]
    cases i with
    | zero =>
      rw [State.byte_setBytes_out _ _ _ _ (by omega), Nat.add_zero]
      exact State.byte_setByte_self s a x
    | succ i =>
      have e : a + (i + 1) = a + 1 + i := by omega
      rw [e, ih (s.setByte a x) (a + 1) i (by simpa using h)]
      simp

/-- What has been written is read back. -/
theorem State.bytes_setBytes (a : Nat) (bs : List Byte) : (s.setBytes a bs).bytes a bs.length = bs := by
  apply List.ext_getElem
  · simp [State.bytes, upTo]
  · intro i h1 h2
    simp only [State.bytes, upTo, List.getElem_map, List.getElem_range]
    exact State.byte_setBytes_in s a bs i h2

/-- What has been written to a scratchpad is read back. -/
theorem State.spad_setSpad (c off : Nat) (bs : List Byte) : (s.setSpad c off bs).spad c off bs.length = bs :=
  State.bytes_setBytes s _ bs

theorem Sparse.get_filter_key {α : Type} (d : α) (m : Sparse α) (p : Nat → Bool) (k : Nat) :
    Sparse.get d (m.filter (fun x => p x.1)) k = if p k then Sparse.get d m k else d := by
  induction m with
  | nil => simp [Sparse.get]
  | cons x m ih =>
    obtain ⟨j, v⟩ := x
    cases hj : p j
    · rw [List.filter_cons_of_neg (by simpa using hj), ih]
      by_cases e : k = j
      · subst e; simp [hj]
      · simp [Sparse.get, e]
    · rw [List.filter_cons_of_pos (by simpa using hj)]
      by_cases e : k = j
      · subst e; simp [Sparse.get, hj]
      · simp [Sparse.get, e, ih]

/-- A zero-filled byte reads 0, every other one is as before. -/
theorem State.byte_zeroRange (a n b : Nat) : (s.zeroRange a n).byte b = if a ≤ b ∧ b < a + n then 0 else s.byte b := by
  show Sparse.get 0 (s.mem.filter (fun x => decide (x.1 < a) || decide (a + n ≤ x.1))) b = _
  rw [Sparse.get_filter_key 0 s.mem (fun k => decide (k < a) || decide (a + n ≤ k)) b]
  simp only [Bool.or_eq_true, decide_eq_true_eq, State.byte]
  by_cases h : a ≤ b ∧ b < a + n
  · rw [if_neg (by omega), if_pos h]
  · rw [if_pos (by omega), if_neg h]

/-! ### The canonical form -/

variable {s}

theorem State.setByte_wf (a : Nat) (v : Byte) (w : Sparse.wf (0 : Byte) s.mem = true) :
    Sparse.wf (0 : Byte) (s.setByte a v).mem = true := Sparse.wf_put 0 s.mem a v w

theorem State.setBytes_wf (a : Nat) (bs : List Byte) (w : Sparse.wf (0 : Byte) s.mem = true) :
    Sparse.wf (0 : Byte) (s.setBytes a bs).mem = true := by
  induction bs generalizing s a with
  | nil => exact w
  | cons x l ih => exact ih (a + 1) (State.setByte_wf a x w)

theorem State.setSpad_wf (c off : Nat) (bs : List Byte) (w : Sparse.wf (0 : Byte) s.mem = true) :
    Sparse.wf (0 : Byte) (s.setSpad c off bs).mem = true := State.setBytes_wf _ bs w

theorem State.zeroRange_wf (a n : Nat) (w : Sparse.wf (0 : Byte) s.mem = true) :
    Sparse.wf (0 : Byte) (s.zeroRange a n).mem = true := Sparse.wf_filter 0 s.mem _ w

end Sys2Proof.Machine
end

