-- ==== Sys2Proof/Laws/Ops.lean ====
section
/-! SUPPORT. What the shared operations can do: folds over a list, registers, the log, attestation, a register's write, a
sequencer's fetch. -/
set_option Elab.async false

namespace Sys2Proof.Machine

variable (s : State)

/-! ### Folds -/

/-- What every single change keeps, all of them together keep. -/
theorem State.each_keeps {α β : Type} (g : State → β) (l : List α) (f : State → α → State) (h : ∀ t x, g (f t x) = g t) :
    g (s.each l f) = g s := by
  induction l generalizing s with
  | nil => rfl
  | cons x l ih => exact (ih (f s x)).trans (h s x)

/-- A property that every single change keeps holds after all of them. -/
theorem State.each_inv {α : Type} (p : State → Prop) (l : List α) (f : State → α → State) (h : ∀ t x, p t → p (f t x)) (w : p s) :
    p (s.each l f) := by
  induction l generalizing s with
  | nil => exact w
  | cons x l ih => exact ih (f s x) (h s x w)

@[simp] theorem State.each_nil {α : Type} (f : State → α → State) : s.each [] f = s := rfl
@[simp] theorem State.each_cons {α : Type} (x : α) (l : List α) (f : State → α → State) : s.each (x :: l) f = (f s x).each l f := rfl

/-! ### Registers -/

theorem State.rg_setRg_ne {n m : RegName} {c i j d k l : Nat} (v : W32) (h : regAddr m d k l ≠ regAddr n c i j) :
    (s.setRg n c i j v).rg m d k l = s.rg m d k l := Sparse.get_put_ne _ _ _ _ h
@[simp] theorem State.rg_count_self (n : RegName) (c i k : Nat) :
    (s.count n c i k).rg n c i = BitVec.ofNat 32 (satAdd 32 (s.rg n c i).toNat k) := Sparse.get_put_self _ _ _ _
theorem State.rg_count_ne {n m : RegName} {c i d k l : Nat} (q : Nat) (h : regAddr m d k l ≠ regAddr n c i 0) :
    (s.count n c i q).rg m d k l = s.rg m d k l := Sparse.get_put_ne _ _ _ _ h
@[simp] theorem State.rg64_setCore (c : Nat) (x : Core) (n : RegName) (d i j : Nat) : (s.setCore c x).rg64 n d i j = s.rg64 n d i j := rfl
@[simp] theorem State.rg64_modCore (c : Nat) (f : Core → Core) (n : RegName) (d i j : Nat) :
    (s.modCore c f).rg64 n d i j = s.rg64 n d i j := rfl

/-! ### The log -/

@[simp] theorem State.log_pending (e : Event) : (s.log e).pending = s.pending := by
  unfold State.log
  rw [State.each_keeps (g := (·.pending)) (h := fun t n => State.modSess_pending t n _)]
  dsimp only
  split <;> split <;> rfl
@[simp] theorem State.log_free (e : Event) : (s.log e).free = s.free := by
  unfold State.log
  rw [State.each_keeps (g := (·.free)) (h := fun t n => State.modSess_free t n _)]
  dsimp only
  split <;> split <;> rfl
@[simp] theorem State.log_outbox (e : Event) : (s.log e).outbox = s.outbox := by
  unfold State.log
  rw [State.each_keeps (g := (·.outbox)) (h := fun t n => State.modSess_outbox t n _)]
  dsimp only
  split <;> split <;> rfl
@[simp] theorem State.log_latchRd (e : Event) : (s.log e).latchRd = s.latchRd := by
  unfold State.log
  rw [State.each_keeps (g := (·.latchRd)) (h := fun t n => State.modSess_latchRd t n _)]
  dsimp only
  split <;> split <;> rfl
@[simp] theorem State.log_latchWr (e : Event) : (s.log e).latchWr = s.latchWr := by
  unfold State.log
  rw [State.each_keeps (g := (·.latchWr)) (h := fun t n => State.modSess_latchWr t n _)]
  dsimp only
  split <;> split <;> rfl
@[simp] theorem State.log_mem (e : Event) : (s.log e).mem = s.mem := by
  unfold State.log
  rw [State.each_keeps (g := (·.mem)) (h := fun t n => State.modSess_mem t n _)]
  dsimp only
  split <;> split <;> rfl
@[simp] theorem State.log_cores (e : Event) : (s.log e).cores = s.cores := by
  unfold State.log
  rw [State.each_keeps (g := (·.cores)) (h := fun t n => State.modSess_cores t n _)]
  dsimp only
  split <;> split <;> rfl
@[simp] theorem State.log_sdt (e : Event) : (s.log e).sdt = s.sdt := by
  unfold State.log
  rw [State.each_keeps (g := (·.sdt)) (h := fun t n => State.modSess_sdt t n _)]
  dsimp only
  split <;> split <;> rfl
@[simp] theorem State.log_pnt (e : Event) : (s.log e).pnt = s.pnt := by
  unfold State.log
  rw [State.each_keeps (g := (·.pnt)) (h := fun t n => State.modSess_pnt t n _)]
  dsimp only
  split <;> split <;> rfl
@[simp] theorem State.log_clr (e : Event) : (s.log e).clr = s.clr := by
  unfold State.log
  rw [State.each_keeps (g := (·.clr)) (h := fun t n => State.modSess_clr t n _)]
  dsimp only
  split <;> split <;> rfl
@[simp] theorem State.log_tch (e : Event) : (s.log e).tch = s.tch := by
  unfold State.log
  rw [State.each_keeps (g := (·.tch)) (h := fun t n => State.modSess_tch t n _)]
  dsimp only
  split <;> split <;> rfl
@[simp] theorem State.log_eth (e : Event) : (s.log e).eth = s.eth := by
  unfold State.log
  rw [State.each_keeps (g := (·.eth)) (h := fun t n => State.modSess_eth t n _)]
  dsimp only
  split <;> split <;> rfl
@[simp] theorem State.log_sec (e : Event) : (s.log e).sec = s.sec := by
  unfold State.log
  rw [State.each_keeps (g := (·.sec)) (h := fun t n => State.modSess_sec t n _)]
  dsimp only
  split <;> split <;> rfl
@[simp] theorem State.log_trl (e : Event) : (s.log e).trl = s.trl := by
  unfold State.log
  rw [State.each_keeps (g := (·.trl)) (h := fun t n => State.modSess_trl t n _)]
  dsimp only
  split <;> split <;> rfl
@[simp] theorem State.log_cfg (e : Event) : (s.log e).cfg = s.cfg := by
  unfold State.log
  rw [State.each_keeps (g := (·.cfg)) (h := fun t n => State.modSess_cfg t n _)]
  dsimp only
  split <;> split <;> rfl
@[simp] theorem State.log_retained (e : Event) : (s.log e).retained = s.retained := by
  unfold State.log
  rw [State.each_keeps (g := (·.retained)) (h := fun t n => State.modSess_retained t n _)]
  dsimp only
  split <;> split <;> rfl
@[simp] theorem State.log_prc (e : Event) : (s.log e).prc = s.prc := by
  unfold State.log
  rw [State.each_keeps (g := (·.prc)) (h := fun t n => State.modSess_prc t n _)]
  dsimp only
  split <;> split <;> rfl
@[simp] theorem State.log_mtr (e : Event) : (s.log e).mtr = s.mtr := by
  unfold State.log
  rw [State.each_keeps (g := (·.mtr)) (h := fun t n => State.modSess_mtr t n _)]
  dsimp only
  split <;> split <;> rfl

/-- The log after an event: one record more, in the next slot, with the time. -/
theorem State.log_evt (e : Event) : (s.log e).evt = { s.evt with
    log := Sparse.put none s.evt.log (s.evt.cnt % 8192) (some { e with time := s.prc.time }), cnt := s.evt.cnt + 1
    unread := if s.evt.unread < 8192 then s.evt.unread + 1 else 8192 } := by
  unfold State.log
  rw [State.each_keeps (g := (·.evt)) (h := fun t n => State.modSess_evt t n _)]
  dsimp only
  split <;> split <;> rfl

@[simp] theorem State.log_cnt (e : Event) : (s.log e).evt.cnt = s.evt.cnt + 1 := by rw [State.log_evt]
@[simp] theorem State.log_at (e : Event) :
    Sparse.get none (s.log e).evt.log (s.evt.cnt % 8192) = some { e with time := s.prc.time } := by
  rw [State.log_evt]
  exact Sparse.get_put_self none _ _ (some { e with time := s.prc.time })

/-- An event changes sessions in their event queues alone. -/
theorem State.log_sess_st (e : Event) (n : Nat) : ((s.log e).sess n).st = (s.sess n).st := by
  unfold State.log
  rw [State.each_keeps (g := fun t => (t.sess n).st)]
  · dsimp only
    split <;> split <;> rfl
  · intro t m
    by_cases h : n = m
    · subst h
      rw [State.sess_modSess_self]
      unfold Session.queueEvent
      split <;> rfl
    · rw [State.sess_modSess_ne _ _ h]

@[simp] theorem State.reqEvent_pending (r : Req) (code cls detail : Nat) : (s.reqEvent r code cls detail).pending = s.pending := State.log_pending s _
@[simp] theorem State.reqEvent_free (r : Req) (code cls detail : Nat) : (s.reqEvent r code cls detail).free = s.free := State.log_free s _
@[simp] theorem State.reqEvent_outbox (r : Req) (code cls detail : Nat) : (s.reqEvent r code cls detail).outbox = s.outbox := State.log_outbox s _
@[simp] theorem State.reqEvent_latchRd (r : Req) (code cls detail : Nat) : (s.reqEvent r code cls detail).latchRd = s.latchRd := State.log_latchRd s _
@[simp] theorem State.reqEvent_latchWr (r : Req) (code cls detail : Nat) : (s.reqEvent r code cls detail).latchWr = s.latchWr := State.log_latchWr s _
@[simp] theorem State.reqEvent_mem (r : Req) (code cls detail : Nat) : (s.reqEvent r code cls detail).mem = s.mem := State.log_mem s _
@[simp] theorem State.reqEvent_cores (r : Req) (code cls detail : Nat) : (s.reqEvent r code cls detail).cores = s.cores := State.log_cores s _
@[simp] theorem State.reqEvent_sdt (r : Req) (code cls detail : Nat) : (s.reqEvent r code cls detail).sdt = s.sdt := State.log_sdt s _
@[simp] theorem State.reqEvent_pnt (r : Req) (code cls detail : Nat) : (s.reqEvent r code cls detail).pnt = s.pnt := State.log_pnt s _
@[simp] theorem State.reqEvent_clr (r : Req) (code cls detail : Nat) : (s.reqEvent r code cls detail).clr = s.clr := State.log_clr s _
@[simp] theorem State.reqEvent_tch (r : Req) (code cls detail : Nat) : (s.reqEvent r code cls detail).tch = s.tch := State.log_tch s _
@[simp] theorem State.reqEvent_eth (r : Req) (code cls detail : Nat) : (s.reqEvent r code cls detail).eth = s.eth := State.log_eth s _
@[simp] theorem State.reqEvent_sec (r : Req) (code cls detail : Nat) : (s.reqEvent r code cls detail).sec = s.sec := State.log_sec s _
@[simp] theorem State.reqEvent_trl (r : Req) (code cls detail : Nat) : (s.reqEvent r code cls detail).trl = s.trl := State.log_trl s _
@[simp] theorem State.reqEvent_cfg (r : Req) (code cls detail : Nat) : (s.reqEvent r code cls detail).cfg = s.cfg := State.log_cfg s _
@[simp] theorem State.reqEvent_retained (r : Req) (code cls detail : Nat) : (s.reqEvent r code cls detail).retained = s.retained := State.log_retained s _
@[simp] theorem State.reqEvent_prc (r : Req) (code cls detail : Nat) : (s.reqEvent r code cls detail).prc = s.prc := State.log_prc s _
@[simp] theorem State.reqEvent_mtr (r : Req) (code cls detail : Nat) : (s.reqEvent r code cls detail).mtr = s.mtr := State.log_mtr s _
@[simp] theorem State.coreEvent_pending (c code cls detail : Nat) : (s.coreEvent c code cls detail).pending = s.pending := State.log_pending s _
@[simp] theorem State.coreEvent_free (c code cls detail : Nat) : (s.coreEvent c code cls detail).free = s.free := State.log_free s _
@[simp] theorem State.coreEvent_outbox (c code cls detail : Nat) : (s.coreEvent c code cls detail).outbox = s.outbox := State.log_outbox s _
@[simp] theorem State.coreEvent_latchRd (c code cls detail : Nat) : (s.coreEvent c code cls detail).latchRd = s.latchRd := State.log_latchRd s _
@[simp] theorem State.coreEvent_latchWr (c code cls detail : Nat) : (s.coreEvent c code cls detail).latchWr = s.latchWr := State.log_latchWr s _
@[simp] theorem State.coreEvent_mem (c code cls detail : Nat) : (s.coreEvent c code cls detail).mem = s.mem := State.log_mem s _
@[simp] theorem State.coreEvent_cores (c code cls detail : Nat) : (s.coreEvent c code cls detail).cores = s.cores := State.log_cores s _
@[simp] theorem State.coreEvent_sdt (c code cls detail : Nat) : (s.coreEvent c code cls detail).sdt = s.sdt := State.log_sdt s _
@[simp] theorem State.coreEvent_pnt (c code cls detail : Nat) : (s.coreEvent c code cls detail).pnt = s.pnt := State.log_pnt s _
@[simp] theorem State.coreEvent_clr (c code cls detail : Nat) : (s.coreEvent c code cls detail).clr = s.clr := State.log_clr s _
@[simp] theorem State.coreEvent_tch (c code cls detail : Nat) : (s.coreEvent c code cls detail).tch = s.tch := State.log_tch s _
@[simp] theorem State.coreEvent_eth (c code cls detail : Nat) : (s.coreEvent c code cls detail).eth = s.eth := State.log_eth s _
@[simp] theorem State.coreEvent_sec (c code cls detail : Nat) : (s.coreEvent c code cls detail).sec = s.sec := State.log_sec s _
@[simp] theorem State.coreEvent_trl (c code cls detail : Nat) : (s.coreEvent c code cls detail).trl = s.trl := State.log_trl s _
@[simp] theorem State.coreEvent_cfg (c code cls detail : Nat) : (s.coreEvent c code cls detail).cfg = s.cfg := State.log_cfg s _
@[simp] theorem State.coreEvent_retained (c code cls detail : Nat) : (s.coreEvent c code cls detail).retained = s.retained := State.log_retained s _
@[simp] theorem State.coreEvent_prc (c code cls detail : Nat) : (s.coreEvent c code cls detail).prc = s.prc := State.log_prc s _
@[simp] theorem State.coreEvent_mtr (c code cls detail : Nat) : (s.coreEvent c code cls detail).mtr = s.mtr := State.log_mtr s _
@[simp] theorem State.partEvent_pending (p code cls detail : Nat) : (s.partEvent p code cls detail).pending = s.pending := State.log_pending s _
@[simp] theorem State.partEvent_free (p code cls detail : Nat) : (s.partEvent p code cls detail).free = s.free := State.log_free s _
@[simp] theorem State.partEvent_outbox (p code cls detail : Nat) : (s.partEvent p code cls detail).outbox = s.outbox := State.log_outbox s _
@[simp] theorem State.partEvent_latchRd (p code cls detail : Nat) : (s.partEvent p code cls detail).latchRd = s.latchRd := State.log_latchRd s _
@[simp] theorem State.partEvent_latchWr (p code cls detail : Nat) : (s.partEvent p code cls detail).latchWr = s.latchWr := State.log_latchWr s _
@[simp] theorem State.partEvent_mem (p code cls detail : Nat) : (s.partEvent p code cls detail).mem = s.mem := State.log_mem s _
@[simp] theorem State.partEvent_cores (p code cls detail : Nat) : (s.partEvent p code cls detail).cores = s.cores := State.log_cores s _
@[simp] theorem State.partEvent_sdt (p code cls detail : Nat) : (s.partEvent p code cls detail).sdt = s.sdt := State.log_sdt s _
@[simp] theorem State.partEvent_pnt (p code cls detail : Nat) : (s.partEvent p code cls detail).pnt = s.pnt := State.log_pnt s _
@[simp] theorem State.partEvent_clr (p code cls detail : Nat) : (s.partEvent p code cls detail).clr = s.clr := State.log_clr s _
@[simp] theorem State.partEvent_tch (p code cls detail : Nat) : (s.partEvent p code cls detail).tch = s.tch := State.log_tch s _
@[simp] theorem State.partEvent_eth (p code cls detail : Nat) : (s.partEvent p code cls detail).eth = s.eth := State.log_eth s _
@[simp] theorem State.partEvent_sec (p code cls detail : Nat) : (s.partEvent p code cls detail).sec = s.sec := State.log_sec s _
@[simp] theorem State.partEvent_trl (p code cls detail : Nat) : (s.partEvent p code cls detail).trl = s.trl := State.log_trl s _
@[simp] theorem State.partEvent_cfg (p code cls detail : Nat) : (s.partEvent p code cls detail).cfg = s.cfg := State.log_cfg s _
@[simp] theorem State.partEvent_retained (p code cls detail : Nat) : (s.partEvent p code cls detail).retained = s.retained := State.log_retained s _
@[simp] theorem State.partEvent_prc (p code cls detail : Nat) : (s.partEvent p code cls detail).prc = s.prc := State.log_prc s _
@[simp] theorem State.partEvent_mtr (p code cls detail : Nat) : (s.partEvent p code cls detail).mtr = s.mtr := State.log_mtr s _
@[simp] theorem State.devEvent_pending (code cls detail : Nat) : (s.devEvent code cls detail).pending = s.pending := State.log_pending s _
@[simp] theorem State.devEvent_free (code cls detail : Nat) : (s.devEvent code cls detail).free = s.free := State.log_free s _
@[simp] theorem State.devEvent_outbox (code cls detail : Nat) : (s.devEvent code cls detail).outbox = s.outbox := State.log_outbox s _
@[simp] theorem State.devEvent_latchRd (code cls detail : Nat) : (s.devEvent code cls detail).latchRd = s.latchRd := State.log_latchRd s _
@[simp] theorem State.devEvent_latchWr (code cls detail : Nat) : (s.devEvent code cls detail).latchWr = s.latchWr := State.log_latchWr s _
@[simp] theorem State.devEvent_mem (code cls detail : Nat) : (s.devEvent code cls detail).mem = s.mem := State.log_mem s _
@[simp] theorem State.devEvent_cores (code cls detail : Nat) : (s.devEvent code cls detail).cores = s.cores := State.log_cores s _
@[simp] theorem State.devEvent_sdt (code cls detail : Nat) : (s.devEvent code cls detail).sdt = s.sdt := State.log_sdt s _
@[simp] theorem State.devEvent_pnt (code cls detail : Nat) : (s.devEvent code cls detail).pnt = s.pnt := State.log_pnt s _
@[simp] theorem State.devEvent_clr (code cls detail : Nat) : (s.devEvent code cls detail).clr = s.clr := State.log_clr s _
@[simp] theorem State.devEvent_tch (code cls detail : Nat) : (s.devEvent code cls detail).tch = s.tch := State.log_tch s _
@[simp] theorem State.devEvent_eth (code cls detail : Nat) : (s.devEvent code cls detail).eth = s.eth := State.log_eth s _
@[simp] theorem State.devEvent_sec (code cls detail : Nat) : (s.devEvent code cls detail).sec = s.sec := State.log_sec s _
@[simp] theorem State.devEvent_trl (code cls detail : Nat) : (s.devEvent code cls detail).trl = s.trl := State.log_trl s _
@[simp] theorem State.devEvent_cfg (code cls detail : Nat) : (s.devEvent code cls detail).cfg = s.cfg := State.log_cfg s _
@[simp] theorem State.devEvent_retained (code cls detail : Nat) : (s.devEvent code cls detail).retained = s.retained := State.log_retained s _
@[simp] theorem State.devEvent_prc (code cls detail : Nat) : (s.devEvent code cls detail).prc = s.prc := State.log_prc s _
@[simp] theorem State.devEvent_mtr (code cls detail : Nat) : (s.devEvent code cls detail).mtr = s.mtr := State.log_mtr s _
@[simp] theorem State.access_pending (r : Req) (a : Nat) : (s.access r a).pending = s.pending := State.log_pending s _
@[simp] theorem State.access_free (r : Req) (a : Nat) : (s.access r a).free = s.free := State.log_free s _
@[simp] theorem State.access_outbox (r : Req) (a : Nat) : (s.access r a).outbox = s.outbox := State.log_outbox s _
@[simp] theorem State.access_latchRd (r : Req) (a : Nat) : (s.access r a).latchRd = s.latchRd := State.log_latchRd s _
@[simp] theorem State.access_latchWr (r : Req) (a : Nat) : (s.access r a).latchWr = s.latchWr := State.log_latchWr s _
@[simp] theorem State.access_mem (r : Req) (a : Nat) : (s.access r a).mem = s.mem := State.log_mem s _
@[simp] theorem State.access_cores (r : Req) (a : Nat) : (s.access r a).cores = s.cores := State.log_cores s _
@[simp] theorem State.access_sdt (r : Req) (a : Nat) : (s.access r a).sdt = s.sdt := State.log_sdt s _
@[simp] theorem State.access_pnt (r : Req) (a : Nat) : (s.access r a).pnt = s.pnt := State.log_pnt s _
@[simp] theorem State.access_clr (r : Req) (a : Nat) : (s.access r a).clr = s.clr := State.log_clr s _
@[simp] theorem State.access_tch (r : Req) (a : Nat) : (s.access r a).tch = s.tch := State.log_tch s _
@[simp] theorem State.access_eth (r : Req) (a : Nat) : (s.access r a).eth = s.eth := State.log_eth s _
@[simp] theorem State.access_sec (r : Req) (a : Nat) : (s.access r a).sec = s.sec := State.log_sec s _
@[simp] theorem State.access_trl (r : Req) (a : Nat) : (s.access r a).trl = s.trl := State.log_trl s _
@[simp] theorem State.access_cfg (r : Req) (a : Nat) : (s.access r a).cfg = s.cfg := State.log_cfg s _
@[simp] theorem State.access_retained (r : Req) (a : Nat) : (s.access r a).retained = s.retained := State.log_retained s _
@[simp] theorem State.access_prc (r : Req) (a : Nat) : (s.access r a).prc = s.prc := State.log_prc s _
@[simp] theorem State.access_mtr (r : Req) (a : Nat) : (s.access r a).mtr = s.mtr := State.log_mtr s _
@[simp] theorem State.refuse_pending (r : Req) (a : Nat) : (s.refuse r a).pending = s.pending := by
  cases r <;> first | rfl | exact State.log_pending s _
@[simp] theorem State.refuse_free (r : Req) (a : Nat) : (s.refuse r a).free = s.free := by
  cases r <;> first | rfl | exact State.log_free s _
@[simp] theorem State.refuse_latchRd (r : Req) (a : Nat) : (s.refuse r a).latchRd = s.latchRd := by
  cases r <;> first | rfl | exact State.log_latchRd s _
@[simp] theorem State.refuse_latchWr (r : Req) (a : Nat) : (s.refuse r a).latchWr = s.latchWr := by
  cases r <;> first | rfl | exact State.log_latchWr s _
@[simp] theorem State.refuse_mem (r : Req) (a : Nat) : (s.refuse r a).mem = s.mem := by
  cases r <;> first | rfl | exact State.log_mem s _
@[simp] theorem State.refuse_cores (r : Req) (a : Nat) : (s.refuse r a).cores = s.cores := by
  cases r <;> first | rfl | exact State.log_cores s _
@[simp] theorem State.refuse_sdt (r : Req) (a : Nat) : (s.refuse r a).sdt = s.sdt := by
  cases r <;> first | rfl | exact State.log_sdt s _
@[simp] theorem State.refuse_pnt (r : Req) (a : Nat) : (s.refuse r a).pnt = s.pnt := by
  cases r <;> first | rfl | exact State.log_pnt s _
@[simp] theorem State.refuse_clr (r : Req) (a : Nat) : (s.refuse r a).clr = s.clr := by
  cases r <;> first | rfl | exact State.log_clr s _
@[simp] theorem State.refuse_tch (r : Req) (a : Nat) : (s.refuse r a).tch = s.tch := by
  cases r <;> first | rfl | exact State.log_tch s _
@[simp] theorem State.refuse_eth (r : Req) (a : Nat) : (s.refuse r a).eth = s.eth := by
  cases r <;> first | rfl | exact State.log_eth s _
@[simp] theorem State.refuse_sec (r : Req) (a : Nat) : (s.refuse r a).sec = s.sec := by
  cases r <;> first | rfl | exact State.log_sec s _
@[simp] theorem State.refuse_trl (r : Req) (a : Nat) : (s.refuse r a).trl = s.trl := by
  cases r <;> first | rfl | exact State.log_trl s _
@[simp] theorem State.refuse_cfg (r : Req) (a : Nat) : (s.refuse r a).cfg = s.cfg := by
  cases r <;> first | rfl | exact State.log_cfg s _
@[simp] theorem State.refuse_retained (r : Req) (a : Nat) : (s.refuse r a).retained = s.retained := by
  cases r <;> first | rfl | exact State.log_retained s _
@[simp] theorem State.refuse_prc (r : Req) (a : Nat) : (s.refuse r a).prc = s.prc := by
  cases r <;> first | rfl | exact State.log_prc s _
@[simp] theorem State.refuse_mtr (r : Req) (a : Nat) : (s.refuse r a).mtr = s.mtr := by
  cases r <;> first | rfl | exact State.log_mtr s _

/-! ### Attestation, registers by a requester, sequencers -/

@[simp] theorem State.setSec_pending (x : Sec) : (s.setSec x).pending = s.pending := rfl
@[simp] theorem State.setSec_free (x : Sec) : (s.setSec x).free = s.free := rfl
@[simp] theorem State.setSec_outbox (x : Sec) : (s.setSec x).outbox = s.outbox := rfl
@[simp] theorem State.setSec_regs (x : Sec) : (s.setSec x).regs = s.regs := rfl
@[simp] theorem State.setSec_latchRd (x : Sec) : (s.setSec x).latchRd = s.latchRd := rfl
@[simp] theorem State.setSec_latchWr (x : Sec) : (s.setSec x).latchWr = s.latchWr := rfl
@[simp] theorem State.setSec_mem (x : Sec) : (s.setSec x).mem = s.mem := rfl
@[simp] theorem State.setSec_cores (x : Sec) : (s.setSec x).cores = s.cores := rfl
@[simp] theorem State.setSec_sdt (x : Sec) : (s.setSec x).sdt = s.sdt := rfl
@[simp] theorem State.setSec_pnt (x : Sec) : (s.setSec x).pnt = s.pnt := rfl
@[simp] theorem State.setSec_clr (x : Sec) : (s.setSec x).clr = s.clr := rfl
@[simp] theorem State.setSec_tch (x : Sec) : (s.setSec x).tch = s.tch := rfl
@[simp] theorem State.setSec_eth (x : Sec) : (s.setSec x).eth = s.eth := rfl
@[simp] theorem State.setSec_ses (x : Sec) : (s.setSec x).ses = s.ses := rfl
@[simp] theorem State.setSec_trl (x : Sec) : (s.setSec x).trl = s.trl := rfl
@[simp] theorem State.setSec_cfg (x : Sec) : (s.setSec x).cfg = s.cfg := rfl
@[simp] theorem State.setSec_retained (x : Sec) : (s.setSec x).retained = s.retained := rfl
@[simp] theorem State.setSec_prc (x : Sec) : (s.setSec x).prc = s.prc := rfl
@[simp] theorem State.setSec_mtr (x : Sec) : (s.setSec x).mtr = s.mtr := rfl
@[simp] theorem State.setSec_evt (x : Sec) : (s.setSec x).evt = s.evt := rfl
@[simp] theorem State.attest_pending (k : Nat) (p : Option Nat) : (s.attest k p).pending = s.pending := State.setSec_pending s _
@[simp] theorem State.attest_free (k : Nat) (p : Option Nat) : (s.attest k p).free = s.free := State.setSec_free s _
@[simp] theorem State.attest_outbox (k : Nat) (p : Option Nat) : (s.attest k p).outbox = s.outbox := State.setSec_outbox s _
@[simp] theorem State.attest_regs (k : Nat) (p : Option Nat) : (s.attest k p).regs = s.regs := State.setSec_regs s _
@[simp] theorem State.attest_latchRd (k : Nat) (p : Option Nat) : (s.attest k p).latchRd = s.latchRd := State.setSec_latchRd s _
@[simp] theorem State.attest_latchWr (k : Nat) (p : Option Nat) : (s.attest k p).latchWr = s.latchWr := State.setSec_latchWr s _
@[simp] theorem State.attest_mem (k : Nat) (p : Option Nat) : (s.attest k p).mem = s.mem := State.setSec_mem s _
@[simp] theorem State.attest_cores (k : Nat) (p : Option Nat) : (s.attest k p).cores = s.cores := State.setSec_cores s _
@[simp] theorem State.attest_sdt (k : Nat) (p : Option Nat) : (s.attest k p).sdt = s.sdt := State.setSec_sdt s _
@[simp] theorem State.attest_pnt (k : Nat) (p : Option Nat) : (s.attest k p).pnt = s.pnt := State.setSec_pnt s _
@[simp] theorem State.attest_clr (k : Nat) (p : Option Nat) : (s.attest k p).clr = s.clr := State.setSec_clr s _
@[simp] theorem State.attest_tch (k : Nat) (p : Option Nat) : (s.attest k p).tch = s.tch := State.setSec_tch s _
@[simp] theorem State.attest_eth (k : Nat) (p : Option Nat) : (s.attest k p).eth = s.eth := State.setSec_eth s _
@[simp] theorem State.attest_ses (k : Nat) (p : Option Nat) : (s.attest k p).ses = s.ses := State.setSec_ses s _
@[simp] theorem State.attest_trl (k : Nat) (p : Option Nat) : (s.attest k p).trl = s.trl := State.setSec_trl s _
@[simp] theorem State.attest_cfg (k : Nat) (p : Option Nat) : (s.attest k p).cfg = s.cfg := State.setSec_cfg s _
@[simp] theorem State.attest_retained (k : Nat) (p : Option Nat) : (s.attest k p).retained = s.retained := State.setSec_retained s _
@[simp] theorem State.attest_prc (k : Nat) (p : Option Nat) : (s.attest k p).prc = s.prc := State.setSec_prc s _
@[simp] theorem State.attest_mtr (k : Nat) (p : Option Nat) : (s.attest k p).mtr = s.mtr := State.setSec_mtr s _
@[simp] theorem State.attest_evt (k : Nat) (p : Option Nat) : (s.attest k p).evt = s.evt := State.setSec_evt s _

/-- A write of a register does what it does where the requester may make it. -/
theorem State.atReg_may (r : Req) (n : RegName) (c i : Nat) (f : State → State)
    (h : s.mayReg r { n := n, c := c, i := i, j := 0, hi := false } true = true) : s.atReg r n c i f = f s := by
  rw [State.atReg, if_pos h]

/-- It is refused elsewhere. -/
theorem State.atReg_refused (r : Req) (n : RegName) (c i : Nat) (f : State → State)
    (h : s.mayReg r { n := n, c := c, i := i, j := 0, hi := false } true = false) : s.atReg r n c i f = s.refuse r (regAddr n c i 0) := by
  rw [State.atReg, if_neg (by simp [h])]

/-- A sequencer that fetches a command of an opcode runs it. -/
theorem State.seqRun_runs (c op : Nat) (f : BitVec 128 → State) (h : s.fetches c = true) (o : fld (s.fetchWord c) 7 0 = op)
    (r : opReserved op = false) : s.seqRun c op f = f (s.fetchWord c) := by
  simp [State.seqRun, h, o, r]

/-- One that does not fetch does nothing. -/
theorem State.seqRun_idle (c op : Nat) (f : BitVec 128 → State) (h : s.fetches c = false) : s.seqRun c op f = s := by
  simp [State.seqRun, h]

end Sys2Proof.Machine
end

