-- ==== Sys2Proof/Tests/States.lean ====
section
/-! SUPPORT. Small states for tests, built from the state after reset. -/
set_option Elab.async false

namespace Sys2Proof.Tests

open Sys2Proof.Machine

/-- A number from fields: (lowest bit, value). -/
def fieldsOf (l : List (Nat × Nat)) : Nat := l.foldl (fun a x => a + x.2 * 2 ^ x.1) 0

/-- A descriptor from fields: (byte, bit, value). -/
def descOf (l : List (Nat × Nat × Nat)) : Desc := BitVec.ofNat 2048 (fieldsOf (l.map (fun x => (8 * x.1 + x.2.1, x.2.2))))

/-- Every rail is on, core 0 is ACTIVE, and the device has a serial number, a secret and a vendor's key. -/
def base : State :=
  ({ State.reset with
    prc := { State.reset.prc with rails := upTo 10 }
    sec := { State.reset.sec with serial := 7, puf := 166, vendorHash := 3 } } : State).setCore 0 { cst := .active }

/-- Core 0 changed in the base state. -/
def withCore (f : Core → Core) : State := base.modCore 0 f

/-- Fields of a small layer: a rung of 4 serial and 5 parallel bits, I4 operands, M and N of 2, K of 16, tiles of one row and one
column, loop orders batch, M, N, K. -/
def smallFields : List (Nat × Nat × Nat) :=
  [(8, 0, 4 + 5 * 32), (20, 0, 4), (24, 0, 4), (28, 0, 6), (88, 0, 2), (92, 0, 2), (96, 0, 16), (100, 0, 0x1B), (100, 8, 0x1B),
   (100, 16, 0x1B)]

/-- The small layer. -/
def small : Desc := descOf smallFields
/-- The small layer with further fields. -/
def smallWith (l : List (Nat × Nat × Nat)) : Desc := descOf (smallFields ++ l)

/-- An operand with every code of its one row fetched. -/
def fetched : Binding := { bound := true, scaled := true, chunks := [[[1, 2, 3, 4, 5, 6, 7, 8, 9, 10, 11, 12, 13, 14, 15, 0]]] }

/-- A tile that streams on core 0, handle 0, of a layer. -/
def streaming (d : Desc) (t : Tile → Tile) : State :=
  withCore (fun k => { k with
    arr := { cur := some 0 }
    tiles := [(0, t { st := .opened, began := true, opened := true, bindA := fetched, bindW := fetched, acc := [{}] })]
    seq := { ctxs := [{ desc := d }] } })

/-! ### A key and its signatures -/

/-- The public key of the private key 5. -/
def keyBytes : List Byte :=
  4 :: toBe 66 0x652BF3C52927A432C73DBC3391C04EB0BF7A596EFDB53F0D24CF03DAB8F177ACE4383C0C6D5E3014237112FEAF137E79A329D7E1E6D8931738D5AB5096EC8F3078 ++
    toBe 66 0x15BE6EF1BDD6601D6EC8A2B73114A8112911CD8FE8E872E0051EDD817C9A0347087BB6897C9072CF374311540211CF5FF79D1F007257354F7F8173CC3E8DEB090CB
/-- A signature of that key. -/
def sigBytes (r s : Nat) : List Byte := toBe 66 r ++ toBe 66 s

end Sys2Proof.Tests
end

