-- ==== Sys2Proof/Tests/Slice0.lean ====
section
/-! SUPPORT. The model's own tests: what WellFormed refuses, the spec's worked examples, published check values, and single
steps. -/
set_option Elab.async false

namespace Sys2Proof.Tests

open Sys2Proof.Machine

/-! ### WellFormed refuses -/

/-- A well-formed transport frame of no payload. -/
def plain : HxtFrame :=
  { ver := 1, typ := 1, resp := false, ackonly := false, resvBit := false, tx := 0, session := 0, kepoch := 0, seq := 0, ack := 0,
    sack := 0, frag := 0, nfrag := 0, len := 0, payload := [], tag := zeros 16 }

theorem test_wellFormed_accepts_frame : (Instr.wakeMgmtFrame plain).wellFormed = true := by decide

theorem test_wellFormed_hxt_fields :
    ([{ plain with ver := 16 }, { plain with typ := 256 }, { plain with tx := 16 }, { plain with session := 65536 },
      { plain with kepoch := 65536 }, { plain with seq := 2 ^ 32 }, { plain with ack := 2 ^ 32 }, { plain with frag := 65536 },
      { plain with nfrag := 65536 }, { plain with len := 2 ^ 21 }, { plain with tag := [] }] : List HxtFrame).all
      (fun h => !(Instr.wakeMgmtFrame h).wellFormed) = true := by decide

theorem test_wellFormed_frame :
    let f (n : Nat) (b : FrameBody) : Frame := { da := 0, tagged := false, pcp := 0, vid := 0, bytes := n, fcsOk := true, body := b }
    (Instr.ethFrameReceive 0 (f 64 .other) .none).wellFormed = true ∧ (Instr.ethFrameReceive 0 (f 63 .other) .none).wellFormed = false ∧
    (Instr.ethFrameReceive 0 (f 64 (.hxtUdp4 0 65536 plain)) .none).wellFormed = false ∧
    (Instr.mgmtFrameReceive (f 64 (.hxtEty { plain with ver := 16 })) 0).wellFormed = false := by decide

theorem test_wellFormed_access_size :
    (Instr.registerWrite .hub 0 4 0).wellFormed = true ∧ (Instr.registerWrite .hub 0 3 0).wellFormed = false ∧
    (Instr.registerReadClear .hub 0 8).wellFormed = false := by decide

theorem test_wellFormed_inbound :
    (Instr.inboundAccess .hub 0 0xFFFFF (.read 1)).wellFormed = true ∧ (Instr.inboundAccess .hub 0 0xFFFFF (.read 2)).wellFormed = false ∧
    (Instr.inboundAccess .hub 0 0 (.read 0)).wellFormed = false ∧ (Instr.inboundAccess .hub 0 0 (.write [])).wellFormed = false ∧
    (Instr.inboundAccess .hub 0 0xFFFFF (.write [0, 0])).wellFormed = false := by decide

theorem test_wellFormed_others :
    (Instr.flitReceive 0 [] false false).wellFormed = false ∧
    (Instr.sensorSample { temp := [], cur := [], volt := [] }).wellFormed = false ∧
    (Instr.groupPartialAdd 0 0 0 0 0 [7, 512] .none).wellFormed = false ∧ (Instr.i3cWrite 0 []).wellFormed = false := by decide

/-! ### Worked examples of the spec -/

/-- 02, one activation group at two serial widths: at m = 5, E_fmt is 2 and the magnitudes are 30, 9, 2 and 1. -/
theorem test_group_at_two_widths :
    let xs := [0x76, 0xDB, 0x06, 0x03].map (elemVal 0x06 0 (fun _ => 0))
    efmtOf 0x06 8 xs = 0 ∧ xs.map (elemAt 8 0) = [118, -37, 6, 3] ∧ efmtOf 0x06 5 xs = 2 ∧ xs.map (elemAt 5 2) = [30, -9, 2, 1] := by
  decide +kernel

/-- 05, one activation row in ZRL form: blocks 2 and 6 are stored, the row's other six are zero blocks. -/
theorem test_zrl_row :
    let b2 : List Byte := [0x0C, 0, 0xFD, 0, 0, 7, 0, 0, 0, 0, 0, 0, 1, 0, 0, 0xFB]
    let b6 : List Byte := [0, 0, 0, 0, 0, 0, 0, 0, 0, 0, 0, 0, 0, 0, 0, 2]
    zrlBlocks 16 8 ([0x02] ++ b2 ++ [0x03] ++ b6) = ([none, none, some b2, none, none, none, some b6, none], false) := by decide +kernel

/-- 05: a run of 300 zero blocks before a stored block is written 0xFF 0x2D. -/
theorem test_zrl_run :
    let b : List Byte := List.replicate 16 1
    zrlBlocks 16 301 ([0xFF, 0x2D] ++ b) = (List.replicate 300 none ++ [some b], false) := by decide +kernel

/-- The up-projection's tile space in buckets of 6,144 (192 tiles) and 8,192 (256 tiles) rows (08). -/
def upProjection (tm : Nat) : Space :=
  { tb := 4, tm := tm, tn := 32, tk := 1, blkm := 32, blkn := 4, lordb := 0x1B, lordt := 0x27, hil := true }

/-- 08, the up-projection at a run-time length: tile (1, 100, 13) is 7,460, and 9,508 under the 8,192 bucket. -/
theorem test_tile_index :
    (upProjection 192).index 1 100 13 0 = 7460 ∧ (upProjection 256).index 1 100 13 0 = 9508 ∧
    (upProjection 192).coords 7460 = some (1, 100, 13, 0) := by decide +kernel

/-- 12, the header of fragment 0 of message 0x2E10 on session 0x01A7, and its nonce under the salt 5E 19 C3 A2. -/
theorem test_hxt_header :
    let h : HxtFrame := { plain with typ := mWRITE, session := 0x01A7, seq := 0x2E10, ack := 0x391, nfrag := 127, len := 1048584 }
    frameHeader h = [0x01, 0x04, 0, 0, 0xA7, 0x01, 0, 0, 0x10, 0x2E, 0, 0, 0x91, 0x03, 0, 0, 0, 0, 0, 0, 0, 0, 0, 0, 0, 0, 0x7F, 0, 0x08, 0,
      0x10, 0] ∧
    frameNonce h [0x5E, 0x19, 0xC3, 0xA2] = [0x5E, 0x19, 0xC3, 0xA2, 0x10, 0x2E, 0, 0, 0, 0, 0, 0] := by decide +kernel

/-! ### Published check values -/

/-- The CRC-32 of IEEE 802.3 of the digits 1 to 9. -/
theorem test_crc32_check : crc32 [0x31, 0x32, 0x33, 0x34, 0x35, 0x36, 0x37, 0x38, 0x39] = 0xCBF43926 := by decide +kernel

/-- FIPS 180-4: SHA-512 of "abc" begins DDAF35A1 93617ABA. -/
theorem test_sha512_abc : (sha512 [0x61, 0x62, 0x63]).take 8 = [0xDD, 0xAF, 0x35, 0xA1, 0x93, 0x61, 0x7A, 0xBA] := by decide +kernel

/-! ### Single steps -/

/-- The next state of a step, looked at. -/
def after (s : State) (c : Instr) (f : State → Bool) : Bool :=
  match step { s with pending := [c] } with
  | .next t => f t
  | _ => false

/-- R285, R342: a session writes the write index of core 0 through a window that grants it. -/
theorem test_ring_write :
    after (({ base with cfg := { parts := [(5, BitVec.ofNat 256 5)] } }.setRg .spdWinBase 0 0 0 128).setRg .spdWinCfg 0 0 0
        (BitVec.ofNat 32 (3 + 7 * 4 + 7 * 32))) (.ringWriteIndex (.session 7) 0 9)
      (fun t => (t.core 0).seq.wr = 9) = true := by decide +kernel

/-- R14: a write sets an RW field. -/
theorem test_register_write :
    after base (.registerWrite .hub (BitVec.ofNat 48 (regAddr .spdWinBase 0 3 0)) 4 0x80) (fun t => t.rg .spdWinBase 0 3 = 0x80) = true := by
  decide +kernel

/-- R408: nothing is patrolled while the Cellar is untrained. -/
theorem test_patrol_needs_cellar : after base (.patrolScrubLine []) (fun t => t.clr = base.clr) = true := by decide +kernel

/-- R367: HALT of core 0 stops its sequencer. -/
theorem test_halt :
    after (((withCore (fun k => { k with seq := { halted := false, wr := 1 } })).setSpad 0 0 (toLe 16 0x19))) (.halt 0)
      (fun t => (t.core 0).seq.halted && (t.core 0).seq.rd = 1) = true := by decide +kernel

/-- R545: a warm reset by WRST_N records its cause and clears DFAULT. -/
theorem test_warm_reset : after base (.wrstPin 4) (fun t => t.evt.warm = some 1 && !t.evt.dfault) = true := by decide +kernel

/-- R483: burning only sets bits. -/
theorem test_provision :
    after { base with sec := { base.sec with boot := .rom, ownerHash := 1 } } (.provisionOwner 6) (fun t => t.sec.ownerHash = 7) = true := by
  decide +kernel

end Sys2Proof.Tests
end

