-- ==== Sys2Proof/Tests/Witness1.lean ====
section
/-! SUPPORT. Witnesses: concrete states and operands that meet the hypotheses of the statements about registers, the array, the
Gauge, the output path, the Sieve, the engines, slots, windows and DMA, clause by clause. -/
set_option Elab.async false

namespace Sys2Proof.Tests

open Sys2Proof.Machine

/-! ### The step -/

theorem witness_StepRunsFrontCommand :
    ({ base with pending := [.sramZeroFillDone, .d3EntryDone] } : State).pending = .sramZeroFillDone :: [.d3EntryDone] := by decide

theorem witness_EmptyQueueTicks :
    base.pending = [] ∧ base.prc.porst = false ∧ base.prc.standby = true ∧
    ({ base with prc := { base.prc with porst := true } } : State).prc.porst = true := by decide +kernel

theorem witness_QueueFirstInFirstOut :
    step { base with pending := [.sramZeroFillDone, .d3EntryDone] } = .next { base with pending := [.d3EntryDone] } := rfl

theorem witness_MemoryStaysCanonical : MemWf { base with mem := [(3, 7)] } ∧
    step { base with mem := [(3, 7)], pending := [.sramZeroFillDone] } = .next { base with mem := [(3, 7)] } :=
  ⟨by decide, rfl⟩

theorem witness_NoCommandStops : (Instr.sensorSample
    { temp := List.replicate 64 0, cur := List.replicate 16 0, volt := List.replicate 24 0 }).wellFormed = true := by decide +kernel

/-! ### Registers -/

/-- PRC_WAKECFG. -/
def wakecfg : RegRef := { n := .prcWakecfg, c := 0, i := 0, j := 0, hi := false }
/-- Its address. -/
def wakecfgAt : Addr := BitVec.ofNat 48 (regAddr .prcWakecfg 0 0 0)

theorem witness_RegisterWrite_1 :
    base.reach .porch wakecfgAt.toNat 4 true = some wakecfg ∧ base.ungateFor wakecfg = base ∧
    reservedIn wakecfg.fields (5 : W32).toNat = false ∧ base.regBusy wakecfg (5 : W32).toNat = false ∧
    actsClash wakecfg.n (5 : W32).toNat = false ∧ wakecfg.hi = false ∧ wakecfg.n.row.pair = false ∧
    hasAcc wakecfg.fields .img = false ∧ base.coreAct .porch wakecfg (5 : W32).toNat = none ∧
    base.memAct .porch wakecfg (5 : W32).toNat = none ∧ base.hubAct .porch wakecfg (5 : W32).toNat = none := by decide +kernel

/-- SPD_SLOTnCFG of slot 3 of core 0, whose producer class has reserved codes. -/
def slotCfg : RegRef := { n := .spdSlotCfg, c := 0, i := 3, j := 0, hi := false }

theorem witness_RegisterWrite_2 :
    base.reach .hub (BitVec.ofNat 48 (regAddr .spdSlotCfg 0 3 0) : Addr).toNat 4 true = some slotCfg ∧ base.ungateFor slotCfg = base ∧
    reservedIn slotCfg.fields (0xE : W32).toNat = true := by decide +kernel

theorem witness_RegisterWrite_3 : base.reach .porch (wakecfgAt + 1).toNat 4 true = none := by decide +kernel

/-- EVT_CNTC, which a read clears. -/
def cntC : RegRef := { n := .evtCntC, c := 0, i := 0, j := 0, hi := false }

theorem witness_RegisterReads_1 :
    base.reach .porch (BitVec.ofNat 48 (regAddr .evtCntC 0 0 0) : Addr).toNat 4 false = some cntC ∧ base.ungateFor cntC = base ∧
    cntC.n.row.pair = false ∧ cntC.hi = false ∧ cntC.n ≠ .arrStatus ∧ maskOf cntC.fields (· = .rc) ≠ 0 := by decide +kernel

/-- ARR_BCYC of core 0. -/
def bcyc : RegRef := { n := .arrBcyc, c := 0, i := 0, j := 0, hi := false }

theorem witness_RegisterReads_2 :
    base.reach .porch (BitVec.ofNat 48 (regAddr .arrBcyc 0 0 0) : Addr).toNat 4 false = some bcyc ∧ base.ungateFor bcyc = base ∧
    bcyc.n.row.pair = true ∧ bcyc.hi = false ∧ maskOf bcyc.fields (· = .rc) = 0 ∧ bcyc.n ≠ .arrStatus := by decide +kernel

theorem witness_LatchedHalfIsReadOnce :
    ({ bcyc with hi := true } : RegRef).n.row.pair = true ∧
    Sparse.get none ({ base with latchRd := [(regAddr .arrBcyc 0 0 0, some 9)] } : State).latchRd (regAddr .arrBcyc 0 0 0) =
      some 9 := by decide +kernel

/-! ### The array -/

/-- The small layer with two output rows in a tile. -/
def tall : Desc := smallWith [(80, 16, 1)]
/-- Its tile streams on core 0: two rows of accumulators; every brick as given. -/
def tallAt (k : Brick) (t : Tile → Tile) : State :=
  (streaming tall (fun x => t { x with acc := [{}, {}] })).modArr 0 (fun a =>
    { a with bricks := (upTo 8).map (fun b => (b, k)) })

theorem witness_Bricks_1 :
    let s := tallAt { active := some 0 } id
    (s.core 0).arr.cur = some 0 ∧ s.coreOpen 0 = true ∧ s.isImatch 0 0 = false ∧ 7 < (s.geo 0 0).bricks ∧
    ((s.core 0).arr.brick 7).done = ((s.core 0).arr.brick 7).begun ∧ ((s.core 0).arr.brick 7).begun < (s.geo 0 0).steps ∧
    ((s.core 0).arr.brick 7).active = some ((s.geo 0 0).load ((s.core 0).arr.brick 7).begun) ∧
    s.aheadAt 0 0 (s.geo 0 0) ((s.core 0).arr.brick 7).begun = some 0 ∧
    s.opsReady 0 0 (s.geo 0 0) ((s.geo 0 0).kRange ((s.geo 0 0).stepAt ((s.core 0).arr.brick 7).begun).2.1).2 = (true, s) := by
  decide +kernel

theorem witness_Bricks_2 :
    let s := tallAt { active := some 0, begun := 1, cost := 3 } id
    (s.core 0).arr.cur = some 0 ∧ s.coreOpen 0 = true ∧
    ((s.core 0).arr.brick 7).begun = ((s.core 0).arr.brick 7).done + 1 ∧ 7 < (s.geo 0 0).bricks ∧
    ((s.core 0).arr.brick 7).done + 1 < (s.geo 0 0).steps := by decide +kernel

theorem witness_Bricks_3 :
    let s := (tallAt {} id).modArr 0 (fun a =>
      { a with bricks := (upTo 7).map (fun b => (b, { active := some 0, fulls := [b] })) })
    (s.core 0).arr.cur = some 0 ∧ s.coreOpen 0 = true ∧ s.isImatch 0 0 = false ∧ 7 < (s.geo 0 0).bricks ∧
    ((s.core 0).arr.brick 7).done = ((s.core 0).arr.brick 7).begun ∧ ((s.core 0).arr.brick 7).begun < (s.geo 0 0).steps ∧
    ((s.core 0).arr.brick 7).active ≠ some ((s.geo 0 0).load ((s.core 0).arr.brick 7).begun) ∧
    (s.core 0).arr.fullOk ((s.geo 0 0).fillTime ((s.core 0).arr.brick 7).begun) 7 1000 = true ∧
    s.sideReady 0 0 (s.geo 0 0).d.parallel (s.geo 0 0)
      ((s.geo 0 0).kRange ((s.geo 0 0).stepAt ((s.core 0).arr.brick 7).begun).2.1).2 = (true, s) := by decide +kernel

theorem witness_AnchorsAndPartials_1 :
    let s := (tallAt {} (fun x => { x with acc := [{ anch := true }, {}] })).modArr 0 (fun a => { a with cur := none })
    let g := s.geo 0 0
    s.coreOpen 0 = true ∧ (s.tile 0 0).opened = true ∧ s.isImatch 0 0 = false ∧ (s.tile 0 0).sumFrom = false ∧ 1 < g.steps ∧
    (s.tile 0 0).anchored g (g.stepAt 1).1 = false ∧ (s.tile 0 0).pre = none ∧ s.scalesReady 0 0 g = (true, s) ∧
    (s.core 0).arr.cur ≠ some 0 ∧ (s.tile 0 0).acc.length = g.rows * g.cols ∧ (g.stepAt 1).1 < g.rows ∧
    (upTo (g.stepAt 1).1).all ((s.tile 0 0).anchored g) = true ∧ s.stalled 0 (.anch 0 (g.stepAt 1).1) = false ∧
    s.slotCheck 0 (anchorOff g.d 0 g.outs ((g.stepAt 1).1 * g.cols)) (2 * g.colsA) true pOut = .ok ∧ g.colsA ≤ g.cols := by
  decide +kernel

theorem witness_AnchorsAndPartials_2 :
    let s := tallAt { done := 2, begun := 2 } (fun t => { t with acc := [{ anch := true }, { anch := true }] })
    let g := s.geo 0 0
    let u := s.tile 0 0
    s.coreOpen 0 = true ∧ u.opened = true ∧ u.ended = false ∧ s.isImatch 0 0 = false ∧ u.sumFrom = false ∧ 1 < g.steps ∧
    0 = (g.stepAt 1).2.2 ∧ (g.groupsOf (g.stepAt 1).2.1).contains 0 = true ∧ g.rowLive u (g.stepAt 1).1 = true ∧
    u.anchored g (g.stepAt 1).1 = true ∧ u.added.contains (1, 0, 0) = false ∧ s.groupDone 0 0 g 1 0 = true ∧ u.pass2 = false ∧
    u.added.length + 1 < g.addsDue u := by decide +kernel

theorem witness_AnchorsAndPartials_3 : base.coreOpen 0 = true := by decide +kernel

/-! ### The Gauge -/

/-- A tile that the Gauge holds, its anchors written. -/
def sampled (g : GaugeSt) : State :=
  (streaming small (fun t => { t with gst := g, acc := [{ anch := true }] })).modCore 0 (fun k => { k with gauge := [0] })

theorem witness_GaugeSamples_1 :
    let s := sampled .due
    s.coreOpen 0 = true ∧ (s.tile 0 0).opened = true ∧ (s.tile 0 0).gst = .due ∧ (s.core 0).gauge.head? = some 0 ∧
    (s.tile 0 0).allAnchored (s.geo 0 0) = true ∧ s.opsReady 0 0 (s.geo 0 0) (s.geo 0 0).k1 = (true, s) := by decide +kernel

theorem witness_GaugeSamples_2 :
    let s := sampled .running
    s.coreOpen 0 = true ∧ (s.tile 0 0).gst = .running ∧ (s.tile 0 0).ended = false := by decide +kernel

/-! ### The output path -/

/-- A tile in the output path of core 0, of a layer whose program is loaded. -/
def leaving (d : Desc) (t : Tile → Tile) : State :=
  withCore (fun k => { k with
    tiles := [(0, t { st := .output, began := true, opened := true, ended := true, checked := true, oslot := some 2, acc := [{}] })]
    seq := { ctxs := [{ desc := d, prog := true }] } })

theorem witness_OutputPath_1 :
    let s := leaving small id
    s.coreOpen 0 = true ∧ s.pathOpen 0 0 = true ∧ (s.tile 0 0).chunk < s.chunkTotal 0 0 (s.geo 0 0) ∧
    ((s.tile 0 0).chunk = 0 ∧ (s.geo 0 0).d.auxen = false) ∧
    (s.history 0 0 (s.geo 0 0)).1 = some none := by decide +kernel

theorem witness_OutputPath_2 :
    let s := leaving small (fun t => { t with chunk := 1, outSt := .running })
    s.coreOpen 0 = true ∧ s.pathOpen 0 0 = true ∧ (s.tile 0 0).chunk = s.chunkTotal 0 0 (s.geo 0 0) ∧
    0 < s.chunkTotal 0 0 (s.geo 0 0) ∧ (s.geo 0 0).d.dsmode = 0 ∧ (s.tile 0 0).satOut = false := by decide +kernel

theorem witness_OutputPath_3 :
    let s := leaving (smallWith [(4, 19, 2)]) (fun t => { t with chunk := 1, outSt := .running, satOut := true })
    s.coreOpen 0 = true ∧ s.pathOpen 0 0 = true ∧ (s.tile 0 0).chunk = s.chunkTotal 0 0 (s.geo 0 0) ∧
    0 < s.chunkTotal 0 0 (s.geo 0 0) ∧ (s.geo 0 0).d.dsmode = 2 ∧ (s.tile 0 0).jit = false ∧ (s.tile 0 0).satOut = true := by
  decide +kernel

/-! ### The Sieve -/

/-- An index-match tile whose slots 0 and 1 hold its operands' headers; both slots are declared and FULL. -/
def matching : State :=
  ((((streaming (smallWith [(0, 25, 1)]) (fun t => { t with
    acc := [], bindA := { bound := true, dslot := 0, sslot := 0 }, bindW := { bound := true, dslot := 1, sslot := 1 } })).setRg
    .spdSlotBase 0 0 0 0).setRg .spdSlotCfg 0 0 0 0x11).setRg .spdSlotBase 0 1 0 4).setRg .spdSlotCfg 0 1 0 0x11
    |>.modCore 0 (fun k => { k with slots := [(0, { st := .draining }), (1, { st := .draining })] })

theorem witness_SieveCommands_1 :
    let s := matching
    let g := s.geo 0 0
    let none_ : Idx := { rowptr := 0, idx := 0, val := 0, rows := 2 }
    s.coreOpen 0 = true ∧ (s.tile 0 0).opened = true ∧ s.isImatch 0 0 = true ∧ (s.core 0).arr.cur = some 0 ∧
    (s.tile 0 0).row < g.rowsA ∧ (s.idxOf 0 0 false (g.sideBase false).2).1 = some none_ ∧
    (let v := ((s.idxOf 0 0 false (g.sideBase false).2).2.idxOf 0 0 true ((if g.d.batw then g.d.tb else 1) * g.d.kA g.alen))
     v.1 = some { none_ with rows := 16 } ∧
     (let w := v.2.slotScales 0 0 g.d.sideA g
      let x := w.2.slotScales 0 0 g.d.sideW g
      w.1 = true ∧ x.1 = true ∧ ((s.core 0).loadStall 0).isNone = true ∧
      ((x.2.imRow 0 0 g none_ { none_ with rows := 16 } (s.tile 0 0).row).core 0).loadStall 0 = none)) := by decide +kernel

/-- The tile with nine runs of its first row, which has ended. -/
def nineRuns : State := matching.modTile 0 0 (fun t => { t with row := 1, runs := (upTo 9).map (fun i => { row := 0, recs := [(i, 1)] }) })

theorem witness_SieveCommands_2 :
    nineRuns.coreOpen 0 = true ∧ (nineRuns.core 0).mergeNext = some (0, 0) ∧
    8 < ((nineRuns.tile 0 0).runs.filter (·.row = 0)).length := by decide +kernel

/-- Core 0 with jobs at its engines. -/
def withJobs (l : List Job) : State := withCore (fun k => { k with seq := { ctxs := [{ desc := small }], jobs := l } })

theorem witness_SieveCommands_3 :
    let j : Job := { eng := .merge, cmd := 0x3C, vlen := 0, ctx := 0, running := true }
    let s := withJobs [j]
    s.coreOpen 0 = true ∧ s.runningJob 0 .merge = some j ∧ s.stalled 0 (.eng .merge) = false ∧
    s.mergeJob 0 j = (true, (s.mergeJob 0 j).2) := by decide +kernel

theorem witness_SieveCommands_4 :
    let r : HubRow := { disp := 3, row := 1, cnt := 1, core := 0, h := 2, full := true }
    let s := { base with sdt := { hub := [r] } }
    s.sdt.hub.find? (fun r => r.disp = 3 && r.row = 1 && r.full) = some r ∧ s.coreOpen r.core = true := by decide +kernel

theorem witness_SieveCommands_5 :
    let s := (streaming small (fun t => { t with sst := .running, st := .claimed, added := [(0, 0, 0)] })).modSeq 0 (fun q =>
      { q with wait := .scout 0 5 })
    s.coreOpen 0 = true ∧ (s.tile 0 0).opened = true ∧ (s.tile 0 0).sst = .running ∧
    (s.geo 0 0).addsDue (s.tile 0 0) ≤ (s.tile 0 0).added.length ∧ (s.tile 0 0).st = .claimed ∧
    (s.core 0).seq.wait = .scout 0 5 := by decide +kernel

theorem witness_SortOrder :
    ([0, 3, 10] : List Nat) ≠ [] ∧ ([0, 3, 10] : List Nat).getD 0 0 = 0 ∧ ([0, 3, 10] : List Nat).Pairwise (· < ·) ∧
    (sortOf [0, 3, 10] [5, 1, 12, 3, 2, 0, 10]).1[1]? = some 4 ∧ (sortOf [0, 3, 10] [5, 1, 12, 3, 2, 0, 10]).1[6]? = some 6 ∧
    bucketOf [0, 3, 10] 9 + 1 < 3 ∧ (sortOf [0, 3, 10] [5, 1, 12, 3, 2, 0, 10]).2[2]? = some 5 := by decide +kernel

/-! ### The engines -/

theorem witness_EngineQueues_1 :
    let s := withCore (fun k => { k with seq := { ctxs := [{ desc := smallWith [(152, 0, spadBase 0)] }] } })
    s.progCtx 0 = some { desc := smallWith [(152, 0, spadBase 0)] } ∧ s.coreOpen 0 = true ∧ s.stalled 0 .prog = false ∧
    s.olderOwed 0 0 = false ∧
    (s.engRead 0 (Desc.eprog (smallWith [(152, 0, spadBase 0)])) 176 cVec (s.core 0).vec.asStored).1 = .ok (zeros 176) := by
  decide +kernel

theorem witness_EngineQueues_2 :
    let s := (withJobs []).modSeq 0 (fun q => { q with wait := .engine .conv })
    s.coreOpen 0 = true ∧ (s.core 0).seq.wait = .engine .conv ∧ s.placeFree 0 .conv = true := by decide +kernel

theorem witness_EngineQueues_3 :
    let j : Job := { eng := .vprog, cmd := 0, vlen := 4, ctx := 0 }
    let s := withJobs [j]
    s.queuedJob 0 .vprog = some j ∧ s.coreOpen 0 = true ∧ s.runningJob 0 .vprog = none ∧ s.stalled 0 (.eng .vprog) = false ∧
    s.vprogHeld 0 j.cmd (s.vprogImage 0 j.cmd) = false ∧ (s.jobTouch 0 .vprog j.asStored cVec (vprogImageAt j.cmd)).1 = true := by
  decide +kernel

theorem witness_EngineCompletions_1 :
    let j : Job := { eng := .vprog, cmd := BitVec.ofNat 128 (2 ^ 36), vlen := 4, ctx := 0, running := true }
    let s := withJobs [j]
    s.runningJob 0 .vprog = some j ∧ s.coreOpen 0 = true ∧ s.stalled 0 (.eng .vprog) = false ∧
    s.vprogHeld 0 j.cmd (s.core 0).vec.store1 = false ∧ flag j.cmd 36 = true ∧ flag j.cmd 45 = false := by decide +kernel

theorem witness_EngineCompletions_2 :
    let j : Job := { eng := .rake, cmd := BitVec.ofNat 128 (2 ^ 35), vlen := 1024, ctx := 0, running := true }
    let s := withJobs [j]
    s.runningJob 0 .rake = some j ∧ s.coreOpen 0 = true ∧ s.stalled 0 (.eng .rake) = false ∧ flag j.cmd 35 = true ∧
    fld j.cmd 11 8 ≠ 8 ∧ (s.core 0).seq.jobs.filter (fun k => k.eng = .rake) = [j] := by decide +kernel

theorem witness_EngineCompletions_3 :
    let j : Job := { eng := .conv, cmd := 0, vlen := 4, ctx := 0, running := true }
    let s := withJobs [j]
    s.runningJob 0 .conv = some j ∧ s.coreOpen 0 = true ∧ s.stalled 0 (.eng .conv) = false ∧
    (let g := gsizeOf (fld j.cmd 79 78)
     let sca := fld j.cmd 35 22 * 32
     let ts := streamSels (fld j.cmd 40 36) (fld j.cmd 42 41 = 1) sca (fld j.cmd 101 86) j.vlen g
     (s.jobTouch 0 .conv j.asStored cVec [(fld j.cmd 21 8 * 32, streamBytes (fld j.cmd 40 36) (fld j.cmd 101 86) j.vlen),
       (sca, if fld j.cmd 42 41 = 1 then streamScales (fld j.cmd 101 86) j.vlen g else 0), (sca + ts.1, ts.2)]).1 = true) ∧
    (s.core 0).seq.jobs.filter (fun k => k.eng = .conv) = [j] := by decide +kernel

theorem witness_EngineCompletions_4 :
    let j : Job := { eng := .sort, cmd := 0, vlen := 0, ctx := 0, running := true }
    let s := withJobs [j]
    s.runningJob 0 .sort = some j ∧ s.coreOpen 0 = true ∧ s.stalled 0 (.eng .sort) = false ∧
    (s.jobTouch 0 .sort j.asStored cTile [(fld j.cmd 21 8 * 32, 4 * (fld j.cmd 99 68 + 1)),
      (fld j.cmd 35 22 * 32, 4 * (fld j.cmd 39 36 + 1))]).1 = true ∧
    (s.core 0).seq.jobs.filter (fun k => k.eng = .sort) = [j] := by decide +kernel

/-! ### Slots, windows and DMA -/

/-- Core 0 with slot 3 declared (64 bytes from 0, consumer TILE and VEC), in a state. -/
def slotIn (x : SlotSt) : State :=
  (base.setRg .spdSlotBase 0 3 0 0x4000 |>.setRg .spdSlotCfg 0 3 0 0x31).setSlot 0 3 { st := x }

theorem witness_SlotStates :
    (slotIn .filling).declared 0 3 = true ∧ ((slotIn .filling).slot 0 3).st = .filling ∧ (slotIn .filling).barrierOf 0 3 = none ∧
    ((slotIn .empty).slot 0 3).st = .empty ∧ ((slotIn .draining).slot 0 3).st = .draining ∧
    ((slotIn .full).slot 0 3).st = .full ∧ ((slotIn .full).cmask 0 3).testBit cVec = true ∧
    ((slotIn .full).slotHold 0 3 && cVec < 3) = false ∧ ((slotIn .full).cmask 0 3).testBit 7 = false := by decide +kernel

/-- The slot with HOLD, which TILE, VEC and RAKE do not release. -/
theorem witness_SlotStates_hold :
    (((slotIn .full).setRg .spdSlotCfg 0 3 0 0x1031).slotHold 0 3 && cVec < 3) = true := by decide +kernel

theorem witness_SlotDeclarations_1 :
    base.coreOpen 0 = true ∧ bits (0x19 : W32).toNat 1 3 < 5 ∧ (0x19 : W32).toNat.testBit 15 = false ∧ base.declared 0 63 = false ∧
    (0x19 : W32).toNat.testBit 0 = true ∧ base.declBad 0 63 (base.rg .spdSlotBase 0 63).toNat ((0x19 : W32).toNat % 2 ^ 13) = false := by
  decide +kernel

theorem witness_SlotDeclarations_3 : (base.setCore 0 { cst := .fenced }).coreOpen 0 = false := by decide +kernel

theorem witness_SlotDeclarations_2 :
    let s := slotIn .full
    s.coreOpen 0 = true ∧ bits (0x11 : W32).toNat 1 3 < 5 ∧ s.declared 0 4 = false ∧ (0x11 : W32).toNat.testBit 0 = true ∧
    s.declBad 0 4 (s.rg .spdSlotBase 0 4).toNat ((0x11 : W32).toNat % 2 ^ 13) = true := by decide +kernel

/-- An access of channel 5 that stalls on slot 3. -/
def stallOf (w : StallBy) (wr : Bool) : Stall := { who := w, slot := 3, wr := wr, off := 0, len := 4, data := [] }

theorem witness_StallsAndInbound_1 :
    let s := (slotIn .full).modCore 0 (fun k => { k with stalls := [stallOf (.dma 5) false] })
    (s.core 0).stalls[0]? = some (stallOf (.dma 5) false) ∧ s.coreOpen 0 = true ∧ s.stallFree 0 (stallOf (.dma 5) false) = true ∧
    (s.core 0).stallFirst 0 (stallOf (.dma 5) false) = true := by decide +kernel

theorem witness_StallsAndInbound_2 :
    let s := (slotIn .filling).modCore 0 (fun k => { k with stalls := [stallOf (.tile 2 true) false] })
    (s.core 0).stalls[0]? = some (stallOf (.tile 2 true) false) ∧ s.coreOpen 0 = true ∧
    s.stallFree 0 (stallOf (.tile 2 true) false) = false ∧ (s.core 0).stallFirst 0 (stallOf (.tile 2 true) false) = true ∧ (stallOf (.tile 2 true) false).wr = false := by decide +kernel

/-- A window of core 0, of partition 5, over its 512 KiB, open to session 7 to read, write and signal. -/
def windowed : State :=
  (State.setRg { base with cfg := { base.cfg with parts := [(5, BitVec.ofNat 256 5)] } } .spdWinBase 0 9 0 0xFFFC000).setRg .spdWinCfg 0 9 0 (BitVec.ofNat 32 (3 + 7 * 4 + 7 * 32))

theorem witness_StallsAndInbound_3 :
    let s := windowed
    s.coreOpen 0 = true ∧ (0x7FFF8 : BitVec 20).toNat + ([1, 2, 3, 4, 5, 6, 7, 8] : List Byte).length ≤ 0x80000 ∧
    reqCore (.session 7) ≠ some 0 ∧ s.admitted (.session 7) 0 (0x7FFF8 : BitVec 20).toNat 8 .wr = true ∧
    s.slotCheck 0 (0x7FFF8 : BitVec 20).toNat 8 true (reqClass (.session 7)).1 = .ok ∧
    s.admitted (.session 7) 0 (0x7FFF8 : BitVec 20).toNat 8 .rd = true ∧
    s.slotCheck 0 (0x7FFF8 : BitVec 20).toNat 8 false (reqClass (.session 7)).2 = .ok ∧
    s.behind (.session 7) 0 (0x7FFF8 : BitVec 20).toNat 8 true = none ∧
    s.behind (.session 7) 0 (0x7FFF8 : BitVec 20).toNat 8 false = none ∧ (0x7FFF8 : BitVec 20).toNat < 0x80000 := by decide +kernel

/-- Its first slot is declared, EMPTY, at the window's first byte. -/
theorem witness_StallsAndInbound_4 :
    let s := (windowed.setRg .spdSlotBase 0 3 0 0x4000).setRg .spdSlotCfg 0 3 0 0x31
    s.coreOpen 0 = true ∧ (0 : BitVec 20).toNat < 0x80000 ∧ s.admitted (.session 7) 0 (0 : BitVec 20).toNat 1 .sig = true ∧
    s.slotFrom 0 (0 : BitVec 20).toNat = some 3 ∧ (s.slot 0 3).st = .empty ∧
    (s.setSlot 0 3 { st := .full }).barrierOf 0 3 = none := by decide +kernel

/-- A DMA descriptor: COPY of one row of 16 bytes, 4 rows, from scratchpad offset 0 to 0x100 of core 0. -/
def copyDesc : BitVec 512 := BitVec.ofNat 512 (fieldsOf
  [(0, spadBase 0), (64, spadBase 0 + 0x100), (128, 16), (160, 4), (192, 1), (224, 16), (288, 16)])

/-- Channel 15 of core 0. -/
def channel (x : Chan) : State := withCore (fun k => { k with chans := [(15, x)] })

theorem witness_DmaChannels_1 :
    base.mayReg .hub { n := .dmaCtrl, c := 0, i := 15, j := 0, hi := false } true = true ∧ base.chanFree 0 15 = true ∧
    (channel { st := .run }).mayReg .hub { n := .dmaCtrl, c := 0, i := 15, j := 0, hi := false } true = true ∧
    (channel { st := .run }).chanFree 0 15 = false ∧
    (let x : Chan := { st := .run }; (x.use_ = .chain && x.loaded && x.rows = ddRows x.desc) = false) ∧
    (let x : Chan := { st := .run, loaded := true, desc := copyDesc, rows := 4 }
     (x.use_ = .chain && x.loaded && x.rows = ddRows x.desc) = true) := by decide +kernel

theorem witness_DmaChannels_2 :
    let s := channel { st := .run, desc := copyDesc, loaded := true, rows := 3 }
    let x := s.chan 0 15
    s.coreOpen 0 = true ∧ s.rowDue 0 15 = true ∧ x.loaded = true ∧ ddOp x.desc = 0 ∧ ddSrem x.desc = false ∧ ddDrem x.desc = false ∧
    isReg (ddRowSrc x.desc x.rows) = false ∧ isReg (ddRowDst x.desc x.rows) = false ∧ x.halt = false ∧
    ((s.dramRow 0 15 [(0, [(true, 1, 2)])]).readMem (coreReq 0) (ddHint x.desc) (ddRowSrc x.desc x.rows) (ddX x.desc)).1 = .ok (zeros 16) ∧
    (((s.dramRow 0 15 [(0, [(true, 1, 2)])]).readMem (coreReq 0) (ddHint x.desc) (ddRowSrc x.desc x.rows) (ddX x.desc)).2.writeMem (coreReq 0) (ddHint x.desc)
      (ddRowDst x.desc x.rows) (zeros 16)).1 = .ok ∧
    (((s.dramRow 0 15 [(0, [(true, 1, 2)])]).readMem (coreReq 0) (ddHint x.desc) (ddRowSrc x.desc x.rows) (ddX x.desc)).2.writeMem (coreReq 0) (ddHint x.desc)
      (ddRowDst x.desc x.rows) (zeros 16)).2.chan 0 15 = x := by decide +kernel

theorem witness_DmaChannels_3 :
    let s := channel { st := .run, desc := copyDesc, loaded := true, rows := 4 }
    let x := s.chan 0 15
    s.coreOpen 0 = true ∧ x.use_ = .chain ∧ x.st = .run ∧ x.loaded = true ∧ x.rows = ddRows x.desc ∧ x.acks = 0 ∧
    ddChain x.desc = false ∧ ddSetfull x.desc = false ∧ ddRelease x.desc = false := by decide +kernel

/-- A tile whose activations channel 2 fetches from the scratchpad. -/
def fetching : State :=
  (streaming (smallWith [(188, 0, spadBase 0)]) (fun t => { t with
    bindA := { bound := true, fetch := true, ch := 2, scaled := true } })).modCore 0 (fun k =>
      { k with chans := [(2, { st := .run, use_ := .fetch 0 false })] })

theorem witness_DmaChannels_4 :
    let s := fetching
    let b := (s.tile 0 0).bind false
    let g := s.geo 0 0
    s.coreOpen 0 = true ∧ b.bound = true ∧ b.fetch = true ∧ b.failed = false ∧ (s.chan 0 b.ch).use_ = .fetch 0 false ∧
    (s.chan 0 b.ch).st = .run ∧ s.stalled 0 (.dma b.ch) = false ∧ b.chunks.length < g.chunkCount b ∧ (s.chan 0 b.ch).halt = false ∧
    b.scaled = true ∧ g.d.sideA.zr = false ∧
    (s.readAll 0 (g.denseSegs g.d.sideA (g.chunkRange b b.chunks.length).1 (g.chunkRange b b.chunks.length).2)).1 =
      .ok [zeros 8] := by decide +kernel

end Sys2Proof.Tests
end

