-- ==== Sys2Proof/Tests/Witness2.lean ====
section
/-! SUPPORT. Witnesses for the statements about the Pantry, the Seed Tray, the sequencer's commands and a tile's commit, clause by
clause. -/
set_option Elab.async false

namespace Sys2Proof.Tests

open Sys2Proof.Machine

/-! ### The Pantry and the Seed Tray -/

/-- A register of the hub. -/
def hubRegRef (n : RegName) (i : Nat) : RegRef := { n := n, c := 0, i := i, j := 0, hi := false }

theorem witness_PantryOperations :
    base.mayReg .hub (hubRegRef .pntOpctl 0) true = true ∧ base.pantryRuns = none ∧
    ({ base with pnt := { op := some (.wbinv, 63) } } : State).mayReg .hub (hubRegRef .pntOpctl 0) true = true ∧
    ({ base with pnt := { op := some (.wbinv, 63) } } : State).pantryRuns ≠ none ∧
    ({ base with pnt := { op := some (.wbinv, 63) } } : State).pnt.op = some (.wbinv, 63) ∧
    ({ base with pnt := { op := some (.wb, 0) } } : State).pnt.op = some (.wb, 0) ∧
    base.mayReg .porch (hubRegRef .pntCntsel 0) true = true := by decide +kernel

/-- Core 0 waits for an answer to its LAYER, of dispenser 0 and LSEQ 7. -/
def presented (x : Disp) : State :=
  { withCore (fun k => { k with seq := { halted := false, wait := .present { desc := smallWith [(0, 0, 7)], alen := 5 } } }) with
    sdt := { disps := [(0, x)] } }

theorem witness_LayersAreAnswered_1 :
    let s := presented { st := .armed, lseq := 7 }
    let x : Ctx := { desc := smallWith [(0, 0, 7)], alen := 5 }
    (s.core 0).seq.wait = .present x ∧ s.coreOpen 0 = true ∧ (s.disp (Desc.disp x.desc)).joins (Desc.lseq x.desc) = true ∧
    Desc.bdim x.desc = 0 := by decide +kernel

theorem witness_LayersAreAnswered_2 :
    let s := presented { epoch := 65535 }
    let x : Ctx := { desc := smallWith [(0, 0, 7)], alen := 5 }
    (s.core 0).seq.wait = .present x ∧ s.coreOpen 0 = true ∧ (s.disp (Desc.disp x.desc)).joins (Desc.lseq x.desc) = false ∧
    (s.disp (Desc.disp x.desc)).st = .idle := by decide +kernel

theorem witness_LayersAreAnswered_3 :
    let s := presented { st := .draining, lseq := 6 }
    let x : Ctx := { desc := smallWith [(0, 0, 7)], alen := 5 }
    (s.core 0).seq.wait = .present x ∧ s.coreOpen 0 = true ∧ (s.disp (Desc.disp x.desc)).joins (Desc.lseq x.desc) = false ∧
    (s.disp (Desc.disp x.desc)).st ≠ .idle := by decide +kernel

theorem witness_LayersAreAnswered_4 :
    let x : Ctx := { desc := smallWith [(0, 0, 7)], alen := 5 }
    let s : State := { withCore (fun k => { k with seq := { halted := false, wait := .layerBusy x } }) with
      sdt := { disps := [(0, { waiting := [0] })] } }
    (s.disp 0).waiting = [0] ∧ (s.core 0).seq.wait = .layerBusy x ∧ Desc.disp x.desc = 0 ∧ (s.disp 0).st = .idle ∧
    (s.disp 0).joins (Desc.lseq x.desc) = false := by decide +kernel

/-- Core 0 waits for its claim of handle 3; the dispenser holds the layer in a state. -/
def claiming (x : Disp) : State :=
  { withCore (fun k => { k with seq := { halted := false, wait := .claim 3 2 0, ctxs := [{ desc := small }] } }) with
    sdt := { disps := [(0, { x with desc := small, claims := [{ core := 0, h := 3 }] })] } }

theorem witness_ClaimsAndCommits_1 :
    let s := claiming { complete := true }
    (s.disp 0).claims = [{ core := 0, h := 3 }] ∧ ({ core := 0, h := 3 } : ClaimReq).held = false ∧ (s.disp 0).quiesced = false ∧ (s.core 0).seq.wait = .claim 3 2 0 ∧
    s.claimStatus 0 0 ∈ [1, 2, 3, 4] := by decide +kernel

theorem witness_ClaimsAndCommits_2 :
    let s := claiming { st := .armed, next := 3 }
    let x := s.disp 0
    x.claims = [{ core := 0, h := 3 }] ∧ x.quiesced = false ∧ (s.core 0).seq.wait = .claim 3 2 0 ∧ s.claimStatus 0 0 = 0 ∧
    x.item = some { tile := 3 } ∧ s.admits 0 (s.estimate x.desc x.alen (x.record { tile := 3 })
      (Desc.rung x.desc (max ((s.curCtx 0).getD {}).nextRung x.floor))) = true := by decide +kernel

/-- Handle 0 of core 0 has sent its commit; its entry is open where the dispenser has one. -/
def committing (l : List Claim) : State :=
  { withCore (fun k => { k with
      tiles := [(0, { st := .output, commit := some { sd := 7, store := false, ch := 0, sent := true } })]
      seq := { ctxs := [{ desc := small }] } }) with sdt := { claims := l, commits := [(0, 0)] } }

theorem witness_ClaimsAndCommits_3 :
    let e : Claim := { core := 0, h := 0, disp := 0, tile := 0, close := false, epoch := 0 }
    let s := committing [e]
    s.sdt.commits.contains (0, 0) = true ∧ s.claimAt 0 (Desc.disp (s.tileDesc 0 0)) (CRec.tile (s.tile 0 0).rec_)
      (CRec.epoch (s.tile 0 0).rec_) = some e ∧ e.stale = false ∧
    (s.tile 0 0).commit = some { sd := 7, store := false, ch := 0, sent := true } := by decide +kernel

theorem witness_ClaimsAndCommits_4 :
    let s := committing []
    s.sdt.commits.contains (0, 0) = true ∧ s.claimAt 0 (Desc.disp (s.tileDesc 0 0)) (CRec.tile (s.tile 0 0).rec_)
      (CRec.epoch (s.tile 0 0).rec_) = none ∧ ((s.tile 0 0).commit.all (fun q => q.sd < 8)) = true := by decide +kernel

theorem witness_ClaimsAndCommits_5 :
    let s := (streaming small (fun t => { t with partSent := 1, checked := true })).modSeq 0 (fun q => { q with parts := [0] })
    s.coreOpen 0 = true ∧ (s.core 0).seq.parts.head? = some 0 ∧ s.isImatch 0 0 = false := by decide +kernel

theorem witness_LayersAreBumped : base.mayReg .hub (hubRegRef .sdtCtrl 63) true = true := by decide +kernel

/-! ### The sequencer -/

/-- A window of core 0, of partition 5, over the word that holds its ring's control word, open to session 7. -/
def ringWindow : State :=
  (State.setRg { base with cfg := { base.cfg with parts := [(5, BitVec.ofNat 256 5)] } } .spdWinBase 0 0 0 (BitVec.ofNat 32 128)).setRg .spdWinCfg 0 0 0 (BitVec.ofNat 32 (3 + 7 * 4 + 7 * 32))

theorem witness_SequencerControl_1 :
    let s := ringWindow
    s.coreOpen 0 = true ∧ reqCore (.session 7) ≠ some 0 ∧ s.ringOff 0 + 4100 ≤ 0x80000 ∧
    s.admitted (.session 7) 0 (s.ringOff 0 + 4096) 4 .wr = true ∧
    s.slotCheck 0 (s.ringOff 0 + 4096) 4 true (reqClass (.session 7)).1 = .ok ∧
    s.behind (.session 7) 0 (s.ringOff 0 + 4096) 4 true = none := by decide +kernel

theorem witness_SequencerControl_2 :
    let s := (withCore (fun k => { k with seq := { wait := .fence } }))
    base.mayReg .hub { n := .seqCtrl, c := 0, i := 0, j := 0, hi := false } true = true ∧ (base.core 0).seq.halted = true ∧
    base.evt.dfault = false ∧ (base.core 0).cst ≠ .disabled ∧ (ringWindow.partOf 0).isSome = true ∧
    ringWindow.mayReg .hub { n := .seqCtrl, c := 0, i := 0, j := 0, hi := false } true = true ∧ (ringWindow.core 0).seq.halted = true ∧
    ringWindow.evt.dfault = false ∧ (ringWindow.core 0).cst ≠ .disabled ∧ (base.core 0).seq.wait = .none ∧
    s.mayReg .hub { n := .seqCtrl, c := 0, i := 0, j := 0, hi := false } true = true ∧ (s.core 0).seq.wait ≠ .none ∧
    (match (s.core 0).seq.wait with | .slot _ => false | _ => true) = true := by decide +kernel

/-- Core 0 runs a command word at read index 0. -/
def issuing (f : Core → Core) (w : Nat) : State :=
  (withCore (fun k => let d := f k; { d with seq := { d.seq with halted := false, wr := 1 } })).setSpad 0 0 (toLe 16 w)

/-- The same with the small layer's context. -/
def layered (f : Core → Core) (w : Nat) : State := issuing (fun k => f { k with seq := { ctxs := [{ desc := small }] } }) w

/-- Core 0 with the tile of handle 3. -/
def tile3 (t : Tile) (k : Core) : Core := { k with tiles := [(3, t)] }

/-- The layer descriptor of the LAYER test: the small layer with its program at scratchpad offset 0x3000. -/
def layerDesc : Desc := smallWith [(152, 0, spadBase 0 + 0x3000), (236, 0, 0)]

/-- Core 0 in partition 5, which owns dispenser 0; a LAYER of the descriptor at offset 0x2000. -/
def layering : State :=
  let s := (issuing id (0x01 + 0x100 * 256)).setSpad 0 0x2000 (toLe 256 layerDesc.toNat) |>.setSpad 0 0x3000 [1]
  { s with cfg := { s.cfg with parts := [(5, BitVec.ofNat 256 5)] } }.setRg .sdtCfg 0 0 0 (BitVec.ofNat 32 (64 + 5))

theorem witness_LayerSetprecClaim_1 :
    let s := layering
    let w := s.fetchWord 0
    let y := s.layerRead 0 (spadBase 0 + fld w 21 8 * 32) 256 cSeq
    let d : Desc := BitVec.ofNat 2048 (ofLe (y.1.getD []))
    let r := y.2.layerRead 0 (Desc.eprog d) 176 cVec
    let x := r.2.modSeq 0 (fun q => { q with asStored := [] })
    (s.fetches 0 = true ∧ fld w 7 0 = 0x01) ∧ onlyBits w [(8, 50)] = true ∧ spadFits (fld w 21 8 * 32) 256 = true ∧
    y.1.isSome = true ∧ r.1.isSome = true ∧
    flag w 22 = false ∧ x.layerCause 0 d (fld w 57 26) (BitVec.ofNat 1408 (ofLe (r.1.getD []))) = none ∧
    ((x.core 0).heldCtxs.filter (fun y => !(x.core 0).retired y.id)).length < 2 := by decide +kernel

/-- Two older layers hold both contexts with a tile each. -/
def bothHeld (k : Core) : Core :=
  { k with tiles := [(0, { st := .claimed, ctx := 0 }), (1, { st := .claimed, ctx := 1 })]
           seq := { ctxs := [{ desc := small, id := 0 }, { desc := small, id := 1 }] } }

theorem witness_LayerSetprecClaim_7 :
    let s := layering.modCore 0 (fun k => { (bothHeld k) with seq := { k.seq with ctxs := (bothHeld k).seq.ctxs } })
    let w := s.fetchWord 0
    let y := s.layerRead 0 (spadBase 0 + fld w 21 8 * 32) 256 cSeq
    let d : Desc := BitVec.ofNat 2048 (ofLe (y.1.getD []))
    let r := y.2.layerRead 0 (Desc.eprog d) 176 cVec
    let x := r.2.modSeq 0 (fun q => { q with asStored := [] })
    (s.fetches 0 = true ∧ fld w 7 0 = 0x01) ∧ onlyBits w [(8, 50)] = true ∧ spadFits (fld w 21 8 * 32) 256 = true ∧
    y.1.isSome = true ∧ r.1.isSome = true ∧
    x.layerCause 0 d (fld w 57 26) (BitVec.ofNat 1408 (ofLe (r.1.getD []))) = none ∧
    2 ≤ ((x.core 0).heldCtxs.filter (fun y => !(x.core 0).retired y.id)).length := by decide +kernel

theorem witness_LayerSetprecClaim_2 :
    let s := withCore (fun k => { k with seq := { halted := false, wait := .layerCtx { desc := small } } })
    (s.core 0).seq.wait = .layerCtx { desc := small } ∧ s.coreOpen 0 = true ∧
    ((s.core 0).seq.ctxs.filter (fun y => !(s.core 0).retired y.id)).length < 2 := by decide +kernel

theorem witness_LayerSetprecClaim_3 :
    let s := layered (tile3 { st := .claimed }) (fieldsOf [(0, 0x02), (8, 3)])
    let w := s.fetchWord 0
    (s.fetches 0 = true ∧ fld w 7 0 = 0x02) ∧ onlyBits w [(8, 6)] = true ∧ flag w 11 = false ∧ (s.tile 0 (wTh w)).st = .claimed ∧
    (s.tile 0 (wTh w)).began = false ∧ fld w 13 12 ≤ Desc.nrung (s.tileDesc 0 (wTh w)) ∧ (s.tileCtx 0 (wTh w)).exact_ = false ∧ (s.curCtx 0).isSome = true := by
  decide +kernel

theorem witness_LayerSetprecClaim_4 :
    let s := layered id (fieldsOf [(0, 0x02), (11, 1)])
    let w := s.fetchWord 0
    (s.fetches 0 = true ∧ fld w 7 0 = 0x02) ∧ onlyBits w [(8, 6)] = true ∧ flag w 11 = true ∧ s.curCtx 0 = some { desc := small } ∧
    fld w 13 12 ≤ Desc.nrung small := by decide +kernel

theorem witness_LayerSetprecClaim_5 :
    let s := layered id (fieldsOf [(0, 0x03), (8, 3), (11, 5), (14, 9)])
    let w := s.fetchWord 0
    (s.fetches 0 = true ∧ fld w 7 0 = 0x03) ∧ (s.core 0).quiescing = false ∧ onlyBits w [(8, 20)] = true ∧
    (s.tile 0 (wTh w)).st = .free ∧ s.curCtx 0 = some { desc := small } := by decide +kernel

theorem witness_LayerSetprecClaim_6 :
    let s := issuing id (2 ^ 127)
    (s.fetches 0 = true ∧ fld (s.fetchWord 0) 7 0 = 0x00) ∧ onlyBits (s.fetchWord 0) [] = false := by decide +kernel

/-- Slots 0 and 1 declared over 64 bytes each. -/
def declared (s : State) : State :=
  ((s.setRg .spdSlotBase 0 0 0 0x4200).setRg .spdSlotCfg 0 0 0 0x11 |>.setRg .spdSlotBase 0 1 0 0x4202).setRg .spdSlotCfg 0 1 0 0xFF1

/-- A claimed handle whose operands are bound. -/
def ready : Tile := { st := .claimed, bindA := { bound := true }, bindW := { bound := true } }

theorem witness_TileCommands_1 :
    let w := fieldsOf [(8, 3), (16, 0), (22, 1)]
    let s := declared (layered (tile3 { st := .claimed }) (w + 0x04))
    let t := declared (layered (tile3 { st := .claimed }) (w + 0x05))
    s.loadCause 0 (s.fetchWord 0) = none ∧ flag (s.fetchWord 0) 15 = false ∧ s.fetches 0 = true ∧ fld (s.fetchWord 0) 7 0 = 0x04 ∧
    t.loadCause 0 (t.fetchWord 0) = none ∧ flag (t.fetchWord 0) 15 = false ∧ t.fetches 0 = true ∧ fld (t.fetchWord 0) 7 0 = 0x05 := by
  decide +kernel

theorem witness_TileCommands_2 :
    let s := layered (tile3 { st := .claimed }) (fieldsOf [(0, 0x04), (8, 3), (11, 15), (15, 1), (30, 16383)])
    let w := s.fetchWord 0
    s.loadCause 0 w = none ∧ flag w 15 = true ∧ s.chanFree 0 (fld w 14 11) = true ∧ s.fetches 0 = true ∧ fld w 7 0 = 0x04 := by
  decide +kernel

theorem witness_TileCommands_2w :
    let f (op : Nat) : State := layered (fun k => { (tile3 { st := .claimed } k) with chans := [(15, { st := .run })] })
      (fieldsOf [(0, op), (8, 3), (11, 15), (15, 1), (30, 16383)])
    let waiting (op : Nat) : State := (layered (tile3 { st := .claimed }) (fieldsOf [(0, op), (8, 3), (11, 15), (15, 1), (30, 16383)])).modSeq 0
      (fun q => { q with wait := .channel })
    (∀ op ∈ [0x04, 0x05], (f op).loadCause 0 ((f op).fetchWord 0) = none ∧ flag ((f op).fetchWord 0) 15 = true ∧
      (f op).chanFree 0 (fld ((f op).fetchWord 0) 14 11) = false ∧ (f op).fetches 0 = true ∧ fld ((f op).fetchWord 0) 7 0 = op) ∧
    (∀ op ∈ [0x04, 0x05], ((waiting op).core 0).seq.wait = .channel ∧ (waiting op).coreOpen 0 = true ∧
      flag ((waiting op).fetchWord 0) 15 = true ∧ (waiting op).chanFree 0 (fld ((waiting op).fetchWord 0) 14 11) = true ∧
      fld ((waiting op).fetchWord 0) 7 0 = op) := by decide +kernel

theorem witness_TileCommands_2b :
    let s := layered (tile3 { st := .claimed }) (fieldsOf [(0, 0x05), (8, 3), (11, 15), (15, 1), (30, 16383)])
    let w := s.fetchWord 0
    s.loadCause 0 w = none ∧ flag w 15 = true ∧ s.chanFree 0 (fld w 14 11) = true ∧ s.fetches 0 = true ∧ fld w 7 0 = 0x05 := by
  decide +kernel

theorem witness_TileCommands_3 :
    let s := declared (layered (tile3 { st := .claimed }) (fieldsOf [(0, 0x06), (8, 3), (12, 4), (17, 1)]))
    let w := s.fetchWord 0
    (s.fetches 0 = true ∧ fld w 7 0 = 0x06) ∧ onlyBits w [(8, 15)] = true ∧ fmtOk (fld w 16 12) = true ∧ isCb (fld w 16 12) = false ∧
    s.declared 0 (fld w 22 17) = true ∧ (s.tile 0 (wTh w)).st = .claimed ∧ (s.tile 0 (wTh w)).began = false ∧
    (s.curCtx 0).isSome = true := by decide +kernel

theorem witness_TileCommands_4 :
    let s := issuing (fun k => tile3 ready { k with seq := { ctxs := [{ desc := smallWith [(8, 13, 1)] }] } })
      (fieldsOf [(0, 0x07), (8, 3), (11, 6)])
    let w := s.fetchWord 0
    (s.fetches 0 = true ∧ fld w 7 0 = 0x07) ∧ onlyBits w [(8, 6)] = true ∧ (s.tile 0 (wTh w)).st = .claimed ∧
    (s.tile 0 (wTh w)).began = false ∧ (s.tile 0 (wTh w)).loaded = true ∧
    rungScout (Desc.rung (s.tileDesc 0 (wTh w)) (s.startRung 0 (wTh w))) ≠ 0 ∧ (s.curCtx 0).isSome = true := by decide +kernel

theorem witness_TileCommands_5 :
    let s := layered (tile3 ready) (fieldsOf [(0, 0x08), (8, 3)])
    let w := s.fetchWord 0
    (s.fetches 0 = true ∧ fld w 7 0 = 0x08) ∧ onlyBits w [(8, 3)] = true ∧ (s.tile 0 (wTh w)).st = .claimed ∧
    (s.tile 0 (wTh w)).loaded = true ∧ (s.tile 0 (wTh w)).opened = false ∧ (s.curCtx 0).isSome = true := by decide +kernel

theorem witness_TileCommands_5s :
    let s (p : Bool) : State := layered (tile3 { ready with began := true, opened := true, pass2 := p, acc := [{ active := true }] })
      (fieldsOf [(0, 0x08), (8, 3)])
    let ok (s : State) : Bool := s.fetches 0 && fld (s.fetchWord 0) 7 0 = 0x08 && onlyBits (s.fetchWord 0) [(8, 3)] &&
      (s.tile 0 (wTh (s.fetchWord 0))).st = .claimed && (s.tile 0 (wTh (s.fetchWord 0))).loaded && (s.curCtx 0).isSome &&
      (s.tile 0 (wTh (s.fetchWord 0))).opened
    ok (s false) = true ∧ ((s false).tile 0 3).pass2 = false ∧ ok (s true) = true ∧
    ((s true).geo 0 3).addsDue ((s true).tile 0 3) ≠ 0 := by decide +kernel

theorem witness_TileCommands_6 :
    let s := declared (layered (tile3 { st := .opened }) (fieldsOf [(0, 0x09), (8, 3), (11, 1)]))
    let w := s.fetchWord 0
    (s.fetches 0 = true ∧ fld w 7 0 = 0x09) ∧ onlyBits w [(8, 9)] = true ∧ s.declared 0 (fld w 16 11) = true ∧
    (s.tile 0 (wTh w)).st = .opened ∧ s.isPart 0 (wTh w) = false ∧ (s.curCtx 0).isSome = true := by decide +kernel

theorem witness_TileCommands_7 :
    let s := layered (tile3 { st := .output }) (fieldsOf [(0, 0x13), (8, 3), (11, 7), (15, 1), (16, 15)])
    let w := s.fetchWord 0
    (s.fetches 0 = true ∧ fld w 7 0 = 0x13) ∧ onlyBits w [(8, 12)] = true ∧ (s.tile 0 (wTh w)).st = .output ∧
    (s.curCtx 0).isSome = true := by decide +kernel

theorem witness_TileCommands_7f :
    let s := layered (tile3 {}) (fieldsOf [(0, 0x13), (8, 3), (11, 7), (14, 1)])
    let t := layered (tile3 { st := .opened, partSent := 1 }) (fieldsOf [(0, 0x13), (8, 3), (11, 7)])
    let w := s.fetchWord 0
    (s.fetches 0 = true ∧ fld w 7 0 = 0x13) ∧ onlyBits w [(8, 12)] = true ∧ (s.curCtx 0).isSome = true ∧ flag w 14 = true ∧
    (s.tile 0 (wTh w)).st = .free ∧ (t.fetches 0 = true ∧ fld (t.fetchWord 0) 7 0 = 0x13) ∧ onlyBits (t.fetchWord 0) [(8, 12)] = true ∧
    (t.curCtx 0).isSome = true ∧ ((t.tile 0 (wTh (t.fetchWord 0))).st = .opened ∧ (t.tile 0 (wTh (t.fetchWord 0))).partSent ≠ 0) := by
  decide +kernel

theorem witness_TileCommands_8 :
    let s := layered (tile3 ready) (fieldsOf [(0, 0x17), (8, 3)])
    let t := layered (tile3 ready) (fieldsOf [(0, 0x17), (8, 3), (11, 1)])
    (s.fetches 0 = true ∧ fld (s.fetchWord 0) 7 0 = 0x17) ∧ onlyBits (s.fetchWord 0) [(8, 4)] = true ∧
    (s.tile 0 (wTh (s.fetchWord 0))).st = .claimed ∧ (s.curCtx 0).isSome = true ∧ flag (s.fetchWord 0) 11 = false ∧
    (t.fetches 0 = true ∧ fld (t.fetchWord 0) 7 0 = 0x17) ∧ onlyBits (t.fetchWord 0) [(8, 4)] = true ∧
    (t.tile 0 (wTh (t.fetchWord 0))).st = .claimed ∧ (t.curCtx 0).isSome = true ∧ flag (t.fetchWord 0) 11 = true ∧
    (t.tileCtx 0 (wTh (t.fetchWord 0))).exact_ = false := by decide +kernel

/-! ### A tile's way to its commit -/

theorem witness_TileProgress_1 :
    let s := withCore (fun k => { k with tiles := [(7, { st := .opened })], seq := { ctxs := [{ desc := small }] } })
    s.coreOpen 0 = true ∧ (s.tile 0 7).st = .opened ∧ (s.tile 0 7).began = false ∧ (s.tile 0 7).sumFrom = false ∧
    s.hasRoom 0 7 (s.geoAt 0 7 (Desc.rung (s.tileDesc 0 7) (s.startRung 0 7))) = true := by decide +kernel

/-- The small layer split along K in two parts. -/
def parted (f : Core → Core) (w : Nat) : State :=
  issuing (fun k => f { k with seq := { ctxs := [{ desc := smallWith [(80, 24, 1)] }] } }) w

theorem witness_TileProgress_2 :
    let s := parted (tile3 { st := .opened }) (fieldsOf [(0, 0x14), (8, 3)])
    let w := s.fetchWord 0
    (s.fetches 0 = true ∧ fld w 7 0 = 0x14) ∧ onlyBits w [(8, 13)] = true ∧ (s.curCtx 0).isSome = true ∧ fld w 12 11 = 0 ∧
    (s.tile 0 (wTh w)).st = .opened ∧ s.isPart 0 (wTh w) = true ∧ (s.tile 0 (wTh w)).partSent = 0 := by decide +kernel

theorem witness_TileProgress_3 :
    let p : PartSum := { disp := 0, tile := 0, epoch := 0, ptag := 0, regime := 0, flags := 0, acc := [{}] }
    let s := { parted (tile3 { st := .claimed, rec_ := BitVec.ofNat 128 (2 ^ 55) }) (fieldsOf [(0, 0x14), (8, 3), (11, 1)]) with
      sdt := { sums := [p] } }
    let w := s.fetchWord 0
    (s.fetches 0 = true ∧ fld w 7 0 = 0x14) ∧ onlyBits w [(8, 13)] = true ∧ (s.curCtx 0).isSome = true ∧ fld w 12 11 = 1 ∧
    (s.tile 0 (wTh w)).st = .claimed ∧ (s.tile 0 (wTh w)).began = false ∧ CRec.close (s.tile 0 (wTh w)).rec_ = true ∧
    s.hasRoom 0 (wTh w) (s.geoAt 0 (wTh w) (Desc.rung (s.tileDesc 0 (wTh w)) (s.startRung 0 (wTh w)))) = true ∧
    s.sdt.sums.find? (fun y => y.disp = Desc.disp (s.tileDesc 0 (wTh w)) && y.tile = CRec.tile (s.tile 0 (wTh w)).rec_) = some p := by
  decide +kernel

theorem witness_TileProgress_3n :
    let s := (parted (fun k => { k with tiles := [(3, { st := .claimed, rec_ := BitVec.ofNat 128 (2 ^ 55) }),
        (0, { st := .opened, began := true, opened := true })] }) (fieldsOf [(0, 0x14), (8, 3), (11, 1)])).modCore 0 (fun k =>
      { k with seq := { k.seq with ctxs := [{ desc := smallWith [(80, 16, 255), (84, 0, 255), (88, 0, 510), (92, 0, 510)] }] } })
    let w := s.fetchWord 0
    (s.fetches 0 = true ∧ fld w 7 0 = 0x14) ∧ onlyBits w [(8, 13)] = true ∧ (s.curCtx 0).isSome = true ∧ fld w 12 11 = 1 ∧
    (s.tile 0 (wTh w)).st = .claimed ∧ (s.tile 0 (wTh w)).began = false ∧ CRec.close (s.tile 0 (wTh w)).rec_ = true ∧
    s.hasRoom 0 (wTh w) (s.geoAt 0 (wTh w) (Desc.rung (s.tileDesc 0 (wTh w)) (s.startRung 0 (wTh w)))) = false := by decide +kernel

theorem witness_TileProgress_4 :
    let s := layered (tile3 { st := .opened }) (fieldsOf [(0, 0x14), (8, 3), (11, 2), (13, 255)])
    let w := s.fetchWord 0
    (s.fetches 0 = true ∧ fld w 7 0 = 0x14) ∧ onlyBits w [(8, 13)] = true ∧ (s.curCtx 0).isSome = true ∧ fld w 12 11 = 2 ∧
    (s.tile 0 (wTh w)).st = .opened ∧ (s.tile 0 (wTh w)).grp = none := by decide +kernel

/-- A tile of partition 5 that contributes to group 9, whose epoch is OPEN with tiles 0 to `n - 1`. -/
def contributing (n : Nat) : State :=
  let s := streaming small (fun t => { t with checked := true, grp := some 9 })
  (({ s with cfg := { s.cfg with parts := [(5, BitVec.ofNat 256 5)] }, tch := { groups := [(9, { valid := true, part := 5, st := .opened, kids := [(17, 2)] })] } } : State).setRg
    .grpTcount 0 9 0 (BitVec.ofNat 32 n)).setRg .grpSlot 0 9 0 0x1000

theorem witness_TileProgress_5 :
    let s := contributing 1
    let x := s.tile 0 0
    x.grp = some 9 ∧ s.coreOpen 0 = true ∧ x.opened = true ∧ x.checked = true ∧ x.contributed = false ∧ x.acc ≠ [] ∧
    s.contributionBad 0 9 (CRec.tile x.rec_) x.acc.length (s.tileRegime 0 0) = false ∧
    (s.group 9).round (CRec.tile x.rec_) = none ∧ (s.group 9).kids ≠ [] := by decide +kernel

theorem witness_TileProgress_6 :
    let s := contributing 0
    let x := s.tile 0 0
    x.grp = some 9 ∧ s.coreOpen 0 = true ∧ x.opened = true ∧ x.checked = true ∧ x.contributed = false ∧
    s.contributionBad 0 9 (CRec.tile x.rec_) x.acc.length (s.tileRegime 0 0) = true := by decide +kernel

theorem witness_TileProgress_7 :
    let q : CommitReq := { sd := 7, store := false, ch := 0 }
    let s := streaming small (fun t => { t with st := .output, outSt := .ended, commit := some q })
    let v := streaming small (fun t => { t with partSent := 2, commit := some q })
    (s.tile 0 0).commit = some q ∧ s.coreOpen 0 = true ∧ q.sent = false ∧ s.stalled 0 (.out 0) = false ∧
    ((s.tile 0 0).st = .output ∧ (s.tile 0 0).outSt = .ended) ∧ (v.tile 0 0).commit = some q ∧ v.coreOpen 0 = true ∧
    v.stalled 0 (.out 0) = false ∧ ((v.tile 0 0).st ≠ .output ∧ (v.tile 0 0).partSent = 2) := by decide +kernel

/-- A tile whose accepted COMMIT has channel 4 copy its output to the scratchpad. -/
def storing : State :=
  declared (withCore (fun k => { k with
    tiles := [(0, { st := .output, opened := true, outSt := .ended, oslot := some 1,
                    commit := some { sd := 7, store := true, ch := 4, sent := true, accepted := some true } })]
    chans := [(4, { st := .run, use_ := .store 0 })], slots := [(1, { st := .full })]
    seq := { ctxs := [{ desc := smallWith [(212, 0, spadBase 0 + 0x6000)] }] } }))

theorem witness_TileProgress_8 :
    let s := storing
    let q : CommitReq := { sd := 7, store := true, ch := 4, sent := true, accepted := some true }
    let r := s.readMem (coreReq 0) .normal (spadBase 0 + s.slotOff 0 1) (s.slotLen 0 1)
    (s.tile 0 0).oslot.getD 0 = 1 ∧ (s.tile 0 0).commit = some q ∧ s.coreOpen 0 = true ∧ (s.chan 0 q.ch).use_ = .store 0 ∧
    q.accepted = some true ∧ (s.chan 0 q.ch).st = .run ∧ r.1 = .ok (zeros 64) ∧ (r.2.storeTile 0 q.ch (s.geo 0 0) (zeros 64)).1 = true := by
  decide +kernel

/-! ### Engine commands -/

theorem witness_EngineCommands_1 :
    let s := (layered id (fieldsOf [(0, 0x0A), (8, 0x180)])).setSpad 0 0x3000 [1]
    (s.fetches 0 = true ∧ fld (s.fetchWord 0) 7 0 = 0x0A) ∧ s.vprogCause 0 (s.fetchWord 0) = none ∧ s.placeFree 0 .vprog = true := by
  decide +kernel

theorem witness_EngineCommands_2 :
    let s := layered id 0x0B
    let t := layered id 0x0C
    (s.fetches 0 = true ∧ fld (s.fetchWord 0) 7 0 = 0x0B) ∧ s.rakeCause 0 (s.fetchWord 0) = none ∧ s.placeFree 0 .rake = true ∧
    (t.fetches 0 = true ∧ fld (t.fetchWord 0) 7 0 = 0x0C) ∧ t.convCause 0 (t.fetchWord 0) = none ∧ t.placeFree 0 .conv = true := by
  decide +kernel

theorem witness_EngineCommands_3 :
    let s := layered id 0x15
    let w := s.fetchWord 0
    (s.fetches 0 = true ∧ fld w 7 0 = 0x15) ∧ onlyBits w [(8, 92)] = true ∧ leaves (fld w 21 8) (4 * (fld w 99 68 + 1)) = false ∧
    leaves (fld w 35 22) (4 * (fld w 39 36 + 1)) = false ∧ leaves (fld w 53 40) (4 * fld w 99 68) = false ∧
    leaves (fld w 67 54) (4 * (fld w 39 36 + 1)) = false ∧ s.placeFree 0 .sort = true := by decide +kernel

theorem witness_EngineCommands_4 :
    let s := (layered id (fieldsOf [(0, 0x16), (8, 0x100), (25, 0x110), (39, 1)])).setSpad 0 0x2000 [0x80, 1]
    let w := s.fetchWord 0
    (s.fetches 0 = true ∧ fld w 7 0 = 0x16) ∧ onlyBits w [(8, 45)] = true ∧ leaves (fld w 21 8) 16 = false ∧
    leaves (fld w 38 25) (fld w 52 39 * 32) = false ∧ (s.mergeRanges 0 w).any (fun x => !spadFits x.1 x.2) = false ∧
    s.mergeLong 0 w = false ∧ s.placeFree 0 .merge = true := by decide +kernel

theorem witness_EngineCommands_5 :
    let s := issuing id (fieldsOf [(0, 0x0D), (8, 15), (13, spadBase 0 + 0x2000)])
    let w := s.fetchWord 0
    (s.fetches 0 = true ∧ fld w 7 0 = 0x0D) ∧ onlyBits w [(8, 53)] = true ∧ flag w 12 = false ∧ s.chanFree 0 (fld w 11 8) = true := by
  decide +kernel

/-! ### Waits, signals, fences, branches, loops, events -/

theorem witness_WaitsSignalsFences_1 :
    (issuing id 0).fetches 0 = true ∧ fld ((issuing id 0).fetchWord 0) 7 0 = 0x00 ∧ onlyBits ((issuing id 0).fetchWord 0) [] = true := by
  decide +kernel

theorem witness_WaitsSignalsFences_2 :
    let s := declared (issuing (fun k => { k with slots := [(1, { st := .full })] }) (fieldsOf [(0, 0x0E), (8, 1)]))
    let t := declared (issuing id (fieldsOf [(0, 0x0E), (8, 1)]))
    let w := s.fetchWord 0
    (s.fetches 0 = true ∧ fld w 7 0 = 0x0E) ∧ onlyBits w [(8, 28)] = true ∧ s.declared 0 (fld w 13 8) = true ∧ flag w 16 = false ∧
    flag w 15 = false ∧ s.slotWanted 0 w = true ∧ t.fetchWord 0 = w ∧ t.fetches 0 = true ∧ t.declared 0 (fld w 13 8) = true ∧
    t.slotWanted 0 w = false := by decide +kernel

theorem witness_WaitsSignalsFences_3 :
    let s := (declared (issuing (fun k => { k with slots := [(1, { st := .full })] }) (fieldsOf [(0, 0x0E), (8, 1)]))).modSeq 0 (fun q =>
      { q with wait := .slot 1 })
    let w := s.fetchWord 0
    (s.core 0).seq.wait = .slot 1 ∧ s.coreOpen 0 = true ∧ s.slotWanted 0 w = true ∧ flag w 16 = false ∧ flag w 15 = false := by
  decide +kernel

theorem witness_WaitsSignalsFences_4 :
    let s := declared (issuing id (fieldsOf [(0, 0x0F), (10, 1)]))
    let t := declared (issuing id (fieldsOf [(0, 0x0F), (8, 1), (10, 1)]))
    (s.fetches 0 = true ∧ fld (s.fetchWord 0) 7 0 = 0x0F) ∧ onlyBits (s.fetchWord 0) [(8, 29)] = true ∧
    s.declared 0 (fld (s.fetchWord 0) 15 10) = true ∧ fld (s.fetchWord 0) 9 8 = 0 ∧ (s.slot 0 1).st = .empty ∧
    (s.setSlot 0 1 { st := .full }).barrierOf 0 1 = none ∧ (t.fetches 0 = true ∧ fld (t.fetchWord 0) 7 0 = 0x0F) ∧
    onlyBits (t.fetchWord 0) [(8, 29)] = true ∧ t.declared 0 (fld (t.fetchWord 0) 15 10) = true ∧ fld (t.fetchWord 0) 9 8 = 1 := by
  decide +kernel

/-- A SIGNAL to slot 0 of core 1, whose window lets core 0 signal. -/
def signalling (op : Nat) : State :=
  let s := (issuing id (fieldsOf [(0, 0x0F), (8, op), (16, 1)])).setCore 1 { cst := .active }
  ({ s with cfg := { s.cfg with parts := [(5, BitVec.ofNat 256 5)] } } |>.setRg .spdSlotBase 1 0 0 0x4200 |>.setRg .spdSlotCfg 1 0 0 0x401 |>.setRg .spdWinBase 1 0 0 0xFFFC000).setRg
    .spdWinCfg 1 0 0 (BitVec.ofNat 32 (1 + 7 * 4))

theorem witness_WaitsSignalsFences_5 :
    let ok (s : State) (op : Nat) : Bool :=
      let w := s.fetchWord 0
      let d := fld w 23 16
      let o := s.slotOff d (fld w 15 10)
      s.fetches 0 && fld w 7 0 = 0x0F && onlyBits w [(8, 29)] && !flag w 36 && s.coreOpen d && o < 0x80000 && fld w 9 8 = op &&
      s.admitted (coreReq 0) d o 1 .sig && s.slotFrom d o = some 0 && (s.slot d 0).st = .empty &&
      (s.setSlot d 0 { st := .full }).barrierOf d 0 = none
    ok (signalling 2) 2 = true ∧ ok (signalling 3) 3 = true := by decide +kernel

/-- Device 0 of a torus of two, partition 5's port 0 UP; a SIGNAL to slot 1 of core 2 on device 1. -/
def distant : State :=
  let s := declared (issuing id (fieldsOf [(0, 0x0F), (8, 2), (10, 1), (16, 2), (24, 1), (36, 1)]))
  (({ s with cfg := { s.cfg with parts := [(5, BitVec.ofNat 256 5)], tports := [(0, BitVec.ofNat 64 (5 + 128))] }
             tch := { ports := [(0, { st := .up })] } } : State).setRg .tchTopo 0 0 0 1)

theorem witness_WaitsSignalsFences_6 :
    let s := distant
    let w := s.fetchWord 0
    (s.fetches 0 = true ∧ fld w 7 0 = 0x0F) ∧ onlyBits w [(8, 29)] = true ∧ flag w 36 = true ∧ s.declared 0 (fld w 15 10) = true ∧
    s.mayOriginate (some 0) (fld w 35 24) = true ∧ fld w 9 8 = 2 := by decide +kernel

theorem witness_WaitsSignalsFences_7 :
    let s := issuing id (fieldsOf [(0, 0x10), (8, 1), (16, 0xFFFF)])
    let t := issuing (fun k => { k with chans := [(15, { st := .run })] }) (fieldsOf [(0, 0x10), (8, 1), (16, 0xFFFF)])
    let w := s.fetchWord 0
    (s.fetches 0 = true ∧ fld w 7 0 = 0x10) ∧ onlyBits w [(8, 6), (16, 16)] = true ∧ s.fenceOwn 0 w = true ∧ flag w 13 = false ∧
    t.fetchWord 0 = w ∧ t.fetches 0 = true ∧ t.fenceOwn 0 w = false ∧ (t.core 0).seq.atBarrier = false := by decide +kernel

theorem witness_WaitsSignalsFences_8 :
    let s := (issuing id (fieldsOf [(0, 0x10), (8, 1), (16, 0xFFFF)])).modSeq 0 (fun q => { q with wait := .fence })
    let t := (issuing id (fieldsOf [(0, 0x10), (13, 1)])).modSeq 0 (fun q => { q with wait := .fence, atBarrier := true })
    (s.core 0).seq.wait = .fence ∧ s.coreOpen 0 = true ∧ s.fenceOwn 0 (s.fetchWord 0) = true ∧ flag (s.fetchWord 0) 13 = false ∧
    (t.core 0).seq.wait = .fence ∧ t.coreOpen 0 = true ∧ t.fenceOwn 0 (t.fetchWord 0) = true ∧ flag (t.fetchWord 0) 13 = true ∧
    (∀ d ∈ t.barrierCores 0, d = 0 ∨ (t.core 0).seq.barriers < (t.core d).seq.barriers ∨
      ((t.core d).seq.barriers = (t.core 0).seq.barriers ∧ (t.core d).seq.atBarrier = true)) := by decide +kernel

theorem witness_BranchesLoopsEvents_1 :
    let s := issuing id (fieldsOf [(0, 0x11), (8, 7), (18, 63), (30, 255)])
    let w := s.fetchWord 0
    (s.fetches 0 = true ∧ fld w 7 0 = 0x11) ∧ onlyBits w [(8, 62)] = true ∧ fld w 11 8 < 8 ∧ fld w 23 18 + fld w 29 24 ≤ 63 := by
  decide +kernel

/-- Core 0 with a running RAKE, and a BRANCH on the greatest element of its summary. -/
def branching (l : List Job) : State :=
  issuing (fun k => { k with seq := { jobs := l } }) (fieldsOf [(0, 0x11), (8, 10), (24, 63), (30, 255)])

theorem witness_BranchesLoopsEvents_1w :
    let j : Job := { eng := .rake, cmd := 0, vlen := 4, ctx := 0, running := true }
    let s := branching [j]
    let t := branching []
    let w := s.fetchWord 0
    (s.fetches 0 = true ∧ fld w 7 0 = 0x11) ∧ onlyBits w [(8, 62)] = true ∧ fld w 11 8 = 0xA ∧ fld w 23 18 + fld w 29 24 ≤ 63 ∧
    s.enginesDone 0 = false ∧ t.fetchWord 0 = w ∧ t.fetches 0 = true ∧ t.enginesDone 0 = true ∧
    (let u := t.modSeq 0 (fun q => { q with wait := .branch })
     (u.core 0).seq.wait = .branch ∧ u.coreOpen 0 = true ∧ u.enginesDone 0 = true) := by decide +kernel

theorem witness_BranchesLoopsEvents_2 :
    let s := issuing id (fieldsOf [(0, 0x12), (15, 0xFFFFFFFF)])
    let t := (issuing id (fieldsOf [(0, 0x12), (11, 1), (12, 5)])).setScalar 0 5 0x1FFFFFFFF
    let w := s.fetchWord 0
    let v := t.fetchWord 0
    (s.fetches 0 = true ∧ fld w 7 0 = 0x12) ∧ onlyBits w [(8, 39)] = true ∧ flag w 10 = false ∧ flag w 11 = false ∧
    (s.core 0).seq.loops.length = fld w 9 8 ∧ fld w 46 15 ≠ 0 ∧ (t.fetches 0 = true ∧ fld v 7 0 = 0x12) ∧
    onlyBits v [(8, 39)] = true ∧ flag v 10 = false ∧ flag v 11 = true ∧ (t.core 0).seq.loops.length = fld v 9 8 ∧
    t.scalar 0 (fld v 14 12) % 2 ^ 32 ≠ 0 := by decide +kernel

theorem witness_BranchesLoopsEvents_3 :
    let s := issuing (fun k => { k with seq := { loops := [{ cnt := 2, start := 255 }] } }) (fieldsOf [(0, 0x12), (10, 1)])
    let t := issuing (fun k => { k with seq := { loops := [{ cnt := 1, start := 255 }] } }) (fieldsOf [(0, 0x12), (10, 1)])
    let w := s.fetchWord 0
    (s.fetches 0 = true ∧ fld w 7 0 = 0x12) ∧ onlyBits w [(8, 39)] = true ∧ flag w 10 = true ∧
    (s.core 0).seq.loops.getLast? = some { cnt := 2, start := 255 } ∧ (s.core 0).seq.loops.length = fld w 9 8 + 1 ∧
    t.fetchWord 0 = w ∧ t.fetches 0 = true ∧ (t.core 0).seq.loops.getLast? = some { cnt := 1, start := 255 } ∧
    (t.core 0).seq.loops.length = fld w 9 8 + 1 := by decide +kernel

theorem witness_BranchesLoopsEvents_4 :
    let s := issuing id (fieldsOf [(0, 0x18), (8, 0xABCD), (28, 2 ^ 63)])
    let t := issuing id (fieldsOf [(0, 0x19), (8, 0xABCD)])
    (s.fetches 0 = true ∧ fld (s.fetchWord 0) 7 0 = 0x18) ∧ onlyBits (s.fetchWord 0) [(8, 84)] = true ∧ flag (s.fetchWord 0) 27 = false ∧
    (t.fetches 0 = true ∧ fld (t.fetchWord 0) 7 0 = 0x19) ∧ onlyBits (t.fetchWord 0) [(8, 16)] = true := by decide +kernel

end Sys2Proof.Tests
end

