-- ==== Sys2Proof/Tests/Witness3.lean ====
section
/-! SUPPORT. Witnesses for the statements about the trellis loader, the Cellar and Tchiuth, clause by clause. -/
set_option Elab.async false

namespace Sys2Proof.Tests

open Sys2Proof.Machine

/-! ### The trellis loader -/

/-- A register of the hub. -/
def hubReg (n : RegName) : RegRef := { n := n, c := 0, i := 0, j := 0, hi := false }

/-- A section of a type and a value (R374). -/
def section_ (t : Nat) (v : List Byte) : List Byte := toLe 2 t ++ toLe 2 1 ++ toLe 4 v.length ++ v ++ zeros ((8 - v.length % 8) % 8)

/-- An image of sections under the key: KIND, RBIDX 2, and its signature (R373). -/
def imageOf (kind : Nat) (ss : List Byte) (sig : List Byte) : List Byte :=
  let all := section_ 0x0001 keyBytes ++ ss ++ section_ 0xFFFF sig
  toLe 4 0x534C5254 ++ toLe 2 1 ++ toLe 1 kind ++ toLe 1 2 ++ toLe 8 1 ++ toLe 4 0 ++ toLe 4 (128 + all.length) ++ zeros 104 ++ all
/-- Partition 5: block 0 of quadrant 0, a session window of 100. -/
def part5 : Nat := 5 + 100 * 2 ^ 64

/-- A full image: core 0 enabled, partition 5 with dispenser 0 and a region of 2 MiB, caps of 100. -/
def fullImage : List Byte :=
  imageOf 0 (section_ 0x0010 (toLe 32 1) ++ section_ 0x0011 (toLe 32 part5) ++ section_ 0x0012 (zeros 64) ++
    section_ 0x0014 (zeros 256) ++ section_ 0x0015 (toLe 256 (64 + 5)) ++
    section_ 0x0020 (toLe 32 (2 ^ 21 * 2 ^ 64 + 5 * 2 ^ 128)) ++ section_ 0x0050 (toLe 64 (100 * 2 ^ 64 + 100 * 2 ^ 80)))
    (sigBytes 0x5D22E725842CF107642CDA652506A58ADD24336F5E7DF89ED58646E847F299DF9089A2C6C84DF0B0CE504C32899885EEB137972D21D3FC7B60D4C40C899B1CB919
      0xBB26A65C7837A617FA203BD96999CDA96291CBAFBEA7E378EF8A305FE37E6B0CEFF7A1ACE639135DCBFC4C7583DD529C8E3F63FA70A6DA2D46217036912B2C1884)

/-- A partial image that gives partition 5 again. -/
def partImage : List Byte :=
  imageOf 1 (section_ 0x0011 (toLe 32 part5))
    (sigBytes 0x12BEDD0CBE05102644D1CA553597B5362D62482C6B14676169AAA5379616F82DDDB1A99E6774E1D992880FA89006EB475B0A2E32AF046CF0D92D9D3A71FBAB9F45
      0x79AEF61CFAA1CE22DA47B22DB719709B91446994DCB404487A71BF50FB4DFE8B47B165B154FB307BEF0C5346108B7083EA98AD4C186AFC84769281B32CBFBB905D)

/-- The configuration of the full image. -/
def cfg5 : Cfg := fullCfg fullImage ((sectionsOf fullImage).getD [])

/-- A module of 32 GiB in every channel. -/
def modules : List (Fin 16 × Module) :=
  (List.finRange 16).map (fun c => (c, { mrdimm := true, width := 4, ecc := true, gib := 32, rates := [8800, 6400] }))
/-- A loader in a state. -/
def loading (x : Trl) : State := { base with trl := x, clr := { base.clr with mods := modules } }
/-- The same, which runs the configuration of the full image. -/
def running (x : Trl) : State := { loading x with cfg := { cfg5 with hash := 1 } }
/-- The device holds the digest of the image's key. -/
def keyed (s : State) : State := { s with sec := { s.sec with ownerHash := digestOf keyBytes } }

theorem witness_FullLoads_1 :
    let s := base
    let t := s.setRg .trlSrc 0 0 0 1
    let u := loading { st := .read }
    s.mayReg .hub (hubReg .trlCtrl) true = true ∧ s.trlBusy = false ∧ s.sourceOk true (s.rg64 .trlSrc % 2 ^ 48) = true ∧
    t.mayReg .hub (hubReg .trlCtrl) true = true ∧ t.trlBusy = false ∧ t.sourceOk true (t.rg64 .trlSrc % 2 ^ 48) = false ∧
    u.mayReg .hub (hubReg .trlCtrl) true = true ∧ u.trlBusy = true := by decide +kernel

theorem witness_FullLoads_2 :
    let s := loading { st := .read, flash := true }
    s.trl.st = .read ∧ s.trl.flash = true ∧ s.imageCause fullImage (fullImage.take (imgLength fullImage)) = none ∧
    s.imageCause [] ([].take (imgLength [])) = some trlFORMAT ∧ s.trl.boot = false := by decide +kernel

theorem witness_FullLoads_3 :
    let s := loading { st := .verify, img := fullImage }
    s.trl.st = .verify ∧ s.verify = .inl trlKEY ∧ s.trl.boot = false := by decide +kernel

theorem witness_FullLoads_4 :
    let s := keyed (loading { st := .verify, img := fullImage })
    s.trl.st = .verify ∧ (match s.verify with | .inr _ => true | .inl _ => false) = true ∧ s.trl.partial_ = false ∧
    s.cfg.parts = [] ∧ s.ses.ctx = [] ∧ s.sec.scrubs = [] ∧ s.clr.rate = 0 := by decide +kernel

theorem witness_FullLoads_5 :
    let s := loading { st := .train, new := cfg5 }
    s.trl.st = .train ∧ initErr s.clr.mods [] = 0 ∧ initErr s.clr.mods [3] = 4 := by decide +kernel

theorem witness_PartialLoads_1 :
    let s := keyed (running { st := .verify, img := partImage, partial_ := true, changed := [5] })
    s.trl.st = .verify ∧ s.trl.partial_ = true ∧
    (match s.verify with
      | .inr g => decide (∀ p ∈ s.trl.changed, flag (Sparse.get 0 g.parts p) 28 = false)
      | .inl _ => false) = true := by decide +kernel

/-- Partition 5 with another permission is loaded over layers in force. -/
def permuting : State :=
  let s := running { st := .quiesce, partial_ := true, changed := [5], new := { cfg5 with parts := [(5, BitVec.ofNat 256 (part5 + 2 ^ 22))] } }
  { s.setRg .sdtCfg 0 0 0 (BitVec.ofNat 32 69) with sdt := { disps := [(0, { st := .armed })] } }

theorem witness_PartialLoads_2 :
    let s := permuting
    let t := running { st := .quiesce, partial_ := true, changed := [5], new := cfg5 }
    s.trl.st = .quiesce ∧ s.allQuiet = true ∧ s.trl.changed.any s.permBusy = true ∧
    t.trl.st = .quiesce ∧ t.allQuiet = true ∧ t.trl.changed.any t.permBusy = false := by decide +kernel

theorem witness_PartialLoads_3 :
    let s := (running { st := .quiesce, partial_ := true, changed := [5], new := cfg5 }).modCore 0 (fun k => { k with arr := { cur := some 0 } })
    s.trl.st = .quiesce ∧ s.allQuiet = false ∧ s.trl.changed.any (fun p => !s.forced p) = true := by decide +kernel

theorem witness_PartialLoads_4 :
    let s := running { st := .scrub, partial_ := true, changed := [5, 6], new := cfg5 }
    let t := running { st := .apply, partial_ := true, changed := [5], new := cfg5 }
    s.trl.st = .scrub ∧ s.trl.partial_ = true ∧ s.trl.moved = [] ∧ s.trl.wbinv = [] ∧ s.trl.deferred = [] ∧
    s.trl.changed = 5 :: 6 :: [] ∧ t.trl.st = .apply ∧ t.trl.partial_ = true ∧ t.trl.moved = [] ∧ t.trl.wbinv = [] ∧
    t.trl.deferred = [] ∧ t.trl.changed = [5] := by decide +kernel

/-! ### The Cellar -/

/-- A trained Cellar of 1 GiB, patrolled, its next line `n`. -/
def patrolled (n : Nat) : State :=
  { base.setRg .clrScrub 0 0 0 24 with clr := { base.clr with gib := 1, rate := 3, patrol := n } }

theorem witness_CellarCommands_1 :
    (patrolled 0).patrols = true ∧ ((patrolled 0).clr.patrol + 1) * 128 < (patrolled 0).capacity ∧
    (patrolled (2 ^ 23 - 1)).patrols = true ∧ (patrolled (2 ^ 23 - 1)).capacity ≤ ((patrolled (2 ^ 23 - 1)).clr.patrol + 1) * 128 ∧
    decodeBurst [(true, 0, 1), (true, 0, 2)] true = .uncorrectable ∧ decodeBurst [(false, 0, 1), (false, 7, 2)] false = .uncorrectable := by
  decide +kernel

theorem witness_CellarCommands_2 :
    base.clr.hot.contains 15 = false ∧ ({ base.clr with hot := [15] } : Cellar).hot.contains 15 = true ∧ (95 : Int) ≤ 95 ∧
    (85 : Int) ≤ 94 ∧ (94 : Int) < 95 ∧ (84 : Int) < 85 := by decide +kernel

/-- A fill runs over the first line of the Cellar, in a region of the hub. -/
def filling (f : Option Fill) : State :=
  let s := patrolled 0
  { s with clr := { s.clr with fill := f }, cfg := { s.cfg with regions := [{ base := 0, size := 2 ^ 21, part := 0, hub := true, group := 0, nocache := false, kslot := 0, ksrc := 2, zkill := false }] } }

theorem witness_CellarCommands_3 :
    let f : Fill := { who := .soft, base := 0, size := 0, pat := 0 }
    let s := filling none
    let t := s.setRg .clrFillbase 0 0 0 64
    let u := filling (some f)
    s.mayReg .hub (hubReg .clrFillctl) true = true ∧ s.clr.fill = none ∧ s.rg64 .clrFillbase % 2 ^ 48 % 128 = 0 ∧
    s.rg64 .clrFillsize % 2 ^ 48 % 128 = 0 ∧ t.mayReg .hub (hubReg .clrFillctl) true = true ∧ t.clr.fill = none ∧
    t.rg64 .clrFillbase % 2 ^ 48 % 128 ≠ 0 ∧ u.mayReg .hub (hubReg .clrFillctl) true = true ∧ u.clr.fill ≠ none := by decide +kernel

theorem witness_CellarCommands_4 :
    let f : Fill := { who := .soft, base := 0, size := 128, pat := 0 }
    let s := filling (some f)
    s.clr.kills = [] ∧ s.clr.fill = some f ∧ (s.fillLines f.pat (linesOf f.base f.size)).1 = 0 ∧ linesOf f.base f.size = [0] ∧
    ({ s with clr := { s.clr with kills := [f] } } : State).clr.kills = f :: [] := by decide +kernel

theorem witness_FilledLine : (List.replicate 128 (0xA5 : Byte)).length = 128 := by decide +kernel

/-! ### Tchiuth -/

/-- Port 0 in a state, of partition 5, to port 2 of device 9. -/
def linked (x : Port) : State :=
  { base with cfg := { base.cfg with tports := [(0, BitVec.ofNat 64 (5 + 128 + 9 * 256 + 2 * 2 ^ 20))] }
              tch := { base.tch with ports := [(0, x)] } }

/-! The CRC-32 of 252 bytes of zeros, in pieces of 36 bytes; its value is that of the check sequence of IEEE 802.3. -/

theorem crc_0 : (zeros 36).foldl crcByte 0xFFFFFFFF = 0x95494D2A := by decide +kernel
theorem crc_1 : (zeros 36).foldl crcByte 0x95494D2A = 0xF03D44AD := by decide +kernel
theorem crc_2 : (zeros 36).foldl crcByte 0xF03D44AD = 0xF083020C := by decide +kernel
theorem crc_3 : (zeros 36).foldl crcByte 0xF083020C = 0x8FF5FA63 := by decide +kernel
theorem crc_4 : (zeros 36).foldl crcByte 0x8FF5FA63 = 0xCAB6A401 := by decide +kernel
theorem crc_5 : (zeros 36).foldl crcByte 0xCAB6A401 = 0x7B6A8092 := by decide +kernel
theorem crc_6 : (zeros 36).foldl crcByte 0x7B6A8092 = 0x599CA60E := by decide +kernel

theorem crc_zeros : crc32 (zeros 252) = 0xA66359F1 := by
  have h : zeros 252 = zeros 36 ++ zeros 36 ++ zeros 36 ++ zeros 36 ++ zeros 36 ++ zeros 36 ++ zeros 36 := by decide +kernel
  rw [h, crc32]
  simp only [List.foldl_append, crc_0, crc_1, crc_2, crc_3, crc_4, crc_5, crc_6]
  decide +kernel

/-- A flit of zeros with sequence number 0 and a CRC. -/
def flitOf (crc : Nat) : List Byte := zeros 252 ++ toLe 4 crc

theorem flit_take (n : Nat) : (flitOf n).take 252 = zeros 252 := by
  rw [flitOf]
  exact List.take_left' (by decide +kernel)

theorem witness_LinkCommands_1 : (flitOf 0).length = 256 ∧ ((linked { st := .up }).port 0).st = .up ∧
    crc32 ((flitOf 0).take 252) ≠ leAt (flitOf 0) 252 4 := by
  rw [flit_take, crc_zeros]
  decide +kernel

theorem witness_LinkCommands_2 :
    (flitOf 0xA66359F1).length = 256 ∧ crc32 ((flitOf 0xA66359F1).take 252) = leAt (flitOf 0xA66359F1) 252 4 ∧
    (leAt (flitOf 0xA66359F1) 0 8).testBit 33 = false ∧ ((linked { st := .up }).port 0).st = .up ∧
    bits (leAt (flitOf 0xA66359F1) 0 8) 0 16 = ((linked { st := .up }).port 0).rxSeq ∧
    bits (leAt (flitOf 0xA66359F1) 0 8) 0 16 ≠ ((linked { st := .up, rxSeq := 1 }).port 0).rxSeq := by
  rw [flit_take, crc_zeros]
  decide +kernel

theorem witness_LinkCommands_3 :
    let s (n : Nat) := linked { st := .up, unacked := [{ seq := 0, bytes := flitOf 0, sent := n }] }
    ((s 7).port 0).st = .up ∧ ((s 7).port 0).unacked ≠ [] ∧ (∀ f ∈ ((s 7).port 0).unacked, f.sent < 8) ∧
    ((s 8).port 0).st = .up ∧ ((s 8).port 0).unacked ≠ [] ∧ (∃ f ∈ ((s 8).port 0).unacked, 8 ≤ f.sent) := by decide +kernel

theorem witness_LinkCommands_4 :
    let s := linked { st := .training }
    let t := linked { st := .up }
    s.mayReg .hub { n := .tchCtrl, c := 0, i := 0, j := 0, hi := false } true = true ∧ flag (s.portCfg 0) 7 = true ∧
    (s.port 0).st = .training ∧ s.trainErr 0 9 2 0 300 = 0 ∧ (t.port 0).st = .up ∧ t.tch.groups = [] := by decide +kernel

/-- Packets wait at port 1 of a device with port 0 in a state, on a torus of two. -/
def arriving (p0 : PortSt) (k : Packet) : State :=
  let s := withCore id
  ({ s with cfg := { s.cfg with tports := [(0, BitVec.ofNat 64 (5 + 128))] }, tch := { s.tch with ports := [(0, { st := p0 }), (1, { st := .up, rxq := [k] })] } } : State).setRg
    .tchTopo 0 0 0 1

theorem witness_RemoteRequests_1 :
    let k : Packet := { typ := tRead, dst := 1, src := 2 }
    let s := arriving .up k
    let t (n : Nat) := arriving .down { k with typ := n }
    (s.port 1).rxq = k :: [] ∧ k.dst ≠ s.devId ∧ s.route k.dst = some 0 ∧ (s.port 0).st = .up ∧ s.inTopo k.dst = true ∧
    (∀ n ∈ [tWrite, tRead, tSignal, tWack], ((t n).port 1).rxq = { k with typ := n } :: [] ∧ k.dst ≠ (t n).devId ∧
      (t n).route k.dst = some 0 ∧ ((t n).port 0).st ≠ .up) ∧ tWack ≠ tWrite ∧ tWack ≠ tRead ∧ tWack ≠ tSignal := by decide +kernel

/-- A window of core 0 over its first 64 KiB that grants a remote device everything; slot 1 declared EXTERNAL. -/
def remoteWindowed (k : Packet) : State :=
  let s := arriving .up k
  ({ s with cfg := { s.cfg with parts := [(5, BitVec.ofNat 256 5)] } } |>.setRg .spdSlotBase 0 1 0 0x4202 |>.setRg .spdSlotCfg 0 1 0 0x401 |>.setRg
    .spdWinBase 0 0 0 (BitVec.ofNat 32 0xFFFC000)).setRg .spdWinCfg 0 0 0 (BitVec.ofNat 32 (2 + 7 * 4 + 1 * 32))

theorem witness_RemoteRequests_2 :
    let w : Packet := { typ := tWrite, dst := 0, src := 1, addr := spadBase 0 + 0x3000, payload := [1, 2, 3] }
    let r : Packet := { typ := tRead, dst := 0, src := 1, addr := spadBase 0 + 0x3000, len := 8 }
    let ok (s : State) (k : Packet) : Bool := (s.port 1).rxq = [k] && k.dst = s.devId && whereIs k.addr = .spad 0 0x3000 && s.coreOpen 0
    let s := remoteWindowed w
    let t := remoteWindowed r
    ok s w = true ∧ 0x3000 + w.payload.length ≤ 0x80000 ∧ s.admitted (.remote 1) 0 0x3000 w.payload.length .wr = true ∧
    s.slotCheck 0 0x3000 w.payload.length true pRemote = .ok ∧ s.behind (.remote 1) 0 0x3000 w.payload.length true = none ∧ ok t r = true ∧
    t.admitted (.remote 1) 0 0x3000 r.len .rd = true ∧ t.slotCheck 0 0x3000 r.len false cRemote = .ok ∧
    t.behind (.remote 1) 0 0x3000 r.len false = none ∧ 0x3000 + r.len ≤ 0x80000 := by decide +kernel

/-- No window is open to the device that sends. -/
theorem witness_RemoteRequests_2n :
    let k (n : Nat) : Packet := { typ := n, dst := 0, src := 1, addr := spadBase 0 + 0x3000, payload := [1, 2, 3], len := 8 }
    let s (n : Nat) := arriving .up (k n)
    (∀ n ∈ [tWrite, tRead, tSignal], ((s n).port 1).rxq = k n :: [] ∧ (k n).dst = (s n).devId ∧ whereIs (k n).addr = .spad 0 0x3000 ∧
      (s n).coreOpen 0 = true) ∧ (s tWrite).admitted (.remote 1) 0 0x3000 3 .wr = false ∧
    (s tRead).admitted (.remote 1) 0 0x3000 8 .rd = false ∧ (s tSignal).admitted (.remote 1) 0 0x3000 1 .sig = false := by decide +kernel

theorem witness_RemoteRequests_3 :
    let off := (remoteWindowed { typ := 0, dst := 0, src := 0 }).slotOff 0 1
    let k : Packet := { typ := tSignal, dst := 0, src := 1, addr := spadBase 0 + off }
    let s := remoteWindowed k
    (s.port 1).rxq = [k] ∧ k.dst = s.devId ∧ whereIs k.addr = .spad 0 off ∧ s.coreOpen 0 = true ∧ off < 0x80000 ∧
    s.admitted (.remote 1) 0 off 1 .sig = true ∧ s.slotFrom 0 off = some 1 ∧ k.status.testBit 0 = false ∧
    s.admitted (.remote 1) 0 (off + 1) 1 .sig = true ∧ s.slotFrom 0 (off + 1) = none := by decide +kernel

theorem witness_RemoteRequests_4 :
    let k (n : Nat) : Packet := { typ := n, dst := 0, src := 1, addr := 0 }
    ∀ n ∈ [tWrite, tRead, tSignal], ((arriving .up (k n)).port 1).rxq = k n :: [] ∧ (k n).dst = (arriving .up (k n)).devId ∧
      (match whereIs (k n).addr with | .spad _ _ => false | _ => true) = true := by decide +kernel

/-- An answer from device 1 waits for a request of core 0. -/
def answering (k : Packet) (q : OutReq) (x : Chan) : State :=
  let s := arriving .up k
  ({ s with tch := { s.tch with reqs := [q] } } : State).setCore 0 { cst := .active, chans := [(3, x)] }

theorem witness_RemoteResponses_1 :
    let k (t n : Nat) : Packet := { typ := t, dst := 0, src := 1, tag := 7, status := n, payload := [1, 2] }
    let q (f : ReqFor) (r : Bool) : OutReq := { tag := 7, for_ := f, dst := 1, addr := 0, read := r, dest := spadBase 0 + 0x3000 }
    let ok (t n : Nat) (f : ReqFor) (r : Bool) (x : Chan) : Bool :=
      let s := answering (k t n) (q f r) x
      (s.port 1).rxq = [k t n] && (k t n).dst = s.devId && s.reqOf (k t n) = some (q f r)
    let x : Chan := { st := .wait, acks := 2 }
    let y : Chan := { st := .wait, acks := 1, sent := true }
    ok tWack 0 (.dma 0 3) false x = true ∧ (x.sent = false ∨ x.acks - 1 ≠ 0) ∧ ok tWack 0 (.dma 0 3) false y = true ∧
    y.sent = true ∧ y.acks - 1 = 0 ∧ ok tSack 0 (.signal 0) false x = true ∧ ok tNack 2 (.signal 0) false x = true ∧
    ok tNack 1 (.dma 0 3) false x = true ∧ (answering (k tNack 1) (q (.dma 0 3) false) x).chanFree 0 3 = false ∧
    ok tNack 1 (.dma 0 3) false { x with st := .idle } = true ∧
    (answering (k tNack 1) (q (.dma 0 3) false) { x with st := .idle }).chanFree 0 3 = true := by decide +kernel

theorem witness_RemoteResponses_2 :
    let q : OutReq := { tag := 7, for_ := .dma 0 3, dst := 1, addr := 0, read := true, dest := spadBase 0 + 0x3000 }
    let k : Packet := { typ := tRdata, dst := 0, src := 1, tag := 7, payload := [1, 2] }
    let s := answering k q { st := .wait, acks := 2 }
    let u := s.modPort 1 (fun x => { x with rxq := [] })
    let z := answering k q { st := .wait, acks := 2, desc := BitVec.ofNat 512 (2 ^ 352) }
    (s.port 1).rxq = k :: [] ∧ k.dst = s.devId ∧ s.reqOf k = some q ∧ q.read = true ∧ ddOp (s.chan 0 3).desc = 0 ∧
    (u.dmaPut 0 3 q.dest (ddHint (u.chan 0 3).desc) k.payload).1 = true ∧ s.tch.reqs.find? (·.tag = 7) = some q ∧
    (z.port 1).rxq = k :: [] ∧ k.dst = z.devId ∧ z.reqOf k = some q ∧ ddOp (z.chan 0 3).desc ≠ 0 ∧ 2 ≤ (z.chan 0 3).acks := by
  decide +kernel

/-- No request is outstanding, and one of a SIGNAL is. -/
theorem witness_RemoteResponses_3 :
    let k (n : Nat) : Packet := { typ := n, dst := 0, src := 1, tag := 7 }
    let q : OutReq := { tag := 7, for_ := .signal 0, dst := 1, addr := 0, read := false, dest := 0 }
    (∀ n ∈ [tWack, tRdata, tSack, tNack], ((arriving .up (k n)).port 1).rxq = k n :: [] ∧ (k n).dst = (arriving .up (k n)).devId ∧
      (arriving .up (k n)).reqOf (k n) = none) ∧ (answering (k tSack) q {}).tch.reqs.find? (·.tag = 7) = some q := by decide +kernel

/-! ### Reduction groups -/

/-- Group 9 of partition 5, OPEN in epoch 3 with tiles 0 to 3 in a region of its own, its parent device 1, its child device 2; a
packet waits. -/
def grouped (x : Group → Group) (k : Packet) : State :=
  let s := arriving .up k
  ({ s with
      tch := { s.tch with groups := [(9, x { valid := true, part := 5, st := .opened, epoch := 3, tdigest := 77, parent := 1, kids := [(2, 1)] })] }
      clr := { s.clr with gib := 1, rate := 3 }
      cfg := { s.cfg with regions := [{ base := 0, size := 2 ^ 21, part := 5, hub := false, group := 0, nocache := false, kslot := 0, ksrc := 2, zkill := false }] } } |>.setRg .grpTcount 0 9 0 4).setRg
    .grpSlot 0 9 0 0x1000

/-- A message of that epoch, of tile 1. -/
def message (t src : Nat) : Packet := { typ := t, dst := 0, src := src, grp := 9, epoch := 3, tdigest := 77, tile := 1 }

theorem witness_ReductionMessages_1 :
    let k : Packet := { message tSum 2 with payload := zeros (wordBytes 0 + 2) }
    let s := grouped id k
    let x := s.group k.grp
    (s.port 1).rxq = k :: [] ∧ k.dst = s.devId ∧ x.valid = true ∧ k.tdigest = x.tdigest ∧ x.st = .opened ∧ k.epoch = x.epoch ∧
    x.kids.any (fun y => y.1 = k.src) = true ∧ k.typ = tSum ∧ (outsOf k).isSome = true ∧ s.inArea k = true ∧ x.round k.tile = none := by
  decide +kernel

theorem witness_ReductionMessages_2 :
    let r : Round := { tile := 1, acc := [{}, {}] }
    let k : Packet := { message tResult 1 with payload := zeros (wordBytes 0 + 2) }
    let s := grouped (fun x => { x with rounds := [r] }) k
    let x := s.group k.grp
    (s.port 1).rxq = k :: [] ∧ k.dst = s.devId ∧ x.valid = true ∧ k.tdigest = x.tdigest ∧ x.st = .opened ∧ k.epoch = x.epoch ∧
    k.src = x.parent ∧ (outsOf k).map List.length = some 1 ∧ x.round k.tile = some r ∧ r.staged = false ∧ s.inArea k = true ∧
    r.resGot + 1 < r.acc.length := by decide +kernel

theorem witness_ReductionMessages_3 :
    let r : Round := { tile := 1, acc := [{}, {}] }
    let s (t src : Nat) : State := grouped (fun x => { x with rounds := [r] }) (message t src)
    let ok (t src : Nat) : Bool :=
      let u := s t src
      let k := message t src
      let x := u.group k.grp
      (u.port 1).rxq = [k] && k.dst = u.devId && x.valid && k.tdigest = x.tdigest && x.st = .opened && k.epoch = x.epoch &&
      x.round k.tile = some r && (x.kids.any (fun y => y.1 = k.src) = (src = 2)) && (decide (k.src = x.parent) = (src = 1)) &&
      x.parent ≠ 0xFFF && !x.barLocal
    ok tStaged 2 = true ∧ ok tCommit 1 = true ∧ ok tAbort 1 = true ∧ ok tBarup 2 = true ∧ ok tBardown 1 = true ∧ r.staged = false ∧
    r.committed = false := by decide +kernel

theorem witness_GroupEpochs_1 :
    let s := grouped (fun x => { x with st := .closed }) (message tSum 2)
    let t := base
    let r : RegRef := { n := .grpCtrl, c := 0, i := 9, j := 0, hi := false }
    s.mayReg .hub r true = true ∧ (s.group 9).st ≠ .opened ∧ s.openBad 9 = false ∧ t.mayReg .hub r true = true ∧
    (t.group 9).st ≠ .opened ∧ t.openBad 9 = true := by decide +kernel

theorem witness_GroupEpochs_2 :
    let r : Round := { tile := 1, acc := [{}, {}] }
    let s := grouped (fun x => { x with rounds := [r] }) (message tSum 2)
    s.mayReg .hub { n := .grpCtrl, c := 0, i := 9, j := 0, hi := false } true = true ∧ (s.group 9).st = .opened ∧
    (s.group 9).round 1 = some r ∧ r.committed = false := by decide +kernel

end Sys2Proof.Tests
end

