-- ==== Sys2Proof/Tests/Witness4.lean ====
section
/-! SUPPORT. Witnesses for the statements about the host ports and Hacor Transport, clause by clause. -/
set_option Elab.async false

namespace Sys2Proof.Tests

open Sys2Proof.Machine

/-! ### Host ports -/

/-- Port 0 in a state, its address 1.2.3.4. -/
def ported (e : Eth) : State := { base with eth := [(0, e)] }.setRg .ethIp4 0 0 0 0x01020304

/-- A frame with a body. -/
def frameOf (b : FrameBody) (ok : Bool) : Frame := { da := 0, tagged := false, pcp := 0, vid := 0, bytes := 64, fcsOk := ok, body := b }

theorem witness_FramesAndLinks_1 :
    let s := ported { link := .up }
    (s.ethp 0).link = .up ∧ (frameOf .other false).fcsOk = false ∧ (frameOf .other true).fcsOk = true ∧
    (frameOf (.arp 0x01020304) true).bytes ≤ 9216 ∧ s.ours4 0 0x01020304 = true ∧ s.liveFilters 0 = [] := by decide +kernel

/-- A frame of a message type with a sequence number and a payload, on session 7. -/
def hxt (typ seq : Nat) (pl : List Byte) : HxtFrame :=
  { ver := 1, typ := typ, resp := false, ackonly := false, resvBit := false, tx := 0, session := 7, kepoch := 0, seq := seq, ack := 0,
    sack := 0, frag := 0, nfrag := 0, len := pl.length, payload := pl, tag := [] }

theorem witness_FramesAndLinks_2 :
    let s : State := { base with eth := [(4, { link := .up })] }
    let h := hxt mAUTH 0 (zeros 64)
    let f : Frame := { frameOf (.hxtEty h) true with da := BitVec.ofNat 48 (macOf 4) }
    (s.ethp 4).link = .up ∧ f.fcsOk = true ∧ f.bytes ≤ 9216 ∧ f.body = .hxtEty h ∧ f.da.toNat = macOf 4 ∧ badHeader h = false ∧
    h.ackonly = false ∧ h.typ = mAUTH := by
  refine ⟨by decide +kernel, by decide +kernel, by decide +kernel, rfl, ?_, by decide +kernel, by decide +kernel, by decide +kernel⟩
  show (BitVec.ofNat 48 (macOf 4)).toNat = macOf 4
  rw [BitVec.toNat_ofNat]
  exact Nat.mod_mod _ _

theorem witness_FramesAndLinks_3 :
    let s := ported { link := .training, speed := 1 }
    let t := ported { link := .up, gcl := [(255, 500), (1, 500)], cycle := 1000, pos := 1 }
    let u : State := { t with prc := { t.prc with lock := true } }
    let f : EFrame := { q := 0, bytes := 64 }
    let v := ported { link := .up, cur := some f, neg := [7] }
    s.linkable 0 = true ∧ (s.ethp 0).link = .training ∧ (t.ethp 0).link = .up ∧ u.prc.lock = true ∧ (u.ethp 0).gcl ≠ [] ∧
    (gateWalk (u.ethp 0).gcl 0 ((u.ethp 0).phase u.prc.time)).1 ≠ (u.ethp 0).pos ∧ (v.ethp 0).cur = some f ∧
    (v.rg .ethTsn 0 0).toNat.testBit (8 + f.q) = false ∧ f.hxt = none ∧ (v.ethp 0).neg.contains 7 = true := by decide +kernel

/-! ### The handshake -/

/-- Session 7 in a state; frames of port 0 wait. -/
def sessioned (x : Session) (l : List HxtFrame) : State :=
  { base with ses := { base.ses with ctx := [(7, x)], inq := l.map (fun h => (0, h)) } }

theorem witness_Handshake_1 :
    let good := hxt mOPEN 0 (zeros 40 ++ publicKey 5 ++ zeros 3)
    let bad := hxt mOPEN 0 []
    let s := sessioned {} [good]
    let t := sessioned {} [bad]
    (s.takeFrame (isTyp mOPEN)).map (·.1) = some (0, good) ∧ openBadForm good.payload = false ∧
    (leAt good.payload 4 1).testBit 2 = false ∧ (t.takeFrame (isTyp mOPEN)).map (·.1) = some (0, bad) ∧ openBadForm bad.payload = true ∧
    (match s.takeFrame (isTyp mOPEN) with
      | some (_, u) => u.handshake 0 (leAt good.payload 0 4) ((good.payload.drop 8).take 32) = none && (u.sess 8).st = .free &&
          !u.opensHeld 0 && !u.ses.locked.contains (leAt good.payload 0 4) && !u.tenantFull 0 (leAt good.payload 0 4) &&
          !u.tenantScrubs 0 (leAt good.payload 0 4) &&
          u.halfOpen.length < 1024
      | none => false) = true := by decide +kernel

theorem witness_Handshake_2 :
    let x (st : SesSt) : Session := { st := st, known := true, opened := [1, 2, 3], resp := [4] }
    let right := hxt mAUTH 0 ((sessioned (x .halfopen) []).macOf 7)
    let wrong := hxt mAUTH 0 []
    let s (st : SesSt) (h : HxtFrame) := sessioned (x st) [h]
    (∀ h ∈ [right, wrong], sessNum 0 h = 7 ∧
      ∀ st ∈ [SesSt.halfopen, .rekey, .free], ((s st h).takeFrame (isTyp mAUTH)).map (·.1) = some (0, h) ∧ ((s st h).sess 7).st = st) ∧
    (∀ st ∈ [SesSt.halfopen, .rekey], ((s st right).sess 7).known = true ∧ right.payload = (s st right).macOf 7 ∧
      wrong.payload ≠ (s st wrong).macOf 7) ∧ ((sessioned { st := .lost } []).sess 7).st = .lost := by
  decide +kernel

/-! ### Messages of a session -/

/-- An OPEN session of partition 5 with a message of sequence 0, whose frame waits. -/
def messaged (h : HxtFrame) (b : Bool) : State :=
  let x : InMsg := { seq := 0, typ := h.typ, nfrag := 0, len := h.len, frags := [0], head := h.payload, begun := b }
  let s := sessioned { st := .opened, part := 5, rights := 15, inMsgs := [x] } [h]
  ({ s with cfg := { s.cfg with parts := [(5, BitVec.ofNat 256 5)] } } |>.setRg .spdSlotBase 0 1 0 0x4202 |>.setRg .spdSlotCfg 0 1 0 0x401 |>.setRg
    .spdWinBase 0 0 0 (BitVec.ofNat 32 0xFFFC000)).setRg .spdWinCfg 0 0 0 (BitVec.ofNat 32 (3 + 7 * 4 + 7 * 32))

theorem witness_SessionMessages_1 :
    let a := spadBase 0 + 0x3000
    let w := hxt mWRITE 0 (toLe 8 a ++ [1, 2, 3])
    let r := hxt mREAD 0 (toLe 8 a ++ toLe 4 16)
    let s := messaged w false
    let t := messaged r false
    let ok (s : State) (h : HxtFrame) : Bool := match s.msgFor (0, h) with
      | some m => s.ses.inq = [(0, h)] && !m.begun && !m.no && (s.sess 7).mayBegin m.seq && leAt m.head 0 8 = a && m.len = h.len
      | none => false
    ok s w = true ∧ ok t r = true ∧ sessNum 0 w = 7 ∧ sessNum 0 r = 7 ∧ a < 2 ^ 48 ∧ whereIs a = .spad 0 0x3000 ∧ s.coreOpen 0 = true ∧
    isTyp mWRITE (0, w) = true ∧ w.frag = 0 ∧ w.payload.length = w.len ∧ 8 < w.len ∧ s.admitted (reqFor 7) 0 0x3000 3 .wr = true ∧
    s.slotCheck 0 0x3000 3 true pSession = .ok ∧ s.behind (reqFor 7) 0 0x3000 3 true = none ∧ s.imageHeld a 3 = none ∧
    isTyp mREAD (0, r) = true ∧ r.len = 12 ∧ leAt r.payload 8 4 = 16 ∧ t.coreOpen 0 = true ∧ t.admitted (reqFor 7) 0 0x3000 16 .rd = true ∧
    t.slotCheck 0 0x3000 16 false cSession = .ok ∧ t.behind (reqFor 7) 0 0x3000 16 false = none := by decide +kernel

/-- The second fragment of a WRITE that has begun. -/
theorem witness_SessionMessages_1f :
    let a := spadBase 0 + 0x3000 - 1024
    let h : HxtFrame := { hxt mWRITE 0 [1, 2, 3] with frag := 1, nfrag := 1 }
    let s := (messaged h true).modSess 7 (fun x => { x with
      inMsgs := [{ seq := 0, typ := mWRITE, nfrag := 1, len := 1035, frags := [0, 1], head := toLe 8 a, begun := true }] })
    (match s.msgFor (0, h) with
      | some m => m.begun && !m.no && leAt m.head 0 8 + h.frag * (s.sess 7).fragsz = spadBase 0 + 0x3000
      | none => false) = true ∧
    s.ses.inq = [(0, h)] ∧ sessNum 0 h = 7 ∧ isTyp mWRITE (0, h) = true ∧ h.frag ≠ 0 ∧ h.payload ≠ [] ∧
    whereIs (spadBase 0 + 0x3000) = .spad 0 0x3000 ∧ s.coreOpen 0 = true ∧ s.admitted (reqFor 7) 0 0x3000 3 .wr = true ∧
    s.slotCheck 0 0x3000 3 true pSession = .ok ∧ s.behind (reqFor 7) 0 0x3000 3 true = none ∧
    s.imageHeld (spadBase 0 + 0x3000) 3 = none := by decide +kernel

theorem witness_SessionMessages_2 :
    let m : InMsg := { seq := 0, typ := mWRITE, nfrag := 0, len := 11, frags := [0], begun := true }
    let s := sessioned { st := .opened, inSeq := 1, inMsgs := [m] } []
    (s.sess 7).inMsgs.find? (·.seq = 0) = some m ∧ m.typ = mWRITE ∧ s.msgOver 7 m = true := by decide +kernel

theorem witness_SessionMessages_3 :
    let ok (h : HxtFrame) : Bool :=
      let s := messaged h false
      match s.msgFor (0, h) with
      | some m => s.ses.inq = [(0, h)] && sessNum 0 h = 7 && m.typ = h.typ && (s.sess 7).clearTo h.seq && m.len = h.len &&
          (s.sess 7).st = .opened && leAt m.head 0 4 = 0
      | none => false
    ok (hxt mFENCE 0 []) = true ∧ ok (hxt mSTAT 0 []) = true ∧ ok (hxt mCLOSE 0 []) = true ∧ ok (hxt mKILL 0 [0, 0, 0, 0]) = true := by
  decide +kernel

theorem witness_SessionMessages_4 :
    let m (t n : Nat) : InMsg := { seq := 0, typ := t, nfrag := 0, len := n, frags := [0], head := zeros 4, begun := true }
    let s (t n : Nat) := sessioned { st := .opened, inMsgs := [m t n] } []
    (∀ x ∈ [(mFENCE, 0), (mSTAT, 0), (mCLOSE, 0), (mKILL, 4), (mSUBMIT, 8)],
      ((s x.1 x.2).sess 7).inMsgs.find? (fun m => m.begun && isOrdered m.typ && ((s x.1 x.2).sess 7).clearTo m.seq) = some (m x.1 x.2)) ∧
    leAt (m mKILL 4).head 0 4 = 0 ∧ ((s mKILL 4).sess 7).st ≠ .free := by
  decide +kernel

/-- A SUBMIT of one entry. -/
def submitting (k : Nat) (e : List Byte) : HxtFrame := hxt mSUBMIT 0 (toLe 4 k ++ e)

/-- The message's own conditions on one entry. -/
def submits (s : State) (k : Nat) (e : List Byte) : Bool :=
  let h := submitting k e
  match s.msgFor (0, h) with
  | some m => s.ses.inq = [(0, h)] && sessNum 0 h = 7 && isSubmit k (0, h) && m.typ = mSUBMIT && (s.sess 7).clearTo h.seq &&
      leAt m.head 0 1 = k && leAt m.head 1 1 = 0 && leAt m.head 2 2 = 0 && m.len = 4 + entryBytes k &&
      chunksOf (entryBytes k) 1 (m.head.drop 4) = [e]
  | none => false

/-- The state in which a SUBMIT waits; the partition owns a region whose key slot 3 is bound by a session. -/
def submitted (k : Nat) (e : List Byte) : State :=
  let s := messaged (submitting k e) false
  { s with cfg := { s.cfg with regions := [{ base := 0, size := 2 ^ 21, part := 5, hub := false, group := 0, nocache := false, kslot := 3,
                                             ksrc := 1, zkill := false }] } }

theorem witness_Submits_1 :
    let e := toLe 4 (9 * 256 + 2 ^ 16)
    let s := submitted 0 e
    submits s 0 e = true ∧ bits (leAt e 0 4) 17 15 = 0 ∧ s.partOf 0 = some (s.sess 7).part ∧ s.coreOpen 0 = true ∧
    (s.core 0).cst ≠ .disabled ∧ s.ringOff 0 + 4100 ≤ 0x80000 ∧ s.evt.dfault = false := by decide +kernel

/-- A register that the session may write: SEQ_CTRL of core 0. -/
def sessionReg : Nat := regAddr .seqCtrl 0 0 0

theorem witness_Submits_2 :
    let e := toLe 8 sessionReg ++ toLe 4 0
    let s := submitted 1 e
    let u := State.modMsg { s with ses := { s.ses with inq := [] } } 7 0 (fun y => { y with begun := true })
    submits s 1 e = true ∧ leAt e 0 8 < 2 ^ 48 ∧ (s.sess 7).rights.testBit 0 = true ∧
    (u.regWrite (reqFor 7) (leAt e 0 8) 4 (BitVec.ofNat 32 (leAt e 8 4))).1 = true := by decide +kernel

theorem witness_Submits_3 :
    ∀ b ∈ [0, 1],
      let e := toLe 4 (1 * 256 + b * 2 ^ 14)
      let s := submitted 2 e
      submits s 2 e = true ∧ bits (leAt e 0 4) 15 17 = 0 ∧ s.coreOpen 0 = true ∧ s.declared 0 1 = true ∧
      s.admitted (reqFor 7) 0 (s.slotOff 0 1) 32 .sig = true ∧ (leAt e 0 4).testBit 14 = (b = 1) := by decide +kernel

theorem witness_Submits_4 :
    let e := toLe 8 (7 + 8 + 16) ++ toLe 8 4096 ++ toLe 8 4096
    let s := submitted 3 e
    submits s 3 e = true ∧ bits (leAt e 0 4) 6 26 = 0 ∧ leAt e 4 4 = 0 ∧ (leAt e 0 4).testBit 5 = false ∧ leAt e 8 8 % 4096 = 0 ∧
    leAt e 16 8 % 4096 = 0 ∧ leAt e 16 8 ≠ 0 ∧
    (match s.regionAt (leAt e 8 8) with
      | some r => !r.hub && r.part = (s.sess 7).part && leAt e 8 8 + leAt e 16 8 ≤ r.base + r.size
      | none => false) = true ∧ s.scrubbing (s.sess 7).part = false ∧ s.aperturesUsed < 8192 := by decide +kernel

theorem witness_Submits_4c :
    let e := toLe 8 (7 + 32) ++ zeros 16
    submits (submitted 3 e) 3 e = true ∧ bits (leAt e 0 4) 6 26 = 0 ∧ leAt e 4 4 = 0 ∧ (leAt e 0 4).testBit 5 = true := by decide +kernel

theorem witness_Submits_5 :
    let e := toLe 4 3
    let s := submitted 4 e
    submits s 4 e = true ∧ bits (leAt e 0 4) 10 22 = 0 ∧ (s.sess 7).rights.testBit 3 = true ∧
    s.cfg.regions.any (fun r => !r.hub && r.ksrc = 1 && r.kslot = 3 && r.part = (s.sess 7).part) = true ∧
    s.scrubbing (s.sess 7).part = false ∧ (s.kslot 3).st ≠ .session ∧ s.vendorOpen = false := by decide +kernel

/-! ### Timers, tenants, kills -/

theorem witness_TransportTimers_1 :
    let h : HxtFrame := { hxt mWRITE 0 [] with ackonly := true }
    let s := sessioned { st := .opened } [h]
    (s.takeFrame (·.2.ackonly)).map (·.1) = some (0, h) ∧ (s.sess (sessNum 0 h)).st = .opened ∧ (s.sess (sessNum 0 h)).queued = [] := by
  decide +kernel

theorem witness_TransportTimers_2 :
    let m (n : Nat) : OutMsg := { seq := 4, typ := mWRITE, resp := true, payload := [], tx := n }
    let s (n : Nat) := sessioned { st := .opened, unackedIn := 1, outMsgs := [m n] } []
    let t := sessioned { st := .opened, events := [{ code := 0x0701, cls := 0 }] } []
    ((s 14).sess 7).st = .opened ∧ ((s 14).sess 7).unackedIn ≠ 0 ∧ ((s 14).sess 7).outMsgs.find? (·.seq = 4) = some (m 14) ∧
    (m 14).src = none ∧ ((s 15).sess 7).outMsgs.find? (·.seq = 4) = some (m 15) ∧ ((s 15).sess 7).st = .opened ∧
    (t.sess 7).st = .opened ∧ (t.sess 7).events ≠ [] ∧ (t.sess 7).queued = [] ∧ (t.sess 7).maySend (t.sess 7).outSeq = true ∧
    (t.sess 7).outSeq + 1 ≠ 0xFFFF0000 := by decide +kernel

theorem witness_TenantsAndKills :
    let s := sessioned { st := .opened } []
    s.mayReg .hub { n := .sesTnctl, c := 0, i := 0, j := 0, hi := false } true = true ∧ State.reset.sessionsBy 4095 = [] ∧
    s.mayReg .hub { n := .sesKill, c := 0, i := 0, j := 0, hi := false } true = true ∧ (s.sess 7).st ≠ .free := by decide +kernel

end Sys2Proof.Tests
end

