-- ==== Sys2Proof/Tests/Witness5.lean ====
section
/-! SUPPORT. Witnesses for the statements about security, boot, power, the Meter, reset, and codes and tile indexes, clause by
clause. -/
set_option Elab.async false

namespace Sys2Proof.Tests

open Sys2Proof.Machine

/-- A register of the hub's blocks, without an index. -/
def hubOne (n : RegName) : RegRef := { n := n, c := 0, i := 0, j := 0, hi := false }

/-- The device in a security state, its serial number and its secret those of the base state. -/
def secured (x : Sec) : State := { base with sec := { x with serial := 7, puf := 166 } }
/-- Partition 5 holds block 0 of quadrant 0. -/
def cfgFive : Cfg := { parts := [(5, BitVec.ofNat 256 5)], rbidx := 2, rbval := 9 }

theorem witness_FusesAndKills_1 :
    let s := secured { boot := .rom }
    let t : State := { base with cfg := cfgFive, retained := cfgFive }
    let x : Scrub := { part := 5, kill := true }
    s.sec.boot = .rom ∧ s.sec.lc = 1 ∧ t.mayReg .hub (hubOne .secRbadv) true = true ∧ t.runningRb 2 = some 9 ∧
    t.runningRb 3 = none ∧ (secured { boot := .ran }).sec.boot ≠ .rom ∧
    t.mayReg .hub (hubOne .secKill) true = true ∧ (t.partRec 5).isSome = true ∧ t.scrubbing 5 = false ∧ t.applying 5 = false ∧
    t.partRec 6 = none ∧ t.scrubbing 6 = false ∧ t.trlBusy = false ∧
    (secured { scrubs := [x] }).sec.scrubs = [x] ∧ x.part = 5 ∧ x.invz = [] ∧ x.kill = true ∧ (secured { scrubs := [x] }).scrubbing 5 = true ∧
    (secured { scrubs := [x] }).trl.st = .idle ∧ (secured { scrubs := [x] }).evt.warm = none ∧
    (secured { scrubs := [{ x with invz := [3] }] }).sec.scrubs.find? (·.part = 5) = some { x with invz := [3] } := by decide +kernel

/-- A partial load applies partition 5. -/
def applyingFive : State :=
  { base with cfg := cfgFive, trl := { st := .apply, partial_ := true, changed := [5], new := cfgFive } }

theorem witness_FusesAndKills_2 :
    applyingFive.mayReg .hub (hubOne .secKill) true = true ∧ applyingFive.scrubbing 5 = false ∧ applyingFive.applying 5 = true ∧
    applyingFive.mayReg .hub (hubOne .evtRstctl) true = true := by decide +kernel

/-- The hash of the identity's public key. -/
def identity : List Byte :=
  toLe 64 0xE7BFB6E8CFD4471F06FC350212D53D2F91B64B751035B16FF2055F97D2EE08C955FF96DACD7BC1486CE2C713B270AEFCD2FD57A3C7E151C7AAD94055299EF63E

theorem identity_eq : (secured {}).sec.identityHash = identity := by decide +kernel

/-- A token of a level for JTAG under the public key of the private key 5: magic and level, serial number, challenge 5, expiry 1, the
identity's hash, the key; signed. -/
def token (level : Nat) : List Byte :=
  [0x44, 0x42, 0x54, 0x4B] ++ toLe 4 level ++ toLe 8 7 ++ toLe 8 5 ++ toLe 8 1 ++ identity ++ keyBytes ++ zeros 3 ++
    (if level = 1 then
      sigBytes 0x1A564B4CD8D81459D2D18FAFC7545BE3CEF40790FCFC11258B97AF1CE63E98057D13B45EA4E5DB710F78C060C3493EB86F8AADA865FB1B20E70DE4B7D8AC6A49898
        0x16D58C3D69BAD68D79A5F6759D62AFF11381CC6D8C4116AFF5EBDAED2D338755ED934191F227D04568F952DCDAC43B7200F2A5221F95EADDD33DAA069981B5C95D9
    else
      sigBytes 0x1ECAFBCC1870EAB93E2EED8D24B2A19E8B34FB8702A4674D129A78B0F13F6665E759B8A6E75EBD01346B5D7C8F6E45E58B2DD517ABBA239D9F153E8AE4706CB28A4
        0x1CF03B4055156ED12B3CF2D6BC3A98FF9A5432F0A125E9474007DCC1018820D0636456FBA115DEE010C1F0758C575AAACB89C6E1C852AD1F6E4167945832D14AC74)

/-- The device checks a token against a challenge; the key is the owner's and the vendor's. -/
def tokened (level chal : Nat) : State :=
  secured { ownerHash := digestOf keyBytes, vendorHash := digestOf keyBytes, tok := token level, tokBusy := true,
            tokChal := BitVec.ofNat 64 chal }

theorem witness_DebugAndAttestation_1 :
    (tokened 1 5).sec.tokBusy = true ∧ (tokened 1 5).tokenResult = 1 ∧ leAt (tokened 1 5).sec.tok 4 1 = 1 := by decide +kernel

theorem witness_DebugAndAttestation_2 :
    (tokened 2 5).sec.tokBusy = true ∧ (tokened 2 5).tokenResult = 1 ∧ leAt (tokened 2 5).sec.tok 4 1 = 2 ∧
    (tokened 2 5).trlBusy = false := by decide +kernel

theorem witness_DebugAndAttestation_2n : (tokened 1 6).sec.tokBusy = true ∧ (tokened 1 6).tokenResult ≠ 1 := by decide +kernel

theorem witness_DebugAndAttestation_3 :
    let s := secured { vendorDue := true }
    let t := secured { dbg := 1 }
    let u := secured { attBusy := true }
    base.mayReg .hub (hubOne .secDbgctl) true = true ∧ base.sec.tokBusy = false ∧ s.sec.vendorDue = true ∧ s.sec.scrubs = [] ∧
    s.trl.deferred.any (·.2.2) = false ∧
    t.sec.dbg.testBit 0 = true ∧ t.sec.expiry * 10 ^ 9 ≤ t.prc.time ∧ base.mayReg .hub (hubOne .secAttctl) true = true ∧
    base.sec.attBusy = false ∧ u.sec.attBusy = true := by decide +kernel

/-- A firmware image of a kind with no body, signed by the private key 5. -/
def firmware (kind : Nat) : List Byte :=
  toLe 4 0x4D574652 ++ toLe 4 kind ++ zeros 16 ++ keyBytes ++ zeros 355 ++
    (if kind = 1 then
      sigBytes 0x19356B521254754BFA4D5BB60C1227F4756638A27D8E000FB175D4EDE9D7384031C852AFC2BF3487FCA89728DC89E5ADB9FB096E73854D1F8F0925C3FAF85552FD7
        0x734D0B51CCADCC3E212C6031C3EE83887FEDA4850DE6E7DC9382212FC07D31D46B0FB601B08C05E3230EC720E2AD760EAB6B38A10B590F8F0C0F017E326A8E7FA1
    else
      sigBytes 0x2493BDE81DEC855E59933F7588671CC27CF7FE856A3B0CE0A93609F414029A6776DDB1C5F870F72EC330601128EFE479F36E44E6D944411C29EBC77D14917494DB
        0x1F6EE0BD94679EBB998E7E4FABA070B22D0107D460636119701518063A71E3BC9DC39FC0440334E072E31A5ED92330D52EBA058F72C374080134AF638D8B24D35D)

/-- The device OWNED by that key, at a stage of boot. -/
def booting (x : Boot) : State := secured { boot := x, lc := 3, ownerHash := digestOf keyBytes }

theorem witness_BootAndColdReset_1 :
    let s := booting .rom
    let t := booting .hubfw
    let w : State := { booting .ran with evt := { base.evt with warm := some 1 } }
    let d : State := { booting .ran with prc := { base.prc with d3 := .waking }, clr := { base.clr with sref := true } }
    s.sec.boot = .rom ∧ s.sec.owned = true ∧ s.fwOk 1 0 (firmware 1) = true ∧ s.fwOk 1 0 [] = false ∧
    t.sec.boot = .hubfw ∧ t.awaitsHub = true ∧ t.fwOk 2 1 [] = false ∧ t.fwOk 2 1 (firmware 2) = true ∧
    w.awaitsHub = true ∧ w.sec.boot ≠ .hubfw ∧ w.evt.warm.isSome = true ∧ w.fwOk 2 1 (firmware 2) = true ∧
    d.awaitsHub = true ∧ d.sec.boot ≠ .hubfw ∧ d.evt.warm = none ∧ d.fwOk 2 1 (firmware 2) = true := by decide +kernel

theorem witness_BootAndColdReset_2 :
    let s (k : Nat) : State := { base with prc := { base.prc with raising := some k } }
    (booting .zero).sec.boot = .zero ∧ (s 0).prc.raising = some 0 ∧ (s 3).prc.raising = some 3 ∧ (s 9).prc.raising = some 9 := by
  decide +kernel

/-- The Porch changed. -/
def porched (f : Prc → Prc) : State := { base with prc := f base.prc }

theorem witness_QuadrantsAndRails :
    let s := (porched id).setRg .prcPwrcfg 0 0 0 5
    let g := (porched id).setQuad 2 .gated
    let o := (porched id).setQuad 3 .off
    let p := (porched (fun x => { x with rails := [1] })).setQuad 1 .powering
    let v := porched (fun x => { x with rails := [0], sets := [(0, 700)] })
    s.quad 3 = .on ∧ s.rf .prcPwrcfg 0 0 0 10 ≠ 0 ∧ s.quadIdle 3 = true ∧ s.prc.d3 = .none ∧ g.quad 2 = .gated ∧
    s.mayReg .hub (hubOne .prcPctl) true = true ∧ s.mayOff 3 = true ∧ o.quad 3 = .off ∧ o.prc.d3 = .none ∧ o.prc.tripped = false ∧
    p.quad 1 = .powering ∧ p.prc.rails.contains 1 = true ∧ v.prc.rails.contains 0 = true ∧ v.prc.avsAt.find? (·.1 = 0) = none ∧
    v.setpoint 0 < max 550 (min 800 750) / 5 * 5 ∧ max 550 (min 800 600) / 5 * 5 < v.setpoint 0 := by decide +kernel

theorem witness_SleepAndWake :
    let s := porched (fun x => { x with quads := [(0, .off), (1, .off), (2, .off), (3, .off)] })
    let e := porched (fun x => { x with d3 := .entering })
    let a := (porched (fun x => { x with d3 := .asleep })).setRg .prcWakecfg 0 0 0 7
    let f : HxtFrame := { ver := 1, typ := 1, resp := false, ackonly := false, resvBit := false, tx := 0, session := 0, kepoch := 0,
                          seq := 0, ack := 0, sack := 0, frag := 0, nfrag := 0, len := 0, payload := [], tag := zeros 16 }
    let w := porched (fun x => { x with d3 := .waking })
    s.mayReg .hub (hubOne .prcPctl) true = true ∧ s.mayD3 = true ∧ e.prc.d3 = .entering ∧ e.prc.d3ops = [] ∧ e.prc.wakeSeen = 0 ∧
    a.prc.d3 = .asleep ∧ a.prc.tripped = false ∧ (a.rg .prcWakecfg).toNat.testBit 0 = true ∧ badHeader f = false ∧
    (a.rg .prcWakecfg).toNat.testBit 1 = true ∧ (a.rg .prcWakecfg).toNat.testBit 2 = true ∧ a.rg64 .prcWaket ≤ a.prc.time ∧
    w.prc.d3 = .waking ∧ w.clr.sref = false := by decide +kernel

/-- Readings of every diode alike. -/
def readings (t : Int) : Readings := { temp := List.replicate 64 t, cur := List.replicate 16 0, volt := List.replicate 24 750 }

theorem witness_PorchInputs_1 :
    let s := porched (fun x => { x with hotT := [63] })
    (readings 879).temp.length = 64 ∧ (readings 879).cur.length = 16 ∧ (readings 879).volt.length = 24 ∧ s.prc.porst = false ∧
    s.prc.tripped = false ∧ (∀ v ∈ (readings 879).temp, v < 880) ∧ (880 : Int) ≤ (readings 880).temp.getD 63 0 ∧ 63 ∈ s.prc.hotT := by
  decide +kernel

theorem witness_PorchInputs_2 :
    let s := porched (fun x => { x with i3c := some 8, good := 7 })
    let y : Sync := { port := 4, offset := 100, rate := 0 }
    y.port.val = s.rf .ethPtpsel 0 0 0 3 ∧ s.prc.d3 ≠ .asleep ∧ s.prc.porst = false ∧ (-1000 : Int) ≤ y.offset ∧
    y.offset.natAbs ≤ 100 ∧ 7 ≤ s.prc.good ∧ s.i3cUp = true ∧ (s.regRead .porch (Blk.prc.base + 0) 4).1.isSome = true ∧
    s.prc.standby = true := by decide +kernel

theorem witness_MeterCommands_1 :
    let s : State := { base with mtr := { qSec := 1 }, cfg := cfgFive }.setRg .mtrBud 0 5 0 1000
    let t : State := { base with ses := { ctx := [(7, { st := .opened, swin := 0x4001, sbud := 9 })] } }
    s.hubOn = true ∧ s.mtr.qSec ≠ 0 ∧ (s.partRec 5).isSome = true ∧ s.partBudget 5 ≠ 0 ∧ s.heldWork (fun c => s.partOf c = some 5) = [] ∧
    (t.sess 7).st ≠ .free ∧ (t.sess 7).budget ≠ 0 ∧ t.heldWork (fun c => (t.core c).owner = some 7) = [] := by decide +kernel

theorem witness_MeterCommands_2 :
    let s : State := { base with ses := { ctx := [(0, { st := .opened })] } }
    s.mayReg .hub (hubOne .mtrSwin) true = true ∧ reservedIn RegName.mtrSwin.row.fs (0x4001 : W32).toNat = false ∧
    (s.sess (s.rf .mtrSsel 0 0 0 16)).st ≠ .free ∧ s.heldWork (fun c => (s.core c).owner = some (s.rf .mtrSsel 0 0 0 16)) = [] := by
  decide +kernel

theorem witness_ResetsAndLog :
    let s := secured { boot := .ran }
    let t : State := { base with cfg := cfgFive }
    s.mayReg .hub (hubOne .evtRdidx) true = true ∧ s.evt.warm = none ∧ s.prc.d3 = .none ∧ s.prc.tripped = false ∧ s.prc.porst = false ∧
    s.sec.boot ≠ .stopped ∧ (∀ k ∈ [0, 1, 2], (secured { boot := .stopped, bootCode := k }).sec.boot = .stopped) ∧
    (secured { scrubs := [{ part := 5, kill := true }] }).scrubbing 5 = true ∧ s.mayReg .hub (hubOne .evtRstctl) true = true ∧ t.mayReg .hub (hubOne .evtRstctl) true = true ∧
    (t.partRec 5).isSome = true ∧ t.scrubbing 5 = false ∧ t.applying 5 = false := by decide +kernel

theorem witness_CoreQuiesce :
    let q := withCore (fun k => { k with cst := .quiescing false false })
    let d := withCore (fun k => { k with cst := .disabled })
    let e := withCore (fun k => { k with cst := .quiescing false false, scrub := true })
    let f := withCore (fun k => { k with tiles := [(7, { st := .claimed })] })
    base.mayReg .hub (hubOne .evtCqctl) true = true ∧ (base.core 0).cst = .active ∧ q.mayReg .hub (hubOne .evtCqctl) true = true ∧
    (q.core 0).cst = .quiescing false false ∧ d.mayReg .hub (hubOne .evtCqctl) true = true ∧ (d.core 0).cst = .disabled ∧
    (q.core 0).quiescing = true ∧ (q.core 0).scrub = false ∧ q.quiesced 0 = true ∧ (e.core 0).scrub = true ∧
    (e.core 0).cst = .quiescing false false ∧ f.mayReg .hub (hubOne .evtForce) true = true ∧ (f.tile 0 7).forceable = true ∧
    base.mayReg .hub { n := .evtCflt, c := 0, i := 255, j := 0, hi := false } true = true := by decide +kernel

/-! ### Codes, tile indexes and counters -/

theorem witness_PackedRows : 3 < fmtBits 0x09 ∧ (∀ c ∈ [0, 255], c < 2 ^ fmtBits 0x09) := by decide +kernel

theorem witness_IntegerElements :
    (upTo 32).filter (fun f => intN f ≠ 0) ≠ [] ∧ (∀ f ∈ upTo 32, intN f ≠ 0 → 2 ^ (intN f - 1) < 2 ^ intN f) := by decide +kernel

/-- A space of 1 by 3 by 2 by 2 tiles. -/
def space : Space := { tb := 1, tm := 3, tn := 2, tk := 2, blkm := 2, blkn := 1, lordb := 0x1B, lordt := 0x1B, hil := false }

theorem witness_TileIndexRoundTrip :
    1 ≤ space.blkm ∧ 1 ≤ space.blkn ∧ orderOk space.lordb = true ∧ orderOk space.lordt = true ∧ space.size = 12 := by decide +kernel

/-- A step that raises a counter. -/
theorem witness_FusesNeverClear :
    let s : State := { base with cfg := cfgFive, pending := [.rollbackAdvance .hub 2] }
    (match step s with | .next t => decide (Sparse.get 0 t.sec.rbctr 2 = 9) | _ => false) = true := by decide +kernel

end Sys2Proof.Tests
end

section
/-! Number formats: the bits of packed rows (R39) and the integer elements (R42, R43). -/

namespace Sys2Proof.Machine

/-! ### Bit fields and byte strings, bit by bit (R6, R7) -/

@[simp] theorem testBit_bits (x lo n b : Nat) : (bits x lo n).testBit b = (decide (b < n) && x.testBit (lo + b)) := by
  simp only [bits, Nat.testBit_mod_two_pow, Nat.testBit_shiftRight]

theorem bits_lt (x lo n : Nat) : bits x lo n < 2 ^ n := Nat.mod_lt _ (Nat.two_pow_pos n)

theorem testBit_ofLe (bs : List Byte) (j : Nat) : (ofLe bs).testBit j = (bs.getD (j / 8) 0).getLsbD (j % 8) := by
  induction bs generalizing j with
  | nil => simp [ofLe]
  | cons x bs ih =>
    have cons_eq : ofLe (x :: bs) = 2 ^ 8 * ofLe bs + x.toNat := Nat.add_comm ..
    rw [cons_eq, Nat.testBit_two_pow_mul_add _ x.isLt]
    by_cases h : j < 8
    · rw [if_pos h, Nat.div_eq_of_lt h, Nat.mod_eq_of_lt h, List.getD_cons_zero, BitVec.testBit_toNat]
    · have hsub : j / 8 = (j - 8) / 8 + 1 := by omega
      have hmod : j % 8 = (j - 8) % 8 := by omega
      rw [if_neg h, ih, hsub, hmod, List.getD_cons_succ]

theorem getLsbD_toLe (n x j : Nat) (h : j < 8 * n) : ((toLe n x).getD (j / 8) 0).getLsbD (j % 8) = x.testBit j := by
  induction n generalizing x j with
  | zero => omega
  | succ n ih =>
    by_cases h8 : j < 8
    · rw [toLe, Nat.div_eq_of_lt h8, Nat.mod_eq_of_lt h8, List.getD_cons_zero, BitVec.getLsbD_ofNat, decide_eq_true h8,
        Bool.true_and]
    · have hsub : j / 8 = (j - 8) / 8 + 1 := by omega
      have hmod : j % 8 = (j - 8) % 8 := by omega
      have high : (x / 256).testBit (j - 8) = x.testBit (j - 8 + 8) := Nat.testBit_div_two_pow (n := 8) x (j - 8)
      rw [toLe, hsub, hmod, List.getD_cons_succ, ih _ _ (by omega), high, Nat.sub_add_cancel (Nat.le_of_not_lt h8)]

/-- A field of bytes holds the string's bits from its offset on. -/
theorem testBit_leAt (bs : List Byte) (o n j : Nat) (h : j < 8 * n) :
    (leAt bs o n).testBit j = (bs.getD ((8 * o + j) / 8) 0).getLsbD ((8 * o + j) % 8) := by
  have hj : j / 8 < n := by omega
  have hd : (8 * o + j) / 8 = o + j / 8 := by omega
  have hm : (8 * o + j) % 8 = j % 8 := by omega
  simp only [leAt, testBit_ofLe, hd, hm, List.getD_eq_getElem?_getD, List.getElem?_take_of_lt hj, List.getElem?_drop]

/-! ### Packed rows (R39, R40) -/

/-- Bit `b` of element `i` is stream bit `i * w + b`: the bytes that `codeAt` reads hold the whole element. -/
theorem testBit_codeAt (row : List Byte) (f i b : Nat) (hb : b < fmtBits f) :
    (codeAt row f i).testBit b = (row.getD ((i * fmtBits f + b) / 8) 0).getLsbD ((i * fmtBits f + b) % 8) := by
  have held : i * fmtBits f % 8 + b < 8 * (fmtBits f / 8 + 2) := by omega
  have start : 8 * (i * fmtBits f / 8) + (i * fmtBits f % 8 + b) = i * fmtBits f + b := by omega
  simp only [codeAt, testBit_bits, hb, decide_true, Bool.true_and, testBit_leAt _ _ _ _ held, start]

theorem codeAt_lt (row : List Byte) (f i : Nat) : codeAt row f i < 2 ^ fmtBits f := bits_lt ..

theorem testBit_pack_uniform (w : Nat) (cs : List Nat) (i b : Nat) (hb : b < w) :
    (pack (cs.map (fun c => (w, c)))).testBit (i * w + b) = (cs.getD i 0).testBit b := by
  induction cs generalizing i with
  | nil => exact (Nat.zero_testBit (i * w + b)).trans (Nat.zero_testBit b).symm
  | cons c cs ih =>
    have cons_eq : pack ((c :: cs).map (fun c => (w, c))) = 2 ^ w * pack (cs.map (fun c => (w, c))) + c % 2 ^ w :=
      Nat.add_comm ..
    rw [cons_eq, Nat.testBit_two_pow_mul_add _ (Nat.mod_lt _ (Nat.two_pow_pos w))]
    cases i with
    | zero =>
      rw [Nat.zero_mul, Nat.zero_add, if_pos hb, Nat.testBit_mod_two_pow, decide_eq_true hb, Bool.true_and, List.getD_cons_zero]
    | succ i =>
      have next : (i + 1) * w + b = w + (i * w + b) := by rw [Nat.succ_mul]; omega
      rw [next, if_neg (by omega), Nat.add_sub_cancel_left, ih, List.getD_cons_succ]

/-- A row has room for its elements. -/
theorem bit_lt_rowBytes {f n i b : Nat} (hi : i < n) (hb : b < fmtBits f) : i * fmtBits f + b < 8 * rowBytes f n := by
  have last : (i + 1) * fmtBits f ≤ n * fmtBits f := Nat.mul_le_mul_right _ hi
  have next : (i + 1) * fmtBits f = i * fmtBits f + fmtBits f := Nat.succ_mul ..
  rw [rowBytes, ceilDiv, if_neg (by decide)]
  omega

theorem getLsbD_packCodes (f : Nat) (cs : List Nat) (i b : Nat) (hi : i < cs.length) (hb : b < fmtBits f) :
    ((packCodes f cs).getD ((i * fmtBits f + b) / 8) 0).getLsbD ((i * fmtBits f + b) % 8) = (cs.getD i 0).testBit b := by
  rw [packCodes, getLsbD_toLe _ _ _ (bit_lt_rowBytes hi hb), testBit_pack_uniform _ _ _ _ hb]

/-- A code that fits is read back from the row it was packed into. -/
theorem codeAt_packCodes (f : Nat) (cs : List Nat) (i : Nat) (hi : i < cs.length) (hc : cs[i] < 2 ^ fmtBits f) :
    codeAt (packCodes f cs) f i = cs[i] := by
  refine Nat.eq_of_testBit_eq fun b => ?_
  by_cases hb : b < fmtBits f
  · rw [testBit_codeAt _ _ _ _ hb, getLsbD_packCodes _ _ _ _ hi hb, List.getD_eq_getElem?_getD,
      List.getElem?_eq_getElem hi, Option.getD_some]
  · have high : 2 ^ fmtBits f ≤ 2 ^ b := Nat.pow_le_pow_right Nat.two_pos (Nat.le_of_not_lt hb)
    rw [Nat.testBit_lt_two_pow (Nat.lt_of_lt_of_le (codeAt_lt ..) high), Nat.testBit_lt_two_pow (Nat.lt_of_lt_of_le hc high)]

theorem codesAt_packCodes (f : Nat) (cs : List Nat) (hc : ∀ c ∈ cs, c < 2 ^ fmtBits f) :
    codesAt (packCodes f cs) f 0 cs.length = cs :=
  List.ext_getElem (by simp only [codesAt, upTo, List.length_map, List.length_range]) fun i _ hi => by
    simp only [codesAt, upTo, List.getElem_map, List.getElem_range, Nat.zero_add]
    exact codeAt_packCodes f cs i hi (hc _ (List.getElem_mem hi))

/-- Settles O57: bit by bit through the byte strings that `codeAt` reads and `packCodes` writes. -/
theorem packedRows : Obligations.PackedRows := fun f =>
  ⟨fun row i b hb => testBit_codeAt row f i b hb, fun row i => codeAt_lt row f i,
    fun cs i b hi hb => getLsbD_packCodes f cs i b hi hb, fun cs hc => codesAt_packCodes f cs hc⟩

/-! ### Integer elements (R42, R43) -/

/-- The In formats of R38 are the codes 0x02 to 0x08. -/
theorem intN_cases {f : Nat} (hf : intN f ≠ 0) : f = 2 ∨ f = 3 ∨ f = 4 ∨ f = 5 ∨ f = 6 ∨ f = 7 ∨ f = 8 := by
  unfold intN at hf
  split at hf
  case h_8 => exact absurd rfl hf
  all_goals decide

section IntegerFormat
variable {f : Nat} (hf : intN f ≠ 0)
include hf

/-- An In format stores n bits, and its natural width m_f is n. -/
theorem fmtBits_fmtMf_of_intN : fmtBits f = intN f ∧ fmtMf f = intN f := by
  rcases intN_cases hf with rfl | rfl | rfl | rfl | rfl | rfl | rfl <;> exact ⟨rfl, rfl⟩

theorem isFloat_of_intN : isFloat f = false := by
  rcases intN_cases hf with rfl | rfl | rfl | rfl | rfl | rfl | rfl <;> rfl

theorem elemVal_of_intN (zp : Nat) (cb : Nat → Nat) (c : Nat) : elemVal f zp cb c = FV.ofInt (sext (intN f) c) 0 := by
  rcases intN_cases hf with rfl | rfl | rfl | rfl | rfl | rfl | rfl <;> rfl

end IntegerFormat

theorem sext_of_lt {n c : Nat} (h : c < 2 ^ n) : sext n c = if c < 2 ^ (n - 1) then (c : Int) else (c : Int) - 2 ^ n := by
  simp only [sext, Nat.mod_eq_of_lt h, ← Nat.not_lt, ite_not]

/-- The magnitude of an n-bit two's complement value is at most 2^(n-1), which n bits hold. -/
theorem natAbs_sext_lt {n : Nat} (hn : n ≠ 0) (c : Nat) : (sext n c).natAbs < 2 ^ n := by
  have hc : c % 2 ^ n < 2 ^ n := Nat.mod_lt _ (Nat.two_pow_pos n)
  have half : 2 ^ n = 2 * 2 ^ (n - 1) := (Nat.two_pow_pred_mul_two (Nat.pos_of_ne_zero hn)).symm.trans (Nat.mul_comm ..)
  have cast : ((2 ^ n : Nat) : Int) = 2 ^ n := by norm_cast
  have pos : 0 < 2 ^ (n - 1) := Nat.two_pow_pos _
  simp only [sext]
  split <;> omega

theorem width_le_of_lt_two_pow {x n : Nat} (h : x < 2 ^ n) : width x ≤ n := by
  unfold width
  split
  · exact Nat.zero_le n
  · exact (Nat.log2_lt ‹_›).2 h

/-- An integer that fits the width is its own magnitude at offset 0. -/
theorem magAt_ofInt {m : Nat} {v : Int} (h : v.natAbs < 2 ^ m) : magAt m 0 (FV.ofInt v 0) = v.natAbs := by
  have unshifted : magAt m 0 (FV.ofInt v 0) = min (v.natAbs * 2 ^ 0) (2 ^ m - 1) := rfl
  rw [unshifted, Nat.pow_zero, Nat.mul_one, Nat.min_eq_left (Nat.le_sub_one_of_lt h)]

/-- Integers that fit the width need no format offset. -/
theorem efmtOf_ofInt {f : Nat} (hf : isFloat f = false) (m : Nat) (vs : List Int) (hv : ∀ v ∈ vs, v.natAbs < 2 ^ m) :
    efmtOf f m (vs.map (FV.ofInt · 0)) = 0 := by
  simp only [efmtOf, hf, Bool.false_eq_true, if_false]
  refine congrArg Int.ofNat (Nat.sub_eq_zero_of_le (List.foldlRecOn (motive := (· ≤ m)) _ _ (Nat.zero_le m) ?_))
  intro widest hw x hx
  obtain ⟨v, hmem, rfl⟩ := List.mem_map.1 hx
  exact Nat.max_le.2 ⟨hw, width_le_of_lt_two_pow (hv v hmem)⟩

/-- Settles O58: In and U8Z elements are `FV.ofInt` of an integer that the format's width holds. -/
theorem integerElements : Obligations.IntegerElements := by
  refine ⟨fun f zp cb hf => ⟨(fmtBits_fmtMf_of_intN hf).1, (fmtBits_fmtMf_of_intN hf).2, fun c hc => ?_, fun cs _ => ?_⟩,
    fun q zp cb hq hz => ⟨?_, rfl, magAt_ofInt (by omega)⟩⟩
  · rw [elemVal_of_intN hf, magAt_ofInt (natAbs_sext_lt hf c), sext_of_lt hc]
    exact ⟨rfl, rfl⟩
  · have decoded : cs.map (elemVal f zp cb) = (cs.map (fun c => sext (intN f) c)).map (FV.ofInt · 0) := by
      rw [List.map_map]
      exact List.map_congr_left fun c _ => elemVal_of_intN hf zp cb c
    rw [decoded]
    refine efmtOf_ofInt (isFloat_of_intN hf) _ _ fun v hv => ?_
    obtain ⟨c, -, rfl⟩ := List.mem_map.1 hv
    exact natAbs_sext_lt hf c
  · have below : (q : Int) - zp < 0 ↔ q < zp := by omega
    exact congrArg (FV.fin · _ 0) (decide_eq_decide.2 below)

end Sys2Proof.Machine
end

section
/-! Tile indexes (R313, R315, R316): the walks over loop orders, the Hilbert curve, and the round trip. -/

namespace Sys2Proof.Machine

/-! ### The Hilbert curve (R316) -/

/-- One doubling of `d2xy`: the cell of a square of side `s` moved into quadrant `t % 4` of the square of side `2 * s`. -/
def hilbertStep (s x y t : Nat) : Nat × Nat :=
  let rx := t / 2 % 2
  let ry := (t ^^^ rx) % 2
  let c := if ry = 0 then (if rx = 1 then (s - 1 - y, s - 1 - x) else (y, x)) else (x, y)
  (c.1 + s * rx, c.2 + s * ry)

theorem d2xy_succ (f x y t s : Nat) :
    d2xy (f + 1) x y t s = d2xy f (hilbertStep s x y t).1 (hilbertStep s x y t).2 (t / 4) (2 * s) := by
  simp only [d2xy, hilbertStep]
  by_cases h : (t ^^^ t / 2 % 2) % 2 = 0
  · by_cases k : t / 2 % 2 = 1 <;> simp only [h, k, if_true, if_false]
  · simp only [h, if_false]

/-- The quadrant is the lowest digit of base 4. -/
theorem hilbertStep_digit (s x y t : Nat) {d : Nat} (_hd : d < 4) : hilbertStep s x y (4 * t + d) = hilbertStep s x y d := by
  have rx : (4 * t + d) / 2 % 2 = d / 2 % 2 := by omega
  have ry : ((4 * t + d) ^^^ d / 2 % 2) % 2 = (d ^^^ d / 2 % 2) % 2 := by
    have low : (4 * t + d) % 2 = d % 2 := by omega
    rw [← Nat.pow_one 2, Nat.xor_mod_two_pow, Nat.xor_mod_two_pow, Nat.pow_one, low]
  simp only [hilbertStep, rx, ry]

theorem exists_hilbertStep_eq {s u v : Nat} (hu : u < 2 * s) (hv : v < 2 * s) :
    ∃ x y d, x < s ∧ y < s ∧ d < 4 ∧ hilbertStep s x y d = (u, v) := by
  by_cases h1 : u < s <;> by_cases h2 : v < s
  · exact ⟨v, u, 0, h2, h1, by decide, by simp [hilbertStep]⟩
  · exact ⟨u, v - s, 1, h1, by omega, by decide, by simp [hilbertStep]; omega⟩
  · exact ⟨s - 1 - v, s - 1 - (u - s), 3, by omega, by omega, by decide, by simp [hilbertStep]; omega⟩
  · exact ⟨u - s, v - s, 2, by omega, by omega, by decide, by simp [hilbertStep]; omega⟩

/-- Every cell of the square is on the curve. -/
theorem exists_d2xy_eq (f : Nat) : ∀ s u v, u < 2 ^ f * s → v < 2 ^ f * s →
    ∃ x y t, x < s ∧ y < s ∧ t < 4 ^ f ∧ d2xy f x y t s = (u, v) := by
  induction f with
  | zero => intro s u v hu hv; exact ⟨u, v, 0, by omega, by omega, by decide, rfl⟩
  | succ f ih =>
    intro s u v hu hv
    have double : 2 ^ (f + 1) * s = 2 ^ f * (2 * s) := by rw [Nat.pow_succ, Nat.mul_assoc]
    obtain ⟨x1, y1, t1, hx1, hy1, ht1, e1⟩ := ih (2 * s) u v (by omega) (by omega)
    obtain ⟨x, y, d, hx, hy, hd, e⟩ := exists_hilbertStep_eq hx1 hy1
    have up : (4 * t1 + d) / 4 = t1 := by omega
    exact ⟨x, y, 4 * t1 + d, hx, hy, by rw [Nat.pow_succ]; omega, by rw [d2xy_succ, hilbertStep_digit _ _ _ _ hd, e, up, e1]⟩

/-! ### Mixed-radix walks (R313, R315) -/

/-- Position of the coordinates `i` in a walk over the dimensions `ds` of extents `e`, outermost first. -/
def walkRank (ds i e : List Nat) : Nat := ds.foldl (fun r k => r * e.getD k 1 + i.getD k 0) 0

/-- One digit read from a position: what is left of it, and the coordinates read so far. -/
def readDigit (e : List Nat) (st : Nat × List (Nat × Nat)) (k : Nat) : Nat × List (Nat × Nat) :=
  (st.1 / e.getD k 1, (k, st.1 % e.getD k 1) :: st.2)

theorem walkRank_concat (ds i e : List Nat) (k : Nat) :
    walkRank (ds ++ [k]) i e = walkRank ds i e * e.getD k 1 + i.getD k 0 := by
  rw [walkRank, List.foldl_append]
  rfl

/-- Induction over lists that grow at their end. -/
theorem concat_induction {α : Type} {P : List α → Prop} (nil : P []) (concat : ∀ l x, P l → P (l ++ [x])) (l : List α) : P l := by
  have rev (r : List α) : P r.reverse := by
    induction r with
    | nil => exact nil
    | cons x r ih => exact List.reverse_cons ▸ concat _ x ih
  exact List.reverse_reverse l ▸ rev l.reverse

theorem walkRank_lt (i e : List Nat) (ds : List Nat) (h : ∀ k ∈ ds, i.getD k 0 < e.getD k 1) :
    walkRank ds i e < (ds.map (e.getD · 1)).prod := by
  induction ds using concat_induction with
  | nil => exact Nat.one_pos
  | concat ds k ih =>
    have below := ih fun d hd => h d (List.mem_append_left _ hd)
    have digit := h k (List.mem_append_right _ (List.mem_singleton_self k))
    rw [walkRank_concat, List.map_append, List.prod_append, List.map_singleton, List.prod_singleton]
    calc walkRank ds i e * e.getD k 1 + i.getD k 0
        < (walkRank ds i e + 1) * e.getD k 1 := by rw [Nat.succ_mul]; omega
      _ ≤ (ds.map (e.getD · 1)).prod * e.getD k 1 := Nat.mul_le_mul_right _ below

theorem foldl_readDigit_walkRank (i e : List Nat) (ds : List Nat) (h : ∀ k ∈ ds, i.getD k 0 < e.getD k 1)
    (acc : List (Nat × Nat)) :
    (ds.reverse.foldl (readDigit e) (walkRank ds i e, acc)).2 = ds.map (fun k => (k, i.getD k 0)) ++ acc := by
  induction ds using concat_induction generalizing acc with
  | nil => rfl
  | concat ds k ih =>
    have digit := h k (List.mem_append_right _ (List.mem_singleton_self k))
    have pos : 0 < e.getD k 1 := Nat.lt_of_le_of_lt (Nat.zero_le _) digit
    have quot : (walkRank ds i e * e.getD k 1 + i.getD k 0) / e.getD k 1 = walkRank ds i e := by
      rw [Nat.mul_comm, Nat.mul_add_div pos, Nat.div_eq_of_lt digit, Nat.add_zero]
    have rem : (walkRank ds i e * e.getD k 1 + i.getD k 0) % e.getD k 1 = i.getD k 0 := by
      rw [Nat.mul_comm, Nat.mul_add_mod, Nat.mod_eq_of_lt digit]
    rw [List.reverse_append, List.reverse_singleton, List.singleton_append, List.foldl_cons, walkRank_concat, readDigit, quot, rem,
      ih (fun d hd => h d (List.mem_append_left _ hd)), List.map_append, List.append_assoc]
    rfl

theorem find?_map_pair (i : Nat → Nat) (ds : List Nat) {k : Nat} (hk : k ∈ ds) :
    (ds.map (fun d => (d, i d))).find? (·.1 = k) = some (k, i k) := by
  induction ds with
  | nil => exact absurd hk List.not_mem_nil
  | cons d ds ih =>
    rw [List.map_cons, List.find?_cons]
    by_cases h : d = k
    · simp [h]
    · simpa [h] using ih ((List.mem_cons.1 hk).resolve_left (Ne.symm h))

/-! ### Loop orders (R313) -/

theorem mem_orderDims {o : Nat} (ho : orderOk o = true) {k : Nat} (hk : k < 4) : k ∈ orderDims o := by
  have all := List.all_eq_true.1 ho k (List.mem_range.2 hk)
  exact List.contains_iff_mem.1 all

/-- A list no longer than a list without repetition that it covers is that list in some order. -/
theorem perm_of_covers {α : Type} [DecidableEq α] {P l : List α} (nodup : P.Nodup) (covers : P ⊆ l) (len : l.length ≤ P.length) :
    P.Perm l := by
  induction P generalizing l with
  | nil => exact List.length_eq_zero_iff.1 (Nat.le_zero.1 len) ▸ List.Perm.nil
  | cons x P ih =>
    obtain ⟨fresh, nodup⟩ := List.nodup_cons.1 nodup
    have hx : x ∈ l := covers List.mem_cons_self
    have rest : P ⊆ l.erase x := fun y hy =>
      (List.mem_erase_of_ne fun (e : y = x) => fresh (e ▸ hy)).2 (covers (List.mem_cons_of_mem x hy))
    have short : (l.erase x).length ≤ P.length := by
      rw [List.length_erase_of_mem hx]
      exact Nat.sub_le_of_le_add len
    exact ((ih nodup rest short).cons x).trans (List.perm_cons_erase hx).symm

/-- A valid order names every dimension once. -/
theorem orderDims_perm {o : Nat} (ho : orderOk o = true) : (orderDims o).Perm [0, 1, 2, 3] := by
  have covers : [0, 1, 2, 3] ⊆ orderDims o := by
    intro k hk
    exact mem_orderDims ho (by simp at hk; omega)
  exact (perm_of_covers (by decide) covers (Nat.le_refl 4)).symm

/-- A coordinate that its dimension names lies below that dimension's extent. -/
theorem getD_lt_getD {i0 i1 i2 i3 e0 e1 e2 e3 k : Nat} (h0 : i0 < e0) (h1 : i1 < e1) (h2 : i2 < e2) (h3 : i3 < e3) (hk : k < 4) :
    [i0, i1, i2, i3].getD k 0 < [e0, e1, e2, e3].getD k 1 :=
  match k, hk with
  | 0, _ => h0
  | 1, _ => h1
  | 2, _ => h2
  | 3, _ => h3

section Order
variable {o : Nat} (ho : orderOk o = true)
include ho

theorem lt_four_of_mem_orderDims {k : Nat} (hk : k ∈ orderDims o) : k < 4 := by
  have := (orderDims_perm ho).mem_iff.1 hk
  simp at this
  omega

/-- A walk's position lies below the product of its extents. -/
theorem rankIn_lt {i0 i1 i2 i3 e0 e1 e2 e3 : Nat} (h0 : i0 < e0) (h1 : i1 < e1) (h2 : i2 < e2) (h3 : i3 < e3) :
    rankIn o [i0, i1, i2, i3] [e0, e1, e2, e3] < e0 * e1 * e2 * e3 := by
  have below := walkRank_lt [i0, i1, i2, i3] [e0, e1, e2, e3] (orderDims o) fun k hk =>
    getD_lt_getD h0 h1 h2 h3 (lt_four_of_mem_orderDims ho hk)
  have prod := ((orderDims_perm ho).map ([e0, e1, e2, e3].getD · 1)).prod_nat
  rw [prod] at below
  simpa [rankIn, walkRank, Nat.mul_assoc] using below

/-- The coordinates are read back from a walk's position. -/
theorem unrank_rankIn {i0 i1 i2 i3 e0 e1 e2 e3 : Nat} (h0 : i0 < e0) (h1 : i1 < e1) (h2 : i2 < e2) (h3 : i3 < e3) :
    unrank o [e0, e1, e2, e3] (rankIn o [i0, i1, i2, i3] [e0, e1, e2, e3]) = [i0, i1, i2, i3] := by
  have digits := foldl_readDigit_walkRank [i0, i1, i2, i3] [e0, e1, e2, e3] (orderDims o) (fun k hk =>
    getD_lt_getD h0 h1 h2 h3 (lt_four_of_mem_orderDims ho hk)) []
  have read (k : Nat) (hk : k < 4) := find?_map_pair ([i0, i1, i2, i3].getD · 0) (orderDims o) (mem_orderDims ho hk)
  have unfold_unrank : unrank o [e0, e1, e2, e3] (rankIn o [i0, i1, i2, i3] [e0, e1, e2, e3]) =
      (upTo 4).map (fun k => (((((orderDims o).reverse.foldl (readDigit [e0, e1, e2, e3])
        (walkRank (orderDims o) [i0, i1, i2, i3] [e0, e1, e2, e3], [])).2).find? (·.1 = k)).map (·.2)).getD 0) := rfl
  rw [unfold_unrank, digits, List.append_nil]
  have upTo_four : upTo 4 = [0, 1, 2, 3] := rfl
  rw [upTo_four]
  simp only [List.map_cons, List.map_nil, read 0 (by decide), read 1 (by decide), read 2 (by decide), read 3 (by decide)]
  rfl

end Order

/-! ### The blocks of a space (R315, R316) -/

/-- The pairs of members of two lists. -/
def pairsOf {α β : Type} (l : List α) (r : List β) : List (α × β) := l.flatMap fun a => r.map (Prod.mk a)

section Pairs
variable {α β : Type} {l : List α} {r : List β}

@[simp] theorem mem_pairsOf {x : α × β} : x ∈ pairsOf l r ↔ x.1 ∈ l ∧ x.2 ∈ r := by
  rw [pairsOf, List.mem_flatMap]
  constructor
  · rintro ⟨a, ha, hx⟩
    obtain ⟨b, hb, rfl⟩ := List.mem_map.1 hx
    exact ⟨ha, hb⟩
  · exact fun ⟨ha, hb⟩ => ⟨x.1, ha, List.mem_map.2 ⟨x.2, hb, rfl⟩⟩

@[simp] theorem length_pairsOf : (pairsOf l r).length = l.length * r.length := by
  simp only [pairsOf, List.length_flatMap, List.length_map, List.map_const', List.sum_replicate_nat]

theorem nodup_map_of_injOn {f : α → β} (h : ∀ a ∈ l, ∀ b ∈ l, f a = f b → a = b) (nodup : l.Nodup) : (l.map f).Nodup :=
  List.pairwise_map.2 (nodup.imp_of_mem fun ha hb hne e => hne (h _ ha _ hb e))

/-- Lists made of different members share none. -/
theorem nodup_flatMap_of_fst {γ : Type} {f : α → List (α × γ)} (nodup : l.Nodup) (parts : ∀ a ∈ l, (f a).Nodup)
    (fst : ∀ a, ∀ x ∈ f a, x.1 = a) : (l.flatMap f).Nodup :=
  List.pairwise_flatMap.2 ⟨parts, nodup.imp fun hab x hx y hy (e : x = y) => hab ((fst _ x hx).symm.trans (e ▸ fst _ y hy))⟩

theorem nodup_pairsOf (hl : l.Nodup) (hr : r.Nodup) : (pairsOf l r).Nodup := by
  refine nodup_flatMap_of_fst hl (fun a _ => nodup_map_of_injOn (fun b _ c _ e => congrArg Prod.snd e) hr) fun a x hx => ?_
  obtain ⟨b, -, rfl⟩ := List.mem_map.1 hx
  rfl

theorem sum_map_pairsOf (f : α × β → Nat) : ((pairsOf l r).map f).sum = (l.map fun a => (r.map fun b => f (a, b)).sum).sum := by
  rw [pairsOf]
  induction l with
  | nil => rfl
  | cons a l ih =>
    rw [List.flatMap_cons, List.map_append, List.sum_append_nat, ih, List.map_map, List.map_cons, List.sum_cons]
    rfl

theorem sum_map_mul_left (c : Nat) (f : α → Nat) : (l.map fun a => c * f a).sum = c * (l.map f).sum := by
  induction l with
  | nil => rfl
  | cons a l ih => rw [List.map_cons, List.sum_cons, ih, List.map_cons, List.sum_cons, Nat.mul_add]

theorem sum_map_mul_right (c : Nat) (f : α → Nat) : (l.map fun a => f a * c).sum = (l.map f).sum * c := by
  simp only [Nat.mul_comm _ c, sum_map_mul_left]

end Pairs

theorem mem_upTo {i n : Nat} : i ∈ upTo n ↔ i < n := List.mem_range

theorem nodup_upTo (n : Nat) : (upTo n).Nodup := List.nodup_range

theorem length_upTo (n : Nat) : (upTo n).length = n := List.length_range

/-- The blocks of a space, batch by batch, row by row. -/
def Space.blockList (p : Space) : List (Nat × Nat × Nat) := pairsOf (upTo p.tb) (pairsOf (upTo p.bm) (upTo p.bn))

theorem Space.mem_blockList {p : Space} {x : Nat × Nat × Nat} :
    x ∈ p.blockList ↔ x.1 < p.tb ∧ x.2.1 < p.bm ∧ x.2.2 < p.bn := by
  simp only [Space.blockList, mem_pairsOf, mem_upTo]

theorem Space.nodup_blockList (p : Space) : p.blockList.Nodup := nodup_pairsOf (nodup_upTo _) (nodup_pairsOf (nodup_upTo _) (nodup_upTo _))

/-- The side of the Hilbert square covers the greater of the block counts. -/
theorem le_two_pow_log2 (m : Nat) : m ≤ 2 ^ Nat.log2 (2 * m - 1) := by
  rcases Nat.eq_zero_or_pos m with rfl | hm
  · exact Nat.zero_le _
  · have := Nat.lt_log2_self (n := 2 * m - 1)
    rw [Nat.pow_succ] at this
    omega

/-- The curve visits every cell of the square once. -/
theorem hilbert_cells (k : Nat) : ((upTo (4 ^ k)).map (fun t => d2xy k 0 0 t 1)).Nodup ∧
    ∀ c, c ∈ (upTo (4 ^ k)).map (fun t => d2xy k 0 0 t 1) ↔ c.1 < 2 ^ k ∧ c.2 < 2 ^ k := by
  have square : (pairsOf (upTo (2 ^ k)) (upTo (2 ^ k))).Nodup := nodup_pairsOf (nodup_upTo _) (nodup_upTo _)
  have walk : (pairsOf (upTo (2 ^ k)) (upTo (2 ^ k))).Perm ((upTo (4 ^ k)).map (fun t => d2xy k 0 0 t 1)) := by
    refine perm_of_covers square (fun c hc => ?_) (Nat.le_of_eq ?_)
    · obtain ⟨h1, h2⟩ := mem_pairsOf.1 hc
      obtain ⟨x, y, t, hx, hy, ht, e⟩ :=
        exists_d2xy_eq k 1 c.1 c.2 (by simpa using mem_upTo.1 h1) (by simpa using mem_upTo.1 h2)
      obtain rfl : x = 0 := by omega
      obtain rfl : y = 0 := by omega
      exact List.mem_map.2 ⟨t, mem_upTo.2 ht, e⟩
    · rw [List.length_map, length_pairsOf, length_upTo, length_upTo, ← Nat.mul_pow]
  exact ⟨walk.nodup_iff.1 square, fun c => by rw [← walk.mem_iff, mem_pairsOf, mem_upTo, mem_upTo]⟩

theorem Space.blocks_hilbert {p : Space} (hil : p.hil = true) : p.blockList.Perm p.blocks := by
  obtain ⟨nodup, mem⟩ := hilbert_cells (Nat.log2 (2 * max p.bm p.bn - 1))
  have side := le_two_pow_log2 (max p.bm p.bn)
  rw [Space.blocks, if_pos hil]
  have nodupBlocks : ((upTo p.tb).flatMap fun b => (((upTo (4 ^ Nat.log2 (2 * max p.bm p.bn - 1))).map
      (fun t => d2xy (Nat.log2 (2 * max p.bm p.bn - 1)) 0 0 t 1)).filter (fun c => c.1 < p.bm && c.2 < p.bn)).map
      (fun c => (b, c.1, c.2))).Nodup := by
    refine nodup_flatMap_of_fst (nodup_upTo _) (fun b _ => nodup_map_of_injOn (fun c _ d _ e => congrArg Prod.snd e) (nodup.filter _))
      fun b x hx => ?_
    obtain ⟨c, -, rfl⟩ := List.mem_map.1 hx
    rfl
  refine (List.perm_ext_iff_of_nodup p.nodup_blockList nodupBlocks).2 fun x => ?_
  rw [Space.mem_blockList, List.mem_flatMap]
  constructor
  · rintro ⟨hb, h1, h2⟩
    refine ⟨x.1, mem_upTo.2 hb, List.mem_map.2 ⟨x.2, List.mem_filter.2 ⟨(mem _).2 ?_, by simpa using ⟨h1, h2⟩⟩, rfl⟩⟩
    exact ⟨by omega, by omega⟩
  · rintro ⟨b, hb, hx⟩
    obtain ⟨c, hc, rfl⟩ := List.mem_map.1 hx
    have cell := (List.mem_filter.1 hc).2
    exact ⟨mem_upTo.1 hb, by simpa using cell⟩

theorem Space.blocks_ordered {p : Space} (hil : p.hil = false) (ho : orderOk p.lordb = true) : p.blockList.Perm p.blocks := by
  rw [Space.blocks, hil]
  refine perm_of_covers p.nodup_blockList (fun x hx => ?_) (Nat.le_of_eq ?_)
  · obtain ⟨h0, h1, h2⟩ := Space.mem_blockList.1 hx
    have below := rankIn_lt ho h0 h1 h2 Nat.one_pos
    refine List.mem_map.2 ⟨_, mem_upTo.2 (by simpa using below), ?_⟩
    rw [unrank_rankIn ho h0 h1 h2 Nat.one_pos]
    rfl
  · simp only [Bool.false_eq_true, if_false, List.length_map, Space.blockList, length_pairsOf, length_upTo, Nat.mul_assoc]

/-- The blocks in their order are the blocks of the space, each once. -/
theorem Space.blocks_perm {p : Space} (ho : orderOk p.lordb = true) : p.blockList.Perm p.blocks := by
  cases hil : p.hil
  · exact Space.blocks_ordered hil ho
  · exact Space.blocks_hilbert hil

/-! ### Tile indexes (R315) -/

/-- A place in a block, counted after the blocks before it, lies in that block. -/
theorem Space.locate_of_mem (p : Space) (x : Nat × Nat × Nat) (j : Nat) (hj : j < p.tilesIn x) (l : List (Nat × Nat × Nat))
    (hx : x ∈ l) : p.locate l (((l.takeWhile (fun y => y ≠ x)).map p.tilesIn).sum + j) = some (x, j) := by
  induction l with
  | nil => exact absurd hx List.not_mem_nil
  | cons y l ih =>
    by_cases h : y = x
    · subst h; simp [Space.locate, hj]
    · have past : ¬ p.tilesIn y + ((l.takeWhile (fun y => y ≠ x)).map p.tilesIn).sum + j < p.tilesIn y := by omega
      have rest : p.tilesIn y + ((l.takeWhile (fun y => y ≠ x)).map p.tilesIn).sum + j - p.tilesIn y =
          ((l.takeWhile (fun y => y ≠ x)).map p.tilesIn).sum + j := by omega
      rw [List.takeWhile_cons_of_pos (by simpa using h), List.map_cons, List.sum_cons, Space.locate, if_neg past, rest]
      exact ih ((List.mem_cons.1 hx).resolve_left (Ne.symm h))

/-- What stands before a block and the block itself hold no more tiles than all blocks. -/
theorem Space.sum_before_add_le (p : Space) (x : Nat × Nat × Nat) (l : List (Nat × Nat × Nat)) (hx : x ∈ l) :
    ((l.takeWhile (fun y => y ≠ x)).map p.tilesIn).sum + p.tilesIn x ≤ (l.map p.tilesIn).sum := by
  induction l with
  | nil => exact absurd hx List.not_mem_nil
  | cons y l ih =>
    by_cases h : y = x
    · subst h; simp
    · have := ih ((List.mem_cons.1 hx).resolve_left (Ne.symm h))
      rw [List.takeWhile_cons_of_pos (by simpa using h), List.map_cons, List.sum_cons, List.map_cons, List.sum_cons]
      omega

/-- Pieces of `n` cut from `m` make up `m`. -/
theorem sum_pieces (n : Nat) (k : Nat) : ∀ m, m ≤ k * n → ((upTo k).map fun i => min n (m - i * n)).sum = m := by
  induction k with
  | zero =>
    intro m hm
    rw [Nat.zero_mul] at hm
    exact (Nat.le_zero.1 hm).symm
  | succ k ih =>
    intro m hm
    have shift (i : Nat) : m - (i + 1) * n = m - n - i * n := by rw [Nat.succ_mul]; omega
    rw [Nat.succ_mul] at hm
    have rest := ih (m - n) (by omega)
    rw [upTo] at rest
    rw [upTo, List.range_succ_eq_map, List.map_cons, List.sum_cons, List.map_map]
    simp only [Function.comp_def, Nat.succ_eq_add_one, shift, rest, Nat.zero_mul, Nat.sub_zero]
    omega

theorem le_ceilDiv_mul {m n : Nat} (hn : 1 ≤ n) : m ≤ ceilDiv m n * n := by
  rw [ceilDiv, if_neg (by omega)]
  have := Nat.div_add_mod (m + n - 1) n
  have := Nat.mod_lt (m + n - 1) hn
  rw [Nat.mul_comm]
  omega

section Index
variable {p : Space} (hm : 1 ≤ p.blkm) (hn : 1 ≤ p.blkn) (hb : orderOk p.lordb = true) (ht : orderOk p.lordt = true)

include hm hn hb in
/-- The blocks together hold the space's tiles. -/
theorem Space.sum_tilesIn : (p.blocks.map p.tilesIn).sum = p.size := by
  have rows : ((upTo p.bm).map fun i => min p.blkm (p.tm - i * p.blkm)).sum = p.tm := sum_pieces p.blkm p.bm p.tm (le_ceilDiv_mul hm)
  have cols : ((upTo p.bn).map fun i => min p.blkn (p.tn - i * p.blkn)).sum = p.tn := sum_pieces p.blkn p.bn p.tn (le_ceilDiv_mul hn)
  rw [← ((Space.blocks_perm hb).map p.tilesIn).sum_nat, Space.blockList, sum_map_pairsOf]
  simp only [sum_map_pairsOf, Space.tilesIn, Space.ext, sum_map_mul_right, sum_map_mul_left, rows, cols, List.map_const',
    List.sum_replicate_nat, length_upTo]
  simp only [Space.size, Nat.mul_assoc]

variable {b tm tn tk : Nat} (h0 : b < p.tb) (h1 : tm < p.tm) (h2 : tn < p.tn) (h3 : tk < p.tk)

/-- Row or column `x` of a dimension of `m` lies in its piece of `n`. -/
theorem in_piece {x m n : Nat} (hn : 1 ≤ n) (hx : x < m) :
    x / n < ceilDiv m n ∧ x - x / n * n < min n (m - x / n * n) ∧ x / n * n + (x - x / n * n) = x := by
  have div := Nat.div_add_mod x n
  have rem := Nat.mod_lt x hn
  rw [Nat.mul_comm] at div
  refine ⟨?_, by omega, by omega⟩
  rw [Nat.div_lt_iff_lt_mul hn]
  exact Nat.lt_of_lt_of_le hx (le_ceilDiv_mul hn)

include hm hn hb ht h0 h1 h2 h3 in
/-- Every tile has one index below the size, from which its coordinates are read back. -/
theorem Space.coords_index : p.index b tm tn tk < p.size ∧ p.coords (p.index b tm tn tk) = some (b, tm, tn, tk) := by
  obtain ⟨blockM, restM, backM⟩ := in_piece hm h1
  obtain ⟨blockN, restN, backN⟩ := in_piece hn h2
  have listed : (b, tm / p.blkm, tn / p.blkn) ∈ p.blocks := (Space.blocks_perm hb).mem_iff.1 (Space.mem_blockList.2 ⟨h0, blockM, blockN⟩)
  have place : rankIn p.lordt [0, tm - tm / p.blkm * p.blkm, tn - tn / p.blkn * p.blkn, tk]
      [1, (p.ext (tm / p.blkm) (tn / p.blkn)).1, (p.ext (tm / p.blkm) (tn / p.blkn)).2, p.tk] <
      p.tilesIn (b, tm / p.blkm, tn / p.blkn) := by
    have := rankIn_lt ht Nat.one_pos restM restN h3
    simpa only [Nat.one_mul, Space.tilesIn, Space.ext] using this
  constructor
  · calc p.index b tm tn tk
        < _ := Nat.add_lt_add_left place _
      _ ≤ (p.blocks.map p.tilesIn).sum := p.sum_before_add_le _ _ listed
      _ = p.size := Space.sum_tilesIn hm hn hb
  · have found := p.locate_of_mem _ _ place _ listed
    have digits := unrank_rankIn ht Nat.one_pos restM restN h3
    simp only [Space.coords, Space.index, found, Option.map_some]
    simp only [Space.ext] at digits ⊢
    simp only [digits, List.getD_cons_succ, List.getD_cons_zero, backM, backN]

end Index

/-- The tiles of a space. -/
def Space.tiles (p : Space) : List (Nat × Nat × Nat × Nat) :=
  pairsOf (upTo p.tb) (pairsOf (upTo p.tm) (pairsOf (upTo p.tn) (upTo p.tk)))

theorem Space.mem_tiles {p : Space} {x : Nat × Nat × Nat × Nat} :
    x ∈ p.tiles ↔ x.1 < p.tb ∧ x.2.1 < p.tm ∧ x.2.2.1 < p.tn ∧ x.2.2.2 < p.tk := by
  simp only [Space.tiles, mem_pairsOf, mem_upTo]

theorem Space.nodup_tiles (p : Space) : p.tiles.Nodup :=
  nodup_pairsOf (nodup_upTo _) (nodup_pairsOf (nodup_upTo _) (nodup_pairsOf (nodup_upTo _) (nodup_upTo _)))

theorem Space.length_tiles (p : Space) : p.tiles.length = p.size := by
  simp only [Space.tiles, Space.size, length_pairsOf, length_upTo, Nat.mul_assoc]

/-- The index of a tile of the space. -/
def Space.tileIndex (p : Space) (x : Nat × Nat × Nat × Nat) : Nat := p.index x.1 x.2.1 x.2.2.1 x.2.2.2

/-- As many tiles as indexes, and no index of two tiles: every index is some tile's. -/
theorem Space.exists_tileIndex_eq {p : Space} (below : ∀ x ∈ p.tiles, p.tileIndex x < p.size)
    (inj : ∀ x ∈ p.tiles, ∀ y ∈ p.tiles, p.tileIndex x = p.tileIndex y → x = y) {i : Nat} (hi : i < p.size) :
    ∃ x ∈ p.tiles, p.tileIndex x = i := by
  have all : (p.tiles.map p.tileIndex).Perm (upTo p.size) := by
    refine perm_of_covers (nodup_map_of_injOn inj p.nodup_tiles) (fun j hj => ?_) (Nat.le_of_eq ?_)
    · obtain ⟨x, hx, rfl⟩ := List.mem_map.1 hj
      exact mem_upTo.2 (below x hx)
    · rw [length_upTo, List.length_map, Space.length_tiles]
  exact List.mem_map.1 (all.mem_iff.2 (mem_upTo.2 hi))

/-- Settles O59: the blocks list each block once, a walk's position gives its coordinates back, and as many tiles as indexes
leave no index out. -/
theorem tileIndexRoundTrip : Obligations.TileIndexRoundTrip := by
  intro p hm hn hb ht
  have trip (b tm tn tk : Nat) (h0 : b < p.tb) (h1 : tm < p.tm) (h2 : tn < p.tn) (h3 : tk < p.tk) :=
    Space.coords_index hm hn hb ht h0 h1 h2 h3
  have tripT (x : Nat × Nat × Nat × Nat) (hx : x ∈ p.tiles) : p.tileIndex x < p.size ∧ p.coords (p.tileIndex x) = some x := by
    obtain ⟨h0, h1, h2, h3⟩ := Space.mem_tiles.1 hx
    exact trip x.1 x.2.1 x.2.2.1 x.2.2.2 h0 h1 h2 h3
  have inj (x) (hx : x ∈ p.tiles) (y) (hy : y ∈ p.tiles) (e : p.tileIndex x = p.tileIndex y) : x = y :=
    Option.some.inj ((tripT x hx).2.symm.trans ((congrArg p.coords e).trans (tripT y hy).2))
  refine ⟨trip, fun i hi => ?_⟩
  obtain ⟨x, hx, rfl⟩ := Space.exists_tileIndex_eq (fun x hx => (tripT x hx).1) inj hi
  obtain ⟨h0, h1, h2, h3⟩ := Space.mem_tiles.1 hx
  exact ⟨x.1, x.2.1, x.2.2.1, x.2.2.2, (tripT x hx).2, h0, h1, h2, h3, rfl⟩

end Sys2Proof.Machine
end

section
/-! What every operation of the model keeps: the queue, the form of memory, and the fuses. -/

namespace Sys2Proof.Machine

/-- No fuse un-burns and no rollback counter falls (R483, R495). -/
structure Sec.Burns (x y : Sec) : Prop where
  rbctr : ∀ i, Sparse.get 0 x.rbctr i ≤ Sparse.get 0 y.rbctr i
  ownerHash : y.ownerHash &&& x.ownerHash = x.ownerHash
  lc : y.lc &&& x.lc = x.lc
  dbgdis : y.dbgdis = x.dbgdis

theorem Sec.Burns.refl (x : Sec) : x.Burns x := ⟨fun _ => Nat.le_refl _, BitVec.and_self, BitVec.and_self, rfl⟩

theorem Sec.Burns.trans {x y z : Sec} (h : x.Burns y) (k : y.Burns z) : x.Burns z where
  rbctr i := Nat.le_trans (h.rbctr i) (k.rbctr i)
  ownerHash := by rw [← h.ownerHash, ← BitVec.and_assoc, k.ownerHash]
  lc := by rw [← h.lc, ← BitVec.and_assoc, k.lc]
  dbgdis := k.dbgdis.trans h.dbgdis

/-- What every operation keeps, from `s` to `t`: the queue of commands, the canonical form of memory, the fuses. -/
structure Keeps (s t : State) : Prop where
  pending : t.pending = s.pending
  mem : MemWf s → MemWf t
  fuses : s.sec.Burns t.sec

namespace Keeps
variable {s₀ s t : State}

theorem refl (s : State) : Keeps s s := ⟨rfl, id, Sec.Burns.refl _⟩

theorem trans {u : State} (h : Keeps s t) (k : Keeps t u) : Keeps s u :=
  ⟨k.pending.trans h.pending, fun w => k.mem (h.mem w), h.fuses.trans k.fuses⟩

/-- An update of other fields keeps all three. -/
theorem fields (h : Keeps s₀ s) {a b c d e f g i j k l m n o p q r v} :
    Keeps s₀ (State.mk s.pending a b c d e s.mem f g i j k l m s.sec n o p q r v) := ⟨h.pending, h.mem, h.fuses⟩

/-- What every single change keeps, a fold of them keeps. -/
theorem each {α : Type} (h : Keeps s₀ s) (l : List α) (f : State → α → State) (hf : ∀ t x, Keeps s₀ t → Keeps s₀ (f t x)) :
    Keeps s₀ (s.each l f) := State.each_inv s (Keeps s₀) l f hf h

theorem foldl {α : Type} (h : Keeps s₀ s) (l : List α) (f : State → α → State) (hf : ∀ t x, Keeps s₀ t → Keeps s₀ (f t x)) :
    Keeps s₀ (l.foldl f s) := h.each l f hf

/-- So does one that gathers values beside the state. -/
theorem gather {α β : Type} (h : Keeps s₀ s) (l : List α) (b : β) (f : β × State → α → β × State)
    (hf : ∀ t x, Keeps s₀ t.2 → Keeps s₀ (f t x).2) : Keeps s₀ (l.foldl f (b, s)).2 := by
  induction l generalizing s b with
  | nil => exact h
  | cons x l ih => exact ih (hf (b, s) x h) (f (b, s) x).1

/-- An update of the security block that un-burns nothing. -/
theorem secFields (h : Keeps s₀ s) {x : Sec} (hx : s.sec.Burns x) {a b c d e f g i j k l m n o p q r v} :
    Keeps s₀ (State.mk s.pending a b c d e s.mem f g i j k l m x n o p q r v) := ⟨h.pending, h.mem, h.fuses.trans hx⟩

end Keeps

/-- The fields of the security block that are no fuse. -/
theorem Sec.Burns.fields (x : Sec) {a b c d e f g i j k l m n o p q r s t u v w z y aa ab} :
    x.Burns (Sec.mk a b c x.ownerHash x.lc x.dbgdis x.rbctr d e f g i j k l m n o p q r s t u v w z y aa ab) :=
  ⟨fun _ => Nat.le_refl _, BitVec.and_self, BitVec.and_self, rfl⟩

end Sys2Proof.Machine
end

section
set_option Elab.async false
/-! Each operation of the state keeps the queue, the form of memory and the fuses, in the order of the model. -/

namespace Sys2Proof.Machine

namespace Keeps
variable {s₀ s t : State}

/-! ### Clock -/

theorem idle (hk : Keeps s₀ s) : Keeps s₀ s.idle := by
  unfold State.idle
  grind [fields]

/-! ### Ops -/

theorem setRg (hk : Keeps s₀ s) (n : RegName) (c i j : Nat) (v : W32) : Keeps s₀ (s.setRg n c i j v) := by
  unfold State.setRg
  grind [fields]

theorem setRgHi (hk : Keeps s₀ s) (n : RegName) (c i j : Nat) (v : W32) : Keeps s₀ (s.setRgHi n c i j v) := by
  unfold State.setRgHi
  grind [fields]

theorem setRg64 (hk : Keeps s₀ s) (n : RegName) (c i j v : Nat) : Keeps s₀ (s.setRg64 n c i j v) := by
  unfold State.setRg64
  grind [fields, setRg, setRgHi]

theorem count (hk : Keeps s₀ s) (n : RegName) (c i k : Nat) : Keeps s₀ (s.count n c i k) := by
  unfold State.count
  grind [fields, setRg]

theorem count16 (hk : Keeps s₀ s) (n : RegName) (c i k : Nat) : Keeps s₀ (s.count16 n c i k) := by
  unfold State.count16
  grind [fields, setRg]

theorem count64 (hk : Keeps s₀ s) (n : RegName) (c k : Nat) : Keeps s₀ (s.count64 n c k) := by
  unfold State.count64
  grind [fields, setRg64]

theorem setCore (hk : Keeps s₀ s) (c : Nat) (x : Core) : Keeps s₀ (s.setCore c x) := by
  unfold State.setCore
  grind [fields]

theorem modCore (hk : Keeps s₀ s) (c : Nat) (f : Core → Core) : Keeps s₀ (s.modCore c f) := by
  unfold State.modCore
  grind [fields, setCore]

theorem modTile (hk : Keeps s₀ s) (c h : Nat) (f : Tile → Tile) : Keeps s₀ (s.modTile c h f) := by
  unfold State.modTile
  grind [fields, modCore]

theorem modSeq (hk : Keeps s₀ s) (c : Nat) (f : Seq → Seq) : Keeps s₀ (s.modSeq c f) := by
  unfold State.modSeq
  grind [fields, modCore]

theorem modArr (hk : Keeps s₀ s) (c : Nat) (f : Arr → Arr) : Keeps s₀ (s.modArr c f) := by
  unfold State.modArr
  grind [fields, modCore]

theorem modVec (hk : Keeps s₀ s) (c : Nat) (f : Vec → Vec) : Keeps s₀ (s.modVec c f) := by
  unfold State.modVec
  grind [fields, modCore]

theorem modChan (hk : Keeps s₀ s) (c ch : Nat) (f : Chan → Chan) : Keeps s₀ (s.modChan c ch f) := by
  unfold State.modChan
  grind [fields, modCore]

theorem setSlot (hk : Keeps s₀ s) (c n : Nat) (x : Slot) : Keeps s₀ (s.setSlot c n x) := by
  unfold State.setSlot
  grind [fields, modCore]

theorem modDisp (hk : Keeps s₀ s) (d : Nat) (f : Disp → Disp) : Keeps s₀ (s.modDisp d f) := by
  unfold State.modDisp
  grind [fields]

theorem modPort (hk : Keeps s₀ s) (p : Nat) (f : Port → Port) : Keeps s₀ (s.modPort p f) := by
  unfold State.modPort
  grind [fields]

theorem modGroup (hk : Keeps s₀ s) (g : Nat) (f : Group → Group) : Keeps s₀ (s.modGroup g f) := by
  unfold State.modGroup
  grind [fields]

theorem modEth (hk : Keeps s₀ s) (p : Nat) (f : Eth → Eth) : Keeps s₀ (s.modEth p f) := by
  unfold State.modEth
  grind [fields]

theorem modSess (hk : Keeps s₀ s) (n : Nat) (f : Session → Session) : Keeps s₀ (s.modSess n f) := by
  unfold State.modSess
  grind [fields]

theorem setSec (hk : Keeps s₀ s) {x : Sec} (hx : s.sec.Burns x) : Keeps s₀ (s.setSec x) := hk.secFields hx

theorem send (hk : Keeps s₀ s) (o : Out) : Keeps s₀ (s.send o) := by
  unfold State.send
  grind [fields]

theorem draw (hk : Keeps s₀ s) : Keeps s₀ (s.draw).2 := by
  unfold State.draw
  grind [fields]

theorem act (hk : Keeps s₀ s) (c j n : Nat) : Keeps s₀ (s.act c j n) := by
  unfold State.act
  grind [fields, modCore]

theorem mesh (hk : Keeps s₀ s) (c : Nat) (d : Option Nat) (n : Nat) : Keeps s₀ (s.mesh c d n) := by
  unfold State.mesh
  grind [fields, act]

theorem setQuad (hk : Keeps s₀ s) (q : Nat) (x : QuadSt) : Keeps s₀ (s.setQuad q x) := by
  unfold State.setQuad
  grind [fields]

theorem ungate (hk : Keeps s₀ s) (c : Nat) : Keeps s₀ (s.ungate c) := by
  unfold State.ungate
  grind [fields, setQuad]

theorem log (hk : Keeps s₀ s) (e0 : Event) : Keeps s₀ (s.log e0) := by
  unfold State.log
  grind [fields, count, each, modSess]

theorem reqEvent (hk : Keeps s₀ s) (r : Req) (code cls detail : Nat) : Keeps s₀ (s.reqEvent r code cls detail) := by
  unfold State.reqEvent
  grind [fields, log]

theorem coreEvent (hk : Keeps s₀ s) (c code cls detail : Nat) : Keeps s₀ (s.coreEvent c code cls detail) := by
  unfold State.coreEvent
  grind [fields, log]

theorem partEvent (hk : Keeps s₀ s) (p code cls detail : Nat) : Keeps s₀ (s.partEvent p code cls detail) := by
  unfold State.partEvent
  grind [fields, log]

theorem devEvent (hk : Keeps s₀ s) (code cls detail : Nat) : Keeps s₀ (s.devEvent code cls detail) := by
  unfold State.devEvent
  grind [fields, log]

theorem access (hk : Keeps s₀ s) (r : Req) (a : Nat) : Keeps s₀ (s.access r a) := by
  unfold State.access
  grind [fields, reqEvent]

theorem refuse (hk : Keeps s₀ s) (r : Req) (a : Nat) : Keeps s₀ (s.refuse r a) := by
  unfold State.refuse
  grind [fields, send, access]

/-! ### Mem -/

theorem setByte (hk : Keeps s₀ s) (a : Nat) (v : Byte) : Keeps s₀ (s.setByte a v) :=
  ⟨hk.pending, fun w => State.setByte_wf a v (hk.mem w), hk.fuses⟩

theorem setBytes (hk : Keeps s₀ s) (a : Nat) (bs : List Byte) : Keeps s₀ (s.setBytes a bs) where
  pending := (State.setBytes_pending s a bs).trans hk.pending
  mem w := State.setBytes_wf a bs (hk.mem w)
  fuses := State.setBytes_sec s a bs ▸ hk.fuses

theorem zeroRange (hk : Keeps s₀ s) (a n : Nat) : Keeps s₀ (s.zeroRange a n) :=
  ⟨hk.pending, fun w => State.zeroRange_wf a n (hk.mem w), hk.fuses⟩

theorem setSpad (hk : Keeps s₀ s) (c off : Nat) (bs : List Byte) : Keeps s₀ (s.setSpad c off bs) := by
  unfold State.setSpad
  grind [fields, setBytes]

theorem setKslot (hk : Keeps s₀ s) (k : Nat) (x : KSlot) : Keeps s₀ (s.setKslot k x) := by
  unfold State.setKslot
  grind [fields]

theorem putLine (hk : Keeps s₀ s) (l v : Nat) (bs : List Byte) (keep : Bool) : Keeps s₀ (s.putLine l v bs keep) := by
  unfold State.putLine
  grind [fields, setBytes]

theorem setWay (hk : Keeps s₀ s) (st w : Nat) (x : Option PLine) : Keeps s₀ (s.setWay st w x) := by
  unfold State.setWay
  grind [fields]

theorem touch (hk : Keeps s₀ s) (st w : Nat) (h : Hint) : Keeps s₀ (s.touch st w h) := by
  unfold State.touch
  grind [fields]

theorem writeBack (hk : Keeps s₀ s) (x : PLine) : Keeps s₀ (s.writeBack x) := by
  unfold State.writeBack
  grind [fields, putLine]

theorem allocate (hk : Keeps s₀ s) (st : Nat) (x : PLine) (h : Hint) : Keeps s₀ (s.allocate st x h) := by
  unfold State.allocate
  grind [fields, writeBack, setWay, touch]

theorem countPantry (hk : Keeps s₀ s) (g : Nat) (hit : Bool) : Keeps s₀ (s.countPantry g hit) := by
  unfold State.countPantry
  grind [fields, count64]

theorem readLine (hk : Keeps s₀ s) (h : Hint) (l : Nat) : Keeps s₀ (s.readLine h l).2.2 := by
  unfold State.readLine
  grind [fields, countPantry, touch, allocate]

theorem writeLine (hk : Keeps s₀ s) (h : Hint) (l o : Nat) (bs : List Byte) : Keeps s₀ (s.writeLine h l o bs) := by
  unfold State.writeLine
  grind (gen := 40) (ematch := 40) [fields, putLine, countPantry, setWay, touch, allocate]

theorem cellarReadLines (hk : Keeps s₀ s) (h : Hint) (ls : List Nat) :
    Keeps s₀ (s.cellarReadLines h ls).2.2 := by
  induction ls generalizing s with
  | nil => simpa [State.cellarReadLines] using hk
  | cons x l ih =>
    unfold State.cellarReadLines
    grind [readLine]

theorem cellarRead (hk : Keeps s₀ s) (h : Hint) (a n : Nat) : Keeps s₀ (s.cellarRead h a n).2.2 := by
  unfold State.cellarRead
  grind [fields, cellarReadLines]

theorem cellarWrite (hk : Keeps s₀ s) (h : Hint) (a : Nat) (bs : List Byte) : Keeps s₀ (s.cellarWrite h a bs) := by
  unfold State.cellarWrite
  grind [fields, each, writeLine]

theorem cellarCe (hk : Keeps s₀ s) (l dev : Nat) (sub : Bool) : Keeps s₀ (s.cellarCe l dev sub) := by
  unfold State.cellarCe
  grind [fields, setRg, devEvent]

theorem cellarUe (hk : Keeps s₀ s) (l : Nat) : Keeps s₀ (s.cellarUe l) := by
  unfold State.cellarUe
  grind [fields, count, setRg64, log]

theorem burstCe (hk : Keeps s₀ s) (l : Nat) (e : DramErr) (sub : Bool) : Keeps s₀ (s.burstCe l e sub) := by
  unfold State.burstCe
  grind [fields, cellarCe]

theorem dramErr (hk : Keeps s₀ s) (l : Nat) (e : DramErr) : Keeps s₀ (s.dramErr l e) := by
  unfold State.dramErr
  grind [fields, cellarUe, burstCe]

theorem readErrs (hk : Keeps s₀ s) (ls : List Nat) (es : LineErrs) : Keeps s₀ (s.readErrs ls es) := by
  unfold State.readErrs
  grind [fields, each, dramErr]

theorem cellarRefuse (hk : Keeps s₀ s) (r : Req) (a : Nat) (w : CellarNo) : Keeps s₀ (s.cellarRefuse r a w) := by
  unfold State.cellarRefuse
  grind [fields, reqEvent, send, refuse]

/-! ### Link -/

theorem sendPacket (hk : Keeps s₀ s) (p : Nat) (k : Packet) : Keeps s₀ (s.sendPacket p k) := by
  unfold State.sendPacket
  grind [fields, modPort, each, send]

theorem sendTo (hk : Keeps s₀ s) (k : Packet) : Keeps s₀ (s.sendTo k) := by
  unfold State.sendTo
  grind [fields, sendPacket]

theorem request (hk : Keeps s₀ s) (k : Packet) (f : ReqFor) (dest : Nat) : Keeps s₀ (s.request k f dest) := by
  unfold State.request
  grind [fields, act, mesh, sendTo]

theorem groupAct (hk : Keeps s₀ s) (g j n : Nat) : Keeps s₀ (s.groupAct g j n) := by
  unfold State.groupAct
  grind [fields]

theorem groupSend (hk : Keeps s₀ s) (g p : Nat) (k : Packet) : Keeps s₀ (s.groupSend g p k) := by
  unfold State.groupSend
  grind [fields, groupAct, sendPacket]

theorem toParent (hk : Keeps s₀ s) (g : Nat) (k : Packet) : Keeps s₀ (s.toParent g k) := by
  unfold State.toParent
  grind [fields, groupSend]

theorem toKids (hk : Keeps s₀ s) (g : Nat) (k : Packet) : Keeps s₀ (s.toKids g k) := by
  unfold State.toKids
  grind [fields, each, groupSend]

/-! ### Slots -/

theorem spdErr (hk : Keeps s₀ s) (c kind num : Nat) (nowin : Bool := false) : Keeps s₀ (s.spdErr c kind num nowin) := by
  unfold State.spdErr
  grind [fields, setRg]

theorem slotTouch (hk : Keeps s₀ s) (c off len : Nat) (wr : Bool) : Keeps s₀ (s.slotTouch c off len wr) := by
  unfold State.slotTouch
  grind [fields, each, setSlot]

theorem slotClass (hk : Keeps s₀ s) (c n : Nat) (r : Option Req) (wr : Bool) (cls : Nat) :
    Keeps s₀ (s.slotClass c n r wr cls) := by
  unfold State.slotClass
  grind [fields, spdErr, log, coreEvent]

theorem stallOn (hk : Keeps s₀ s) (c : Nat) (x : Stall) : Keeps s₀ (s.stallOn c x) := by
  unfold State.stallOn
  grind [fields, modCore, setRg]

theorem slotRelease (hk : Keeps s₀ s) (c n cls : Nat) : Keeps s₀ (s.slotRelease c n cls) := by
  unfold State.slotRelease
  grind [fields, setSlot]

theorem barrierDown (hk : Keeps s₀ s) (g : Nat) : Keeps s₀ (s.barrierDown g) := by
  unfold State.barrierDown
  grind [fields, modGroup, toKids, slotRelease]

theorem barrierStep (hk : Keeps s₀ s) (g : Nat) : Keeps s₀ (s.barrierStep g) := by
  unfold State.barrierStep
  grind [fields, barrierDown, modGroup, toParent]

theorem slotFull (hk : Keeps s₀ s) (c n : Nat) : Keeps s₀ (s.slotFull c n) := by
  unfold State.slotFull
  grind [fields, setSlot, modGroup, barrierStep]

theorem wordAct (hk : Keeps s₀ s) (c off len : Nat) : Keeps s₀ (s.wordAct c off len) := by
  unfold State.wordAct
  grind [fields, act]

theorem spadRead (hk : Keeps s₀ s) (c off len cls : Nat) (waited : List Nat := []) :
    Keeps s₀ (s.spadRead c off len cls waited).2 := by
  unfold State.spadRead
  grind [fields, slotClass, slotTouch, wordAct]

theorem ringHook (hk : Keeps s₀ s) (c off : Nat) (bs : List Byte) : Keeps s₀ (s.ringHook c off bs) := by
  unfold State.ringHook
  grind [fields, modSeq]

theorem store (hk : Keeps s₀ s) (c off : Nat) (bs : List Byte) : Keeps s₀ (s.store c off bs) := by
  unfold State.store
  grind [fields, setSpad, ringHook, wordAct]

theorem spadWrite (hk : Keeps s₀ s) (c off : Nat) (bs : List Byte) (cls : Nat) : Keeps s₀ (s.spadWrite c off bs cls).2 := by
  unfold State.spadWrite
  grind [fields, slotClass, slotTouch, store]

theorem winRefuse (hk : Keeps s₀ s) (r : Req) (c off : Nat) : Keeps s₀ (s.winRefuse r c off) := by
  unfold State.winRefuse
  grind [fields, spdErr, reqEvent, send]

/-! ### Access -/

theorem lineAct (hk : Keeps s₀ s) (r : Req) (a n : Nat) : Keeps s₀ (s.lineAct r a n) := by
  unfold State.lineAct
  grind [fields, act, mesh]

theorem spadAct (hk : Keeps s₀ s) (r : Req) (c n : Nat) : Keeps s₀ (s.spadAct r c n) := by
  unfold State.spadAct
  grind [fields, mesh]

theorem readCellar (hk : Keeps s₀ s) (r : Req) (h : Hint) (a n : Nat) : Keeps s₀ (s.readCellar r h a n).2 := by
  unfold State.readCellar
  grind [fields, cellarRefuse, lineAct, cellarRead]

theorem readAtSlots (hk : Keeps s₀ s) (r : Req) (c off n : Nat) : Keeps s₀ (s.readAtSlots r c off n).2 := by
  unfold State.readAtSlots
  grind [fields, slotClass, slotTouch, wordAct, spadAct, ungate]

theorem readSpad (hk : Keeps s₀ s) (r : Req) (c off n : Nat) : Keeps s₀ (s.readSpad r c off n).2 := by
  unfold State.readSpad
  grind [fields, refuse, winRefuse, readAtSlots]

theorem readMem (hk : Keeps s₀ s) (r : Req) (h : Hint) (a n : Nat) : Keeps s₀ (s.readMem r h a n).2 := by
  unfold State.readMem
  grind [fields, readCellar, readSpad, refuse]

theorem writeCellar (hk : Keeps s₀ s) (r : Req) (h : Hint) (a : Nat) (bs : List Byte) :
    Keeps s₀ (s.writeCellar r h a bs).2 := by
  unfold State.writeCellar
  grind [fields, cellarRefuse, refuse, lineAct, cellarWrite]

theorem writeAtSlots (hk : Keeps s₀ s) (r : Req) (c off : Nat) (bs : List Byte) : Keeps s₀ (s.writeAtSlots r c off bs).2 := by
  unfold State.writeAtSlots
  grind [fields, slotClass, slotTouch, spadAct, store, ungate]

theorem writeSpad (hk : Keeps s₀ s) (r : Req) (c off : Nat) (bs : List Byte) : Keeps s₀ (s.writeSpad r c off bs).2 := by
  unfold State.writeSpad
  grind [fields, refuse, winRefuse, writeAtSlots]

theorem writeMem (hk : Keeps s₀ s) (r : Req) (h : Hint) (a : Nat) (bs : List Byte) : Keeps s₀ (s.writeMem r h a bs).2 := by
  unfold State.writeMem
  grind [fields, writeCellar, writeSpad, refuse]

/-! ### SeqOps -/

theorem writeRd (hk : Keeps s₀ s) (c : Nat) : Keeps s₀ (s.writeRd c) := by
  unfold State.writeRd
  grind [fields, setSpad]

theorem setRd (hk : Keeps s₀ s) (c i : Nat) : Keeps s₀ (s.setRd c i) := by
  unfold State.setRd
  grind [fields, modSeq, writeRd]

theorem seqNext (hk : Keeps s₀ s) (c : Nat) : Keeps s₀ (s.seqNext c) := by
  unfold State.seqNext
  grind [fields, setRd]

theorem issued (hk : Keeps s₀ s) (c : Nat) : Keeps s₀ (s.issued c) := by
  unfold State.issued
  grind [fields, count]

theorem seqGoOn (hk : Keeps s₀ s) (c : Nat) : Keeps s₀ (s.seqGoOn c) := by
  unfold State.seqGoOn
  grind [fields, issued, seqNext]

theorem seqWait (hk : Keeps s₀ s) (c : Nat) (w : Wait) : Keeps s₀ (s.seqWait c w) := by
  unfold State.seqWait
  grind [fields, issued, modSeq]

theorem seqDoneAt (hk : Keeps s₀ s) (c i : Nat) : Keeps s₀ (s.seqDoneAt c i) := by
  unfold State.seqDoneAt
  grind [fields, setRd, modSeq]

theorem seqDone (hk : Keeps s₀ s) (c : Nat) : Keeps s₀ (s.seqDone c) := by
  unfold State.seqDone
  grind [fields, seqDoneAt]

theorem seqRefuse (hk : Keeps s₀ s) (c op reason : Nat) : Keeps s₀ (s.seqRefuse c op reason) := by
  unfold State.seqRefuse
  grind [fields, modSeq, writeRd, coreEvent]

theorem seqRun (hk : Keeps s₀ s) (c op : Nat) (f : BitVec 128 → State) (hf : ∀ w, Keeps s₀ (f w)) :
    Keeps s₀ (s.seqRun c op f) := by
  unfold State.seqRun
  grind [seqRefuse]

theorem setScalar (hk : Keeps s₀ s) (c n v : Nat) : Keeps s₀ (s.setScalar c n v) := by
  unfold State.setScalar
  grind [fields, setRg64]

theorem modCtx (hk : Keeps s₀ s) (c id : Nat) (f : Ctx → Ctx) : Keeps s₀ (s.modCtx c id f) := by
  unfold State.modCtx
  grind [fields, modSeq]

/-! ### SdtOps -/

theorem closeClaim (hk : Keeps s₀ s) (x : Claim) : Keeps s₀ (s.closeClaim x) := by
  unfold State.closeClaim
  grind [fields]

theorem dropSums (hk : Keeps s₀ s) (d : Nat) : Keeps s₀ (s.dropSums d) := by
  unfold State.dropSums
  grind [fields]

theorem dropHub (hk : Keeps s₀ s) (d : Nat) : Keeps s₀ (s.dropHub d) := by
  unfold State.dropHub
  grind [fields]

theorem clearHub (hk : Keeps s₀ s) (d : Nat) : Keeps s₀ (s.clearHub d) := by
  unfold State.clearHub
  grind [fields]

theorem settle (hk : Keeps s₀ s) (d : Nat) : Keeps s₀ (s.settle d) := by
  unfold State.settle
  grind [fields, idle, modDisp]

theorem bumpEpoch (hk : Keeps s₀ s) (d : Nat) (back : Bool) : Keeps s₀ (s.bumpEpoch d back) := by
  unfold State.bumpEpoch
  grind [fields, modDisp]

theorem bumpDisp (hk : Keeps s₀ s) (d : Nat) : Keeps s₀ (s.bumpDisp d) := by
  unfold State.bumpDisp
  grind [fields, bumpEpoch, settle]

theorem rewindDisp (hk : Keeps s₀ s) (d next : Nat) (guard : Bool) : Keeps s₀ (s.rewindDisp d next guard) := by
  unfold State.rewindDisp
  grind [fields, bumpEpoch, dropSums, dropHub, modDisp, settle]

theorem answerClaim (hk : Keeps s₀ s) (c h : Nat) (r : CRec) : Keeps s₀ (s.answerClaim c h r) := by
  unfold State.answerClaim
  grind [fields, spadWrite, setScalar, modCore, modTile, seqDone]

theorem abortHeld (hk : Keeps s₀ s) (d : Nat) (p : ClaimReq → Bool) : Keeps s₀ (s.abortHeld d p) := by
  unfold State.abortHeld
  grind [fields, modDisp, each, answerClaim]

theorem disarmDisp (hk : Keeps s₀ s) (d : Nat) : Keeps s₀ (s.disarmDisp d) := by
  unfold State.disarmDisp
  grind [fields, abortHeld, dropSums, dropHub, modDisp, idle]

theorem returnClaim (hk : Keeps s₀ s) (c d tile epoch : Nat) : Keeps s₀ (s.returnClaim c d tile epoch) := by
  unfold State.returnClaim
  grind [fields, closeClaim, modDisp, settle]

theorem endClaim (hk : Keeps s₀ s) (c d tile epoch : Nat) : Keeps s₀ (s.endClaim c d tile epoch) := by
  unfold State.endClaim
  grind [fields, closeClaim, settle]

/-! ### Flags -/

theorem flagTile (hk : Keeps s₀ s) (c h : Nat) (l : List Nat) : Keeps s₀ (s.flagTile c h l) := by
  unfold State.flagTile
  grind [fields, modTile]

theorem tileEvent (hk : Keeps s₀ s) (c h code cls detail : Nat) : Keeps s₀ (s.tileEvent c h code cls detail) := by
  unfold State.tileEvent
  grind [fields, log]

theorem coreFault (hk : Keeps s₀ s) (c : Nat) : Keeps s₀ (s.coreFault c) := by
  unfold State.coreFault
  grind [fields, count16, setRg, coreEvent]

theorem sramCe (hk : Keeps s₀ s) (c st off : Nat) : Keeps s₀ (s.sramCe c st off) := by
  unfold State.sramCe
  grind [fields, modCore, coreEvent]

theorem sramCeHub (hk : Keeps s₀ s) (st off : Nat) : Keeps s₀ (s.sramCeHub st off) := by
  unfold State.sramCeHub
  grind [fields, devEvent]

theorem sramUe (hk : Keeps s₀ s) (c st off cls : Nat) : Keeps s₀ (s.sramUe c st off cls) := by
  unfold State.sramUe
  grind [fields, coreEvent, coreFault]

/-! ### Load -/

theorem readAll (hk : Keeps s₀ s) (c : Nat) (l : List (Nat × Nat)) :
    Keeps s₀ (s.readAll c l).2 := by
  induction l generalizing s with
  | nil => simpa [State.readAll] using hk
  | cons x l ih =>
    unfold State.readAll
    grind [readMem]

theorem unstall (hk : Keeps s₀ s) (c : Nat) (p : StallBy → Bool) : Keeps s₀ (s.unstall c p) := by
  unfold State.unstall
  grind [fields, modCore]

theorem chanHalt (hk : Keeps s₀ s) (c ch err : Nat) : Keeps s₀ (s.chanHalt c ch err) := by
  unfold State.chanHalt
  grind [fields, modChan, unstall, count]

theorem chanFault (hk : Keeps s₀ s) (c ch a : Nat) : Keeps s₀ (s.chanFault c ch a) := by
  unfold State.chanFault
  grind [fields, chanHalt, coreEvent]

theorem chanNo (hk : Keeps s₀ s) (c ch : Nat) (got : Got) : Keeps s₀ (s.chanNo c ch got) := by
  cases got <;> unfold State.chanNo <;> grind [chanFault, modChan, stallOn]

theorem zTensorRows (hk : Keeps s₀ s) (c : Nat) (g : Geo) (x : Side) (z : ZTensor) :
    Keeps s₀ (s.zTensorRows c g x z).2.2.2 := by
  unfold State.zTensorRows
  grind [fields, readAll]

theorem zrlRows (hk : Keeps s₀ s) (c : Nat) (g : Geo) (x : Side) (zs : List ZTensor) (acc : List ZRow) (bad : List Nat) :
    Keeps s₀ (s.zrlRows c g x zs acc bad).2.2.2 := by
  induction zs generalizing s acc bad with
  | nil => simpa [State.zrlRows] using hk
  | cons x l ih =>
    unfold State.zrlRows
    grind [zTensorRows]

theorem sveErr (hk : Keeps s₀ s) (c kind tile : Nat) : Keeps s₀ (s.sveErr c kind tile) := by
  unfold State.sveErr
  grind [fields, setRg]

theorem zrlBad (hk : Keeps s₀ s) (c h row : Nat) : Keeps s₀ (s.zrlBad c h row) := by
  unfold State.zrlBad
  grind [fields, flagTile, count, sveErr, tileEvent]

theorem modBind (hk : Keeps s₀ s) (c h : Nat) (w : Bool) (f : Binding → Binding) : Keeps s₀ (s.modBind c h w f) := by
  unfold State.modBind
  grind [fields, modTile]

theorem tileRead (hk : Keeps s₀ s) (c h : Nat) (w : Bool) (off n : Nat) (waited : List Nat) :
    Keeps s₀ (s.tileRead c h w off n waited).2 := by
  unfold State.tileRead
  grind [fields, spadRead, flagTile, stallOn]

theorem slotScales (hk : Keeps s₀ s) (c h : Nat) (x : Side) (g : Geo) : Keeps s₀ (s.slotScales c h x g).2 := by
  unfold State.slotScales
  grind [fields, tileRead, modBind]

theorem slotData (hk : Keeps s₀ s) (c h : Nat) (x : Side) (g : Geo) : Keeps s₀ (s.slotData c h x g).2 := by
  unfold State.slotData
  grind [fields, tileRead, modBind, each, zrlBad]

theorem sideReady (hk : Keeps s₀ s) (c h : Nat) (x : Side) (g : Geo) (p : Nat) : Keeps s₀ (s.sideReady c h x g p).2 := by
  unfold State.sideReady
  grind [fields, slotScales, slotData]

theorem opsReady (hk : Keeps s₀ s) (c h : Nat) (g : Geo) (k : Nat) : Keeps s₀ (s.opsReady c h g k).2 := by
  unfold State.opsReady
  grind [fields, sideReady]

theorem scalesReady (hk : Keeps s₀ s) (c h : Nat) (g : Geo) : Keeps s₀ (s.scalesReady c h g).2 := by
  unfold State.scalesReady
  grind [fields, slotScales]

theorem fetchStart (hk : Keeps s₀ s) (c ch h : Nat) (weight : Bool) : Keeps s₀ (s.fetchStart c ch h weight) := by
  unfold State.fetchStart
  grind [fields, modChan]

theorem fetchFailed (hk : Keeps s₀ s) (c h : Nat) (w : Bool) : Keeps s₀ (s.fetchFailed c h w) := by
  unfold State.fetchFailed
  grind [fields, modBind, flagTile]

theorem fetchNo (hk : Keeps s₀ s) (c h : Nat) (w : Bool) (got : Got) : Keeps s₀ (s.fetchNo c h w got) := by
  unfold State.fetchNo
  grind [fields, chanNo, fetchFailed]

theorem stage (hk : Keeps s₀ s) (c : Nat) (b : Binding) (scale : Nat) (half : Option Nat) (bs : List Byte) :
    Keeps s₀ (s.stage c b scale half bs) := by
  unfold State.stage
  grind [fields, store]

theorem fetchEnd (hk : Keeps s₀ s) (c h : Nat) (w : Bool) (no : Option Got) (fill : State → State) (hf : ∀ t,
    Keeps s₀ t → Keeps s₀ (fill t)) : Keeps s₀ (s.fetchEnd c h w no fill).2 := by
  unfold State.fetchEnd
  grind [fetchNo]

theorem fetchScales (hk : Keeps s₀ s) (c h : Nat) (x : Side) (g : Geo) : Keeps s₀ (s.fetchScales c h x g).2 := by
  unfold State.fetchScales
  grind [fields, readAll, fetchEnd, modBind, stage]

theorem fillChunk (hk : Keeps s₀ s) (c h : Nat) (x : Side) (g : Geo) (i : Nat) (rows : List (List Nat)) (bs : List Byte)
    : Keeps s₀ (s.fillChunk c h x g i rows bs) := by
  unfold State.fillChunk
  grind [fields, modBind, stage]

theorem fetchDense (hk : Keeps s₀ s) (c h : Nat) (x : Side) (g : Geo) (i : Nat) : Keeps s₀ (s.fetchDense c h x g i) := by
  unfold State.fetchDense
  grind [fields, readAll, fetchEnd, fillChunk]

theorem fetchZrl (hk : Keeps s₀ s) (c h : Nat) (x : Side) (g : Geo) (i : Nat) : Keeps s₀ (s.fetchZrl c h x g i) := by
  unfold State.fetchZrl
  grind [fields, zrlRows, fetchEnd, fillChunk, each, zrlBad]

theorem refill (hk : Keeps s₀ s) (c h : Nat) (w : Bool) : Keeps s₀ (s.refill c h w) := by
  unfold State.refill
  grind [fields, fetchScales, fetchZrl, fetchDense, modChan, idle]

/-! ### Budget -/

theorem spendOn (hk : Keeps s₀ s) (c e : Nat) : Keeps s₀ (s.spendOn c e) := by
  unfold State.spendOn
  grind [fields, modSess]

theorem arrive (hk : Keeps s₀ s) : Keeps s₀ (s.arrive).2 := by
  unfold State.arrive
  grind [fields]

/-! ### TileOps -/

theorem arrKick (hk : Keeps s₀ s) (c : Nat) : Keeps s₀ (s.arrKick c) := by
  unfold State.arrKick
  grind [fields, modTile]

theorem arrEnter (hk : Keeps s₀ s) (c h : Nat) (first : Bool) : Keeps s₀ (s.arrEnter c h first) := by
  unfold State.arrEnter
  grind [fields, modArr, arrKick]

theorem arrLeave (hk : Keeps s₀ s) (c : Nat) : Keeps s₀ (s.arrLeave c) := by
  unfold State.arrLeave
  grind [fields, modArr, arrKick]

theorem arrDrop (hk : Keeps s₀ s) (c h : Nat) : Keeps s₀ (s.arrDrop c h) := by
  unfold State.arrDrop
  grind [fields, modArr, arrLeave]

theorem refetch (hk : Keeps s₀ s) (c h : Nat) : Keeps s₀ (s.refetch c h) := by
  unfold State.refetch
  grind [fields, each, unstall, fetchStart]

theorem latch (hk : Keeps s₀ s) (c h : Nat) : Keeps s₀ (s.latch c h) := by
  unfold State.latch
  grind [fields, modTile]

theorem guardNow (hk : Keeps s₀ s) (c h : Nat) : Keeps s₀ (s.guardNow c h) := by
  unfold State.guardNow
  grind [fields, modTile]

theorem sampleDue (hk : Keeps s₀ s) (c h : Nat) : Keeps s₀ (s.sampleDue c h) := by
  unfold State.sampleDue
  grind [fields, modTile, modCore]

theorem fillSum (hk : Keeps s₀ s) (c h : Nat) (reran more : Bool) : Keeps s₀ (s.fillSum c h reran more) := by
  unfold State.fillSum
  grind [fields, mesh, modTile]

theorem scoutEnds (hk : Keeps s₀ s) (c h : Nat) : Keeps s₀ (s.scoutEnds c h) := by
  unfold State.scoutEnds
  grind [fields, setScalar, seqDone]

theorem openAttempt (hk : Keeps s₀ s) (c h rung : Nat) (reran more : Bool) : Keeps s₀ (s.openAttempt c h rung reran more) := by
  unfold State.openAttempt
  grind [fields, latch, guardNow, fillSum, refetch, sampleDue, modTile, arrEnter, scoutEnds]

theorem reopen (hk : Keeps s₀ s) (c h rung : Nat) (reran : Bool) : Keeps s₀ (s.reopen c h rung reran) := by
  unfold State.reopen
  grind [fields, openAttempt, modTile]

theorem admitAttempt (hk : Keeps s₀ s) (c h rung : Nat) (reran : Bool) : Keeps s₀ (s.admitAttempt c h rung reran) := by
  unfold State.admitAttempt
  grind [fields, spendOn, reopen, arrive, modTile]

theorem dropWork (hk : Keeps s₀ s) (c h : Nat) : Keeps s₀ (s.dropWork c h) := by
  unfold State.dropWork
  grind [fields, modCore, arrDrop]

theorem countRetry (hk : Keeps s₀ s) (c h rung : Nat) : Keeps s₀ (s.countRetry c h rung) := by
  unfold State.countRetry
  grind [fields, idle, modDisp, log]

theorem requeue (hk : Keeps s₀ s) (c h : Nat) : Keeps s₀ (s.requeue c h) := by
  unfold State.requeue
  grind [fields, dropWork, count, countRetry, admitAttempt]

theorem rerun (hk : Keeps s₀ s) (c h : Nat) : Keeps s₀ (s.rerun c h) := by
  unfold State.rerun
  grind [fields, dropWork, admitAttempt]

theorem addGroup (hk : Keeps s₀ s) (c h : Nat) (g : Geo) (row grp pass : Nat) : Keeps s₀ (s.addGroup c h g row grp pass) := by
  unfold State.addGroup
  grind [fields, modTile, flagTile]

theorem specMiss (hk : Keeps s₀ s) (c h : Nat) : Keeps s₀ (s.specMiss c h) := by
  unfold State.specMiss
  grind [fields, idle, modDisp, rewindDisp, log]

theorem recordMiss (hk : Keeps s₀ s) (c h r k : Nat) (rig : Bool) : Keeps s₀ (s.recordMiss c h r k rig) := by
  unfold State.recordMiss
  grind [fields, setRg]

theorem compareAt (hk : Keeps s₀ s) (c h : Nat) (p : Nat × Nat) : Keeps s₀ (s.compareAt c h p).2 := by
  unfold State.compareAt
  grind (gen := 40) (ematch := 40) [fields, count, flagTile, recordMiss, specMiss, tileEvent, coreFault]

theorem compareAll (hk : Keeps s₀ s) (c h : Nat) (ps : List (Nat × Nat)) :
    Keeps s₀ (s.compareAll c h ps).2 := by
  induction ps generalizing s with
  | nil => simpa [State.compareAll] using hk
  | cons x l ih =>
    unfold State.compareAll
    grind [compareAt]

theorem sendPart (hk : Keeps s₀ s) (c h : Nat) : Keeps s₀ (s.sendPart c h) := by
  unfold State.sendPart
  grind [fields, mesh, modSeq]

theorem passed (hk : Keeps s₀ s) (c h : Nat) : Keeps s₀ (s.passed c h) := by
  unfold State.passed
  grind [fields, modTile, sendPart]

theorem gaugeFault (hk : Keeps s₀ s) (c h : Nat) (p : Nat × Nat) : Keeps s₀ (s.gaugeFault c h p) := by
  unfold State.gaugeFault
  grind [fields, flagTile, modTile, tileEvent, coreFault, passed]

theorem ladderTop (hk : Keeps s₀ s) (c h : Nat) : Keeps s₀ (s.ladderTop c h) := by
  unfold State.ladderTop
  grind [fields, modTile, count, tileEvent]

theorem triggered (hk : Keeps s₀ s) (c h : Nat) (trig : Bool) : Keeps s₀ (s.triggered c h trig) := by
  unfold State.triggered
  grind [fields, requeue, ladderTop, passed]

theorem attemptCheck (hk : Keeps s₀ s) (c h : Nat) : Keeps s₀ (s.attemptCheck c h) := by
  unfold State.attemptCheck
  grind [fields, compareAll, gaugeFault, rerun, triggered]

theorem accEnd (hk : Keeps s₀ s) (c h : Nat) : Keeps s₀ (s.accEnd c h) := by
  unfold State.accEnd
  grind [fields, modTile, attemptCheck]

theorem releaseSlots (hk : Keeps s₀ s) (c h : Nat) : Keeps s₀ (s.releaseSlots c h) := by
  unfold State.releaseSlots
  exact (hk.each _ _ fun t n h => h.slotRelease _ _ _).each _ _ fun t n h => h.slotRelease _ _ _

theorem abortChans (hk : Keeps s₀ s) (c h : Nat) : Keeps s₀ (s.abortChans c h) := by
  unfold State.abortChans
  grind [fields, each, store, chanHalt]

theorem freeTile (hk : Keeps s₀ s) (c h : Nat) : Keeps s₀ (s.freeTile c h) := by
  unfold State.freeTile
  grind [fields, dropWork, unstall, modTile, modSeq]

theorem abortWait (hk : Keeps s₀ s) (c h : Nat) (tsw : W32) : Keeps s₀ (s.abortWait c h tsw) := by
  unfold State.abortWait
  grind [fields, setScalar, seqDone]

theorem abortTile (hk : Keeps s₀ s) (c h : Nat) : Keeps s₀ (s.abortTile c h) := by
  unfold State.abortTile
  grind (gen := 40) (ematch := 40) [fields, flagTile, releaseSlots, abortChans, abortWait, freeTile]

theorem forceTile (hk : Keeps s₀ s) (c h : Nat) : Keeps s₀ (s.forceTile c h) := by
  unfold State.forceTile
  grind [fields, flagTile, tileEvent, returnClaim, abortTile]

/-! ### Array -/

theorem sramTile (hk : Keeps s₀ s) (c h : Nat) (e : SramErr) : Keeps s₀ (s.sramTile c h e) := by
  cases e <;> unfold State.sramTile <;> grind [sramCe, flagTile, sramUe]

theorem vectorErr (hk : Keeps s₀ s) (c h : Nat) (g : Geo) (b n : Nat) (e : SramErr) : Keeps s₀ (s.vectorErr c h g b n e) := by
  unfold State.vectorErr
  grind [fields, sramTile, modBind, foldl]

theorem beginStep (hk : Keeps s₀ s) (c b h : Nat) (g : Geo) (n promo ahead : Nat) :
    Keeps s₀ (s.beginStep c b h g n promo ahead) := by
  unfold State.beginStep
  grind [fields, modArr, count64, flagTile, count]

theorem passDone (hk : Keeps s₀ s) (c h : Nat) : Keeps s₀ (s.passDone c h) := by
  unfold State.passDone
  grind [fields, modTile, arrLeave]

theorem preRead (hk : Keeps s₀ s) (c h : Nat) (g : Geo) : Keeps s₀ (s.preRead c h g).2 := by
  unfold State.preRead
  grind [fields, tileRead]

theorem anchored (hk : Keeps s₀ s) (c h : Nat) (g : Geo) (row at_ : Nat) : Keeps s₀ (s.anchored c h g row at_) := by
  unfold State.anchored
  grind [fields, modTile, modArr]

theorem anchorWrite (hk : Keeps s₀ s) (c h row off at_ : Nat) (bs : List Byte) :
    Keeps s₀ (s.anchorWrite c h row off at_ bs) := by
  unfold State.anchorWrite
  grind [fields, spadWrite, stallOn, anchored]

theorem residueBad (hk : Keeps s₀ s) (c h col step : Nat) : Keeps s₀ (s.residueBad c h col step) := by
  unfold State.residueBad
  grind [fields, flagTile, count16, tileEvent, coreFault]

theorem cntclr (hk : Keeps s₀ s) (c : Nat) : Keeps s₀ (s.cntclr c) := by
  unfold State.cntclr
  grind [fields, each, setRg64]

/-! ### GroupOps -/

theorem modRound (hk : Keeps s₀ s) (g tile : Nat) (f : Round → Round) : Keeps s₀ (s.modRound g tile f) := by
  unfold State.modRound
  grind [fields, modGroup]

theorem writeSlot (hk : Keeps s₀ s) (g tile : Nat) : Keeps s₀ (s.writeSlot g tile) := by
  unfold State.writeSlot
  grind [fields, draw, groupAct, cellarWrite]

theorem precMismatch (hk : Keeps s₀ s) (p : Option Nat) (core : Option Nat) (tile epoch op or_ rp rr : Nat) :
    Keeps s₀ (s.precMismatch p core tile epoch op or_ rp rr) := by
  unfold State.precMismatch
  grind [fields, log]

theorem arrival (hk : Keeps s₀ s) (g tile i ptag regime flags gcnt : Nat) (xs : List Acc) :
    Keeps s₀ (s.arrival g tile i ptag regime flags gcnt xs) := by
  unfold State.arrival
  grind [fields, modRound, writeSlot, precMismatch]

theorem roundCommit (hk : Keeps s₀ s) (g tile : Nat) : Keeps s₀ (s.roundCommit g tile) := by
  unfold State.roundCommit
  grind [fields, modRound, modGroup, modTile, toKids]

theorem stagedStep (hk : Keeps s₀ s) (g tile : Nat) : Keeps s₀ (s.stagedStep g tile) := by
  unfold State.stagedStep
  grind [fields, modRound, roundCommit, toParent]

theorem stageRound (hk : Keeps s₀ s) (g tile : Nat) : Keeps s₀ (s.stageRound g tile) := by
  unfold State.stageRound
  grind [fields, modRound, mesh, modTile, toKids, stagedStep, foldl]

theorem roundStep (hk : Keeps s₀ s) (g tile : Nat) : Keeps s₀ (s.roundStep g tile) := by
  unfold State.roundStep
  grind [fields, modRound, stageRound, toParent, foldl]

theorem endTile (hk : Keeps s₀ s) (c h : Nat) : Keeps s₀ (s.endTile c h) := by
  unfold State.endTile
  grind [fields, endClaim, abortTile]

theorem groupEvent (hk : Keeps s₀ s) (g code cls detail tile : Nat) : Keeps s₀ (s.groupEvent g code cls detail tile) := by
  unfold State.groupEvent
  grind [fields, log]

theorem endRounds (hk : Keeps s₀ s) (g cause : Nat) (doubt : Bool) : Keeps s₀ (s.endRounds g cause doubt) := by
  unfold State.endRounds
  grind [fields, endTile, groupEvent, modGroup, foldl]

theorem sendAbort (hk : Keeps s₀ s) (g cause : Nat) : Keeps s₀ (s.sendAbort g cause) := by
  unfold State.sendAbort
  grind [fields, toKids, toParent]

theorem abortGroup (hk : Keeps s₀ s) (g cause : Nat) (doubt : Bool) : Keeps s₀ (s.abortGroup g cause doubt) := by
  unfold State.abortGroup
  grind [fields, sendAbort, endRounds]

theorem resetGroup (hk : Keeps s₀ s) (g : Nat) : Keeps s₀ (s.resetGroup g) := by
  unfold State.resetGroup
  grind [fields, abortGroup]

theorem linkGroup (hk : Keeps s₀ s) (g p : Nat) : Keeps s₀ (s.linkGroup g p) := by
  unfold State.linkGroup
  grind [fields, abortGroup]

theorem sendContribution (hk : Keeps s₀ s) (c h g : Nat) : Keeps s₀ (s.sendContribution c h g) := by
  unfold State.sendContribution
  grind [fields, log, endTile, mesh, arrival, modRound, modTile, roundStep, foldl]

/-! ### Xport -/

theorem egressStart (hk : Keeps s₀ s) (p : Nat) : Keeps s₀ (s.egressStart p) := by
  unfold State.egressStart
  grind [fields, modEth]

theorem egress (hk : Keeps s₀ s) (p : Nat) (f : EFrame) : Keeps s₀ (s.egress p f) := by
  unfold State.egress
  grind [fields, modEth, egressStart]

theorem identitySign (hk : Keeps s₀ s) (bs : List Byte) : Keeps s₀ (s.identitySign bs).2 := by
  unfold State.identitySign
  grind [fields, draw]

theorem sendFrame (hk : Keeps s₀ s) (n : Nat) (f : HxtFrame) : Keeps s₀ (s.sendFrame n f) := by
  unfold State.sendFrame
  grind [fields, modSess, egress, send]

theorem sendMsg (hk : Keeps s₀ s) (n : Nat) (m : OutMsg) (tx : Nat) : Keeps s₀ (s.sendMsg n m tx) := by
  unfold State.sendMsg
  grind [fields, each, sendFrame]

theorem flushOut (hk : Keeps s₀ s) (n : Nat) : Keeps s₀ (s.flushOut n) := by
  unfold State.flushOut
  grind [fields, modSess, each, sendMsg]

theorem post (hk : Keeps s₀ s) (n typ : Nat) (resp : Bool) (pl : List Byte) (src : Option (Nat × Nat) := none) :
    Keeps s₀ (s.post n typ resp pl src) := by
  unfold State.post
  grind [fields, modSess, flushOut, log]

theorem reply (hk : Keeps s₀ s) (port n typ : Nat) (pl : List Byte) : Keeps s₀ (s.reply port n typ pl) := by
  unfold State.reply
  grind [fields, egress, send]

theorem respond (hk : Keeps s₀ s) (n typ code detail : Nat) : Keeps s₀ (s.respond n typ code detail) := by
  unfold State.respond
  grind [fields, post]

theorem endMsg (hk : Keeps s₀ s) (n : Nat) (m : InMsg) (code detail : Nat) : Keeps s₀ (s.endMsg n m code detail) := by
  unfold State.endMsg
  grind [fields, modSess, respond]

/-! ### Kill -/

theorem attest (hk : Keeps s₀ s) (kind : Nat) (part : Option Nat) : Keeps s₀ (s.attest kind part) := by
  unfold State.attest
  grind [fields, Sec.Burns.fields, log, setSec]

theorem newKey (hk : Keeps s₀ s) (k : Nat) (st : KeySt) (bound : Option Nat) : Keeps s₀ (s.newKey k st bound) := by
  unfold State.newKey
  grind [fields, setKslot]

theorem queueFill (hk : Keeps s₀ s) (r : Region) : Keeps s₀ (s.queueFill r) := by
  unfold State.queueFill
  grind [fields]

theorem destroyKey (hk : Keeps s₀ s) (r : Region) : Keeps s₀ (s.destroyKey r) := by
  unfold State.destroyKey
  grind [fields, newKey, setKslot, queueFill]

theorem closeWindows (hk : Keeps s₀ s) (n : Nat) : Keeps s₀ (s.closeWindows n) := by
  unfold State.closeWindows
  grind [fields]

theorem closeDebug (hk : Keeps s₀ s) : Keeps s₀ s.closeDebug := by
  unfold State.closeDebug
  grind [fields, secFields, Sec.Burns.fields, attest]

theorem dropSession (hk : Keeps s₀ s) (n : Nat) : Keeps s₀ (s.dropSession n) := by
  unfold State.dropSession
  grind [fields, closeWindows, each, destroyKey, closeDebug, modCore, modSess]

theorem dropStalls (hk : Keeps s₀ s) (n : Nat) : Keeps s₀ (s.dropStalls n) := by
  unfold State.dropStalls
  grind [fields, each, unstall]

theorem dropFrames (hk : Keeps s₀ s) (n : Nat) : Keeps s₀ (s.dropFrames n) := by
  unfold State.dropFrames
  grind [fields]

theorem freeCtx (hk : Keeps s₀ s) (n : Nat) : Keeps s₀ (s.freeCtx n) := by
  unfold State.freeCtx
  grind [fields, dropFrames, modSess]

theorem killSession (hk : Keeps s₀ s) (n : Nat) : Keeps s₀ (s.killSession n) := by
  unfold State.killSession
  grind [fields, endMsg, dropStalls, dropSession, freeCtx, foldl]

theorem dropLines (hk : Keeps s₀ s) (p : Nat → Bool) : Keeps s₀ (s.dropLines p) := by
  unfold State.dropLines
  grind [fields]

theorem wipeCore (hk : Keeps s₀ s) (c : Nat) : Keeps s₀ (s.wipeCore c) := by
  unfold State.wipeCore
  grind [fields, setCore, act, zeroRange]

theorem resetGroups (hk : Keeps s₀ s) (p : Nat) : Keeps s₀ (s.resetGroups p) := by
  unfold State.resetGroups
  grind [fields, each, resetGroup]

theorem beginScrub (hk : Keeps s₀ s) (p : Nat) (kill : Bool) : Keeps s₀ (s.beginScrub p kill) := by
  unfold State.beginScrub
  grind (gen := 40) (ematch := 40) [fields, secFields, Sec.Burns.fields, each, abortHeld, resetGroups, destroyKey,
    killSession, disarmDisp, clearHub, modDisp, wipeCore, dropLines]

theorem failLoad (hk : Keeps s₀ s) (err : Nat) : Keeps s₀ (s.failLoad err) := by
  unfold State.failLoad
  grind [fields, each, modDisp, devEvent]

theorem resetPart (hk : Keeps s₀ s) (p cause : Nat) (kill : Bool) : Keeps s₀ (s.resetPart p cause kill) := by
  unfold State.resetPart
  grind [fields, secFields, Sec.Burns.fields, each, killSession, attest, failLoad, beginScrub, partEvent]

theorem pEvent (hk : Keeps s₀ s) (p : Nat) (e : Event) : Keeps s₀ (s.pEvent p e) := by
  unfold State.pEvent
  grind [fields, log, resetPart]

theorem dEvent (hk : Keeps s₀ s) (code detail : Nat) : Keeps s₀ (s.dEvent code detail) := by
  unfold State.dEvent
  grind [fields, devEvent, failLoad, each, resetPart]

theorem sramP (hk : Keeps s₀ s) (c st off : Nat) : Keeps s₀ (s.sramP c st off) := by
  unfold State.sramP
  grind [fields, log, coreFault, resetPart]

/-! ### Perm -/

theorem atReg (hk : Keeps s₀ s) (r : Req) (n : RegName) (c i : Nat) (f : State → State) (hf : Keeps s₀ (f s)) :
    Keeps s₀ (s.atReg r n c i f) := by
  unfold State.atReg
  grind [refuse]

/-! ### PantryOps -/

theorem writeBackGroup (hk : Keeps s₀ s) (g : Nat) : Keeps s₀ (s.writeBackGroup g) := by
  unfold State.writeBackGroup
  grind [fields, each, writeBack, setWay]

theorem invalidateGroup (hk : Keeps s₀ s) (g : Nat) : Keeps s₀ (s.invalidateGroup g) := by
  unfold State.invalidateGroup
  grind [fields, dropLines]

theorem pantryDo (hk : Keeps s₀ s) (o : POp) (g : Nat) : Keeps s₀ (s.pantryDo o g) := by
  unfold State.pantryDo
  grind [fields, writeBackGroup, invalidateGroup]

theorem pantryStart (hk : Keeps s₀ s) (r : Req) (o : Option POp) (g : Nat) : Keeps s₀ (s.pantryStart r o g) := by
  unfold State.pantryStart
  grind [fields, access, pantryDo]

theorem pantryNext (hk : Keeps s₀ s) : Keeps s₀ s.pantryNext := by
  unfold State.pantryNext
  grind [fields, secFields, Sec.Burns.fields, pantryDo]

theorem cntsel (hk : Keeps s₀ s) (g : Nat) : Keeps s₀ (s.cntsel g) := by
  unfold State.cntsel
  grind [fields, setRg, setRg64]

/-! ### Ports -/

theorem portDown (hk : Keeps s₀ s) (p err : Nat) (tout : PortSt) : Keeps s₀ (s.portDown p err tout) := by
  unfold State.portDown
  grind [fields, modPort, count, log, each, linkGroup]

theorem portTrain (hk : Keeps s₀ s) (p : Nat) : Keeps s₀ (s.portTrain p) := by
  unfold State.portTrain
  grind [fields, portDown, modPort]

/-! ### SeedTray -/

theorem arm (hk : Keeps s₀ s) (d : Nat) (x : Ctx) : Keeps s₀ (s.arm d x) := by
  unfold State.arm
  grind [fields, draw, dropSums, modDisp, settle]

theorem enterCtx (hk : Keeps s₀ s) (c : Nat) (x : Ctx) : Keeps s₀ (s.enterCtx c x) := by
  unfold State.enterCtx
  grind [fields, modCore, seqDone]

theorem present (hk : Keeps s₀ s) (c : Nat) (x : Ctx) : Keeps s₀ (s.present c x) := by
  unfold State.present
  grind [fields, seqRefuse, enterCtx, idle, arm, modDisp, modSeq]

theorem takeItem (hk : Keeps s₀ s) (d c h : Nat) (q : QItem) : Keeps s₀ (s.takeItem d c h q) := by
  unfold State.takeItem
  grind [fields, modDisp, settle]

theorem dropClaim (hk : Keeps s₀ s) (d : Nat) (r : ClaimReq) : Keeps s₀ (s.dropClaim d r) := by
  unfold State.dropClaim
  grind [fields, modDisp]

theorem serveClaim (hk : Keeps s₀ s) (d : Nat) (r : ClaimReq) : Keeps s₀ (s.serveClaim d r) := by
  unfold State.serveClaim
  grind [fields, dropClaim, answerClaim, spendOn, takeItem, modDisp]

theorem treeMismatch (hk : Keeps s₀ s) (c d tile epoch : Nat) (x y : PartSum) :
    Keeps s₀ (s.treeMismatch c d tile epoch x y) := by
  unfold State.treeMismatch
  grind [fields, log]

theorem addPart (hk : Keeps s₀ s) (c d : Nat) (p : PartSum) : Keeps s₀ (s.addPart c d p) := by
  unfold State.addPart
  grind [fields, treeMismatch]

theorem countPart (hk : Keeps s₀ s) (d tile : Nat) : Keeps s₀ (s.countPart d tile) := by
  unfold State.countPart
  grind [fields, modDisp]

theorem countHub (hk : Keeps s₀ s) (c h d tile : Nat) : Keeps s₀ (s.countHub c h d tile) := by
  unfold State.countHub
  grind [fields]

theorem commitDone (hk : Keeps s₀ s) (c h : Nat) (ok : Bool) : Keeps s₀ (s.commitDone c h ok) := by
  unfold State.commitDone
  grind [fields, setScalar, seqDone, freeTile]

theorem startStore (hk : Keeps s₀ s) (c h : Nat) (q : CommitReq) : Keeps s₀ (s.startStore c h q) := by
  unfold State.startStore
  grind [fields, modTile, idle, modChan, store]

theorem accept (hk : Keeps s₀ s) (c h : Nat) (e : Claim) : Keeps s₀ (s.accept c h e) := by
  unfold State.accept
  grind (gen := 40) (ematch := 40) [fields, closeClaim, modDisp, addPart, countPart, countHub, slotFull, releaseSlots, settle]

theorem stale (hk : Keeps s₀ s) (c h : Nat) (e : Option Claim) : Keeps s₀ (s.stale c h e) := by
  unfold State.stale
  grind [fields, closeClaim, count, setRg, flagTile, tileEvent, releaseSlots, settle]

/-! ### Present -/

theorem presentOne (hk : Keeps s₀ s) (x : HeldItem) : Keeps s₀ (s.presentOne x) := by
  obtain ⟨n, _ | d, c, h⟩ := x <;> unfold State.presentOne <;> grind [modDisp, serveClaim, spendOn, modTile, reopen]

theorem presentAll (hk : Keeps s₀ s) (l : List HeldItem) :
    Keeps s₀ (s.presentAll l) := by
  induction l generalizing s with
  | nil => simpa [State.presentAll] using hk
  | cons x l ih =>
    unfold State.presentAll
    grind [presentOne]

theorem present_ (hk : Keeps s₀ s) (sel : Nat → Bool) : Keeps s₀ (s.present_ sel) := by
  unfold State.present_
  grind [fields, presentAll]

/-! ### Trellis -/

theorem writeCoreImg (hk : Keeps s₀ s) (g : Cfg) (c : Nat) : Keeps s₀ (s.writeCoreImg g c) := by
  unfold State.writeCoreImg
  grind [fields, setRg]

theorem writeBudget (hk : Keeps s₀ s) (g : Cfg) (p : Nat) : Keeps s₀ (s.writeBudget g p) := by
  unfold State.writeBudget
  grind [fields, setRg64, setRg]

theorem writeFence (hk : Keeps s₀ s) (g : Cfg) : Keeps s₀ (s.writeFence g) := by
  unfold State.writeFence
  grind [fields, each, setRg]

theorem writeHubImg (hk : Keeps s₀ s) (g : Cfg) : Keeps s₀ (s.writeHubImg g) := by
  unfold State.writeHubImg
  grind (gen := 40) (ematch := 40) [fields, each, setRg, writeFence]

theorem writeImg (hk : Keeps s₀ s) (g : Cfg) : Keeps s₀ (s.writeImg g) := by
  unfold State.writeImg
  grind [fields, writeHubImg, each, writeCoreImg, writeBudget]

theorem programKeys (hk : Keeps s₀ s) : Keeps s₀ s.programKeys := by
  unfold State.programKeys
  grind [fields, each, newKey, setKslot]

theorem dropPantry (hk : Keeps s₀ s) : Keeps s₀ s.dropPantry := by
  unfold State.dropPantry
  grind [fields]

theorem freshCore (hk : Keeps s₀ s) (c : Nat) : Keeps s₀ (s.freshCore c) := by
  unfold State.freshCore
  grind [fields, modCore, setRg, wipeCore]

theorem bumpAll (hk : Keeps s₀ s) : Keeps s₀ s.bumpAll := by
  unfold State.bumpAll
  grind [fields, each, modDisp]

theorem writeEth (hk : Keeps s₀ s) (g : Cfg) : Keeps s₀ (s.writeEth g) := by
  unfold State.writeEth
  grind [fields, each, modEth]

theorem applyFull (hk : Keeps s₀ s) : Keeps s₀ s.applyFull := by
  unfold State.applyFull
  grind (gen := 40) (ematch := 40) [fields, secFields, Sec.Burns.fields, writeImg, programKeys, dropPantry, bumpAll, each,
    freshCore, writeEth, portTrain, devEvent, attest]

theorem refuseLoad (hk : Keeps s₀ s) (err : Nat) : Keeps s₀ (s.refuseLoad err) := by
  unfold State.refuseLoad
  grind [fields, secFields, Sec.Burns.fields, failLoad]

theorem beginLoad (hk : Keeps s₀ s) (flash : Bool) (src : Nat) : Keeps s₀ (s.beginLoad flash src) := by
  unfold State.beginLoad
  grind [fields, failLoad]

theorem trlGo (hk : Keeps s₀ s) (r : Req) (flash : Bool) : Keeps s₀ (s.trlGo r flash) := by
  unfold State.trlGo
  grind [fields, access, beginLoad]

theorem trainOrApply (hk : Keeps s₀ s) : Keeps s₀ s.trainOrApply := by
  unfold State.trainOrApply
  grind [fields, applyFull]

theorem fullGoesOn (hk : Keeps s₀ s) : Keeps s₀ s.fullGoesOn := by
  unfold State.fullGoesOn
  grind [fields, trainOrApply]

theorem resetAll (hk : Keeps s₀ s) : Keeps s₀ s.resetAll := by
  unfold State.resetAll
  grind [fields, each, resetPart, killSession]

theorem forceCore (hk : Keeps s₀ s) (c : Nat) : Keeps s₀ (s.forceCore c) := by
  unfold State.forceCore
  grind [fields, each, forceTile]

theorem beginQuiesce (hk : Keeps s₀ s) : Keeps s₀ s.beginQuiesce := by
  unfold State.beginQuiesce
  grind [fields, each, modDisp, forceCore]

theorem cellarTrained (hk : Keeps s₀ s) (failed : List (Fin 16)) : Keeps s₀ (s.cellarTrained failed) := by
  unfold State.cellarTrained
  grind [fields, dEvent]

theorem leaveCore (hk : Keeps s₀ s) (c : Nat) : Keeps s₀ (s.leaveCore c) := by
  unfold State.leaveCore
  grind [fields, each, abortHeld, forceTile, wipeCore, modCore]

theorem passQuiesce (hk : Keeps s₀ s) : Keeps s₀ s.passQuiesce := by
  unfold State.passQuiesce
  grind [fields, each, bumpDisp, disarmDisp, leaveCore]

theorem joinCore (hk : Keeps s₀ s) (g : Cfg) (c : Nat) (was : Bool) : Keeps s₀ (s.joinCore g c was) := by
  unfold State.joinCore
  grind [fields, writeCoreImg, modCore, setRg]

theorem moveGroup (hk : Keeps s₀ s) (g : Cfg) (k : Nat) : Keeps s₀ (s.moveGroup g k) := by
  unfold State.moveGroup
  grind [fields, pantryDo, setRg]

theorem applyPart (hk : Keeps s₀ s) (p : Nat) : Keeps s₀ (s.applyPart p) := by
  unfold State.applyPart
  grind (gen := 40) (ematch := 40) [fields, each, moveGroup, setRg, joinCore, writeCoreImg, writeBudget, modDisp, present_,
    foldl]

theorem runDeferred (hk : Keeps s₀ s) (p : Nat) : Keeps s₀ (s.runDeferred p) := by
  unfold State.runDeferred
  grind [fields, each, resetPart]

theorem resized (hk : Keeps s₀ s) (ps : List Nat) : Keeps s₀ (s.resized ps) := by
  unfold State.resized
  grind [fields, each, partEvent]

theorem endPartial (hk : Keeps s₀ s) (ps : List Nat) : Keeps s₀ (s.endPartial ps) := by
  unfold State.endPartial
  grind (gen := 40) (ematch := 40) [fields, writeFence, devEvent, each, modDisp, resized, attest]

/-! ### Stream -/

theorem engRead (hk : Keeps s₀ s) (c a n cls : Nat) (waited : List Nat := []) : Keeps s₀ (s.engRead c a n cls waited).2 := by
  unfold State.engRead
  grind [fields, spadRead, readMem]

theorem engWrite (hk : Keeps s₀ s) (c a : Nat) (bs : List Byte) (cls : Nat) : Keeps s₀ (s.engWrite c a bs cls).2 := by
  unfold State.engWrite
  grind [fields, spadWrite, writeMem]

/-! ### Jobs -/

theorem kick (hk : Keeps s₀ s) (c : Nat) (e : Engine) : Keeps s₀ (s.kick c e) := by
  unfold State.kick
  grind [fields, modSeq]

theorem enqueue (hk : Keeps s₀ s) (c : Nat) (e : Engine) (w : BitVec 128) (vlen : Nat) : Keeps s₀ (s.enqueue c e w vlen) := by
  unfold State.enqueue
  grind [fields, modSeq, kick]

theorem endJob (hk : Keeps s₀ s) (c : Nat) (e : Engine) : Keeps s₀ (s.endJob c e) := by
  unfold State.endJob
  grind [fields, modSeq, kick]

theorem jobAsStored (hk : Keeps s₀ s) (c : Nat) (e : Engine) (key : Nat) : Keeps s₀ (s.jobAsStored c e key) := by
  unfold State.jobAsStored
  grind [fields, modSeq]

theorem jobRelease (hk : Keeps s₀ s) (c cls : Nat) (l : List (Nat × Nat)) : Keeps s₀ (s.jobRelease c cls l) := by
  unfold State.jobRelease
  grind [fields, each, slotRelease]

theorem jobTouch (hk : Keeps s₀ s) (c : Nat) (e : Engine) (waited : List Nat) (cls : Nat) (l : List (Nat × Nat)) :
    Keeps s₀ (s.jobTouch c e waited cls l).2 := by
  induction l generalizing s with
  | nil => simpa [State.jobTouch] using hk
  | cons x l ih =>
    unfold State.jobTouch
    grind [spadRead, stallOn]

theorem jobWrite (hk : Keeps s₀ s) (c : Nat) (e : Engine) (off : Nat) (bs : List Byte) : Keeps s₀ (s.jobWrite c e off bs) := by
  unfold State.jobWrite
  grind [fields, spadWrite, stallOn]

/-! ### Output -/

theorem outRead (hk : Keeps s₀ s) (c h a n : Nat) : Keeps s₀ (s.outRead c h a n).2 := by
  unfold State.outRead
  grind [fields, engRead, stallOn, modTile, flagTile]

theorem auxCodes (hk : Keeps s₀ s) (c h : Nat) (g : Geo) (m lo hi : Nat) : Keeps s₀ (s.auxCodes c h g m lo hi).2 := by
  unfold State.auxCodes
  grind [fields, outRead]

theorem auxOf (hk : Keeps s₀ s) (c h : Nat) (g : Geo) (l : List (Nat × List (Nat × Nat))) (acc : List (Nat × W32 × W32))
    (bad : List Nat) :
    Keeps s₀ (s.auxOf c h g l acc bad).2 := by
  induction l generalizing s acc bad with
  | nil => simpa [State.auxOf] using hk
  | cons x l ih =>
    unfold State.auxOf
    grind [auxCodes, outRead]

theorem rakeCount (hk : Keeps s₀ s) (c : Nat) (r : RakeRec) : Keeps s₀ (s.rakeCount c r) := by
  unfold State.rakeCount
  grind [fields, count]

theorem fuse (hk : Keeps s₀ s) (c h : Nat) (g : Geo) (r : Nat) : Keeps s₀ (s.fuse c h g r) := by
  unfold State.fuse
  grind [fields, draw, engWrite, rakeCount, act]

theorem outWrite (hk : Keeps s₀ s) (c h off : Nat) (bs : List Byte) : Keeps s₀ (s.outWrite c h off bs) := by
  unfold State.outWrite
  grind [fields, spadWrite, stallOn]

theorem history (hk : Keeps s₀ s) (c h : Nat) (g : Geo) : Keeps s₀ (s.history c h g).2 := by
  unfold State.history
  grind [fields, outRead]

theorem rowFlags (hk : Keeps s₀ s) (c h : Nat) (r : RowOut) : Keeps s₀ (s.rowFlags c h r) := by
  unfold State.rowFlags
  grind [fields, modTile, flagTile]

theorem putCodes (hk : Keeps s₀ s) (c h : Nat) (g : Geo) (base m lo hi : Nat) (codes : List Nat) :
    Keeps s₀ (s.putCodes c h g base m lo hi codes) := by
  unfold State.putCodes
  grind [fields, outWrite]

theorem putSeg (hk : Keeps s₀ s) (c h : Nat) (g : Geo) (base : Nat) (hist : Option (List Byte)) (m lo hi : Nat) :
    Keeps s₀ (s.putSeg c h g base hist m lo hi) := by
  unfold State.putSeg
  grind [fields, rowFlags, putCodes, outWrite]

theorem putZrl (hk : Keeps s₀ s) (c h : Nat) (g : Geo) (base : Nat) (hist : Option (List Byte)) (m : Nat) :
    Keeps s₀ (s.putZrl c h g base hist m) := by
  unfold State.putZrl
  grind [fields, rowFlags, modTile, outWrite]

theorem putOuts (hk : Keeps s₀ s) (c h : Nat) (g : Geo) (hist : Option (List Byte)) (old n : Nat) :
    Keeps s₀ (s.putOuts c h g hist old n) := by
  unfold State.putOuts
  grind [fields, putZrl, putSeg, foldl]

theorem putCapped (hk : Keeps s₀ s) (c h : Nat) (g : Geo) (x : ImChunk) (xs : List (W32 × W32)) :
    Keeps s₀ (s.putCapped c h g x xs) := by
  unfold State.putCapped
  grind [fields, rowFlags, outWrite]

theorem putEmpty (hk : Keeps s₀ s) (c h : Nat) : Keeps s₀ (s.putEmpty c h) := by
  unfold State.putEmpty
  grind [fields, outWrite, foldl]

theorem sramOut (hk : Keeps s₀ s) (c h : Nat) (e : SramErr) : Keeps s₀ (s.sramOut c h e) := by
  unfold State.sramOut
  grind [fields, sramP, sramTile]

theorem fuseRows (hk : Keeps s₀ s) (c h : Nat) (g : Geo) (old n : Nat) (last : Bool) :
    Keeps s₀ (s.fuseRows c h g old n last) := by
  unfold State.fuseRows
  grind [fields, fuse, foldl]

theorem runOut (hk : Keeps s₀ s) (c h : Nat) (g : Geo) (denied : Nat) (es : List Elt) (ax : List (Nat × W32 × W32))
    (hist : Option (List Byte)) : Keeps s₀ (s.runOut c h g denied es ax hist) := by
  unfold State.runOut
  grind (gen := 40) (ematch := 40) [fields, modCore, modTile, flagTile, fuseRows, count64, act, putCapped, putEmpty, putOuts]

theorem passChunk (hk : Keeps s₀ s) (c h : Nat) (g : Geo) (denied : Nat) : Keeps s₀ (s.passChunk c h g denied) := by
  unfold State.passChunk
  grind [fields, auxOf, history, zrlBad, runOut, foldl]

theorem writeAmax (hk : Keeps s₀ s) (c h : Nat) (g : Geo) : Keeps s₀ (s.writeAmax c h g) := by
  unfold State.writeAmax
  grind [fields, engWrite]

theorem pathEnd (hk : Keeps s₀ s) (c h : Nat) (g : Geo) (trig : Bool) : Keeps s₀ (s.pathEnd c h g trig) := by
  unfold State.pathEnd
  grind [fields, requeue, ladderTop, writeAmax, modTile]

/-! ### Vector -/

theorem issueJob (hk : Keeps s₀ s) (c : Nat) (e : Engine) (w : BitVec 128) (vs : Bool) (n : Nat) :
    Keeps s₀ (s.issueJob c e w vs n) := by
  unfold State.issueJob
  grind [fields, setRg, enqueue, seqGoOn, seqWait]

theorem putStream (hk : Keeps s₀ s) (c : Nat) (e : Engine) (p : Conv) (og dst dsca w : Nat) (base : Nat → Nat)
    (xs : List FV) : Keeps s₀ (s.putStream c e p og dst dsca w base xs) := by
  unfold State.putStream
  grind [fields, jobWrite]

theorem latchSummary (hk : Keeps s₀ s) (c : Nat) (x : Summary) : Keeps s₀ (s.latchSummary c x) := by
  unfold State.latchSummary
  grind [fields, setRg]

theorem freeConv (hk : Keeps s₀ s) (fmt : Nat) (block : Bool) (rnd : Nat) : Keeps s₀ (s.freeConv fmt block rnd).2 := by
  unfold State.freeConv
  grind [fields, draw]

theorem vprogFinish (hk : Keeps s₀ s) (c : Nat) (j : Job) (ins : List (W32 × W32)) : Keeps s₀ (s.vprogFinish c j ins) := by
  unfold State.vprogFinish
  grind [fields, modVec, act, freeConv, putStream, latchSummary]

theorem putRecs (hk : Keeps s₀ s) (c op : Nat) (x : Int) (dst : Nat) (l : List RakeRec) :
    Keeps s₀ (s.putRecs c op x dst l) := by
  induction l generalizing s dst with
  | nil => simpa [State.putRecs] using hk
  | cons x l ih =>
    unfold State.putRecs
    grind [draw, jobWrite, rakeCount]

theorem combine (hk : Keeps s₀ s) (c : Nat) (w : BitVec 128) (n : Nat) : Keeps s₀ (s.combine c w n) := by
  unfold State.combine
  grind [fields, count, coreEvent, draw, latchSummary, putRecs, foldl]

/-! ### Security -/

theorem advance (hk : Keeps s₀ s) (r : Req) (i : Nat) : Keeps s₀ (s.advance r i) := by
  unfold State.advance
  split
  · exact hk.access _ _
  next v _ =>
    dsimp only
    split
    next rises =>
      have burns : s.sec.Burns { s.sec with rbctr := Sparse.put 0 s.sec.rbctr i v } := by
        refine ⟨fun j => ?_, BitVec.and_self, BitVec.and_self, rfl⟩
        rw [Sparse.get_put]
        split
        · next e => exact e ▸ Nat.le_of_lt rises
        · exact Nat.le_refl _
      exact (hk.secFields burns).attest _ _
    · exact hk

theorem ethDown (hk : Keeps s₀ s) : Keeps s₀ s.ethDown := by
  unfold State.ethDown
  grind [fields, each, modEth]

theorem warmGoesOn (hk : Keeps s₀ s) : Keeps s₀ s.warmGoesOn := by
  unfold State.warmGoesOn
  grind [fields, each, portDown, ethDown]

theorem scrubbed (hk : Keeps s₀ s) (x : Scrub) : Keeps s₀ (s.scrubbed x) := by
  unfold State.scrubbed
  grind [fields, secFields, Sec.Burns.fields, each, modCore, attest, partEvent, fullGoesOn, warmGoesOn]

theorem hubRead (hk : Keeps s₀ s) (r : Req) (a n : Nat) : Keeps s₀ (s.hubRead r a n).2 := by
  unfold State.hubRead
  grind [fields, cellarRead, access]

theorem newChallenge (hk : Keeps s₀ s) : Keeps s₀ s.newChallenge := by
  unfold State.newChallenge
  grind [fields, secFields, Sec.Burns.fields, draw]

theorem debugGo (hk : Keeps s₀ s) (r : Req) : Keeps s₀ (s.debugGo r) := by
  unfold State.debugGo
  grind [fields, secFields, Sec.Burns.fields, access, hubRead, newChallenge]

theorem openOwner (hk : Keeps s₀ s) : Keeps s₀ s.openOwner := by
  unfold State.openOwner
  grind [fields, secFields, Sec.Burns.fields, attest]

theorem beginVendor (hk : Keeps s₀ s) : Keeps s₀ s.beginVendor := by
  unfold State.beginVendor
  grind [fields, secFields, Sec.Burns.fields, each, resetPart, killSession, destroyKey]

theorem attestGo (hk : Keeps s₀ s) (r : Req) : Keeps s₀ (s.attestGo r) := by
  unfold State.attestGo
  grind [fields, secFields, Sec.Burns.fields, access, hubRead]

/-! ### Reset -/

theorem resetHubRegs (hk : Keeps s₀ s) : Keeps s₀ s.resetHubRegs := by
  unfold State.resetHubRegs
  grind [fields]

theorem endHubWork (hk : Keeps s₀ s) : Keeps s₀ s.endHubWork := by
  unfold State.endHubWork
  grind [fields, secFields, Sec.Burns.fields]

theorem loseHub (hk : Keeps s₀ s) : Keeps s₀ s.loseHub := by
  unfold State.loseHub
  grind [fields, secFields, Sec.Burns.fields, endHubWork, resetHubRegs, ethDown, each, modPort]

theorem coldBase (hk : Keeps s₀ s) (boot : Boot) : Keeps s₀ (s.coldBase boot) where
  pending := hk.pending
  mem w := Sparse.wf_filter 0 s.mem _ (hk.mem w)
  fuses := hk.fuses.trans (Sec.Burns.fields s.sec)

theorem warmCore (hk : Keeps s₀ s) (c : Nat) : Keeps s₀ (s.warmCore c) := by
  unfold State.warmCore
  grind [fields, wipeCore, modCore]

theorem beginWarm (hk : Keeps s₀ s) (code : Nat) : Keeps s₀ (s.beginWarm code) := by
  unfold State.beginWarm
  grind (gen := 40) (ematch := 40) [fields, closeDebug, each, killSession, resetPart, destroyKey, warmCore, endHubWork,
    resetHubRegs, modDisp, warmGoesOn]

theorem warmReset (hk : Keeps s₀ s) (code : Nat) : Keeps s₀ (s.warmReset code) := by
  unfold State.warmReset
  grind [fields, secFields, Sec.Burns.fields, beginWarm]

theorem setRdidx (hk : Keeps s₀ s) (v : W32) : Keeps s₀ (s.setRdidx v) := by
  unfold State.setRdidx
  grind [fields]

/-! ### Power -/

theorem railOn (hk : Keeps s₀ s) (k mv : Nat) : Keeps s₀ (s.railOn k mv) := by
  unfold State.railOn
  grind [fields, send]

theorem railOff (hk : Keeps s₀ s) (k : Nat) : Keeps s₀ (s.railOff k) := by
  unfold State.railOff
  grind [fields, send]

theorem railsOff (hk : Keeps s₀ s) (ks : List Nat) : Keeps s₀ (s.railsOff ks) := by
  unfold State.railsOff
  grind [fields, each, railOff]

theorem keeper (hk : Keeps s₀ s) : Keeps s₀ s.keeper := by
  unfold State.keeper
  grind [fields, railOn]

theorem raise (hk : Keeps s₀ s) (k mv : Nat) : Keeps s₀ (s.raise k mv) := by
  unfold State.raise
  grind [fields, railOn]

theorem quadOff (hk : Keeps s₀ s) (q : Nat) : Keeps s₀ (s.quadOff q) := by
  unfold State.quadOff
  grind [fields, each, wipeCore, setQuad, railOff, log, foldl]

theorem qoffAct (hk : Keeps s₀ s) (r : Req) (q : Nat) (both : Bool) : Keeps s₀ (s.qoffAct r q both) := by
  unfold State.qoffAct
  grind [fields, access, quadOff]

theorem qonAct (hk : Keeps s₀ s) (r : Req) (q : Nat) (both : Bool) : Keeps s₀ (s.qonAct r q both) := by
  unfold State.qonAct
  grind [fields, access, setQuad, railOn]

theorem d3Act (hk : Keeps s₀ s) (r : Req) : Keeps s₀ (s.d3Act r) := by
  unfold State.d3Act
  grind [fields, access]

theorem beginWake (hk : Keeps s₀ s) (code : Nat) : Keeps s₀ (s.beginWake code) := by
  unfold State.beginWake
  grind [fields, raise]

theorem enterD3 (hk : Keeps s₀ s) : Keeps s₀ s.enterD3 := by
  unfold State.enterD3
  grind (gen := 40) (ematch := 40) [fields, each, portDown, attest, railsOff, keeper, loseHub]

theorem wake (hk : Keeps s₀ s) (en code : Nat) : Keeps s₀ (s.wake en code) := by
  unfold State.wake
  grind [fields, beginWake]

theorem startPorts (hk : Keeps s₀ s) : Keeps s₀ s.startPorts := by
  unfold State.startPorts
  grind [fields, each, portTrain, writeEth]

theorem railNext (hk : Keeps s₀ s) (k : Nat) : Keeps s₀ (s.railNext k) := by
  unfold State.railNext
  grind [fields, secFields, Sec.Burns.fields, raise]

theorem railFaultOn (hk : Keeps s₀ s) (m : Nat) : Keeps s₀ (s.railFaultOn m) := by
  unfold State.railFaultOn
  grind [fields, dEvent]

theorem filterAll (hk : Keeps s₀ s) (x : Readings) : Keeps s₀ (s.filterAll x) := by
  unfold State.filterAll
  grind [fields, foldl]

theorem trip (hk : Keeps s₀ s) (n : Nat) : Keeps s₀ (s.trip n) := by
  unfold State.trip
  grind (gen := 40) (ematch := 40) [fields, secFields, Sec.Burns.fields, attest, devEvent, railsOff, loseHub, each, wipeCore]

theorem railCheck (hk : Keeps s₀ s) : Keeps s₀ s.railCheck := by
  unfold State.railCheck
  grind [fields, each, railFaultOn]

theorem fillCredit (hk : Keeps s₀ s) : Keeps s₀ s.fillCredit := by
  unfold State.fillCredit
  split
  · exact hk.fields
  · exact hk

theorem creditStep (hk : Keeps s₀ s) : Keeps s₀ s.creditStep := hk.fields

theorem packageStep (hk : Keeps s₀ s) : Keeps s₀ s.packageStep := hk.fields

theorem holdStep (hk : Keeps s₀ s) : Keeps s₀ s.holdStep := by
  unfold State.holdStep
  grind [fields, devEvent, present_]

theorem capStep (hk : Keeps s₀ s) : Keeps s₀ s.capStep := by
  unfold State.capStep
  dsimp only
  split
  · exact hk.fillCredit
  · exact hk.fillCredit.creditStep.packageStep.holdStep

/-! ### MeterOps -/

theorem charge (hk : Keeps s₀ s) (core part session : Option Nat) (n : Nat) : Keeps s₀ (s.charge core part session n) := by
  unfold State.charge
  grind [fields, modSess]

theorem chargeCore (hk : Keeps s₀ s) (c : Nat) : Keeps s₀ (s.chargeCore c) := by
  unfold State.chargeCore
  grind [fields, charge, modCore]

theorem partBoundary (hk : Keeps s₀ s) (p : Nat) : Keeps s₀ (s.partBoundary p) := by
  unfold State.partBoundary
  grind [fields, present_]

theorem sessBoundary (hk : Keeps s₀ s) (n : Nat) : Keeps s₀ (s.sessBoundary n) := by
  unfold State.sessBoundary
  grind [fields, modSess, present_]

theorem restartWindow (hk : Keeps s₀ s) (n : Nat) : Keeps s₀ (s.restartWindow n) := by
  unfold State.restartWindow
  grind [fields, modSess, present_]

theorem setSessBudget (hk : Keeps s₀ s) (r : Req) (lo : Bool) (v : W32) : Keeps s₀ (s.setSessBudget r lo v) := by
  unfold State.setSessBudget
  grind [fields, modSess, restartWindow, access]

/-! ### Dma -/

theorem chanDesc (hk : Keeps s₀ s) (c ch a : Nat) : Keeps s₀ (s.chanDesc c ch a) := by
  unfold State.chanDesc
  grind [fields, chanHalt, coreEvent]

theorem loadDesc (hk : Keeps s₀ s) (c ch : Nat) : Keeps s₀ (s.loadDesc c ch) := by
  unfold State.loadDesc
  grind [fields, chanDesc, readMem, modChan, chanNo]

theorem dropReqs (hk : Keeps s₀ s) (c ch : Nat) : Keeps s₀ (s.dropReqs c ch) := by
  unfold State.dropReqs
  grind [fields]

theorem startChain (hk : Keeps s₀ s) (c ch a : Nat) : Keeps s₀ (s.startChain c ch a) := by
  unfold State.startChain
  grind [fields, dropReqs, modChan, loadDesc]

theorem dmaGo (hk : Keeps s₀ s) (r : Req) (c ch : Nat) : Keeps s₀ (s.dmaGo r c ch) := by
  unfold State.dmaGo
  grind [fields, startChain, access]

theorem dmaHalt (hk : Keeps s₀ s) (c ch : Nat) : Keeps s₀ (s.dmaHalt c ch) := by
  unfold State.dmaHalt
  grind [fields, chanHalt, modChan]

theorem rowEnd (hk : Keeps s₀ s) (c ch : Nat) : Keeps s₀ (s.rowEnd c ch) := by
  unfold State.rowEnd
  grind [fields, modChan, chanHalt]

theorem rowDone (hk : Keeps s₀ s) (c ch : Nat) : Keeps s₀ (s.rowDone c ch) := by
  unfold State.rowDone
  grind [fields, modChan, rowEnd]

theorem dmaPut (hk : Keeps s₀ s) (c ch a : Nat) (h : Hint) (bs : List Byte) : Keeps s₀ (s.dmaPut c ch a h bs).2 := by
  unfold State.dmaPut
  grind [fields, writeMem, chanFault, modChan, stallOn]

theorem noRoute (hk : Keeps s₀ s) (c ch dst a : Nat) : Keeps s₀ (s.noRoute c ch dst a) := by
  unfold State.noRoute
  grind [fields, coreEvent, chanFault]

theorem remotePut (hk : Keeps s₀ s) (c ch a : Nat) (bs : List Byte) : Keeps s₀ (s.remotePut c ch a bs).2 := by
  unfold State.remotePut
  grind [fields, noRoute, modChan, request, foldl]

theorem remoteGet (hk : Keeps s₀ s) (c ch a n : Nat) (dest : Nat → Nat) : Keeps s₀ (s.remoteGet c ch a n dest) := by
  unfold State.remoteGet
  grind [fields, noRoute, modChan, request, foldl]

theorem rowPut (hk : Keeps s₀ s) (c ch a : Nat) (bs : List Byte) : Keeps s₀ (s.rowPut c ch a bs).2 := by
  unfold State.rowPut
  grind [fields, remotePut, dmaPut]

theorem dmaPuts (hk : Keeps s₀ s) (c ch : Nat) (h : Hint) (l : List (Nat × List Byte)) :
    Keeps s₀ (s.dmaPuts c ch h l).2 := by
  induction l generalizing s with
  | nil => simpa [State.dmaPuts] using hk
  | cons x l ih =>
    unfold State.dmaPuts
    grind [dmaPut]

theorem rowPuts (hk : Keeps s₀ s) (c ch : Nat) (l : List (Nat × List Byte)) :
    Keeps s₀ (s.rowPuts c ch l).2 := by
  induction l generalizing s with
  | nil => simpa [State.rowPuts] using hk
  | cons x l ih =>
    unfold State.rowPuts
    grind [rowPut]

theorem remoteRow (hk : Keeps s₀ s) (c ch : Nat) (row : List Byte) : Keeps s₀ (s.remoteRow c ch row) := by
  unfold State.remoteRow
  grind [fields, remotePut, rowDone, remoteGet]

theorem zencRow (hk : Keeps s₀ s) (c ch : Nat) (row : List Byte) : Keeps s₀ (s.zencRow c ch row) := by
  unfold State.zencRow
  grind [fields, chanHalt, coreEvent, rowPuts, modChan, rowDone]

theorem zdecPut (hk : Keeps s₀ s) (c ch : Nat) (off bs : List Byte) : Keeps s₀ (s.zdecPut c ch off bs) := by
  unfold State.zdecPut
  grind [fields, rowPut, modChan, chanHalt, coreEvent, rowDone]

theorem zdecRow (hk : Keeps s₀ s) (c ch : Nat) : Keeps s₀ (s.zdecRow c ch) := by
  unfold State.zdecRow
  grind [fields, readMem, zdecPut, chanNo]

theorem gatherRow (hk : Keeps s₀ s) (c ch : Nat) : Keeps s₀ (s.gatherRow c ch) := by
  unfold State.gatherRow
  grind [fields, modChan, remoteGet, zencRow, zdecPut]

theorem dmaRow (hk : Keeps s₀ s) (c ch : Nat) : Keeps s₀ (s.dmaRow c ch) := by
  unfold State.dmaRow
  grind [fields, remoteRow, dmaPut, rowDone, gatherRow, zdecRow, readMem, zencRow, chanNo]

theorem sramRow (hk : Keeps s₀ s) (c ch : Nat) (e : SramErr) : Keeps s₀ (s.sramRow c ch e).2 := by
  cases e <;> unfold State.sramRow <;> grind [sramCe, pEvent, sramUe, chanFault]

theorem dramRow (hk : Keeps s₀ s) (c ch : Nat) (de : LineErrs) : Keeps s₀ (s.dramRow c ch de) := by
  unfold State.dramRow
  grind [fields, readErrs]

/-! ### Sieve -/

theorem idxOf (hk : Keeps s₀ s) (c h : Nat) (w : Bool) (rows : Nat) : Keeps s₀ (s.idxOf c h w rows).2 := by
  unfold State.idxOf
  grind [fields, tileRead]

theorem imRead (hk : Keeps s₀ s) (c h : Nat) (w : Bool) (a n : Nat) : Keeps s₀ (s.imRead c h w a n).2 := by
  unfold State.imRead
  grind [fields, engRead, stallOn, flagTile]

theorem idxOob (hk : Keeps s₀ s) (c h index row : Nat) : Keeps s₀ (s.idxOob c h index row) := by
  unfold State.idxOob
  grind [fields, flagTile, count, sveErr, tileEvent]

theorem idxRow (hk : Keeps s₀ s) (c h : Nat) (x : Side) (m : Nat) (q : Idx) (r o : Nat) (sel : Nat → Nat) :
    Keeps s₀ (s.idxRow c h x m q r o sel).2 := by
  unfold State.idxRow
  grind [fields, imRead, idxOob]

theorem emitRun (hk : Keeps s₀ s) (c h row : Nat) : Keeps s₀ (s.emitRun c h row) := by
  unfold State.emitRun
  grind [fields, modTile, modCore, foldl]

theorem imAdd (hk : Keeps s₀ s) (c h row col : Nat) (p : Int) (nan : Bool) : Keeps s₀ (s.imAdd c h row col p nan) := by
  unfold State.imAdd
  grind [fields, modCore, count, emitRun, modTile, flagTile]

theorem imEntry (hk : Keeps s₀ s) (c h : Nat) (g : Geo) (qw : Idx) (row : Nat) (e : IdxEnt) :
    Keeps s₀ (s.imEntry c h g qw row e) := by
  unfold State.imEntry
  grind [fields, idxOob, idxRow, imAdd, foldl]

theorem imFinish (hk : Keeps s₀ s) (c h : Nat) (g : Geo) : Keeps s₀ (s.imFinish c h g) := by
  unfold State.imFinish
  grind [fields, accEnd]

theorem imLeave (hk : Keeps s₀ s) (c h : Nat) (g : Geo) : Keeps s₀ (s.imLeave c h g) := by
  unfold State.imLeave
  grind [fields, modTile, arrLeave]

theorem imRow (hk : Keeps s₀ s) (c h : Nat) (g : Geo) (qa qw : Idx) (row : Nat) : Keeps s₀ (s.imRow c h g qa qw row) := by
  unfold State.imRow
  grind [fields, idxRow, imEntry, emitRun, modTile, foldl]

theorem capRun (hk : Keeps s₀ s) (c h : Nat) (g : Geo) (r : Run) : Keeps s₀ (s.capRun c h g r).2 := by
  unfold State.capRun
  grind [fields, flagTile, sveErr, tileEvent]

theorem finalRun (hk : Keeps s₀ s) (c h : Nat) (g : Geo) (r : Run) : Keeps s₀ (s.finalRun c h g r) := by
  unfold State.finalRun
  grind [fields, capRun, modTile, engWrite]

theorem mergePass (hk : Keeps s₀ s) (c h row : Nat) : Keeps s₀ (s.mergePass c h row) := by
  unfold State.mergePass
  grind [fields, modTile, finalRun, imFinish]

theorem mergeMismatch (hk : Keeps s₀ s) (c op or_ rp rr : Nat) : Keeps s₀ (s.mergeMismatch c op or_ rp rr) := by
  unfold State.mergeMismatch
  grind [fields, coreEvent]

theorem mergeJob (hk : Keeps s₀ s) (c : Nat) (j : Job) : Keeps s₀ (s.mergeJob c j).2 := by
  unfold State.mergeJob
  grind [fields, jobTouch, mergeMismatch, jobWrite, foldl]

theorem mergeSlot (hk : Keeps s₀ s) (d : Desc) (i p : Nat) : Keeps s₀ (s.mergeSlot d i p).2 := by
  unfold State.mergeSlot
  grind [fields, readMem]

theorem mergeSlots (hk : Keeps s₀ s) (d : Desc) (i : Nat) : Keeps s₀ (s.mergeSlots d i).2 := by
  unfold State.mergeSlots
  exact gather hk _ _ _ fun st p h => h.mergeSlot d i p

theorem hubRowOut (hk : Keeps s₀ s) (x : Disp) (c i : Nat) (recs : List (Nat × Int)) :
    Keeps s₀ (s.hubRowOut x c i recs).2.2 := by
  unfold State.hubRowOut
  grind (gen := 40) (ematch := 40) [fields, modCore, count64, act, draw, engWrite, rakeCount, foldl]

theorem hubAmaxPut (hk : Keeps s₀ s) (x : Disp) (d c i : Nat) (a : FV) : Keeps s₀ (s.hubAmaxPut x d c i a) := by
  unfold State.hubAmaxPut
  grind [fields, engWrite]

theorem hubEvent (hk : Keeps s₀ s) (x : Disp) (d c i code detail : Nat) : Keeps s₀ (s.hubEvent x d c i code detail) := by
  unfold State.hubEvent
  grind [fields, log]

theorem hubDeliver (hk : Keeps s₀ s) (x : Disp) (d c i : Nat) : Keeps s₀ (s.hubDeliver x d c i) := by
  unfold State.hubDeliver
  grind [fields, mergeSlots, hubEvent, sveErr, hubRowOut, hubAmaxPut, setRg, foldl]

theorem scoutTest (hk : Keeps s₀ s) (c h : Nat) (g : Geo) : Keeps s₀ (s.scoutTest c h g) := by
  unfold State.scoutTest
  grind [fields, engWrite, count, modTile]

theorem fullPass (hk : Keeps s₀ s) (c h : Nat) : Keeps s₀ (s.fullPass c h) := by
  unfold State.fullPass
  grind [fields, accEnd]

/-! ### TileCmds -/

theorem unless_ (hk : Keeps s₀ s) (c op : Nat) (cause : Option Nat) (f : State → State) (hf : Keeps s₀ (f s)) :
    Keeps s₀ (s.unless c op cause f) := by
  unfold State.unless
  grind [seqRefuse]

theorem setprecPrec (hk : Keeps s₀ s) (c h rung : Nat) : Keeps s₀ (s.setprecPrec c h rung) := by
  unfold State.setprecPrec
  grind [fields, tileEvent, seqRefuse]

theorem setprecCmd (hk : Keeps s₀ s) (c : Nat) (w : BitVec 128) : Keeps s₀ (s.setprecCmd c w) := by
  unfold State.setprecCmd
  grind [fields, seqRefuse, unless_, modCtx, seqGoOn, setprecPrec, modTile]

theorem claimCmd (hk : Keeps s₀ s) (c : Nat) (w : BitVec 128) : Keeps s₀ (s.claimCmd c w) := by
  unfold State.claimCmd
  grind [fields, seqRefuse, unless_, arrive, modDisp, seqWait]

theorem bindOperand (hk : Keeps s₀ s) (c : Nat) (weight : Bool) (w : BitVec 128) : Keeps s₀ (s.bindOperand c weight w) := by
  unfold State.bindOperand
  grind [fields, modBind, fetchStart]

theorem loadCmd (hk : Keeps s₀ s) (c op : Nat) (weight : Bool) : Keeps s₀ (s.loadCmd c op weight) := by
  unfold State.loadCmd
  grind [fields, bindOperand, seqDone, seqRun, unless_, seqWait, seqGoOn]

theorem preloadCmd (hk : Keeps s₀ s) (c : Nat) (w : BitVec 128) : Keeps s₀ (s.preloadCmd c w) := by
  unfold State.preloadCmd
  grind [fields, seqRefuse, unless_, modTile, seqGoOn]

theorem scoutCmd (hk : Keeps s₀ s) (c : Nat) (w : BitVec 128) : Keeps s₀ (s.scoutCmd c w) := by
  unfold State.scoutCmd
  grind [fields, seqRefuse, unless_, seqWait]

theorem stepScouted (hk : Keeps s₀ s) (c h : Nat) : Keeps s₀ (s.stepScouted c h) := by
  unfold State.stepScouted
  grind [fields, sampleDue, arrEnter, fullPass]

theorem stepCmd (hk : Keeps s₀ s) (c : Nat) (w : BitVec 128) : Keeps s₀ (s.stepCmd c w) := by
  unfold State.stepCmd
  grind [fields, seqRefuse, unless_, modTile, stepScouted, seqGoOn]

theorem openTile (hk : Keeps s₀ s) (c h : Nat) : Keeps s₀ (s.openTile c h) := by
  unfold State.openTile
  grind [fields, openAttempt, attemptCheck]

theorem drainCmd (hk : Keeps s₀ s) (c : Nat) (w : BitVec 128) : Keeps s₀ (s.drainCmd c w) := by
  unfold State.drainCmd
  grind [fields, seqRefuse, unless_, modTile, seqGoOn]

theorem reduceCmd (hk : Keeps s₀ s) (c mode : Nat) (f : State → Nat → BitVec 128 → State) (hf : ∀ h w, Keeps s₀ (f s h w))
    : Keeps s₀ (s.reduceCmd c mode f) := by
  unfold State.reduceCmd
  grind [seqRun, seqRefuse, unless_, seqGoOn]

theorem commitCmd (hk : Keeps s₀ s) (c : Nat) (w : BitVec 128) : Keeps s₀ (s.commitCmd c w) := by
  unfold State.commitCmd
  grind [fields, seqRefuse, setScalar, seqGoOn, unless_, modTile, seqWait]

theorem storeRow (hk : Keeps s₀ s) (c ch : Nat) (g : Geo) (slot : List Byte) (m : Nat) :
    Keeps s₀ (s.storeRow c ch g slot m).2 := by
  unfold State.storeRow
  grind [fields, dmaPut, readMem, chanNo]

theorem storeRows (hk : Keeps s₀ s) (c ch : Nat) (g : Geo) (slot : List Byte) (l : List Nat) :
    Keeps s₀ (s.storeRows c ch g slot l).2 := by
  induction l generalizing s with
  | nil => simpa [State.storeRows] using hk
  | cons x l ih =>
    unfold State.storeRows
    grind [storeRow]

theorem storeTile (hk : Keeps s₀ s) (c ch : Nat) (g : Geo) (slot : List Byte) : Keeps s₀ (s.storeTile c ch g slot).2 := by
  unfold State.storeTile
  grind [fields, dmaPuts, storeRows]

theorem gaugeCmd (hk : Keeps s₀ s) (c : Nat) (skip : Bool) : Keeps s₀ (s.gaugeCmd c skip) := by
  unfold State.gaugeCmd
  grind [fields, seqRun, seqRefuse, unless_, modTile, seqGoOn]

/-! ### Quiesce -/

theorem abortClaims (hk : Keeps s₀ s) (c : Nat) : Keeps s₀ (s.abortClaims c) := by
  unfold State.abortClaims
  grind [fields, each, abortHeld]

theorem forceQuiesce (hk : Keeps s₀ s) (c : Nat) : Keeps s₀ (s.forceQuiesce c) := by
  unfold State.forceQuiesce
  grind [fields, each, resetGroup, forceTile]

theorem quiesceCore (hk : Keeps s₀ s) (c : Nat) (force : Bool) : Keeps s₀ (s.quiesceCore c force) := by
  unfold State.quiesceCore
  grind [fields, modCore, abortClaims, forceQuiesce]

theorem enableCore (hk : Keeps s₀ s) (c : Nat) : Keeps s₀ (s.enableCore c) := by
  unfold State.enableCore
  grind [fields, modCore]

/-! ### BootOps -/

theorem fwStage (hk : Keeps s₀ s) (kind ctr : Nat) (a b : List Byte) : Keeps s₀ (s.fwStage kind ctr a b).2 := by
  unfold State.fwStage
  grind [fields, attest]

theorem bootStop (hk : Keeps s₀ s) (code : Nat) : Keeps s₀ (s.bootStop code) := by
  unfold State.bootStop
  grind [fields, secFields, Sec.Burns.fields]

theorem porchStarts (hk : Keeps s₀ s) (pufOk : Bool) : Keeps s₀ (s.porchStarts pufOk) := by
  unfold State.porchStarts
  grind [fields, secFields, Sec.Burns.fields, bootStop, newChallenge, railsOff, keeper, raise]

theorem bootImage (hk : Keeps s₀ s) : Keeps s₀ s.bootImage := by
  unfold State.bootImage
  grind [fields, secFields, Sec.Burns.fields, beginLoad]

theorem keepWindows (hk : Keeps s₀ s) (t0 : Sparse Nat) : Keeps s₀ (s.keepWindows t0) := by
  unfold State.keepWindows
  grind [fields]

theorem warmStarts (hk : Keeps s₀ s) : Keeps s₀ s.warmStarts := by
  unfold State.warmStarts
  grind (gen := 40) (ematch := 40) [fields, secFields, Sec.Burns.fields, writeImg, bumpAll, each, modCore, keepWindows,
    attest, devEvent, startPorts, beginLoad]

theorem wakeStarts (hk : Keeps s₀ s) : Keeps s₀ s.wakeStarts := by
  unfold State.wakeStarts
  grind [fields, writeImg]

theorem hubStarts (hk : Keeps s₀ s) : Keeps s₀ s.hubStarts := by
  unfold State.hubStarts
  grind [fields, bootImage, warmStarts, wakeStarts]

/-! ### CellarOps -/

theorem fillLine (hk : Keeps s₀ s) (l v : Nat) (bs : List Byte) : Keeps s₀ (s.fillLine l v bs) := by
  unfold State.fillLine
  grind [fields, putLine, setWay]

theorem fillLines (hk : Keeps s₀ s) (pat : W32) (l : List Nat) :
    Keeps s₀ (s.fillLines pat l).2 := by
  induction l generalizing s with
  | nil => simpa [State.fillLines] using hk
  | cons x l ih =>
    unfold State.fillLines
    grind [fillLine]

theorem endFill (hk : Keeps s₀ s) (err : Nat) : Keeps s₀ (s.endFill err) := by
  unfold State.endFill
  grind [fields]

theorem startFill (hk : Keeps s₀ s) : Keeps s₀ s.startFill := by
  unfold State.startFill
  grind [fields, endFill]

theorem fillGo (hk : Keeps s₀ s) (r : Req) : Keeps s₀ (s.fillGo r) := by
  unfold State.fillGo
  grind [fields, access, startFill]

theorem haltFill (hk : Keeps s₀ s) : Keeps s₀ s.haltFill := by
  unfold State.haltFill
  grind [fields, draw, fillLines, endFill]

theorem killFill (hk : Keeps s₀ s) (f : Fill) : Keeps s₀ (s.killFill f) := by
  unfold State.killFill
  grind [fields, each, fillLine, attest]

/-! ### Windows -/

theorem declRefuse (hk : Keeps s₀ s) (c n : Nat) : Keeps s₀ (s.declRefuse c n) := by
  unfold State.declRefuse
  grind [fields, spdErr, coreEvent]

theorem declare (hk : Keeps s₀ s) (c n : Nat) (cfg : Bool) (v : Nat) : Keeps s₀ (s.declare c n cfg v) := by
  unfold State.declare
  grind [fields, declRefuse, setRg, setSlot]

theorem modMsg (hk : Keeps s₀ s) (n seq : Nat) (f : InMsg → InMsg) : Keeps s₀ (s.modMsg n seq f) := by
  unfold State.modMsg
  grind [fields, modSess]

theorem respondRemote (hk : Keeps s₀ s) (d tag typ status : Nat) (pl : List Byte) :
    Keeps s₀ (s.respondRemote d tag typ status pl) := by
  unfold State.respondRemote
  grind [fields, sendTo]

theorem inReply (hk : Keeps s₀ s) (r : Req) (tag : Option Nat) (pos : Nat) (rd : Bool) (bs : List Byte) :
    Keeps s₀ (s.inReply r tag pos rd bs) := by
  unfold State.inReply
  grind [fields, respondRemote, modMsg, send]

theorem inRefused (hk : Keeps s₀ s) (r : Req) (tag : Option Nat) (pos : Nat) (rd : Bool) (n : Nat) :
    Keeps s₀ (s.inRefused r tag pos rd n) := by
  unfold State.inRefused
  grind [fields, respondRemote, modMsg, send]

theorem inGot (hk : Keeps s₀ s) (r : Req) (c off n : Nat) (tag : Option Nat) (pos : Nat) (got : Got) :
    Keeps s₀ (s.inGot r c off n tag pos got) := by
  cases got <;> unfold State.inGot <;> grind [inReply, stallOn, inRefused]

theorem inPut (hk : Keeps s₀ s) (r : Req) (c off : Nat) (bs : List Byte) (tag : Option Nat) (pos : Nat) (put : Put) :
    Keeps s₀ (s.inPut r c off bs tag pos put) := by
  cases put <;> unfold State.inPut <;> grind [inReply, stallOn, inRefused]

theorem inData (hk : Keeps s₀ s) (r : Req) (c off : Nat) (x : Option (List Byte)) (n : Nat) (tag : Option Nat) (pos : Nat)
    : Keeps s₀ (s.inData r c off x n tag pos) := by
  unfold State.inData
  grind [fields, inGot, readSpad, inPut, writeSpad]

theorem inAgain (hk : Keeps s₀ s) (r : Req) (c : Nat) (x : Stall) : Keeps s₀ (s.inAgain r c x) := by
  unfold State.inAgain
  grind [fields, writeAtSlots, inPut, readAtSlots, inGot]

theorem inSignal (hk : Keeps s₀ s) (r : Req) (c off : Nat) (full : Bool) : Keeps s₀ (s.inSignal r c off full).2 := by
  unfold State.inSignal
  grind [fields, refuse, winRefuse, ungate, slotFull, slotRelease]

theorem debugRead (hk : Keeps s₀ s) (r : Req) (c off n : Nat) : Keeps s₀ (s.debugRead r c off n).2 := by
  unfold State.debugRead
  grind [fields, ungate, refuse]

theorem takeStall (hk : Keeps s₀ s) (c i : Nat) : Keeps s₀ (s.takeStall c i) := by
  unfold State.takeStall
  grind [fields, modCore]

theorem timeoutEvent (hk : Keeps s₀ s) (c : Nat) (x : Stall) : Keeps s₀ (s.timeoutEvent c x) := by
  unfold State.timeoutEvent
  grind [fields, spdErr, coreEvent, reqEvent]

/-! ### Sequencer -/

theorem layerRefuse (hk : Keeps s₀ s) (c r : Nat) (d : Desc) (n : Nat) : Keeps s₀ (s.layerRefuse c r d n) := by
  unfold State.layerRefuse
  grind [fields, log, seqRefuse]

theorem layerRead (hk : Keeps s₀ s) (c a n cls : Nat) : Keeps s₀ (s.layerRead c a n cls).2 := by
  unfold State.layerRead
  grind [fields, engRead, stallOn]

theorem layerWith (hk : Keeps s₀ s) (c n : Nat) (d : Desc) (p : Prog) : Keeps s₀ (s.layerWith c n d p) := by
  unfold State.layerWith
  grind [fields, modSeq, layerRefuse, seqWait, present]

theorem layerCmd (hk : Keeps s₀ s) (c : Nat) (w : BitVec 128) : Keeps s₀ (s.layerCmd c w) := by
  unfold State.layerCmd
  extract_lets off n
  split
  · exact hk.seqRefuse _ _ _
  split
  · exact hk.seqRefuse _ _ _
  have desc := hk.layerRead c (spadBase c + off) 256 cSeq
  split
  next t e => exact (e ▸ desc :)
  next bs t e =>
    rw [e] at desc
    have image := desc.layerRead c (Desc.eprog (BitVec.ofNat 2048 (ofLe bs))) 176 cVec
    extract_lets d
    split
    next u e => exact (e ▸ image :)
    next im u e => exact Keeps.layerWith (e ▸ image :) _ _ _ _

theorem dmaStart (hk : Keeps s₀ s) (c : Nat) (w : BitVec 128) : Keeps s₀ (s.dmaStart c w) := by
  unfold State.dmaStart
  grind [fields, setRg64, startChain]

theorem dmaCmd (hk : Keeps s₀ s) (c : Nat) : Keeps s₀ (s.dmaCmd c) := by
  unfold State.dmaCmd
  grind [fields, dmaStart, seqDone, seqRun, unless_, seqGoOn, seqWait]

theorem waitslotEnd (hk : Keeps s₀ s) (c : Nat) (w : BitVec 128) : Keeps s₀ (s.waitslotEnd c w) := by
  unfold State.waitslotEnd
  grind [fields, spadRead, setScalar, slotRelease, modSeq]

theorem waitslotCmd (hk : Keeps s₀ s) (c : Nat) (w : BitVec 128) : Keeps s₀ (s.waitslotCmd c w) := by
  unfold State.waitslotCmd
  grind [fields, unless_, waitslotEnd, seqGoOn, seqWait, stallOn]

theorem signalCmd (hk : Keeps s₀ s) (c kind : Nat) (f : State → Nat → BitVec 128 → State) (hf : ∀ n w, Keeps s₀ (f s n w))
    : Keeps s₀ (s.signalCmd c kind f) := by
  unfold State.signalCmd
  grind [seqRun, unless_, seqGoOn]

theorem signalRemote (hk : Keeps s₀ s) (c n : Nat) (full : Bool) (w : BitVec 128) : Keeps s₀ (s.signalRemote c n full w) := by
  unfold State.signalRemote
  grind [fields, modSeq, request, coreEvent, inSignal]

theorem fenceTry (hk : Keeps s₀ s) (c : Nat) : Keeps s₀ (s.fenceTry c) := by
  unfold State.fenceTry
  grind [fields, seqDone, modSeq]

theorem branchCmd (hk : Keeps s₀ s) (c : Nat) : Keeps s₀ (s.branchCmd c) := by
  unfold State.branchCmd
  grind [fields, seqDoneAt, seqRun, unless_, seqWait, issued, setRd]

theorem loopCmd (hk : Keeps s₀ s) (c : Nat) (end_ : Bool) (f : State → BitVec 128 → State) (hf : ∀ w, Keeps s₀ (f s w))
    : Keeps s₀ (s.loopCmd c end_ f) := by
  unfold State.loopCmd
  grind [seqRun, unless_]

theorem seqGoAct (hk : Keeps s₀ s) (r : Req) (c : Nat) : Keeps s₀ (s.seqGoAct r c) := by
  unfold State.seqGoAct
  grind [fields, modSeq, access]

theorem seqStopAct (hk : Keeps s₀ s) (c : Nat) : Keeps s₀ (s.seqStopAct c) := by
  unfold State.seqStopAct
  grind [fields, modSeq, unstall]

theorem seqClrAct (hk : Keeps s₀ s) (c : Nat) : Keeps s₀ (s.seqClrAct c) := by
  unfold State.seqClrAct
  grind [fields, modSeq]

/-! ### Tchiuth -/

theorem packetIn (hk : Keeps s₀ s) (p : Nat) (h payload : List Byte) : Keeps s₀ (s.packetIn p h payload) := by
  unfold State.packetIn
  grind [fields, modPort, count]

theorem resend (hk : Keeps s₀ s) (p : Nat) : Keeps s₀ (s.resend p) := by
  unfold State.resend
  grind [fields, portDown, modPort, count, each, send]

theorem sendAck (hk : Keeps s₀ s) (p : Nat) (nak : Bool) : Keeps s₀ (s.sendAck p nak) := by
  unfold State.sendAck
  grind [fields, send]

theorem goodFlit (hk : Keeps s₀ s) (p : Nat) (flit : List Byte) : Keeps s₀ (s.goodFlit p flit) := by
  unfold State.goodFlit
  grind [fields, modPort, resend, each, packetIn, sendAck]

theorem trainFail (hk : Keeps s₀ s) (p err : Nat) : Keeps s₀ (s.trainFail p err) := by
  unfold State.trainFail
  grind [fields, modPort]

theorem headPacket (hk : Keeps s₀ s) {p typ : Nat} {k : Packet} {u : State} (e : s.headPacket p typ = some (k, u)) :
    Keeps s₀ u := by
  unfold State.headPacket at e
  grind [modPort]

theorem badPacket (hk : Keeps s₀ s) : Keeps s₀ s.badPacket := by
  unfold State.badPacket
  grind [fields, count]

theorem remoteData (hk : Keeps s₀ s) (k : Packet) (x : Option (List Byte)) : Keeps s₀ (s.remoteData k x) := by
  unfold State.remoteData
  grind [fields, inData, respondRemote]

theorem remoteSignal (hk : Keeps s₀ s) (k : Packet) : Keeps s₀ (s.remoteSignal k) := by
  unfold State.remoteSignal
  grind [fields, inSignal, respondRemote]

theorem endReq (hk : Keeps s₀ s) (q : OutReq) : Keeps s₀ (s.endReq q) := by
  unfold State.endReq
  grind [fields]

theorem wacked (hk : Keeps s₀ s) (q : OutReq) : Keeps s₀ (s.wacked q) := by
  unfold State.wacked
  grind [fields, endReq, modChan, rowEnd]

theorem gathered (hk : Keeps s₀ s) (q : OutReq) (c ch : Nat) (bs : List Byte) : Keeps s₀ (s.gathered q c ch bs) := by
  unfold State.gathered
  grind [fields, endReq, mesh, modChan, gatherRow]

theorem readBack (hs : Keeps s₀ s) (ht : Keeps s₀ t) (q : OutReq) (bs : List Byte) : Keeps s₀ (s.readBack t q bs) := by
  unfold State.readBack
  grind (gen := 40) (ematch := 40) [gathered, dmaPut, endReq, mesh, modChan, rowDone, dropReqs, modCore]

theorem reqRefused (hk : Keeps s₀ s) (q : OutReq) (code detail : Nat) : Keeps s₀ (s.reqRefused q code detail) := by
  unfold State.reqRefused
  grind [fields, endReq, coreEvent, dropReqs, chanFault, modSeq]

theorem onGroup (hk : Keeps s₀ s) (k : Packet) (fromParent : Bool) (f : Group → State) (hf : ∀ x, Keeps s₀ (f x)) :
    Keeps s₀ (s.onGroup k fromParent f) := by
  unfold State.onGroup
  grind [badPacket, abortGroup]

theorem sumIn (hk : Keeps s₀ s) (k : Packet) : Keeps s₀ (s.sumIn k) := by
  unfold State.sumIn
  grind [fields, badPacket, arrival, modRound, roundStep]

theorem resultIn (hk : Keeps s₀ s) (k : Packet) : Keeps s₀ (s.resultIn k) := by
  unfold State.resultIn
  grind [fields, badPacket, modRound, writeSlot, stageRound]

theorem abortIn (hk : Keeps s₀ s) (k : Packet) : Keeps s₀ (s.abortIn k) := by
  unfold State.abortIn
  grind [fields, badPacket, abortGroup, toKids, endRounds, toParent]

theorem openGroup (hk : Keeps s₀ s) (r : Req) (g epoch : Nat) : Keeps s₀ (s.openGroup r g epoch) := by
  unfold State.openGroup
  grind [fields, access, modGroup]

/-! ### Tenants -/

theorem setTenant (hk : Keeps s₀ s) (i : Nat) (r : Tenant) : Keeps s₀ (s.setTenant i r) := by
  unfold State.setTenant
  grind [fields]

theorem clearTenant (hk : Keeps s₀ s) (i : Nat) : Keeps s₀ (s.clearTenant i) := by
  unfold State.clearTenant
  grind [fields, setTenant, each, killSession]

/-! ### Registers -/

theorem readClear (hk : Keeps s₀ s) (x : RegRef) (v : W32) : Keeps s₀ (s.readClear x v) := by
  unfold State.readClear
  grind [fields, setRgHi, setRg]

theorem latchFor (hk : Keeps s₀ s) (x : RegRef) : Keeps s₀ (s.latchFor x) := by
  unfold State.latchFor
  grind [fields]

theorem freeRead (hk : Keeps s₀ s) (x : RegRef) : Keeps s₀ (s.freeRead x) := by
  unfold State.freeRead
  grind [fields]

theorem ungateFor (hk : Keeps s₀ s) (x : RegRef) : Keeps s₀ (s.ungateFor x) := by
  unfold State.ungateFor
  grind [fields, ungate]

theorem regRead (hk : Keeps s₀ s) (r : Req) (a size : Nat) : Keeps s₀ (s.regRead r a size).2 := by
  unfold State.regRead
  grind [fields, refuse, latchFor, readClear, freeRead, ungateFor]

theorem storeRw (hk : Keeps s₀ s) (x : RegRef) (v : W32) : Keeps s₀ (s.storeRw x v) := by
  unfold State.storeRw
  grind [fields, setRg, setRgHi]

theorem onBit (hk : Keeps s₀ s) (v i : Nat) (f : State → State) (hf : ∀ t, Keeps s₀ t → Keeps s₀ (f t)) :
    Keeps s₀ (s.onBit v i f) := by
  unfold State.onBit
  grind [refl]

theorem coreAct (hk : Keeps s₀ s) {r : Req} {x : RegRef} {v : Nat} {u : State} (e : s.coreAct r x v = some u) : Keeps s₀ u := by
  unfold State.coreAct at e
  grind [onBit, cntclr, declare, dmaGo, dmaHalt, seqGoAct, seqStopAct, seqClrAct]

theorem memAct (hk : Keeps s₀ s) {r : Req} {x : RegRef} {v : Nat} {u : State} (e : s.memAct r x v = some u) : Keeps s₀ u := by
  unfold State.memAct at e
  grind [onBit, bumpDisp, rewindDisp, disarmDisp, pantryStart, cntsel, fillGo, haltFill, trlGo, portTrain, portDown,
    openGroup, abortGroup]

theorem quadActs (hk : Keeps s₀ s) (r : Req) (v : Nat) : Keeps s₀ (s.quadActs r v) := by
  unfold State.quadActs
  grind [fields, each, access, onBit, qoffAct, qonAct]

theorem hubAct (hk : Keeps s₀ s) {r : Req} {x : RegRef} {v : Nat} {u : State} (e : s.hubAct r x v = some u) : Keeps s₀ u := by
  unfold State.hubAct at e
  grind [onBit, killSession, setTenant, clearTenant, setRg, advance, resetPart, debugGo, attestGo, quadActs, d3Act,
    setSessBudget, setRdidx, warmReset, quiesceCore, enableCore, forceCore]

theorem regEffect (hk : Keeps s₀ s) (r : Req) (x : RegRef) (v : W32) : Keeps s₀ (s.regEffect r x v) := by
  unfold State.regEffect
  cases core : s.coreAct r x v.toNat with
  | some t => exact hk.coreAct core
  | none =>
    cases mem : s.memAct r x v.toNat with
    | some t => exact hk.memAct mem
    | none =>
      cases hub : s.hubAct r x v.toNat with
      | some t => exact hk.hubAct hub
      | none => exact hk.storeRw x v

theorem writeReg (hk : Keeps s₀ s) (r : Req) (x : RegRef) (v : W32) : Keeps s₀ (s.writeReg r x v) := by
  unfold State.writeReg
  grind [fields, ungateFor, access, regEffect]

theorem regWrite (hk : Keeps s₀ s) (r : Req) (a size : Nat) (v : W32) : Keeps s₀ (s.regWrite r a size v).2 := by
  unfold State.regWrite
  grind [fields, refuse, writeReg]

theorem readTo (hk : Keeps s₀ s) (r : Req) (a size : Nat) : Keeps s₀ (s.readTo r a size) := by
  unfold State.readTo
  grind [fields, regRead, send]

theorem rowTo (hk : Keeps s₀ s) (c ch : Nat) (bs : List Byte) : Keeps s₀ (s.rowTo c ch bs) := by
  unfold State.rowTo
  grind [fields, regWrite, rowDone, chanFault, dmaPut]

theorem regRow (hk : Keeps s₀ s) (c ch : Nat) : Keeps s₀ (s.regRow c ch) := by
  unfold State.regRow
  grind [fields, rowTo, regRead, remoteRow, chanFault, readMem, chanNo]

theorem i3cBytes (hk : Keeps s₀ s) (off n : Nat) : Keeps s₀ (s.i3cBytes off n).2 := by
  unfold State.i3cBytes
  refine gather hk _ _ _ fun st i h => ?_
  extract_lets o
  split
  · have read := h.regRead .porch (Blk.prc.base + o) 4
    split <;> next e => exact (e ▸ read :)
  · exact h.draw

/-! ### Ethernet -/

theorem filtered (hk : Keeps s₀ s) (p : Nat) (f : Frame) : Keeps s₀ (s.filtered p f).2 := by
  unfold State.filtered
  grind [fields, draw]

theorem takeAck (hk : Keeps s₀ s) (n : Nat) (h : HxtFrame) : Keeps s₀ (s.takeAck n h) := by
  unfold State.takeAck
  grind [fields, freeCtx, modSess, flushOut, foldl]

theorem rekeyDue (hk : Keeps s₀ s) (n was : Nat) : Keeps s₀ (s.rekeyDue n was) := by
  unfold State.rekeyDue
  grind [fields, log]

theorem queueFrame (hk : Keeps s₀ s) (port : Nat) (h : HxtFrame) : Keeps s₀ (s.queueFrame port h) := by
  unfold State.queueFrame
  grind [fields]

theorem owesAck (hk : Keeps s₀ s) (n : Nat) : Keeps s₀ (s.owesAck n) := by
  unfold State.owesAck
  grind [fields, modSess]

theorem window (hk : Keeps s₀ s) (port n : Nat) (h : HxtFrame) : Keeps s₀ (s.window port n h) := by
  unfold State.window
  grind (gen := 40) (ematch := 40) [fields, owesAck, count, takeAck, modSess, rekeyDue, queueFrame]

theorem hxtAccept (hk : Keeps s₀ s) (port : Nat) (h : HxtFrame) (bytes : Nat) : Keeps s₀ (s.hxtAccept port h bytes) := by
  unfold State.hxtAccept
  grind [fields, queueFrame, count, window]

theorem ethIn (hk : Keeps s₀ s) (p : Nat) (f : Frame) : Keeps s₀ (s.ethIn p f) := by
  unfold State.ethIn
  grind [fields, count, filtered, hxtAccept, egress]

theorem ethSram (hk : Keeps s₀ s) (p : Nat) (f : Frame) (e : SramErr) : Keeps s₀ (s.ethSram p f e).2 := by
  cases e <;> unfold State.ethSram <;> grind [sramCeHub, log, killSession, devEvent]

/-! ### Sessions -/

theorem takeFrame (hk : Keeps s₀ s) {p : Nat × HxtFrame → Bool} {x : Nat × HxtFrame} {u : State}
    (e : s.takeFrame p = some (x, u)) : Keeps s₀ u := by
  unfold State.takeFrame at e
  grind [fields]

theorem openNo (hk : Keeps s₀ s) (port n code : Nat) : Keeps s₀ (s.openNo port n code) := by
  unfold State.openNo
  grind [fields, reply]

theorem openAnswer (hk : Keeps s₀ s) (port n tid : Nat) (pl : List Byte) : Keeps s₀ (s.openAnswer port n tid pl).2 := by
  unfold State.openAnswer
  grind [fields, draw, identitySign]

theorem halfContext (hk : Keeps s₀ s) (port n tid : Nat) (pl resp : List Byte) (eph : Nat) :
    Keeps s₀ (s.halfContext port n tid pl resp eph) := by
  unfold State.halfContext
  grind [fields, modSess]

theorem openNew (hk : Keeps s₀ s) (port n : Nat) (pl : List Byte) : Keeps s₀ (s.openNew port n pl) := by
  unfold State.openNew
  grind [fields, openNo, openAnswer, halfContext, reply]

theorem openResume (hk : Keeps s₀ s) (port n : Nat) (pl : List Byte) : Keeps s₀ (s.openResume port n pl) := by
  unfold State.openResume
  grind [fields, openAnswer, modSess, reply, openNo]

theorem authFails (hk : Keeps s₀ s) (port n : Nat) : Keeps s₀ (s.authFails port n) := by
  unfold State.authFails
  grind [fields, reply, count, freeCtx, modSess, flushOut, devEvent]

theorem authOpens (hk : Keeps s₀ s) (n : Nat) (auth : List Byte) : Keeps s₀ (s.authOpens n auth) := by
  unfold State.authOpens
  grind [fields, modSess, post]

theorem authResumes (hk : Keeps s₀ s) (n : Nat) (auth : List Byte) : Keeps s₀ (s.authResumes n auth) := by
  unfold State.authResumes
  grind [fields, dropFrames, dropStalls, modSess, post, foldl]

theorem authAgain (hk : Keeps s₀ s) (n : Nat) : Keeps s₀ (s.authAgain n) := by
  unfold State.authAgain
  grind [fields, modSess, sendMsg]

theorem reread (hk : Keeps s₀ s) (n a len : Nat) : Keeps s₀ (s.reread n a len).2 := by
  unfold State.reread
  dsimp only
  split
  · exact hk.cellarRead ..
  · exact hk
  · grind [debugRead]
  · refine gather hk _ _ _ fun st i h => ?_
    grind [regRead]

theorem retransmit (hk : Keeps s₀ s) (n : Nat) (m : OutMsg) : Keeps s₀ (s.retransmit n m) := by
  unfold State.retransmit
  grind [fields, reread, modSess, sendMsg]

/-! ### Messages -/

theorem rangeNo (hk : Keeps s₀ s) {n a len : Nat} {wr : Bool} {x : Nat × State} (e : s.rangeNo n a len wr = some x) :
    Keeps s₀ x.2 := by
  unfold State.rangeNo at e
  dsimp only at e
  split at e <;> grind [refuse, winRefuse, cellarRefuse, Option.bind_eq_some_iff]

theorem placeAt (hk : Keeps s₀ s) (n q a pos : Nat) (bs : List Byte) : Keeps s₀ (s.placeAt n q a pos bs) := by
  unfold State.placeAt
  grind [fields, inData, writeCellar, regWrite, foldl]

theorem noteRefusal (n q pos a : Nat) {x : Nat × State} (hk : Keeps s₀ x.2) : Keeps s₀ (s.noteRefusal n q pos a x) := by
  unfold State.noteRefusal
  exact hk.modMsg _ _ _

theorem placeFragment (hk : Keeps s₀ s) (n q a pos : Nat) (bs : List Byte) : Keeps s₀ (s.placeFragment n q a pos bs) := by
  unfold State.placeFragment
  split
  · exact hk
  · cases e : s.rangeNo n a bs.length true with
    | some x => exact noteRefusal _ _ _ _ (hk.rangeNo e)
    | none => cases s.imageHeld a bs.length with
      | some x => exact (hk.refuse _ _).modMsg _ _ _
      | none => exact hk.placeAt _ _ _ _ _

theorem writeBegins (hk : Keeps s₀ s) (n q len a : Nat) : Keeps s₀ (s.writeBegins n q len a) := by
  unfold State.writeBegins
  have begun := hk.modMsg n q (fun m => { m with begun := true })
  dsimp only
  split
  · exact begun.modMsg _ _ _
  split
  · exact begun
  split
  next x e => exact (noteRefusal n q 8 a (begun.rangeNo e)).modMsg _ _ _
  · exact begun

theorem readLines (hk : Keeps s₀ s) (n q a len : Nat) : Keeps s₀ (s.readLines n q a len) := by
  unfold State.readLines
  grind [fields, readCellar, modMsg, foldl]

theorem readAt (hk : Keeps s₀ s) (n q a len : Nat) : Keeps s₀ (s.readAt n q a len) := by
  unfold State.readAt
  grind [fields, inData, readLines, modMsg, regRead, foldl]

theorem readBegins (hk : Keeps s₀ s) (n : Nat) (m : InMsg) (de : LineErrs) : Keeps s₀ (s.readBegins n m de) := by
  unfold State.readBegins
  have begun := hk.modMsg n m.seq (fun m => { m with begun := true })
  dsimp only
  split
  · exact begun.modMsg _ _ _
  split
  next x e => exact noteRefusal n m.seq 4 _ (begun.rangeNo e)
  · exact (begun.readErrs _ _).readAt _ _ _ _

theorem finishMsg (hk : Keeps s₀ s) (n : Nat) (m : InMsg) : Keeps s₀ (s.finishMsg n m) := by
  unfold State.finishMsg
  grind [fields, modSess, post]

theorem killMsg (hk : Keeps s₀ s) (n : Nat) (m : InMsg) : Keeps s₀ (s.killMsg n m) := by
  unfold State.killMsg
  grind [fields, endMsg, resetPart, killSession]

theorem closeMsg (hk : Keeps s₀ s) (n : Nat) (m : InMsg) : Keeps s₀ (s.closeMsg n m) := by
  unfold State.closeMsg
  grind [fields, endMsg, dropSession]

theorem statMsg (hk : Keeps s₀ s) (n : Nat) (m : InMsg) : Keeps s₀ (s.statMsg n m) := by
  unfold State.statMsg
  grind [fields, endMsg, modSess, post]

theorem fenceMsg (hk : Keeps s₀ s) (n : Nat) (m : InMsg) : Keeps s₀ (s.fenceMsg n m) := by
  unfold State.fenceMsg
  grind [fields, endMsg]

theorem ringEntry (hk : Keeps s₀ s) (n : Nat) (e : List Byte) : Keeps s₀ (s.ringEntry n e).2 := by
  unfold State.ringEntry
  grind [fields, refuse, access, ungate, store, modCore, seqGoAct]

theorem regEntry (hk : Keeps s₀ s) (n : Nat) (e : List Byte) : Keeps s₀ (s.regEntry n e).2 := by
  unfold State.regEntry
  grind [fields, regWrite]

theorem signalEntry (hk : Keeps s₀ s) (n : Nat) (e : List Byte) : Keeps s₀ (s.signalEntry n e).2 := by
  unfold State.signalEntry
  grind [fields, refuse, winRefuse, ungate, slotRelease, slotFull]

theorem apertureEntry (hk : Keeps s₀ s) (n : Nat) (e : List Byte) : Keeps s₀ (s.apertureEntry n e).2 := by
  unfold State.apertureEntry
  grind [fields, modSess]

theorem bindEntry (hk : Keeps s₀ s) (n : Nat) (e : List Byte) : Keeps s₀ (s.bindEntry n e).2 := by
  unfold State.bindEntry
  grind [fields, newKey]

theorem entry (hk : Keeps s₀ s) (n kind : Nat) (e : List Byte) : Keeps s₀ (s.entry n kind e).2 := by
  unfold State.entry
  grind [fields, ringEntry, regEntry, signalEntry, apertureEntry, bindEntry]

theorem entries (hk : Keeps s₀ s) (n kind i : Nat) (l : List (List Byte)) :
    Keeps s₀ (s.entries n kind i l).2 := by
  induction l generalizing s i with
  | nil => simpa [State.entries] using hk
  | cons x l ih =>
    unfold State.entries
    grind [entry]

theorem submitMsg (hk : Keeps s₀ s) (n : Nat) (m : InMsg) : Keeps s₀ (s.submitMsg n m) := by
  unfold State.submitMsg
  grind [fields, endMsg, entries]

theorem orderedAct (hk : Keeps s₀ s) (n : Nat) (m : InMsg) : Keeps s₀ (s.orderedAct n m) := by
  unfold State.orderedAct
  grind [fields, fenceMsg, statMsg, killMsg, closeMsg, submitMsg]

theorem ordered (hk : Keeps s₀ s) (p : Nat × HxtFrame → Bool) : Keeps s₀ (s.ordered p) := by
  unfold State.ordered
  grind [fields, takeFrame, modMsg, modSess, orderedAct]

end Keeps

end Sys2Proof.Machine
end

section
set_option Elab.async false
/-! Each command keeps the queue, the form of memory and the fuses; so does every step. -/

namespace Sys2Proof.Machine

namespace Keeps
variable {s₀ s t : State}

theorem of_onPacket {p : PortId} {typ : Nat} {f : Packet → State → State} (hf : ∀ k u, Keeps s u → Keeps s (f k u))
    (e : s.onPacket p typ f = .next t) : Keeps s t := by
  unfold State.onPacket at e
  split at e
  · next k u hp => cases e; exact hf k u ((refl s).headPacket hp)
  · cases e; exact refl s

/-! ### Array -/

theorem of_execBrickStepBegin {c : CoreId} {b : BrickId} {promo : Nat} {e : SramErr}
    (e : execBrickStepBegin c b promo e s = .next t) : Keeps s t := by
  have hk := Keeps.refl s
  unfold execBrickStepBegin at e
  grind [fields, opsReady, vectorErr, beginStep]

theorem of_execBrickStepComplete {c : CoreId} {b : BrickId} (e : execBrickStepComplete c b s = .next t) : Keeps s t := by
  have hk := Keeps.refl s
  unfold execBrickStepComplete at e
  grind (gen := 40) (ematch := 40) (splits := 40) [fields, modArr, count64, act, passDone]

theorem of_execBrickSwap {c : CoreId} {b : BrickId} {full : Nat} (e : execBrickSwap c b full s = .next t) : Keeps s t := by
  have hk := Keeps.refl s
  unfold execBrickSwap at e
  grind [fields, sideReady, modArr, act]

theorem of_execAnchorTableWritten {c : CoreId} {h : Handle} {step : Nat} {at_ : Nat}
    (e : execAnchorTableWritten c h step at_ s = .next t) : Keeps s t := by
  have hk := Keeps.refl s
  unfold execAnchorTableWritten at e
  grind [fields, anchored, scalesReady, preRead, modTile, flagTile, anchorWrite]

theorem of_execGroupPartialAdd {c : CoreId} {h : Handle} {step group pass : Nat} {residue : List Nat} {e : SramErr}
    (e : execGroupPartialAdd c h step group pass residue e s = .next t) : Keeps s t := by
  have hk := Keeps.refl s
  unfold execGroupPartialAdd at e
  grind [fields, anchored, sramTile, addGroup, each, residueBad, modTile, accEnd]

theorem of_execArrCntclr {c : CoreId} (e : execArrCntclr c s = .next t) : Keeps s t := by
  have hk := Keeps.refl s
  unfold execArrCntclr at e
  grind [fields, cntclr]

/-! ### PantryOps -/

theorem of_execPantryWb {r : Req} {g : Fin 64} (e : execPantryWb r g s = .next t) : Keeps s t := by
  have hk := Keeps.refl s
  unfold execPantryWb at e
  grind [fields, atReg, pantryStart]

theorem of_execPantryWbinv {r : Req} {g : Fin 64} (e : execPantryWbinv r g s = .next t) : Keeps s t := by
  have hk := Keeps.refl s
  unfold execPantryWbinv at e
  grind [fields, atReg, pantryStart]

theorem of_execPantryInvz {r : Req} {g : Fin 64} (e : execPantryInvz r g s = .next t) : Keeps s t := by
  have hk := Keeps.refl s
  unfold execPantryInvz at e
  grind [fields, atReg, pantryStart]

theorem of_execPantryOpDone  (e : execPantryOpDone s = .next t) : Keeps s t := by
  have hk := Keeps.refl s
  unfold execPantryOpDone at e
  grind [fields, pantryDo, pantryNext]

theorem of_execPantryCntsel {r : Req} {g : Fin 64} (e : execPantryCntsel r g s = .next t) : Keeps s t := by
  have hk := Keeps.refl s
  unfold execPantryCntsel at e
  grind [fields, atReg, cntsel]

/-! ### SeedTray -/

theorem of_execDispenserPresent {c : CoreId} (e : execDispenserPresent c s = .next t) : Keeps s t := by
  have hk := Keeps.refl s
  unfold execDispenserPresent at e
  grind [fields, present]

theorem of_execDeferredArm {d : DispId} (e : execDeferredArm d s = .next t) : Keeps s t := by
  have hk := Keeps.refl s
  unfold execDeferredArm at e
  grind [fields, modDisp, present]

theorem of_execClaimServe {d : DispId} (e : execClaimServe d s = .next t) : Keeps s t := by
  have hk := Keeps.refl s
  unfold execClaimServe at e
  grind [fields, serveClaim]

theorem of_execCommitResolve {c : CoreId} {h : Handle} (e : execCommitResolve c h s = .next t) : Keeps s t := by
  have hk := Keeps.refl s
  unfold execCommitResolve at e
  grind [fields, stale, commitDone, accept, store, startStore]

theorem of_execPartialSumArrival {c : CoreId} {h : Handle} (e : execPartialSumArrival c h s = .next t) : Keeps s t := by
  have hk := Keeps.refl s
  unfold execPartialSumArrival at e
  grind [fields, modTile, modSeq]

theorem of_execBump {r : Req} {d : DispId} (e : execBump r d s = .next t) : Keeps s t := by
  have hk := Keeps.refl s
  unfold execBump at e
  grind [fields, atReg, bumpDisp]

theorem of_execRewind {r : Req} {d : DispId} (e : execRewind r d s = .next t) : Keeps s t := by
  have hk := Keeps.refl s
  unfold execRewind at e
  grind [fields, atReg, rewindDisp]

theorem of_execDisarm {r : Req} {d : DispId} (e : execDisarm r d s = .next t) : Keeps s t := by
  have hk := Keeps.refl s
  unfold execDisarm at e
  grind [fields, atReg, disarmDisp]

/-! ### Trellis -/

theorem of_execTrlGo {r : Req} {flash : Bool} (e : execTrlGo r flash s = .next t) : Keeps s t := by
  have hk := Keeps.refl s
  unfold execTrlGo at e
  grind [fields, atReg, trlGo]

theorem of_execTrlImageReadDone {flash : List Byte} (e : execTrlImageReadDone flash s = .next t) : Keeps s t := by
  have hk := Keeps.refl s
  unfold execTrlImageReadDone at e
  grind [fields, refuseLoad]

theorem of_execTrlVerifyDone  (e : execTrlVerifyDone s = .next t) : Keeps s t := by
  have hk := Keeps.refl s
  unfold execTrlVerifyDone at e
  grind [fields, refuseLoad, beginQuiesce, resetAll, fullGoesOn]

theorem of_execCellarTrainDone {failed : List (Fin 16)} (e : execCellarTrainDone failed s = .next t) : Keeps s t := by
  have hk := Keeps.refl s
  unfold execCellarTrainDone at e
  grind [fields, cellarTrained, applyFull]

theorem of_execQuiescePoint  (e : execQuiescePoint s = .next t) : Keeps s t := by
  have hk := Keeps.refl s
  unfold execQuiescePoint at e
  grind [fields, failLoad, passQuiesce]

theorem of_execQuiesceTimeout  (e : execQuiesceTimeout s = .next t) : Keeps s t := by
  have hk := Keeps.refl s
  unfold execQuiesceTimeout at e
  grind [fields, failLoad]

theorem of_execPartitionApplyDone  (e : execPartitionApplyDone s = .next t) : Keeps s t := by
  have hk := Keeps.refl s
  unfold execPartitionApplyDone at e
  grind [fields, applyPart, endPartial, runDeferred]

/-! ### Output -/

theorem of_execOutputChunk {c : CoreId} {h : Handle} {denied : Nat} {e : SramErr}
    (e : execOutputChunk c h denied e s = .next t) : Keeps s t := by
  have hk := Keeps.refl s
  unfold execOutputChunk at e
  grind [fields, passChunk, sramOut]

theorem of_execOutputPathEnd {c : CoreId} {h : Handle} (e : execOutputPathEnd c h s = .next t) : Keeps s t := by
  have hk := Keeps.refl s
  unfold execOutputPathEnd at e
  grind [fields, fuseRows, putEmpty, flagTile, count, modTile, tileEvent, pathEnd]

/-! ### Vector -/

theorem of_execProgramStoreLoad {c : CoreId} (e : execProgramStoreLoad c s = .next t) : Keeps s t := by
  have hk := Keeps.refl s
  unfold execProgramStoreLoad at e
  grind [fields, engRead, stallOn, modVec, modCtx]

theorem of_execEngineQueueAdmit {c : CoreId} {e : Engine} (e : execEngineQueueAdmit c e s = .next t) : Keeps s t := by
  have hk := Keeps.refl s
  unfold execEngineQueueAdmit at e
  grind [fields, enqueue, seqDone]

theorem of_execVprogStart {c : CoreId} (e : execVprogStart c s = .next t) : Keeps s t := by
  have hk := Keeps.refl s
  unfold execVprogStart at e
  grind [fields, jobTouch, modVec, modSeq]

theorem of_execVprogDone {c : CoreId} (e : execVprogDone c s = .next t) : Keeps s t := by
  have hk := Keeps.refl s
  unfold execVprogDone at e
  grind [fields, jobTouch, vprogFinish, jobRelease, endJob]

theorem of_execRakeDone {c : CoreId} (e : execRakeDone c s = .next t) : Keeps s t := by
  have hk := Keeps.refl s
  unfold execRakeDone at e
  grind [fields, jobTouch, combine, jobRelease, endJob, putRecs, act, latchSummary]

theorem of_execConvDone {c : CoreId} (e : execConvDone c s = .next t) : Keeps s t := by
  have hk := Keeps.refl s
  unfold execConvDone at e
  grind [fields, jobTouch, freeConv, putStream, endJob]

theorem of_execSortDone {c : CoreId} (e : execSortDone c s = .next t) : Keeps s t := by
  have hk := Keeps.refl s
  unfold execSortDone at e
  grind [fields, jobTouch, jobWrite, endJob]

/-! ### Security -/

theorem of_execRollbackAdvance {r : Req} {i : Fin 64} (e : execRollbackAdvance r i s = .next t) : Keeps s t := by
  have hk := Keeps.refl s
  unfold execRollbackAdvance at e
  grind [fields, atReg, advance]

theorem of_execPartitionKill {r : Req} {p : PartId} (e : execPartitionKill r p s = .next t) : Keeps s t := by
  have hk := Keeps.refl s
  unfold execPartitionKill at e
  grind [fields, atReg, resetPart]

theorem of_execKillScrubDone {p : PartId} (e : execKillScrubDone p s = .next t) : Keeps s t := by
  have hk := Keeps.refl s
  unfold execKillScrubDone at e
  grind [fields, scrubbed]

theorem of_execDebugUnlock {r : Req} (e : execDebugUnlock r s = .next t) : Keeps s t := by
  have hk := Keeps.refl s
  unfold execDebugUnlock at e
  grind [fields, atReg, debugGo]

theorem of_execDebugTokenCheckDone  (e : execDebugTokenCheckDone s = .next t) : Keeps s t := by
  have hk := Keeps.refl s
  unfold execDebugTokenCheckDone at e
  grind [fields, secFields, Sec.Burns.fields, beginVendor, openOwner]

theorem of_execVendorUnlockEffect  (e : execVendorUnlockEffect s = .next t) : Keeps s t := by
  have hk := Keeps.refl s
  unfold execVendorUnlockEffect at e
  grind [fields, secFields, Sec.Burns.fields, attest]

theorem of_execDebugExpiry  (e : execDebugExpiry s = .next t) : Keeps s t := by
  have hk := Keeps.refl s
  unfold execDebugExpiry at e
  grind [fields, closeDebug]

theorem of_execAttestationReport {r : Req} (e : execAttestationReport r s = .next t) : Keeps s t := by
  have hk := Keeps.refl s
  unfold execAttestationReport at e
  grind [fields, atReg, attestGo]

theorem of_execAttestationDone  (e : execAttestationDone s = .next t) : Keeps s t := by
  have hk := Keeps.refl s
  unfold execAttestationDone at e
  grind [fields, secFields, Sec.Burns.fields, identitySign, writeCellar]

/-! ### Reset -/

theorem of_execColdReset {mods : List (Fin 16 × Module)} (e : execColdReset mods s = .next t) : Keeps s t := by
  have hk := Keeps.refl s
  unfold execColdReset at e
  grind [fields, coldBase]

theorem of_execPorstNAssert  (e : execPorstNAssert s = .next t) : Keeps s t := by
  have hk := Keeps.refl s
  unfold execPorstNAssert at e
  grind [fields, coldBase]

theorem of_execStandbyPowerLoss  (e : execStandbyPowerLoss s = .next t) : Keeps s t := by
  have hk := Keeps.refl s
  unfold execStandbyPowerLoss at e
  grind [fields, coldBase]

/-- Bits that are set stay set under an OR. -/
theorem or_and_left_self {n : Nat} (x y : BitVec n) : (x ||| y) &&& x = x := by
  refine BitVec.eq_of_getLsbD_eq fun i _ => ?_
  rw [BitVec.getLsbD_and, BitVec.getLsbD_or]
  cases x.getLsbD i
  · exact Bool.and_false _
  · rfl

theorem of_execProvisionOwner {hash : BitVec 512} (e : execProvisionOwner hash s = .next t) : Keeps s t := by
  unfold execProvisionOwner at e
  have h : s.sec.Burns { s.sec with ownerHash := s.sec.ownerHash ||| hash, lc := s.sec.lc ||| 2 } :=
    ⟨fun _ => Nat.le_refl _, or_and_left_self _ _, or_and_left_self _ _, rfl⟩
  split at e <;> cases e
  · exact ((refl s).secFields h).coldBase _
  · exact refl s

theorem of_execDecommission (e : execDecommission s = .next t) : Keeps s t := by
  have h : s.sec.Burns { s.sec with lc := s.sec.lc ||| 4 } :=
    ⟨fun _ => Nat.le_refl _, BitVec.and_self, or_and_left_self _ _, rfl⟩
  cases e
  exact (refl s).secFields h

theorem of_execWarmReset {r : Req} {alsoPreset : Bool} (e : execWarmReset r alsoPreset s = .next t) : Keeps s t := by
  have hk := Keeps.refl s
  unfold execWarmReset at e
  grind [fields, atReg, access, warmReset]

theorem of_execWrstPin {pclk : Nat} (e : execWrstPin pclk s = .next t) : Keeps s t := by
  have hk := Keeps.refl s
  unfold execWrstPin at e
  grind [fields, warmReset]

theorem of_execHubWatchdog  (e : execHubWatchdog s = .next t) : Keeps s t := by
  have hk := Keeps.refl s
  unfold execHubWatchdog at e
  grind [fields, dEvent, warmReset]

theorem of_execPartitionReset {r : Req} {p : PartId} (e : execPartitionReset r p s = .next t) : Keeps s t := by
  have hk := Keeps.refl s
  unfold execPartitionReset at e
  grind [fields, atReg, resetPart]

theorem of_execEvtRdidxWrite {r : Req} {v : W32} (e : execEvtRdidxWrite r v s = .next t) : Keeps s t := by
  have hk := Keeps.refl s
  unfold execEvtRdidxWrite at e
  grind [fields, atReg, setRdidx]

/-! ### Power -/

theorem of_execQuadGate {q : QuadId} (e : execQuadGate q s = .next t) : Keeps s t := by
  have hk := Keeps.refl s
  unfold execQuadGate at e
  grind [fields, setQuad]

theorem of_execQuadUngate {q : QuadId} (e : execQuadUngate q s = .next t) : Keeps s t := by
  have hk := Keeps.refl s
  unfold execQuadUngate at e
  grind [fields, setQuad]

theorem of_execQoff {r : Req} {q : QuadId} {alsoOn : Bool} (e : execQoff r q alsoOn s = .next t) : Keeps s t := by
  have hk := Keeps.refl s
  unfold execQoff at e
  grind [fields, atReg, qoffAct]

theorem of_execQon {r : Req} {q : QuadId} {alsoOff : Bool} (e : execQon r q alsoOff s = .next t) : Keeps s t := by
  have hk := Keeps.refl s
  unfold execQon at e
  grind [fields, atReg, qonAct]

theorem of_execQuadPowerOnDone {q : QuadId} (e : execQuadPowerOnDone q s = .next t) : Keeps s t := by
  have hk := Keeps.refl s
  unfold execQuadPowerOnDone at e
  grind [fields, each, wipeCore, writeCoreImg, setQuad, devEvent]

theorem of_execD3Request {r : Req} (e : execD3Request r s = .next t) : Keeps s t := by
  have hk := Keeps.refl s
  unfold execD3Request at e
  grind [fields, atReg, d3Act]

theorem of_execD3EntryDone  (e : execD3EntryDone s = .next t) : Keeps s t := by
  have hk := Keeps.refl s
  unfold execD3EntryDone at e
  grind [fields, enterD3, beginWake]

theorem of_execWakePin {pclk : Nat} (e : execWakePin pclk s = .next t) : Keeps s t := by
  have hk := Keeps.refl s
  unfold execWakePin at e
  grind [fields, wake]

theorem of_execWakeTimer  (e : execWakeTimer s = .next t) : Keeps s t := by
  have hk := Keeps.refl s
  unfold execWakeTimer at e
  grind [fields, wake]

theorem of_execD3WakeDone  (e : execD3WakeDone s = .next t) : Keeps s t := by
  have hk := Keeps.refl s
  unfold execD3WakeDone at e
  grind [fields, devEvent, startPorts]

theorem of_execRailInTolerance {rail : Fin 10} (e : execRailInTolerance rail s = .next t) : Keeps s t := by
  have hk := Keeps.refl s
  unfold execRailInTolerance at e
  grind [fields, railNext]

theorem of_execRailSequenceTimeout {rail : Fin 10} (e : execRailSequenceTimeout rail s = .next t) : Keeps s t := by
  have hk := Keeps.refl s
  unfold execRailSequenceTimeout at e
  grind [fields, secFields, Sec.Burns.fields, railsOff, dEvent, railOff, setQuad]

theorem of_execAvsUpdate {q : QuadId} {targetMv : Nat} (e : execAvsUpdate q targetMv s = .next t) : Keeps s t := by
  have hk := Keeps.refl s
  unfold execAvsUpdate at e
  grind [fields, send]

theorem of_execPmbusAlert {pclk : Nat} {faults : List (Fin 10)} (e : execPmbusAlert pclk faults s = .next t) : Keeps s t := by
  have hk := Keeps.refl s
  unfold execPmbusAlert at e
  grind [fields, each, dEvent]

theorem of_execSensorSample {x : Readings} (e : execSensorSample x s = .next t) : Keeps s t := by
  have hk := Keeps.refl s
  unfold execSensorSample at e
  grind [fields, filterAll, trip, railCheck, capStep]

theorem of_execThermalStepTick  (e : execThermalStepTick s = .next t) : Keeps s t := by
  have hk := Keeps.refl s
  unfold execThermalStepTick at e
  grind [fields, devEvent, foldl]

theorem of_execProchotIn {pclk : Nat} (e : execProchotIn pclk s = .next t) : Keeps s t := by
  have hk := Keeps.refl s
  unfold execProchotIn at e
  grind [fields]

theorem of_execProchotNRelease  (e : execProchotNRelease s = .next t) : Keeps s t := by
  have hk := Keeps.refl s
  unfold execProchotNRelease at e
  grind [fields]

theorem of_execPtpSync {x : Sync} (e : execPtpSync x s = .next t) : Keeps s t := by
  have hk := Keeps.refl s
  unfold execPtpSync at e
  grind [fields]

theorem of_execPtpSyncLoss  (e : execPtpSyncLoss s = .next t) : Keeps s t := by
  have hk := Keeps.refl s
  unfold execPtpSyncLoss at e
  grind [fields]

/-! ### MeterOps -/

theorem of_execMeterCharge  (e : execMeterCharge s = .next t) : Keeps s t := by
  have hk := Keeps.refl s
  unfold execMeterCharge at e
  grind [fields, each, chargeCore, charge]

theorem of_execCalscaleUpdate {railsEnergy packageEnergy : Nat}
    (e : execCalscaleUpdate railsEnergy packageEnergy s = .next t) : Keeps s t := by
  have hk := Keeps.refl s
  unfold execCalscaleUpdate at e
  grind [fields]

theorem of_execBudgetWindowBoundary {session : Bool} {i : Nat} (e : execBudgetWindowBoundary session i s = .next t) :
    Keeps s t := by
  have hk := Keeps.refl s
  unfold execBudgetWindowBoundary at e
  grind [fields, sessBoundary, partBoundary]

theorem of_execSessionBudgetWrite {r : Req} {lo : Bool} {v : W32} (e : execSessionBudgetWrite r lo v s = .next t) :
    Keeps s t := by
  have hk := Keeps.refl s
  unfold execSessionBudgetWrite at e
  grind [fields, atReg, setSessBudget]

/-! ### Dma -/

theorem of_execDmaGo {r : Req} {c : CoreId} {ch : ChanId} (e : execDmaGo r c ch s = .next t) : Keeps s t := by
  have hk := Keeps.refl s
  unfold execDmaGo at e
  grind [fields, atReg, dmaGo]

theorem of_execDmaHalt {r : Req} {c : CoreId} {ch : ChanId} (e : execDmaHalt r c ch s = .next t) : Keeps s t := by
  have hk := Keeps.refl s
  unfold execDmaHalt at e
  grind [fields, atReg, dmaHalt]

theorem of_execDmaDescriptorComplete {c : CoreId} {ch : ChanId} (e : execDmaDescriptorComplete c ch s = .next t) :
    Keeps s t := by
  have hk := Keeps.refl s
  unfold execDmaDescriptorComplete at e
  grind [fields, slotFull, slotRelease, modChan, loadDesc, idle]

theorem of_execStagingHalfRefill {c : CoreId} {h : Handle} {weight : Bool} {de : LineErrs}
    (e : execStagingHalfRefill c h weight de s = .next t) : Keeps s t := by
  have hk := Keeps.refl s
  unfold execStagingHalfRefill at e
  grind [fields, fetchStart, readErrs, refill, idle, chanHalt, fetchFailed]

/-! ### Sieve -/

theorem of_execImatchRowEnd {c : CoreId} {h : Handle} (e : execImatchRowEnd c h s = .next t) : Keeps s t := by
  have hk := Keeps.refl s
  unfold execImatchRowEnd at e
  grind (gen := 40) (ematch := 40) (splits := 40) [fields, idxOf, slotScales, imRow, stallOn, imLeave]

theorem of_execMergeTreeDone {c : CoreId} {cmd : Bool} (e : execMergeTreeDone c cmd s = .next t) : Keeps s t := by
  have hk := Keeps.refl s
  unfold execMergeTreeDone at e
  grind [fields, mergeJob, endJob, mergePass]

theorem of_execHubMergeDeliver {d : DispId} {row : Nat} (e : execHubMergeDeliver d row s = .next t) : Keeps s t := by
  have hk := Keeps.refl s
  unfold execHubMergeDeliver at e
  grind [fields, hubDeliver]

theorem of_execScoutPassDone {c : CoreId} {h : Handle} (e : execScoutPassDone c h s = .next t) : Keeps s t := by
  have hk := Keeps.refl s
  unfold execScoutPassDone at e
  grind [fields, scoutTest, arrLeave, scoutEnds, modArr, fullPass]

/-! ### TileCmds -/

theorem of_execSetprec {c : CoreId} (e : execSetprec c s = .next t) : Keeps s t := by
  have hk := Keeps.refl s
  unfold execSetprec at e
  grind [fields, seqRun, setprecCmd]

theorem of_execClaim {c : CoreId} (e : execClaim c s = .next t) : Keeps s t := by
  have hk := Keeps.refl s
  unfold execClaim at e
  grind [fields, seqRun, claimCmd]

theorem of_execLoadw {c : CoreId} (e : execLoadw c s = .next t) : Keeps s t := by
  have hk := Keeps.refl s
  unfold execLoadw at e
  grind [fields, loadCmd]

theorem of_execLoada {c : CoreId} (e : execLoada c s = .next t) : Keeps s t := by
  have hk := Keeps.refl s
  unfold execLoada at e
  grind [fields, loadCmd]

theorem of_execPreload {c : CoreId} (e : execPreload c s = .next t) : Keeps s t := by
  have hk := Keeps.refl s
  unfold execPreload at e
  grind [fields, seqRun, preloadCmd]

theorem of_execScout {c : CoreId} (e : execScout c s = .next t) : Keeps s t := by
  have hk := Keeps.refl s
  unfold execScout at e
  grind [fields, seqRun, scoutCmd]

theorem of_execStep {c : CoreId} (e : execStep c s = .next t) : Keeps s t := by
  have hk := Keeps.refl s
  unfold execStep at e
  grind [fields, seqRun, stepCmd]

theorem of_execTileOpen {c : CoreId} {h : Handle} (e : execTileOpen c h s = .next t) : Keeps s t := by
  have hk := Keeps.refl s
  unfold execTileOpen at e
  grind [fields, openTile]

theorem of_execDrain {c : CoreId} (e : execDrain c s = .next t) : Keeps s t := by
  have hk := Keeps.refl s
  unfold execDrain at e
  grind [fields, seqRun, drainCmd]

theorem of_execReducePart {c : CoreId} (e : execReducePart c s = .next t) : Keeps s t := by
  have hk := Keeps.refl s
  unfold execReducePart at e
  grind [fields, reduceCmd, modTile, modSeq, sendPart]

theorem of_execReduceSum {c : CoreId} (e : execReduceSum c s = .next t) : Keeps s t := by
  have hk := Keeps.refl s
  unfold execReduceSum at e
  grind [fields, reduceCmd, modTile, openTile]

theorem of_execReduceGroup {c : CoreId} (e : execReduceGroup c s = .next t) : Keeps s t := by
  have hk := Keeps.refl s
  unfold execReduceGroup at e
  grind [fields, reduceCmd, modTile]

theorem of_execContributionSend {c : CoreId} {h : Handle} (e : execContributionSend c h s = .next t) : Keeps s t := by
  have hk := Keeps.refl s
  unfold execContributionSend at e
  grind [fields, sendContribution]

theorem of_execCommit {c : CoreId} (e : execCommit c s = .next t) : Keeps s t := by
  have hk := Keeps.refl s
  unfold execCommit at e
  grind [fields, seqRun, commitCmd]

theorem of_execCommitSend {c : CoreId} {h : Handle} (e : execCommitSend c h s = .next t) : Keeps s t := by
  have hk := Keeps.refl s
  unfold execCommitSend at e
  grind [fields, modTile, setRg]

theorem of_execCommitStore {c : CoreId} {h : Handle} (e : execCommitStore c h s = .next t) : Keeps s t := by
  have hk := Keeps.refl s
  unfold execCommitStore at e
  extract_lets c h at e
  split at e
  · cases e; exact hk
  · simp only [] at e
    generalize spadBase c = a at e
    grind (gen := 40) (ematch := 40) [startStore, readMem, storeTile, chanHalt, modChan, commitDone, slotRelease, chanNo]

theorem of_execGaugeForce {c : CoreId} (e : execGaugeForce c s = .next t) : Keeps s t := by
  have hk := Keeps.refl s
  unfold execGaugeForce at e
  grind [fields, gaugeCmd]

theorem of_execGaugeSkip {c : CoreId} (e : execGaugeSkip c s = .next t) : Keeps s t := by
  have hk := Keeps.refl s
  unfold execGaugeSkip at e
  grind [fields, gaugeCmd]

/-! ### Quiesce -/

theorem of_execCoreQuiesce {r : Req} {c : CoreId} {force alsoEnable : Bool}
    (e : execCoreQuiesce r c force alsoEnable s = .next t) : Keeps s t := by
  have hk := Keeps.refl s
  unfold execCoreQuiesce at e
  grind [fields, atReg, access, quiesceCore]

theorem of_execCoreQuiesceForce {r : Req} {c : CoreId} (e : execCoreQuiesceForce r c s = .next t) : Keeps s t := by
  have hk := Keeps.refl s
  unfold execCoreQuiesceForce at e
  grind [fields, atReg, quiesceCore]

theorem of_execCoreQuiesceScrub {c : CoreId} (e : execCoreQuiesceScrub c s = .next t) : Keeps s t := by
  have hk := Keeps.refl s
  unfold execCoreQuiesceScrub at e
  grind [fields, each, modDisp, wipeCore, modCore]

theorem of_execCoreScrubDone {c : CoreId} (e : execCoreScrubDone c s = .next t) : Keeps s t := by
  have hk := Keeps.refl s
  unfold execCoreScrubDone at e
  grind [fields, modCore]

theorem of_execCoreEnable {r : Req} {c : CoreId} (e : execCoreEnable r c s = .next t) : Keeps s t := by
  have hk := Keeps.refl s
  unfold execCoreEnable at e
  grind [fields, atReg, enableCore]

theorem of_execTileForce {r : Req} {c : CoreId} (e : execTileForce r c s = .next t) : Keeps s t := by
  have hk := Keeps.refl s
  unfold execTileForce at e
  grind [fields, atReg, forceCore]

theorem of_execSuspectClear {r : Req} {c : CoreId} (e : execSuspectClear r c s = .next t) : Keeps s t := by
  have hk := Keeps.refl s
  unfold execSuspectClear at e
  grind [fields, atReg, setRg]

/-! ### BootOps -/

theorem of_execPorchFirmwareLoaded {copyA copyB : List Byte} {pufOk : Bool}
    (e : execPorchFirmwareLoaded copyA copyB pufOk s = .next t) : Keeps s t := by
  have hk := Keeps.refl s
  unfold execPorchFirmwareLoaded at e
  grind [fields, secFields, Sec.Burns.fields, fwStage, bootStop, porchStarts]

theorem of_execSramZeroFillDone  (e : execSramZeroFillDone s = .next t) : Keeps s t := by
  have hk := Keeps.refl s
  unfold execSramZeroFillDone at e
  grind [fields, secFields, Sec.Burns.fields]

theorem of_execHubFirmwareLoaded {copyA copyB : List Byte} (e : execHubFirmwareLoaded copyA copyB s = .next t) : Keeps s t := by
  have hk := Keeps.refl s
  unfold execHubFirmwareLoaded at e
  grind [fields, secFields, Sec.Burns.fields, fwStage, bootStop, hubStarts]

/-! ### CellarOps -/

theorem of_execPatrolScrubLine {e : DramErr} (e : execPatrolScrubLine e s = .next t) : Keeps s t := by
  have hk := Keeps.refl s
  unfold execPatrolScrubLine at e
  grind [fields, dramErr]

theorem of_execModuleThermal {ch : Fin 16} {degC : Int} (e : execModuleThermal ch degC s = .next t) : Keeps s t := by
  have hk := Keeps.refl s
  unfold execModuleThermal at e
  grind [fields, devEvent]

theorem of_execCellarFillGo {r : Req} (e : execCellarFillGo r s = .next t) : Keeps s t := by
  have hk := Keeps.refl s
  unfold execCellarFillGo at e
  grind [fields, atReg, fillGo]

theorem of_execCellarFillHalt {r : Req} (e : execCellarFillHalt r s = .next t) : Keeps s t := by
  have hk := Keeps.refl s
  unfold execCellarFillHalt at e
  grind [fields, atReg, haltFill]

theorem of_execCellarFillDone  (e : execCellarFillDone s = .next t) : Keeps s t := by
  have hk := Keeps.refl s
  unfold execCellarFillDone at e
  grind [fields, killFill, fillLines, endFill]

/-! ### Windows -/

theorem of_execSlotDeclare {c : CoreId} {n : SlotId} {cfg : Bool} {v : W32} (e : execSlotDeclare c n cfg v s = .next t)
    : Keeps s t := by
  have hk := Keeps.refl s
  unfold execSlotDeclare at e
  grind [fields, refuse, access, declare]

theorem of_execSlotClear {c : CoreId} {n : SlotId} (e : execSlotClear c n s = .next t) : Keeps s t := by
  have hk := Keeps.refl s
  unfold execSlotClear at e
  grind [fields, setSlot, refuse]

theorem of_execInboundAccess {r : Req} {c : CoreId} {off : BitVec 20} {x : Access}
    (e : execInboundAccess r c off x s = .next t) : Keeps s t := by
  have hk := Keeps.refl s
  unfold execInboundAccess at e
  grind [fields, debugRead, send, inData, inSignal]

theorem of_execSlotAccessResume {c : CoreId} {i : Nat} (e : execSlotAccessResume c i s = .next t) : Keeps s t := by
  have hk := Keeps.refl s
  unfold execSlotAccessResume at e
  grind [fields, takeStall, inAgain, modChan, outWrite, anchorWrite, jobWrite]

theorem of_execSlotTimeout {c : CoreId} {i : Nat} (e : execSlotTimeout c i s = .next t) : Keeps s t := by
  have hk := Keeps.refl s
  unfold execSlotTimeout at e
  grind (gen := 40) (ematch := 40) (splits := 40) [fields, takeStall, timeoutEvent, modBind, flagTile, modTile, anchored,
    jobAsStored, modVec, modSeq, chanHalt, fetchFailed, seqDone, respondRemote, modMsg, send]

/-! ### Sequencer -/

theorem of_execRingWriteIndex {r : Req} {c : CoreId} {idx : Byte} (e : execRingWriteIndex r c idx s = .next t) : Keeps s t := by
  have hk := Keeps.refl s
  unfold execRingWriteIndex at e
  grind [fields, inData]

theorem of_execLayer {c : CoreId} (e : execLayer c s = .next t) : Keeps s t := by
  have hk := Keeps.refl s
  unfold execLayer at e
  grind [fields, seqRun, layerCmd]

theorem of_execLayerContextFree {c : CoreId} (e : execLayerContextFree c s = .next t) : Keeps s t := by
  have hk := Keeps.refl s
  unfold execLayerContextFree at e
  grind [fields, modSeq, present]

theorem of_execVprog {c : CoreId} (e : execVprog c s = .next t) : Keeps s t := by
  have hk := Keeps.refl s
  unfold execVprog at e
  grind [fields, seqRun, unless_, issueJob]

theorem of_execRake {c : CoreId} (e : execRake c s = .next t) : Keeps s t := by
  have hk := Keeps.refl s
  unfold execRake at e
  grind [fields, seqRun, unless_, issueJob]

theorem of_execConv {c : CoreId} (e : execConv c s = .next t) : Keeps s t := by
  have hk := Keeps.refl s
  unfold execConv at e
  grind [fields, seqRun, unless_, issueJob]

theorem of_execDma {c : CoreId} (e : execDma c s = .next t) : Keeps s t := by
  have hk := Keeps.refl s
  unfold execDma at e
  grind [fields, dmaCmd]

theorem of_execSort {c : CoreId} (e : execSort c s = .next t) : Keeps s t := by
  have hk := Keeps.refl s
  unfold execSort at e
  grind [fields, seqRun, unless_, issueJob]

theorem of_execMerge {c : CoreId} (e : execMerge c s = .next t) : Keeps s t := by
  have hk := Keeps.refl s
  unfold execMerge at e
  grind [fields, seqRun, unless_, issueJob]

theorem of_execNop {c : CoreId} (e : execNop c s = .next t) : Keeps s t := by
  have hk := Keeps.refl s
  unfold execNop at e
  grind [fields, seqRun, unless_, seqGoOn]

theorem of_execWaitslot {c : CoreId} (e : execWaitslot c s = .next t) : Keeps s t := by
  have hk := Keeps.refl s
  unfold execWaitslot at e
  grind [fields, seqRun, waitslotCmd]

theorem of_execWaitslotResume {c : CoreId} (e : execWaitslotResume c s = .next t) : Keeps s t := by
  have hk := Keeps.refl s
  unfold execWaitslotResume at e
  grind [fields, unstall, waitslotEnd, seqDone]

theorem of_execSignalFull {c : CoreId} (e : execSignalFull c s = .next t) : Keeps s t := by
  have hk := Keeps.refl s
  unfold execSignalFull at e
  grind [fields, signalCmd, slotFull]

theorem of_execSignalRelease {c : CoreId} (e : execSignalRelease c s = .next t) : Keeps s t := by
  have hk := Keeps.refl s
  unfold execSignalRelease at e
  grind [fields, signalCmd, slotRelease]

theorem of_execSignalRemoteFull {c : CoreId} (e : execSignalRemoteFull c s = .next t) : Keeps s t := by
  have hk := Keeps.refl s
  unfold execSignalRemoteFull at e
  grind [fields, signalCmd, signalRemote]

theorem of_execSignalRemoteRelease {c : CoreId} (e : execSignalRemoteRelease c s = .next t) : Keeps s t := by
  have hk := Keeps.refl s
  unfold execSignalRemoteRelease at e
  grind [fields, signalCmd, signalRemote]

theorem of_execFence {c : CoreId} (e : execFence c s = .next t) : Keeps s t := by
  have hk := Keeps.refl s
  unfold execFence at e
  grind [fields, seqRun, unless_, seqWait, fenceTry]

theorem of_execFenceRelease {c : CoreId} (e : execFenceRelease c s = .next t) : Keeps s t := by
  have hk := Keeps.refl s
  unfold execFenceRelease at e
  grind [fields, fenceTry]

theorem of_execBranch {c : CoreId} (e : execBranch c s = .next t) : Keeps s t := by
  have hk := Keeps.refl s
  unfold execBranch at e
  grind [fields, branchCmd]

theorem of_execLoopStart {c : CoreId} (e : execLoopStart c s = .next t) : Keeps s t := by
  have hk := Keeps.refl s
  unfold execLoopStart at e
  grind [fields, loopCmd, seqRefuse, modSeq, seqGoOn]

theorem of_execLoopEnd {c : CoreId} (e : execLoopEnd c s = .next t) : Keeps s t := by
  have hk := Keeps.refl s
  unfold execLoopEnd at e
  grind [fields, loopCmd, seqRefuse, issued, modSeq, setRd, seqGoOn]

theorem of_execEvent {c : CoreId} (e : execEvent c s = .next t) : Keeps s t := by
  have hk := Keeps.refl s
  unfold execEvent at e
  grind [fields, seqRun, unless_, log, seqGoOn]

theorem of_execHalt {c : CoreId} (e : execHalt c s = .next t) : Keeps s t := by
  have hk := Keeps.refl s
  unfold execHalt at e
  grind [fields, seqRun, unless_, log, seqGoOn, modSeq, writeRd]

theorem of_execSeqGo {r : Req} {c : CoreId} (e : execSeqGo r c s = .next t) : Keeps s t := by
  have hk := Keeps.refl s
  unfold execSeqGo at e
  grind [fields, atReg, seqGoAct]

theorem of_execSeqStop {r : Req} {c : CoreId} (e : execSeqStop r c s = .next t) : Keeps s t := by
  have hk := Keeps.refl s
  unfold execSeqStop at e
  grind [fields, atReg, seqStopAct]

theorem of_execSeqClr {r : Req} {c : CoreId} (e : execSeqClr r c s = .next t) : Keeps s t := by
  have hk := Keeps.refl s
  unfold execSeqClr at e
  grind [fields, atReg, seqClrAct]

/-! ### Tchiuth -/

theorem of_execFlitReceive {p : PortId} {flit : List Byte} {fecCorrected fecUncorrectable : Bool}
    (e : execFlitReceive p flit fecCorrected fecUncorrectable s = .next t) : Keeps s t := by
  have hk := Keeps.refl s
  unfold execFlitReceive at e
  grind [fields, count, sendAck, goodFlit]

theorem of_execFlitRetryTimeout {p : PortId} (e : execFlitRetryTimeout p s = .next t) : Keeps s t := by
  have hk := Keeps.refl s
  unfold execFlitRetryTimeout at e
  grind [fields, resend]

theorem of_execTchRetrain {r : Req} {p : PortId} (e : execTchRetrain r p s = .next t) : Keeps s t := by
  have hk := Keeps.refl s
  unfold execTchRetrain at e
  grind [fields, atReg, portTrain]

theorem of_execTchDisable {r : Req} {p : PortId} (e : execTchDisable r p s = .next t) : Keeps s t := by
  have hk := Keeps.refl s
  unfold execTchDisable at e
  grind [fields, atReg, portDown]

theorem of_execTchTrainDone {p : PortId} {x : TrainResult} (e : execTchTrainDone p x s = .next t) : Keeps s t := by
  have hk := Keeps.refl s
  unfold execTchTrainDone at e
  grind [fields, trainFail, modPort, log]

theorem of_execTchLinkDown {p : PortId} (e : execTchLinkDown p s = .next t) : Keeps s t := by
  have hk := Keeps.refl s
  unfold execTchLinkDown at e
  grind [fields, portDown]

theorem of_execTchForward {p : PortId} (e : execTchForward p s = .next t) : Keeps s t := by
  have hk := Keeps.refl s
  unfold execTchForward at e
  grind [fields, modPort, respondRemote, sendPacket]

theorem of_execTchWrite {p : PortId} (e : execTchWrite p s = .next t) : Keeps s t :=
  of_onPacket (fun k _ h => h.remoteData k _) e

theorem of_execTchRead {p : PortId} (e : execTchRead p s = .next t) : Keeps s t :=
  of_onPacket (fun k _ h => h.remoteData k none) e

theorem of_execTchSignal {p : PortId} (e : execTchSignal p s = .next t) : Keeps s t :=
  of_onPacket (fun k _ h => h.remoteSignal k) e

theorem of_execTchWack {p : PortId} (e : execTchWack p s = .next t) : Keeps s t :=
  of_onPacket (fun k u h => by split <;> grind [wacked, reqRefused, readBack, endReq, modSeq]) e

theorem of_execTchRdata {p : PortId} (e : execTchRdata p s = .next t) : Keeps s t :=
  of_onPacket (fun k _ h => by
    split
    · exact (refl s).readBack h _ _
    · exact h) e

theorem of_execTchSack {p : PortId} (e : execTchSack p s = .next t) : Keeps s t :=
  of_onPacket (fun k u h => by split <;> grind [wacked, reqRefused, readBack, endReq, modSeq]) e

theorem of_execTchNack {p : PortId} (e : execTchNack p s = .next t) : Keeps s t :=
  of_onPacket (fun k u h => by split <;> grind [wacked, reqRefused, readBack, endReq, modSeq]) e

theorem of_execTchTimeout {tag : Fin 65536} (e : execTchTimeout tag s = .next t) : Keeps s t := by
  have hk := Keeps.refl s
  unfold execTchTimeout at e
  grind [fields, reqRefused]

theorem of_execTchSum {p : PortId} (e : execTchSum p s = .next t) : Keeps s t :=
  of_onPacket (fun k _ h => h.onGroup k false _ (fun _ => h.sumIn k)) e

theorem of_execTchResult {p : PortId} (e : execTchResult p s = .next t) : Keeps s t :=
  of_onPacket (fun k _ h => h.onGroup k true _ (fun _ => h.resultIn k)) e

theorem of_execTchStaged {p : PortId} (e : execTchStaged p s = .next t) : Keeps s t :=
  of_onPacket (fun k _ h => h.onGroup k false _ fun _ => by grind [modRound, stagedStep, badPacket]) e

theorem of_execTchCommit {p : PortId} (e : execTchCommit p s = .next t) : Keeps s t :=
  of_onPacket (fun k _ h => h.onGroup k true _ fun _ => by grind [roundCommit, badPacket]) e

theorem of_execTchAbort {p : PortId} (e : execTchAbort p s = .next t) : Keeps s t :=
  of_onPacket (fun k _ h => h.abortIn k) e

theorem of_execTchBarup {p : PortId} (e : execTchBarup p s = .next t) : Keeps s t :=
  of_onPacket (fun k _ h => h.onGroup k false _ fun _ => (h.modGroup _ _).barrierStep _) e

theorem of_execTchBardown {p : PortId} (e : execTchBardown p s = .next t) : Keeps s t :=
  of_onPacket (fun k _ h => h.onGroup k true _ fun _ => h.barrierDown _) e

theorem of_execGroupOpen {r : Req} {g : GroupId} {epoch : Fin 65536} (e : execGroupOpen r g epoch s = .next t) : Keeps s t := by
  have hk := Keeps.refl s
  unfold execGroupOpen at e
  grind [fields, atReg, openGroup]

theorem of_execGroupAbort {r : Req} {g : GroupId} (e : execGroupAbort r g s = .next t) : Keeps s t := by
  have hk := Keeps.refl s
  unfold execGroupAbort at e
  grind [fields, atReg, abortGroup]

theorem of_execRoundTimeout {g : GroupId} {tile : Nat} (e : execRoundTimeout g tile s = .next t) : Keeps s t := by
  have hk := Keeps.refl s
  unfold execRoundTimeout at e
  grind [fields, abortGroup]

/-! ### Tenants -/

theorem of_execTenantWrite {r : Req} {i : Fin 4096} (e : execTenantWrite r i s = .next t) : Keeps s t := by
  have hk := Keeps.refl s
  unfold execTenantWrite at e
  grind [fields, atReg, setTenant]

theorem of_execTenantClear {r : Req} {i : Fin 4096} (e : execTenantClear r i s = .next t) : Keeps s t := by
  have hk := Keeps.refl s
  unfold execTenantClear at e
  grind [fields, atReg, clearTenant]

theorem of_execSesKillGo {r : Req} {n : SessId} (e : execSesKillGo r n s = .next t) : Keeps s t := by
  have hk := Keeps.refl s
  unfold execSesKillGo at e
  grind [fields, atReg, killSession]

/-! ### Registers -/

theorem of_execRegisterWrite {r : Req} {a : Addr} {size : Nat} {v : W32} (e : execRegisterWrite r a size v s = .next t)
    : Keeps s t := by
  have hk := Keeps.refl s
  unfold execRegisterWrite at e
  grind [fields, regWrite, send]

theorem of_execRegisterReadClear {r : Req} {a : Addr} {size : Nat} (e : execRegisterReadClear r a size s = .next t) :
    Keeps s t := by
  have hk := Keeps.refl s
  unfold execRegisterReadClear at e
  grind [fields, readTo]

theorem of_execLoHalfRead {r : Req} {a : Addr} (e : execLoHalfRead r a s = .next t) : Keeps s t := by
  have hk := Keeps.refl s
  unfold execLoHalfRead at e
  grind [fields, readTo]

theorem of_execDmaRowComplete {c : CoreId} {ch : ChanId} {e : SramErr} {de : LineErrs}
    (e : execDmaRowComplete c ch e de s = .next t) : Keeps s t := by
  have hk := Keeps.refl s
  unfold execDmaRowComplete at e
  grind [fields, loadDesc, dramRow, sramRow, regRow, dmaRow]

theorem of_execI3cRead {off : BitVec 16} {len : Nat} (e : execI3cRead off len s = .next t) : Keeps s t := by
  have hk := Keeps.refl s
  unfold execI3cRead at e
  grind [fields, i3cBytes, send]

theorem of_execI3cWrite {_off : BitVec 16} {_data : List Byte} (e : execI3cWrite _off _data s = .next t) : Keeps s t := by
  have hk := Keeps.refl s
  unfold execI3cWrite at e
  grind [fields, send]

theorem of_execI3cAddressAssign {setdasa : Bool} {static_ dyn : BitVec 7}
    (e : execI3cAddressAssign setdasa static_ dyn s = .next t) : Keeps s t := by
  have hk := Keeps.refl s
  unfold execI3cAddressAssign at e
  grind [fields]

/-! ### Ethernet -/

theorem of_execEthFrameReceive {p : Fin 4} {f : Frame} {e : SramErr} (e : execEthFrameReceive p f e s = .next t) :
    Keeps s t := by
  have hk := Keeps.refl s
  unfold execEthFrameReceive at e
  grind [fields, count, ethSram, ethIn]

theorem of_execMgmtFrameReceive {f : Frame} {assign : Fin 4} (e : execMgmtFrameReceive f assign s = .next t) : Keeps s t := by
  have hk := Keeps.refl s
  unfold execMgmtFrameReceive at e
  grind [fields, count, hxtAccept]

theorem of_execWakeMgmtFrame {f : HxtFrame} (e : execWakeMgmtFrame f s = .next t) : Keeps s t := by
  have hk := Keeps.refl s
  unfold execWakeMgmtFrame at e
  grind [fields, wake]

theorem of_execEthLinkTrainDone {p : EthId} {ok preempt : Bool} (e : execEthLinkTrainDone p ok preempt s = .next t) :
    Keeps s t := by
  have hk := Keeps.refl s
  unfold execEthLinkTrainDone at e
  grind [fields, modEth, egressStart]

theorem of_execEthLinkLoss {p : EthId} (e : execEthLinkLoss p s = .next t) : Keeps s t := by
  have hk := Keeps.refl s
  unfold execEthLinkLoss at e
  grind [fields, modEth]

theorem of_execGateEntryExpiry {p : Fin 4} (e : execGateEntryExpiry p s = .next t) : Keeps s t := by
  have hk := Keeps.refl s
  unfold execGateEntryExpiry at e
  grind [fields, modEth, egress, egressStart]

theorem of_execEgressFrameDone {p : Fin 4} (e : execEgressFrameDone p s = .next t) : Keeps s t := by
  have hk := Keeps.refl s
  unfold execEgressFrameDone at e
  grind (gen := 40) (ematch := 40) (splits := 40) [fields, modEth, send, draw, egressStart]

theorem of_execCbsCreditRecovered {p : Fin 4} {q : Fin 8} (e : execCbsCreditRecovered p q s = .next t) : Keeps s t := by
  have hk := Keeps.refl s
  unfold execCbsCreditRecovered at e
  grind [fields, modEth, egressStart]

/-! ### Gauge -/

theorem of_execGaugeSampleStart {c : CoreId} {h : Handle} (e : execGaugeSampleStart c h s = .next t) : Keeps s t := by
  have hk := Keeps.refl s
  unfold execGaugeSampleStart at e
  grind [fields, opsReady, modTile]

theorem of_execGaugeSampleDone {c : CoreId} {h : Handle} {waited : Nat} (e : execGaugeSampleDone c h waited s = .next t)
    : Keeps s t := by
  have hk := Keeps.refl s
  unfold execGaugeSampleDone at e
  grind [fields, modTile, modCore, count, act, attemptCheck]

/-! ### Sessions -/

theorem of_execHxtOpen {assign : SessId} {inRate : Bool} (e : execHxtOpen assign inRate s = .next t) : Keeps s t := by
  have hk := Keeps.refl s
  unfold execHxtOpen at e
  grind [fields, takeFrame, count, openNo, reply, openResume, openNew]

theorem of_execHxtAuth  (e : execHxtAuth s = .next t) : Keeps s t := by
  have hk := Keeps.refl s
  unfold execHxtAuth at e
  grind [fields, takeFrame, authResumes, authOpens, authFails, authAgain]

theorem of_execAuthLockoutExpiry {tenant : W32} (e : execAuthLockoutExpiry tenant s = .next t) : Keeps s t := by
  have hk := Keeps.refl s
  unfold execAuthLockoutExpiry at e
  grind [fields]

theorem of_execHalfopenTimeout {n : CtxId} (e : execHalfopenTimeout n s = .next t) : Keeps s t := by
  have hk := Keeps.refl s
  unfold execHalfopenTimeout at e
  grind [fields, freeCtx]

theorem of_execRekeyTimeout {n : CtxId} (e : execRekeyTimeout n s = .next t) : Keeps s t := by
  have hk := Keeps.refl s
  unfold execRekeyTimeout at e
  grind [fields, modSess, flushOut]

theorem of_execLingerExpiry {n : CtxId} (e : execLingerExpiry n s = .next t) : Keeps s t := by
  have hk := Keeps.refl s
  unfold execLingerExpiry at e
  grind [fields, killSession]

theorem of_execHxtAckonly  (e : execHxtAckonly s = .next t) : Keeps s t := by
  have hk := Keeps.refl s
  unfold execHxtAckonly at e
  grind [fields, takeFrame, takeAck]

theorem of_execAckTimer {n : CtxId} (e : execAckTimer n s = .next t) : Keeps s t := by
  have hk := Keeps.refl s
  unfold execAckTimer at e
  grind [fields, draw, modSess, sendFrame]

theorem of_execHxtRtoExpiry {n : CtxId} {seq : Nat} (e : execHxtRtoExpiry n seq s = .next t) : Keeps s t := by
  have hk := Keeps.refl s
  unfold execHxtRtoExpiry at e
  grind [fields, retransmit, modSess, freeCtx]

theorem of_execEventMessageSend {n : CtxId} (e : execEventMessageSend n s = .next t) : Keeps s t := by
  have hk := Keeps.refl s
  unfold execEventMessageSend at e
  grind [fields, modSess, post]

/-! ### Messages -/

theorem of_execHxtWrite  (e : execHxtWrite s = .next t) : Keeps s t := by
  have hk := Keeps.refl s
  unfold execHxtWrite at e
  grind [fields, takeFrame, writeBegins, placeFragment]

theorem of_execHxtRead {de : LineErrs} (e : execHxtRead de s = .next t) : Keeps s t := by
  have hk := Keeps.refl s
  unfold execHxtRead at e
  grind [fields, takeFrame, readBegins]

theorem of_execHxtMessageComplete {n : CtxId} {seq : Nat} (e : execHxtMessageComplete n seq s = .next t) : Keeps s t := by
  have hk := Keeps.refl s
  unfold execHxtMessageComplete at e
  grind [fields, finishMsg]

theorem of_execHxtFence  (e : execHxtFence s = .next t) : Keeps s t := by
  have hk := Keeps.refl s
  unfold execHxtFence at e
  grind [fields, ordered]

theorem of_execHxtStat  (e : execHxtStat s = .next t) : Keeps s t := by
  have hk := Keeps.refl s
  unfold execHxtStat at e
  grind [fields, ordered]

theorem of_execHxtKill  (e : execHxtKill s = .next t) : Keeps s t := by
  have hk := Keeps.refl s
  unfold execHxtKill at e
  grind [fields, ordered]

theorem of_execHxtClose  (e : execHxtClose s = .next t) : Keeps s t := by
  have hk := Keeps.refl s
  unfold execHxtClose at e
  grind [fields, ordered]

theorem of_execSubmitRing  (e : execSubmitRing s = .next t) : Keeps s t := by
  have hk := Keeps.refl s
  unfold execSubmitRing at e
  grind [fields, ordered]

theorem of_execSubmitReg  (e : execSubmitReg s = .next t) : Keeps s t := by
  have hk := Keeps.refl s
  unfold execSubmitReg at e
  grind [fields, ordered]

theorem of_execSubmitSignal  (e : execSubmitSignal s = .next t) : Keeps s t := by
  have hk := Keeps.refl s
  unfold execSubmitSignal at e
  grind [fields, ordered]

theorem of_execSubmitAperture  (e : execSubmitAperture s = .next t) : Keeps s t := by
  have hk := Keeps.refl s
  unfold execSubmitAperture at e
  grind [fields, ordered]

theorem of_execSubmitBindkey  (e : execSubmitBindkey s = .next t) : Keeps s t := by
  have hk := Keeps.refl s
  unfold execSubmitBindkey at e
  grind [fields, ordered]

theorem of_execOrderedMessageStart {n : CtxId} (e : execOrderedMessageStart n s = .next t) : Keeps s t := by
  have hk := Keeps.refl s
  unfold execOrderedMessageStart at e
  grind [fields, orderedAct]

end Keeps

/-- Whatever a command does, it keeps the queue, the form of memory and the fuses. -/
theorem Keeps.of_exec {i : Instr} {s t : State} (e : exec i s = .next t) : Keeps s t := by
  cases i with
  | registerWrite _ _ _ _ => exact Keeps.of_execRegisterWrite e
  | registerReadClear _ _ _ => exact Keeps.of_execRegisterReadClear e
  | loHalfRead _ _ => exact Keeps.of_execLoHalfRead e
  | brickStepBegin _ _ _ _ => exact Keeps.of_execBrickStepBegin e
  | brickStepComplete _ _ => exact Keeps.of_execBrickStepComplete e
  | brickSwap _ _ _ => exact Keeps.of_execBrickSwap e
  | anchorTableWritten _ _ _ _ => exact Keeps.of_execAnchorTableWritten e
  | groupPartialAdd _ _ _ _ _ _ _ => exact Keeps.of_execGroupPartialAdd e
  | arrCntclr _ => exact Keeps.of_execArrCntclr e
  | gaugeSampleStart _ _ => exact Keeps.of_execGaugeSampleStart e
  | gaugeSampleDone _ _ _ => exact Keeps.of_execGaugeSampleDone e
  | outputChunk _ _ _ _ => exact Keeps.of_execOutputChunk e
  | outputPathEnd _ _ => exact Keeps.of_execOutputPathEnd e
  | imatchRowEnd _ _ => exact Keeps.of_execImatchRowEnd e
  | mergeTreeDone _ _ => exact Keeps.of_execMergeTreeDone e
  | hubMergeDeliver _ _ => exact Keeps.of_execHubMergeDeliver e
  | scoutPassDone _ _ => exact Keeps.of_execScoutPassDone e
  | programStoreLoad _ => exact Keeps.of_execProgramStoreLoad e
  | engineQueueAdmit _ _ => exact Keeps.of_execEngineQueueAdmit e
  | vprogStart _ => exact Keeps.of_execVprogStart e
  | vprogDone _ => exact Keeps.of_execVprogDone e
  | rakeDone _ => exact Keeps.of_execRakeDone e
  | slotDeclare _ _ _ _ => exact Keeps.of_execSlotDeclare e
  | slotClear _ _ => exact Keeps.of_execSlotClear e
  | slotAccessResume _ _ => exact Keeps.of_execSlotAccessResume e
  | slotTimeout _ _ => exact Keeps.of_execSlotTimeout e
  | inboundAccess _ _ _ _ => exact Keeps.of_execInboundAccess e
  | dmaGo _ _ _ => exact Keeps.of_execDmaGo e
  | dmaHalt _ _ _ => exact Keeps.of_execDmaHalt e
  | dmaRowComplete _ _ _ _ => exact Keeps.of_execDmaRowComplete e
  | dmaDescriptorComplete _ _ => exact Keeps.of_execDmaDescriptorComplete e
  | stagingHalfRefill _ _ _ _ => exact Keeps.of_execStagingHalfRefill e
  | pantryWb _ _ => exact Keeps.of_execPantryWb e
  | pantryWbinv _ _ => exact Keeps.of_execPantryWbinv e
  | pantryInvz _ _ => exact Keeps.of_execPantryInvz e
  | pantryOpDone => exact Keeps.of_execPantryOpDone e
  | pantryCntsel _ _ => exact Keeps.of_execPantryCntsel e
  | dispenserPresent _ => exact Keeps.of_execDispenserPresent e
  | deferredArm _ => exact Keeps.of_execDeferredArm e
  | claimServe _ => exact Keeps.of_execClaimServe e
  | commitResolve _ _ => exact Keeps.of_execCommitResolve e
  | partialSumArrival _ _ => exact Keeps.of_execPartialSumArrival e
  | bump _ _ => exact Keeps.of_execBump e
  | rewind _ _ => exact Keeps.of_execRewind e
  | disarm _ _ => exact Keeps.of_execDisarm e
  | ringWriteIndex _ _ _ => exact Keeps.of_execRingWriteIndex e
  | layer _ => exact Keeps.of_execLayer e
  | layerContextFree _ => exact Keeps.of_execLayerContextFree e
  | setprec _ => exact Keeps.of_execSetprec e
  | claim _ => exact Keeps.of_execClaim e
  | loadw _ => exact Keeps.of_execLoadw e
  | loada _ => exact Keeps.of_execLoada e
  | preload _ => exact Keeps.of_execPreload e
  | scout _ => exact Keeps.of_execScout e
  | step _ => exact Keeps.of_execStep e
  | tileOpen _ _ => exact Keeps.of_execTileOpen e
  | drain _ => exact Keeps.of_execDrain e
  | commit _ => exact Keeps.of_execCommit e
  | commitSend _ _ => exact Keeps.of_execCommitSend e
  | commitStore _ _ => exact Keeps.of_execCommitStore e
  | reducePart _ => exact Keeps.of_execReducePart e
  | reduceSum _ => exact Keeps.of_execReduceSum e
  | reduceGroup _ => exact Keeps.of_execReduceGroup e
  | contributionSend _ _ => exact Keeps.of_execContributionSend e
  | gaugeForce _ => exact Keeps.of_execGaugeForce e
  | gaugeSkip _ => exact Keeps.of_execGaugeSkip e
  | vprog _ => exact Keeps.of_execVprog e
  | rake _ => exact Keeps.of_execRake e
  | conv _ => exact Keeps.of_execConv e
  | dma _ => exact Keeps.of_execDma e
  | sort _ => exact Keeps.of_execSort e
  | merge _ => exact Keeps.of_execMerge e
  | nop _ => exact Keeps.of_execNop e
  | waitslot _ => exact Keeps.of_execWaitslot e
  | waitslotResume _ => exact Keeps.of_execWaitslotResume e
  | signalFull _ => exact Keeps.of_execSignalFull e
  | signalRelease _ => exact Keeps.of_execSignalRelease e
  | signalRemoteFull _ => exact Keeps.of_execSignalRemoteFull e
  | signalRemoteRelease _ => exact Keeps.of_execSignalRemoteRelease e
  | fence _ => exact Keeps.of_execFence e
  | fenceRelease _ => exact Keeps.of_execFenceRelease e
  | branch _ => exact Keeps.of_execBranch e
  | loopStart _ => exact Keeps.of_execLoopStart e
  | loopEnd _ => exact Keeps.of_execLoopEnd e
  | event _ => exact Keeps.of_execEvent e
  | halt _ => exact Keeps.of_execHalt e
  | seqGo _ _ => exact Keeps.of_execSeqGo e
  | seqStop _ _ => exact Keeps.of_execSeqStop e
  | seqClr _ _ => exact Keeps.of_execSeqClr e
  | trlGo _ _ => exact Keeps.of_execTrlGo e
  | trlImageReadDone _ => exact Keeps.of_execTrlImageReadDone e
  | trlVerifyDone => exact Keeps.of_execTrlVerifyDone e
  | cellarTrainDone _ => exact Keeps.of_execCellarTrainDone e
  | quiescePoint => exact Keeps.of_execQuiescePoint e
  | quiesceTimeout => exact Keeps.of_execQuiesceTimeout e
  | partitionApplyDone => exact Keeps.of_execPartitionApplyDone e
  | patrolScrubLine _ => exact Keeps.of_execPatrolScrubLine e
  | moduleThermal _ _ => exact Keeps.of_execModuleThermal e
  | cellarFillGo _ => exact Keeps.of_execCellarFillGo e
  | cellarFillHalt _ => exact Keeps.of_execCellarFillHalt e
  | cellarFillDone => exact Keeps.of_execCellarFillDone e
  | flitReceive _ _ _ _ => exact Keeps.of_execFlitReceive e
  | flitRetryTimeout _ => exact Keeps.of_execFlitRetryTimeout e
  | tchRetrain _ _ => exact Keeps.of_execTchRetrain e
  | tchDisable _ _ => exact Keeps.of_execTchDisable e
  | tchTrainDone _ _ => exact Keeps.of_execTchTrainDone e
  | tchLinkDown _ => exact Keeps.of_execTchLinkDown e
  | tchForward _ => exact Keeps.of_execTchForward e
  | tchWrite _ => exact Keeps.of_execTchWrite e
  | tchRead _ => exact Keeps.of_execTchRead e
  | tchSignal _ => exact Keeps.of_execTchSignal e
  | tchWack _ => exact Keeps.of_execTchWack e
  | tchRdata _ => exact Keeps.of_execTchRdata e
  | tchSack _ => exact Keeps.of_execTchSack e
  | tchNack _ => exact Keeps.of_execTchNack e
  | tchTimeout _ => exact Keeps.of_execTchTimeout e
  | tchSum _ => exact Keeps.of_execTchSum e
  | tchResult _ => exact Keeps.of_execTchResult e
  | tchStaged _ => exact Keeps.of_execTchStaged e
  | tchCommit _ => exact Keeps.of_execTchCommit e
  | tchAbort _ => exact Keeps.of_execTchAbort e
  | tchBarup _ => exact Keeps.of_execTchBarup e
  | tchBardown _ => exact Keeps.of_execTchBardown e
  | groupOpen _ _ _ => exact Keeps.of_execGroupOpen e
  | groupAbort _ _ => exact Keeps.of_execGroupAbort e
  | roundTimeout _ _ => exact Keeps.of_execRoundTimeout e
  | ethFrameReceive _ _ _ => exact Keeps.of_execEthFrameReceive e
  | hxtOpen _ _ => exact Keeps.of_execHxtOpen e
  | hxtAuth => exact Keeps.of_execHxtAuth e
  | hxtClose => exact Keeps.of_execHxtClose e
  | hxtWrite => exact Keeps.of_execHxtWrite e
  | hxtRead _ => exact Keeps.of_execHxtRead e
  | submitRing => exact Keeps.of_execSubmitRing e
  | submitReg => exact Keeps.of_execSubmitReg e
  | submitSignal => exact Keeps.of_execSubmitSignal e
  | submitAperture => exact Keeps.of_execSubmitAperture e
  | submitBindkey => exact Keeps.of_execSubmitBindkey e
  | hxtFence => exact Keeps.of_execHxtFence e
  | hxtKill => exact Keeps.of_execHxtKill e
  | hxtStat => exact Keeps.of_execHxtStat e
  | orderedMessageStart _ => exact Keeps.of_execOrderedMessageStart e
  | hxtMessageComplete _ _ => exact Keeps.of_execHxtMessageComplete e
  | hxtAckonly => exact Keeps.of_execHxtAckonly e
  | ackTimer _ => exact Keeps.of_execAckTimer e
  | hxtRtoExpiry _ _ => exact Keeps.of_execHxtRtoExpiry e
  | eventMessageSend _ => exact Keeps.of_execEventMessageSend e
  | halfopenTimeout _ => exact Keeps.of_execHalfopenTimeout e
  | lingerExpiry _ => exact Keeps.of_execLingerExpiry e
  | authLockoutExpiry _ => exact Keeps.of_execAuthLockoutExpiry e
  | gateEntryExpiry _ => exact Keeps.of_execGateEntryExpiry e
  | egressFrameDone _ => exact Keeps.of_execEgressFrameDone e
  | sesKillGo _ _ => exact Keeps.of_execSesKillGo e
  | tenantWrite _ _ => exact Keeps.of_execTenantWrite e
  | tenantClear _ _ => exact Keeps.of_execTenantClear e
  | provisionOwner _ => exact Keeps.of_execProvisionOwner e
  | rollbackAdvance _ _ => exact Keeps.of_execRollbackAdvance e
  | partitionKill _ _ => exact Keeps.of_execPartitionKill e
  | killScrubDone _ => exact Keeps.of_execKillScrubDone e
  | debugUnlock _ => exact Keeps.of_execDebugUnlock e
  | vendorUnlockEffect => exact Keeps.of_execVendorUnlockEffect e
  | debugExpiry => exact Keeps.of_execDebugExpiry e
  | attestationReport _ => exact Keeps.of_execAttestationReport e
  | attestationDone => exact Keeps.of_execAttestationDone e
  | coldReset _ => exact Keeps.of_execColdReset e
  | porchFirmwareLoaded _ _ _ => exact Keeps.of_execPorchFirmwareLoaded e
  | hubFirmwareLoaded _ _ => exact Keeps.of_execHubFirmwareLoaded e
  | sramZeroFillDone => exact Keeps.of_execSramZeroFillDone e
  | quadGate _ => exact Keeps.of_execQuadGate e
  | quadUngate _ => exact Keeps.of_execQuadUngate e
  | qoff _ _ _ => exact Keeps.of_execQoff e
  | qon _ _ _ => exact Keeps.of_execQon e
  | quadPowerOnDone _ => exact Keeps.of_execQuadPowerOnDone e
  | d3Request _ => exact Keeps.of_execD3Request e
  | d3EntryDone => exact Keeps.of_execD3EntryDone e
  | wakeMgmtFrame _ => exact Keeps.of_execWakeMgmtFrame e
  | wakePin _ => exact Keeps.of_execWakePin e
  | wakeTimer => exact Keeps.of_execWakeTimer e
  | d3WakeDone => exact Keeps.of_execD3WakeDone e
  | sensorSample _ => exact Keeps.of_execSensorSample e
  | thermalStepTick => exact Keeps.of_execThermalStepTick e
  | prochotIn _ => exact Keeps.of_execProchotIn e
  | i3cRead _ _ => exact Keeps.of_execI3cRead e
  | i3cWrite off data => exact Keeps.of_execI3cWrite (_off := off) (_data := data) e
  | i3cAddressAssign _ _ _ => exact Keeps.of_execI3cAddressAssign e
  | ptpSync _ => exact Keeps.of_execPtpSync e
  | ptpSyncLoss => exact Keeps.of_execPtpSyncLoss e
  | meterCharge => exact Keeps.of_execMeterCharge e
  | calscaleUpdate _ _ => exact Keeps.of_execCalscaleUpdate e
  | budgetWindowBoundary _ _ => exact Keeps.of_execBudgetWindowBoundary e
  | sessionBudgetWrite _ _ _ => exact Keeps.of_execSessionBudgetWrite e
  | hubWatchdog => exact Keeps.of_execHubWatchdog e
  | evtRdidxWrite _ _ => exact Keeps.of_execEvtRdidxWrite e
  | warmReset _ _ => exact Keeps.of_execWarmReset e
  | wrstPin _ => exact Keeps.of_execWrstPin e
  | partitionReset _ _ => exact Keeps.of_execPartitionReset e
  | coreQuiesce _ _ _ _ => exact Keeps.of_execCoreQuiesce e
  | coreQuiesceForce _ _ => exact Keeps.of_execCoreQuiesceForce e
  | coreQuiesceScrub _ => exact Keeps.of_execCoreQuiesceScrub e
  | coreEnable _ _ => exact Keeps.of_execCoreEnable e
  | tileForce _ _ => exact Keeps.of_execTileForce e
  | suspectClear _ _ => exact Keeps.of_execSuspectClear e
  | pmbusAlert _ _ => exact Keeps.of_execPmbusAlert e
  | railInTolerance _ => exact Keeps.of_execRailInTolerance e
  | railSequenceTimeout _ => exact Keeps.of_execRailSequenceTimeout e
  | avsUpdate _ _ => exact Keeps.of_execAvsUpdate e
  | ethLinkTrainDone _ _ _ => exact Keeps.of_execEthLinkTrainDone e
  | ethLinkLoss _ => exact Keeps.of_execEthLinkLoss e
  | mgmtFrameReceive _ _ => exact Keeps.of_execMgmtFrameReceive e
  | rekeyTimeout _ => exact Keeps.of_execRekeyTimeout e
  | convDone _ => exact Keeps.of_execConvDone e
  | sortDone _ => exact Keeps.of_execSortDone e
  | coreScrubDone _ => exact Keeps.of_execCoreScrubDone e
  | debugTokenCheckDone => exact Keeps.of_execDebugTokenCheckDone e
  | porstNAssert => exact Keeps.of_execPorstNAssert e
  | standbyPowerLoss => exact Keeps.of_execStandbyPowerLoss e
  | prochotNRelease => exact Keeps.of_execProchotNRelease e
  | cbsCreditRecovered _ _ => exact Keeps.of_execCbsCreditRecovered e
  | decommission => exact Keeps.of_execDecommission e

/-- A step keeps memory's form and the fuses, and leaves the queue's rest. -/
theorem step_keeps {s t : State} (e : step s = .next t) : Keeps { s with pending := s.pending.tail } t := by
  unfold step at e
  split at e
  · next h =>
    obtain rfl := Host.Outcome.next.inj e
    have hk := (Keeps.refl s).idle
    exact ⟨by rw [hk.pending, h]; rfl, hk.mem, hk.fuses⟩
  · next i rest h =>
    have hk := Keeps.of_exec e
    exact ⟨by rw [hk.pending, h]; rfl, hk.mem, hk.fuses⟩

/-- Settles O3, from what every step keeps. -/
theorem queueFirstInFirstOut : Obligations.QueueFirstInFirstOut := fun _ _ e => (step_keeps e).pending

/-- Settles O4, from what every step keeps. -/
theorem memoryStaysCanonical : Obligations.MemoryStaysCanonical := fun _ _ w e => (step_keeps e).mem w

/-- Settles O60, from what every step keeps. -/
theorem fusesNeverClear : Obligations.FusesNeverClear := by
  intro s t e
  obtain ⟨hctr, hhash, hlc, hdbg⟩ := (step_keeps e).fuses
  exact ⟨hctr, hhash, hlc, hdbg⟩

end Sys2Proof.Machine
end

section
set_option Elab.async false
/-! Every well-formed command answers a next state. -/

namespace Sys2Proof.Machine

/-- The outcome is a next state. -/
def Answers (o : Host.Outcome State Fault Refusal) : Prop := ∃ t, o = .next t

theorem Answers.next (t : State) : Answers (.next t) := ⟨t, rfl⟩

namespace Answers
variable {s : State}

theorem onPacket (p : PortId) (typ : Nat) (f : Packet → State → State) : Answers (s.onPacket p typ f) := by
  unfold State.onPacket
  split <;> exact next _

theorem execBrickStepBegin (c : CoreId) (b : BrickId) (promo : Nat) (e : SramErr)
    : Answers (Machine.execBrickStepBegin c b promo e s) := by
  unfold Machine.execBrickStepBegin
  grind [next]

theorem execBrickStepComplete (c : CoreId) (b : BrickId) : Answers (Machine.execBrickStepComplete c b s) := by
  unfold Machine.execBrickStepComplete
  grind (gen := 40) (ematch := 40) (splits := 40) [next]

theorem execBrickSwap (c : CoreId) (b : BrickId) (full : Nat) : Answers (Machine.execBrickSwap c b full s) := by
  unfold Machine.execBrickSwap
  grind [next]

theorem execAnchorTableWritten (c : CoreId) (h : Handle) (step : Nat) (at_ : Nat)
    : Answers (Machine.execAnchorTableWritten c h step at_ s) := by
  unfold Machine.execAnchorTableWritten
  grind [next]

theorem execGroupPartialAdd (c : CoreId) (h : Handle) (step group pass : Nat) (residue : List Nat) (e : SramErr)
    : Answers (Machine.execGroupPartialAdd c h step group pass residue e s) := by
  unfold Machine.execGroupPartialAdd
  grind [next]

theorem execArrCntclr (c : CoreId) : Answers (Machine.execArrCntclr c s) := by
  unfold Machine.execArrCntclr
  grind [next]

theorem execGaugeSampleStart (c : CoreId) (h : Handle) : Answers (Machine.execGaugeSampleStart c h s) := by
  unfold Machine.execGaugeSampleStart
  grind [next]

theorem execGaugeSampleDone (c : CoreId) (h : Handle) (waited : Nat) : Answers (Machine.execGaugeSampleDone c h waited s) := by
  unfold Machine.execGaugeSampleDone
  grind [next]

theorem execOutputChunk (c : CoreId) (h : Handle) (denied : Nat) (e : SramErr)
    : Answers (Machine.execOutputChunk c h denied e s) := by
  unfold Machine.execOutputChunk
  grind [next]

theorem execOutputPathEnd (c : CoreId) (h : Handle) : Answers (Machine.execOutputPathEnd c h s) := by
  unfold Machine.execOutputPathEnd
  grind [next]

theorem execImatchRowEnd (c : CoreId) (h : Handle) : Answers (Machine.execImatchRowEnd c h s) := by
  unfold Machine.execImatchRowEnd
  grind (gen := 40) (ematch := 40) [next]

theorem execMergeTreeDone (c : CoreId) (cmd : Bool) : Answers (Machine.execMergeTreeDone c cmd s) := by
  unfold Machine.execMergeTreeDone
  grind [next]

theorem execHubMergeDeliver (d : DispId) (row : Nat) : Answers (Machine.execHubMergeDeliver d row s) := by
  unfold Machine.execHubMergeDeliver
  grind [next]

theorem execScoutPassDone (c : CoreId) (h : Handle) : Answers (Machine.execScoutPassDone c h s) := by
  unfold Machine.execScoutPassDone
  grind [next]

theorem execProgramStoreLoad (c : CoreId) : Answers (Machine.execProgramStoreLoad c s) := by
  unfold Machine.execProgramStoreLoad
  grind [next]

theorem execEngineQueueAdmit (c : CoreId) (e : Engine) : Answers (Machine.execEngineQueueAdmit c e s) := by
  unfold Machine.execEngineQueueAdmit
  grind [next]

theorem execVprogStart (c : CoreId) : Answers (Machine.execVprogStart c s) := by
  unfold Machine.execVprogStart
  grind [next]

theorem execVprogDone (c : CoreId) : Answers (Machine.execVprogDone c s) := by
  unfold Machine.execVprogDone
  grind [next]

theorem execRakeDone (c : CoreId) : Answers (Machine.execRakeDone c s) := by
  unfold Machine.execRakeDone
  grind [next]

theorem execSlotDeclare (c : CoreId) (n : SlotId) (cfg : Bool) (v : W32) : Answers (Machine.execSlotDeclare c n cfg v s) := by
  unfold Machine.execSlotDeclare
  grind [next]

theorem execSlotClear (c : CoreId) (n : SlotId) : Answers (Machine.execSlotClear c n s) := by
  unfold Machine.execSlotClear
  grind [next]

theorem execSlotAccessResume (c : CoreId) (i : Nat) : Answers (Machine.execSlotAccessResume c i s) := by
  unfold Machine.execSlotAccessResume
  grind [next]

theorem execSlotTimeout (c : CoreId) (i : Nat) : Answers (Machine.execSlotTimeout c i s) := by
  unfold Machine.execSlotTimeout
  grind (gen := 40) (ematch := 40) [next]

theorem execInboundAccess (r : Req) (c : CoreId) (off : BitVec 20) (x : Access)
    : Answers (Machine.execInboundAccess r c off x s) := by
  unfold Machine.execInboundAccess
  grind [next]

theorem execDmaRowComplete (c : CoreId) (ch : ChanId) (e : SramErr) (de : LineErrs)
    : Answers (Machine.execDmaRowComplete c ch e de s) := by
  unfold Machine.execDmaRowComplete
  grind [next]

theorem execDmaDescriptorComplete (c : CoreId) (ch : ChanId) : Answers (Machine.execDmaDescriptorComplete c ch s) := by
  unfold Machine.execDmaDescriptorComplete
  grind [next]

theorem execStagingHalfRefill (c : CoreId) (h : Handle) (weight : Bool) (de : LineErrs)
    : Answers (Machine.execStagingHalfRefill c h weight de s) := by
  unfold Machine.execStagingHalfRefill
  grind [next]

theorem execPantryOpDone  : Answers (Machine.execPantryOpDone s) := by
  unfold Machine.execPantryOpDone
  grind [next]

theorem execDispenserPresent (c : CoreId) : Answers (Machine.execDispenserPresent c s) := by
  unfold Machine.execDispenserPresent
  grind [next]

theorem execDeferredArm (d : DispId) : Answers (Machine.execDeferredArm d s) := by
  unfold Machine.execDeferredArm
  grind [next]

theorem execClaimServe (d : DispId) : Answers (Machine.execClaimServe d s) := by
  unfold Machine.execClaimServe
  grind [next]

theorem execCommitResolve (c : CoreId) (h : Handle) : Answers (Machine.execCommitResolve c h s) := by
  unfold Machine.execCommitResolve
  grind [next]

theorem execPartialSumArrival (c : CoreId) (h : Handle) : Answers (Machine.execPartialSumArrival c h s) := by
  unfold Machine.execPartialSumArrival
  grind [next]

theorem execLayerContextFree (c : CoreId) : Answers (Machine.execLayerContextFree c s) := by
  unfold Machine.execLayerContextFree
  grind [next]

theorem execTileOpen (c : CoreId) (h : Handle) : Answers (Machine.execTileOpen c h s) := by
  unfold Machine.execTileOpen
  grind [next]

theorem execCommitSend (c : CoreId) (h : Handle) : Answers (Machine.execCommitSend c h s) := by
  unfold Machine.execCommitSend
  grind [next]

theorem execCommitStore (c : CoreId) (h : Handle) : Answers (Machine.execCommitStore c h s) := by
  unfold Machine.execCommitStore
  extract_lets
  split
  · exact next _
  · extract_lets
    split
    · exact next _
    · split
      · exact next _
      · split
        · exact next _
        · split
          · exact next _
          · split
            · split
              · split <;> exact next _
              · exact next _
            · exact next _

theorem execContributionSend (c : CoreId) (h : Handle) : Answers (Machine.execContributionSend c h s) := by
  unfold Machine.execContributionSend
  grind [next]

theorem execWaitslotResume (c : CoreId) : Answers (Machine.execWaitslotResume c s) := by
  unfold Machine.execWaitslotResume
  grind [next]

theorem execFenceRelease (c : CoreId) : Answers (Machine.execFenceRelease c s) := by
  unfold Machine.execFenceRelease
  grind [next]

theorem execLoopStart (c : CoreId) : Answers (Machine.execLoopStart c s) := by
  unfold Machine.execLoopStart
  grind [next]

theorem execLoopEnd (c : CoreId) : Answers (Machine.execLoopEnd c s) := by
  unfold Machine.execLoopEnd
  grind [next]

theorem execTrlImageReadDone (flash : List Byte) : Answers (Machine.execTrlImageReadDone flash s) := by
  unfold Machine.execTrlImageReadDone
  grind [next]

theorem execTrlVerifyDone  : Answers (Machine.execTrlVerifyDone s) := by
  unfold Machine.execTrlVerifyDone
  grind [next]

theorem execCellarTrainDone (failed : List (Fin 16)) : Answers (Machine.execCellarTrainDone failed s) := by
  unfold Machine.execCellarTrainDone
  grind [next]

theorem execQuiescePoint  : Answers (Machine.execQuiescePoint s) := by
  unfold Machine.execQuiescePoint
  grind [next]

theorem execQuiesceTimeout  : Answers (Machine.execQuiesceTimeout s) := by
  unfold Machine.execQuiesceTimeout
  grind [next]

theorem execPartitionApplyDone  : Answers (Machine.execPartitionApplyDone s) := by
  unfold Machine.execPartitionApplyDone
  grind [next]

theorem execPatrolScrubLine (e : DramErr) : Answers (Machine.execPatrolScrubLine e s) := by
  unfold Machine.execPatrolScrubLine
  grind [next]

theorem execCellarFillDone  : Answers (Machine.execCellarFillDone s) := by
  unfold Machine.execCellarFillDone
  grind [next]

theorem execFlitReceive (p : PortId) {flit : List Byte} (hl : flit.length = 256) (fecCorrected fecUncorrectable : Bool) :
    Answers (Machine.execFlitReceive p flit fecCorrected fecUncorrectable s) := by
  unfold Machine.execFlitReceive
  rw [if_neg (not_not_intro hl)]
  grind [next]

theorem execFlitRetryTimeout (p : PortId) : Answers (Machine.execFlitRetryTimeout p s) := by
  unfold Machine.execFlitRetryTimeout
  grind [next]

theorem execTchTrainDone (p : PortId) (t : TrainResult) : Answers (Machine.execTchTrainDone p t s) := by
  unfold Machine.execTchTrainDone
  grind [next]

theorem execTchLinkDown (p : PortId) : Answers (Machine.execTchLinkDown p s) := by
  unfold Machine.execTchLinkDown
  grind [next]

theorem execTchForward (p : PortId) : Answers (Machine.execTchForward p s) := by
  unfold Machine.execTchForward
  grind [next]

theorem execTchWrite (p : PortId) : Answers (Machine.execTchWrite p s) := onPacket _ _ _

theorem execTchRead (p : PortId) : Answers (Machine.execTchRead p s) := onPacket _ _ _

theorem execTchSignal (p : PortId) : Answers (Machine.execTchSignal p s) := onPacket _ _ _

theorem execTchWack (p : PortId) : Answers (Machine.execTchWack p s) := onPacket _ _ _

theorem execTchRdata (p : PortId) : Answers (Machine.execTchRdata p s) := onPacket _ _ _

theorem execTchSack (p : PortId) : Answers (Machine.execTchSack p s) := onPacket _ _ _

theorem execTchNack (p : PortId) : Answers (Machine.execTchNack p s) := onPacket _ _ _

theorem execTchTimeout (tag : Fin 65536) : Answers (Machine.execTchTimeout tag s) := by
  unfold Machine.execTchTimeout
  grind [next]

theorem execTchSum (p : PortId) : Answers (Machine.execTchSum p s) := onPacket _ _ _

theorem execTchResult (p : PortId) : Answers (Machine.execTchResult p s) := onPacket _ _ _

theorem execTchStaged (p : PortId) : Answers (Machine.execTchStaged p s) := onPacket _ _ _

theorem execTchCommit (p : PortId) : Answers (Machine.execTchCommit p s) := onPacket _ _ _

theorem execTchAbort (p : PortId) : Answers (Machine.execTchAbort p s) := onPacket _ _ _

theorem execTchBarup (p : PortId) : Answers (Machine.execTchBarup p s) := onPacket _ _ _

theorem execTchBardown (p : PortId) : Answers (Machine.execTchBardown p s) := onPacket _ _ _

theorem execRoundTimeout (g : GroupId) (tile : Nat) : Answers (Machine.execRoundTimeout g tile s) := by
  unfold Machine.execRoundTimeout
  grind [next]

theorem execEthFrameReceive (p : Fin 4) (f : Frame) (e : SramErr) : Answers (Machine.execEthFrameReceive p f e s) := by
  unfold Machine.execEthFrameReceive
  grind [next]

theorem execHxtOpen (assign : SessId) (inRate : Bool) : Answers (Machine.execHxtOpen assign inRate s) := by
  unfold Machine.execHxtOpen
  grind [next]

theorem execHxtAuth  : Answers (Machine.execHxtAuth s) := by
  unfold Machine.execHxtAuth
  grind [next]

theorem execHxtWrite  : Answers (Machine.execHxtWrite s) := by
  unfold Machine.execHxtWrite
  grind [next]

theorem execHxtRead (de : LineErrs) : Answers (Machine.execHxtRead de s) := by
  unfold Machine.execHxtRead
  grind [next]

theorem execOrderedMessageStart (n : CtxId) : Answers (Machine.execOrderedMessageStart n s) := by
  unfold Machine.execOrderedMessageStart
  grind [next]

theorem execHxtMessageComplete (n : CtxId) (seq : Nat) : Answers (Machine.execHxtMessageComplete n seq s) := by
  unfold Machine.execHxtMessageComplete
  grind [next]

theorem execHxtAckonly  : Answers (Machine.execHxtAckonly s) := by
  unfold Machine.execHxtAckonly
  grind [next]

theorem execAckTimer (n : CtxId) : Answers (Machine.execAckTimer n s) := by
  unfold Machine.execAckTimer
  grind [next]

theorem execHxtRtoExpiry (n : CtxId) (seq : Nat) : Answers (Machine.execHxtRtoExpiry n seq s) := by
  unfold Machine.execHxtRtoExpiry
  grind [next]

theorem execEventMessageSend (n : CtxId) : Answers (Machine.execEventMessageSend n s) := by
  unfold Machine.execEventMessageSend
  grind [next]

theorem execHalfopenTimeout (n : CtxId) : Answers (Machine.execHalfopenTimeout n s) := by
  unfold Machine.execHalfopenTimeout
  grind [next]

theorem execLingerExpiry (n : CtxId) : Answers (Machine.execLingerExpiry n s) := by
  unfold Machine.execLingerExpiry
  grind [next]

theorem execGateEntryExpiry (p : Fin 4) : Answers (Machine.execGateEntryExpiry p s) := by
  unfold Machine.execGateEntryExpiry
  grind [next]

theorem execEgressFrameDone (p : Fin 4) : Answers (Machine.execEgressFrameDone p s) := by
  unfold Machine.execEgressFrameDone
  grind (gen := 40) (ematch := 40) (splits := 40) [next]

theorem execProvisionOwner (hash : BitVec 512) : Answers (Machine.execProvisionOwner hash s) := by
  unfold Machine.execProvisionOwner
  grind [next]

theorem execKillScrubDone (p : PartId) : Answers (Machine.execKillScrubDone p s) := by
  unfold Machine.execKillScrubDone
  grind [next]

theorem execVendorUnlockEffect  : Answers (Machine.execVendorUnlockEffect s) := by
  unfold Machine.execVendorUnlockEffect
  grind [next]

theorem execAttestationDone  : Answers (Machine.execAttestationDone s) := by
  unfold Machine.execAttestationDone
  grind [next]

theorem execPorchFirmwareLoaded (copyA copyB : List Byte) (pufOk : Bool)
    : Answers (Machine.execPorchFirmwareLoaded copyA copyB pufOk s) := by
  unfold Machine.execPorchFirmwareLoaded
  grind [next]

theorem execHubFirmwareLoaded (copyA copyB : List Byte) : Answers (Machine.execHubFirmwareLoaded copyA copyB s) := by
  unfold Machine.execHubFirmwareLoaded
  grind [next]

theorem execQuadGate (q : QuadId) : Answers (Machine.execQuadGate q s) := by
  unfold Machine.execQuadGate
  grind [next]

theorem execQuadPowerOnDone (q : QuadId) : Answers (Machine.execQuadPowerOnDone q s) := by
  unfold Machine.execQuadPowerOnDone
  grind [next]

theorem execD3EntryDone  : Answers (Machine.execD3EntryDone s) := by
  unfold Machine.execD3EntryDone
  grind [next]

theorem execD3WakeDone  : Answers (Machine.execD3WakeDone s) := by
  unfold Machine.execD3WakeDone
  grind [next]

theorem execSensorSample {x : Readings} (hx : x.wellFormed = true) : Answers (Machine.execSensorSample x s) := by
  unfold Machine.execSensorSample
  grind [next, Readings.wellFormed]

theorem execThermalStepTick  : Answers (Machine.execThermalStepTick s) := by
  unfold Machine.execThermalStepTick
  grind [next]

theorem execProchotIn (pclk : Nat) : Answers (Machine.execProchotIn pclk s) := by
  unfold Machine.execProchotIn
  grind [next]

theorem execI3cRead (off : BitVec 16) (len : Nat) : Answers (Machine.execI3cRead off len s) := by
  unfold Machine.execI3cRead
  grind [next]

theorem execI3cAddressAssign (setdasa : Bool) (static_ dyn : BitVec 7)
    : Answers (Machine.execI3cAddressAssign setdasa static_ dyn s) := by
  unfold Machine.execI3cAddressAssign
  grind [next]

theorem execPtpSync (x : Sync) : Answers (Machine.execPtpSync x s) := by
  unfold Machine.execPtpSync
  grind [next]

theorem execMeterCharge  : Answers (Machine.execMeterCharge s) := by
  unfold Machine.execMeterCharge
  grind [next]

theorem execCalscaleUpdate (railsEnergy packageEnergy : Nat)
    : Answers (Machine.execCalscaleUpdate railsEnergy packageEnergy s) := by
  unfold Machine.execCalscaleUpdate
  grind [next]

theorem execHubWatchdog  : Answers (Machine.execHubWatchdog s) := by
  unfold Machine.execHubWatchdog
  grind [next]

theorem execCoreQuiesceScrub (c : CoreId) : Answers (Machine.execCoreQuiesceScrub c s) := by
  unfold Machine.execCoreQuiesceScrub
  grind [next]

theorem execPmbusAlert (pclk : Nat) (faults : List (Fin 10)) : Answers (Machine.execPmbusAlert pclk faults s) := by
  unfold Machine.execPmbusAlert
  grind [next]

theorem execRailInTolerance (rail : Fin 10) : Answers (Machine.execRailInTolerance rail s) := by
  unfold Machine.execRailInTolerance
  grind [next]

theorem execRailSequenceTimeout (rail : Fin 10) : Answers (Machine.execRailSequenceTimeout rail s) := by
  unfold Machine.execRailSequenceTimeout
  grind [next]

theorem execAvsUpdate (q : QuadId) (targetMv : Nat) : Answers (Machine.execAvsUpdate q targetMv s) := by
  unfold Machine.execAvsUpdate
  grind [next]

theorem execEthLinkTrainDone (p : EthId) (ok preempt : Bool) : Answers (Machine.execEthLinkTrainDone p ok preempt s) := by
  unfold Machine.execEthLinkTrainDone
  grind [next]

theorem execEthLinkLoss (p : EthId) : Answers (Machine.execEthLinkLoss p s) := by
  unfold Machine.execEthLinkLoss
  grind [next]

theorem execMgmtFrameReceive (f : Frame) (assign : Fin 4) : Answers (Machine.execMgmtFrameReceive f assign s) := by
  unfold Machine.execMgmtFrameReceive
  grind [next]

theorem execRekeyTimeout (n : CtxId) : Answers (Machine.execRekeyTimeout n s) := by
  unfold Machine.execRekeyTimeout
  grind [next]

theorem execConvDone (c : CoreId) : Answers (Machine.execConvDone c s) := by
  unfold Machine.execConvDone
  grind [next]

theorem execSortDone (c : CoreId) : Answers (Machine.execSortDone c s) := by
  unfold Machine.execSortDone
  grind [next]

theorem execCoreScrubDone (c : CoreId) : Answers (Machine.execCoreScrubDone c s) := by
  unfold Machine.execCoreScrubDone
  grind [next]

theorem execDebugTokenCheckDone  : Answers (Machine.execDebugTokenCheckDone s) := by
  unfold Machine.execDebugTokenCheckDone
  grind [next]

theorem execCbsCreditRecovered (p : Fin 4) (q : Fin 8) : Answers (Machine.execCbsCreditRecovered p q s) := by
  unfold Machine.execCbsCreditRecovered
  grind [next]

end Answers

theorem exec_answers {i : Instr} (hw : i.wellFormed = true) (s : State) : Answers (Machine.exec i s) := by
  cases i with
  | registerWrite _ _ _ _ => exact .next _
  | registerReadClear _ _ _ => exact .next _
  | loHalfRead _ _ => exact .next _
  | brickStepBegin _ _ _ _ => exact Answers.execBrickStepBegin _ _ _ _
  | brickStepComplete _ _ => exact Answers.execBrickStepComplete _ _
  | brickSwap _ _ _ => exact Answers.execBrickSwap _ _ _
  | anchorTableWritten _ _ _ _ => exact Answers.execAnchorTableWritten _ _ _ _
  | groupPartialAdd _ _ _ _ _ _ _ => exact Answers.execGroupPartialAdd _ _ _ _ _ _ _
  | arrCntclr _ => exact Answers.execArrCntclr _
  | gaugeSampleStart _ _ => exact Answers.execGaugeSampleStart _ _
  | gaugeSampleDone _ _ _ => exact Answers.execGaugeSampleDone _ _ _
  | outputChunk _ _ _ _ => exact Answers.execOutputChunk _ _ _ _
  | outputPathEnd _ _ => exact Answers.execOutputPathEnd _ _
  | imatchRowEnd _ _ => exact Answers.execImatchRowEnd _ _
  | mergeTreeDone _ _ => exact Answers.execMergeTreeDone _ _
  | hubMergeDeliver _ _ => exact Answers.execHubMergeDeliver _ _
  | scoutPassDone _ _ => exact Answers.execScoutPassDone _ _
  | programStoreLoad _ => exact Answers.execProgramStoreLoad _
  | engineQueueAdmit _ _ => exact Answers.execEngineQueueAdmit _ _
  | vprogStart _ => exact Answers.execVprogStart _
  | vprogDone _ => exact Answers.execVprogDone _
  | rakeDone _ => exact Answers.execRakeDone _
  | slotDeclare _ _ _ _ => exact Answers.execSlotDeclare _ _ _ _
  | slotClear _ _ => exact Answers.execSlotClear _ _
  | slotAccessResume _ _ => exact Answers.execSlotAccessResume _ _
  | slotTimeout _ _ => exact Answers.execSlotTimeout _ _
  | inboundAccess _ _ _ _ => exact Answers.execInboundAccess _ _ _ _
  | dmaGo _ _ _ => exact .next _
  | dmaHalt _ _ _ => exact .next _
  | dmaRowComplete _ _ _ _ => exact Answers.execDmaRowComplete _ _ _ _
  | dmaDescriptorComplete _ _ => exact Answers.execDmaDescriptorComplete _ _
  | stagingHalfRefill _ _ _ _ => exact Answers.execStagingHalfRefill _ _ _ _
  | pantryWb _ _ => exact .next _
  | pantryWbinv _ _ => exact .next _
  | pantryInvz _ _ => exact .next _
  | pantryOpDone => exact Answers.execPantryOpDone
  | pantryCntsel _ _ => exact .next _
  | dispenserPresent _ => exact Answers.execDispenserPresent _
  | deferredArm _ => exact Answers.execDeferredArm _
  | claimServe _ => exact Answers.execClaimServe _
  | commitResolve _ _ => exact Answers.execCommitResolve _ _
  | partialSumArrival _ _ => exact Answers.execPartialSumArrival _ _
  | bump _ _ => exact .next _
  | rewind _ _ => exact .next _
  | disarm _ _ => exact .next _
  | ringWriteIndex _ _ _ => exact .next _
  | layer _ => exact .next _
  | layerContextFree _ => exact Answers.execLayerContextFree _
  | setprec _ => exact .next _
  | claim _ => exact .next _
  | loadw _ => exact .next _
  | loada _ => exact .next _
  | preload _ => exact .next _
  | scout _ => exact .next _
  | step _ => exact .next _
  | tileOpen _ _ => exact Answers.execTileOpen _ _
  | drain _ => exact .next _
  | commit _ => exact .next _
  | commitSend _ _ => exact Answers.execCommitSend _ _
  | commitStore _ _ => exact Answers.execCommitStore _ _
  | reducePart _ => exact .next _
  | reduceSum _ => exact .next _
  | reduceGroup _ => exact .next _
  | contributionSend _ _ => exact Answers.execContributionSend _ _
  | gaugeForce _ => exact .next _
  | gaugeSkip _ => exact .next _
  | vprog _ => exact .next _
  | rake _ => exact .next _
  | conv _ => exact .next _
  | dma _ => exact .next _
  | sort _ => exact .next _
  | merge _ => exact .next _
  | nop _ => exact .next _
  | waitslot _ => exact .next _
  | waitslotResume _ => exact Answers.execWaitslotResume _
  | signalFull _ => exact .next _
  | signalRelease _ => exact .next _
  | signalRemoteFull _ => exact .next _
  | signalRemoteRelease _ => exact .next _
  | fence _ => exact .next _
  | fenceRelease _ => exact Answers.execFenceRelease _
  | branch _ => exact .next _
  | loopStart _ => exact Answers.execLoopStart _
  | loopEnd _ => exact Answers.execLoopEnd _
  | event _ => exact .next _
  | halt _ => exact .next _
  | seqGo _ _ => exact .next _
  | seqStop _ _ => exact .next _
  | seqClr _ _ => exact .next _
  | trlGo _ _ => exact .next _
  | trlImageReadDone _ => exact Answers.execTrlImageReadDone _
  | trlVerifyDone => exact Answers.execTrlVerifyDone
  | cellarTrainDone _ => exact Answers.execCellarTrainDone _
  | quiescePoint => exact Answers.execQuiescePoint
  | quiesceTimeout => exact Answers.execQuiesceTimeout
  | partitionApplyDone => exact Answers.execPartitionApplyDone
  | patrolScrubLine _ => exact Answers.execPatrolScrubLine _
  | moduleThermal _ _ => exact .next _
  | cellarFillGo _ => exact .next _
  | cellarFillHalt _ => exact .next _
  | cellarFillDone => exact Answers.execCellarFillDone
  | flitReceive _ _ _ _ => exact Answers.execFlitReceive _ (of_decide_eq_true hw) _ _
  | flitRetryTimeout _ => exact Answers.execFlitRetryTimeout _
  | tchRetrain _ _ => exact .next _
  | tchDisable _ _ => exact .next _
  | tchTrainDone _ _ => exact Answers.execTchTrainDone _ _
  | tchLinkDown _ => exact Answers.execTchLinkDown _
  | tchForward _ => exact Answers.execTchForward _
  | tchWrite _ => exact Answers.execTchWrite _
  | tchRead _ => exact Answers.execTchRead _
  | tchSignal _ => exact Answers.execTchSignal _
  | tchWack _ => exact Answers.execTchWack _
  | tchRdata _ => exact Answers.execTchRdata _
  | tchSack _ => exact Answers.execTchSack _
  | tchNack _ => exact Answers.execTchNack _
  | tchTimeout _ => exact Answers.execTchTimeout _
  | tchSum _ => exact Answers.execTchSum _
  | tchResult _ => exact Answers.execTchResult _
  | tchStaged _ => exact Answers.execTchStaged _
  | tchCommit _ => exact Answers.execTchCommit _
  | tchAbort _ => exact Answers.execTchAbort _
  | tchBarup _ => exact Answers.execTchBarup _
  | tchBardown _ => exact Answers.execTchBardown _
  | groupOpen _ _ _ => exact .next _
  | groupAbort _ _ => exact .next _
  | roundTimeout _ _ => exact Answers.execRoundTimeout _ _
  | ethFrameReceive _ _ _ => exact Answers.execEthFrameReceive _ _ _
  | hxtOpen _ _ => exact Answers.execHxtOpen _ _
  | hxtAuth => exact Answers.execHxtAuth
  | hxtClose => exact .next _
  | hxtWrite => exact Answers.execHxtWrite
  | hxtRead _ => exact Answers.execHxtRead _
  | submitRing => exact .next _
  | submitReg => exact .next _
  | submitSignal => exact .next _
  | submitAperture => exact .next _
  | submitBindkey => exact .next _
  | hxtFence => exact .next _
  | hxtKill => exact .next _
  | hxtStat => exact .next _
  | orderedMessageStart _ => exact Answers.execOrderedMessageStart _
  | hxtMessageComplete _ _ => exact Answers.execHxtMessageComplete _ _
  | hxtAckonly => exact Answers.execHxtAckonly
  | ackTimer _ => exact Answers.execAckTimer _
  | hxtRtoExpiry _ _ => exact Answers.execHxtRtoExpiry _ _
  | eventMessageSend _ => exact Answers.execEventMessageSend _
  | halfopenTimeout _ => exact Answers.execHalfopenTimeout _
  | lingerExpiry _ => exact Answers.execLingerExpiry _
  | authLockoutExpiry _ => exact .next _
  | gateEntryExpiry _ => exact Answers.execGateEntryExpiry _
  | egressFrameDone _ => exact Answers.execEgressFrameDone _
  | sesKillGo _ _ => exact .next _
  | tenantWrite _ _ => exact .next _
  | tenantClear _ _ => exact .next _
  | provisionOwner _ => exact Answers.execProvisionOwner _
  | rollbackAdvance _ _ => exact .next _
  | partitionKill _ _ => exact .next _
  | killScrubDone _ => exact Answers.execKillScrubDone _
  | debugUnlock _ => exact .next _
  | vendorUnlockEffect => exact Answers.execVendorUnlockEffect
  | debugExpiry => exact .next _
  | attestationReport _ => exact .next _
  | attestationDone => exact Answers.execAttestationDone
  | coldReset _ => exact .next _
  | porchFirmwareLoaded _ _ _ => exact Answers.execPorchFirmwareLoaded _ _ _
  | hubFirmwareLoaded _ _ => exact Answers.execHubFirmwareLoaded _ _
  | sramZeroFillDone => exact .next _
  | quadGate _ => exact Answers.execQuadGate _
  | quadUngate _ => exact .next _
  | qoff _ _ _ => exact .next _
  | qon _ _ _ => exact .next _
  | quadPowerOnDone _ => exact Answers.execQuadPowerOnDone _
  | d3Request _ => exact .next _
  | d3EntryDone => exact Answers.execD3EntryDone
  | wakeMgmtFrame _ => exact .next _
  | wakePin _ => exact .next _
  | wakeTimer => exact .next _
  | d3WakeDone => exact Answers.execD3WakeDone
  | sensorSample _ => exact Answers.execSensorSample hw
  | thermalStepTick => exact Answers.execThermalStepTick
  | prochotIn _ => exact Answers.execProchotIn _
  | i3cRead _ _ => exact Answers.execI3cRead _ _
  | i3cWrite _ _ => exact .next _
  | i3cAddressAssign _ _ _ => exact Answers.execI3cAddressAssign _ _ _
  | ptpSync _ => exact Answers.execPtpSync _
  | ptpSyncLoss => exact .next _
  | meterCharge => exact Answers.execMeterCharge
  | calscaleUpdate _ _ => exact Answers.execCalscaleUpdate _ _
  | budgetWindowBoundary _ _ => exact .next _
  | sessionBudgetWrite _ _ _ => exact .next _
  | hubWatchdog => exact Answers.execHubWatchdog
  | evtRdidxWrite _ _ => exact .next _
  | warmReset _ _ => exact .next _
  | wrstPin _ => exact .next _
  | partitionReset _ _ => exact .next _
  | coreQuiesce _ _ _ _ => exact .next _
  | coreQuiesceForce _ _ => exact .next _
  | coreQuiesceScrub _ => exact Answers.execCoreQuiesceScrub _
  | coreEnable _ _ => exact .next _
  | tileForce _ _ => exact .next _
  | suspectClear _ _ => exact .next _
  | pmbusAlert _ _ => exact Answers.execPmbusAlert _ _
  | railInTolerance _ => exact Answers.execRailInTolerance _
  | railSequenceTimeout _ => exact Answers.execRailSequenceTimeout _
  | avsUpdate _ _ => exact Answers.execAvsUpdate _ _
  | ethLinkTrainDone _ _ _ => exact Answers.execEthLinkTrainDone _ _ _
  | ethLinkLoss _ => exact Answers.execEthLinkLoss _
  | mgmtFrameReceive _ _ => exact Answers.execMgmtFrameReceive _ _
  | rekeyTimeout _ => exact Answers.execRekeyTimeout _
  | convDone _ => exact Answers.execConvDone _
  | sortDone _ => exact Answers.execSortDone _
  | coreScrubDone _ => exact Answers.execCoreScrubDone _
  | debugTokenCheckDone => exact Answers.execDebugTokenCheckDone
  | porstNAssert => exact .next _
  | standbyPowerLoss => exact .next _
  | prochotNRelease => exact .next _
  | cbsCreditRecovered _ _ => exact Answers.execCbsCreditRecovered _ _
  | decommission => exact .next _

/-- Settles O6: every branch of a command's meaning that faults needs an operand that is not well formed. -/
theorem noCommandStops : Obligations.NoCommandStops := fun _ s hw => exec_answers hw s

end Sys2Proof.Machine
end

section
set_option Elab.async false
/-! What a command leaves unchanged: rules for the terms `only`, `onlyCore`, `onlyTile` and `onlyRegs` of the statements. -/

namespace Sys2Proof
open Sys2Proof.Machine

variable {ps : List Part} {s₀ s t u : State}

theorem Part.same_trans (p : Part) (h : p.same s t) (k : p.same t u) : p.same s u := by
  cases p <;> simp_all [Part.same]

theorem only.refl (ps : List Part) (s : State) : only ps s s := fun p => by cases p <;> simp [Part.same]

theorem only.trans (h : only ps s t) (k : only ps t u) : only ps s u := fun p =>
  (h p).elim .inl fun a => (k p).imp_right fun b => p.same_trans a b

theorem only.mono {qs : List Part} (h : only ps s t) (hq : ∀ p ∈ ps, p ∈ qs) : only qs s t := fun p => (h p).imp_left (hq p)

/-- An update of fields changes the parts of those fields. -/
theorem only.fields (h : only ps s₀ s) {a1 a2 a3 a4 a5 a6 a7 a8 a9 a10 a11 a12 a13 a14 a15 a16 a17 a18 a19 a20 a21}
    (h1 : .pending ∈ ps ∨ a1 = s.pending) (h2 : .free ∈ ps ∨ a2 = s.free) (h3 : .outbox ∈ ps ∨ a3 = s.outbox)
    (h4 : .regs ∈ ps ∨ a4 = s.regs) (h5 : .latches ∈ ps ∨ a5 = s.latchRd) (h6 : .latches ∈ ps ∨ a6 = s.latchWr)
    (h7 : .mem ∈ ps ∨ a7 = s.mem) (h8 : .cores ∈ ps ∨ a8 = s.cores) (h9 : .sdt ∈ ps ∨ a9 = s.sdt)
    (h10 : .pnt ∈ ps ∨ a10 = s.pnt) (h11 : .clr ∈ ps ∨ a11 = s.clr) (h12 : .tch ∈ ps ∨ a12 = s.tch)
    (h13 : .eth ∈ ps ∨ a13 = s.eth) (h14 : .ses ∈ ps ∨ a14 = s.ses) (h15 : .sec ∈ ps ∨ a15 = s.sec)
    (h16 : .trl ∈ ps ∨ a16 = s.trl) (h17 : .cfg ∈ ps ∨ a17 = s.cfg) (h18 : .retained ∈ ps ∨ a18 = s.retained)
    (h19 : .prc ∈ ps ∨ a19 = s.prc) (h20 : .mtr ∈ ps ∨ a20 = s.mtr) (h21 : .evt ∈ ps ∨ a21 = s.evt) :
    only ps s₀ (State.mk a1 a2 a3 a4 a5 a6 a7 a8 a9 a10 a11 a12 a13 a14 a15 a16 a17 a18 a19 a20 a21) := by
  refine h.trans fun p => ?_
  cases p
  case latches => exact h5.elim .inl fun e => h6.imp_right (⟨e, ·⟩)
  all_goals assumption

/-! ### Registers -/

theorem onlyRegs.refl (l : List Nat) (s : State) : onlyRegs l s s := fun _ _ => .inr rfl

theorem onlyRegs.of_regs_eq {l : List Nat} {s t : State} (h : t.regs = s.regs) : onlyRegs l s t := fun _ _ => .inr (by rw [h])

theorem onlyRegs.trans {l : List Nat} {s t u : State} (h : onlyRegs l s t) (k : onlyRegs l t u) : onlyRegs l s u := fun d a =>
  (h d a).elim .inl fun e => (k d a).imp_right (·.trans e)

theorem onlyRegs.setRg {l : List Nat} {s₀ s : State} (h : onlyRegs l s₀ s) (n : RegName) (c i j : Nat) (v : W32)
    (hm : regAddr n c i j ∈ l) : onlyRegs l s₀ (s.setRg n c i j v) := fun d a =>
  (h d a).elim .inl fun e => by
    by_cases ha : a = regAddr n c i j
    · exact .inl (ha ▸ hm)
    · exact .inr ((Sparse.get_put_ne d _ _ v ha).trans e)

end Sys2Proof

end

section
/-! The step: the front command with the queue's rest, or one edge of PCLK; and memory after reset. -/

namespace Sys2Proof.Machine

/-- Settles O1, by the equation of `step` at a queue that is not empty. -/
theorem stepRunsFrontCommand : Obligations.StepRunsFrontCommand := by
  intro c rest s h
  simp only [step, h]

theorem idle_of_running {s : State} (hp : s.prc.porst = false) (hs : s.prc.standby = true) : s.idle = { s with prc := s.prc.tick } := by
  simp [State.idle, hp, hs]

theorem idle_of_still {s : State} (h : s.prc.porst = true ∨ s.prc.standby = false) : s.idle = s := by
  rcases h with h | h <;> simp [State.idle, h]

/-- Settles O2: a step with an empty queue is `State.idle`. -/
theorem emptyQueueTicks : Obligations.EmptyQueueTicks := by
  intro s h
  have hstep : step s = .next s.idle := by simp only [step, h]
  constructor
  · rintro ⟨hp, hs⟩
    refine ⟨_, hstep, ?_, ?_⟩
    · rw [idle_of_running hp hs]
      have h := only.refl [.prc] s
      grind [only.fields]
    · rw [idle_of_running hp hs]
      rfl
  · intro hx
    rw [hstep, idle_of_still hx]

/-- Settles O5: the reset state lists no byte. -/
theorem resetMemory : Obligations.ResetMemory := ⟨rfl, fun _ => rfl⟩

end Sys2Proof.Machine
end

section
set_option Elab.async false
/-! Register accesses: what a write of a register's RW fields and a read with its RC fields and latch do. -/

namespace Sys2Proof.Machine
open Sys2Proof
variable {s t : State} {r : Req} {x : RegRef}

/-! ### Clocks -/

theorem State.ungateFor_congr (hp : t.prc = s.prc) (h : s.ungateFor x = s) : t.ungateFor x = t := by
  unfold State.ungateFor State.ungate at *
  have hq : t.quad = s.quad := by funext q; simp only [State.quad, hp]
  split
  · next hc =>
    rw [if_pos hc] at h
    rw [hq]
    split
    · next hg =>
      rw [if_pos hg] at h
      have := congrArg (·.quad (quadOf x.c)) h
      simp [hg] at this
    · rfl
  · rfl

/-! ### Writes -/

theorem State.regWrite_reach {a n : Nat} {v : W32} (h : s.reach r a n true = some x) :
    s.regWrite r a n v = (true, s.writeReg r x v) := by
  simp only [State.regWrite, h]

theorem State.regWrite_refused {a n : Nat} {v : W32} (h : s.reach r a n true = none) :
    s.regWrite r a n v = (false, s.refuse r a) := by
  simp only [State.regWrite, h]

/-- A write that carries no reserved code, meets no busy unit, and starts no action stores its RW fields. -/
theorem State.writeReg_rw {v : W32} (hu : s.ungateFor x = s) (hr : reservedIn x.fields v.toNat = false)
    (hb : s.regBusy x v.toNat = false) (hc : actsClash x.n v.toNat = false) (hh : x.hi = false) (hi : hasAcc x.fields .img = false)
    (h1 : s.coreAct r x v.toNat = none) (h2 : s.memAct r x v.toNat = none) (h3 : s.hubAct r x v.toNat = none) :
    s.writeReg r x v = s.storeRw x v := by
  simp [State.writeReg, State.regEffect, hu, hr, hb, hc, hh, hi, h1, h2, h3]

theorem State.writeReg_reserved {v : W32} (hu : s.ungateFor x = s) (hr : reservedIn x.fields v.toNat = true) :
    s.writeReg r x v = s.access r x.addr := by
  simp [State.writeReg, hu, hr]

/-- The RW fields of a single register: a mask of none changes nothing. -/
theorem State.storeRw_single {v : W32} (hp : x.n.row.pair = false) :
    s.storeRw x v = if maskOf x.n.row.fs (· = .rw) = 0 then s else s.setRg x.n x.c x.i x.j
      ((s.rg x.n x.c x.i x.j &&& ~~~maskOf x.n.row.fs (· = .rw)) ||| (v &&& maskOf x.n.row.fs (· = .rw))) := by
  simp [State.storeRw, hp]

theorem State.rg_storeRw {v : W32} (hp : x.n.row.pair = false) : (s.storeRw x v).rg x.n x.c x.i x.j =
    (s.rg x.n x.c x.i x.j &&& ~~~maskOf x.n.row.fs (· = .rw)) ||| (v &&& maskOf x.n.row.fs (· = .rw)) := by
  rw [State.storeRw_single hp]
  split
  · next h =>
    rw [h]
    change _ = (_ &&& ~~~0#32) ||| (v &&& 0#32)
    rw [BitVec.not_zero, BitVec.and_allOnes, BitVec.and_zero, BitVec.or_zero]
  · simp

theorem State.storeRw_frame {v : W32} (hp : x.n.row.pair = false) :
    onlyRegs [regAddr x.n x.c x.i x.j] s (s.storeRw x v) ∧ only [.regs] s (s.storeRw x v) ∧ (s.storeRw x v).outbox = s.outbox := by
  rw [State.storeRw_single hp]
  have hk := only.refl [.regs] s
  split
  · exact ⟨onlyRegs.refl _ s, hk, rfl⟩
  · exact ⟨(onlyRegs.refl _ s).setRg _ _ _ _ _ (by simp), by unfold State.setRg; grind [only.fields], rfl⟩

/-! ### Reads -/

theorem State.regRead_reach {a n : Nat} (h : s.reach r a n false = some x) :
    s.regRead r a n = (some (s.readValue x), (((s.latchFor x).readClear x (s.readValue x)).freeRead x).ungateFor x) := by
  simp only [State.regRead, h]

theorem State.regRead_refused {a n : Nat} (h : s.reach r a n false = none) : s.regRead r a n = (none, s.refuse r a) := by
  simp only [State.regRead, h]

theorem State.readValue_of_lo (h : x.hi = false) : s.readValue x = s.regValue x := by simp [State.readValue, h]

theorem State.latchFor_single (h : x.n.row.pair = false) : s.latchFor x = s := by simp [State.latchFor, h]

/-- Only two registers take a free value when read, and neither is a pair nor has an RC field. -/
theorem State.freeRead_of_ne (h1 : x.n ≠ .arrStatus) (h2 : x.n ≠ .rkeStatus) : s.freeRead x = s := by
  simp [State.freeRead, h1, h2]

theorem rkeStatus_single : RegName.rkeStatus.row.pair = false := by decide

theorem rkeStatus_no_rc : maskOf RegName.rkeStatus.row.fs (· = .rc) = 0 := by decide

/-- Settles O7, from what an admitted write stores and what a refused one answers. -/
theorem registerWrite : Obligations.RegisterWrite := by
  refine ⟨?_, ?_, ?_⟩
  · intro r a v s x hx hu hr hb hc hh hp hi h1 h2 h3
    obtain ⟨hregs, honly, hout⟩ := State.storeRw_frame (s := s) (v := v) hp
    refine ⟨(s.storeRw x v).send (.done r), ?_, State.rg_storeRw hp, hregs, ?_, ?_⟩
    · simp only [exec, execRegisterWrite, State.regWrite_reach hx, State.writeReg_rw hu hr hb hc hh hi h1 h2 h3, if_true]
    · simp [State.send, hout]
    · have hk := honly.mono (qs := [.regs, .outbox]) (by simp)
      unfold State.send
      grind [only.fields]
  · intro r a v s x hx hu hr
    simp only [exec, execRegisterWrite, State.regWrite_reach hx, State.writeReg_reserved hu hr, if_true]
  · intro r a n v s hx
    simp [exec, execRegisterWrite, State.regWrite_refused hx]

/-- Settles O8, from the value a read returns, the RC fields it clears and the latch it sets. -/
theorem registerReads : Obligations.RegisterReads := by
  refine ⟨?_, ?_, ?_⟩
  · intro r a s x hx hu hp hh hn hm
    have hf : x.fields = x.n.row.fs := by simp [RegRef.fields, hh]
    have hn' : x.n ≠ .rkeStatus := fun e => hm (by rw [hf, e]; exact rkeStatus_no_rc)
    have hread : s.readTo r a.toNat 4 =
        (s.setRg x.n x.c x.i x.j (s.regValue x &&& ~~~maskOf x.fields (· = .rc))).send (.regData r (s.regValue x)) := by
      rw [State.readTo, State.regRead_reach hx, State.latchFor_single hp, State.readValue_of_lo hh]
      simp only [State.readClear, hm, if_false, hh, State.freeRead_of_ne hn hn', Option.getD_some, Bool.false_eq_true]
      rw [State.ungateFor_congr (s := s) (t := s.setRg x.n x.c x.i x.j _) rfl hu]
    refine ⟨_, congrArg Host.Outcome.next hread, by simp [State.send], by simp, ?_, ?_⟩
    · exact ((onlyRegs.refl _ s).setRg _ _ _ _ _ (by simp)).trans (.of_regs_eq rfl)
    · have hk := only.refl [.regs, .outbox] s
      unfold State.send State.setRg
      grind [only.fields]
  · intro r a s x hx hu hp hh hm hn
    have hn' : x.n ≠ .rkeStatus := fun e => by simp [e, rkeStatus_single] at hp
    have hread : s.readTo r a.toNat 4 = (s.latchFor x).send (.regData r (s.regValue x)) := by
      rw [State.readTo, State.regRead_reach hx, State.readValue_of_lo hh]
      simp only [State.readClear, hm, if_true, State.freeRead_of_ne hn hn', Option.getD_some]
      rw [State.ungateFor_congr (s := s) (by unfold State.latchFor; split <;> rfl) hu]
    have hl : s.latchFor x = { s with latchRd := Sparse.put none s.latchRd (regAddr x.n x.c x.i x.j) (some (s.regValue { x with hi := true })) } := by
      simp [State.latchFor, hp, hh]
    refine ⟨_, congrArg Host.Outcome.next hread, by rw [hl]; rfl, ?_, by rw [hl]; rfl, ?_⟩
    · rw [hl]
      simp [State.readValue, State.send]
    · have hk := only.refl [.latches, .outbox] s
      rw [hl]
      unfold State.send
      grind [only.fields]
  · intro r a n s
    constructor <;> intro hx
    · simp [exec, execRegisterReadClear, State.readTo, State.regRead_refused hx]
    · simp [exec, execLoHalfRead, State.readTo, State.regRead_refused hx]

/-- Settles O9: a read of _HI takes the latch, and empties it. -/
theorem latchedHalfIsReadOnce : Obligations.LatchedHalfIsReadOnce := by
  intro s x v hp hh hv
  constructor
  · simp [State.readValue, hh, hv]
  · simp [State.readValue, State.latchFor, hp, hh]

end Sys2Proof.Machine
end

section
set_option Elab.async false
/-! Folds, and the cores, tiles, dispensers and sessions that a change does not reach. -/

namespace Sys2Proof
open Sys2Proof.Machine
variable {ps : List Part} {s₀ s t u : State} {c : Nat}

theorem only.each {α : Type} (h : only ps s₀ s) (l : List α) (f : State → α → State) (hf : ∀ t x, only ps s₀ t → only ps s₀ (f t x)) :
    only ps s₀ (s.each l f) := State.each_inv s (only ps s₀) l f hf h

theorem only.foldl {α : Type} (h : only ps s₀ s) (l : List α) (f : State → α → State) (hf : ∀ t x, only ps s₀ t → only ps s₀ (f t x)) :
    only ps s₀ (l.foldl f s) := h.each l f hf

/-! ### Cores -/

theorem onlyCore.refl (c : Nat) (s : State) : onlyCore c s s := fun _ _ => rfl

theorem onlyCore.trans (h : onlyCore c s t) (k : onlyCore c t u) : onlyCore c s u := fun d hd => (k d hd).trans (h d hd)

theorem onlyCore.of_cores_eq (h : onlyCore c s₀ s) (e : t.cores = s.cores) : onlyCore c s₀ t := fun d hd => by
  rw [← h d hd, State.core, State.core, e]

/-- An update of other fields than the cores reaches no core. -/
theorem onlyCore.fields (h : onlyCore c s₀ s) {a1 a2 a3 a4 a5 a6 a7 a9 a10 a11 a12 a13 a14 a15 a16 a17 a18 a19 a20 a21} :
    onlyCore c s₀ (State.mk a1 a2 a3 a4 a5 a6 a7 s.cores a9 a10 a11 a12 a13 a14 a15 a16 a17 a18 a19 a20 a21) :=
  h.of_cores_eq rfl

theorem onlyCore.each {α : Type} (h : onlyCore c s₀ s) (l : List α) (f : State → α → State)
    (hf : ∀ t x, onlyCore c s₀ t → onlyCore c s₀ (f t x)) : onlyCore c s₀ (s.each l f) := State.each_inv s (onlyCore c s₀) l f hf h

theorem onlyCore.setCore (h : onlyCore c s₀ s) (x : Core) : onlyCore c s₀ (s.setCore c x) := fun d hd => by
  rw [State.core_setCore_ne s x hd, h d hd]

theorem onlyCore.log (h : onlyCore c s₀ s) (e : Event) : onlyCore c s₀ (s.log e) := h.of_cores_eq (State.log_cores s e)

/-- A change that does not change the cores reaches none. -/
theorem onlyCore.of_only (h : only ps s t) (hp : .cores ∉ ps) : onlyCore c s t :=
  (onlyCore.refl c s).of_cores_eq ((h .cores).resolve_left hp)

/-! ### Tiles -/

theorem onlyTile.refl (c h : Nat) (s : State) : onlyTile c h s s := fun _ _ => rfl

theorem onlyTile.trans {h : Nat} (a : onlyTile c h s t) (b : onlyTile c h t u) : onlyTile c h s u := fun d hd => (b d hd).trans (a d hd)

theorem onlyTile.of_tiles_eq {h : Nat} (a : onlyTile c h s₀ s) (e : ∀ k, t.tile c k = s.tile c k) : onlyTile c h s₀ t :=
  fun d hd => (e d).trans (a d hd)

theorem onlyTile.modTile {h : Nat} (a : onlyTile c h s₀ s) (f : Tile → Tile) : onlyTile c h s₀ (s.modTile c h f) := fun d hd => by
  rw [State.tile_modTile_ne s f hd, a d hd]

/-! ### The log -/

theorem only.log (h : only ps s₀ s) (m1 : Part.regs ∈ ps) (m2 : Part.ses ∈ ps) (m3 : Part.evt ∈ ps) (e : Event) :
    only ps s₀ (s.log e) := by
  unfold State.log
  refine only.each ?_ _ _ fun t n ht => ?_
  · have hc (x : State) (hx : only ps s₀ x) (n : RegName) : only ps s₀ (x.count n 0 0 1) := by
      unfold State.count State.setRg
      grind [only.fields]
    grind [only.fields]
  · unfold State.modSess
    grind [only.fields]

/-! ### Bytes -/

theorem only.setBytes (h : only ps s₀ s) (m1 : Part.mem ∈ ps) (a : Nat) (bs : List Byte) : only ps s₀ (s.setBytes a bs) :=
  h.trans fun p => by cases p <;> simp [Part.same, m1]

theorem only.zeroRange (h : only ps s₀ s) (m1 : Part.mem ∈ ps) (a n : Nat) : only ps s₀ (s.zeroRange a n) := by
  unfold State.zeroRange
  grind [only.fields]

theorem onlyCore.setBytes (h : onlyCore c s₀ s) (a : Nat) (bs : List Byte) : onlyCore c s₀ (s.setBytes a bs) :=
  h.of_cores_eq (State.setBytes_cores s a bs)

end Sys2Proof
end

section
set_option Elab.async false
/-! What shared operations leave unchanged. -/

namespace Sys2Proof
open Sys2Proof.Machine
variable {ps : List Part} {s₀ s t u : State} {c cc : Nat}

theorem only.setRg (hk : only ps s₀ s) (m1 : Part.regs ∈ ps) (n : RegName) (c i j : Nat) (v : W32)
    : only ps s₀ (s.setRg n c i j v) := by
  unfold State.setRg
  grind [only.fields]

theorem only.setRgHi (hk : only ps s₀ s) (m1 : Part.regs ∈ ps) (n : RegName) (c i j : Nat) (v : W32)
    : only ps s₀ (s.setRgHi n c i j v) := by
  unfold State.setRgHi
  grind [only.fields]

theorem only.setRg64 (hk : only ps s₀ s) (m1 : Part.regs ∈ ps) (n : RegName) (c i j v : Nat)
    : only ps s₀ (s.setRg64 n c i j v) := by
  unfold State.setRg64
  grind [only.fields, only.setRg, only.setRgHi]

theorem only.count (hk : only ps s₀ s) (m1 : Part.regs ∈ ps) (n : RegName) (c i k : Nat) : only ps s₀ (s.count n c i k) := by
  unfold State.count
  grind [only.fields, only.setRg]

theorem only.count64 (hk : only ps s₀ s) (m1 : Part.regs ∈ ps) (n : RegName) (c k : Nat) : only ps s₀ (s.count64 n c k) := by
  unfold State.count64
  grind [only.fields, only.setRg64]

theorem only.setCore (hk : only ps s₀ s) (m1 : Part.cores ∈ ps) (c : Nat) (x : Core) : only ps s₀ (s.setCore c x) := by
  unfold State.setCore
  grind [only.fields]

theorem only.modCore (hk : only ps s₀ s) (m1 : Part.cores ∈ ps) (c : Nat) (f : Core → Core) : only ps s₀ (s.modCore c f) := by
  unfold State.modCore
  grind [only.fields, only.setCore]

theorem only.modTile (hk : only ps s₀ s) (m1 : Part.cores ∈ ps) (c h : Nat) (f : Tile → Tile)
    : only ps s₀ (s.modTile c h f) := by
  unfold State.modTile
  grind [only.fields, only.modCore]

theorem only.modArr (hk : only ps s₀ s) (m1 : Part.cores ∈ ps) (c : Nat) (f : Arr → Arr) : only ps s₀ (s.modArr c f) := by
  unfold State.modArr
  grind [only.fields, only.modCore]

theorem only.setSlot (hk : only ps s₀ s) (m1 : Part.cores ∈ ps) (c n : Nat) (x : Slot) : only ps s₀ (s.setSlot c n x) := by
  unfold State.setSlot
  grind [only.fields, only.modCore]

theorem only.act (hk : only ps s₀ s) (m1 : Part.cores ∈ ps) (c j n : Nat) : only ps s₀ (s.act c j n) := by
  unfold State.act
  grind [only.fields, only.modCore]

theorem only.coreEvent (hk : only ps s₀ s) (m1 : Part.regs ∈ ps) (m2 : Part.ses ∈ ps) (m3 : Part.evt ∈ ps)
    (c code cls detail : Nat) : only ps s₀ (s.coreEvent c code cls detail) := by
  unfold State.coreEvent
  grind [only.fields, only.log]

theorem only.spdErr (hk : only ps s₀ s) (m1 : Part.regs ∈ ps) (c kind num : Nat) (nowin : Bool := false)
    : only ps s₀ (s.spdErr c kind num nowin) := by
  unfold State.spdErr
  grind [only.fields, only.setRg]

theorem only.slotTouch (hk : only ps s₀ s) (m1 : Part.cores ∈ ps) (c off len : Nat) (wr : Bool)
    : only ps s₀ (s.slotTouch c off len wr) := by
  unfold State.slotTouch
  grind [only.fields, only.each, only.setSlot]

theorem only.slotClass (hk : only ps s₀ s) (m1 : Part.regs ∈ ps) (m2 : Part.ses ∈ ps) (m3 : Part.evt ∈ ps) (c n : Nat)
    (r : Option Req) (wr : Bool) (cls : Nat) : only ps s₀ (s.slotClass c n r wr cls) := by
  unfold State.slotClass
  grind [only.fields, only.spdErr, only.log, only.coreEvent]

theorem only.wordAct (hk : only ps s₀ s) (m1 : Part.cores ∈ ps) (c off len : Nat) : only ps s₀ (s.wordAct c off len) := by
  unfold State.wordAct
  grind [only.fields, only.act]

theorem only.flagTile (hk : only ps s₀ s) (m1 : Part.cores ∈ ps) (c h : Nat) (l : List Nat)
    : only ps s₀ (s.flagTile c h l) := by
  unfold State.flagTile
  grind [only.fields, only.modTile]

theorem only.modBind (hk : only ps s₀ s) (m1 : Part.cores ∈ ps) (c h : Nat) (w : Bool) (f : Binding → Binding)
    : only ps s₀ (s.modBind c h w f) := by
  unfold State.modBind
  grind [only.fields, only.modTile]

theorem only.beginStep (hk : only ps s₀ s) (m1 : Part.regs ∈ ps) (m2 : Part.cores ∈ ps) (c b h : Nat) (g : Geo)
    (n promo ahead : Nat) : only ps s₀ (s.beginStep c b h g n promo ahead) := by
  unfold State.beginStep
  grind [only.fields, only.modArr, only.count64, only.flagTile, only.count]

theorem onlyCore.setRg (hk : onlyCore cc s₀ s) (n : RegName) (c i j : Nat) (v : W32) : onlyCore cc s₀ (s.setRg n c i j v) := by
  unfold State.setRg
  grind [onlyCore.fields]

theorem onlyCore.setRgHi (hk : onlyCore cc s₀ s) (n : RegName) (c i j : Nat) (v : W32)
    : onlyCore cc s₀ (s.setRgHi n c i j v) := by
  unfold State.setRgHi
  grind [onlyCore.fields]

theorem onlyCore.setRg64 (hk : onlyCore cc s₀ s) (n : RegName) (c i j v : Nat) : onlyCore cc s₀ (s.setRg64 n c i j v) := by
  unfold State.setRg64
  grind [onlyCore.fields, onlyCore.setRg, onlyCore.setRgHi]

theorem onlyCore.count (hk : onlyCore cc s₀ s) (n : RegName) (c i k : Nat) : onlyCore cc s₀ (s.count n c i k) := by
  unfold State.count
  grind [onlyCore.fields, onlyCore.setRg]

theorem onlyCore.count64 (hk : onlyCore cc s₀ s) (n : RegName) (c k : Nat) : onlyCore cc s₀ (s.count64 n c k) := by
  unfold State.count64
  grind [onlyCore.fields, onlyCore.setRg64]

theorem onlyCore.modCore (hk : onlyCore c s₀ s) (f : Core → Core) : onlyCore c s₀ (s.modCore c f) := by
  unfold State.modCore
  grind [onlyCore.fields, onlyCore.setCore]

theorem onlyCore.modTile (hk : onlyCore c s₀ s) (h : Nat) (f : Tile → Tile) : onlyCore c s₀ (s.modTile c h f) := by
  unfold State.modTile
  grind [onlyCore.fields, onlyCore.modCore]

theorem onlyCore.modArr (hk : onlyCore c s₀ s) (f : Arr → Arr) : onlyCore c s₀ (s.modArr c f) := by
  unfold State.modArr
  grind [onlyCore.fields, onlyCore.modCore]

theorem onlyCore.setSlot (hk : onlyCore c s₀ s) (n : Nat) (x : Slot) : onlyCore c s₀ (s.setSlot c n x) := by
  unfold State.setSlot
  grind [onlyCore.fields, onlyCore.modCore]

theorem onlyCore.act (hk : onlyCore c s₀ s) (j n : Nat) : onlyCore c s₀ (s.act c j n) := by
  unfold State.act
  grind [onlyCore.fields, onlyCore.modCore]

theorem onlyCore.coreEvent (hk : onlyCore cc s₀ s) (c code cls detail : Nat)
    : onlyCore cc s₀ (s.coreEvent c code cls detail) := by
  unfold State.coreEvent
  grind [onlyCore.fields, onlyCore.log]

theorem onlyCore.spdErr (hk : onlyCore cc s₀ s) (c kind num : Nat) (nowin : Bool := false)
    : onlyCore cc s₀ (s.spdErr c kind num nowin) := by
  unfold State.spdErr
  grind [onlyCore.fields, onlyCore.setRg]

theorem onlyCore.slotTouch (hk : onlyCore c s₀ s) (off len : Nat) (wr : Bool) : onlyCore c s₀ (s.slotTouch c off len wr) := by
  unfold State.slotTouch
  grind [onlyCore.fields, onlyCore.each, onlyCore.setSlot]

theorem onlyCore.slotClass (hk : onlyCore cc s₀ s) (c n : Nat) (r : Option Req) (wr : Bool) (cls : Nat)
    : onlyCore cc s₀ (s.slotClass c n r wr cls) := by
  unfold State.slotClass
  grind [onlyCore.fields, onlyCore.spdErr, onlyCore.log, onlyCore.coreEvent]

theorem onlyCore.stallOn (hk : onlyCore c s₀ s) (x : Stall) : onlyCore c s₀ (s.stallOn c x) := by
  unfold State.stallOn
  grind [onlyCore.fields, onlyCore.modCore, onlyCore.setRg]

theorem onlyCore.wordAct (hk : onlyCore c s₀ s) (off len : Nat) : onlyCore c s₀ (s.wordAct c off len) := by
  unfold State.wordAct
  grind [onlyCore.fields, onlyCore.act]

theorem onlyCore.flagTile (hk : onlyCore c s₀ s) (h : Nat) (l : List Nat) : onlyCore c s₀ (s.flagTile c h l) := by
  unfold State.flagTile
  grind [onlyCore.fields, onlyCore.modTile]

theorem onlyCore.modBind (hk : onlyCore c s₀ s) (h : Nat) (w : Bool) (f : Binding → Binding)
    : onlyCore c s₀ (s.modBind c h w f) := by
  unfold State.modBind
  grind [onlyCore.fields, onlyCore.modTile]

theorem onlyCore.beginStep (hk : onlyCore c s₀ s) (b h : Nat) (g : Geo) (n promo ahead : Nat)
    : onlyCore c s₀ (s.beginStep c b h g n promo ahead) := by
  unfold State.beginStep
  grind [onlyCore.fields, onlyCore.modArr, onlyCore.count64, onlyCore.flagTile, onlyCore.count]

end Sys2Proof
end

section
set_option Elab.async false
/-! What reads and writes of a tile's slots leave of its core. -/

namespace Sys2Proof.Machine
open Sys2Proof
variable {s₀ s t u : State} {c cc hh : Nat}

/-- What an operand's reads and a tile's writes to its slots leave of core `c` and its tile `h`: the array, the layers' contexts, and
the tile but for its bindings and flags. -/
structure Steady (c h : Nat) (s t : State) : Prop where
  tile : ∃ a w f, t.tile c h = { s.tile c h with bindA := a, bindW := w, tsw := f }
  ctxs : (t.core c).seq.ctxs = (s.core c).seq.ctxs
  arr : (t.core c).arr = (s.core c).arr

theorem Steady.refl (c h : Nat) (s : State) : Steady c h s s := ⟨⟨_, _, _, rfl⟩, rfl, rfl⟩

theorem Steady.of_cores_eq (hk : Steady cc hh s₀ s) (e : t.cores = s.cores) : Steady cc hh s₀ t := by
  have hc (d : Nat) : t.core d = s.core d := by rw [State.core, State.core, e]
  obtain ⟨h1, h2, h3⟩ := hk
  exact ⟨by rwa [State.tile, hc], by rw [hc, h2], by rw [hc, h3]⟩

theorem Steady.fields (hk : Steady cc hh s₀ s) {a1 a2 a3 a4 a5 a6 a7 a9 a10 a11 a12 a13 a14 a15 a16 a17 a18 a19 a20 a21} :
    Steady cc hh s₀ (State.mk a1 a2 a3 a4 a5 a6 a7 s.cores a9 a10 a11 a12 a13 a14 a15 a16 a17 a18 a19 a20 a21) := hk.of_cores_eq rfl

theorem Steady.modCore (hk : Steady cc hh s₀ s) (c : Nat) (f : Core → Core)
    (hf : ∀ k, (f k).tiles = k.tiles ∧ (f k).seq.ctxs = k.seq.ctxs ∧ (f k).arr = k.arr) : Steady cc hh s₀ (s.modCore c f) := by
  by_cases hc : cc = c
  · subst hc
    obtain ⟨h1, h2, h3⟩ := hf (s.core cc)
    have ht : (s.modCore cc f).tile cc hh = s.tile cc hh := by
      rw [State.tile, State.core_modCore_self, Core.tile, h1]
      rfl
    exact ⟨by rw [ht]; exact hk.tile, by rw [State.core_modCore_self, h2, hk.ctxs], by rw [State.core_modCore_self, h3, hk.arr]⟩
  · have hc' : (s.modCore c f).core cc = s.core cc := State.core_modCore_ne s f hc
    exact ⟨by rw [State.tile, hc']; exact hk.tile, by rw [hc', hk.ctxs], by rw [hc', hk.arr]⟩

/-- A change of a tile's bindings and flags. -/
theorem Steady.modTile (hk : Steady cc hh s₀ s) (c h : Nat) (f : Tile → Tile)
    (hf : ∀ t, ∃ a w x, f t = { t with bindA := a, bindW := w, tsw := x }) : Steady cc hh s₀ (s.modTile c h f) := by
  have hc : ((s.modTile c h f).core cc).seq = (s.core cc).seq ∧ ((s.modTile c h f).core cc).arr = (s.core cc).arr := by
    by_cases hc : cc = c
    · subst hc
      simp [State.modTile, Core.modTile]
    · rw [State.modTile, State.core_modCore_ne s _ hc]
      exact ⟨rfl, rfl⟩
  refine ⟨?_, by rw [hc.1, hk.ctxs], by rw [hc.2, hk.arr]⟩
  obtain ⟨a, w, x, e⟩ := hk.tile
  by_cases hc : cc = c
  · subst hc
    by_cases hh' : hh = h
    · subst hh'
      obtain ⟨a', w', x', e'⟩ := hf (s.tile cc hh)
      exact ⟨a', w', x', by rw [State.tile_modTile_self, e', e]⟩
    · exact ⟨a, w, x, by rw [State.tile_modTile_ne s f hh', e]⟩
  · exact ⟨a, w, x, by rw [State.tile, State.modTile, State.core_modCore_ne s _ hc]; exact e⟩

theorem Steady.each {α : Type} (hk : Steady cc hh s₀ s) (l : List α) (f : State → α → State)
    (hf : ∀ t x, Steady cc hh s₀ t → Steady cc hh s₀ (f t x)) : Steady cc hh s₀ (s.each l f) :=
  State.each_inv s (Steady cc hh s₀) l f hf hk

theorem Steady.tileDesc (hk : Steady cc hh s t) : t.tileDesc cc hh = s.tileDesc cc hh := by
  obtain ⟨a, w, x, e⟩ := hk.tile
  simp only [State.tileDesc, State.tileCtx, State.ctxOf, hk.ctxs, e]

/-- The columns of a tile's step rows follow from its descriptor. -/
theorem Steady.cols (hk : Steady cc hh s t) : (t.geo cc hh).cols = (s.geo cc hh).cols := by
  have h := hk.tileDesc
  unfold State.tileDesc at h
  simp only [State.geo, State.geoAt, h]

theorem Steady.setRg (hk : Steady cc hh s₀ s) (n : RegName) (c i j : Nat) (v : W32) : Steady cc hh s₀ (s.setRg n c i j v) := by
  unfold State.setRg
  grind [Steady.fields]

theorem Steady.count (hk : Steady cc hh s₀ s) (n : RegName) (c i k : Nat) : Steady cc hh s₀ (s.count n c i k) := by
  unfold State.count
  grind [Steady.fields, Steady.setRg]

theorem Steady.setSlot (hk : Steady cc hh s₀ s) (c n : Nat) (x : Slot) : Steady cc hh s₀ (s.setSlot c n x) :=
  hk.modCore _ _ fun _ => ⟨rfl, rfl, rfl⟩

theorem Steady.act (hk : Steady cc hh s₀ s) (c j n : Nat) : Steady cc hh s₀ (s.act c j n) :=
  hk.modCore _ _ fun _ => ⟨rfl, rfl, rfl⟩

theorem Steady.log (hk : Steady cc hh s₀ s) (e : Event) : Steady cc hh s₀ (s.log e) := hk.of_cores_eq (State.log_cores s e)

theorem Steady.coreEvent (hk : Steady cc hh s₀ s) (c code cls detail : Nat)
    : Steady cc hh s₀ (s.coreEvent c code cls detail) := by
  unfold State.coreEvent
  grind [Steady.fields, Steady.log]

theorem Steady.setBytes (hk : Steady cc hh s₀ s) (a : Nat) (bs : List Byte) : Steady cc hh s₀ (s.setBytes a bs) :=
  hk.of_cores_eq (State.setBytes_cores s a bs)

theorem Steady.setSpad (hk : Steady cc hh s₀ s) (c off : Nat) (bs : List Byte) : Steady cc hh s₀ (s.setSpad c off bs) := by
  unfold State.setSpad
  grind [Steady.fields, Steady.setBytes]

theorem Steady.spdErr (hk : Steady cc hh s₀ s) (c kind num : Nat) (nowin : Bool := false)
    : Steady cc hh s₀ (s.spdErr c kind num nowin) := by
  unfold State.spdErr
  grind [Steady.fields, Steady.setRg]

theorem Steady.slotTouch (hk : Steady cc hh s₀ s) (c off len : Nat) (wr : Bool)
    : Steady cc hh s₀ (s.slotTouch c off len wr) := by
  unfold State.slotTouch
  grind [Steady.fields, Steady.each, Steady.setSlot]

theorem Steady.slotClass (hk : Steady cc hh s₀ s) (c n : Nat) (r : Option Req) (wr : Bool) (cls : Nat)
    : Steady cc hh s₀ (s.slotClass c n r wr cls) := by
  unfold State.slotClass
  grind [Steady.fields, Steady.spdErr, Steady.log, Steady.coreEvent]

theorem Steady.stallOn (hk : Steady cc hh s₀ s) (c : Nat) (x : Stall) : Steady cc hh s₀ (s.stallOn c x) := by
  have h := hk.modCore c (fun k => { k with stalls := k.stalls ++ [x] }) fun _ => ⟨rfl, rfl, rfl⟩
  exact h.of_cores_eq rfl

theorem Steady.wordAct (hk : Steady cc hh s₀ s) (c off len : Nat) : Steady cc hh s₀ (s.wordAct c off len) := by
  unfold State.wordAct
  grind [Steady.fields, Steady.act]

theorem Steady.spadRead (hk : Steady cc hh s₀ s) (c off len cls : Nat) (waited : List Nat := [])
    : Steady cc hh s₀ (s.spadRead c off len cls waited).2 := by
  unfold State.spadRead
  grind [Steady.fields, Steady.slotClass, Steady.slotTouch, Steady.wordAct]

theorem Steady.ringHook (hk : Steady cc hh s₀ s) (c off : Nat) (bs : List Byte) : Steady cc hh s₀ (s.ringHook c off bs) := by
  unfold State.ringHook
  extract_lets
  split
  · exact hk.modCore _ _ fun _ => ⟨rfl, rfl, rfl⟩
  · exact hk

theorem Steady.store (hk : Steady cc hh s₀ s) (c off : Nat) (bs : List Byte) : Steady cc hh s₀ (s.store c off bs) := by
  unfold State.store
  grind [Steady.fields, Steady.setSpad, Steady.ringHook, Steady.wordAct]

theorem Steady.spadWrite (hk : Steady cc hh s₀ s) (c off : Nat) (bs : List Byte) (cls : Nat)
    : Steady cc hh s₀ (s.spadWrite c off bs cls).2 := by
  unfold State.spadWrite
  grind [Steady.fields, Steady.slotClass, Steady.slotTouch, Steady.store]

theorem Steady.flagTile (hk : Steady cc hh s₀ s) (c h : Nat) (l : List Nat) : Steady cc hh s₀ (s.flagTile c h l) :=
  hk.modTile _ _ _ fun _ => ⟨_, _, _, rfl⟩

theorem Steady.tileEvent (hk : Steady cc hh s₀ s) (c h code cls detail : Nat)
    : Steady cc hh s₀ (s.tileEvent c h code cls detail) := by
  unfold State.tileEvent
  grind [Steady.fields, Steady.log]

theorem Steady.sveErr (hk : Steady cc hh s₀ s) (c kind tile : Nat) : Steady cc hh s₀ (s.sveErr c kind tile) := by
  unfold State.sveErr
  grind [Steady.fields, Steady.setRg]

theorem Steady.zrlBad (hk : Steady cc hh s₀ s) (c h row : Nat) : Steady cc hh s₀ (s.zrlBad c h row) := by
  unfold State.zrlBad
  grind [Steady.fields, Steady.flagTile, Steady.count, Steady.sveErr, Steady.tileEvent]

theorem Steady.modBind (hk : Steady cc hh s₀ s) (c h : Nat) (w : Bool) (f : Binding → Binding)
    : Steady cc hh s₀ (s.modBind c h w f) :=
  hk.modTile _ _ _ fun t => by unfold Tile.setBind; split <;> exact ⟨_, _, _, rfl⟩

theorem Steady.tileRead (hk : Steady cc hh s₀ s) (c h : Nat) (w : Bool) (off n : Nat) (waited : List Nat)
    : Steady cc hh s₀ (s.tileRead c h w off n waited).2 := by
  unfold State.tileRead
  grind [Steady.fields, Steady.spadRead, Steady.flagTile, Steady.stallOn]

theorem Steady.slotScales (hk : Steady cc hh s₀ s) (c h : Nat) (x : Side) (g : Geo)
    : Steady cc hh s₀ (s.slotScales c h x g).2 := by
  unfold State.slotScales
  grind [Steady.fields, Steady.tileRead, Steady.modBind]

theorem Steady.slotData (hk : Steady cc hh s₀ s) (c h : Nat) (x : Side) (g : Geo) : Steady cc hh s₀ (s.slotData c h x g).2 := by
  unfold State.slotData
  grind [Steady.fields, Steady.tileRead, Steady.modBind, Steady.each, Steady.zrlBad]

theorem Steady.sideReady (hk : Steady cc hh s₀ s) (c h : Nat) (x : Side) (g : Geo) (p : Nat)
    : Steady cc hh s₀ (s.sideReady c h x g p).2 := by
  unfold State.sideReady
  grind [Steady.fields, Steady.slotScales, Steady.slotData]

theorem Steady.opsReady (hk : Steady cc hh s₀ s) (c h : Nat) (g : Geo) (k : Nat) : Steady cc hh s₀ (s.opsReady c h g k).2 := by
  unfold State.opsReady
  grind [Steady.fields, Steady.sideReady]

theorem Steady.scalesReady (hk : Steady cc hh s₀ s) (c h : Nat) (g : Geo) : Steady cc hh s₀ (s.scalesReady c h g).2 := by
  unfold State.scalesReady
  grind [Steady.fields, Steady.slotScales]

end Sys2Proof.Machine
end

section
set_option Elab.async false
/-! Counters: what a register or a 64-bit pair reads after another one of the same core is written. -/

namespace Sys2Proof.Machine
open Sys2Proof
variable {s : State}

/-- Where a register of a core's control space stands in it. -/
def RegName.place (n : RegName) : Nat := n.row.b.base + n.row.off

/-- Two registers of a core's control space share no byte, pairs or not. -/
def RegName.apart (n m : RegName) : Bool :=
  n.row.b.isCore && m.row.b.isCore && (n.place + 8 ≤ m.place || m.place + 8 ≤ n.place)

theorem regAddr_core {n : RegName} (h : n.row.b.isCore = true) (c : Nat) : regAddr n c 0 0 = ctlBase c + n.place := by
  simp [regAddr, h, RegName.place, Nat.add_assoc]

theorem regAddr_of_apart {n m : RegName} (h : n.apart m = true) (c : Nat) :
    regAddr n c 0 0 + 8 ≤ regAddr m c 0 0 ∨ regAddr m c 0 0 + 8 ≤ regAddr n c 0 0 := by
  simp only [RegName.apart, Bool.and_eq_true, Bool.or_eq_true, decide_eq_true_eq] at h
  obtain ⟨⟨hn, hm⟩, hp⟩ := h
  rw [regAddr_core hn, regAddr_core hm]
  omega

theorem State.rg64_setRg64_self (n : RegName) (c v : Nat) (h : v < 2 ^ 64) : (s.setRg64 n c 0 0 v).rg64 n c = v := by
  have hlo : (s.setRg64 n c 0 0 v).rg n c 0 0 = BitVec.ofNat 32 v := by
    rw [State.rg, State.setRg64, State.setRgHi, Sparse.get_put_ne _ _ _ _ (by omega)]
    exact State.rg_setRg_self s n c 0 0 _
  have hhi : (s.setRg64 n c 0 0 v).rgHi n c 0 0 = BitVec.ofNat 32 (v / 2 ^ 32) := Sparse.get_put_self _ _ _ _
  rw [State.rg64, hlo, hhi, BitVec.toNat_ofNat, BitVec.toNat_ofNat]
  omega

theorem State.rg64_setRg64_apart {n m : RegName} (h : n.apart m = true) (c v : Nat) : (s.setRg64 m c 0 0 v).rg64 n c = s.rg64 n c := by
  have ha := regAddr_of_apart h c
  have hget (d : W32) (a : Nat) (h1 : a ≠ regAddr m c 0 0) (h2 : a ≠ regAddr m c 0 0 + 4) :
      Sparse.get d (s.setRg64 m c 0 0 v).regs a = Sparse.get d s.regs a :=
    (Sparse.get_put_ne d _ _ _ h2).trans (Sparse.get_put_ne d _ _ _ h1)
  simp only [State.rg64, State.rg, State.rgHi]
  rw [hget _ _ (by omega) (by omega), hget _ _ (by omega) (by omega)]

theorem State.rg64_count64_self (n : RegName) (c k : Nat) : (s.count64 n c k).rg64 n c = (s.rg64 n c + k) % 2 ^ 64 :=
  State.rg64_setRg64_self n c _ (Nat.mod_lt _ (by decide))

theorem State.rg64_count64_apart {n m : RegName} (h : n.apart m = true) (c k : Nat) : (s.count64 m c k).rg64 n c = s.rg64 n c :=
  State.rg64_setRg64_apart h c _

/-- Counters that are cleared one after another all read 0. -/
theorem State.rg64_each_clear {n : RegName} (c : Nat) (l : List RegName) (ha : ∀ m ∈ l, m = n ∨ n.apart m = true)
    (h : n ∈ l ∨ s.rg64 n c = 0) : (s.each l (fun t m => t.setRg64 m c 0 0 0)).rg64 n c = 0 := by
  induction l generalizing s with
  | nil => simpa using h
  | cons m l ih =>
    rw [State.each_cons]
    refine ih (fun k hk => ha k (List.mem_cons_of_mem _ hk)) ?_
    by_cases hm : m = n
    · exact .inr (hm ▸ State.rg64_setRg64_self m c 0 (by decide))
    · rw [State.rg64_setRg64_apart ((ha m List.mem_cons_self).resolve_left hm)]
      exact h.imp_left fun hn => (List.mem_cons.1 hn).resolve_left (Ne.symm hm)

end Sys2Proof.Machine
end

section
set_option Elab.async false
/-! Bricks (R81, R86, R89, R91). -/

namespace Sys2Proof.Machine
open Sys2Proof
variable {s t u : State} {c : CoreId} {b : BrickId} {h : Nat}

@[simp] theorem Arr.brick_modBrick_self (a : Arr) (b : Nat) (f : Brick → Brick) : (a.modBrick b f).brick b = f (a.brick b) :=
  Sparse.get_upd_self _ _ _ _

theorem State.arr_modArr_self (c : Nat) (f : Arr → Arr) : ((s.modArr c f).core c).arr = f (s.core c).arr := by
  rw [State.modArr, State.core_modCore_self]

@[simp] theorem State.vectorErr_none (c h : Nat) (g : Geo) (b n : Nat) : s.vectorErr c h g b n .none = s := rfl

theorem execBrickStepBegin_begins {promo ahead : Nat} (hcur : (s.core c.val).arr.cur = some h) (ho : s.coreOpen c.val = true)
    (hi : s.isImatch c.val h = false) (hb : b.val < (s.geo c.val h).bricks)
    (hd : ((s.core c.val).arr.brick b.val).done = ((s.core c.val).arr.brick b.val).begun)
    (hn : ((s.core c.val).arr.brick b.val).begun < (s.geo c.val h).steps)
    (ha : ((s.core c.val).arr.brick b.val).active = some ((s.geo c.val h).load ((s.core c.val).arr.brick b.val).begun))
    (hr : s.aheadAt c.val h (s.geo c.val h) ((s.core c.val).arr.brick b.val).begun = some ahead)
    (hu : s.opsReady c.val h (s.geo c.val h)
      ((s.geo c.val h).kRange ((s.geo c.val h).stepAt ((s.core c.val).arr.brick b.val).begun).2.1).2 = (true, u)) :
    exec (.brickStepBegin c b promo .none) s =
      .next (u.beginStep c.val b.val h (s.geo c.val h) ((s.core c.val).arr.brick b.val).begun promo ahead) := by
  simp [exec, execBrickStepBegin, hcur, ho, hi, hb, hd, hn, ha, hr, hu]

/-- A step that begins: the brick's own new state, and nothing else of the array but a wait that bricks share. -/
theorem State.arr_beginStep (c b h : Nat) (g : Geo) (n promo ahead : Nat) :
    ∃ k l, ((s.beginStep c b h g n promo ahead).core c).arr = { (s.core c).arr.modBrick b (fun _ => k) with lstall := l } ∧
      k.begun = n + 1 ∧ k.done = ((s.core c).arr.brick b).done ∧
      k.beginT = max (max ((s.core c).arr.brick b).doneT ahead) ((s.core c).arr.brick b).ready := by
  unfold State.beginStep
  extract_lets k v p base at_ wait stall first k1 s1 s2 s3
  have h3 : (s3.core c).arr = (s1.core c).arr := by
    simp only [s3]
    split <;> simp [s2]
  refine ⟨k1, stall.2, ?_, rfl, rfl, rfl⟩
  rw [← State.arr_modArr_self (s := s) c (fun a => { a.modBrick b (fun _ => k1) with lstall := stall.2 }), ← h3]
  split
  · simp [State.flagTile, State.modTile, Core.modTile]
  · rfl

theorem State.brick_beginStep (c b h : Nat) (g : Geo) (n promo ahead : Nat) :
    let k := ((s.beginStep c b h g n promo ahead).core c).arr.brick b
    k.begun = n + 1 ∧ k.done = ((s.core c).arr.brick b).done ∧
      k.beginT = max (max ((s.core c).arr.brick b).doneT ahead) ((s.core c).arr.brick b).ready := by
  obtain ⟨k, l, e, hk⟩ := State.arr_beginStep (s := s) c b h g n promo ahead
  have hb : ((s.beginStep c b h g n promo ahead).core c).arr.brick b = k := by
    rw [e]
    simp [Arr.brick, Arr.modBrick]
  simpa only [hb] using hk

theorem execBrickStepComplete_completes (hcur : (s.core c.val).arr.cur = some h) (ho : s.coreOpen c.val = true)
    (hb : b.val < (s.geo c.val h).bricks)
    (hd : ((s.core c.val).arr.brick b.val).begun = ((s.core c.val).arr.brick b.val).done + 1)
    (hn : ((s.core c.val).arr.brick b.val).done + 1 < (s.geo c.val h).steps) :
    ∃ f m k j i, exec (.brickStepComplete c b) s = .next ((((s.modArr c.val f).count64 .arrBcyc c.val
        ((s.core c.val).arr.brick b.val).cost).count64 .arrBstep c.val m).count64 .arrPstall c.val k |>.act c.val j i) ∧
      (f (s.core c.val).arr).brick b.val = { (s.core c.val).arr.brick b.val with
        done := ((s.core c.val).arr.brick b.val).done + 1
        doneT := ((s.core c.val).arr.brick b.val).beginT + ((s.core c.val).arr.brick b.val).cost +
          ((s.core c.val).arr.brick b.val).promo } := by
  have hne : ((s.core c.val).arr.brick b.val).done + 1 ≠ (s.geo c.val h).steps := by omega
  simp only [exec, execBrickStepComplete, hcur, ho, hb, hd, hne, Bool.true_and, decide_true, decide_false, Bool.false_and, if_true,
    Bool.false_eq_true, if_false]
  refine ⟨_, _, _, _, _, rfl, ?_⟩
  simpa [Arr.brick, Arr.modBrick] using hd

theorem execBrickSwap_swaps {full : Nat} (hcur : (s.core c.val).arr.cur = some h) (ho : s.coreOpen c.val = true)
    (hi : s.isImatch c.val h = false) (hb : b.val < (s.geo c.val h).bricks)
    (hd : ((s.core c.val).arr.brick b.val).done = ((s.core c.val).arr.brick b.val).begun)
    (hn : ((s.core c.val).arr.brick b.val).begun < (s.geo c.val h).steps)
    (ha : ((s.core c.val).arr.brick b.val).active ≠ some ((s.geo c.val h).load ((s.core c.val).arr.brick b.val).begun))
    (hf : (s.core c.val).arr.fullOk ((s.geo c.val h).fillTime ((s.core c.val).arr.brick b.val).begun) b.val full = true)
    (hu : s.sideReady c.val h (s.geo c.val h).d.parallel (s.geo c.val h)
      ((s.geo c.val h).kRange ((s.geo c.val h).stepAt ((s.core c.val).arr.brick b.val).begun).2.1).2 = (true, u)) :
    ∃ i j, exec (.brickSwap c b full) s = .next ((u.modArr c.val (·.modBrick b.val (fun k => { k with
      active := some ((s.geo c.val h).load ((s.core c.val).arr.brick b.val).begun), ready := full, fulls := k.fulls ++ [full],
      lanes := u.loadWords c.val h (s.geo c.val h) b.val ((s.core c.val).arr.brick b.val).begun, shadow := k.lanes }))).act c.val i j) := by
  simp only [exec, execBrickSwap, hcur, ho, hi, hb, hd, hn, ne_eq, ha, hf, hu, Bool.true_and, Bool.not_false, decide_true, not_false_eq_true,
    if_true]
  exact ⟨_, _, rfl⟩

/-- Settles O10, from what the begin of a step, its end and a swap do to the brick. -/
theorem bricks : Obligations.Bricks := by
  refine ⟨?_, ?_, ?_⟩
  · intro c b promo h ahead u s g k hcur ho hi hb hd hn ha hr hu
    have harr : (u.core c.val).arr = (s.core c.val).arr := by
      have hk := (Steady.refl c.val h s).opsReady c.val h g (g.kRange (g.stepAt k.begun).2.1).2
      rw [hu] at hk
      exact hk.arr
    obtain ⟨h1, h2, h3⟩ := State.brick_beginStep (s := u) c.val b.val h g k.begun promo ahead
    rw [harr] at h2 h3
    exact ⟨_, execBrickStepBegin_begins hcur ho hi hb hd hn ha hr hu, h1, h2, h3, (onlyCore.refl _ u).beginStep _ _ _ _ _ _,
      (only.refl _ u).beginStep (by simp) (by simp) _ _ _ _ _ _ _⟩
  · intro c b h s g k hcur ho hd hb hn
    obtain ⟨f, m, p, j, i, e, hf⟩ := execBrickStepComplete_completes hcur ho hb hd hn
    refine ⟨_, e, ?_, ?_, ?_, ?_, ?_⟩
    · simp [State.act, State.arr_modArr_self, hf, k]
    · simp [State.act, State.arr_modArr_self, hf, k]
    · rw [State.act, State.rg64_modCore, State.rg64_count64_apart (by decide), State.rg64_count64_apart (by decide),
        State.rg64_count64_self, State.modArr, State.rg64_modCore]
    · have hk := onlyCore.refl c.val s
      grind [onlyCore.modArr, onlyCore.count64, onlyCore.act]
    · have hk := only.refl [.cores, .regs] s
      grind [only.modArr, only.count64, only.act]
  · intro c b full h u s g k hcur ho hi hb hd hn ha hf hu
    have harr : (u.core c.val).arr = (s.core c.val).arr := by
      have hk := (Steady.refl c.val h s).sideReady c.val h g.d.parallel g (g.kRange (g.stepAt k.begun).2.1).2
      rw [hu] at hk
      exact hk.arr
    obtain ⟨i, j, e⟩ := execBrickSwap_swaps hcur ho hi hb hd hn ha hf hu
    refine ⟨_, e, ?_, ?_, ?_⟩
    · simp [State.act, State.arr_modArr_self, harr, k, g]
    · exact ((onlyCore.refl _ u).modArr _).act _ _
    · exact ((only.refl _ u).modArr (by simp) _ _).act (by simp) _ _ _

end Sys2Proof.Machine
end

section
set_option Elab.async false
/-! What shared operations leave unchanged. -/

namespace Sys2Proof
open Sys2Proof.Machine
variable {ps : List Part} {s₀ s t u : State} {c cc : Nat}

theorem only.modSeq (hk : only ps s₀ s) (m1 : Part.cores ∈ ps) (c : Nat) (f : Seq → Seq) : only ps s₀ (s.modSeq c f) := by
  unfold State.modSeq
  grind [only.fields, only.modCore]

theorem only.setSpad (hk : only ps s₀ s) (m1 : Part.mem ∈ ps) (c off : Nat) (bs : List Byte)
    : only ps s₀ (s.setSpad c off bs) := by
  unfold State.setSpad
  grind [only.fields, only.setBytes]

theorem only.ringHook (hk : only ps s₀ s) (m1 : Part.cores ∈ ps) (c off : Nat) (bs : List Byte)
    : only ps s₀ (s.ringHook c off bs) := by
  unfold State.ringHook
  grind [only.fields, only.modSeq]

theorem only.store (hk : only ps s₀ s) (m1 : Part.mem ∈ ps) (m2 : Part.cores ∈ ps) (c off : Nat) (bs : List Byte)
    : only ps s₀ (s.store c off bs) := by
  unfold State.store
  grind [only.fields, only.setSpad, only.ringHook, only.wordAct]

theorem only.spadWrite (hk : only ps s₀ s) (m1 : Part.regs ∈ ps) (m2 : Part.mem ∈ ps) (m3 : Part.cores ∈ ps)
    (m4 : Part.ses ∈ ps) (m5 : Part.evt ∈ ps) (c off : Nat) (bs : List Byte) (cls : Nat)
      : only ps s₀ (s.spadWrite c off bs cls).2 := by
  unfold State.spadWrite
  grind [only.fields, only.slotClass, only.slotTouch, only.store]

theorem only.addGroup (hk : only ps s₀ s) (m1 : Part.cores ∈ ps) (c h : Nat) (g : Geo) (row grp pass : Nat)
    : only ps s₀ (s.addGroup c h g row grp pass) := by
  unfold State.addGroup
  grind [only.fields, only.modTile, only.flagTile]

theorem only.cntclr (hk : only ps s₀ s) (m1 : Part.regs ∈ ps) (c : Nat) : only ps s₀ (s.cntclr c) := by
  unfold State.cntclr
  grind [only.fields, only.each, only.setRg64]

theorem onlyCore.modSeq (hk : onlyCore c s₀ s) (f : Seq → Seq) : onlyCore c s₀ (s.modSeq c f) := by
  unfold State.modSeq
  grind [onlyCore.fields, onlyCore.modCore]

theorem onlyCore.setSpad (hk : onlyCore cc s₀ s) (c off : Nat) (bs : List Byte) : onlyCore cc s₀ (s.setSpad c off bs) := by
  unfold State.setSpad
  grind [onlyCore.fields, onlyCore.setBytes]

theorem onlyCore.ringHook (hk : onlyCore c s₀ s) (off : Nat) (bs : List Byte) : onlyCore c s₀ (s.ringHook c off bs) := by
  unfold State.ringHook
  grind [onlyCore.fields, onlyCore.modSeq]

theorem onlyCore.store (hk : onlyCore c s₀ s) (off : Nat) (bs : List Byte) : onlyCore c s₀ (s.store c off bs) := by
  unfold State.store
  grind [onlyCore.fields, onlyCore.setSpad, onlyCore.ringHook, onlyCore.wordAct]

theorem onlyCore.spadWrite (hk : onlyCore c s₀ s) (off : Nat) (bs : List Byte) (cls : Nat)
    : onlyCore c s₀ (s.spadWrite c off bs cls).2 := by
  unfold State.spadWrite
  grind [onlyCore.fields, onlyCore.slotClass, onlyCore.slotTouch, onlyCore.store]

theorem onlyCore.addGroup (hk : onlyCore c s₀ s) (h : Nat) (g : Geo) (row grp pass : Nat)
    : onlyCore c s₀ (s.addGroup c h g row grp pass) := by
  unfold State.addGroup
  grind [onlyCore.fields, onlyCore.modTile, onlyCore.flagTile]

theorem onlyCore.anchored (hk : onlyCore c s₀ s) (h : Nat) (g : Geo) (row at_ : Nat)
    : onlyCore c s₀ (s.anchored c h g row at_) := by
  unfold State.anchored
  grind [onlyCore.fields, onlyCore.modTile, onlyCore.modArr]

theorem onlyCore.anchorWrite (hk : onlyCore c s₀ s) (h row off at_ : Nat) (bs : List Byte)
    : onlyCore c s₀ (s.anchorWrite c h row off at_ bs) := by
  unfold State.anchorWrite
  grind [onlyCore.fields, onlyCore.spadWrite, onlyCore.stallOn, onlyCore.anchored]

end Sys2Proof
end

section
/-! More of what an update leaves: the other parts of a core whose tile, sequencer or array changes. -/

namespace Sys2Proof.Machine
variable {s : State}

@[simp] theorem State.seq_modTile (c h : Nat) (f : Tile → Tile) (d : Nat) : ((s.modTile c h f).core d).seq = (s.core d).seq := by
  by_cases hd : d = c
  · subst hd
    simp [State.modTile, Core.modTile]
  · rw [State.modTile, State.core_modCore_ne s _ hd]

@[simp] theorem State.arr_modTile (c h : Nat) (f : Tile → Tile) (d : Nat) : ((s.modTile c h f).core d).arr = (s.core d).arr := by
  by_cases hd : d = c
  · subst hd
    simp [State.modTile, Core.modTile]
  · rw [State.modTile, State.core_modCore_ne s _ hd]

theorem State.tileCtx_modTile (c h : Nat) (f : Tile → Tile) (hf : (f (s.tile c h)).ctx = (s.tile c h).ctx) :
    (s.modTile c h f).tileCtx c h = s.tileCtx c h := by
  simp [State.tileCtx, State.ctxOf, hf]

theorem State.tileDesc_modTile (c h : Nat) (f : Tile → Tile) (hf : (f (s.tile c h)).ctx = (s.tile c h).ctx) :
    (s.modTile c h f).tileDesc c h = s.tileDesc c h := by
  simp [State.tileDesc, State.tileCtx_modTile c h f hf]

theorem State.tile_modCore (c : Nat) (f : Core → Core) (h : Nat) (hf : ∀ k, (f k).tiles = k.tiles) :
    (s.modCore c f).tile c h = s.tile c h := by
  rw [State.tile, State.core_modCore_self, Core.tile, hf]
  rfl

@[simp] theorem State.tile_act (c j n h : Nat) : (s.act c j n).tile c h = s.tile c h := State.tile_modCore c _ h fun _ => rfl

/-- No check of an attempt is due before its accumulation has ended (R169). -/
theorem State.attemptCheck_of_not_ended {c h : Nat} (he : (s.tile c h).ended = false) : s.attemptCheck c h = s := by
  simp [State.attemptCheck, he]

end Sys2Proof.Machine
end

section
set_option Elab.async false
/-! Anchors, group partials and the Gauge (R92, R104 to R107, R132, R149, R150). -/

namespace Sys2Proof.Machine
open Sys2Proof
variable {s t u : State} {c : CoreId} {h : Handle}

/-! ### A row of the accumulators -/

theorem overAt_get {i k : Nat} {l ys : List Acc} (hi : i ≤ l.length) (hk : k < ys.length) : (overAt i l ys)[i + k]? = ys[k]? := by
  rw [overAt, List.append_assoc, List.getElem?_append_right (by rw [List.length_take]; omega), List.getElem?_append_left (by simp; omega)]
  rw [List.length_take, Nat.min_eq_left hi, Nat.add_sub_cancel_left]

theorem overAt_length {i : Nat} {l ys : List Acc} (h : i + ys.length ≤ l.length) : (overAt i l ys).length = l.length := by
  simp only [overAt, List.length_append, List.length_take, List.length_drop]
  omega

/-- A row of the accumulators lies within them. -/
theorem row_le {r rows cols : Nat} (h : r < rows) : r * cols + cols ≤ rows * cols := by
  have := Nat.mul_le_mul_right cols h
  rwa [Nat.succ_mul] at this

@[simp] theorem State.acc_flagTile (c h : Nat) (l : List Nat) : ((s.flagTile c h l).tile c h).acc = (s.tile c h).acc := by
  simp [State.flagTile]

/-! ### Anchors -/

theorem State.slotCheck_modTile (c h : Nat) (f : Tile → Tile) (d off len : Nat) (wr : Bool) (cls : Nat) :
    (s.modTile c h f).slotCheck d off len wr cls = s.slotCheck d off len wr cls := by
  have hs (n : Nat) : (s.modTile c h f).slot d n = s.slot d n := by
    by_cases hd : d = c
    · subst hd
      simp [State.slot, State.modTile, Core.modTile]
    · rw [State.slot, State.modTile, State.core_modCore_ne s _ hd]
      rfl
  have hb : (s.modTile c h f).slotBusy d = s.slotBusy d := by
    funext n w
    rw [State.slotBusy, State.slotBusy, hs]
  simp only [State.slotCheck, hb]
  rfl

/-- The anchors that a step row's write leaves, each marked when the write is over. -/
theorem State.acc_anchored (c h : Nat) (g : Geo) (row at_ k : Nat) {a : Acc} (hk : k < g.cols)
    (ha : (s.tile c h).acc[row * g.cols + k]? = some a) :
    ((s.anchored c h g row at_).tile c h).acc[row * g.cols + k]? = some { a with anch := true } := by
  have hlen : row * g.cols + k < (s.tile c h).acc.length := (List.getElem?_eq_some_iff.1 ha).1
  have hacc : ((s.anchored c h g row at_).tile c h).acc = overAt (row * g.cols) (s.tile c h).acc
      ((((s.tile c h).acc.drop (row * g.cols)).take g.cols).map (fun y => { y with anch := true })) := by
    unfold State.anchored
    extract_lets done t
    have ht : (t.tile c h).acc = overAt (row * g.cols) (s.tile c h).acc (done (s.tile c h).acc) := by simp [t]
    split
    · simpa only [State.modArr, State.tile, Core.tile, State.core_modCore_self] using ht
    · exact ht
  rw [hacc, overAt_get (by omega) (by simp; omega)]
  simp [List.getElem?_drop, hk, ha]

/-- Writing the anchors' words marks the row, unless a slot stalls the write. -/
theorem State.acc_anchorWrite (c h row off at_ k : Nat) (bs : List Byte) {a : Acc}
    (hs : ∀ n, s.slotCheck c off bs.length true pOut ≠ .stall n) (hk : k < (s.geo c h).cols)
    (ha : (s.tile c h).acc[row * (s.geo c h).cols + k]? = some a) :
    ((s.anchorWrite c h row off at_ bs).tile c h).acc[row * (s.geo c h).cols + k]? = some { a with anch := true } := by
  have hk' := (Steady.refl c h s).spadWrite c off bs pOut
  generalize hw : s.spadWrite c off bs pOut = w at hk'
  have hns (n : Nat) : w.1 ≠ .stall n := by
    rw [← hw]
    unfold State.spadWrite
    have := hs
    grind
  obtain ⟨b, w', x, et⟩ := hk'.tile
  rw [← hk'.cols] at hk ha ⊢
  have ha' : (w.2.tile c h).acc[row * (w.2.geo c h).cols + k]? = some a := by rw [et]; exact ha
  unfold State.anchorWrite
  rw [hw]
  obtain ⟨_ | n | n, v⟩ := w
  · exact State.acc_anchored c h _ row at_ k hk ha'
  · exact State.acc_anchored c h _ row at_ k hk ha'
  · exact absurd rfl (hns n)

theorem State.anchorOut_plain (c h : Nat) (g : Geo) (pre : List Byte) (row k : Nat) (hp : (s.tile c h).pre = none) :
    s.anchorOut c h g pre row k =
      ({ anchor := g.anchor ((s.tile c h).bind g.d.serial.weight) ((s.tile c h).bind g.d.parallel.weight) row k none, anch := true }, []) := by
  simp only [State.anchorOut, hp]

theorem State.preRead_none (c h : Nat) (g : Geo) (hp : (s.tile c h).pre = none) : s.preRead c h g = (some [], s) := by
  simp only [State.preRead, hp]

/-- The accumulators of a step row as its anchors are written, not marked yet (R102). -/
def State.anchorRow (s : State) (c h : Nat) (g : Geo) (row : Nat) : List (Acc × List Nat) :=
  (upTo g.cols).map (fun k => if k < g.colsA then s.anchorOut c h g [] row k else (({} : Acc), []))

theorem State.anchorRow_length (c h : Nat) (g : Geo) (row : Nat) : (s.anchorRow c h g row).length = g.cols := by
  simp [State.anchorRow, upTo]

theorem State.anchorRow_get (c h : Nat) (g : Geo) (row k : Nat) (hp : (s.tile c h).pre = none) (hk : k < g.colsA) (hc : k < g.cols) :
    (s.anchorRow c h g row)[k]? =
      some ({ anchor := g.anchor ((s.tile c h).bind g.d.serial.weight) ((s.tile c h).bind g.d.parallel.weight) row k none,
              anch := true }, []) := by
  simp [State.anchorRow, upTo, hc, hk, State.anchorOut_plain c h g [] row k hp]

/-- The state in which the anchors' words are written: the row is in the accumulators. -/
def State.anchorsIn (s : State) (c h : Nat) (g : Geo) (row : Nat) : State :=
  (s.modTile c h (fun t => { t with
    acc := overAt (row * g.cols) t.acc ((s.anchorRow c h g row).map (fun y => { y.1 with anch := false })) })).flagTile
      c h ((s.anchorRow c h g row).flatMap (·.2)).eraseDups

theorem execAnchorTableWritten_writes {step at_ : Nat} (ho : s.coreOpen c.val = true) (hop : (s.tile c.val h.val).opened = true)
    (hi : s.isImatch c.val h.val = false) (hsf : (s.tile c.val h.val).sumFrom = false) (hst : step < (s.geo c.val h.val).steps)
    (ha : (s.tile c.val h.val).anchored (s.geo c.val h.val) ((s.geo c.val h.val).stepAt step).1 = false)
    (hall : (upTo ((s.geo c.val h.val).stepAt step).1).all ((s.tile c.val h.val).anchored (s.geo c.val h.val)) = true)
    (hn : s.stalled c.val (.anch h.val ((s.geo c.val h.val).stepAt step).1) = false)
    (hu : s.scalesReady c.val h.val (s.geo c.val h.val) = (true, u)) (hp : (u.tile c.val h.val).pre = none) :
    exec (.anchorTableWritten c h step at_) s = .next
      ((u.anchorsIn c.val h.val (s.geo c.val h.val) ((s.geo c.val h.val).stepAt step).1).anchorWrite c.val h.val
        ((s.geo c.val h.val).stepAt step).1
        (anchorOff (s.geo c.val h.val).d h.val (s.geo c.val h.val).outs (((s.geo c.val h.val).stepAt step).1 * (s.geo c.val h.val).cols))
        at_ (((u.anchorRow c.val h.val (s.geo c.val h.val) ((s.geo c.val h.val).stepAt step).1).take (s.geo c.val h.val).colsA).flatMap
          (fun y => toLe 2 (ofInt 16 y.1.anchor)))) := by
  simp only [exec, execAnchorTableWritten, ho, hop, hi, hsf, hst, ha, hall, hn, hu, State.preRead_none c.val h.val _ hp, Bool.true_and,
    Bool.not_false, decide_true, Bool.not_true, Bool.false_eq_true, if_true, if_false]
  rfl

theorem State.acc_anchorsIn (c h : Nat) (g : Geo) (row k : Nat) (hp : (s.tile c h).pre = none) (hk : k < g.colsA) (hc : k < g.cols)
    (hl : row * g.cols ≤ (s.tile c h).acc.length) :
    ((s.anchorsIn c h g row).tile c h).acc[row * g.cols + k]? =
      some { anchor := g.anchor ((s.tile c h).bind g.d.serial.weight) ((s.tile c h).bind g.d.parallel.weight) row k none } := by
  have hacc : ((s.anchorsIn c h g row).tile c h).acc =
      overAt (row * g.cols) (s.tile c h).acc ((s.anchorRow c h g row).map (fun y => { y.1 with anch := false })) := by
    simp [State.anchorsIn]
  rw [hacc, overAt_get hl (by simpa [State.anchorRow_length] using hc), List.getElem?_map, State.anchorRow_get c h g row k hp hk hc]
  rfl

theorem State.slotCheck_anchorsIn (c h : Nat) (g : Geo) (row off len : Nat) (wr : Bool) (cls : Nat) :
    (s.anchorsIn c h g row).slotCheck c off len wr cls = s.slotCheck c off len wr cls := by
  rw [State.anchorsIn, State.flagTile, State.slotCheck_modTile, State.slotCheck_modTile]

theorem toLe_length (n x : Nat) : (toLe n x).length = n := by
  induction n generalizing x with
  | zero => rfl
  | succ n ih => simp [toLe, ih]

/-- The words of a step row: two bytes for each column that holds an output. -/
theorem anchorBytes_length (c h : Nat) (g : Geo) (row : Nat) (hc : g.colsA ≤ g.cols) :
    (((s.anchorRow c h g row).take g.colsA).flatMap (fun y => toLe 2 (ofInt 16 y.1.anchor))).length = 2 * g.colsA := by
  have hlen : ((s.anchorRow c h g row).take g.colsA).length = g.colsA := by
    rw [List.length_take, State.anchorRow_length, Nat.min_eq_left hc]
  simp only [List.length_flatMap, toLe_length, List.map_const', List.sum_replicate_nat]
  rw [hlen, Nat.mul_comm]

theorem State.geo_cols_anchorsIn (c h : Nat) (g : Geo) (row : Nat) : ((s.anchorsIn c h g row).geo c h).cols = (s.geo c h).cols := by
  have hd : (s.anchorsIn c h g row).tileDesc c h = s.tileDesc c h := by
    rw [State.anchorsIn, State.flagTile, State.tileDesc_modTile _ _ _ rfl, State.tileDesc_modTile _ _ _ rfl]
  unfold State.tileDesc at hd
  simp only [State.geo, State.geoAt, hd]

/-! ### Group partials -/

theorem Geo.addsDue_first {g : Geo} {x y : Tile} (hx : x.pass2 = false) (hy : y.pass2 = false) : g.addsDue x = g.addsDue y := by
  have hr : g.rowLive x = g.rowLive y := by
    funext r
    simp [Geo.rowLive, hx, hy]
  rw [Geo.addsDue, Geo.addsDue, hr]

/-- The tile with one group partial more added. -/
def Tile.adds (t : Tile) (x : Nat × Nat × Nat) : Tile := { t with added := x :: t.added }

theorem State.tile_addGroup (c h : Nat) (g : Geo) (row grp pass : Nat) :
    ∃ acc f, (s.addGroup c h g row grp pass).tile c h = { s.tile c h with acc := acc, tsw := f } := by
  rw [State.addGroup, State.flagTile, State.tile_modTile_self, State.tile_modTile_self]
  exact ⟨_, _, rfl⟩

theorem execGroupPartialAdd_adds {step group : Nat} {pass : Nat} (ho : s.coreOpen c.val = true)
    (hop : (s.tile c.val h.val).opened = true) (he : (s.tile c.val h.val).ended = false) (hi : s.isImatch c.val h.val = false)
    (hsf : (s.tile c.val h.val).sumFrom = false) (hst : step < (s.geo c.val h.val).steps)
    (hpass : pass = ((s.geo c.val h.val).stepAt step).2.2)
    (hg : ((s.geo c.val h.val).groupsOf ((s.geo c.val h.val).stepAt step).2.1).contains group = true)
    (hlive : (s.geo c.val h.val).rowLive (s.tile c.val h.val) ((s.geo c.val h.val).stepAt step).1 = true)
    (hanch : (s.tile c.val h.val).anchored (s.geo c.val h.val) ((s.geo c.val h.val).stepAt step).1 = true)
    (hadd : (s.tile c.val h.val).added.contains (step, group, pass) = false)
    (hdone : s.groupDone c.val h.val (s.geo c.val h.val) step group = true) (hp2 : (s.tile c.val h.val).pass2 = false)
    (hdue : (s.tile c.val h.val).added.length + 1 < (s.geo c.val h.val).addsDue (s.tile c.val h.val)) :
    exec (.groupPartialAdd c h step group pass [] .none) s = .next
      ((s.addGroup c.val h.val (s.geo c.val h.val) ((s.geo c.val h.val).stepAt step).1 group pass).modTile c.val h.val
        (·.adds (step, group, pass))) := by
  obtain ⟨acc, f, ht⟩ := State.tile_addGroup (s := s) c.val h.val (s.geo c.val h.val) ((s.geo c.val h.val).stepAt step).1 group pass
  have hnd : (s.geo c.val h.val).addsDue (({ s.tile c.val h.val with acc := acc, tsw := f } : Tile).adds (step, group, pass)) =
      (s.geo c.val h.val).addsDue (s.tile c.val h.val) := Geo.addsDue_first hp2 hp2
  subst hpass
  change execGroupPartialAdd c h step group _ [] .none s = _
  unfold execGroupPartialAdd
  extract_lets t g st s1 s2 s3 u
  rw [if_pos (by simp only [t, g, st, ho, hop, he, hi, hsf, hst, hg, hlive, hanch, hadd, hdone, Bool.and_true, Bool.not_false, decide_true])]
  have hu : u = ({ s.tile c.val h.val with acc := acc, tsw := f } : Tile).adds (step, group, st.2.2) := by
    simp only [u, s3, s2, s1, State.sramTile, List.eraseDups_nil, State.each_nil, State.tile_modTile_self]
    rw [← ht]
    rfl
  rw [if_neg]
  · rfl
  · intro hc
    obtain ⟨-, hle⟩ := Bool.and_eq_true_iff.1 hc
    have hle := of_decide_eq_true hle
    rw [hu, hnd] at hle
    simp only [Tile.adds, List.length_cons] at hle
    omega

theorem State.acc_addGroup (c h : Nat) (g : Geo) (row grp pass k : Nat) {a : Acc} (ha : (s.tile c h).acc[row * g.cols + k]? = some a)
    (hc : k < g.cols) (hk : k < g.colsA) (hact : a.active = true) (hp2 : (s.tile c h).pass2 = false) :
    ((s.addGroup c h g row grp pass).tile c h).acc[row * g.cols + k]? =
      some (a.take g.regime (s.groupPart c h g row k grp pass a.anchor).1 false) := by
  have hlen : row * g.cols + k < (s.tile c h).acc.length := (List.getElem?_eq_some_iff.1 ha).1
  have hold : (((s.tile c h).acc.drop (row * g.cols)).take g.cols).getD k {} = a := by
    rw [List.getD_eq_getElem?_getD, List.getElem?_take_of_lt hc, List.getElem?_drop, ha]
    rfl
  unfold State.addGroup
  extract_lets t old new
  have hnew : new[k]? = some (a.take g.regime (s.groupPart c h g row k grp pass a.anchor).1 false,
      contribFlags (s.groupPart c h g row k grp pass a.anchor).1 (a.take g.regime (s.groupPart c h g row k grp pass a.anchor).1 false)
        g.regime ++ (if (s.groupPart c h g row k grp pass a.anchor).2 then [fPRUNED] else [])) := by
    have hl : k < old.length := by simp [old, t]; omega
    have hcol : ¬ g.colsA ≤ k := by omega
    simp only [new, upTo, List.getElem?_map, List.getElem?_range hl, Option.map_some]
    rw [if_neg (by simp only [old, t, hold, hact, hcol]; simp)]
    simp only [old, t, hold, hp2]
  have hnl : k < (new.map (·.1)).length := by
    rw [List.length_map]
    exact (List.getElem?_eq_some_iff.1 hnew).1
  simp only [State.acc_flagTile, State.tile_modTile_self]
  rw [overAt_get (by omega) hnl, List.getElem?_map, hnew]
  rfl

theorem onlyTile.addGroup (c h : Nat) (g : Geo) (row grp pass : Nat) : onlyTile c h s (s.addGroup c h g row grp pass) :=
  ((onlyTile.refl c h s).modTile _).modTile _

/-! ### The counters (R132) -/

theorem State.cntclr_zero (c : Nat) {n : RegName} (hn : n ∈ [RegName.arrBcyc, .arrBstep, .arrZskip, .arrWait, .arrLstall, .arrPstall]) :
    (s.cntclr c).rg64 n c = 0 := by
  refine State.rg64_each_clear c _ (fun m hm => ?_) (.inl hn)
  have hall : [RegName.arrBcyc, .arrBstep, .arrZskip, .arrWait, .arrLstall, .arrPstall].all (fun n =>
      [RegName.arrBcyc, .arrBstep, .arrZskip, .arrWait, .arrLstall, .arrPstall].all (fun m => decide (m = n) || n.apart m)) = true := by
    decide
  have h := List.all_eq_true.1 (List.all_eq_true.1 hall n hn) m hm
  simpa using h

/-- Settles O11, from the anchors and the group partials of a step row. -/
theorem anchorsAndPartials : Obligations.AnchorsAndPartials := by
  refine ⟨?_, ?_, ?_⟩
  · intro c h step at_ u s g row ho hop hi hsf hst ha hall hn hp hu hcur hns hcols hacc hrow
    have hk := (Steady.refl c.val h.val s).scalesReady c.val h.val g
    rw [hu] at hk
    obtain ⟨b, w, f, ht⟩ := hk.tile
    have hpu : (u.tile c.val h.val).pre = none := by rw [ht]; exact hp
    have hau : (u.tile c.val h.val).acc = (s.tile c.val h.val).acc := by rw [ht]
    have hgc : ((u.anchorsIn c.val h.val g row).geo c.val h.val).cols = g.cols := by rw [State.geo_cols_anchorsIn, hk.cols]
    refine ⟨_, execAnchorTableWritten_writes ho hop hi hsf hst ha hall hn hu hpu, fun k hkA hkC => ?_, ?_⟩
    · have hle := row_le (cols := g.cols) hrow
      have := State.acc_anchorsIn (s := u) c.val h.val g row k hpu hkA hkC (by rw [hau, hacc]; omega)
      have hw := State.acc_anchorWrite (s := u.anchorsIn c.val h.val g row) c.val h.val row
        (anchorOff g.d h.val g.outs (row * g.cols)) at_ k
        (((u.anchorRow c.val h.val g row).take g.colsA).flatMap (fun y => toLe 2 (ofInt 16 y.1.anchor)))
        (fun n => by rw [anchorBytes_length _ _ _ _ hcols, State.slotCheck_anchorsIn]; exact hns n) (by rw [hgc]; exact hkC)
        (by rw [hgc]; exact this)
      rw [hgc] at hw
      exact hw
    · refine onlyCore.anchorWrite ?_ _ _ _ _ _
      exact ((onlyCore.refl c.val u).modTile _ _).flagTile _ _
  · intro c h step group pass s g u row ho hop he hi hsf hst hpass hg hlive hanch hadd hdone hp2 hdue
    refine ⟨_, execGroupPartialAdd_adds ho hop he hi hsf hst hpass hg hlive hanch hadd hdone hp2 hdue, ?_, ?_, ?_, ?_, ?_⟩
    · obtain ⟨acc, f, ht⟩ := State.tile_addGroup (s := s) c.val h.val g row group pass
      rw [State.tile_modTile_self, ht]
      rfl
    · intro k a hka hkC hkA hact
      rw [State.tile_modTile_self]
      exact State.acc_addGroup c.val h.val g row group pass k hka hkC hkA hact hp2
    · exact ((onlyCore.refl c.val s).addGroup _ _ _ _ _).modTile _ _
    · exact (onlyTile.addGroup c.val h.val g row group pass).modTile _
    · exact ((only.refl _ s).addGroup (by simp) _ _ _ _ _ _).modTile (by simp) _ _ _
  · intro c s ho
    refine ⟨s.cntclr c.val, by simp [exec, execArrCntclr, ho], fun n hn => State.cntclr_zero c.val hn, ?_⟩
    exact (only.refl _ s).cntclr (by simp) _

/-! ### The Gauge -/

theorem execGaugeSampleDone_ends {waited : Nat} (ho : s.coreOpen c.val = true) (hg : (s.tile c.val h.val).gst = .running)
    (he : (s.tile c.val h.val).ended = false) :
    exec (.gaugeSampleDone c h waited) s = .next ((((s.modTile c.val h.val (fun t => { t with gst := .finished })).modCore c.val
      (fun k => { k with gauge := k.gauge.filter (· ≠ h.val) })).count .gauWait c.val 0 waited).act c.val 5
        ((s.tileCtx c.val h.val).gs * ((s.geo c.val h.val).k1 - (s.geo c.val h.val).k0))) := by
  change execGaugeSampleDone c h waited s = _
  unfold execGaugeSampleDone
  extract_lets t g s1 s2 s3
  have ht : (s3.tile c.val h.val).ended = false := by
    simp only [s3, s2, s1]
    rw [State.tile_act, State.tile_count, State.tile_modCore _ _ _ (by exact fun _ => rfl), State.tile_modTile_self]
    exact he
  rw [if_pos (by simp only [t, ho, hg, Bool.and_true, decide_true]), State.attemptCheck_of_not_ended ht]

/-- Settles O12, from the begin and the end of the samples. -/
theorem gaugeSamples : Obligations.GaugeSamples := by
  refine ⟨?_, ?_⟩
  · intro c h u s ho hop hg hhead hall hu
    refine ⟨u.modTile c.val h.val (fun t => { t with gst := .running }), ?_, State.tile_modTile_self _ _ _ _, (onlyTile.refl _ _ u).modTile _,
      (onlyCore.refl _ u).modTile _ _, (only.refl _ u).modTile (by simp) _ _ _⟩
    simp [exec, execGaugeSampleStart, ho, hop, hg, hhead, hall, hu]
  · intro c h waited s ho hg he
    have e := execGaugeSampleDone_ends (waited := waited) ho hg he
    refine ⟨_, e, ?_, ?_, ?_, ?_, ?_, ?_, ?_⟩
    · rw [State.tile_act, State.tile_count, State.tile_modCore _ _ _ (by exact fun _ => rfl), State.tile_modTile_self]
    · simp [State.act, State.modTile, Core.modTile]
    · rw [State.rg_act, State.rg_count_self]
      rfl
    · exact ((onlyRegs.of_regs_eq rfl).setRg _ _ _ _ _ (by simp)).trans (.of_regs_eq rfl)
    · intro k hk
      rw [State.tile_act, State.tile_count, State.tile_modCore _ _ _ (by exact fun _ => rfl), State.tile_modTile_ne _ _ hk]
    · exact ((((onlyCore.refl _ s).modTile _ _).modCore _).count _ _ _ _).act _ _
    · exact ((((only.refl _ s).modTile (by simp) _ _ _).modCore (by simp) _ _).count (by simp) _ _ _ _).act (by simp) _ _ _

end Sys2Proof.Machine
end

section
set_option Elab.async false
/-! What the output path leaves of a tile that runs through it. -/

namespace Sys2Proof.Machine
open Sys2Proof
variable {s₀ s t u : State} {c cc hh : Nat}

/-- The tile's place in the output path stays. -/
def InPath (c h : Nat) (s t : State) : Prop := (t.tile c h).chunk = (s.tile c h).chunk ∧ (t.tile c h).outSt = (s.tile c h).outSt

theorem InPath.refl (c h : Nat) (s : State) : InPath c h s s := ⟨rfl, rfl⟩

theorem InPath.of_tile_eq (hk : InPath cc hh s₀ s) (e : t.tile cc hh = s.tile cc hh) : InPath cc hh s₀ t := by
  rwa [InPath, e]

theorem InPath.of_cores_eq (hk : InPath cc hh s₀ s) (e : t.cores = s.cores) : InPath cc hh s₀ t :=
  hk.of_tile_eq (by rw [State.tile, State.tile, State.core, State.core, e])

theorem InPath.fields (hk : InPath cc hh s₀ s) {a1 a2 a3 a4 a5 a6 a7 a9 a10 a11 a12 a13 a14 a15 a16 a17 a18 a19 a20 a21} :
    InPath cc hh s₀ (State.mk a1 a2 a3 a4 a5 a6 a7 s.cores a9 a10 a11 a12 a13 a14 a15 a16 a17 a18 a19 a20 a21) := hk.of_cores_eq rfl

theorem InPath.modCore (hk : InPath cc hh s₀ s) (c : Nat) (f : Core → Core) (hf : ∀ k, (f k).tiles = k.tiles) : InPath cc hh s₀ (s.modCore c f) :=
  hk.of_tile_eq (by
    by_cases hc : cc = c
    · subst hc
      exact State.tile_modCore cc f hh hf
    · rw [State.tile, State.core_modCore_ne s f hc]
      rfl)

theorem InPath.modTile (hk : InPath cc hh s₀ s) (c h : Nat) (f : Tile → Tile) (hf : ∀ t, (f t).chunk = t.chunk ∧ (f t).outSt = t.outSt) :
    InPath cc hh s₀ (s.modTile c h f) := by
  by_cases hc : cc = c
  · subst hc
    by_cases hh' : hh = h
    · subst hh'
      have e := hf (s.tile cc hh)
      unfold InPath at *
      rw [State.tile_modTile_self]
      simp only [e]
      exact hk
    · exact hk.of_tile_eq (State.tile_modTile_ne s f hh')
  · exact hk.of_tile_eq (by rw [State.tile, State.modTile, State.core_modCore_ne s _ hc]; rfl)

theorem InPath.each {α : Type} (hk : InPath cc hh s₀ s) (l : List α) (f : State → α → State)
    (hf : ∀ t x, InPath cc hh s₀ t → InPath cc hh s₀ (f t x)) : InPath cc hh s₀ (s.each l f) := State.each_inv s (InPath cc hh s₀) l f hf hk

theorem InPath.foldl {α : Type} (hk : InPath cc hh s₀ s) (l : List α) (f : State → α → State)
    (hf : ∀ t x, InPath cc hh s₀ t → InPath cc hh s₀ (f t x)) : InPath cc hh s₀ (l.foldl f s) := hk.each l f hf

theorem InPath.log (hk : InPath cc hh s₀ s) (e : Event) : InPath cc hh s₀ (s.log e) := hk.of_cores_eq (State.log_cores s e)

theorem InPath.setBytes (hk : InPath cc hh s₀ s) (a : Nat) (bs : List Byte) : InPath cc hh s₀ (s.setBytes a bs) :=
  hk.of_cores_eq (State.setBytes_cores s a bs)

theorem InPath.setRg (hk : InPath cc hh s₀ s) (n : RegName) (c i j : Nat) (v : W32) : InPath cc hh s₀ (s.setRg n c i j v) := by
  unfold State.setRg
  grind [InPath.fields]

theorem InPath.setRgHi (hk : InPath cc hh s₀ s) (n : RegName) (c i j : Nat) (v : W32)
    : InPath cc hh s₀ (s.setRgHi n c i j v) := by
  unfold State.setRgHi
  grind [InPath.fields]

theorem InPath.setRg64 (hk : InPath cc hh s₀ s) (n : RegName) (c i j v : Nat) : InPath cc hh s₀ (s.setRg64 n c i j v) := by
  unfold State.setRg64
  grind [InPath.fields, InPath.setRg, InPath.setRgHi]

theorem InPath.count (hk : InPath cc hh s₀ s) (n : RegName) (c i k : Nat) : InPath cc hh s₀ (s.count n c i k) := by
  unfold State.count
  grind [InPath.fields, InPath.setRg]

theorem InPath.count64 (hk : InPath cc hh s₀ s) (n : RegName) (c k : Nat) : InPath cc hh s₀ (s.count64 n c k) := by
  unfold State.count64
  grind [InPath.fields, InPath.setRg64]

theorem InPath.modSeq (hk : InPath cc hh s₀ s) (c : Nat) (f : Seq → Seq) : InPath cc hh s₀ (s.modSeq c f) := by
  unfold State.modSeq
  grind [InPath.fields, InPath.modCore]

theorem InPath.setSlot (hk : InPath cc hh s₀ s) (c n : Nat) (x : Slot) : InPath cc hh s₀ (s.setSlot c n x) := by
  unfold State.setSlot
  grind [InPath.fields, InPath.modCore]

theorem InPath.send (hk : InPath cc hh s₀ s) (o : Out) : InPath cc hh s₀ (s.send o) := by
  unfold State.send
  grind [InPath.fields]

theorem InPath.draw (hk : InPath cc hh s₀ s) : InPath cc hh s₀ (s.draw).2 := by
  unfold State.draw
  grind [InPath.fields]

theorem InPath.act (hk : InPath cc hh s₀ s) (c j n : Nat) : InPath cc hh s₀ (s.act c j n) := by
  unfold State.act
  grind [InPath.fields, InPath.modCore]

theorem InPath.mesh (hk : InPath cc hh s₀ s) (c : Nat) (d : Option Nat) (n : Nat) : InPath cc hh s₀ (s.mesh c d n) := by
  unfold State.mesh
  grind [InPath.fields, InPath.act]

theorem InPath.setQuad (hk : InPath cc hh s₀ s) (q : Nat) (x : QuadSt) : InPath cc hh s₀ (s.setQuad q x) := by
  unfold State.setQuad
  grind [InPath.fields]

theorem InPath.ungate (hk : InPath cc hh s₀ s) (c : Nat) : InPath cc hh s₀ (s.ungate c) := by
  unfold State.ungate
  grind [InPath.fields, InPath.setQuad]

theorem InPath.reqEvent (hk : InPath cc hh s₀ s) (r : Req) (code cls detail : Nat)
    : InPath cc hh s₀ (s.reqEvent r code cls detail) := by
  unfold State.reqEvent
  grind [InPath.fields, InPath.log]

theorem InPath.coreEvent (hk : InPath cc hh s₀ s) (c code cls detail : Nat)
    : InPath cc hh s₀ (s.coreEvent c code cls detail) := by
  unfold State.coreEvent
  grind [InPath.fields, InPath.log]

theorem InPath.access (hk : InPath cc hh s₀ s) (r : Req) (a : Nat) : InPath cc hh s₀ (s.access r a) := by
  unfold State.access
  grind [InPath.fields, InPath.reqEvent]

theorem InPath.refuse (hk : InPath cc hh s₀ s) (r : Req) (a : Nat) : InPath cc hh s₀ (s.refuse r a) := by
  unfold State.refuse
  grind [InPath.fields, InPath.send, InPath.access]

theorem InPath.setSpad (hk : InPath cc hh s₀ s) (c off : Nat) (bs : List Byte) : InPath cc hh s₀ (s.setSpad c off bs) := by
  unfold State.setSpad
  grind [InPath.fields, InPath.setBytes]

theorem InPath.putLine (hk : InPath cc hh s₀ s) (l v : Nat) (bs : List Byte) (keep : Bool)
    : InPath cc hh s₀ (s.putLine l v bs keep) := by
  unfold State.putLine
  grind [InPath.fields, InPath.setBytes]

theorem InPath.setWay (hk : InPath cc hh s₀ s) (st w : Nat) (x : Option PLine) : InPath cc hh s₀ (s.setWay st w x) := by
  unfold State.setWay
  grind [InPath.fields]

theorem InPath.touch (hk : InPath cc hh s₀ s) (st w : Nat) (h : Hint) : InPath cc hh s₀ (s.touch st w h) := by
  unfold State.touch
  grind [InPath.fields]

theorem InPath.writeBack (hk : InPath cc hh s₀ s) (x : PLine) : InPath cc hh s₀ (s.writeBack x) := by
  unfold State.writeBack
  grind [InPath.fields, InPath.putLine]

theorem InPath.allocate (hk : InPath cc hh s₀ s) (st : Nat) (x : PLine) (h : Hint) : InPath cc hh s₀ (s.allocate st x h) := by
  unfold State.allocate
  grind [InPath.fields, InPath.writeBack, InPath.setWay, InPath.touch]

theorem InPath.countPantry (hk : InPath cc hh s₀ s) (g : Nat) (hit : Bool) : InPath cc hh s₀ (s.countPantry g hit) := by
  unfold State.countPantry
  grind [InPath.fields, InPath.count64]

theorem InPath.writeLine (hk : InPath cc hh s₀ s) (h : Hint) (l o : Nat) (bs : List Byte)
    : InPath cc hh s₀ (s.writeLine h l o bs) := by
  unfold State.writeLine
  grind (gen := 40) (ematch := 40) [InPath.fields, InPath.putLine, InPath.countPantry, InPath.setWay, InPath.touch,
    InPath.allocate]

theorem InPath.cellarWrite (hk : InPath cc hh s₀ s) (h : Hint) (a : Nat) (bs : List Byte)
    : InPath cc hh s₀ (s.cellarWrite h a bs) := by
  unfold State.cellarWrite
  grind [InPath.fields, InPath.each, InPath.writeLine]

theorem InPath.cellarRefuse (hk : InPath cc hh s₀ s) (r : Req) (a : Nat) (w : CellarNo)
    : InPath cc hh s₀ (s.cellarRefuse r a w) := by
  unfold State.cellarRefuse
  grind [InPath.fields, InPath.reqEvent, InPath.send, InPath.refuse]

theorem InPath.spdErr (hk : InPath cc hh s₀ s) (c kind num : Nat) (nowin : Bool := false)
    : InPath cc hh s₀ (s.spdErr c kind num nowin) := by
  unfold State.spdErr
  grind [InPath.fields, InPath.setRg]

theorem InPath.slotTouch (hk : InPath cc hh s₀ s) (c off len : Nat) (wr : Bool)
    : InPath cc hh s₀ (s.slotTouch c off len wr) := by
  unfold State.slotTouch
  grind [InPath.fields, InPath.each, InPath.setSlot]

theorem InPath.slotClass (hk : InPath cc hh s₀ s) (c n : Nat) (r : Option Req) (wr : Bool) (cls : Nat)
    : InPath cc hh s₀ (s.slotClass c n r wr cls) := by
  unfold State.slotClass
  grind [InPath.fields, InPath.spdErr, InPath.log, InPath.coreEvent]

theorem InPath.stallOn (hk : InPath cc hh s₀ s) (c : Nat) (x : Stall) : InPath cc hh s₀ (s.stallOn c x) := by
  unfold State.stallOn
  grind [InPath.fields, InPath.modCore, InPath.setRg]

theorem InPath.wordAct (hk : InPath cc hh s₀ s) (c off len : Nat) : InPath cc hh s₀ (s.wordAct c off len) := by
  unfold State.wordAct
  grind [InPath.fields, InPath.act]

theorem InPath.ringHook (hk : InPath cc hh s₀ s) (c off : Nat) (bs : List Byte) : InPath cc hh s₀ (s.ringHook c off bs) := by
  unfold State.ringHook
  grind [InPath.fields, InPath.modSeq]

theorem InPath.store (hk : InPath cc hh s₀ s) (c off : Nat) (bs : List Byte) : InPath cc hh s₀ (s.store c off bs) := by
  unfold State.store
  grind [InPath.fields, InPath.setSpad, InPath.ringHook, InPath.wordAct]

theorem InPath.spadWrite (hk : InPath cc hh s₀ s) (c off : Nat) (bs : List Byte) (cls : Nat)
    : InPath cc hh s₀ (s.spadWrite c off bs cls).2 := by
  unfold State.spadWrite
  grind [InPath.fields, InPath.slotClass, InPath.slotTouch, InPath.store]

theorem InPath.winRefuse (hk : InPath cc hh s₀ s) (r : Req) (c off : Nat) : InPath cc hh s₀ (s.winRefuse r c off) := by
  unfold State.winRefuse
  grind [InPath.fields, InPath.spdErr, InPath.reqEvent, InPath.send]

theorem InPath.lineAct (hk : InPath cc hh s₀ s) (r : Req) (a n : Nat) : InPath cc hh s₀ (s.lineAct r a n) := by
  unfold State.lineAct
  grind [InPath.fields, InPath.act, InPath.mesh]

theorem InPath.spadAct (hk : InPath cc hh s₀ s) (r : Req) (c n : Nat) : InPath cc hh s₀ (s.spadAct r c n) := by
  unfold State.spadAct
  grind [InPath.fields, InPath.mesh]

theorem InPath.writeCellar (hk : InPath cc hh s₀ s) (r : Req) (h : Hint) (a : Nat) (bs : List Byte)
    : InPath cc hh s₀ (s.writeCellar r h a bs).2 := by
  unfold State.writeCellar
  grind [InPath.fields, InPath.cellarRefuse, InPath.refuse, InPath.lineAct, InPath.cellarWrite]

theorem InPath.writeAtSlots (hk : InPath cc hh s₀ s) (r : Req) (c off : Nat) (bs : List Byte)
    : InPath cc hh s₀ (s.writeAtSlots r c off bs).2 := by
  unfold State.writeAtSlots
  grind [InPath.fields, InPath.slotClass, InPath.slotTouch, InPath.spadAct, InPath.store, InPath.ungate]

theorem InPath.writeSpad (hk : InPath cc hh s₀ s) (r : Req) (c off : Nat) (bs : List Byte)
    : InPath cc hh s₀ (s.writeSpad r c off bs).2 := by
  unfold State.writeSpad
  grind [InPath.fields, InPath.refuse, InPath.winRefuse, InPath.writeAtSlots]

theorem InPath.writeMem (hk : InPath cc hh s₀ s) (r : Req) (h : Hint) (a : Nat) (bs : List Byte)
    : InPath cc hh s₀ (s.writeMem r h a bs).2 := by
  unfold State.writeMem
  grind [InPath.fields, InPath.writeCellar, InPath.writeSpad, InPath.refuse]

theorem InPath.flagTile (hk : InPath cc hh s₀ s) (c h : Nat) (l : List Nat) : InPath cc hh s₀ (s.flagTile c h l) := by
  unfold State.flagTile
  grind [InPath.fields, InPath.modTile]

theorem InPath.tileEvent (hk : InPath cc hh s₀ s) (c h code cls detail : Nat)
    : InPath cc hh s₀ (s.tileEvent c h code cls detail) := by
  unfold State.tileEvent
  grind [InPath.fields, InPath.log]

theorem InPath.sveErr (hk : InPath cc hh s₀ s) (c kind tile : Nat) : InPath cc hh s₀ (s.sveErr c kind tile) := by
  unfold State.sveErr
  grind [InPath.fields, InPath.setRg]

theorem InPath.zrlBad (hk : InPath cc hh s₀ s) (c h row : Nat) : InPath cc hh s₀ (s.zrlBad c h row) := by
  unfold State.zrlBad
  grind [InPath.fields, InPath.flagTile, InPath.count, InPath.sveErr, InPath.tileEvent]

theorem InPath.engWrite (hk : InPath cc hh s₀ s) (c a : Nat) (bs : List Byte) (cls : Nat)
    : InPath cc hh s₀ (s.engWrite c a bs cls).2 := by
  unfold State.engWrite
  grind [InPath.fields, InPath.spadWrite, InPath.writeMem]

theorem InPath.rakeCount (hk : InPath cc hh s₀ s) (c : Nat) (r : RakeRec) : InPath cc hh s₀ (s.rakeCount c r) := by
  unfold State.rakeCount
  grind [InPath.fields, InPath.count]

theorem InPath.fuse (hk : InPath cc hh s₀ s) (c h : Nat) (g : Geo) (r : Nat) : InPath cc hh s₀ (s.fuse c h g r) := by
  unfold State.fuse
  grind [InPath.fields, InPath.draw, InPath.engWrite, InPath.rakeCount, InPath.act]

theorem InPath.outWrite (hk : InPath cc hh s₀ s) (c h off : Nat) (bs : List Byte)
    : InPath cc hh s₀ (s.outWrite c h off bs) := by
  unfold State.outWrite
  grind [InPath.fields, InPath.spadWrite, InPath.stallOn]

theorem InPath.rowFlags (hk : InPath cc hh s₀ s) (c h : Nat) (r : RowOut) : InPath cc hh s₀ (s.rowFlags c h r) := by
  unfold State.rowFlags
  grind [InPath.fields, InPath.modTile, InPath.flagTile]

theorem InPath.putCodes (hk : InPath cc hh s₀ s) (c h : Nat) (g : Geo) (base m lo hi : Nat) (codes : List Nat)
    : InPath cc hh s₀ (s.putCodes c h g base m lo hi codes) := by
  unfold State.putCodes
  grind [InPath.fields, InPath.outWrite]

theorem InPath.putSeg (hk : InPath cc hh s₀ s) (c h : Nat) (g : Geo) (base : Nat) (hist : Option (List Byte))
    (m lo hi : Nat) : InPath cc hh s₀ (s.putSeg c h g base hist m lo hi) := by
  unfold State.putSeg
  grind [InPath.fields, InPath.rowFlags, InPath.putCodes, InPath.outWrite]

theorem InPath.putZrl (hk : InPath cc hh s₀ s) (c h : Nat) (g : Geo) (base : Nat) (hist : Option (List Byte)) (m : Nat)
    : InPath cc hh s₀ (s.putZrl c h g base hist m) := by
  unfold State.putZrl
  grind [InPath.fields, InPath.rowFlags, InPath.modTile, InPath.outWrite]

theorem InPath.putOuts (hk : InPath cc hh s₀ s) (c h : Nat) (g : Geo) (hist : Option (List Byte)) (old n : Nat)
    : InPath cc hh s₀ (s.putOuts c h g hist old n) := by
  unfold State.putOuts
  grind [InPath.fields, InPath.putZrl, InPath.putSeg, InPath.foldl]

theorem InPath.putCapped (hk : InPath cc hh s₀ s) (c h : Nat) (g : Geo) (x : ImChunk) (xs : List (W32 × W32))
    : InPath cc hh s₀ (s.putCapped c h g x xs) := by
  unfold State.putCapped
  grind [InPath.fields, InPath.rowFlags, InPath.outWrite]

theorem InPath.putEmpty (hk : InPath cc hh s₀ s) (c h : Nat) : InPath cc hh s₀ (s.putEmpty c h) := by
  unfold State.putEmpty
  grind [InPath.fields, InPath.outWrite, InPath.foldl]

theorem InPath.fuseRows (hk : InPath cc hh s₀ s) (c h : Nat) (g : Geo) (old n : Nat) (last : Bool)
    : InPath cc hh s₀ (s.fuseRows c h g old n last) := by
  unfold State.fuseRows
  grind [InPath.fields, InPath.fuse, InPath.foldl]

end Sys2Proof.Machine
end

section
set_option Elab.async false
/-! The output path (R160, R162, R223, R224). -/

namespace Sys2Proof.Machine
open Sys2Proof
variable {s t u v : State} {c : CoreId} {h : Handle}

/-- A chunk counts and the path runs, whatever the chunk writes. -/
theorem State.runOut_path (c h : Nat) (g : Geo) (denied : Nat) (es : List Elt) (ax : List (Nat × W32 × W32)) (hist : Option (List Byte)) :
    ((s.runOut c h g denied es ax hist).tile c h).chunk = (s.tile c h).chunk + 1 ∧
      ((s.runOut c h g denied es ax hist).tile c h).outSt = .running := by
  unfold State.runOut
  extract_lets t ix old last
  generalize runChunk (s.core c) g ax ix = r
  obtain ⟨res, v⟩ := r
  dsimp -zeta only
  extract_lets s1 s2 s3 s4
  have h1 : (s2.tile c h).chunk = (s.tile c h).chunk + 1 ∧ (s2.tile c h).outSt = .running := by
    simp only [s2, s1, State.flagTile, State.tile_modTile_self]
    rw [State.tile_modCore _ _ _ (by exact fun _ => rfl)]
    exact ⟨rfl, trivial⟩
  have hk : InPath c h s2 s4 := ((((InPath.refl c h s2).fuseRows ..).count64 ..).count64 ..).act ..
  suffices hr : InPath c h s2 _ from ⟨hr.1.trans h1.1, hr.2.trans h1.2⟩
  grind [InPath.putCapped, InPath.putEmpty, InPath.putOuts]

theorem State.passChunk_reads {g : Geo} {denied : Nat} {ax : List (Nat × W32 × W32)} {bad : List Nat} {hist : Option (List Byte)}
    {c h : Nat}
    (ha : (if g.d.auxen && !Desc.imatch g.d then
        s.auxOf c h g (g.liveRows (((upTo (s.chunkElts c h g (s.tile c h).chunk).length).zip
          (s.chunkElts c h g (s.tile c h).chunk)).filter (fun y => g.inside y.2))) [] []
      else (some ([], []), s)) = (some (ax, bad), u)) (hh : u.history c h g = (some hist, v)) :
    s.passChunk c h g denied =
      (bad.foldl (fun u m => u.zrlBad c h m) v).runOut c h g denied (s.chunkElts c h g (s.tile c h).chunk) ax hist := by
  simp only [State.passChunk, ha, hh]

theorem State.pathEnd_plain {c h : Nat} {g : Geo} (hd : g.d.dsmode = 0) :
    s.pathEnd c h g false = s.modTile c h (fun t => { t with outSt := .ended }) := by
  simp [State.pathEnd, State.writeAmax, hd]

/-- An end of the path of a tile that has chunks: its flags are set, then the pass runs again or ends. -/
theorem execOutputPathEnd_flags (ho : s.coreOpen c.val = true) (hp : s.pathOpen c.val h.val = true)
    (hc : (s.tile c.val h.val).chunk = s.chunkTotal c.val h.val (s.geo c.val h.val))
    (h0 : 0 < s.chunkTotal c.val h.val (s.geo c.val h.val)) : ∃ unf : Bool, ((s.geo c.val h.val).d.dsmode = 0 → unf = false) ∧
    exec (.outputPathEnd c h) s =
      (if (s.geo c.val h.val).d.dsmode = 2 && !(s.tile c.val h.val).jit && ((s.tile c.val h.val).satOut || unf) then
        .next (((s.flagTile c.val h.val (if unf then [fAMAXUNF] else [])).count .gauJit c.val 0 1).modTile c.val h.val (fun t => { t with
          jit := true, chunk := 0, res := [], nzIn := 0, nzLost := 0, satOut := false, amax := 0, zoff := 0 }))
      else .next ((if (s.geo c.val h.val).d.dsmode = 3 && ((s.tile c.val h.val).satOut || unf) then
          (s.flagTile c.val h.val (if unf then [fAMAXUNF] else [])).tileEvent c.val h.val 0x0106 2 (s.tile c.val h.val).amax.toNat
        else s.flagTile c.val h.val (if unf then [fAMAXUNF] else [])).pathEnd c.val h.val (s.geo c.val h.val)
          (s.tile c.val h.val).satOut)) := by
  have h0' : s.chunkTotal c.val h.val (s.geo c.val h.val) ≠ 0 := by omega
  change ∃ unf : Bool, _ ∧ execOutputPathEnd c h s = _
  unfold execOutputPathEnd
  extract_lets g t s0 ul unf s1 s2
  refine ⟨unf, fun hd => by simp [unf, g, hd], ?_⟩
  rw [if_pos (by simp only [ho, hp, t, g, hc, Bool.and_true, decide_true])]
  simp only [s2, s1, s0, g, if_neg h0', t]

@[simp] theorem flagsOf_nil : flagsOf [] = 0 := rfl

/-- Settles O13, from a chunk's run and the two ends of a pass. -/
theorem outputPath : Obligations.OutputPath := by
  refine ⟨?_, ?_, ?_⟩
  · intro c h denied ax bad hist u v s g es ho hp hc ha hh
    refine ⟨s.passChunk c.val h.val g denied, ?_, ?_⟩
    · simp [exec, execOutputChunk, ho, hp, g, hc, State.sramOut, State.sramTile]
    · rw [State.passChunk_reads ha hh]
      obtain ⟨h1, h2⟩ := State.runOut_path (s := bad.foldl (fun u m => u.zrlBad c.val h.val m) v) c.val h.val g denied
        (s.chunkElts c.val h.val g (s.tile c.val h.val).chunk) ax hist
      have hk : InPath c.val h.val v (bad.foldl (fun u m => u.zrlBad c.val h.val m) v) :=
        (InPath.refl _ _ v).foldl _ _ fun t m ht => ht.zrlBad ..
      exact ⟨by rw [h1, hk.1], h2⟩
  · intro c h s ho hp hc h0 hd hs
    obtain ⟨unf, hunf, e⟩ := execOutputPathEnd_flags ho hp hc h0
    have e' : exec (.outputPathEnd c h) s = .next ((s.flagTile c.val h.val []).modTile c.val h.val (fun t => { t with outSt := .ended })) := by
      rw [e, hunf hd, hs]
      simp [hd, State.pathEnd_plain hd]
    refine ⟨_, e', ?_, ?_, ?_, ?_⟩
    · simp [State.flagTile]
    · exact ((onlyTile.refl _ _ s).modTile _).modTile _
    · exact ((onlyCore.refl _ s).flagTile _ _).modTile _ _
    · exact ((only.refl _ s).flagTile (by simp) _ _ _).modTile (by simp) _ _ _
  · intro c h s ho hp hc h0 hd hj hs
    obtain ⟨unf, -, e⟩ := execOutputPathEnd_flags ho hp hc h0
    rw [if_pos (by simp [hd, hj, hs])] at e
    refine ⟨_, e, ?_, ?_, ?_, ?_, ?_, ?_, ?_, ?_⟩
    · rw [State.tile_modTile_self]
    · rw [State.tile_modTile_self]
    · rw [State.tile_modTile_self]
    · rw [State.tile_modTile_self, State.tile_count, State.acc_flagTile]
    · simp [State.flagTile]
    · exact (((onlyTile.refl _ _ s).modTile _).of_tiles_eq fun _ => rfl).modTile _
    · exact (((onlyCore.refl _ s).flagTile _ _).count _ _ _ _).modTile _ _
    · exact (((only.refl _ s).flagTile (by simp) _ _ _).count (by simp) _ _ _ _).modTile (by simp) _ _ _

end Sys2Proof.Machine
end

section
set_option Elab.async false
/-! What accesses to memory leave of a sequencer. -/

namespace Sys2Proof.Machine
open Sys2Proof
variable {s₀ s t u : State} {c cc : Nat}

/-- The sequencer waits as it did, with the same layer contexts. -/
def SeqHeld (c : Nat) (s t : State) : Prop := (t.core c).seq.wait = (s.core c).seq.wait ∧ (t.core c).seq.ctxs = (s.core c).seq.ctxs ∧ (t.core c).seq.stop = (s.core c).seq.stop ∧ (t.core c).seq.halted = (s.core c).seq.halted

theorem SeqHeld.refl (c : Nat) (s : State) : SeqHeld c s s := ⟨rfl, rfl, rfl, rfl⟩

theorem SeqHeld.of_core_eq (hk : SeqHeld cc s₀ s) (e : t.core cc = s.core cc) : SeqHeld cc s₀ t := by
  rwa [SeqHeld, e]

theorem SeqHeld.of_cores_eq (hk : SeqHeld cc s₀ s) (e : t.cores = s.cores) : SeqHeld cc s₀ t :=
  hk.of_core_eq (by rw [State.core, State.core, e])

theorem SeqHeld.fields (hk : SeqHeld cc s₀ s) {a1 a2 a3 a4 a5 a6 a7 a9 a10 a11 a12 a13 a14 a15 a16 a17 a18 a19 a20 a21} :
    SeqHeld cc s₀ (State.mk a1 a2 a3 a4 a5 a6 a7 s.cores a9 a10 a11 a12 a13 a14 a15 a16 a17 a18 a19 a20 a21) := hk.of_cores_eq rfl

theorem SeqHeld.modCore (hk : SeqHeld cc s₀ s) (c : Nat) (f : Core → Core) (hf : ∀ k, (f k).seq.wait = k.seq.wait ∧ (f k).seq.ctxs = k.seq.ctxs ∧ (f k).seq.stop = k.seq.stop ∧ (f k).seq.halted = k.seq.halted) : SeqHeld cc s₀ (s.modCore c f) := by
  by_cases hc : cc = c
  · subst hc
    have e := hf (s.core cc)
    unfold SeqHeld at *
    rw [State.core_modCore_self]
    simp only [e]
    exact hk
  · exact hk.of_core_eq (State.core_modCore_ne s f hc)

theorem SeqHeld.modTile (hk : SeqHeld cc s₀ s) (c h : Nat) (f : Tile → Tile) : SeqHeld cc s₀ (s.modTile c h f) :=
  hk.modCore c _ fun _ => ⟨rfl, rfl, rfl, rfl⟩

theorem SeqHeld.modSeq (hk : SeqHeld cc s₀ s) (c : Nat) (f : Seq → Seq) (hf : ∀ q, (f q).wait = q.wait ∧ (f q).ctxs = q.ctxs ∧ (f q).stop = q.stop ∧ (f q).halted = q.halted) : SeqHeld cc s₀ (s.modSeq c f) :=
  hk.modCore c _ fun k => by simp only [hf, and_self]

theorem SeqHeld.each {α : Type} (hk : SeqHeld cc s₀ s) (l : List α) (f : State → α → State)
    (hf : ∀ t x, SeqHeld cc s₀ t → SeqHeld cc s₀ (f t x)) : SeqHeld cc s₀ (s.each l f) := State.each_inv s (SeqHeld cc s₀) l f hf hk

theorem SeqHeld.log (hk : SeqHeld cc s₀ s) (e : Event) : SeqHeld cc s₀ (s.log e) := hk.of_cores_eq (State.log_cores s e)

theorem SeqHeld.setBytes (hk : SeqHeld cc s₀ s) (a : Nat) (bs : List Byte) : SeqHeld cc s₀ (s.setBytes a bs) :=
  hk.of_cores_eq (State.setBytes_cores s a bs)

theorem SeqHeld.setRg (hk : SeqHeld cc s₀ s) (n : RegName) (c i j : Nat) (v : W32) : SeqHeld cc s₀ (s.setRg n c i j v) := by
  unfold State.setRg
  grind [SeqHeld.fields]

theorem SeqHeld.setRgHi (hk : SeqHeld cc s₀ s) (n : RegName) (c i j : Nat) (v : W32) : SeqHeld cc s₀ (s.setRgHi n c i j v) := by
  unfold State.setRgHi
  grind [SeqHeld.fields]

theorem SeqHeld.setRg64 (hk : SeqHeld cc s₀ s) (n : RegName) (c i j v : Nat) : SeqHeld cc s₀ (s.setRg64 n c i j v) := by
  unfold State.setRg64
  grind [SeqHeld.fields, SeqHeld.setRg, SeqHeld.setRgHi]

theorem SeqHeld.count (hk : SeqHeld cc s₀ s) (n : RegName) (c i k : Nat) : SeqHeld cc s₀ (s.count n c i k) := by
  unfold State.count
  grind [SeqHeld.fields, SeqHeld.setRg]

theorem SeqHeld.count64 (hk : SeqHeld cc s₀ s) (n : RegName) (c k : Nat) : SeqHeld cc s₀ (s.count64 n c k) := by
  unfold State.count64
  grind [SeqHeld.fields, SeqHeld.setRg64]

theorem SeqHeld.modArr (hk : SeqHeld cc s₀ s) (c : Nat) (f : Arr → Arr) : SeqHeld cc s₀ (s.modArr c f) := by
  unfold State.modArr
  grind [SeqHeld.fields, SeqHeld.modCore]

theorem SeqHeld.setSlot (hk : SeqHeld cc s₀ s) (c n : Nat) (x : Slot) : SeqHeld cc s₀ (s.setSlot c n x) := by
  unfold State.setSlot
  grind [SeqHeld.fields, SeqHeld.modCore]

theorem SeqHeld.send (hk : SeqHeld cc s₀ s) (o : Out) : SeqHeld cc s₀ (s.send o) := by
  unfold State.send
  grind [SeqHeld.fields]

theorem SeqHeld.act (hk : SeqHeld cc s₀ s) (c j n : Nat) : SeqHeld cc s₀ (s.act c j n) := by
  unfold State.act
  grind [SeqHeld.fields, SeqHeld.modCore]

theorem SeqHeld.mesh (hk : SeqHeld cc s₀ s) (c : Nat) (d : Option Nat) (n : Nat) : SeqHeld cc s₀ (s.mesh c d n) := by
  unfold State.mesh
  grind [SeqHeld.fields, SeqHeld.act]

theorem SeqHeld.setQuad (hk : SeqHeld cc s₀ s) (q : Nat) (x : QuadSt) : SeqHeld cc s₀ (s.setQuad q x) := by
  unfold State.setQuad
  grind [SeqHeld.fields]

theorem SeqHeld.ungate (hk : SeqHeld cc s₀ s) (c : Nat) : SeqHeld cc s₀ (s.ungate c) := by
  unfold State.ungate
  grind [SeqHeld.fields, SeqHeld.setQuad]

theorem SeqHeld.reqEvent (hk : SeqHeld cc s₀ s) (r : Req) (code cls detail : Nat)
    : SeqHeld cc s₀ (s.reqEvent r code cls detail) := by
  unfold State.reqEvent
  grind [SeqHeld.fields, SeqHeld.log]

theorem SeqHeld.coreEvent (hk : SeqHeld cc s₀ s) (c code cls detail : Nat) : SeqHeld cc s₀ (s.coreEvent c code cls detail) := by
  unfold State.coreEvent
  grind [SeqHeld.fields, SeqHeld.log]

theorem SeqHeld.access (hk : SeqHeld cc s₀ s) (r : Req) (a : Nat) : SeqHeld cc s₀ (s.access r a) := by
  unfold State.access
  grind [SeqHeld.fields, SeqHeld.reqEvent]

theorem SeqHeld.refuse (hk : SeqHeld cc s₀ s) (r : Req) (a : Nat) : SeqHeld cc s₀ (s.refuse r a) := by
  unfold State.refuse
  grind [SeqHeld.fields, SeqHeld.send, SeqHeld.access]

theorem SeqHeld.setSpad (hk : SeqHeld cc s₀ s) (c off : Nat) (bs : List Byte) : SeqHeld cc s₀ (s.setSpad c off bs) := by
  unfold State.setSpad
  grind [SeqHeld.fields, SeqHeld.setBytes]

theorem SeqHeld.putLine (hk : SeqHeld cc s₀ s) (l v : Nat) (bs : List Byte) (keep : Bool)
    : SeqHeld cc s₀ (s.putLine l v bs keep) := by
  unfold State.putLine
  grind [SeqHeld.fields, SeqHeld.setBytes]

theorem SeqHeld.setWay (hk : SeqHeld cc s₀ s) (st w : Nat) (x : Option PLine) : SeqHeld cc s₀ (s.setWay st w x) := by
  unfold State.setWay
  grind [SeqHeld.fields]

theorem SeqHeld.touch (hk : SeqHeld cc s₀ s) (st w : Nat) (h : Hint) : SeqHeld cc s₀ (s.touch st w h) := by
  unfold State.touch
  grind [SeqHeld.fields]

theorem SeqHeld.writeBack (hk : SeqHeld cc s₀ s) (x : PLine) : SeqHeld cc s₀ (s.writeBack x) := by
  unfold State.writeBack
  grind [SeqHeld.fields, SeqHeld.putLine]

theorem SeqHeld.allocate (hk : SeqHeld cc s₀ s) (st : Nat) (x : PLine) (h : Hint) : SeqHeld cc s₀ (s.allocate st x h) := by
  unfold State.allocate
  grind [SeqHeld.fields, SeqHeld.writeBack, SeqHeld.setWay, SeqHeld.touch]

theorem SeqHeld.countPantry (hk : SeqHeld cc s₀ s) (g : Nat) (hit : Bool) : SeqHeld cc s₀ (s.countPantry g hit) := by
  unfold State.countPantry
  grind [SeqHeld.fields, SeqHeld.count64]

theorem SeqHeld.writeLine (hk : SeqHeld cc s₀ s) (h : Hint) (l o : Nat) (bs : List Byte)
    : SeqHeld cc s₀ (s.writeLine h l o bs) := by
  unfold State.writeLine
  grind (gen := 40) (ematch := 40) [SeqHeld.fields, SeqHeld.putLine, SeqHeld.countPantry, SeqHeld.setWay, SeqHeld.touch,
    SeqHeld.allocate]

theorem SeqHeld.cellarWrite (hk : SeqHeld cc s₀ s) (h : Hint) (a : Nat) (bs : List Byte)
    : SeqHeld cc s₀ (s.cellarWrite h a bs) := by
  unfold State.cellarWrite
  grind [SeqHeld.fields, SeqHeld.each, SeqHeld.writeLine]

theorem SeqHeld.cellarRefuse (hk : SeqHeld cc s₀ s) (r : Req) (a : Nat) (w : CellarNo)
    : SeqHeld cc s₀ (s.cellarRefuse r a w) := by
  unfold State.cellarRefuse
  grind [SeqHeld.fields, SeqHeld.reqEvent, SeqHeld.send, SeqHeld.refuse]

theorem SeqHeld.spdErr (hk : SeqHeld cc s₀ s) (c kind num : Nat) (nowin : Bool := false)
    : SeqHeld cc s₀ (s.spdErr c kind num nowin) := by
  unfold State.spdErr
  grind [SeqHeld.fields, SeqHeld.setRg]

theorem SeqHeld.slotTouch (hk : SeqHeld cc s₀ s) (c off len : Nat) (wr : Bool) : SeqHeld cc s₀ (s.slotTouch c off len wr) := by
  unfold State.slotTouch
  grind [SeqHeld.fields, SeqHeld.each, SeqHeld.setSlot]

theorem SeqHeld.slotClass (hk : SeqHeld cc s₀ s) (c n : Nat) (r : Option Req) (wr : Bool) (cls : Nat)
    : SeqHeld cc s₀ (s.slotClass c n r wr cls) := by
  unfold State.slotClass
  grind [SeqHeld.fields, SeqHeld.spdErr, SeqHeld.log, SeqHeld.coreEvent]

theorem SeqHeld.wordAct (hk : SeqHeld cc s₀ s) (c off len : Nat) : SeqHeld cc s₀ (s.wordAct c off len) := by
  unfold State.wordAct
  grind [SeqHeld.fields, SeqHeld.act]

theorem SeqHeld.ringHook (hk : SeqHeld cc s₀ s) (c off : Nat) (bs : List Byte) : SeqHeld cc s₀ (s.ringHook c off bs) := by
  unfold State.ringHook
  grind [SeqHeld.fields, SeqHeld.modSeq]

theorem SeqHeld.store (hk : SeqHeld cc s₀ s) (c off : Nat) (bs : List Byte) : SeqHeld cc s₀ (s.store c off bs) := by
  unfold State.store
  grind [SeqHeld.fields, SeqHeld.setSpad, SeqHeld.ringHook, SeqHeld.wordAct]

theorem SeqHeld.spadWrite (hk : SeqHeld cc s₀ s) (c off : Nat) (bs : List Byte) (cls : Nat)
    : SeqHeld cc s₀ (s.spadWrite c off bs cls).2 := by
  unfold State.spadWrite
  grind [SeqHeld.fields, SeqHeld.slotClass, SeqHeld.slotTouch, SeqHeld.store]

theorem SeqHeld.winRefuse (hk : SeqHeld cc s₀ s) (r : Req) (c off : Nat) : SeqHeld cc s₀ (s.winRefuse r c off) := by
  unfold State.winRefuse
  grind [SeqHeld.fields, SeqHeld.spdErr, SeqHeld.reqEvent, SeqHeld.send]

theorem SeqHeld.lineAct (hk : SeqHeld cc s₀ s) (r : Req) (a n : Nat) : SeqHeld cc s₀ (s.lineAct r a n) := by
  unfold State.lineAct
  grind [SeqHeld.fields, SeqHeld.act, SeqHeld.mesh]

theorem SeqHeld.spadAct (hk : SeqHeld cc s₀ s) (r : Req) (c n : Nat) : SeqHeld cc s₀ (s.spadAct r c n) := by
  unfold State.spadAct
  grind [SeqHeld.fields, SeqHeld.mesh]

theorem SeqHeld.writeCellar (hk : SeqHeld cc s₀ s) (r : Req) (h : Hint) (a : Nat) (bs : List Byte)
    : SeqHeld cc s₀ (s.writeCellar r h a bs).2 := by
  unfold State.writeCellar
  grind [SeqHeld.fields, SeqHeld.cellarRefuse, SeqHeld.refuse, SeqHeld.lineAct, SeqHeld.cellarWrite]

theorem SeqHeld.writeAtSlots (hk : SeqHeld cc s₀ s) (r : Req) (c off : Nat) (bs : List Byte)
    : SeqHeld cc s₀ (s.writeAtSlots r c off bs).2 := by
  unfold State.writeAtSlots
  grind [SeqHeld.fields, SeqHeld.slotClass, SeqHeld.slotTouch, SeqHeld.spadAct, SeqHeld.store, SeqHeld.ungate]

theorem SeqHeld.writeSpad (hk : SeqHeld cc s₀ s) (r : Req) (c off : Nat) (bs : List Byte)
    : SeqHeld cc s₀ (s.writeSpad r c off bs).2 := by
  unfold State.writeSpad
  grind [SeqHeld.fields, SeqHeld.refuse, SeqHeld.winRefuse, SeqHeld.writeAtSlots]

theorem SeqHeld.writeMem (hk : SeqHeld cc s₀ s) (r : Req) (h : Hint) (a : Nat) (bs : List Byte)
    : SeqHeld cc s₀ (s.writeMem r h a bs).2 := by
  unfold State.writeMem
  grind [SeqHeld.fields, SeqHeld.writeCellar, SeqHeld.writeSpad, SeqHeld.refuse]

theorem SeqHeld.arrKick (hk : SeqHeld cc s₀ s) (c : Nat) : SeqHeld cc s₀ (s.arrKick c) := by
  unfold State.arrKick
  grind [SeqHeld.fields, SeqHeld.modTile]

theorem SeqHeld.arrLeave (hk : SeqHeld cc s₀ s) (c : Nat) : SeqHeld cc s₀ (s.arrLeave c) := by
  unfold State.arrLeave
  grind [SeqHeld.fields, SeqHeld.modArr, SeqHeld.arrKick]

theorem SeqHeld.engWrite (hk : SeqHeld cc s₀ s) (c a : Nat) (bs : List Byte) (cls : Nat)
    : SeqHeld cc s₀ (s.engWrite c a bs cls).2 := by
  unfold State.engWrite
  grind [SeqHeld.fields, SeqHeld.spadWrite, SeqHeld.writeMem]

theorem SeqHeld.scoutTest (hk : SeqHeld cc s₀ s) (c h : Nat) (g : Geo) : SeqHeld cc s₀ (s.scoutTest c h g) := by
  unfold State.scoutTest
  grind [SeqHeld.fields, SeqHeld.engWrite, SeqHeld.count, SeqHeld.modTile]

end Sys2Proof.Machine
end

section
set_option Elab.async false
/-! What accesses to memory leave of a tile. -/

namespace Sys2Proof.Machine
open Sys2Proof
variable {s₀ s t u : State} {c cc hh : Nat}

/-- The tile is the same item of the same layer. -/
def TileHeld (c h : Nat) (s t : State) : Prop := (t.tile c h).ctx = (s.tile c h).ctx ∧ (t.tile c h).rec_ = (s.tile c h).rec_

theorem TileHeld.refl (c h : Nat) (s : State) : TileHeld c h s s := ⟨rfl, rfl⟩

theorem TileHeld.of_tile_eq (hk : TileHeld cc hh s₀ s) (e : t.tile cc hh = s.tile cc hh) : TileHeld cc hh s₀ t := by
  rwa [TileHeld, e]

theorem TileHeld.of_cores_eq (hk : TileHeld cc hh s₀ s) (e : t.cores = s.cores) : TileHeld cc hh s₀ t :=
  hk.of_tile_eq (by rw [State.tile, State.tile, State.core, State.core, e])

theorem TileHeld.fields (hk : TileHeld cc hh s₀ s) {a1 a2 a3 a4 a5 a6 a7 a9 a10 a11 a12 a13 a14 a15 a16 a17 a18 a19 a20 a21} :
    TileHeld cc hh s₀ (State.mk a1 a2 a3 a4 a5 a6 a7 s.cores a9 a10 a11 a12 a13 a14 a15 a16 a17 a18 a19 a20 a21) := hk.of_cores_eq rfl

theorem TileHeld.modCore (hk : TileHeld cc hh s₀ s) (c : Nat) (f : Core → Core) (hf : ∀ k, (f k).tiles = k.tiles) : TileHeld cc hh s₀ (s.modCore c f) :=
  hk.of_tile_eq (by
    by_cases hc : cc = c
    · subst hc
      exact State.tile_modCore cc f hh hf
    · rw [State.tile, State.core_modCore_ne s f hc]
      rfl)

theorem TileHeld.modTile (hk : TileHeld cc hh s₀ s) (c h : Nat) (f : Tile → Tile) (hf : ∀ t, (f t).ctx = t.ctx ∧ (f t).rec_ = t.rec_) :
    TileHeld cc hh s₀ (s.modTile c h f) := by
  by_cases hc : cc = c
  · subst hc
    by_cases hh' : hh = h
    · subst hh'
      have e := hf (s.tile cc hh)
      unfold TileHeld at *
      rw [State.tile_modTile_self]
      simp only [e]
      exact hk
    · exact hk.of_tile_eq (State.tile_modTile_ne s f hh')
  · exact hk.of_tile_eq (by rw [State.tile, State.modTile, State.core_modCore_ne s _ hc]; rfl)

theorem TileHeld.each {α : Type} (hk : TileHeld cc hh s₀ s) (l : List α) (f : State → α → State)
    (hf : ∀ t x, TileHeld cc hh s₀ t → TileHeld cc hh s₀ (f t x)) : TileHeld cc hh s₀ (s.each l f) := State.each_inv s (TileHeld cc hh s₀) l f hf hk

theorem TileHeld.log (hk : TileHeld cc hh s₀ s) (e : Event) : TileHeld cc hh s₀ (s.log e) := hk.of_cores_eq (State.log_cores s e)

theorem TileHeld.setBytes (hk : TileHeld cc hh s₀ s) (a : Nat) (bs : List Byte) : TileHeld cc hh s₀ (s.setBytes a bs) :=
  hk.of_cores_eq (State.setBytes_cores s a bs)

theorem TileHeld.setRg (hk : TileHeld cc hh s₀ s) (n : RegName) (c i j : Nat) (v : W32)
    : TileHeld cc hh s₀ (s.setRg n c i j v) := by
  unfold State.setRg
  grind [TileHeld.fields]

theorem TileHeld.setRgHi (hk : TileHeld cc hh s₀ s) (n : RegName) (c i j : Nat) (v : W32)
    : TileHeld cc hh s₀ (s.setRgHi n c i j v) := by
  unfold State.setRgHi
  grind [TileHeld.fields]

theorem TileHeld.setRg64 (hk : TileHeld cc hh s₀ s) (n : RegName) (c i j v : Nat)
    : TileHeld cc hh s₀ (s.setRg64 n c i j v) := by
  unfold State.setRg64
  grind [TileHeld.fields, TileHeld.setRg, TileHeld.setRgHi]

theorem TileHeld.count (hk : TileHeld cc hh s₀ s) (n : RegName) (c i k : Nat) : TileHeld cc hh s₀ (s.count n c i k) := by
  unfold State.count
  grind [TileHeld.fields, TileHeld.setRg]

theorem TileHeld.count64 (hk : TileHeld cc hh s₀ s) (n : RegName) (c k : Nat) : TileHeld cc hh s₀ (s.count64 n c k) := by
  unfold State.count64
  grind [TileHeld.fields, TileHeld.setRg64]

theorem TileHeld.modSeq (hk : TileHeld cc hh s₀ s) (c : Nat) (f : Seq → Seq) : TileHeld cc hh s₀ (s.modSeq c f) := by
  unfold State.modSeq
  grind [TileHeld.fields, TileHeld.modCore]

theorem TileHeld.modArr (hk : TileHeld cc hh s₀ s) (c : Nat) (f : Arr → Arr) : TileHeld cc hh s₀ (s.modArr c f) := by
  unfold State.modArr
  grind [TileHeld.fields, TileHeld.modCore]

theorem TileHeld.setSlot (hk : TileHeld cc hh s₀ s) (c n : Nat) (x : Slot) : TileHeld cc hh s₀ (s.setSlot c n x) := by
  unfold State.setSlot
  grind [TileHeld.fields, TileHeld.modCore]

theorem TileHeld.send (hk : TileHeld cc hh s₀ s) (o : Out) : TileHeld cc hh s₀ (s.send o) := by
  unfold State.send
  grind [TileHeld.fields]

theorem TileHeld.act (hk : TileHeld cc hh s₀ s) (c j n : Nat) : TileHeld cc hh s₀ (s.act c j n) := by
  unfold State.act
  grind [TileHeld.fields, TileHeld.modCore]

theorem TileHeld.mesh (hk : TileHeld cc hh s₀ s) (c : Nat) (d : Option Nat) (n : Nat) : TileHeld cc hh s₀ (s.mesh c d n) := by
  unfold State.mesh
  grind [TileHeld.fields, TileHeld.act]

theorem TileHeld.setQuad (hk : TileHeld cc hh s₀ s) (q : Nat) (x : QuadSt) : TileHeld cc hh s₀ (s.setQuad q x) := by
  unfold State.setQuad
  grind [TileHeld.fields]

theorem TileHeld.ungate (hk : TileHeld cc hh s₀ s) (c : Nat) : TileHeld cc hh s₀ (s.ungate c) := by
  unfold State.ungate
  grind [TileHeld.fields, TileHeld.setQuad]

theorem TileHeld.reqEvent (hk : TileHeld cc hh s₀ s) (r : Req) (code cls detail : Nat)
    : TileHeld cc hh s₀ (s.reqEvent r code cls detail) := by
  unfold State.reqEvent
  grind [TileHeld.fields, TileHeld.log]

theorem TileHeld.coreEvent (hk : TileHeld cc hh s₀ s) (c code cls detail : Nat)
    : TileHeld cc hh s₀ (s.coreEvent c code cls detail) := by
  unfold State.coreEvent
  grind [TileHeld.fields, TileHeld.log]

theorem TileHeld.access (hk : TileHeld cc hh s₀ s) (r : Req) (a : Nat) : TileHeld cc hh s₀ (s.access r a) := by
  unfold State.access
  grind [TileHeld.fields, TileHeld.reqEvent]

theorem TileHeld.refuse (hk : TileHeld cc hh s₀ s) (r : Req) (a : Nat) : TileHeld cc hh s₀ (s.refuse r a) := by
  unfold State.refuse
  grind [TileHeld.fields, TileHeld.send, TileHeld.access]

theorem TileHeld.setSpad (hk : TileHeld cc hh s₀ s) (c off : Nat) (bs : List Byte)
    : TileHeld cc hh s₀ (s.setSpad c off bs) := by
  unfold State.setSpad
  grind [TileHeld.fields, TileHeld.setBytes]

theorem TileHeld.putLine (hk : TileHeld cc hh s₀ s) (l v : Nat) (bs : List Byte) (keep : Bool)
    : TileHeld cc hh s₀ (s.putLine l v bs keep) := by
  unfold State.putLine
  grind [TileHeld.fields, TileHeld.setBytes]

theorem TileHeld.setWay (hk : TileHeld cc hh s₀ s) (st w : Nat) (x : Option PLine) : TileHeld cc hh s₀ (s.setWay st w x) := by
  unfold State.setWay
  grind [TileHeld.fields]

theorem TileHeld.touch (hk : TileHeld cc hh s₀ s) (st w : Nat) (h : Hint) : TileHeld cc hh s₀ (s.touch st w h) := by
  unfold State.touch
  grind [TileHeld.fields]

theorem TileHeld.writeBack (hk : TileHeld cc hh s₀ s) (x : PLine) : TileHeld cc hh s₀ (s.writeBack x) := by
  unfold State.writeBack
  grind [TileHeld.fields, TileHeld.putLine]

theorem TileHeld.allocate (hk : TileHeld cc hh s₀ s) (st : Nat) (x : PLine) (h : Hint)
    : TileHeld cc hh s₀ (s.allocate st x h) := by
  unfold State.allocate
  grind [TileHeld.fields, TileHeld.writeBack, TileHeld.setWay, TileHeld.touch]

theorem TileHeld.countPantry (hk : TileHeld cc hh s₀ s) (g : Nat) (hit : Bool) : TileHeld cc hh s₀ (s.countPantry g hit) := by
  unfold State.countPantry
  grind [TileHeld.fields, TileHeld.count64]

theorem TileHeld.writeLine (hk : TileHeld cc hh s₀ s) (h : Hint) (l o : Nat) (bs : List Byte)
    : TileHeld cc hh s₀ (s.writeLine h l o bs) := by
  unfold State.writeLine
  grind (gen := 40) (ematch := 40) [TileHeld.fields, TileHeld.putLine, TileHeld.countPantry, TileHeld.setWay, TileHeld.touch,
    TileHeld.allocate]

theorem TileHeld.cellarWrite (hk : TileHeld cc hh s₀ s) (h : Hint) (a : Nat) (bs : List Byte)
    : TileHeld cc hh s₀ (s.cellarWrite h a bs) := by
  unfold State.cellarWrite
  grind [TileHeld.fields, TileHeld.each, TileHeld.writeLine]

theorem TileHeld.cellarRefuse (hk : TileHeld cc hh s₀ s) (r : Req) (a : Nat) (w : CellarNo)
    : TileHeld cc hh s₀ (s.cellarRefuse r a w) := by
  unfold State.cellarRefuse
  grind [TileHeld.fields, TileHeld.reqEvent, TileHeld.send, TileHeld.refuse]

theorem TileHeld.spdErr (hk : TileHeld cc hh s₀ s) (c kind num : Nat) (nowin : Bool := false)
    : TileHeld cc hh s₀ (s.spdErr c kind num nowin) := by
  unfold State.spdErr
  grind [TileHeld.fields, TileHeld.setRg]

theorem TileHeld.slotTouch (hk : TileHeld cc hh s₀ s) (c off len : Nat) (wr : Bool)
    : TileHeld cc hh s₀ (s.slotTouch c off len wr) := by
  unfold State.slotTouch
  grind [TileHeld.fields, TileHeld.each, TileHeld.setSlot]

theorem TileHeld.slotClass (hk : TileHeld cc hh s₀ s) (c n : Nat) (r : Option Req) (wr : Bool) (cls : Nat)
    : TileHeld cc hh s₀ (s.slotClass c n r wr cls) := by
  unfold State.slotClass
  grind [TileHeld.fields, TileHeld.spdErr, TileHeld.log, TileHeld.coreEvent]

theorem TileHeld.wordAct (hk : TileHeld cc hh s₀ s) (c off len : Nat) : TileHeld cc hh s₀ (s.wordAct c off len) := by
  unfold State.wordAct
  grind [TileHeld.fields, TileHeld.act]

theorem TileHeld.ringHook (hk : TileHeld cc hh s₀ s) (c off : Nat) (bs : List Byte)
    : TileHeld cc hh s₀ (s.ringHook c off bs) := by
  unfold State.ringHook
  grind [TileHeld.fields, TileHeld.modSeq]

theorem TileHeld.store (hk : TileHeld cc hh s₀ s) (c off : Nat) (bs : List Byte) : TileHeld cc hh s₀ (s.store c off bs) := by
  unfold State.store
  grind [TileHeld.fields, TileHeld.setSpad, TileHeld.ringHook, TileHeld.wordAct]

theorem TileHeld.spadWrite (hk : TileHeld cc hh s₀ s) (c off : Nat) (bs : List Byte) (cls : Nat)
    : TileHeld cc hh s₀ (s.spadWrite c off bs cls).2 := by
  unfold State.spadWrite
  grind [TileHeld.fields, TileHeld.slotClass, TileHeld.slotTouch, TileHeld.store]

theorem TileHeld.winRefuse (hk : TileHeld cc hh s₀ s) (r : Req) (c off : Nat) : TileHeld cc hh s₀ (s.winRefuse r c off) := by
  unfold State.winRefuse
  grind [TileHeld.fields, TileHeld.spdErr, TileHeld.reqEvent, TileHeld.send]

theorem TileHeld.lineAct (hk : TileHeld cc hh s₀ s) (r : Req) (a n : Nat) : TileHeld cc hh s₀ (s.lineAct r a n) := by
  unfold State.lineAct
  grind [TileHeld.fields, TileHeld.act, TileHeld.mesh]

theorem TileHeld.spadAct (hk : TileHeld cc hh s₀ s) (r : Req) (c n : Nat) : TileHeld cc hh s₀ (s.spadAct r c n) := by
  unfold State.spadAct
  grind [TileHeld.fields, TileHeld.mesh]

theorem TileHeld.writeCellar (hk : TileHeld cc hh s₀ s) (r : Req) (h : Hint) (a : Nat) (bs : List Byte)
    : TileHeld cc hh s₀ (s.writeCellar r h a bs).2 := by
  unfold State.writeCellar
  grind [TileHeld.fields, TileHeld.cellarRefuse, TileHeld.refuse, TileHeld.lineAct, TileHeld.cellarWrite]

theorem TileHeld.writeAtSlots (hk : TileHeld cc hh s₀ s) (r : Req) (c off : Nat) (bs : List Byte)
    : TileHeld cc hh s₀ (s.writeAtSlots r c off bs).2 := by
  unfold State.writeAtSlots
  grind [TileHeld.fields, TileHeld.slotClass, TileHeld.slotTouch, TileHeld.spadAct, TileHeld.store, TileHeld.ungate]

theorem TileHeld.writeSpad (hk : TileHeld cc hh s₀ s) (r : Req) (c off : Nat) (bs : List Byte)
    : TileHeld cc hh s₀ (s.writeSpad r c off bs).2 := by
  unfold State.writeSpad
  grind [TileHeld.fields, TileHeld.refuse, TileHeld.winRefuse, TileHeld.writeAtSlots]

theorem TileHeld.writeMem (hk : TileHeld cc hh s₀ s) (r : Req) (h : Hint) (a : Nat) (bs : List Byte)
    : TileHeld cc hh s₀ (s.writeMem r h a bs).2 := by
  unfold State.writeMem
  grind [TileHeld.fields, TileHeld.writeCellar, TileHeld.writeSpad, TileHeld.refuse]

theorem TileHeld.arrKick (hk : TileHeld cc hh s₀ s) (c : Nat) : TileHeld cc hh s₀ (s.arrKick c) := by
  unfold State.arrKick
  grind [TileHeld.fields, TileHeld.modTile]

theorem TileHeld.arrLeave (hk : TileHeld cc hh s₀ s) (c : Nat) : TileHeld cc hh s₀ (s.arrLeave c) := by
  unfold State.arrLeave
  grind [TileHeld.fields, TileHeld.modArr, TileHeld.arrKick]

theorem TileHeld.engWrite (hk : TileHeld cc hh s₀ s) (c a : Nat) (bs : List Byte) (cls : Nat)
    : TileHeld cc hh s₀ (s.engWrite c a bs cls).2 := by
  unfold State.engWrite
  grind [TileHeld.fields, TileHeld.spadWrite, TileHeld.writeMem]

theorem TileHeld.scoutTest (hk : TileHeld cc hh s₀ s) (c h : Nat) (g : Geo) : TileHeld cc hh s₀ (s.scoutTest c h g) := by
  unfold State.scoutTest
  grind [TileHeld.fields, TileHeld.engWrite, TileHeld.count, TileHeld.modTile]

end Sys2Proof.Machine
end

section
set_option Elab.async false
/-! What the delivery of a merged row leaves of the table of rows. -/

namespace Sys2Proof.Machine
open Sys2Proof
variable {s₀ s t u : State}

/-- The hub's table of rows stays. -/
def HubHeld (s t : State) : Prop := t.sdt.hub = s.sdt.hub

theorem HubHeld.refl (s : State) : HubHeld s s := rfl

theorem HubHeld.of_eq (hk : HubHeld s₀ s) (e : t.sdt = s.sdt) : HubHeld s₀ t := by
  rwa [HubHeld, e]

theorem HubHeld.fields (hk : HubHeld s₀ s) {a1 a2 a3 a4 a5 a6 a7 a8 a9 a10 a11 a12 a13 a14 a15 a16 a17 a18 a19 a20 a21} (e : a9.hub = s.sdt.hub) : HubHeld s₀ (State.mk a1 a2 a3 a4 a5 a6 a7 a8 a9 a10 a11 a12 a13 a14 a15 a16 a17 a18 a19 a20 a21) := by
  unfold HubHeld at *
  simp only [e]
  exact hk

theorem HubHeld.others (hk : HubHeld s₀ s) {a1 a2 a3 a4 a5 a6 a7 a8 a10 a11 a12 a13 a14 a15 a16 a17 a18 a19 a20 a21} : HubHeld s₀ (State.mk a1 a2 a3 a4 a5 a6 a7 a8 s.sdt a10 a11 a12 a13 a14 a15 a16 a17 a18 a19 a20 a21) := hk.of_eq rfl

theorem HubHeld.each {α : Type} (hk : HubHeld s₀ s) (l : List α) (f : State → α → State)
    (hf : ∀ t x, HubHeld s₀ t → HubHeld s₀ (f t x)) : HubHeld s₀ (s.each l f) := State.each_inv s (HubHeld s₀) l f hf hk

theorem HubHeld.foldl {α : Type} (hk : HubHeld s₀ s) (l : List α) (f : State → α → State)
    (hf : ∀ t x, HubHeld s₀ t → HubHeld s₀ (f t x)) : HubHeld s₀ (l.foldl f s) := hk.each l f hf

theorem HubHeld.gather {α β : Type} (hk : HubHeld s₀ s) (l : List α) (b : β) (f : β × State → α → β × State)
    (hf : ∀ t x, HubHeld s₀ t.2 → HubHeld s₀ (f t x).2) : HubHeld s₀ (l.foldl f (b, s)).2 := by
  induction l generalizing s b with
  | nil => exact hk
  | cons x l ih => exact ih (hf (b, s) x hk) (f (b, s) x).1

theorem HubHeld.log (hk : HubHeld s₀ s) (e : Event) : HubHeld s₀ (s.log e) := hk.of_eq (State.log_sdt s e)

theorem HubHeld.setBytes (hk : HubHeld s₀ s) (a : Nat) (bs : List Byte) : HubHeld s₀ (s.setBytes a bs) := hk.of_eq (State.setBytes_sdt s a bs)

theorem HubHeld.setRg (hk : HubHeld s₀ s) (n : RegName) (c i j : Nat) (v : W32) : HubHeld s₀ (s.setRg n c i j v) := by
  unfold State.setRg
  grind [HubHeld.fields, HubHeld.others]

theorem HubHeld.setRgHi (hk : HubHeld s₀ s) (n : RegName) (c i j : Nat) (v : W32) : HubHeld s₀ (s.setRgHi n c i j v) := by
  unfold State.setRgHi
  grind [HubHeld.fields, HubHeld.others]

theorem HubHeld.setRg64 (hk : HubHeld s₀ s) (n : RegName) (c i j v : Nat) : HubHeld s₀ (s.setRg64 n c i j v) := by
  unfold State.setRg64
  grind [HubHeld.fields, HubHeld.others, HubHeld.setRg, HubHeld.setRgHi]

theorem HubHeld.count (hk : HubHeld s₀ s) (n : RegName) (c i k : Nat) : HubHeld s₀ (s.count n c i k) := by
  unfold State.count
  grind [HubHeld.fields, HubHeld.others, HubHeld.setRg]

theorem HubHeld.count64 (hk : HubHeld s₀ s) (n : RegName) (c k : Nat) : HubHeld s₀ (s.count64 n c k) := by
  unfold State.count64
  grind [HubHeld.fields, HubHeld.others, HubHeld.setRg64]

theorem HubHeld.setCore (hk : HubHeld s₀ s) (c : Nat) (x : Core) : HubHeld s₀ (s.setCore c x) := by
  unfold State.setCore
  grind [HubHeld.fields, HubHeld.others]

theorem HubHeld.modCore (hk : HubHeld s₀ s) (c : Nat) (f : Core → Core) : HubHeld s₀ (s.modCore c f) := by
  unfold State.modCore
  grind [HubHeld.fields, HubHeld.others, HubHeld.setCore]

theorem HubHeld.modSeq (hk : HubHeld s₀ s) (c : Nat) (f : Seq → Seq) : HubHeld s₀ (s.modSeq c f) := by
  unfold State.modSeq
  grind [HubHeld.fields, HubHeld.others, HubHeld.modCore]

theorem HubHeld.setSlot (hk : HubHeld s₀ s) (c n : Nat) (x : Slot) : HubHeld s₀ (s.setSlot c n x) := by
  unfold State.setSlot
  grind [HubHeld.fields, HubHeld.others, HubHeld.modCore]

theorem HubHeld.send (hk : HubHeld s₀ s) (o : Out) : HubHeld s₀ (s.send o) := by
  unfold State.send
  grind [HubHeld.fields, HubHeld.others]

theorem HubHeld.draw (hk : HubHeld s₀ s) : HubHeld s₀ (s.draw).2 := by
  unfold State.draw
  grind [HubHeld.fields, HubHeld.others]

theorem HubHeld.act (hk : HubHeld s₀ s) (c j n : Nat) : HubHeld s₀ (s.act c j n) := by
  unfold State.act
  grind [HubHeld.fields, HubHeld.others, HubHeld.modCore]

theorem HubHeld.mesh (hk : HubHeld s₀ s) (c : Nat) (d : Option Nat) (n : Nat) : HubHeld s₀ (s.mesh c d n) := by
  unfold State.mesh
  grind [HubHeld.fields, HubHeld.others, HubHeld.act]

theorem HubHeld.setQuad (hk : HubHeld s₀ s) (q : Nat) (x : QuadSt) : HubHeld s₀ (s.setQuad q x) := by
  unfold State.setQuad
  grind [HubHeld.fields, HubHeld.others]

theorem HubHeld.ungate (hk : HubHeld s₀ s) (c : Nat) : HubHeld s₀ (s.ungate c) := by
  unfold State.ungate
  grind [HubHeld.fields, HubHeld.others, HubHeld.setQuad]

theorem HubHeld.reqEvent (hk : HubHeld s₀ s) (r : Req) (code cls detail : Nat) : HubHeld s₀ (s.reqEvent r code cls detail) := by
  unfold State.reqEvent
  grind [HubHeld.fields, HubHeld.others, HubHeld.log]

theorem HubHeld.coreEvent (hk : HubHeld s₀ s) (c code cls detail : Nat) : HubHeld s₀ (s.coreEvent c code cls detail) := by
  unfold State.coreEvent
  grind [HubHeld.fields, HubHeld.others, HubHeld.log]

theorem HubHeld.access (hk : HubHeld s₀ s) (r : Req) (a : Nat) : HubHeld s₀ (s.access r a) := by
  unfold State.access
  grind [HubHeld.fields, HubHeld.others, HubHeld.reqEvent]

theorem HubHeld.refuse (hk : HubHeld s₀ s) (r : Req) (a : Nat) : HubHeld s₀ (s.refuse r a) := by
  unfold State.refuse
  grind [HubHeld.fields, HubHeld.others, HubHeld.send, HubHeld.access]

theorem HubHeld.setSpad (hk : HubHeld s₀ s) (c off : Nat) (bs : List Byte) : HubHeld s₀ (s.setSpad c off bs) := by
  unfold State.setSpad
  grind [HubHeld.fields, HubHeld.others, HubHeld.setBytes]

theorem HubHeld.putLine (hk : HubHeld s₀ s) (l v : Nat) (bs : List Byte) (keep : Bool)
    : HubHeld s₀ (s.putLine l v bs keep) := by
  unfold State.putLine
  grind [HubHeld.fields, HubHeld.others, HubHeld.setBytes]

theorem HubHeld.setWay (hk : HubHeld s₀ s) (st w : Nat) (x : Option PLine) : HubHeld s₀ (s.setWay st w x) := by
  unfold State.setWay
  grind [HubHeld.fields, HubHeld.others]

theorem HubHeld.touch (hk : HubHeld s₀ s) (st w : Nat) (h : Hint) : HubHeld s₀ (s.touch st w h) := by
  unfold State.touch
  grind [HubHeld.fields, HubHeld.others]

theorem HubHeld.writeBack (hk : HubHeld s₀ s) (x : PLine) : HubHeld s₀ (s.writeBack x) := by
  unfold State.writeBack
  grind [HubHeld.fields, HubHeld.others, HubHeld.putLine]

theorem HubHeld.allocate (hk : HubHeld s₀ s) (st : Nat) (x : PLine) (h : Hint) : HubHeld s₀ (s.allocate st x h) := by
  unfold State.allocate
  grind [HubHeld.fields, HubHeld.others, HubHeld.writeBack, HubHeld.setWay, HubHeld.touch]

theorem HubHeld.countPantry (hk : HubHeld s₀ s) (g : Nat) (hit : Bool) : HubHeld s₀ (s.countPantry g hit) := by
  unfold State.countPantry
  grind [HubHeld.fields, HubHeld.others, HubHeld.count64]

theorem HubHeld.readLine (hk : HubHeld s₀ s) (h : Hint) (l : Nat) : HubHeld s₀ (s.readLine h l).2.2 := by
  unfold State.readLine
  grind [HubHeld.fields, HubHeld.others, HubHeld.countPantry, HubHeld.touch, HubHeld.allocate]

theorem HubHeld.writeLine (hk : HubHeld s₀ s) (h : Hint) (l o : Nat) (bs : List Byte) : HubHeld s₀ (s.writeLine h l o bs) := by
  unfold State.writeLine
  grind (gen := 40) (ematch := 40) [HubHeld.fields, HubHeld.others, HubHeld.putLine, HubHeld.countPantry, HubHeld.setWay, HubHeld.touch,
    HubHeld.allocate]

theorem HubHeld.cellarReadLines (hk : HubHeld s₀ s) (h : Hint) (ls : List Nat) :
    HubHeld s₀ (s.cellarReadLines h ls).2.2 := by
  induction ls generalizing s with
  | nil => simpa [State.cellarReadLines] using hk
  | cons x l ih =>
    unfold State.cellarReadLines
    grind [HubHeld.readLine]

theorem HubHeld.cellarRead (hk : HubHeld s₀ s) (h : Hint) (a n : Nat) : HubHeld s₀ (s.cellarRead h a n).2.2 := by
  unfold State.cellarRead
  grind [HubHeld.fields, HubHeld.others, HubHeld.cellarReadLines]

theorem HubHeld.cellarWrite (hk : HubHeld s₀ s) (h : Hint) (a : Nat) (bs : List Byte) : HubHeld s₀ (s.cellarWrite h a bs) := by
  unfold State.cellarWrite
  grind [HubHeld.fields, HubHeld.others, HubHeld.each, HubHeld.writeLine]

theorem HubHeld.cellarRefuse (hk : HubHeld s₀ s) (r : Req) (a : Nat) (w : CellarNo) : HubHeld s₀ (s.cellarRefuse r a w) := by
  unfold State.cellarRefuse
  grind [HubHeld.fields, HubHeld.others, HubHeld.reqEvent, HubHeld.send, HubHeld.refuse]

theorem HubHeld.spdErr (hk : HubHeld s₀ s) (c kind num : Nat) (nowin : Bool := false)
    : HubHeld s₀ (s.spdErr c kind num nowin) := by
  unfold State.spdErr
  grind [HubHeld.fields, HubHeld.others, HubHeld.setRg]

theorem HubHeld.slotTouch (hk : HubHeld s₀ s) (c off len : Nat) (wr : Bool) : HubHeld s₀ (s.slotTouch c off len wr) := by
  unfold State.slotTouch
  grind [HubHeld.fields, HubHeld.others, HubHeld.each, HubHeld.setSlot]

theorem HubHeld.slotClass (hk : HubHeld s₀ s) (c n : Nat) (r : Option Req) (wr : Bool) (cls : Nat)
    : HubHeld s₀ (s.slotClass c n r wr cls) := by
  unfold State.slotClass
  grind [HubHeld.fields, HubHeld.others, HubHeld.spdErr, HubHeld.log, HubHeld.coreEvent]

theorem HubHeld.wordAct (hk : HubHeld s₀ s) (c off len : Nat) : HubHeld s₀ (s.wordAct c off len) := by
  unfold State.wordAct
  grind [HubHeld.fields, HubHeld.others, HubHeld.act]

theorem HubHeld.ringHook (hk : HubHeld s₀ s) (c off : Nat) (bs : List Byte) : HubHeld s₀ (s.ringHook c off bs) := by
  unfold State.ringHook
  grind [HubHeld.fields, HubHeld.others, HubHeld.modSeq]

theorem HubHeld.store (hk : HubHeld s₀ s) (c off : Nat) (bs : List Byte) : HubHeld s₀ (s.store c off bs) := by
  unfold State.store
  grind [HubHeld.fields, HubHeld.others, HubHeld.setSpad, HubHeld.ringHook, HubHeld.wordAct]

theorem HubHeld.spadWrite (hk : HubHeld s₀ s) (c off : Nat) (bs : List Byte) (cls : Nat)
    : HubHeld s₀ (s.spadWrite c off bs cls).2 := by
  unfold State.spadWrite
  grind [HubHeld.fields, HubHeld.others, HubHeld.slotClass, HubHeld.slotTouch, HubHeld.store]

theorem HubHeld.winRefuse (hk : HubHeld s₀ s) (r : Req) (c off : Nat) : HubHeld s₀ (s.winRefuse r c off) := by
  unfold State.winRefuse
  grind [HubHeld.fields, HubHeld.others, HubHeld.spdErr, HubHeld.reqEvent, HubHeld.send]

theorem HubHeld.lineAct (hk : HubHeld s₀ s) (r : Req) (a n : Nat) : HubHeld s₀ (s.lineAct r a n) := by
  unfold State.lineAct
  grind [HubHeld.fields, HubHeld.others, HubHeld.act, HubHeld.mesh]

theorem HubHeld.spadAct (hk : HubHeld s₀ s) (r : Req) (c n : Nat) : HubHeld s₀ (s.spadAct r c n) := by
  unfold State.spadAct
  grind [HubHeld.fields, HubHeld.others, HubHeld.mesh]

theorem HubHeld.readCellar (hk : HubHeld s₀ s) (r : Req) (h : Hint) (a n : Nat) : HubHeld s₀ (s.readCellar r h a n).2 := by
  unfold State.readCellar
  grind [HubHeld.fields, HubHeld.others, HubHeld.cellarRefuse, HubHeld.lineAct, HubHeld.cellarRead]

theorem HubHeld.readAtSlots (hk : HubHeld s₀ s) (r : Req) (c off n : Nat) : HubHeld s₀ (s.readAtSlots r c off n).2 := by
  unfold State.readAtSlots
  grind [HubHeld.fields, HubHeld.others, HubHeld.slotClass, HubHeld.slotTouch, HubHeld.wordAct, HubHeld.spadAct, HubHeld.ungate]

theorem HubHeld.readSpad (hk : HubHeld s₀ s) (r : Req) (c off n : Nat) : HubHeld s₀ (s.readSpad r c off n).2 := by
  unfold State.readSpad
  grind [HubHeld.fields, HubHeld.others, HubHeld.refuse, HubHeld.winRefuse, HubHeld.readAtSlots]

theorem HubHeld.readMem (hk : HubHeld s₀ s) (r : Req) (h : Hint) (a n : Nat) : HubHeld s₀ (s.readMem r h a n).2 := by
  unfold State.readMem
  grind [HubHeld.fields, HubHeld.others, HubHeld.readCellar, HubHeld.readSpad, HubHeld.refuse]

theorem HubHeld.writeCellar (hk : HubHeld s₀ s) (r : Req) (h : Hint) (a : Nat) (bs : List Byte)
    : HubHeld s₀ (s.writeCellar r h a bs).2 := by
  unfold State.writeCellar
  grind [HubHeld.fields, HubHeld.others, HubHeld.cellarRefuse, HubHeld.refuse, HubHeld.lineAct, HubHeld.cellarWrite]

theorem HubHeld.writeAtSlots (hk : HubHeld s₀ s) (r : Req) (c off : Nat) (bs : List Byte)
    : HubHeld s₀ (s.writeAtSlots r c off bs).2 := by
  unfold State.writeAtSlots
  grind [HubHeld.fields, HubHeld.others, HubHeld.slotClass, HubHeld.slotTouch, HubHeld.spadAct, HubHeld.store, HubHeld.ungate]

theorem HubHeld.writeSpad (hk : HubHeld s₀ s) (r : Req) (c off : Nat) (bs : List Byte)
    : HubHeld s₀ (s.writeSpad r c off bs).2 := by
  unfold State.writeSpad
  grind [HubHeld.fields, HubHeld.others, HubHeld.refuse, HubHeld.winRefuse, HubHeld.writeAtSlots]

theorem HubHeld.writeMem (hk : HubHeld s₀ s) (r : Req) (h : Hint) (a : Nat) (bs : List Byte)
    : HubHeld s₀ (s.writeMem r h a bs).2 := by
  unfold State.writeMem
  grind [HubHeld.fields, HubHeld.others, HubHeld.writeCellar, HubHeld.writeSpad, HubHeld.refuse]

theorem HubHeld.sveErr (hk : HubHeld s₀ s) (c kind tile : Nat) : HubHeld s₀ (s.sveErr c kind tile) := by
  unfold State.sveErr
  grind [HubHeld.fields, HubHeld.others, HubHeld.setRg]

theorem HubHeld.engWrite (hk : HubHeld s₀ s) (c a : Nat) (bs : List Byte) (cls : Nat)
    : HubHeld s₀ (s.engWrite c a bs cls).2 := by
  unfold State.engWrite
  grind [HubHeld.fields, HubHeld.others, HubHeld.spadWrite, HubHeld.writeMem]

theorem HubHeld.rakeCount (hk : HubHeld s₀ s) (c : Nat) (r : RakeRec) : HubHeld s₀ (s.rakeCount c r) := by
  unfold State.rakeCount
  grind [HubHeld.fields, HubHeld.others, HubHeld.count]

theorem HubHeld.mergeSlot (hk : HubHeld s₀ s) (d : Desc) (i p : Nat) : HubHeld s₀ (s.mergeSlot d i p).2 := by
  unfold State.mergeSlot
  grind [HubHeld.fields, HubHeld.others, HubHeld.readMem]

theorem HubHeld.mergeSlots (hk : HubHeld s₀ s) (d : Desc) (i : Nat) : HubHeld s₀ (s.mergeSlots d i).2 := by
  unfold State.mergeSlots
  exact gather hk _ _ _ fun st p h => h.mergeSlot d i p

theorem HubHeld.hubRowOut (hk : HubHeld s₀ s) (x : Disp) (c i : Nat) (recs : List (Nat × Int))
    : HubHeld s₀ (s.hubRowOut x c i recs).2.2 := by
  unfold State.hubRowOut
  grind (gen := 40) (ematch := 40) [HubHeld.fields, HubHeld.others, HubHeld.modCore, HubHeld.count64, HubHeld.act, HubHeld.draw,
    HubHeld.engWrite, HubHeld.rakeCount, HubHeld.foldl]

theorem HubHeld.hubAmaxPut (hk : HubHeld s₀ s) (x : Disp) (d c i : Nat) (a : FV) : HubHeld s₀ (s.hubAmaxPut x d c i a) := by
  unfold State.hubAmaxPut
  grind [HubHeld.fields, HubHeld.others, HubHeld.engWrite]

theorem HubHeld.hubEvent (hk : HubHeld s₀ s) (x : Disp) (d c i code detail : Nat)
    : HubHeld s₀ (s.hubEvent x d c i code detail) := by
  unfold State.hubEvent
  grind [HubHeld.fields, HubHeld.others, HubHeld.log]

theorem HubHeld.hubDeliver (hk : HubHeld s₀ s) (x : Disp) (d c i : Nat) : HubHeld s₀ (s.hubDeliver x d c i) := by
  unfold State.hubDeliver
  grind [HubHeld.fields, HubHeld.others, HubHeld.mergeSlots, HubHeld.hubEvent, HubHeld.sveErr, HubHeld.hubRowOut, HubHeld.hubAmaxPut,
    HubHeld.setRg, HubHeld.foldl]

end Sys2Proof.Machine
end

section
set_option Elab.async false
/-! What the end of a row leaves of the count of rows ended. -/

namespace Sys2Proof.Machine
open Sys2Proof
variable {s₀ s t u : State} {c cc hh : Nat}

/-- The tile's count of ended rows stays. -/
def RowHeld (c h : Nat) (s t : State) : Prop := (t.tile c h).row = (s.tile c h).row

theorem RowHeld.refl (c h : Nat) (s : State) : RowHeld c h s s := rfl

theorem RowHeld.of_tile_eq (hk : RowHeld cc hh s₀ s) (e : t.tile cc hh = s.tile cc hh) : RowHeld cc hh s₀ t := by
  rwa [RowHeld, e]

theorem RowHeld.modCore (hk : RowHeld cc hh s₀ s) (c : Nat) (f : Core → Core) (hf : ∀ k, (f k).tiles = k.tiles) : RowHeld cc hh s₀ (s.modCore c f) :=
  hk.of_tile_eq (by
    by_cases hc : cc = c
    · subst hc
      exact State.tile_modCore cc f hh hf
    · rw [State.tile, State.core_modCore_ne s f hc]
      rfl)

theorem RowHeld.modTile (hk : RowHeld cc hh s₀ s) (c h : Nat) (f : Tile → Tile) (hf : ∀ t, (f t).row = t.row) :
    RowHeld cc hh s₀ (s.modTile c h f) := by
  by_cases hc : cc = c
  · subst hc
    by_cases hh' : hh = h
    · subst hh'
      have e := hf (s.tile cc hh)
      unfold RowHeld at *
      rw [State.tile_modTile_self]
      simp only [e]
      exact hk
    · exact hk.of_tile_eq (State.tile_modTile_ne s f hh')
  · exact hk.of_tile_eq (by rw [State.tile, State.modTile, State.core_modCore_ne s _ hc]; rfl)

theorem RowHeld.modArr (hk : RowHeld cc hh s₀ s) (c : Nat) (f : Arr → Arr) : RowHeld cc hh s₀ (s.modArr c f) := by
  unfold State.modArr
  grind [RowHeld.modCore]

theorem RowHeld.arrKick (hk : RowHeld cc hh s₀ s) (c : Nat) : RowHeld cc hh s₀ (s.arrKick c) := by
  unfold State.arrKick
  grind [RowHeld.modTile]

theorem RowHeld.arrLeave (hk : RowHeld cc hh s₀ s) (c : Nat) : RowHeld cc hh s₀ (s.arrLeave c) := by
  unfold State.arrLeave
  grind [RowHeld.modArr, RowHeld.arrKick]

theorem RowHeld.imLeave (hk : RowHeld cc hh s₀ s) (c h : Nat) (g : Geo) : RowHeld cc hh s₀ (s.imLeave c h g) := by
  unfold State.imLeave
  grind [RowHeld.modTile, RowHeld.arrLeave]

end Sys2Proof.Machine
end

section
set_option Elab.async false
/-! What the end of a scout leaves of its mask. -/

namespace Sys2Proof.Machine
open Sys2Proof
variable {s₀ s t u : State} {c cc hh : Nat}

/-- The tile's active outputs stay as its scout left them. -/
def MaskHeld (c h : Nat) (s t : State) : Prop := (t.tile c h).pass2 = (s.tile c h).pass2 ∧ (t.tile c h).acc = (s.tile c h).acc

theorem MaskHeld.refl (c h : Nat) (s : State) : MaskHeld c h s s := ⟨rfl, rfl⟩

theorem MaskHeld.of_tile_eq (hk : MaskHeld cc hh s₀ s) (e : t.tile cc hh = s.tile cc hh) : MaskHeld cc hh s₀ t := by
  rwa [MaskHeld, e]

theorem MaskHeld.of_cores_eq (hk : MaskHeld cc hh s₀ s) (e : t.cores = s.cores) : MaskHeld cc hh s₀ t :=
  hk.of_tile_eq (by rw [State.tile, State.tile, State.core, State.core, e])

theorem MaskHeld.fields (hk : MaskHeld cc hh s₀ s) {a1 a2 a3 a4 a5 a6 a7 a9 a10 a11 a12 a13 a14 a15 a16 a17 a18 a19 a20 a21} :
    MaskHeld cc hh s₀ (State.mk a1 a2 a3 a4 a5 a6 a7 s.cores a9 a10 a11 a12 a13 a14 a15 a16 a17 a18 a19 a20 a21) := hk.of_cores_eq rfl

theorem MaskHeld.modCore (hk : MaskHeld cc hh s₀ s) (c : Nat) (f : Core → Core) (hf : ∀ k, (f k).tiles = k.tiles) : MaskHeld cc hh s₀ (s.modCore c f) :=
  hk.of_tile_eq (by
    by_cases hc : cc = c
    · subst hc
      exact State.tile_modCore cc f hh hf
    · rw [State.tile, State.core_modCore_ne s f hc]
      rfl)

theorem MaskHeld.modTile (hk : MaskHeld cc hh s₀ s) (c h : Nat) (f : Tile → Tile) (hf : ∀ t, (f t).pass2 = t.pass2 ∧ (f t).acc = t.acc) :
    MaskHeld cc hh s₀ (s.modTile c h f) := by
  by_cases hc : cc = c
  · subst hc
    by_cases hh' : hh = h
    · subst hh'
      have e := hf (s.tile cc hh)
      unfold MaskHeld at *
      rw [State.tile_modTile_self]
      simp only [e]
      exact hk
    · exact hk.of_tile_eq (State.tile_modTile_ne s f hh')
  · exact hk.of_tile_eq (by rw [State.tile, State.modTile, State.core_modCore_ne s _ hc]; rfl)

theorem MaskHeld.setBytes (hk : MaskHeld cc hh s₀ s) (a : Nat) (bs : List Byte) : MaskHeld cc hh s₀ (s.setBytes a bs) :=
  hk.of_cores_eq (State.setBytes_cores s a bs)

theorem MaskHeld.setRg (hk : MaskHeld cc hh s₀ s) (n : RegName) (c i j : Nat) (v : W32)
    : MaskHeld cc hh s₀ (s.setRg n c i j v) := by
  unfold State.setRg
  grind [MaskHeld.fields]

theorem MaskHeld.setRgHi (hk : MaskHeld cc hh s₀ s) (n : RegName) (c i j : Nat) (v : W32)
    : MaskHeld cc hh s₀ (s.setRgHi n c i j v) := by
  unfold State.setRgHi
  grind [MaskHeld.fields]

theorem MaskHeld.setRg64 (hk : MaskHeld cc hh s₀ s) (n : RegName) (c i j v : Nat)
    : MaskHeld cc hh s₀ (s.setRg64 n c i j v) := by
  unfold State.setRg64
  grind [MaskHeld.fields, MaskHeld.setRg, MaskHeld.setRgHi]

theorem MaskHeld.modSeq (hk : MaskHeld cc hh s₀ s) (c : Nat) (f : Seq → Seq) : MaskHeld cc hh s₀ (s.modSeq c f) := by
  unfold State.modSeq
  grind [MaskHeld.fields, MaskHeld.modCore]

theorem MaskHeld.modArr (hk : MaskHeld cc hh s₀ s) (c : Nat) (f : Arr → Arr) : MaskHeld cc hh s₀ (s.modArr c f) := by
  unfold State.modArr
  grind [MaskHeld.fields, MaskHeld.modCore]

theorem MaskHeld.setSpad (hk : MaskHeld cc hh s₀ s) (c off : Nat) (bs : List Byte)
    : MaskHeld cc hh s₀ (s.setSpad c off bs) := by
  unfold State.setSpad
  grind [MaskHeld.fields, MaskHeld.setBytes]

theorem MaskHeld.writeRd (hk : MaskHeld cc hh s₀ s) (c : Nat) : MaskHeld cc hh s₀ (s.writeRd c) := by
  unfold State.writeRd
  grind [MaskHeld.fields, MaskHeld.setSpad]

theorem MaskHeld.setRd (hk : MaskHeld cc hh s₀ s) (c i : Nat) : MaskHeld cc hh s₀ (s.setRd c i) := by
  unfold State.setRd
  grind [MaskHeld.fields, MaskHeld.modSeq, MaskHeld.writeRd]

theorem MaskHeld.seqDoneAt (hk : MaskHeld cc hh s₀ s) (c i : Nat) : MaskHeld cc hh s₀ (s.seqDoneAt c i) := by
  unfold State.seqDoneAt
  grind [MaskHeld.fields, MaskHeld.setRd, MaskHeld.modSeq]

theorem MaskHeld.seqDone (hk : MaskHeld cc hh s₀ s) (c : Nat) : MaskHeld cc hh s₀ (s.seqDone c) := by
  unfold State.seqDone
  grind [MaskHeld.fields, MaskHeld.seqDoneAt]

theorem MaskHeld.setScalar (hk : MaskHeld cc hh s₀ s) (c n v : Nat) : MaskHeld cc hh s₀ (s.setScalar c n v) := by
  unfold State.setScalar
  grind [MaskHeld.fields, MaskHeld.setRg64]

theorem MaskHeld.arrKick (hk : MaskHeld cc hh s₀ s) (c : Nat) : MaskHeld cc hh s₀ (s.arrKick c) := by
  unfold State.arrKick
  grind [MaskHeld.fields, MaskHeld.modTile]

theorem MaskHeld.arrLeave (hk : MaskHeld cc hh s₀ s) (c : Nat) : MaskHeld cc hh s₀ (s.arrLeave c) := by
  unfold State.arrLeave
  grind [MaskHeld.fields, MaskHeld.modArr, MaskHeld.arrKick]

theorem MaskHeld.scoutEnds (hk : MaskHeld cc hh s₀ s) (c h : Nat) : MaskHeld cc hh s₀ (s.scoutEnds c h) := by
  unfold State.scoutEnds
  grind [MaskHeld.fields, MaskHeld.setScalar, MaskHeld.seqDone]

end Sys2Proof.Machine
end

section
set_option Elab.async false
/-! What shared operations leave unchanged. -/

namespace Sys2Proof
open Sys2Proof.Machine
variable {ps : List Part} {s₀ s t u : State} {c cc : Nat}

theorem only.writeRd (hk : only ps s₀ s) (m1 : Part.mem ∈ ps) (c : Nat) : only ps s₀ (s.writeRd c) := by
  unfold State.writeRd
  grind [only.fields, only.setSpad]

theorem only.setRd (hk : only ps s₀ s) (m1 : Part.mem ∈ ps) (m2 : Part.cores ∈ ps) (c i : Nat) : only ps s₀ (s.setRd c i) := by
  unfold State.setRd
  grind [only.fields, only.modSeq, only.writeRd]

theorem only.seqDoneAt (hk : only ps s₀ s) (m1 : Part.mem ∈ ps) (m2 : Part.cores ∈ ps) (c i : Nat)
    : only ps s₀ (s.seqDoneAt c i) := by
  unfold State.seqDoneAt
  grind [only.fields, only.setRd, only.modSeq]

theorem only.seqDone (hk : only ps s₀ s) (m1 : Part.mem ∈ ps) (m2 : Part.cores ∈ ps) (c : Nat) : only ps s₀ (s.seqDone c) := by
  unfold State.seqDone
  grind [only.fields, only.seqDoneAt]

theorem only.arrKick (hk : only ps s₀ s) (m1 : Part.cores ∈ ps) (c : Nat) : only ps s₀ (s.arrKick c) := by
  unfold State.arrKick
  grind [only.fields, only.modTile]

theorem only.arrLeave (hk : only ps s₀ s) (m1 : Part.cores ∈ ps) (c : Nat) : only ps s₀ (s.arrLeave c) := by
  unfold State.arrLeave
  grind [only.fields, only.modArr, only.arrKick]

theorem only.kick (hk : only ps s₀ s) (m1 : Part.cores ∈ ps) (c : Nat) (e : Engine) : only ps s₀ (s.kick c e) := by
  unfold State.kick
  grind [only.fields, only.modSeq]

theorem only.endJob (hk : only ps s₀ s) (m1 : Part.cores ∈ ps) (c : Nat) (e : Engine) : only ps s₀ (s.endJob c e) := by
  unfold State.endJob
  grind [only.fields, only.modSeq, only.kick]

theorem onlyCore.writeRd (hk : onlyCore cc s₀ s) (c : Nat) : onlyCore cc s₀ (s.writeRd c) := by
  unfold State.writeRd
  grind [onlyCore.fields, onlyCore.setSpad]

theorem onlyCore.setRd (hk : onlyCore c s₀ s) (i : Nat) : onlyCore c s₀ (s.setRd c i) := by
  unfold State.setRd
  grind [onlyCore.fields, onlyCore.modSeq, onlyCore.writeRd]

theorem onlyCore.seqDoneAt (hk : onlyCore c s₀ s) (i : Nat) : onlyCore c s₀ (s.seqDoneAt c i) := by
  unfold State.seqDoneAt
  grind [onlyCore.fields, onlyCore.setRd, onlyCore.modSeq]

theorem onlyCore.seqDone (hk : onlyCore c s₀ s) : onlyCore c s₀ (s.seqDone c) := by
  unfold State.seqDone
  grind [onlyCore.fields, onlyCore.seqDoneAt]

theorem onlyCore.arrKick (hk : onlyCore c s₀ s) : onlyCore c s₀ (s.arrKick c) := by
  unfold State.arrKick
  grind [onlyCore.fields, onlyCore.modTile]

theorem onlyCore.kick (hk : onlyCore c s₀ s) (e : Engine) : onlyCore c s₀ (s.kick c e) := by
  unfold State.kick
  grind [onlyCore.fields, onlyCore.modSeq]

theorem onlyCore.endJob (hk : onlyCore c s₀ s) (e : Engine) : onlyCore c s₀ (s.endJob c e) := by
  unfold State.endJob
  grind [onlyCore.fields, onlyCore.modSeq, onlyCore.kick]

end Sys2Proof
end

section
set_option Elab.async false
/-! The Sieve (R200, R203 to R206, R209, R345, R362). -/

namespace Sys2Proof.Machine
open Sys2Proof
variable {s t u v w x : State} {c : CoreId} {h : Handle}

/-! ### Index matching -/

theorem State.row_imRow (c h : Nat) (g : Geo) (qa qw : Idx) (row : Nat) : ((s.imRow c h g qa qw row).tile c h).row = row + 1 := by
  rw [State.imRow, State.tile_modTile_self]

theorem execImatchRowEnd_ends {qa qw : Idx} (ho : s.coreOpen c.val = true) (hop : (s.tile c.val h.val).opened = true)
    (hi : s.isImatch c.val h.val = true) (hcur : (s.core c.val).arr.cur = some h.val)
    (hrow : (s.tile c.val h.val).row < (s.geo c.val h.val).rowsA)
    (ha : s.idxOf c.val h.val false ((s.geo c.val h.val).sideBase false).2 = (some qa, u))
    (hw : u.idxOf c.val h.val true ((if (s.geo c.val h.val).d.batw then (s.geo c.val h.val).d.tb else 1) *
      (s.geo c.val h.val).d.kA (s.geo c.val h.val).alen) = (some qw, v))
    (h1 : v.slotScales c.val h.val (s.geo c.val h.val).d.sideA (s.geo c.val h.val) = (true, w))
    (h2 : w.slotScales c.val h.val (s.geo c.val h.val).d.sideW (s.geo c.val h.val) = (true, x))
    (hs : ((s.core c.val).loadStall h.val).isNone = true)
    (hl : ((x.imRow c.val h.val (s.geo c.val h.val) qa qw (s.tile c.val h.val).row).core c.val).loadStall h.val = none) :
    exec (.imatchRowEnd c h) s = .next
      ((x.imRow c.val h.val (s.geo c.val h.val) qa qw (s.tile c.val h.val).row).imLeave c.val h.val (s.geo c.val h.val)) := by
  simp only [exec, execImatchRowEnd, ho, hop, hi, hcur, hrow, ha, hw, h1, h2, hs, hl, decide_true, Bool.and_true, if_true]

/-! ### Merging -/

/-- The tile's runs once the first 8 of a row have merged into one, where more of the row wait (R203). -/
def Tile.runsMerged (t : Tile) (row : Nat) : List Run :=
  t.runs.filter (·.row ≠ row) ++ (t.runs.filter (·.row = row)).drop 8 ++
    [{ row := row, recs := mergeKeep (fun n => t.imNan.contains (row, n)) (((t.runs.filter (·.row = row)).take 8).map (·.recs)) }]

theorem State.mergePass_more {c h row : Nat} (hn : 8 < ((s.tile c h).runs.filter (·.row = row)).length) :
    s.mergePass c h row = s.modTile c h (fun t => { t with runs := (s.tile c h).runsMerged row }) := by
  have hne : ((((s.tile c h).runs.filter (·.row = row)).drop 8).isEmpty) = false := by
    rw [List.isEmpty_eq_false_iff_exists_mem]
    exact List.exists_mem_of_length_pos (by rw [List.length_drop]; omega)
  unfold State.mergePass
  extract_lets t g mine out rest others
  rw [if_neg (by simp only [rest, mine, t, hne]; decide)]
  rfl

/-- A job that is left after a job of its engine has ended was waiting. -/
theorem State.jobs_endJob (c : Nat) (e : Engine) {k : Job} (hk : k ∈ ((s.endJob c e).core c).seq.jobs) (he : k.eng = e) :
    { k with running := false } ∈ (s.core c).seq.jobs := by
  have hwait {j : Job} (hj : j ∈ (s.core c).seq.jobs.filter (fun j => !(j.eng = e && j.running))) (hje : j.eng = e) :
      { j with running := false } ∈ (s.core c).seq.jobs := by
    obtain ⟨hm, hr⟩ := List.mem_filter.1 hj
    have hr : j.running = false := by simpa [hje] using hr
    rwa [show { j with running := false } = j by rw [← hr]]
  unfold State.endJob State.kick at hk
  split at hk
  · rw [State.modSeq, State.core_modCore_self] at hk
    exact hwait hk he
  · rw [State.modSeq, State.modSeq, State.core_modCore_self, State.core_modCore_self] at hk
    obtain ⟨j, hj, rfl⟩ := List.mem_map.1 hk
    have hje : j.eng = e := by
      split at he <;> assumption
    have := hwait hj hje
    rw [if_pos hje]
    exact this

theorem execMergeTreeDone_job {j : Job} (ho : s.coreOpen c.val = true) (hj : s.runningJob c.val .merge = some j)
    (hs : s.stalled c.val (.eng .merge) = false) (hm : s.mergeJob c.val j = (true, u)) :
    exec (.mergeTreeDone c true) s = .next (u.endJob c.val .merge) := by
  simp [exec, execMergeTreeDone, ho, hj, hs, hm]

/-! ### The scout -/

theorem State.rg64_setRg64 (n : RegName) (c i j v : Nat) : (s.setRg64 n c i j v).rg64 n c i j = v % 2 ^ 64 := by
  have hlo : (s.setRg64 n c i j v).rg n c i j = BitVec.ofNat 32 v := by
    rw [State.rg, State.setRg64, State.setRgHi, Sparse.get_put_ne _ _ _ _ (by omega)]
    exact State.rg_setRg_self s n c i j _
  have hhi : (s.setRg64 n c i j v).rgHi n c i j = BitVec.ofNat 32 (v / 2 ^ 32) := Sparse.get_put_self _ _ _ _
  rw [State.rg64, hlo, hhi, BitVec.toNat_ofNat, BitVec.toNat_ofNat]
  omega

theorem State.scalar_setScalar (c n v : Nat) : (s.setScalar c n v).scalar c n = v % 2 ^ 64 := State.rg64_setRg64 .seqS c n 0 v

theorem State.scalar_of_regs_eq {c n : Nat} (e : t.regs = s.regs) : t.scalar c n = s.scalar c n := by
  simp only [State.scalar, State.rg64, State.rg, State.rgHi, e]

theorem State.seqDone_regs (c : Nat) : (s.seqDone c).regs = s.regs :=
  (((only.refl [.mem, .cores] s).seqDone (by simp) (by simp) c) .regs).resolve_left (by simp)

theorem State.wait_seqDone (c : Nat) : ((s.seqDone c).core c).seq.wait = .none := by
  simp [State.seqDone, State.seqDoneAt, State.modSeq]

theorem Tile.activeCount_congr {x y : Tile} {g k : Geo} (ha : x.acc = y.acc) (hg : g.within = k.within) :
    x.activeCount g = y.activeCount k := by
  simp only [Tile.activeCount, ha, hg]

/-- Which outputs lie within the actual lengths follows from the item and its layer. -/
theorem State.within_congr {c h : Nat} (ht : (t.tile c h).ctx = (s.tile c h).ctx ∧ (t.tile c h).rec_ = (s.tile c h).rec_)
    (hc : (t.core c).seq.ctxs = (s.core c).seq.ctxs) : (t.geo c h).within = (s.geo c h).within := by
  have hctx : t.tileCtx c h = s.tileCtx c h := by rw [State.tileCtx, State.tileCtx, State.ctxOf, State.ctxOf, hc, ht.1]
  have hg : (t.geo c h).cols = (s.geo c h).cols ∧ (t.geo c h).rowsA = (s.geo c h).rowsA ∧ (t.geo c h).colsA = (s.geo c h).colsA := by
    refine ⟨?_, ?_, ?_⟩ <;> simp only [State.geo, State.geoAt, hctx, ht.2]
  obtain ⟨h1, h2, h3⟩ := hg
  funext i
  simp only [Geo.within, h1, h2, h3]

/-- The end of the scout pass of a tile whose SCOUT waits. -/
theorem State.scoutEnds_waiting {c h sd : Nat} (hw : (s.core c).seq.wait = .scout h sd) :
    s.scoutEnds c h = (s.setScalar c sd ((s.tile c h).activeCount (s.geo c h))).seqDone c := by
  simp [State.scoutEnds, hw]

theorem execScoutPassDone_claimed (ho : s.coreOpen c.val = true) (hop : (s.tile c.val h.val).opened = true)
    (hs : (s.tile c.val h.val).sst = .running)
    (hd : (s.geo c.val h.val).addsDue (s.tile c.val h.val) ≤ (s.tile c.val h.val).added.length)
    (hc : (s.tile c.val h.val).st = .claimed) :
    exec (.scoutPassDone c h) s =
      .next (((s.scoutTest c.val h.val (s.geo c.val h.val)).arrLeave c.val).scoutEnds c.val h.val) := by
  simp [exec, execScoutPassDone, ho, hop, hs, hd, hc]

/-- Settles O14, from the ends of rows, merges, merged rows and scouts. -/
theorem sieveCommands : Obligations.SieveCommands := by
  refine ⟨?_, ?_, ?_, ?_, ?_⟩
  · intro c h qa qw u v w x s g ho hop hi hcur hrow ha hw h1 h2 hs hl
    refine ⟨_, execImatchRowEnd_ends ho hop hi hcur hrow ha hw h1 h2 hs hl, ?_⟩
    have hk := (RowHeld.refl c.val h.val (x.imRow c.val h.val g qa qw (s.tile c.val h.val).row)).imLeave c.val h.val g
    exact hk.trans (State.row_imRow c.val h.val g qa qw _)
  · intro c h row s ho hm hn
    refine ⟨s.modTile c.val h (fun t => { t with runs := (s.tile c.val h).runsMerged row }), ?_, ?_, (onlyTile.refl _ _ s).modTile _,
      (onlyCore.refl _ s).modTile _ _, (only.refl _ s).modTile (by simp) _ _ _⟩
    · simp only [exec, execMergeTreeDone, ho, hm, State.mergePass_more hn]
      rfl
    · rw [State.tile_modTile_self]
      rfl
  · intro c j u s ho hj hs hm
    exact ⟨_, execMergeTreeDone_job ho hj hs hm, fun k hk he => State.jobs_endJob c.val .merge hk he,
      (onlyCore.refl _ u).endJob _, (only.refl _ u).endJob (by simp) _ _⟩
  · intro d row r s hf ho
    refine ⟨_, by simp only [exec, execHubMergeDeliver, hf, ho]; rfl, ?_⟩
    exact congrArg (·.erase r) ((HubHeld.refl s).hubDeliver r.layer d.val r.core row)
  · intro c h sd s ho hop hs hd hc hw
    have hq : SeqHeld c.val s ((s.scoutTest c.val h.val (s.geo c.val h.val)).arrLeave c.val) :=
      ((SeqHeld.refl _ s).scoutTest ..).arrLeave ..
    obtain ⟨hqw, hqc, -⟩ := hq
    have ht : TileHeld c.val h.val s ((s.scoutTest c.val h.val (s.geo c.val h.val)).arrLeave c.val) :=
      ((TileHeld.refl _ _ s).scoutTest ..).arrLeave ..
    have hp : ((s.scoutTest c.val h.val (s.geo c.val h.val)).tile c.val h.val).pass2 = true := by
      simp [State.scoutTest]
    have hm := (MaskHeld.refl c.val h.val (s.scoutTest c.val h.val (s.geo c.val h.val))).arrLeave c.val
    refine ⟨_, execScoutPassDone_claimed ho hop hs hd hc, ?_, ?_, ?_⟩
    all_goals generalize (s.scoutTest c.val h.val (s.geo c.val h.val)).arrLeave c.val = v at *
    · exact (hm.scoutEnds c.val h.val).1.trans hp
    · rw [State.scoutEnds_waiting (hqw.trans hw)]
      exact State.wait_seqDone _
    · have ha := ((MaskHeld.refl c.val h.val v).scoutEnds c.val h.val).2
      rw [State.scoutEnds_waiting (hqw.trans hw)] at ha ⊢
      exact (State.scalar_of_regs_eq (State.seqDone_regs _)).trans ((State.scalar_setScalar _ _ _).trans
        (congrArg (· % 2 ^ 64) (Tile.activeCount_congr ha.symm (State.within_congr ht hqc))))

end Sys2Proof.Machine
end

section
/-! SORT (R207): the permutation is a stable bucket sort of the rows by their counts. -/

namespace Sys2Proof.Machine
open Sys2Proof

/-- The bucket of a row. -/
def rowBucket (bnd counts : List Nat) (r : Nat) : Nat := bucketOf bnd (counts.getD r 0)

/-- The rows of a bucket, in their own order. -/
def bucketRows (key : Nat → Nat) (n b : Nat) : List Nat := (List.range n).filter (fun r => key r = b)

theorem sortOf_eq (bnd counts : List Nat) : sortOf bnd counts =
    (((List.range bnd.length).map (bucketRows (rowBucket bnd counts) counts.length)).flatten,
     (List.range bnd.length).map (fun b =>
       ((((List.range bnd.length).map (bucketRows (rowBucket bnd counts) counts.length)).take b).map List.length).sum)) := by
  have hix : (List.range counts.length).zip (counts.map (bucketOf bnd)) =
      (List.range counts.length).map (fun r => (r, rowBucket bnd counts r)) := by
    refine List.ext_getElem (by simp) fun i h1 h2 => ?_
    have hi : i < counts.length := by simpa using h2
    simp [rowBucket, hi]
  have hper (b : Nat) : (((List.range counts.length).zip (counts.map (bucketOf bnd))).filter (·.2 = b)).map (·.1) =
      bucketRows (rowBucket bnd counts) counts.length b := by
    rw [hix, List.filter_map, List.map_map]
    exact List.map_id _
  simp only [sortOf, upTo, List.length_map, hper]

/-! ### Buckets -/

/-- Of a rising list that is not empty, the last member is the greatest. -/
theorem getLast_greatest {l : List Nat} (hs : l.Pairwise (· < ·)) (hne : l ≠ []) :
    ∃ x ∈ l, l.getLast? = some x ∧ ∀ b ∈ l, b ≤ x := by
  obtain rfl | ⟨l, x, rfl⟩ := List.eq_nil_or_concat l
  · exact absurd rfl hne
  · simp only [List.concat_eq_append] at *
    obtain ⟨-, -, hlt⟩ := List.pairwise_append.1 hs
    refine ⟨x, by simp, by simp, fun b hb => ?_⟩
    obtain hb | hb := List.mem_append.1 hb
    · exact Nat.le_of_lt (hlt b hb x (by simp))
    · exact Nat.le_of_eq (List.mem_singleton.1 hb)

theorem bucketOf_spec {bnd : List Nat} (hne : bnd ≠ []) (h0 : bnd.getD 0 0 = 0) (n : Nat) :
    bucketOf bnd n < bnd.length ∧ bnd.getD (bucketOf bnd n) 0 ≤ n ∧
      (bucketOf bnd n + 1 < bnd.length → n < bnd.getD (bucketOf bnd n + 1) 0) := by
  have hmem (b : Nat) : b ∈ (upTo bnd.length).filter (fun b => bnd.getD b 0 ≤ n) ↔ b < bnd.length ∧ bnd.getD b 0 ≤ n := by
    simp [upTo]
  have hsort : ((upTo bnd.length).filter (fun b => bnd.getD b 0 ≤ n)).Pairwise (· < ·) := List.pairwise_lt_range.filter _
  have hz : 0 ∈ (upTo bnd.length).filter (fun b => bnd.getD b 0 ≤ n) :=
    (hmem 0).2 ⟨List.length_pos_iff.mpr hne, by omega⟩
  obtain ⟨x, hx, hlast, hmax⟩ := getLast_greatest hsort (List.ne_nil_of_mem hz)
  have hb : bucketOf bnd n = x := by rw [bucketOf, hlast, Option.getD_some]
  rw [hb]
  refine ⟨((hmem x).1 hx).1, ((hmem x).1 hx).2, fun hlt => ?_⟩
  refine Nat.lt_of_not_le fun hle => ?_
  exact absurd (hmax (x + 1) ((hmem (x + 1)).2 ⟨hlt, hle⟩)) (Nat.not_succ_le_self x)

/-! ### The permutation -/

theorem mem_bucketRows {key : Nat → Nat} {n b r : Nat} : r ∈ bucketRows key n b ↔ r < n ∧ key r = b := by simp [bucketRows]

/-- The rows of the first buckets, one bucket after another, are the rows whose bucket is among them. -/
theorem flatten_bucketRows_perm (key : Nat → Nat) (n m : Nat) :
    ((List.range m).map (bucketRows key n)).flatten.Perm ((List.range n).filter (fun r => key r < m)) := by
  induction m with
  | zero => simp
  | succ m ih =>
    rw [List.range_succ, List.map_append, List.flatten_append]
    have hsplit := List.filter_append_perm (fun r => key r < m) ((List.range n).filter (fun r => key r < m + 1))
    simp only [List.filter_filter] at hsplit
    have h1 : (List.range n).filter (fun r => decide (key r < m) && decide (key r < m + 1)) =
        (List.range n).filter (fun r => key r < m) :=
      List.filter_congr fun r _ => by simp only [← Bool.decide_and, decide_eq_decide]; omega
    have h2 : (List.range n).filter (fun r => !decide (key r < m) && decide (key r < m + 1)) = bucketRows key n m :=
      List.filter_congr fun r _ => by simp only [← decide_not, ← Bool.decide_and, decide_eq_decide]; omega
    rw [h1, h2] at hsplit
    refine List.Perm.trans (List.Perm.append ih ?_) hsplit
    simp

theorem flatten_bucketRows_length (key : Nat → Nat) (n b : Nat) :
    (((List.range b).map (bucketRows key n)).map List.length).sum = ((List.range n).filter (fun r => key r < b)).length := by
  rw [← List.length_flatten, (flatten_bucketRows_perm key n b).length_eq]

/-- Rows stand in the order of their buckets, those of one bucket in their own. -/
theorem flatten_bucketRows_sorted (key : Nat → Nat) (n m : Nat) :
    ((List.range m).map (bucketRows key n)).flatten.Pairwise (fun a b => key a < key b ∨ (key a = key b ∧ a < b)) := by
  refine List.pairwise_flatten.2 ⟨fun l hl => ?_, ?_⟩
  · obtain ⟨b, -, rfl⟩ := List.mem_map.1 hl
    refine List.Pairwise.imp_of_mem (fun {x y} hx hy hxy => ?_) ((List.pairwise_lt_range (n := n)).filter (fun r => key r = b))
    exact .inr ⟨(mem_bucketRows.1 hx).2.trans (mem_bucketRows.1 hy).2.symm, hxy⟩
  · refine List.Pairwise.map _ (fun b c hbc x hx y hy => ?_) (List.pairwise_lt_range (n := m))
    rw [(mem_bucketRows.1 hx).2, (mem_bucketRows.1 hy).2]
    exact .inl hbc

/-- Settles O15: every row has a bucket, so the buckets one after another list every row once. -/
theorem sortOrder : Obligations.SortOrder := by
  intro bnd counts hne h0 _
  rw [sortOf_eq]
  refine ⟨?_, bucketOf_spec hne h0, fun i j a b hij ha hb => ?_, fun b k hk => ?_⟩
  · refine (flatten_bucketRows_perm _ _ _).trans ?_
    rw [List.filter_eq_self.2 fun r _ => by simpa [rowBucket] using (bucketOf_spec hne h0 (counts.getD r 0)).1]
  · obtain ⟨hi, rfl⟩ := List.getElem?_eq_some_iff.1 ha
    obtain ⟨hj, rfl⟩ := List.getElem?_eq_some_iff.1 hb
    exact List.pairwise_iff_getElem.1 (flatten_bucketRows_sorted (rowBucket bnd counts) counts.length bnd.length) i j hi hj hij
  · rw [List.getElem?_map] at hk
    obtain ⟨c, hc, rfl⟩ := Option.map_eq_some_iff.1 hk
    obtain ⟨hb, rfl⟩ := List.getElem?_eq_some_iff.1 hc
    have hb' : b < bnd.length := by simpa using hb
    rw [List.getElem_range, ← List.map_take, List.take_range, Nat.min_eq_left (Nat.le_of_lt hb'), flatten_bucketRows_length]
    rfl

end Sys2Proof.Machine
end

section
set_option Elab.async false
/-! What the engines' accesses leave of the commands in the engines. -/

namespace Sys2Proof.Machine
open Sys2Proof
variable {s₀ s t u : State} {c cc : Nat}

/-- The commands in the engines stay, and so does the vector engine. -/
def JobsHeld (c : Nat) (s t : State) : Prop := (t.core c).seq.jobs = (s.core c).seq.jobs ∧ (t.core c).vec = (s.core c).vec

theorem JobsHeld.refl (c : Nat) (s : State) : JobsHeld c s s := ⟨rfl, rfl⟩

theorem JobsHeld.of_core_eq (hk : JobsHeld cc s₀ s) (e : t.core cc = s.core cc) : JobsHeld cc s₀ t := by
  rwa [JobsHeld, e]

theorem JobsHeld.of_cores_eq (hk : JobsHeld cc s₀ s) (e : t.cores = s.cores) : JobsHeld cc s₀ t :=
  hk.of_core_eq (by rw [State.core, State.core, e])

theorem JobsHeld.fields (hk : JobsHeld cc s₀ s) {a1 a2 a3 a4 a5 a6 a7 a9 a10 a11 a12 a13 a14 a15 a16 a17 a18 a19 a20 a21} :
    JobsHeld cc s₀ (State.mk a1 a2 a3 a4 a5 a6 a7 s.cores a9 a10 a11 a12 a13 a14 a15 a16 a17 a18 a19 a20 a21) := hk.of_cores_eq rfl

theorem JobsHeld.modCore (hk : JobsHeld cc s₀ s) (c : Nat) (f : Core → Core) (hf : ∀ k, (f k).seq.jobs = k.seq.jobs ∧ (f k).vec = k.vec) : JobsHeld cc s₀ (s.modCore c f) := by
  by_cases hc : cc = c
  · subst hc
    have e := hf (s.core cc)
    unfold JobsHeld at *
    rw [State.core_modCore_self]
    simp only [e]
    exact hk
  · exact hk.of_core_eq (State.core_modCore_ne s f hc)

theorem JobsHeld.modSeq (hk : JobsHeld cc s₀ s) (c : Nat) (f : Seq → Seq) (hf : ∀ q, (f q).jobs = q.jobs) : JobsHeld cc s₀ (s.modSeq c f) :=
  hk.modCore c _ fun k => by simp only [hf, and_self]

theorem JobsHeld.each {α : Type} (hk : JobsHeld cc s₀ s) (l : List α) (f : State → α → State)
    (hf : ∀ t x, JobsHeld cc s₀ t → JobsHeld cc s₀ (f t x)) : JobsHeld cc s₀ (s.each l f) := State.each_inv s (JobsHeld cc s₀) l f hf hk

theorem JobsHeld.log (hk : JobsHeld cc s₀ s) (e : Event) : JobsHeld cc s₀ (s.log e) := hk.of_cores_eq (State.log_cores s e)

theorem JobsHeld.setBytes (hk : JobsHeld cc s₀ s) (a : Nat) (bs : List Byte) : JobsHeld cc s₀ (s.setBytes a bs) :=
  hk.of_cores_eq (State.setBytes_cores s a bs)

theorem JobsHeld.setRg (hk : JobsHeld cc s₀ s) (n : RegName) (c i j : Nat) (v : W32) : JobsHeld cc s₀ (s.setRg n c i j v) := by
  unfold State.setRg
  grind [JobsHeld.fields]

theorem JobsHeld.count (hk : JobsHeld cc s₀ s) (n : RegName) (c i k : Nat) : JobsHeld cc s₀ (s.count n c i k) := by
  unfold State.count
  grind [JobsHeld.fields, JobsHeld.setRg]

theorem JobsHeld.setSlot (hk : JobsHeld cc s₀ s) (c n : Nat) (x : Slot) : JobsHeld cc s₀ (s.setSlot c n x) := by
  unfold State.setSlot
  grind [JobsHeld.fields, JobsHeld.modCore]

theorem JobsHeld.draw (hk : JobsHeld cc s₀ s) : JobsHeld cc s₀ (s.draw).2 := by
  unfold State.draw
  grind [JobsHeld.fields]

theorem JobsHeld.act (hk : JobsHeld cc s₀ s) (c j n : Nat) : JobsHeld cc s₀ (s.act c j n) := by
  unfold State.act
  grind [JobsHeld.fields, JobsHeld.modCore]

theorem JobsHeld.coreEvent (hk : JobsHeld cc s₀ s) (c code cls detail : Nat)
    : JobsHeld cc s₀ (s.coreEvent c code cls detail) := by
  unfold State.coreEvent
  grind [JobsHeld.fields, JobsHeld.log]

theorem JobsHeld.setSpad (hk : JobsHeld cc s₀ s) (c off : Nat) (bs : List Byte) : JobsHeld cc s₀ (s.setSpad c off bs) := by
  unfold State.setSpad
  grind [JobsHeld.fields, JobsHeld.setBytes]

theorem JobsHeld.spdErr (hk : JobsHeld cc s₀ s) (c kind num : Nat) (nowin : Bool := false)
    : JobsHeld cc s₀ (s.spdErr c kind num nowin) := by
  unfold State.spdErr
  grind [JobsHeld.fields, JobsHeld.setRg]

theorem JobsHeld.slotTouch (hk : JobsHeld cc s₀ s) (c off len : Nat) (wr : Bool)
    : JobsHeld cc s₀ (s.slotTouch c off len wr) := by
  unfold State.slotTouch
  grind [JobsHeld.fields, JobsHeld.each, JobsHeld.setSlot]

theorem JobsHeld.slotClass (hk : JobsHeld cc s₀ s) (c n : Nat) (r : Option Req) (wr : Bool) (cls : Nat)
    : JobsHeld cc s₀ (s.slotClass c n r wr cls) := by
  unfold State.slotClass
  grind [JobsHeld.fields, JobsHeld.spdErr, JobsHeld.log, JobsHeld.coreEvent]

theorem JobsHeld.stallOn (hk : JobsHeld cc s₀ s) (c : Nat) (x : Stall) : JobsHeld cc s₀ (s.stallOn c x) := by
  unfold State.stallOn
  grind [JobsHeld.fields, JobsHeld.modCore, JobsHeld.setRg]

theorem JobsHeld.slotRelease (hk : JobsHeld cc s₀ s) (c n cls : Nat) : JobsHeld cc s₀ (s.slotRelease c n cls) := by
  unfold State.slotRelease
  grind [JobsHeld.fields, JobsHeld.setSlot]

theorem JobsHeld.wordAct (hk : JobsHeld cc s₀ s) (c off len : Nat) : JobsHeld cc s₀ (s.wordAct c off len) := by
  unfold State.wordAct
  grind [JobsHeld.fields, JobsHeld.act]

theorem JobsHeld.spadRead (hk : JobsHeld cc s₀ s) (c off len cls : Nat) (waited : List Nat := [])
    : JobsHeld cc s₀ (s.spadRead c off len cls waited).2 := by
  unfold State.spadRead
  grind [JobsHeld.fields, JobsHeld.slotClass, JobsHeld.slotTouch, JobsHeld.wordAct]

theorem JobsHeld.ringHook (hk : JobsHeld cc s₀ s) (c off : Nat) (bs : List Byte) : JobsHeld cc s₀ (s.ringHook c off bs) := by
  unfold State.ringHook
  grind [JobsHeld.fields, JobsHeld.modSeq]

theorem JobsHeld.store (hk : JobsHeld cc s₀ s) (c off : Nat) (bs : List Byte) : JobsHeld cc s₀ (s.store c off bs) := by
  unfold State.store
  grind [JobsHeld.fields, JobsHeld.setSpad, JobsHeld.ringHook, JobsHeld.wordAct]

theorem JobsHeld.spadWrite (hk : JobsHeld cc s₀ s) (c off : Nat) (bs : List Byte) (cls : Nat)
    : JobsHeld cc s₀ (s.spadWrite c off bs cls).2 := by
  unfold State.spadWrite
  grind [JobsHeld.fields, JobsHeld.slotClass, JobsHeld.slotTouch, JobsHeld.store]

theorem JobsHeld.jobRelease (hk : JobsHeld cc s₀ s) (c cls : Nat) (l : List (Nat × Nat))
    : JobsHeld cc s₀ (s.jobRelease c cls l) := by
  unfold State.jobRelease
  grind [JobsHeld.fields, JobsHeld.each, JobsHeld.slotRelease]

theorem JobsHeld.jobTouch (hk : JobsHeld cc s₀ s) (c : Nat) (e : Engine) (waited : List Nat) (cls : Nat)
    (l : List (Nat × Nat)) :
    JobsHeld cc s₀ (s.jobTouch c e waited cls l).2 := by
  induction l generalizing s with
  | nil => simpa [State.jobTouch] using hk
  | cons x l ih =>
    unfold State.jobTouch
    grind [JobsHeld.spadRead, JobsHeld.stallOn]

theorem JobsHeld.jobWrite (hk : JobsHeld cc s₀ s) (c : Nat) (e : Engine) (off : Nat) (bs : List Byte)
    : JobsHeld cc s₀ (s.jobWrite c e off bs) := by
  unfold State.jobWrite
  grind [JobsHeld.fields, JobsHeld.spadWrite, JobsHeld.stallOn]

theorem JobsHeld.rakeCount (hk : JobsHeld cc s₀ s) (c : Nat) (r : RakeRec) : JobsHeld cc s₀ (s.rakeCount c r) := by
  unfold State.rakeCount
  grind [JobsHeld.fields, JobsHeld.count]

theorem JobsHeld.putStream (hk : JobsHeld cc s₀ s) (c : Nat) (e : Engine) (p : Conv) (og dst dsca w : Nat)
    (base : Nat → Nat) (xs : List FV) : JobsHeld cc s₀ (s.putStream c e p og dst dsca w base xs) := by
  unfold State.putStream
  grind [JobsHeld.fields, JobsHeld.jobWrite]

theorem JobsHeld.latchSummary (hk : JobsHeld cc s₀ s) (c : Nat) (x : Summary) : JobsHeld cc s₀ (s.latchSummary c x) := by
  unfold State.latchSummary
  grind [JobsHeld.fields, JobsHeld.setRg]

theorem JobsHeld.freeConv (hk : JobsHeld cc s₀ s) (fmt : Nat) (block : Bool) (rnd : Nat)
    : JobsHeld cc s₀ (s.freeConv fmt block rnd).2 := by
  unfold State.freeConv
  grind [JobsHeld.fields, JobsHeld.draw]

theorem JobsHeld.putRecs (hk : JobsHeld cc s₀ s) (c op : Nat) (x : Int) (dst : Nat) (l : List RakeRec) :
    JobsHeld cc s₀ (s.putRecs c op x dst l) := by
  induction l generalizing s dst with
  | nil => simpa [State.putRecs] using hk
  | cons x l ih =>
    unfold State.putRecs
    grind [JobsHeld.draw, JobsHeld.jobWrite, JobsHeld.rakeCount]

end Sys2Proof.Machine
end

section
set_option Elab.async false
/-! What shared operations leave unchanged. -/

namespace Sys2Proof
open Sys2Proof.Machine
variable {ps : List Part} {s₀ s t u : State} {c cc : Nat}

theorem only.modVec (hk : only ps s₀ s) (m1 : Part.cores ∈ ps) (c : Nat) (f : Vec → Vec) : only ps s₀ (s.modVec c f) := by
  unfold State.modVec
  grind [only.fields, only.modCore]

theorem only.slotRelease (hk : only ps s₀ s) (m1 : Part.cores ∈ ps) (c n cls : Nat) : only ps s₀ (s.slotRelease c n cls) := by
  unfold State.slotRelease
  grind [only.fields, only.setSlot]

theorem only.modCtx (hk : only ps s₀ s) (m1 : Part.cores ∈ ps) (c id : Nat) (f : Ctx → Ctx) : only ps s₀ (s.modCtx c id f) := by
  unfold State.modCtx
  grind [only.fields, only.modSeq]

theorem only.jobRelease (hk : only ps s₀ s) (m1 : Part.cores ∈ ps) (c cls : Nat) (l : List (Nat × Nat))
    : only ps s₀ (s.jobRelease c cls l) := by
  unfold State.jobRelease
  grind [only.fields, only.each, only.slotRelease]

theorem only.latchSummary (hk : only ps s₀ s) (m1 : Part.regs ∈ ps) (c : Nat) (x : Summary)
    : only ps s₀ (s.latchSummary c x) := by
  unfold State.latchSummary
  grind [only.fields, only.setRg]

theorem onlyCore.modVec (hk : onlyCore c s₀ s) (f : Vec → Vec) : onlyCore c s₀ (s.modVec c f) := by
  unfold State.modVec
  grind [onlyCore.fields, onlyCore.modCore]

theorem onlyCore.slotRelease (hk : onlyCore c s₀ s) (n cls : Nat) : onlyCore c s₀ (s.slotRelease c n cls) := by
  unfold State.slotRelease
  grind [onlyCore.fields, onlyCore.setSlot]

theorem onlyCore.modCtx (hk : onlyCore c s₀ s) (id : Nat) (f : Ctx → Ctx) : onlyCore c s₀ (s.modCtx c id f) := by
  unfold State.modCtx
  grind [onlyCore.fields, onlyCore.modSeq]

theorem onlyCore.jobRelease (hk : onlyCore c s₀ s) (cls : Nat) (l : List (Nat × Nat))
    : onlyCore c s₀ (s.jobRelease c cls l) := by
  unfold State.jobRelease
  grind [onlyCore.fields, onlyCore.each, onlyCore.slotRelease]

theorem onlyCore.latchSummary (hk : onlyCore cc s₀ s) (c : Nat) (x : Summary) : onlyCore cc s₀ (s.latchSummary c x) := by
  unfold State.latchSummary
  grind [onlyCore.fields, onlyCore.setRg]

end Sys2Proof
end

section
set_option Elab.async false
/-! The engines of a core (R248, R250, R345, R349, R353): their queue places, their starts and their completions. -/

namespace Sys2Proof.Machine
open Sys2Proof
variable {s t u v : State} {c : CoreId}

/-! ### Completing a command of the sequencer -/

/-- A sequencer whose blocking command has completed, at the read index `i`. -/
def Seq.doneAt (q : Seq) (i : Nat) : Seq := { q with rd := i % 256, wait := .none, halted := q.halted || q.stop, stop := false }

@[simp] theorem State.core_writeRd (c d : Nat) : (s.writeRd c).core d = s.core d := by simp [State.writeRd, State.core, State.setSpad]

@[simp] theorem State.core_setRd (c i : Nat) :
    (s.setRd c i).core c = { s.core c with seq := { (s.core c).seq with rd := i % 256 } } := by
  unfold State.setRd
  dsimp only
  split <;> simp [State.modSeq]

theorem State.core_seqDoneAt (c i : Nat) :
    (s.seqDoneAt c i).core c = { s.core c with seq := (s.core c).seq.doneAt i } := by
  simp [State.seqDoneAt, State.modSeq, Seq.doneAt]

@[simp] theorem State.core_seqDone (c : Nat) :
    (s.seqDone c).core c = { s.core c with seq := (s.core c).seq.doneAt ((s.core c).seq.rd + 1) } := State.core_seqDoneAt _ _

@[simp] theorem State.core_modSeq_self (c : Nat) (f : Seq → Seq) :
    (s.modSeq c f).core c = { s.core c with seq := f (s.core c).seq } := State.core_modCore_self _ _ _

@[simp] theorem State.core_modVec_self (c : Nat) (f : Vec → Vec) :
    (s.modVec c f).core c = { s.core c with vec := f (s.core c).vec } := State.core_modCore_self _ _ _

/-! ### Queue places -/

/-- Moving on the engine's queue changes at most which of its commands run. -/
theorem State.core_kick (c : Nat) (e : Engine) :
    ∃ js, (s.kick c e).core c = { s.core c with seq := { (s.core c).seq with jobs := js } } ∧
      ∀ j ∈ (s.core c).seq.jobs, ∃ k ∈ js, k.eng = j.eng ∧ k.cmd = j.cmd := by
  unfold State.kick
  split
  · exact ⟨_, rfl, fun j hj => ⟨j, hj, rfl, rfl⟩⟩
  · refine ⟨_, State.core_modSeq_self c _, fun j hj => ⟨_, List.mem_map_of_mem hj, ?_⟩⟩
    split <;> exact ⟨rfl, rfl⟩

/-- A command that takes its engine's queue place is among the engine's commands; the sequencer stays as it is. -/
theorem State.core_enqueue (c : Nat) (e : Engine) (w : BitVec 128) (n : Nat) :
    ∃ js, (s.enqueue c e w n).core c = { s.core c with seq := { (s.core c).seq with jobs := js } } ∧
      ∃ j ∈ js, j.eng = e ∧ j.cmd = w := by
  unfold State.enqueue
  extract_lets j
  obtain ⟨js, hc, hj⟩ := State.core_kick (s := s.modSeq c (fun q => { q with jobs := q.jobs ++ [j] })) c e
  rw [State.core_modSeq_self] at hc hj
  obtain ⟨k, hk, h1, h2⟩ := hj j (by simp)
  exact ⟨js, hc, k, hk, h1, h2⟩

theorem execEngineQueueAdmit_free {e : Engine} (ho : s.coreOpen c.val = true) (hw : (s.core c.val).seq.wait = .engine e)
    (hp : s.placeFree c.val e = true) :
    exec (.engineQueueAdmit c e) s =
      .next ((s.enqueue c.val e (s.fetchWord c.val) (s.engVlen c.val e (s.fetchWord c.val))).seqDone c.val) := by
  simp [exec, execEngineQueueAdmit, ho, hw, hp]

/-! ### Program stores -/

theorem execProgramStoreLoad_ok {x : Ctx} {bs : List Byte} (hx : s.progCtx c.val = some x) (ho : s.coreOpen c.val = true)
    (hs : s.stalled c.val .prog = false) (hd : s.olderOwed c.val x.id = false)
    (hr : s.engRead c.val (Desc.eprog x.desc) 176 cVec (s.core c.val).vec.asStored = (.ok bs, u)) :
    exec (.programStoreLoad c) s = .next ((u.modVec c.val (fun v =>
      { v with store0 := BitVec.ofNat 1408 (ofLe bs), cost0 := Prog.ceff (BitVec.ofNat 1408 (ofLe bs)), asStored := [] })).modCtx
        c.val x.id (fun y => { y with prog := true })) := by
  simp [exec, execProgramStoreLoad, hx, ho, hs, hd, hr, Got.orZeros, Got.bytes]

theorem execVprogStart_ok {j : Job} (hq : s.queuedJob c.val .vprog = some j) (ho : s.coreOpen c.val = true)
    (hr : s.runningJob c.val .vprog = none) (hs : s.stalled c.val (.eng .vprog) = false)
    (hh : s.vprogHeld c.val j.cmd (s.vprogImage c.val j.cmd) = false)
    (ht : s.jobTouch c.val .vprog j.asStored cVec (vprogImageAt j.cmd) = (true, u)) :
    exec (.vprogStart c) s = .next ((u.modVec c.val (fun v =>
      { v with store1 := s.vprogImage c.val j.cmd, cost1 := Prog.ceff (s.vprogImage c.val j.cmd) })).modSeq c.val (fun q =>
        { q with jobs := q.jobs.map (fun y => if y.eng = .vprog then { y with running := true } else y) })) := by
  simp [exec, execVprogStart, hq, ho, hr, hs, hh, ht]

/-- With no command of the engine running, marking its commands makes the first one the running one. -/
theorem find?_running_map {e : Engine} {js : List Job} (hr : js.find? (fun j => j.eng = e && j.running) = none) :
    (js.map (fun y => if y.eng = e then { y with running := true } else y)).find? (fun j => j.eng = e && j.running) =
      (js.find? (fun j => j.eng = e && !j.running)).map (fun j => { j with running := true }) := by
  induction js with
  | nil => rfl
  | cons j js ih =>
    rw [List.find?_cons] at hr
    split at hr
    · cases hr
    · next hj =>
      rw [List.map_cons, List.find?_cons, List.find?_cons]
      by_cases he : j.eng = e
      · have hn : j.running = false := by simpa [he] using hj
        simp [he, hn]
      · simpa [he] using ih hr

/-- Settles O16, from what taking a queue place, loading a program store and starting a VPROG do to the core. -/
theorem engineQueues : Obligations.EngineQueues := by
  refine ⟨?_, ?_, ?_⟩
  · intro c x bs u s hx ho hs hd hr
    refine ⟨_, execProgramStoreLoad_ok hx ho hs hd hr, ?_, ?_, ?_, ?_, ?_⟩
    · simp [State.modCtx]
    · simp [State.modCtx]
    · simp [State.modCtx]
    · exact ((onlyCore.refl _ u).modVec _).modCtx _ _
    · exact ((only.refl _ u).modVec (by simp) _ _).modCtx (by simp) _ _ _
  · intro c e s ho hw hp
    obtain ⟨js, hc, hj⟩ := State.core_enqueue (s := s) c.val e (s.fetchWord c.val) (s.engVlen c.val e (s.fetchWord c.val))
    refine ⟨_, execEngineQueueAdmit_free ho hw hp, ?_, ?_, ?_⟩ <;> rw [State.core_seqDone, hc]
    · rfl
    · rfl
    · exact hj
  · intro c j u s hq ho hr hs hh ht
    have hk : JobsHeld c.val s u := by simpa [ht] using (JobsHeld.refl c.val s).jobTouch c.val .vprog j.asStored cVec (vprogImageAt j.cmd)
    obtain ⟨hjobs, -⟩ := hk
    refine ⟨_, execVprogStart_ok hq ho hr hs hh ht, ?_, ?_, ?_, ?_⟩
    · simp
    · rw [State.runningJob, State.core_modSeq_self, State.core_modVec_self]
      dsimp only
      rw [hjobs, find?_running_map hr, ← State.queuedJob, hq]
      rfl
    · exact ((onlyCore.refl _ u).modVec _).modSeq _
    · exact ((only.refl _ u).modVec (by simp) _ _).modSeq (by simp) _ _

/-! ### Completions -/

theorem State.rg_setRg_core {n m : RegName} (hn : n.row.b.isCore = true) (hm : m.row.b.isCore = true) (h : n.place ≠ m.place)
    (c : Nat) (v : W32) : (s.setRg m c 0 0 v).rg n c = s.rg n c := by
  refine State.rg_setRg_ne s v ?_
  rw [regAddr_core hn, regAddr_core hm]
  omega

theorem State.rg_of_regs_eq {n : RegName} {c i j : Nat} (e : t.regs = s.regs) : t.rg n c i j = s.rg n c i j := by
  simp only [State.rg, e]

theorem State.regs_of_only {ps : List Part} (h : only ps s t) (hp : .regs ∉ ps) : t.regs = s.regs := (h .regs).resolve_left hp

/-- A summary that is latched stands in the four summary registers. -/
theorem State.rg_latchSummary (c : Nat) (x : Summary) :
    (s.latchSummary c x).rg .vecSmax c = x.smax ∧ (s.latchSummary c x).rg .vecSsum c = x.ssum ∧
      (s.latchSummary c x).rg .vecScnt c = x.scnt ∧ (s.latchSummary c x).rg .vecSflg c = x.sflg := by
  unfold State.latchSummary
  refine ⟨?_, ?_, ?_, State.rg_setRg_self ..⟩
  · rw [State.rg_setRg_core (by decide) (by decide) (by decide), State.rg_setRg_core (by decide) (by decide) (by decide),
      State.rg_setRg_core (by decide) (by decide) (by decide), State.rg_setRg_self]
  · rw [State.rg_setRg_core (by decide) (by decide) (by decide), State.rg_setRg_core (by decide) (by decide) (by decide),
      State.rg_setRg_self]
  · rw [State.rg_setRg_core (by decide) (by decide) (by decide), State.rg_setRg_self]

/-- The summary still stands there when the command has released its slots and has left its engine. -/
theorem State.rg_latchSummary_endJob (c cls : Nat) (x : Summary) (l : List (Nat × Nat)) (e : Engine) :
    let t := ((s.latchSummary c x).jobRelease c cls l).endJob c e
    t.rg .vecSmax c = x.smax ∧ t.rg .vecSsum c = x.ssum ∧ t.rg .vecScnt c = x.scnt ∧ t.rg .vecSflg c = x.sflg := by
  intro t
  have hr : t.regs = (s.latchSummary c x).regs := State.regs_of_only (ps := [.cores])
    (((only.refl _ _).jobRelease (by simp) c cls l).endJob (by simp) c e) (by simp)
  obtain ⟨h1, h2, h3, h4⟩ := State.rg_latchSummary (s := s) c x
  exact ⟨(State.rg_of_regs_eq hr).trans h1, (State.rg_of_regs_eq hr).trans h2, (State.rg_of_regs_eq hr).trans h3,
    (State.rg_of_regs_eq hr).trans h4⟩

/-- The vector engine's command starts nothing when it ends. -/
theorem State.endJob_vprog (c : Nat) :
    s.endJob c .vprog = s.modSeq c (fun q => { q with jobs := q.jobs.filter (fun j => !(j.eng = .vprog && j.running)) }) := by
  simp [State.endJob, State.kick]

/-- An engine whose one command ends holds none. -/
theorem State.jobs_endJob_single {e : Engine} {j : Job} (hr : s.runningJob c.val e = some j)
    (hj : (s.core c.val).seq.jobs.filter (fun k => k.eng = e) = [j]) :
    ((s.endJob c.val e).core c.val).seq.jobs.filter (fun k => k.eng = e) = [] := by
  have hrun : j.running = true := by
    have := List.find?_some (p := fun k : Job => k.eng = e && k.running) hr
    exact (Bool.and_eq_true_iff.1 this).2
  refine List.filter_eq_nil_iff.2 fun k hk hke => ?_
  have hke : k.eng = e := of_decide_eq_true hke
  unfold State.endJob State.kick at hk
  have hnone {i : Job} (hi : i ∈ (s.core c.val).seq.jobs.filter (fun j => !(j.eng = e && j.running))) (hie : i.eng = e) : False := by
    obtain ⟨hm, hn⟩ := List.mem_filter.1 hi
    have hi : i ∈ (s.core c.val).seq.jobs.filter (fun k => k.eng = e) := List.mem_filter.2 ⟨hm, decide_eq_true hie⟩
    rw [hj, List.mem_singleton] at hi
    simp [hie, hi ▸ hrun] at hn
  split at hk
  · rw [State.core_modSeq_self] at hk
    exact hnone hk hke
  · rw [State.core_modSeq_self, State.core_modSeq_self] at hk
    obtain ⟨i, hi, rfl⟩ := List.mem_map.1 hk
    exact hnone hi (by split at hke <;> exact hke)

theorem JobsHeld.jobs (h : JobsHeld c.val s t) : (t.core c.val).seq.jobs = (s.core c.val).seq.jobs := h.1

/-- A command that accesses memory and ends leaves its engine without one, where it was the only one. -/
theorem JobsHeld.endJob_single {e : Engine} {j : Job} (h : JobsHeld c.val s t) (hr : s.runningJob c.val e = some j)
    (hj : (s.core c.val).seq.jobs.filter (fun k => k.eng = e) = [j]) :
    ((t.endJob c.val e).core c.val).seq.jobs.filter (fun k => k.eng = e) = [] :=
  State.jobs_endJob_single (by rw [State.runningJob, h.jobs]; exact hr) (by rw [h.jobs]; exact hj)

theorem execVprogDone_treg {j : Job} (hr : s.runningJob c.val .vprog = some j) (ho : s.coreOpen c.val = true)
    (hs : s.stalled c.val (.eng .vprog) = false) (hh : s.vprogHeld c.val j.cmd (s.core c.val).vec.store1 = false)
    (hf : flag j.cmd 36 = true) :
    exec (.vprogDone c) s = .next (((s.vprogFinish c.val j ((upTo (vprogLen j.cmd j.vlen)).map
      (fun i => (Vec.treg (s.core c.val).vec (fld j.cmd 39 37) i, (0 : W32))))).jobRelease c.val cVec
        (vprogImageAt j.cmd ++ vprogSource j.cmd j.vlen)).endJob c.val .vprog) := by
  simp [exec, execVprogDone, hr, ho, hs, hh, hf, vprogSource, State.jobTouch]

/-- The summary of a VPROG: over the elements that are not masked. -/
def State.vprogSummary (s : State) (c : Nat) (j : Job) (ins : List (W32 × W32)) : Summary :=
  let r := s.vprogRun c j.cmd (s.core c).vec.store1 ins
  let live := r.out.filter (fun y => !y.2.2)
  summaryOf (Prog.oty (s.core c).vec.store1) r.isat (live.length < r.out.length) (!j.asStored.isEmpty) (s.sx c) (live.map (·.1))

/-- A VPROG whose results stay in tile registers leaves its results and its summary. -/
theorem State.vprogFinish_treg {c : Nat} {j : Job} (ins : List (W32 × W32)) (hf : flag j.cmd 45 = false) :
    s.vprogFinish c j ins =
      ((s.modVec c (fun _ => zeroMasked j.cmd (s.vprogRun c j.cmd (s.core c).vec.store1 ins))).act c 3
        (Prog.ceff (s.core c).vec.store1 * ins.length)).latchSummary c (s.vprogSummary c j ins) := by
  unfold State.vprogFinish
  extract_lets w p r s1 live sm s2
  rw [show s2 = s1 from if_neg (by simp [w, hf])]
  rfl

theorem execRakeDone_treg {j : Job} (hr : s.runningJob c.val .rake = some j) (ho : s.coreOpen c.val = true)
    (hs : s.stalled c.val (.eng .rake) = false) (hf : flag j.cmd 35 = true) (hop : fld j.cmd 11 8 ≠ 8) :
    exec (.rakeDone c) s = .next (((((s.putRecs c.val (fld j.cmd 11 8) (sext 8 (fld j.cmd 20 13)) (fld j.cmd 53 40 * 32)
      (rakeRecs (flag j.cmd 39) (flag j.cmd 12) (sext 8 (fld j.cmd 20 13)) (fld j.cmd 69 54)
        (s.rakeElems c.val j.cmd (min j.vlen 1024)))).act c.val 4 (min j.vlen 1024)).latchSummary c.val
          (summaryOf (flag j.cmd 39) false false (!j.asStored.isEmpty) (s.sx c.val)
            (s.rakeElems c.val j.cmd (min j.vlen 1024)))).jobRelease c.val cRake []).endJob c.val .rake) := by
  simp [exec, execRakeDone, hr, ho, hs, hf, hop, State.jobTouch]

theorem JobsHeld.of_jobTouch {e : Engine} {l : List Nat} {cls : Nat} {m : List (Nat × Nat)} {ok : Bool}
    (ht : s.jobTouch c.val e l cls m = (ok, u)) : JobsHeld c.val s u := by
  have hk := (JobsHeld.refl c.val s).jobTouch c.val e l cls m
  rwa [ht] at hk

/-- A CONV that does not stall writes its streams and ends. -/
theorem execConvDone_ends {j : Job} (hr : s.runningJob c.val .conv = some j) (ho : s.coreOpen c.val = true)
    (hs : s.stalled c.val (.eng .conv) = false)
    (ht : let g := gsizeOf (fld j.cmd 79 78)
      let sca := fld j.cmd 35 22 * 32
      let ts := streamSels (fld j.cmd 40 36) (fld j.cmd 42 41 = 1) sca (fld j.cmd 101 86) j.vlen g
      s.jobTouch c.val .conv j.asStored cVec [(fld j.cmd 21 8 * 32, streamBytes (fld j.cmd 40 36) (fld j.cmd 101 86) j.vlen),
        (sca, if fld j.cmd 42 41 = 1 then streamScales (fld j.cmd 101 86) j.vlen g else 0), (sca + ts.1, ts.2)] = (true, u)) :
    ∃ v, JobsHeld c.val s v ∧ exec (.convDone c) s = .next (v.endJob c.val .conv) := by
  change ∃ v, JobsHeld c.val s v ∧ execConvDone c s = .next (v.endJob c.val .conv)
  unfold execConvDone
  extract_lets k
  simp only [k, hr, ho, hs, Bool.not_false, Bool.and_true, if_true, decide_eq_true_eq, ht, Bool.not_true]
  exact ⟨_, ((JobsHeld.of_jobTouch ht).freeConv _ _ _).putStream .., rfl⟩

/-- A SORT that does not stall writes its lists and ends. -/
theorem execSortDone_ends {j : Job} (hr : s.runningJob c.val .sort = some j) (ho : s.coreOpen c.val = true)
    (hs : s.stalled c.val (.eng .sort) = false)
    (ht : s.jobTouch c.val .sort j.asStored cTile [(fld j.cmd 21 8 * 32, 4 * (fld j.cmd 99 68 + 1)),
      (fld j.cmd 35 22 * 32, 4 * (fld j.cmd 39 36 + 1))] = (true, u)) :
    ∃ v, JobsHeld c.val s v ∧ exec (.sortDone c) s = .next (v.endJob c.val .sort) := by
  change ∃ v, JobsHeld c.val s v ∧ execSortDone c s = .next (v.endJob c.val .sort)
  simp only [execSortDone, hr, ho, hs, Bool.not_false, Bool.and_true, if_true, ht, Bool.not_true]
  exact ⟨_, ((JobsHeld.of_jobTouch ht).jobWrite ..).jobWrite .., rfl⟩

/-- Settles O17, from the summary that is latched and the commands that stay in their engines. -/
theorem engineCompletions : Obligations.EngineCompletions := by
  refine ⟨?_, ?_, ?_, ?_⟩
  · intro c j s n ins r live sm hr ho hs hh hf h45
    refine ⟨_, execVprogDone_treg hr ho hs hh hf, ?_⟩
    rw [State.vprogFinish_treg _ h45]
    obtain ⟨h1, h2, h3, h4⟩ := State.rg_latchSummary_endJob
      (s := (s.modVec c.val (fun _ => zeroMasked j.cmd r)).act c.val 3 (Prog.ceff (s.core c.val).vec.store1 * ins.length))
      c.val cVec sm (vprogImageAt j.cmd ++ vprogSource j.cmd j.vlen) .vprog
    refine ⟨h1, h2, h3, h4, ?_, ?_, ?_, ?_⟩
    · have hk := (((JobsHeld.refl c.val (s.modVec c.val (fun _ => zeroMasked j.cmd r))).act c.val 3
        (Prog.ceff (s.core c.val).vec.store1 * ins.length)).latchSummary c.val sm).jobRelease c.val cVec
          (vprogImageAt j.cmd ++ vprogSource j.cmd j.vlen)
      rw [State.endJob_vprog, State.core_modSeq_self]
      exact congrArg _ (hk.jobs.trans (by rw [State.core_modVec_self]))
    · have hk := (((JobsHeld.refl c.val (s.modVec c.val (fun _ => zeroMasked j.cmd r))).act c.val 3
        (Prog.ceff (s.core c.val).vec.store1 * ins.length)).latchSummary c.val sm).jobRelease c.val cVec
          (vprogImageAt j.cmd ++ vprogSource j.cmd j.vlen)
      rw [State.endJob_vprog, State.core_modSeq_self]
      exact hk.2.trans (by rw [State.core_modVec_self])
    · exact (((((onlyCore.refl _ s).modVec _).act _ _).latchSummary _ _).jobRelease _ _).endJob _
    · exact (((((only.refl _ s).modVec (by simp) _ _).act (by simp) _ _ _).latchSummary (by simp) _ _).jobRelease (by simp) _ _ _).endJob
        (by simp) _ _
  · intro c j s n es sm hr ho hs hf hop hj
    refine ⟨_, execRakeDone_treg hr ho hs hf hop, ?_⟩
    obtain ⟨h1, h2, h3, h4⟩ := State.rg_latchSummary_endJob
      (s := (s.putRecs c.val (fld j.cmd 11 8) (sext 8 (fld j.cmd 20 13)) (fld j.cmd 53 40 * 32)
        (rakeRecs (flag j.cmd 39) (flag j.cmd 12) (sext 8 (fld j.cmd 20 13)) (fld j.cmd 69 54) es)).act c.val 4 n)
      c.val cRake sm [] .rake
    refine ⟨h1, h2, h3, h4, ?_⟩
    have hk := ((((JobsHeld.refl c.val s).putRecs c.val (fld j.cmd 11 8) (sext 8 (fld j.cmd 20 13)) (fld j.cmd 53 40 * 32)
      (rakeRecs (flag j.cmd 39) (flag j.cmd 12) (sext 8 (fld j.cmd 20 13)) (fld j.cmd 69 54) es)).act c.val 4 n).latchSummary
        c.val sm).jobRelease c.val cRake []
    exact hk.endJob_single hr hj
  · intro c j u s g sca ts hr ho hs ht hj
    obtain ⟨v, hv, he⟩ := execConvDone_ends hr ho hs ht
    exact ⟨_, he, hv.endJob_single hr hj⟩
  · intro c j u s hr ho hs ht hj
    obtain ⟨v, hv, he⟩ := execSortDone_ends hr ho hs ht
    exact ⟨_, he, hv.endJob_single hr hj⟩

end Sys2Proof.Machine
end

section
set_option Elab.async false
/-! Slots (R271 to R273), their declarations, and the accesses of other cores through a window (R285). -/

namespace Sys2Proof.Machine
open Sys2Proof
variable {s t : State}

/-! ### Slot states -/

theorem State.slot_setSlot (c n m : Nat) (x : Slot) : (s.setSlot c n x).slot c m = if m = n then x else s.slot c m := by
  rw [State.slot, State.setSlot, State.core_modCore_self]
  exact Sparse.get_put _ _ _ _ _

theorem State.slotFull_of_empty {c n : Nat} (hd : s.declared c n = true)
    (hx : (s.slot c n).st = .empty ∨ (s.slot c n).st = .filling) (hb : s.barrierOf c n = none) :
    s.slotFull c n = s.setSlot c n { st := .full } := by
  have hb : (s.setSlot c n { st := .full }).barrierOf c n = none := hb
  have hx : ((s.slot c n).st = .empty || (s.slot c n).st = .filling) = true := by simpa using hx
  simp [State.slotFull, hd, hx, hb]

theorem State.slotFull_of_held {c n : Nat} (hx : (s.slot c n).st = .full ∨ (s.slot c n).st = .draining) : s.slotFull c n = s := by
  obtain hx | hx := hx <;> simp [State.slotFull, hx]

/-- A release that counts sets its class, and empties the slot with the last class that must release. -/
theorem State.slotRelease_counts {c n cls : Nat} (hd : s.declared c n = true) (hm : (s.cmask c n).testBit cls = true)
    (hh : (s.slotHold c n && cls < 3) = false) (hx : (s.slot c n).st = .full ∨ (s.slot c n).st = .draining) :
    s.slotRelease c n cls = s.setSlot c n
      (if (s.mustRelease c n) &&& setBits (s.slot c n).rel cls 1 1 = s.mustRelease c n then {}
        else { st := .draining, rel := setBits (s.slot c n).rel cls 1 1 }) := by
  have hx : ((s.slot c n).st = .full || (s.slot c n).st = .draining) = true := by simpa using hx
  simp only [State.slotRelease, hd, hm, hh, hx, Bool.not_false, Bool.and_true, if_true]
  split <;> rfl

/-- Any other release leaves the state as it is. -/
theorem State.slotRelease_idle {c n cls : Nat}
    (h : (s.cmask c n).testBit cls = false ∨ (s.slotHold c n && cls < 3) = true ∨ (s.slot c n).st = .empty ∨
      (s.slot c n).st = .filling) : s.slotRelease c n cls = s := by
  unfold State.slotRelease
  obtain h | h | h | h := h <;> simp only [h, Bool.and_false, Bool.false_and, Bool.not_true, reduceCtorEq,
    decide_false, Bool.or_self, Bool.false_eq_true, if_false]

/-- Settles O18, from what FULL and a release do to a slot. -/
theorem slotStates : Obligations.SlotStates := by
  refine ⟨?_, ?_, ?_, ?_⟩
  · exact fun c n s hd hx hb => State.slotFull_of_empty hd hx hb
  · exact fun c n s hx => State.slotFull_of_held hx
  · intro c n cls s hd hm hh hx
    refine ⟨?_, ?_, (onlyCore.refl _ s).slotRelease _ _, (only.refl _ s).slotRelease (by simp) _ _ _⟩ <;>
      rw [State.slotRelease_counts hd hm hh hx]
    · rw [State.slot_setSlot, if_pos rfl]
    · intro m hne
      rw [State.slot_setSlot, if_neg hne]
  · exact fun c n cls s h => State.slotRelease_idle h

/-! ### Declarations -/

/-- A slot that was not declared is declared as R271 admits. -/
theorem State.declare_admitted {c n v : Nat} (h0 : v.testBit 0 = true) (h15 : v.testBit 15 = false)
    (hb : s.declBad c n (s.rg .spdSlotBase c n).toNat (v % 2 ^ 13) = false) :
    s.declare c n true v = (s.setRg .spdSlotBase c n 0 (s.rg .spdSlotBase c n)).setRg .spdSlotCfg c n 0 (BitVec.ofNat 32 (v % 2 ^ 13)) := by
  have h13 : (v % 2 ^ 13).testBit 0 = true := by rw [Nat.testBit_mod_two_pow]; simp [h0]
  unfold State.declare
  extract_lets vb0 vc0 vb vc was now bad t
  have hbad : ¬ bad := by
    simp only [bad, now, vc, vb, if_true, h13, vb0, hb, Bool.and_false, Bool.false_eq_true, not_false_eq_true]
  rw [if_neg hbad]
  rw [h15, Bool.and_false, if_neg (by simp)]
  simp [t, vb, vc, vb0]

/-- A declaration that R271 forbids is refused. -/
theorem State.declare_forbidden {c n v : Nat} (hd : s.declared c n = false) (h0 : v.testBit 0 = true)
    (hb : s.declBad c n (s.rg .spdSlotBase c n).toNat (v % 2 ^ 13) = true) : s.declare c n true v = s.declRefuse c n := by
  have h13 : (v % 2 ^ 13).testBit 0 = true := by rw [Nat.testBit_mod_two_pow]; simp [h0]
  have hw : ((s.rg .spdSlotCfg c n).toNat % 2 ^ 13).testBit 0 = false := by
    rw [Nat.testBit_mod_two_pow, ← State.declared, hd]
    rfl
  unfold State.declare
  extract_lets vb0 vc0 vb vc was now bad
  have hbad : bad := by simp only [bad, now, vc, vb, if_true, h13, vb0, hb, Bool.and_true, was, vc0, hw, Bool.not_false, Bool.true_or]
  rw [if_pos hbad]

/-- Settles O19, from what a declaration does to the slot's registers. -/
theorem slotDeclarations : Obligations.SlotDeclarations := by
  refine ⟨?_, ?_, ?_, ?_⟩
  · intro c n v s ho hp h15 hd h0 hb
    have he : exec (.slotDeclare c n true v) s = .next (s.declare c.val n.val true v.toNat) := by
      simp [exec, execSlotDeclare, ho, show ¬ 5 ≤ bits v.toNat 1 3 by omega]
    rw [State.declare_admitted h0 h15 hb] at he
    refine ⟨_, he, State.rg_setRg_self .., ?_, ?_, ((only.refl _ s).setRg (by simp) _ _ _ _ _).setRg (by simp) _ _ _ _ _⟩
    · rw [State.declared, State.rg_setRg_self, BitVec.toNat_ofNat, Nat.testBit_mod_two_pow, Nat.testBit_mod_two_pow, h0]
      rfl
    · exact ((onlyRegs.refl _ s).setRg _ _ _ _ _ (by simp)).setRg _ _ _ _ _ (by simp)
  · intro c n v s ho hp hd h0 hb
    rw [← State.declare_forbidden hd h0 hb]
    simp [exec, execSlotDeclare, ho, show ¬ 5 ≤ bits v.toNat 1 3 by omega]
  · intro c n s ho
    refine ⟨_, by rw [exec, execSlotClear, if_pos ho], ?_, ?_, (onlyCore.refl _ s).setSlot _ _, (only.refl _ s).setSlot (by simp) _ _ _⟩
    · rw [State.slot_setSlot, if_pos rfl]
    · intro m hne
      rw [State.slot_setSlot, if_neg hne]
  · intro c n v s ho
    simp [exec, execSlotDeclare, execSlotClear, ho]

/-! ### Accesses through a window -/

/-- Core 0 is ACTIVE and its block in partition 5, with a window over its scratchpad that is open to the partition's cores. -/
def coreWindow : State :=
  (({ State.reset with
      prc := { State.reset.prc with rails := upTo 10 }
      cfg := { State.reset.cfg with parts := [(5, BitVec.ofNat 256 5)] } } : State).setCore 0 { cst := .active }
    |>.setRg .spdWinBase 0 9 0 0xFFFC000).setRg .spdWinCfg 0 9 0 (BitVec.ofNat 32 (1 + 7 * 4))

/-- What core 1 has counted of activity once a command has run. -/
def coreOneAct (o : Host.Outcome State Fault Refusal) : Sparse Nat :=
  match o with
  | .next t => (t.core 1).act
  | _ => []

/-- Refutes O20: a write by core 1 through core 0's window counts in core 1's mesh activity, so that core 0 is not the only core that
changes. -/
theorem not_stallsAndInbound : ¬ Obligations.StallsAndInbound := by
  intro h
  obtain ⟨-, -, h, -, -⟩ := h
  obtain ⟨t, he, -, -, -, hc⟩ := h (.core 1) 0 0 [1] coreWindow (by decide +kernel) (by decide +kernel) (by decide +kernel)
    (by decide +kernel) (by decide +kernel) (by decide +kernel)
  have ha : coreOneAct (exec (.inboundAccess (.core 1) 0 0 (.write [1])) coreWindow) = [(6, 1)] := by decide +kernel
  rw [he, coreOneAct, hc 1 (by decide)] at ha
  exact absurd ha (by decide +kernel)

end Sys2Proof.Machine
end

section
set_option Elab.async false
/-! What the memory accesses of a core leave of its channels and tiles. -/

namespace Sys2Proof.Machine
open Sys2Proof
variable {s₀ s t u : State} {c cc : Nat}

/-- The core's channels and tiles stay. -/
def ChansHeld (c : Nat) (s t : State) : Prop := (t.core c).chans = (s.core c).chans ∧ (t.core c).tiles = (s.core c).tiles

theorem ChansHeld.refl (c : Nat) (s : State) : ChansHeld c s s := ⟨rfl, rfl⟩

theorem ChansHeld.of_core_eq (hk : ChansHeld cc s₀ s) (e : t.core cc = s.core cc) : ChansHeld cc s₀ t := by
  rwa [ChansHeld, e]

theorem ChansHeld.of_cores_eq (hk : ChansHeld cc s₀ s) (e : t.cores = s.cores) : ChansHeld cc s₀ t :=
  hk.of_core_eq (by rw [State.core, State.core, e])

theorem ChansHeld.fields (hk : ChansHeld cc s₀ s) {a1 a2 a3 a4 a5 a6 a7 a9 a10 a11 a12 a13 a14 a15 a16 a17 a18 a19 a20 a21} :
    ChansHeld cc s₀ (State.mk a1 a2 a3 a4 a5 a6 a7 s.cores a9 a10 a11 a12 a13 a14 a15 a16 a17 a18 a19 a20 a21) := hk.of_cores_eq rfl

theorem ChansHeld.modCore (hk : ChansHeld cc s₀ s) (c : Nat) (f : Core → Core) (hf : ∀ k, (f k).chans = k.chans ∧ (f k).tiles = k.tiles) : ChansHeld cc s₀ (s.modCore c f) := by
  by_cases hc : cc = c
  · subst hc
    have e := hf (s.core cc)
    unfold ChansHeld at *
    rw [State.core_modCore_self]
    simp only [e]
    exact hk
  · exact hk.of_core_eq (State.core_modCore_ne s f hc)

theorem ChansHeld.each {α : Type} (hk : ChansHeld cc s₀ s) (l : List α) (f : State → α → State)
    (hf : ∀ t x, ChansHeld cc s₀ t → ChansHeld cc s₀ (f t x)) : ChansHeld cc s₀ (s.each l f) := State.each_inv s (ChansHeld cc s₀) l f hf hk

theorem ChansHeld.log (hk : ChansHeld cc s₀ s) (e : Event) : ChansHeld cc s₀ (s.log e) := hk.of_cores_eq (State.log_cores s e)

theorem ChansHeld.setBytes (hk : ChansHeld cc s₀ s) (a : Nat) (bs : List Byte) : ChansHeld cc s₀ (s.setBytes a bs) :=
  hk.of_cores_eq (State.setBytes_cores s a bs)

theorem ChansHeld.setRg (hk : ChansHeld cc s₀ s) (n : RegName) (c i j : Nat) (v : W32)
    : ChansHeld cc s₀ (s.setRg n c i j v) := by
  unfold State.setRg
  grind [ChansHeld.fields]

theorem ChansHeld.setRgHi (hk : ChansHeld cc s₀ s) (n : RegName) (c i j : Nat) (v : W32)
    : ChansHeld cc s₀ (s.setRgHi n c i j v) := by
  unfold State.setRgHi
  grind [ChansHeld.fields]

theorem ChansHeld.setRg64 (hk : ChansHeld cc s₀ s) (n : RegName) (c i j v : Nat) : ChansHeld cc s₀ (s.setRg64 n c i j v) := by
  unfold State.setRg64
  grind [ChansHeld.fields, ChansHeld.setRg, ChansHeld.setRgHi]

theorem ChansHeld.count (hk : ChansHeld cc s₀ s) (n : RegName) (c i k : Nat) : ChansHeld cc s₀ (s.count n c i k) := by
  unfold State.count
  grind [ChansHeld.fields, ChansHeld.setRg]

theorem ChansHeld.count64 (hk : ChansHeld cc s₀ s) (n : RegName) (c k : Nat) : ChansHeld cc s₀ (s.count64 n c k) := by
  unfold State.count64
  grind [ChansHeld.fields, ChansHeld.setRg64]

theorem ChansHeld.modSeq (hk : ChansHeld cc s₀ s) (c : Nat) (f : Seq → Seq) : ChansHeld cc s₀ (s.modSeq c f) := by
  unfold State.modSeq
  grind [ChansHeld.fields, ChansHeld.modCore]

theorem ChansHeld.setSlot (hk : ChansHeld cc s₀ s) (c n : Nat) (x : Slot) : ChansHeld cc s₀ (s.setSlot c n x) := by
  unfold State.setSlot
  grind [ChansHeld.fields, ChansHeld.modCore]

theorem ChansHeld.send (hk : ChansHeld cc s₀ s) (o : Out) : ChansHeld cc s₀ (s.send o) := by
  unfold State.send
  grind [ChansHeld.fields]

theorem ChansHeld.act (hk : ChansHeld cc s₀ s) (c j n : Nat) : ChansHeld cc s₀ (s.act c j n) := by
  unfold State.act
  grind [ChansHeld.fields, ChansHeld.modCore]

theorem ChansHeld.mesh (hk : ChansHeld cc s₀ s) (c : Nat) (d : Option Nat) (n : Nat) : ChansHeld cc s₀ (s.mesh c d n) := by
  unfold State.mesh
  grind [ChansHeld.fields, ChansHeld.act]

theorem ChansHeld.setQuad (hk : ChansHeld cc s₀ s) (q : Nat) (x : QuadSt) : ChansHeld cc s₀ (s.setQuad q x) := by
  unfold State.setQuad
  grind [ChansHeld.fields]

theorem ChansHeld.ungate (hk : ChansHeld cc s₀ s) (c : Nat) : ChansHeld cc s₀ (s.ungate c) := by
  unfold State.ungate
  grind [ChansHeld.fields, ChansHeld.setQuad]

theorem ChansHeld.reqEvent (hk : ChansHeld cc s₀ s) (r : Req) (code cls detail : Nat)
    : ChansHeld cc s₀ (s.reqEvent r code cls detail) := by
  unfold State.reqEvent
  grind [ChansHeld.fields, ChansHeld.log]

theorem ChansHeld.coreEvent (hk : ChansHeld cc s₀ s) (c code cls detail : Nat)
    : ChansHeld cc s₀ (s.coreEvent c code cls detail) := by
  unfold State.coreEvent
  grind [ChansHeld.fields, ChansHeld.log]

theorem ChansHeld.devEvent (hk : ChansHeld cc s₀ s) (code cls detail : Nat) : ChansHeld cc s₀ (s.devEvent code cls detail) := by
  unfold State.devEvent
  grind [ChansHeld.fields, ChansHeld.log]

theorem ChansHeld.access (hk : ChansHeld cc s₀ s) (r : Req) (a : Nat) : ChansHeld cc s₀ (s.access r a) := by
  unfold State.access
  grind [ChansHeld.fields, ChansHeld.reqEvent]

theorem ChansHeld.refuse (hk : ChansHeld cc s₀ s) (r : Req) (a : Nat) : ChansHeld cc s₀ (s.refuse r a) := by
  unfold State.refuse
  grind [ChansHeld.fields, ChansHeld.send, ChansHeld.access]

theorem ChansHeld.setSpad (hk : ChansHeld cc s₀ s) (c off : Nat) (bs : List Byte) : ChansHeld cc s₀ (s.setSpad c off bs) := by
  unfold State.setSpad
  grind [ChansHeld.fields, ChansHeld.setBytes]

theorem ChansHeld.putLine (hk : ChansHeld cc s₀ s) (l v : Nat) (bs : List Byte) (keep : Bool)
    : ChansHeld cc s₀ (s.putLine l v bs keep) := by
  unfold State.putLine
  grind [ChansHeld.fields, ChansHeld.setBytes]

theorem ChansHeld.setWay (hk : ChansHeld cc s₀ s) (st w : Nat) (x : Option PLine) : ChansHeld cc s₀ (s.setWay st w x) := by
  unfold State.setWay
  grind [ChansHeld.fields]

theorem ChansHeld.touch (hk : ChansHeld cc s₀ s) (st w : Nat) (h : Hint) : ChansHeld cc s₀ (s.touch st w h) := by
  unfold State.touch
  grind [ChansHeld.fields]

theorem ChansHeld.writeBack (hk : ChansHeld cc s₀ s) (x : PLine) : ChansHeld cc s₀ (s.writeBack x) := by
  unfold State.writeBack
  grind [ChansHeld.fields, ChansHeld.putLine]

theorem ChansHeld.allocate (hk : ChansHeld cc s₀ s) (st : Nat) (x : PLine) (h : Hint)
    : ChansHeld cc s₀ (s.allocate st x h) := by
  unfold State.allocate
  grind [ChansHeld.fields, ChansHeld.writeBack, ChansHeld.setWay, ChansHeld.touch]

theorem ChansHeld.countPantry (hk : ChansHeld cc s₀ s) (g : Nat) (hit : Bool) : ChansHeld cc s₀ (s.countPantry g hit) := by
  unfold State.countPantry
  grind [ChansHeld.fields, ChansHeld.count64]

theorem ChansHeld.readLine (hk : ChansHeld cc s₀ s) (h : Hint) (l : Nat) : ChansHeld cc s₀ (s.readLine h l).2.2 := by
  unfold State.readLine
  grind [ChansHeld.fields, ChansHeld.countPantry, ChansHeld.touch, ChansHeld.allocate]

theorem ChansHeld.cellarReadLines (hk : ChansHeld cc s₀ s) (h : Hint) (ls : List Nat) :
    ChansHeld cc s₀ (s.cellarReadLines h ls).2.2 := by
  induction ls generalizing s with
  | nil => simpa [State.cellarReadLines] using hk
  | cons x l ih =>
    unfold State.cellarReadLines
    grind [ChansHeld.readLine]

theorem ChansHeld.cellarRead (hk : ChansHeld cc s₀ s) (h : Hint) (a n : Nat) : ChansHeld cc s₀ (s.cellarRead h a n).2.2 := by
  unfold State.cellarRead
  grind [ChansHeld.fields, ChansHeld.cellarReadLines]

theorem ChansHeld.cellarCe (hk : ChansHeld cc s₀ s) (l dev : Nat) (sub : Bool) : ChansHeld cc s₀ (s.cellarCe l dev sub) := by
  unfold State.cellarCe
  grind [ChansHeld.fields, ChansHeld.setRg, ChansHeld.devEvent]

theorem ChansHeld.cellarUe (hk : ChansHeld cc s₀ s) (l : Nat) : ChansHeld cc s₀ (s.cellarUe l) := by
  unfold State.cellarUe
  grind [ChansHeld.fields, ChansHeld.count, ChansHeld.setRg64, ChansHeld.log]

theorem ChansHeld.burstCe (hk : ChansHeld cc s₀ s) (l : Nat) (e : DramErr) (sub : Bool)
    : ChansHeld cc s₀ (s.burstCe l e sub) := by
  unfold State.burstCe
  grind [ChansHeld.fields, ChansHeld.cellarCe]

theorem ChansHeld.dramErr (hk : ChansHeld cc s₀ s) (l : Nat) (e : DramErr) : ChansHeld cc s₀ (s.dramErr l e) := by
  unfold State.dramErr
  grind [ChansHeld.fields, ChansHeld.cellarUe, ChansHeld.burstCe]

theorem ChansHeld.readErrs (hk : ChansHeld cc s₀ s) (ls : List Nat) (es : LineErrs) : ChansHeld cc s₀ (s.readErrs ls es) := by
  unfold State.readErrs
  grind [ChansHeld.fields, ChansHeld.each, ChansHeld.dramErr]

theorem ChansHeld.cellarRefuse (hk : ChansHeld cc s₀ s) (r : Req) (a : Nat) (w : CellarNo)
    : ChansHeld cc s₀ (s.cellarRefuse r a w) := by
  unfold State.cellarRefuse
  grind [ChansHeld.fields, ChansHeld.reqEvent, ChansHeld.send, ChansHeld.refuse]

theorem ChansHeld.spdErr (hk : ChansHeld cc s₀ s) (c kind num : Nat) (nowin : Bool := false)
    : ChansHeld cc s₀ (s.spdErr c kind num nowin) := by
  unfold State.spdErr
  grind [ChansHeld.fields, ChansHeld.setRg]

theorem ChansHeld.slotTouch (hk : ChansHeld cc s₀ s) (c off len : Nat) (wr : Bool)
    : ChansHeld cc s₀ (s.slotTouch c off len wr) := by
  unfold State.slotTouch
  grind [ChansHeld.fields, ChansHeld.each, ChansHeld.setSlot]

theorem ChansHeld.slotClass (hk : ChansHeld cc s₀ s) (c n : Nat) (r : Option Req) (wr : Bool) (cls : Nat)
    : ChansHeld cc s₀ (s.slotClass c n r wr cls) := by
  unfold State.slotClass
  grind [ChansHeld.fields, ChansHeld.spdErr, ChansHeld.log, ChansHeld.coreEvent]

theorem ChansHeld.stallOn (hk : ChansHeld cc s₀ s) (c : Nat) (x : Stall) : ChansHeld cc s₀ (s.stallOn c x) := by
  unfold State.stallOn
  grind [ChansHeld.fields, ChansHeld.modCore, ChansHeld.setRg]

theorem ChansHeld.wordAct (hk : ChansHeld cc s₀ s) (c off len : Nat) : ChansHeld cc s₀ (s.wordAct c off len) := by
  unfold State.wordAct
  grind [ChansHeld.fields, ChansHeld.act]

theorem ChansHeld.ringHook (hk : ChansHeld cc s₀ s) (c off : Nat) (bs : List Byte) : ChansHeld cc s₀ (s.ringHook c off bs) := by
  unfold State.ringHook
  grind [ChansHeld.fields, ChansHeld.modSeq]

theorem ChansHeld.store (hk : ChansHeld cc s₀ s) (c off : Nat) (bs : List Byte) : ChansHeld cc s₀ (s.store c off bs) := by
  unfold State.store
  grind [ChansHeld.fields, ChansHeld.setSpad, ChansHeld.ringHook, ChansHeld.wordAct]

theorem ChansHeld.winRefuse (hk : ChansHeld cc s₀ s) (r : Req) (c off : Nat) : ChansHeld cc s₀ (s.winRefuse r c off) := by
  unfold State.winRefuse
  grind [ChansHeld.fields, ChansHeld.spdErr, ChansHeld.reqEvent, ChansHeld.send]

theorem ChansHeld.lineAct (hk : ChansHeld cc s₀ s) (r : Req) (a n : Nat) : ChansHeld cc s₀ (s.lineAct r a n) := by
  unfold State.lineAct
  grind [ChansHeld.fields, ChansHeld.act, ChansHeld.mesh]

theorem ChansHeld.spadAct (hk : ChansHeld cc s₀ s) (r : Req) (c n : Nat) : ChansHeld cc s₀ (s.spadAct r c n) := by
  unfold State.spadAct
  grind [ChansHeld.fields, ChansHeld.mesh]

theorem ChansHeld.readCellar (hk : ChansHeld cc s₀ s) (r : Req) (h : Hint) (a n : Nat)
    : ChansHeld cc s₀ (s.readCellar r h a n).2 := by
  unfold State.readCellar
  grind [ChansHeld.fields, ChansHeld.cellarRefuse, ChansHeld.lineAct, ChansHeld.cellarRead]

theorem ChansHeld.readAtSlots (hk : ChansHeld cc s₀ s) (r : Req) (c off n : Nat)
    : ChansHeld cc s₀ (s.readAtSlots r c off n).2 := by
  unfold State.readAtSlots
  grind [ChansHeld.fields, ChansHeld.slotClass, ChansHeld.slotTouch, ChansHeld.wordAct, ChansHeld.spadAct, ChansHeld.ungate]

theorem ChansHeld.readSpad (hk : ChansHeld cc s₀ s) (r : Req) (c off n : Nat) : ChansHeld cc s₀ (s.readSpad r c off n).2 := by
  unfold State.readSpad
  grind [ChansHeld.fields, ChansHeld.refuse, ChansHeld.winRefuse, ChansHeld.readAtSlots]

theorem ChansHeld.readMem (hk : ChansHeld cc s₀ s) (r : Req) (h : Hint) (a n : Nat)
    : ChansHeld cc s₀ (s.readMem r h a n).2 := by
  unfold State.readMem
  grind [ChansHeld.fields, ChansHeld.readCellar, ChansHeld.readSpad, ChansHeld.refuse]

theorem ChansHeld.readAll (hk : ChansHeld cc s₀ s) (c : Nat) (l : List (Nat × Nat)) :
    ChansHeld cc s₀ (s.readAll c l).2 := by
  induction l generalizing s with
  | nil => simpa [State.readAll] using hk
  | cons x l ih =>
    unfold State.readAll
    grind [ChansHeld.readMem]

theorem ChansHeld.unstall (hk : ChansHeld cc s₀ s) (c : Nat) (p : StallBy → Bool) : ChansHeld cc s₀ (s.unstall c p) := by
  unfold State.unstall
  grind [ChansHeld.fields, ChansHeld.modCore]

theorem ChansHeld.stage (hk : ChansHeld cc s₀ s) (c : Nat) (b : Binding) (scale : Nat) (half : Option Nat) (bs : List Byte)
    : ChansHeld cc s₀ (s.stage c b scale half bs) := by
  unfold State.stage
  grind [ChansHeld.fields, ChansHeld.store]

theorem ChansHeld.dropReqs (hk : ChansHeld cc s₀ s) (c ch : Nat) : ChansHeld cc s₀ (s.dropReqs c ch) := by
  unfold State.dropReqs
  grind [ChansHeld.fields]

theorem ChansHeld.dramRow (hk : ChansHeld cc s₀ s) (c ch : Nat) (de : LineErrs) : ChansHeld cc s₀ (s.dramRow c ch de) := by
  unfold State.dramRow
  grind [ChansHeld.fields, ChansHeld.readErrs]

end Sys2Proof.Machine
end

section
set_option Elab.async false
/-! What shared operations leave unchanged. -/

namespace Sys2Proof
open Sys2Proof.Machine
variable {ps : List Part} {s₀ s t u : State} {c cc : Nat}

theorem only.modChan (hk : only ps s₀ s) (m1 : Part.cores ∈ ps) (c ch : Nat) (f : Chan → Chan)
    : only ps s₀ (s.modChan c ch f) := by
  unfold State.modChan
  grind [only.fields, only.modCore]

theorem only.unstall (hk : only ps s₀ s) (m1 : Part.cores ∈ ps) (c : Nat) (p : StallBy → Bool)
    : only ps s₀ (s.unstall c p) := by
  unfold State.unstall
  grind [only.fields, only.modCore]

theorem only.chanHalt (hk : only ps s₀ s) (m1 : Part.regs ∈ ps) (m2 : Part.cores ∈ ps) (c ch err : Nat)
    : only ps s₀ (s.chanHalt c ch err) := by
  unfold State.chanHalt
  grind [only.fields, only.modChan, only.unstall, only.count]

theorem onlyCore.modChan (hk : onlyCore c s₀ s) (ch : Nat) (f : Chan → Chan) : onlyCore c s₀ (s.modChan c ch f) := by
  unfold State.modChan
  grind [onlyCore.fields, onlyCore.modCore]

theorem onlyCore.unstall (hk : onlyCore c s₀ s) (p : StallBy → Bool) : onlyCore c s₀ (s.unstall c p) := by
  unfold State.unstall
  grind [onlyCore.fields, onlyCore.modCore]

theorem onlyCore.chanHalt (hk : onlyCore c s₀ s) (ch err : Nat) : onlyCore c s₀ (s.chanHalt c ch err) := by
  unfold State.chanHalt
  grind [onlyCore.fields, onlyCore.modChan, onlyCore.unstall, onlyCore.count]

theorem onlyCore.rowEnd (hk : onlyCore c s₀ s) (ch : Nat) : onlyCore c s₀ (s.rowEnd c ch) := by
  unfold State.rowEnd
  grind [onlyCore.fields, onlyCore.modChan, onlyCore.chanHalt]

end Sys2Proof
end

section
set_option Elab.async false
/-! DMA channels (R277, R278, R284, R292, R305) and the staging fetch (R356). -/

namespace Sys2Proof.Machine
open Sys2Proof
variable {s t u v : State} {c ch : Nat}

theorem ChansHeld.chan (h : ChansHeld c s t) (ch : Nat) : t.chan c ch = s.chan c ch := by rw [State.chan, State.chan, h.1]

theorem ChansHeld.tile (h : ChansHeld c s t) (k : Nat) : t.tile c k = s.tile c k := by rw [State.tile, State.tile, Core.tile, Core.tile, h.2]

/-! ### The chain -/

theorem State.chan_chanHalt (c ch err : Nat) :
    (s.chanHalt c ch err).chan c ch = { s.chan c ch with st := .halted, err := err, halt := false } := by
  have hk : ChansHeld c (s.modChan c ch (fun x => { x with st := .halted, err := err, halt := false })) (s.chanHalt c ch err) := by
    unfold State.chanHalt
    split
    · exact (ChansHeld.refl _ _).unstall ..
    · exact ((ChansHeld.refl _ _).unstall ..).count ..
  rw [hk.chan, State.chan_modChan_self]

/-- A channel that halts with an event keeps its descriptor's address and its count of chains. -/
theorem State.chan_halt_coreEvent (c ch err code cls d : Nat) :
    ((s.chanHalt c ch err).coreEvent c code cls d).chan c ch = { s.chan c ch with st := .halted, err := err, halt := false } :=
  (((ChansHeld.refl c (s.chanHalt c ch err)).coreEvent c code cls d).chan ch).trans (State.chan_chanHalt c ch err)

/-- A channel whose access gets no data halts or waits. -/
theorem State.chan_chanNo (c ch : Nat) {g : Got} (hg : ∀ bs, g ≠ .ok bs) :
    ((s.chanNo c ch g).chan c ch).go = (s.chan c ch).go ∧ ((s.chanNo c ch g).chan c ch).daddr = (s.chan c ch).daddr ∧
      ((s.chanNo c ch g).chan c ch).st ≠ .idle := by
  cases g with
  | ok bs => exact absurd rfl (hg bs)
  | refused a => simp only [State.chanNo, State.chanFault, State.chan_halt_coreEvent]; simp
  | poisoned l => simp only [State.chanNo, State.chanFault, State.chan_halt_coreEvent]; simp
  | stall d n =>
    simp only [State.chanNo, ((ChansHeld.refl c _).stallOn c _).chan ch, State.chan_modChan_self]
    simp

/-- Reading a channel's descriptor leaves the address and the count of chains, and the channel is not IDLE. -/
theorem State.chan_loadDesc (c ch : Nat) :
    ((s.loadDesc c ch).chan c ch).go = (s.chan c ch).go ∧ ((s.loadDesc c ch).chan c ch).daddr = (s.chan c ch).daddr ∧
      ((s.loadDesc c ch).chan c ch).st ≠ .idle := by
  have hr := ((ChansHeld.refl c s).readMem (coreReq c) .normal (s.chan c ch).daddr 64).chan ch
  unfold State.loadDesc
  extract_lets a
  split
  · simp only [State.chanDesc, State.chan_halt_coreEvent]
    simp
  · split
    · next bs t hm =>
      simp only [a] at hm
      rw [hm] at hr
      dsimp only at hr ⊢
      split
      · simp only [State.chanDesc, State.chan_halt_coreEvent, hr]
        simp
      · simp only [State.chan_modChan_self, hr]
        simp
    · next g t hg hm =>
      simp only [a] at hm
      rw [hm] at hr
      rw [← hr]
      exact State.chan_chanNo c ch (fun bs e => hg bs e)

/-- A chain that starts has its descriptor's address, counts, and is not IDLE. -/
theorem State.chan_startChain (c ch a : Nat) :
    ((s.startChain c ch a).chan c ch).go = (s.chan c ch).go + 1 ∧ ((s.startChain c ch a).chan c ch).daddr = a ∧
      ((s.startChain c ch a).chan c ch).st ≠ .idle := by
  obtain ⟨h1, h2, h3⟩ := State.chan_loadDesc
    (s := (s.dropReqs c ch).modChan c ch (fun x => { st := .run, daddr := a, go := x.go + 1 })) c ch
  rw [State.chan_modChan_self] at h1 h2
  exact ⟨h1.trans (by rw [((ChansHeld.refl c s).dropReqs c ch).chan]), h2, h3⟩

theorem execDmaGo_free {r : Req} {c : CoreId} {ch : ChanId}
    (hr : s.mayReg r { n := .dmaCtrl, c := c.val, i := ch.val, j := 0, hi := false } true = true)
    (hf : s.chanFree c.val ch.val = true) :
    exec (.dmaGo r c ch) s = .next (s.startChain c.val ch.val (s.dmaDescReg c.val ch.val)) := by
  rw [exec, execDmaGo, State.atReg, if_pos hr, State.dmaGo, if_pos hf]

/-! ### Halting -/

theorem execDmaHalt_held {r : Req} {c : CoreId} {ch : ChanId}
    (hr : s.mayReg r { n := .dmaCtrl, c := c.val, i := ch.val, j := 0, hi := false } true = true)
    (hf : s.chanFree c.val ch.val = false) :
    exec (.dmaHalt r c ch) s = .next
      (if (s.chan c.val ch.val).use_ = .chain && (s.chan c.val ch.val).loaded && (s.chan c.val ch.val).rows = ddRows (s.chan c.val ch.val).desc
        then s.chanHalt c.val ch.val eHALTCMD else s.modChan c.val ch.val (fun x => { x with halt := true })) := by
  rw [exec, execDmaHalt, State.atReg, if_pos hr, State.dmaHalt, if_neg (by simp [hf])]

/-! ### Rows -/

/-- A row between two places of memory is no register access. -/
theorem ddReg_of_mem {d : BitVec 512} {r : Nat} (hop : ddOp d = 0) (h1 : isReg (ddRowSrc d r) = false)
    (h2 : isReg (ddRowDst d r) = false) : ddReg d r = false := by
  simp [ddReg, hop, h1, h2]

theorem State.dmaRow_copy {bs : List Byte} {d : BitVec 512} {r : Nat} (hd : (s.chan c ch).desc = d) (hr : (s.chan c ch).rows = r)
    (hop : ddOp d = 0) (hs : ddSrem d = false) (hdr : ddDrem d = false)
    (hrd : s.readMem (coreReq c) (ddHint d) (ddRowSrc d r) (ddX d) = (.ok bs, u))
    (hwr : u.writeMem (coreReq c) (ddHint d) (ddRowDst d r) bs = (.ok, v)) : s.dmaRow c ch = v.rowDone c ch := by
  have hl : ddRowLen d = ddX d := by simp [ddRowLen, hop]
  have hp : u.dmaPut c ch (ddRowDst d r) (ddHint d) bs = (true, v) := by simp only [State.dmaPut, hwr]
  unfold State.dmaRow
  simp only [hd, hr, hop, hs, hdr, hl, hrd, hp]
  rfl

theorem execDmaRowComplete_row {c : CoreId} {ch : ChanId} {de : LineErrs} (ho : s.coreOpen c.val = true)
    (hd : s.rowDue c.val ch.val = true) (hl : (s.chan c.val ch.val).loaded = true)
    (hr : ddReg (s.chan c.val ch.val).desc (s.chan c.val ch.val).rows = false) :
    exec (.dmaRowComplete c ch .none de) s = .next ((s.dramRow c.val ch.val de).dmaRow c.val ch.val) := by
  have hc := ((ChansHeld.refl c.val s).dramRow c.val ch.val de).chan ch.val
  simp only [exec, execDmaRowComplete, ho, hd, hl, State.sramRow, hc, hr]
  rfl

/-- A row that is done without a remote destination is counted. -/
theorem State.rowDone_local (h1 : ddDrem (s.chan c ch).desc = false) (h2 : (s.chan c ch).halt = false) :
    s.rowDone c ch = s.modChan c ch (fun x => { x with st := .run, rows := x.rows + 1, sent := false }) := by
  rw [State.rowDone, if_neg (by simp [h1]), State.rowEnd]
  simp [h2]

theorem State.sent_of_rowDue (h : s.rowDue c ch = true) : (s.chan c ch).sent = false := by
  simp only [State.rowDue, Bool.and_eq_true, Bool.not_eq_true'] at h
  exact h.2

theorem execDmaDescriptorComplete_last {c : CoreId} {ch : ChanId} (ho : s.coreOpen c.val = true)
    (hu : (s.chan c.val ch.val).use_ = .chain) (hr : (s.chan c.val ch.val).st = .run) (hl : (s.chan c.val ch.val).loaded = true)
    (hn : (s.chan c.val ch.val).rows = ddRows (s.chan c.val ch.val).desc) (ha : (s.chan c.val ch.val).acks = 0)
    (hch : ddChain (s.chan c.val ch.val).desc = false) (hf : ddSetfull (s.chan c.val ch.val).desc = false)
    (hre : ddRelease (s.chan c.val ch.val).desc = false) :
    exec (.dmaDescriptorComplete c ch) s = .next (s.modChan c.val ch.val (fun x => { x with st := .idle })) := by
  change execDmaDescriptorComplete c ch s = _
  unfold execDmaDescriptorComplete
  extract_lets c' ch' x d s1 s2
  have h1 : s1 = s := by
    simp only [s1, d, x, c', ch', hf]
    split <;> rfl
  have h2 : s2 = s := by
    simp only [s2, h1, d, x, c', ch', hre]
    split <;> rfl
  rw [if_pos (by simp [x, d, c', ch', ho, hu, hr, hl, hn, ha]), if_neg (by simp [x, d, c', ch', hch]), h2]

/-! ### The staging fetch -/

theorem execStagingHalfRefill_runs {c : CoreId} {h : Handle} {w : Bool} {de : LineErrs} (ho : s.coreOpen c.val = true)
    (hb : ((s.tile c.val h.val).bind w).bound = true) (hf : ((s.tile c.val h.val).bind w).fetch = true)
    (hn : ((s.tile c.val h.val).bind w).failed = false)
    (hu : (s.chan c.val ((s.tile c.val h.val).bind w).ch).use_ = .fetch h.val w)
    (hr : (s.chan c.val ((s.tile c.val h.val).bind w).ch).st = .run)
    (hs : s.stalled c.val (.dma ((s.tile c.val h.val).bind w).ch) = false)
    (hl : ((s.tile c.val h.val).bind w).chunks.length < (s.geo c.val h.val).chunkCount ((s.tile c.val h.val).bind w))
    (hh : (s.chan c.val ((s.tile c.val h.val).bind w).ch).halt = false) :
    exec (.stagingHalfRefill c h w de) s =
      .next ((s.readErrs (s.refillLines c.val h.val w) de).refill c.val h.val w) := by
  have hfree : s.chanFree c.val ((s.tile c.val h.val).bind w).ch = false := by simp [State.chanFree, hr]
  simp [exec, execStagingHalfRefill, ho, hb, hf, hn, hu, hr, hs, hl, hh, hfree]

theorem Tile.bind_setBind (t : Tile) (w : Bool) (b : Binding) : (t.setBind w b).bind w = b := by
  cases w <;> rfl

/-- A chunk that is staged joins its binding's chunks; the channels stay. -/
theorem State.fillChunk_chunks (c h : Nat) (x : Side) (g : Geo) (i : Nat) (rows : List (List Nat)) (bs : List Byte) :
    (((s.fillChunk c h x g i rows bs).tile c h).bind x.weight).chunks = ((s.tile c h).bind x.weight).chunks ++ [rows] ∧
      ∀ ch, (s.fillChunk c h x g i rows bs).chan c ch = s.chan c ch := by
  have hk := (ChansHeld.refl c (s.modBind c h x.weight (fun b => { b with chunks := b.chunks ++ [rows] }))).stage c
    ((s.tile c h).bind x.weight) (g.scaleLen x) (some i) bs
  refine ⟨?_, fun ch => ?_⟩
  · rw [State.fillChunk, hk.tile, State.modBind, State.tile_modTile_self, Tile.bind_setBind]
  · rw [State.fillChunk, hk.chan]
    rw [State.chan, State.modBind, State.modTile, State.core_modCore_self]
    rfl

/-- A dense chunk whose rows are all read joins its binding's chunks. -/
theorem State.fetchDense_ok {c h : Nat} {x : Side} {g : Geo} {i : Nat} {l : List (List Byte)}
    (hr : s.readAll c (g.denseSegs x (g.chunkRange ((s.tile c h).bind x.weight) i).1 (g.chunkRange ((s.tile c h).bind x.weight) i).2)
      = (.ok l, u)) :
    (((s.fetchDense c h x g i).tile c h).bind x.weight).chunks.length = ((s.tile c h).bind x.weight).chunks.length + 1 ∧
      ∀ ch, (s.fetchDense c h x g i).chan c ch = s.chan c ch := by
  have hk : ChansHeld c s u := by
    have := (ChansHeld.refl c s).readAll c
      (g.denseSegs x (g.chunkRange ((s.tile c h).bind x.weight) i).1 (g.chunkRange ((s.tile c h).bind x.weight) i).2)
    rwa [hr] at this
  simp only [State.fetchDense, hr, Reads.failed, Reads.got, State.fetchEnd]
  refine ⟨?_, fun ch => ?_⟩
  · rw [(State.fillChunk_chunks ..).1, hk.tile, List.length_append]
    rfl
  · rw [(State.fillChunk_chunks ..).2, hk.chan]

/-- The operand that a binding holds. -/
def Desc.side (d : Desc) (w : Bool) : Side := if w then d.sideW else d.sideA

theorem Desc.side_weight (d : Desc) (w : Bool) : (d.side w).weight = w := by cases w <;> rfl

theorem State.tile_modChan (c ch : Nat) (f : Chan → Chan) (h : Nat) : (s.modChan c ch f).tile c h = s.tile c h :=
  State.tile_modCore c _ h (by exact fun _ => rfl)

/-- A dense chunk that is fetched joins the chunks, and the channel goes IDLE with the last one. -/
theorem State.refill_dense {c h : Nat} {w : Bool} {l : List (List Byte)}
    (hs : ((s.tile c h).bind w).scaled = true)
    (hn : ((s.tile c h).bind w).chunks.length < (s.geo c h).chunkCount ((s.tile c h).bind w))
    (hz : (Desc.side (s.geo c h).d w).zr = false) (hst : (s.chan c ((s.tile c h).bind w).ch).st = .run)
    (hr : s.readAll c ((s.geo c h).denseSegs (Desc.side (s.geo c h).d w)
      ((s.geo c h).chunkRange ((s.tile c h).bind w) ((s.tile c h).bind w).chunks.length).1
      ((s.geo c h).chunkRange ((s.tile c h).bind w) ((s.tile c h).bind w).chunks.length).2) = (.ok l, u)) :
    (((s.refill c h w).tile c h).bind w).chunks.length = ((s.tile c h).bind w).chunks.length + 1 ∧
      ((s.refill c h w).chan c ((s.tile c h).bind w).ch).st =
        (if ((s.tile c h).bind w).chunks.length + 1 < (s.geo c h).chunkCount ((s.tile c h).bind w) then .run else .idle) := by
  obtain ⟨h1, h2⟩ := State.fetchDense_ok (s := s) (h := h) (x := Desc.side (s.geo c h).d w) (g := s.geo c h)
    (i := ((s.tile c h).bind w).chunks.length) (by rw [Desc.side_weight]; exact hr)
  rw [Desc.side_weight] at h1
  have hrun := hst
  rw [← h2] at hrun
  unfold State.refill
  extract_lets g x b i
  simp only [b, hs, if_true, Bool.not_true, Bool.false_eq_true, if_false]
  have hx : x = Desc.side (s.geo c h).d w := rfl
  simp only [hx, hz, i, b, g, hn, if_true, Bool.false_eq_true, if_false, hrun, reduceCtorEq, h1, ne_eq, not_true_eq_false, decide_false, Bool.or_false, decide_eq_true_eq]
  split
  · exact ⟨h1, hrun⟩
  · refine ⟨?_, by rw [State.chan_modChan_self]⟩
    rw [State.tile_modChan]
    exact h1

/-- Settles O21, from what starting, halting, moving a row and refilling do to a channel. -/
theorem dmaChannels : Obligations.DmaChannels := by
  refine ⟨?_, ?_, ?_, ?_, ?_, ?_⟩
  · intro r c ch s hr hf
    exact ⟨_, execDmaGo_free hr hf, State.chan_startChain ..⟩
  · intro r c ch s x hr hf
    have he := execDmaHalt_held hr hf
    refine ⟨fun hx => ?_, fun hx => ?_⟩
    · rw [if_neg (by rw [hx]; decide)] at he
      exact ⟨_, he, State.chan_modChan_self .., (onlyCore.refl _ s).modChan _ _, (only.refl _ s).modChan (by simp) _ _ _⟩
    · rw [if_pos hx] at he
      refine ⟨_, he, ?_, ?_, (onlyCore.refl _ s).chanHalt _ _⟩ <;> rw [State.chan_chanHalt]
  · intro c ch bs de u v s x ho hd hl hop hs hdr h1 h2 hh hrd hwr hv
    refine ⟨_, execDmaRowComplete_row ho hd hl (ddReg_of_mem hop h1 h2), ?_⟩
    have hc := ((ChansHeld.refl c.val s).dramRow c.val ch.val de).chan ch.val
    rw [State.dmaRow_copy (by rw [hc]) (by rw [hc]) hop hs hdr hrd hwr, State.rowDone_local (by rw [hv]; exact hdr) (by rw [hv]; exact hh)]
    refine ⟨?_, (onlyCore.refl _ v).modChan _ _, (only.refl _ v).modChan (by simp) _ _ _⟩
    rw [State.chan_modChan_self, hv, ← State.sent_of_rowDue hd]
  · intro c ch s x ho hu hr hl hn ha hch hf hre
    exact ⟨_, execDmaDescriptorComplete_last ho hu hr hl hn ha hch hf hre, State.chan_modChan_self ..,
      (onlyCore.refl _ s).modChan _ _, (only.refl _ s).modChan (by simp) _ _ _⟩
  · intro c h w de s b g ho hb hf hn hu hr hs hl hh
    exact execStagingHalfRefill_runs ho hb hf hn hu hr hs hl hh
  · intro c h w l u s b g x hs hn hz hst hr
    exact State.refill_dense hs hn hz hst hr

end Sys2Proof.Machine
end

section
set_option Elab.async false
/-! What shared operations leave unchanged. -/

namespace Sys2Proof
open Sys2Proof.Machine
variable {ps : List Part} {s₀ s t u : State} {c cc : Nat}

theorem only.modDisp (hk : only ps s₀ s) (m1 : Part.sdt ∈ ps) (d : Nat) (f : Disp → Disp) : only ps s₀ (s.modDisp d f) := by
  unfold State.modDisp
  grind [only.fields]

theorem only.draw (hk : only ps s₀ s) (m1 : Part.free ∈ ps) : only ps s₀ (s.draw).2 := by
  unfold State.draw
  grind [only.fields]

theorem only.putLine (hk : only ps s₀ s) (m1 : Part.mem ∈ ps) (m2 : Part.clr ∈ ps) (l v : Nat) (bs : List Byte) (keep : Bool) :
    only ps s₀ (s.putLine l v bs keep) := by
  have h := hk.setBytes m1 (l * 128) (padTo 128 bs)
  unfold State.putLine
  generalize s.setBytes (l * 128) (padTo 128 bs) = t at h ⊢
  grind [only.fields]

theorem only.setWay (hk : only ps s₀ s) (m1 : Part.pnt ∈ ps) (st w : Nat) (x : Option PLine)
    : only ps s₀ (s.setWay st w x) := by
  unfold State.setWay
  grind [only.fields]

theorem only.writeBack (hk : only ps s₀ s) (m1 : Part.mem ∈ ps) (m2 : Part.clr ∈ ps) (x : PLine)
    : only ps s₀ (s.writeBack x) := by
  unfold State.writeBack
  grind [only.fields, only.putLine]

theorem only.setScalar (hk : only ps s₀ s) (m1 : Part.regs ∈ ps) (c n v : Nat) : only ps s₀ (s.setScalar c n v) := by
  unfold State.setScalar
  grind [only.fields, only.setRg64]

theorem only.dropSums (hk : only ps s₀ s) (m1 : Part.sdt ∈ ps) (d : Nat) : only ps s₀ (s.dropSums d) := by
  unfold State.dropSums
  grind [only.fields]

theorem only.dropHub (hk : only ps s₀ s) (m1 : Part.sdt ∈ ps) (d : Nat) : only ps s₀ (s.dropHub d) := by
  unfold State.dropHub
  grind [only.fields]

theorem only.settle (hk : only ps s₀ s) (m1 : Part.sdt ∈ ps) (d : Nat) : only ps s₀ (s.settle d) := by
  unfold State.settle
  grind [only.fields, only.modDisp]

theorem only.bumpEpoch (hk : only ps s₀ s) (m1 : Part.sdt ∈ ps) (d : Nat) (back : Bool) : only ps s₀ (s.bumpEpoch d back) := by
  unfold State.bumpEpoch
  grind [only.fields, only.modDisp]

theorem only.bumpDisp (hk : only ps s₀ s) (m1 : Part.sdt ∈ ps) (d : Nat) : only ps s₀ (s.bumpDisp d) := by
  unfold State.bumpDisp
  grind [only.fields, only.bumpEpoch, only.settle]

theorem only.rewindDisp (hk : only ps s₀ s) (m1 : Part.sdt ∈ ps) (d next : Nat) (guard : Bool)
    : only ps s₀ (s.rewindDisp d next guard) := by
  unfold State.rewindDisp
  grind [only.fields, only.bumpEpoch, only.dropSums, only.dropHub, only.modDisp, only.settle]

theorem only.answerClaim (hk : only ps s₀ s) (m1 : Part.regs ∈ ps) (m2 : Part.mem ∈ ps) (m3 : Part.cores ∈ ps)
    (m4 : Part.ses ∈ ps) (m5 : Part.evt ∈ ps) (c h : Nat) (r : CRec) : only ps s₀ (s.answerClaim c h r) := by
  unfold State.answerClaim
  grind [only.fields, only.spadWrite, only.setScalar, only.modCore, only.modTile, only.seqDone]

theorem only.writeBackGroup (hk : only ps s₀ s) (m1 : Part.mem ∈ ps) (m2 : Part.pnt ∈ ps) (m3 : Part.clr ∈ ps) (g : Nat)
    : only ps s₀ (s.writeBackGroup g) := by
  unfold State.writeBackGroup
  grind [only.fields, only.each, only.writeBack, only.setWay]

theorem only.arm (hk : only ps s₀ s) (m1 : Part.free ∈ ps) (m2 : Part.sdt ∈ ps) (d : Nat) (x : Ctx)
    : only ps s₀ (s.arm d x) := by
  unfold State.arm
  grind [only.fields, only.draw, only.dropSums, only.modDisp, only.settle]

theorem only.enterCtx (hk : only ps s₀ s) (m1 : Part.mem ∈ ps) (m2 : Part.cores ∈ ps) (c : Nat) (x : Ctx)
    : only ps s₀ (s.enterCtx c x) := by
  unfold State.enterCtx
  grind [only.fields, only.modCore, only.seqDone]

theorem onlyCore.modDisp (hk : onlyCore cc s₀ s) (d : Nat) (f : Disp → Disp) : onlyCore cc s₀ (s.modDisp d f) := by
  unfold State.modDisp
  grind [onlyCore.fields]

theorem onlyCore.draw (hk : onlyCore cc s₀ s) : onlyCore cc s₀ (s.draw).2 := by
  unfold State.draw
  grind [onlyCore.fields]

theorem onlyCore.seqRefuse (hk : onlyCore c s₀ s) (op reason : Nat) : onlyCore c s₀ (s.seqRefuse c op reason) := by
  unfold State.seqRefuse
  grind [onlyCore.fields, onlyCore.modSeq, onlyCore.writeRd, onlyCore.coreEvent]

theorem onlyCore.dropSums (hk : onlyCore cc s₀ s) (d : Nat) : onlyCore cc s₀ (s.dropSums d) := by
  unfold State.dropSums
  grind [onlyCore.fields]

theorem onlyCore.settle (hk : onlyCore cc s₀ s) (d : Nat) : onlyCore cc s₀ (s.settle d) := by
  unfold State.settle
  grind [onlyCore.fields, onlyCore.modDisp]

theorem onlyCore.arm (hk : onlyCore cc s₀ s) (d : Nat) (x : Ctx) : onlyCore cc s₀ (s.arm d x) := by
  unfold State.arm
  grind [onlyCore.fields, onlyCore.draw, onlyCore.dropSums, onlyCore.modDisp, onlyCore.settle]

theorem onlyCore.enterCtx (hk : onlyCore c s₀ s) (x : Ctx) : onlyCore c s₀ (s.enterCtx c x) := by
  unfold State.enterCtx
  grind [onlyCore.fields, onlyCore.modCore, onlyCore.seqDone]

end Sys2Proof
end

section
set_option Elab.async false
/-! The Pantry's operations (R291, R311). -/

namespace Sys2Proof.Machine
open Sys2Proof
variable {s t : State}

/-- A pair that is written shares no byte with a register elsewhere. -/
theorem State.rg_setRg64_far {n m : RegName} {c i j d k l v : Nat}
    (h : regAddr n c i j ≠ regAddr m d k l ∧ regAddr n c i j ≠ regAddr m d k l + 4) :
    (s.setRg64 m d k l v).rg n c i j = s.rg n c i j :=
  (Sparse.get_put_ne _ _ _ _ h.2).trans (Sparse.get_put_ne _ _ _ _ h.1)

theorem State.rg64_setRg64_far {n m : RegName} {c i j d k l v : Nat}
    (h : (regAddr n c i j ≠ regAddr m d k l ∧ regAddr n c i j ≠ regAddr m d k l + 4) ∧
      regAddr n c i j + 4 ≠ regAddr m d k l) :
    (s.setRg64 m d k l v).rg64 n c i j = s.rg64 n c i j := by
  obtain ⟨h1, h2⟩ := h
  have hhi : (s.setRg64 m d k l v).rgHi n c i j = s.rgHi n c i j :=
    (Sparse.get_put_ne _ _ _ _ (by omega)).trans (Sparse.get_put_ne _ _ _ _ h2)
  rw [State.rg64, State.rg_setRg64_far h1, hhi, State.rg64]

/-- While an operation runs, a further one is dropped. -/
theorem State.pantryStart_busy {r : Req} {o : Option POp} {g : Nat} (h : s.pantryRuns ≠ none) :
    s.pantryStart r o g = s.access r (regAddr .pntOpctl 0 0 0) := if_pos (Option.isSome_iff_ne_none.2 h)

theorem State.pantryStart_free {r : Req} {o : POp} {g : Nat} (h : s.pantryRuns = none) :
    s.pantryStart r (some o) g =
      if o = .invz then State.pantryDo { s with pnt := { s.pnt with op := some (o, g), lastGroup := g } } .invz g
      else { s with pnt := { s.pnt with op := some (o, g), lastGroup := g } } := by
  rw [State.pantryStart, if_neg (by simp [h])]

theorem State.inGroup_of_regs_eq {g : Nat} (e : t.regs = s.regs) : t.inGroup g = s.inGroup g := by
  have hg : t.rg .pntGrp 0 g = s.rg .pntGrp 0 g := State.rg_of_regs_eq e
  funext sl
  rw [State.inGroup, State.inGroup, hg]

/-- No line of a group is left once it is invalidated. -/
theorem State.lines_invalidateGroup (g : Nat) (x : Nat × Option PLine) (h : x ∈ (s.invalidateGroup g).pnt.lines) :
    s.inGroup g (x.1 / 16 / 768) = false := by
  have := (List.mem_filter.1 h).2
  simpa using this

theorem State.lines_pantryDo_wbinv (g : Nat) (x : Nat × Option PLine) (h : x ∈ (s.pantryDo .wbinv g).pnt.lines) :
    s.inGroup g (x.1 / 16 / 768) = false := by
  have hr : (s.writeBackGroup g).regs = s.regs :=
    State.regs_of_only ((only.refl [.mem, .clr, .pnt] s).writeBackGroup (by simp) (by simp) (by simp) g) (by simp)
  rw [← State.inGroup_of_regs_eq hr]
  exact State.lines_invalidateGroup g x h

theorem execPantryOpDone_ends {o : POp} {g : Nat} (h : s.pnt.op = some (o, g)) :
    exec .pantryOpDone s = .next { (if o = .invz then s else s.pantryDo o g) with
      pnt := { (if o = .invz then s else s.pantryDo o g).pnt with op := none } } := by
  simp only [exec, execPantryOpDone, h]

theorem only_pnt (s : State) (x : Pantry) : only [.pnt] s { s with pnt := x } := fun p => by
  cases p <;> simp [Part.same]

/-- Settles O22, from the start and the end of an operation. -/
theorem pantryOperations : Obligations.PantryOperations := by
  refine ⟨?_, ?_, ?_, ?_, ?_⟩
  · intro r g s hr hn
    refine ⟨⟨_, by rw [exec, execPantryWb, State.atReg_may _ _ _ _ _ _ hr, State.pantryStart_free hn, if_neg (by decide)], rfl,
      only_pnt s _⟩, ⟨_, by rw [exec, execPantryWbinv, State.atReg_may _ _ _ _ _ _ hr, State.pantryStart_free hn,
        if_neg (by decide)], rfl, only_pnt s _⟩,
      ⟨_, by rw [exec, execPantryInvz, State.atReg_may _ _ _ _ _ _ hr, State.pantryStart_free hn, if_pos rfl], rfl, fun x hx => ?_⟩⟩
    exact State.lines_invalidateGroup (s := { s with pnt := { s.pnt with op := some (.invz, g.val), lastGroup := g.val } }) g.val x hx
  · intro r g s hr hn
    refine ⟨?_, ?_, ?_⟩
    · rw [exec, execPantryWb, State.atReg_may _ _ _ _ _ _ hr, State.pantryStart_busy hn]
    · rw [exec, execPantryWbinv, State.atReg_may _ _ _ _ _ _ hr, State.pantryStart_busy hn]
    · rw [exec, execPantryInvz, State.atReg_may _ _ _ _ _ _ hr, State.pantryStart_busy hn]
  · intro g s h
    refine ⟨_, execPantryOpDone_ends h, rfl, fun x hx => State.lines_pantryDo_wbinv g x hx⟩
  · intro g s h
    exact ⟨_, execPantryOpDone_ends h, rfl⟩
  · intro r g s hr
    refine ⟨_, by rw [exec, execPantryCntsel, State.atReg_may _ _ _ _ _ _ hr], ?_, ?_, ?_, ?_⟩
    · rw [State.cntsel, State.rg_setRg64_far (by decide), State.rg_setRg64_far (by decide), State.rg_setRg_self]
    · rw [State.cntsel, State.rg64_setRg64_far (by decide)]
      exact State.rg64_setRg64 ..
    · rw [State.cntsel]
      exact State.rg64_setRg64 ..
    · exact (((only.refl _ s).setRg (by simp) _ _ _ _ _).setRg64 (by simp) _ _ _ _ _).setRg64 (by simp) _ _ _ _ _

end Sys2Proof.Machine
end

section
set_option Elab.async false
/-! The dispensers' layers (R322, R329, R351, R352): what arming, bumping, rewinding and disarming leave of a dispenser, and what
completing a command leaves of a sequencer. -/

namespace Sys2Proof.Machine
open Sys2Proof
variable {s t u s₀ : State} {d : Nat}

/-! ### Dispensers -/

theorem State.disp_of_sdt_eq {d : Nat} (e : t.sdt = s.sdt) : t.disp d = s.disp d := by rw [State.disp, State.disp, e]

theorem State.sdt_of_only {ps : List Part} (h : only ps s t) (hp : .sdt ∉ ps) : t.sdt = s.sdt := (h .sdt).resolve_left hp

end Sys2Proof.Machine

namespace Sys2Proof
open Sys2Proof.Machine
variable {s t u s₀ : State} {d : Nat}

theorem onlyDisp.refl (d : Nat) (s : State) : onlyDisp d s s := fun _ _ => rfl

theorem onlyDisp.of_disp_eq (h : onlyDisp d s₀ s) (e : ∀ k, t.disp k = s.disp k) : onlyDisp d s₀ t := fun k hk => (e k).trans (h k hk)

theorem onlyDisp.of_sdt_eq (h : onlyDisp d s₀ s) (e : t.sdt = s.sdt) : onlyDisp d s₀ t := h.of_disp_eq fun _ => State.disp_of_sdt_eq e

theorem onlyDisp.modDisp (h : onlyDisp d s₀ s) (f : Disp → Disp) : onlyDisp d s₀ (s.modDisp d f) := fun k hk =>
  (State.disp_modDisp_ne s f hk).trans (h k hk)

end Sys2Proof

namespace Sys2Proof.Machine
open Sys2Proof
variable {s t u s₀ : State} {d : Nat}

/-- A dispenser in a state of its own, complete or not: what settling changes. -/
def Disp.settled (x : Disp) (st : DispSt) (complete : Bool) : Disp := { x with st := st, complete := complete }

/-- Settling changes a dispenser's state at most, and whether it is complete. -/
theorem State.disp_settle (d : Nat) : ∃ st co, (s.settle d).disp d = (s.disp d).settled st co := by
  unfold State.settle
  extract_lets x
  split
  · exact ⟨_, _, rfl⟩
  · split
    · exact ⟨_, _, State.disp_modDisp_self s d _⟩
    · split
      · exact ⟨_, _, State.disp_modDisp_self s d _⟩
      · exact ⟨_, _, State.disp_modDisp_self s d _⟩

theorem onlyDisp_settle (h : onlyDisp d s₀ s) : onlyDisp d s₀ (s.settle d) := by
  unfold State.settle
  extract_lets x
  split
  · exact h
  · split
    · exact h.modDisp _
    · split
      · exact h.modDisp _
      · exact h.modDisp _

theorem State.settle_claims (d : Nat) : (s.settle d).sdt.claims = s.sdt.claims := by
  unfold State.settle
  extract_lets x
  split
  · rfl
  · split
    · rfl
    · split <;> rfl

/-! ### Completing -/

/-- A sequencer that completes from a state that has not moved it. -/
theorem completes_seqDone {c : Nat} (hr : (t.core c).seq.rd = (s.core c).seq.rd) (hh : (t.core c).seq.halted = (s.core c).seq.halted)
    (hp : (t.core c).seq.stop = (s.core c).seq.stop) : completes c s (t.seqDone c) := by
  simp only [completes, State.core_seqDone, Seq.doneAt, hr, hh, hp, and_self]

theorem length_toLe (n x : Nat) : (toLe n x).length = n := by
  induction n generalizing x with
  | zero => rfl
  | succ n ih => simp [toLe, ih]

/-- The read index of the ring is all that a sequencer writes when it goes on. -/
theorem State.byte_writeRd (c a : Nat) (h : a < spadBase c + (s.ringOff c + 4100) ∨ spadBase c + (s.ringOff c + 4104) ≤ a) :
    (s.writeRd c).byte a = s.byte a := by
  have hl : ((toLe 4 (s.core c).seq.rd).take (0x80000 - (s.ringOff c + 4096 + 4))).length ≤ 4 := by
    rw [List.length_take, length_toLe]
    exact Nat.min_le_right _ _
  rw [State.writeRd, State.setSpad]
  refine State.byte_setBytes_out s _ _ a ?_
  omega

theorem State.byte_setRd (c i a : Nat) (h : a < spadBase c + (s.ringOff c + 4100) ∨ spadBase c + (s.ringOff c + 4104) ≤ a) :
    (s.setRd c i).byte a = s.byte a := by
  unfold State.setRd
  extract_lets t
  split
  · exact State.byte_writeRd c a h
  · rfl

theorem onlyRingIndex_seqDone {c : Nat} (hm : t.mem = s.mem) (hr : t.ringOff c = s.ringOff c) : onlyRingIndex c s (t.seqDone c) := by
  intro a ha
  have hb : (t.seqDone c).byte a = (t.setRd c ((t.core c).seq.rd + 1)).byte a := rfl
  rw [hb, State.byte_setRd c _ a (by rw [hr]; exact ha), State.byte, State.byte, hm]

/-! ### Layers -/

/-- The context that a layer enters as. -/
def Ctx.entered (x : Ctx) (q : Seq) (y : Disp) : Ctx := { x with id := q.nextCtx, defreg := y.defreg, lseed := y.lseed, gseed := y.gseed }

/-- The cores as they are while a context enters: core `c` holds it as its last. -/
def State.withCtx (s : State) (c : Nat) (x : Ctx) : State :=
  s.modCore c (fun k => { k with seq := { k.seq with
    ctxs := k.seq.ctxs.filter (fun z => !k.retired z.id) ++ [x.entered k.seq (s.disp (Desc.disp x.desc))]
    nextCtx := k.seq.nextCtx + 1 } })

theorem State.enterCtx_eq (c : Nat) (x : Ctx) : s.enterCtx c x = (s.withCtx c x).seqDone c := rfl

theorem State.curCtx_enterCtx (c : Nat) (x : Ctx) :
    (s.enterCtx c x).curCtx c = some (x.entered (s.core c).seq (s.disp (Desc.disp x.desc))) := by
  rw [State.enterCtx_eq, State.curCtx, State.core_seqDone, State.withCtx, State.core_modCore_self]
  exact List.getLast?_concat ..

theorem completes_enterCtx {c : Nat} (x : Ctx) (h : t.core c = s.core c) : completes c s (t.enterCtx c x) := by
  rw [State.enterCtx_eq]
  refine completes_seqDone ?_ ?_ ?_ <;> rw [State.withCtx, State.core_modCore_self, h]

theorem State.sdt_enterCtx (c : Nat) (x : Ctx) : (s.enterCtx c x).sdt = s.sdt :=
  State.sdt_of_only ((only.refl [.cores, .mem] s).enterCtx (by simp) (by simp) c x) (by simp)

theorem State.sdt_modSeq (c : Nat) (f : Seq → Seq) : (s.modSeq c f).sdt = s.sdt := rfl

/-- A dispenser that a layer has just armed: nothing issued, nothing done. -/
def Disp.armedWith (y : Disp) (x : Ctx) (df : Nat) (ls gs : W64) : Disp := { y with
  st := .armed, lseq := Desc.lseq x.desc, complete := false, desc := x.desc, alen := x.alen, bkt := x.bkt
  epoch := (y.epoch + 1) % 65536, next := 0, queue := [], parts := [], done := 0, retry := 0, spec := 0, floor := 0
  guard := false, escd := false, defreg := df, lseed := ls, gseed := gs }

theorem State.disp_arm (d : Nat) (x : Ctx) :
    ∃ st co df ls gs, (s.arm d x).disp d = ((s.disp d).armedWith x df ls gs).settled st co := by
  unfold State.arm
  extract_lets src
  split
  next a s1 hs1 =>
    split
    next b s2 hs2 =>
      have h1 : s1.sdt = s.sdt := by
        split at hs1 <;> cases hs1 <;> rfl
      have h2 : s2.sdt = s.sdt := by
        split at hs2 <;> cases hs2 <;> exact h1
      have h3 : (s2.dropSums d).disp d = s.disp d := by rw [← State.disp_of_sdt_eq h2]; rfl
      obtain ⟨st, co, hst⟩ := State.disp_settle (s := (s2.dropSums d).modDisp d
        (fun y => y.armedWith x (s.defRegime (s.dispPart d)) (BitVec.ofNat 64 a) (BitVec.ofNat 64 b))) d
      rw [State.disp_modDisp_self, h3] at hst
      exact ⟨st, co, _, _, _, hst⟩

theorem onlyDisp_arm (h : onlyDisp d s₀ s) (x : Ctx) : onlyDisp d s₀ (s.arm d x) := by
  unfold State.arm
  extract_lets src
  split
  next a s1 hs1 =>
    split
    next b s2 hs2 =>
      have h1 : s1.sdt = s.sdt := by
        split at hs1 <;> cases hs1 <;> rfl
      have h2 : s2.sdt = s.sdt := by
        split at hs2 <;> cases hs2 <;> exact h1
      exact onlyDisp_settle (((h.of_sdt_eq h2).of_disp_eq (t := s2.dropSums d) fun _ => rfl).modDisp _)

theorem execDispenserPresent_waiting {c : CoreId} {x : Ctx} (hw : (s.core c.val).seq.wait = .present x) (ho : s.coreOpen c.val = true) :
    exec (.dispenserPresent c) s = .next (s.present c.val x) := by
  simp [exec, execDispenserPresent, hw, ho]

/-- A layer that joins its dispenser enters. -/
theorem State.present_joins {c : Nat} {x : Ctx} (hj : (s.disp (Desc.disp x.desc)).joins (Desc.lseq x.desc) = true)
    (ha : Desc.bdim x.desc = 0 ∨ (s.disp (Desc.disp x.desc)).alen = x.alen) : s.present c x = s.enterCtx c x := by
  rw [State.present, if_pos hj, if_neg]
  obtain ha | ha := ha <;> simp [ha]

/-- A layer that its IDLE dispenser does not hold arms it and enters. -/
theorem State.present_arms {c : Nat} {x : Ctx} (hj : (s.disp (Desc.disp x.desc)).joins (Desc.lseq x.desc) = false)
    (hi : (s.disp (Desc.disp x.desc)).st = .idle) : s.present c x = (s.arm (Desc.disp x.desc) x).enterCtx c x := by
  rw [State.present, if_neg (by simp [hj]), if_pos hi]

/-- A layer whose dispenser holds another one waits. -/
theorem State.present_busy {c : Nat} {x : Ctx} (hj : (s.disp (Desc.disp x.desc)).joins (Desc.lseq x.desc) = false)
    (hi : (s.disp (Desc.disp x.desc)).st ≠ .idle) :
    s.present c x = (s.modDisp (Desc.disp x.desc) (fun y => { y with waiting := y.waiting.filter (· ≠ c) ++ [c] })).modSeq c
      (fun q => { q with wait := .layerBusy x }) := by
  rw [State.present, if_neg (by simp [hj]), if_neg hi]

theorem State.core_arm (d : Nat) (x : Ctx) (c : Nat) : (s.arm d x).core c = s.core c := by
  have h : (s.arm d x).cores = s.cores := (((only.refl [.free, .sdt] s).arm (by simp) (by simp) d x) .cores).resolve_left (by simp)
  rw [State.core, State.core, h]

/-- What a layer that arms its dispenser leaves. -/
theorem State.disp_arm_enterCtx (c d : Nat) (x : Ctx) :
    ∃ st co df ls gs, ((s.arm d x).enterCtx c x).disp d = ((s.disp d).armedWith x df ls gs).settled st co := by
  obtain ⟨st, co, df, ls, gs, h⟩ := State.disp_arm (s := s) d x
  exact ⟨st, co, df, ls, gs, (State.disp_of_sdt_eq (State.sdt_enterCtx c x)).trans h⟩

theorem onlyDisp_arm_enterCtx (c d : Nat) (x : Ctx) (h : onlyDisp d s₀ s) : onlyDisp d s₀ ((s.arm d x).enterCtx c x) :=
  (onlyDisp_arm h x).of_sdt_eq (State.sdt_enterCtx c x)

theorem execDeferredArm_ready {d : DispId} {c : Nat} {x : Ctx} (hl : (s.disp d.val).waiting = [c])
    (hw : (s.core c).seq.wait = .layerBusy x) (hi : (s.disp d.val).st = .idle) :
    exec (.deferredArm d) s =
      .next ((s.modDisp d.val (fun y => { y with waiting := y.waiting.filter (· ≠ c) })).present c x) := by
  simp [exec, execDeferredArm, hl, State.layerReady, hw, hi]

/-- Settles O23, from what presenting a layer does to its dispenser and to the sequencer. -/
theorem layersAreAnswered : Obligations.LayersAreAnswered := by
  refine ⟨?_, ?_, ?_, ?_⟩
  · intro c x s d hw ho hj ha
    have he := execDispenserPresent_waiting hw ho
    rw [State.present_joins hj ha] at he
    refine ⟨_, he, completes_enterCtx x rfl, State.curCtx_enterCtx c.val x, fun e => State.disp_of_sdt_eq (State.sdt_enterCtx c.val x),
      (onlyCore.refl _ s).enterCtx _, onlyRingIndex_seqDone rfl rfl, (only.refl _ s).enterCtx (by simp) (by simp) _ _⟩
  · intro c x s d hw ho hj hi
    have he := execDispenserPresent_waiting hw ho
    rw [State.present_arms hj hi] at he
    obtain ⟨st, co, df, ls, gs, hd⟩ := State.disp_arm_enterCtx (s := s) c.val d x
    refine ⟨_, he, completes_enterCtx x (State.core_arm _ x _), by rw [State.curCtx_enterCtx]; rfl, ?_⟩
    rw [hd]
    exact ⟨rfl, rfl, rfl, rfl, rfl, rfl, rfl, rfl, onlyDisp_arm_enterCtx _ _ x (onlyDisp.refl _ s),
      ((onlyCore.refl _ s).arm _ _).enterCtx _⟩
  · intro c x s d hw ho hj hi
    have he := execDispenserPresent_waiting hw ho
    rw [State.present_busy hj hi] at he
    refine ⟨_, he, ?_, ?_, ?_, ?_, ((onlyCore.refl _ s).modDisp _ _).modSeq _,
      ((only.refl _ s).modDisp (by simp) _ _).modSeq (by simp) _ _⟩
    · rw [State.core_modSeq_self]
    · rw [State.core_modSeq_self]
      rfl
    · rw [State.disp_of_sdt_eq (State.sdt_modSeq _ _), State.disp_modDisp_self]
      simp
    · exact onlyDisp.of_sdt_eq ((onlyDisp.refl d s).modDisp _) (State.sdt_modSeq _ _)
  · intro d c x s hl hw hxd hi hj
    have he := execDeferredArm_ready hl hw hi
    have hi' : ((s.modDisp d.val (fun y => { y with waiting := y.waiting.filter (· ≠ c) })).disp d.val).st = .idle := by
      rw [State.disp_modDisp_self]
      exact hi
    have hj' : ((s.modDisp d.val (fun y => { y with waiting := y.waiting.filter (· ≠ c) })).disp d.val).joins (Desc.lseq x.desc)
        = false := by
      rw [State.disp_modDisp_self]
      exact hj
    rw [State.present_arms (by rw [hxd]; exact hj') (by rw [hxd]; exact hi'), hxd] at he
    obtain ⟨st, co, df, ls, gs, hd⟩ := State.disp_arm_enterCtx
      (s := s.modDisp d.val (fun y => { y with waiting := y.waiting.filter (· ≠ c) })) c d.val x
    refine ⟨_, he, completes_enterCtx x (State.core_arm _ x _), ?_⟩
    rw [hd, State.disp_modDisp_self]
    refine ⟨?_, rfl, rfl, onlyDisp_arm_enterCtx _ _ x ((onlyDisp.refl _ s).modDisp _),
      (((onlyCore.refl _ s).modDisp _ _).arm _ _).enterCtx _⟩
    simp [Disp.settled, Disp.armedWith, hl]

/-! ### BUMP, REWIND and DISARM -/

theorem State.disp_bumpEpoch (d : Nat) (back : Bool) : (s.bumpEpoch d back).disp d = { s.disp d with
    epoch := ((s.disp d).epoch + 1) % 65536
    queue := if back then (s.disp d).queue ++ (s.liveClaims d).map (fun y => { tile := y.tile, close := y.close })
      else (s.disp d).queue } := State.disp_modDisp_self _ d _

theorem onlyDisp_bumpEpoch {back : Bool} (h : onlyDisp d s₀ s) : onlyDisp d s₀ (s.bumpEpoch d back) := by
  unfold State.bumpEpoch
  refine onlyDisp.modDisp ?_ _
  exact h.of_disp_eq fun _ => rfl

/-- Every claim of the dispenser is STALE once the epoch bumps. -/
theorem State.stale_bumpEpoch (d : Nat) (back : Bool) : ∀ y ∈ (s.bumpEpoch d back).sdt.claims, y.disp = d → y.stale = true := by
  intro y hy hd
  obtain ⟨x, -, rfl⟩ := List.mem_map.1 hy
  split
  · rfl
  · next hx =>
    rw [if_neg hx] at hd
    exact absurd hd hx

/-- The claims of the dispenser that are not STALE, as the list of claims names them. -/
theorem State.liveClaims_eq (d : Nat) : s.liveClaims d = s.sdt.claims.filter (fun y => y.disp = d && !y.stale) := by
  rw [State.liveClaims, State.claimsOn, List.filter_filter]
  exact List.filter_congr fun y _ => Bool.and_comm _ _

theorem State.dropHub_disp (d e : Nat) : (s.dropHub d).disp e = s.disp e := rfl

theorem State.dropSums_disp (d e : Nat) : (s.dropSums d).disp e = s.disp e := rfl

theorem onlyDisp_rewindDisp {next : Nat} {guard : Bool} (h : onlyDisp d s₀ s) : onlyDisp d s₀ (s.rewindDisp d next guard) := by
  unfold State.rewindDisp
  refine onlyDisp_settle (onlyDisp.modDisp ?_ _)
  exact (onlyDisp_bumpEpoch h).of_disp_eq fun _ => rfl

/-- Claims that are answered leave the dispensers as they are. -/
theorem State.sdt_answerClaim (c h : Nat) (r : CRec) : (s.answerClaim c h r).sdt = s.sdt :=
  State.sdt_of_only ((only.refl [.regs, .mem, .cores, .ses, .evt] s).answerClaim (by simp) (by simp) (by simp) (by simp) (by simp) c h r)
    (by simp)

theorem onlyDisp_abortHeld {p : ClaimReq → Bool} (h : onlyDisp d s₀ s) : onlyDisp d s₀ (s.abortHeld d p) := by
  unfold State.abortHeld
  extract_lets x out
  exact State.each_inv _ (onlyDisp d s₀) _ _ (fun t q ht => ht.of_sdt_eq (State.sdt_answerClaim ..)) (h.modDisp _)

theorem State.epoch_abortHeld (d : Nat) (p : ClaimReq → Bool) : ((s.abortHeld d p).disp d).epoch = (s.disp d).epoch := by
  unfold State.abortHeld
  extract_lets x out
  refine State.each_inv _ (fun t => (t.disp d).epoch = (s.disp d).epoch) _ _ (fun t q ht => ?_) ?_
  · rw [State.disp_of_sdt_eq (State.sdt_answerClaim ..)]
    exact ht
  · rw [State.disp_modDisp_self]

theorem onlyDisp_disarmDisp (h : onlyDisp d s₀ s) : onlyDisp d s₀ (s.disarmDisp d) := by
  unfold State.disarmDisp
  refine onlyDisp.modDisp ?_ _
  exact (onlyDisp_abortHeld h).of_disp_eq fun _ => rfl

/-- Settles O25, from what a bump of the epoch leaves of the dispenser and of its claims. -/
theorem layersAreBumped : Obligations.LayersAreBumped := by
  refine ⟨?_, ?_, ?_⟩
  · intro r d s x hr
    obtain ⟨st, co, hd⟩ := State.disp_settle (s := s.bumpEpoch d.val true) d.val
    rw [State.disp_bumpEpoch] at hd
    refine ⟨_, by rw [exec, execBump, State.atReg_may _ _ _ _ _ _ hr, State.bumpDisp], ?_⟩
    rw [hd, State.settle_claims, State.liveClaims_eq]
    exact ⟨rfl, rfl, rfl, rfl, rfl, State.stale_bumpEpoch d.val true, onlyDisp_settle (onlyDisp_bumpEpoch (onlyDisp.refl _ s)),
      (only.refl _ s).bumpDisp (by simp) _⟩
  · intro r d s hr
    refine ⟨_, by rw [exec, execRewind, State.atReg_may _ _ _ _ _ _ hr, State.rewindDisp], ?_⟩
    obtain ⟨st, co, hd⟩ := State.disp_settle (s := (((s.bumpEpoch d.val false).dropSums d.val).dropHub d.val).modDisp d.val
      (fun y => { y with queue := [], next := (s.rg .sdtRewto 0 d.val).toNat, parts := [], done := 0, guard := y.guard || false }))
      d.val
    rw [State.disp_modDisp_self, State.dropHub_disp, State.dropSums_disp, State.disp_bumpEpoch] at hd
    rw [hd, State.settle_claims]
    exact ⟨rfl, rfl, rfl, rfl, rfl, State.stale_bumpEpoch d.val false, onlyDisp_rewindDisp (onlyDisp.refl _ s),
      (only.refl _ s).rewindDisp (by simp) _ _ _⟩
  · intro r d s hr
    refine ⟨_, by rw [exec, execDisarm, State.atReg_may _ _ _ _ _ _ hr], ?_, ?_, ?_, ?_, ?_, onlyDisp_disarmDisp (onlyDisp.refl _ s)⟩
    · rw [State.disarmDisp, State.disp_modDisp_self]
      exact congrArg (fun n => (n + 1) % 65536) (State.epoch_abortHeld ..)
    · rw [State.disarmDisp, State.disp_modDisp_self]
    · rw [State.disarmDisp, State.disp_modDisp_self]
    · rw [State.disarmDisp, State.disp_modDisp_self]
    · intro y hy
      exact of_decide_eq_true (List.mem_filter.1 hy).2

end Sys2Proof.Machine
end

section
set_option Elab.async false
/-! What resolving a commit leaves of the claims and of what is done. -/

namespace Sys2Proof.Machine
open Sys2Proof
variable {s₀ s t u : State} {d dd : Nat}

/-- The open claims and the commits that wait stay, and so does what dispenser `d` has counted as done. -/
def ClaimsHeld (d : Nat) (s t : State) : Prop :=
  t.sdt.claims = s.sdt.claims ∧ t.sdt.commits = s.sdt.commits ∧ (t.disp d).done = (s.disp d).done

theorem ClaimsHeld.refl (d : Nat) (s : State) : ClaimsHeld d s s := ⟨rfl, rfl, rfl⟩

theorem ClaimsHeld.trans (h : ClaimsHeld d s t) (k : ClaimsHeld d t u) : ClaimsHeld d s u :=
  ⟨k.1.trans h.1, k.2.1.trans h.2.1, k.2.2.trans h.2.2⟩

theorem ClaimsHeld.of_eq (hk : ClaimsHeld d s₀ s) (e : t.sdt = s.sdt) : ClaimsHeld d s₀ t := by
  rwa [ClaimsHeld, State.disp, e]

theorem ClaimsHeld.fields (hk : ClaimsHeld d s₀ s) {a1 a2 a3 a4 a5 a6 a7 a8 a9 a10 a11 a12 a13 a14 a15 a16 a17 a18 a19 a20 a21}
    (e : a9.claims = s.sdt.claims ∧ a9.commits = s.sdt.commits ∧ a9.disps = s.sdt.disps) : ClaimsHeld d s₀ (State.mk a1 a2 a3 a4 a5 a6 a7 a8 a9 a10 a11 a12 a13 a14 a15 a16 a17 a18 a19 a20 a21) := by
  unfold ClaimsHeld at *
  simp only [State.disp, e] at *
  exact hk

theorem ClaimsHeld.modDisp (hk : ClaimsHeld d s₀ s) (e : Nat) (f : Disp → Disp) (hf : ∀ y, (f y).done = y.done) : ClaimsHeld d s₀ (s.modDisp e f) := by
  refine hk.trans ⟨rfl, rfl, ?_⟩
  by_cases he : d = e
  · rw [he, State.disp_modDisp_self, hf]
  · rw [State.disp_modDisp_ne s f he]

theorem ClaimsHeld.each {α : Type} (hk : ClaimsHeld d s₀ s) (l : List α) (f : State → α → State)
    (hf : ∀ t x, ClaimsHeld d s₀ t → ClaimsHeld d s₀ (f t x)) : ClaimsHeld d s₀ (s.each l f) := State.each_inv s (ClaimsHeld d s₀) l f hf hk

theorem ClaimsHeld.log (hk : ClaimsHeld d s₀ s) (e : Event) : ClaimsHeld d s₀ (s.log e) := hk.of_eq (State.log_sdt s e)

theorem ClaimsHeld.setBytes (hk : ClaimsHeld d s₀ s) (a : Nat) (bs : List Byte) : ClaimsHeld d s₀ (s.setBytes a bs) := hk.of_eq (State.setBytes_sdt s a bs)

theorem ClaimsHeld.setRg (hk : ClaimsHeld dd s₀ s) (n : RegName) (c i j : Nat) (v : W32)
    : ClaimsHeld dd s₀ (s.setRg n c i j v) := by
  unfold State.setRg
  grind [ClaimsHeld.fields]

theorem ClaimsHeld.setRgHi (hk : ClaimsHeld dd s₀ s) (n : RegName) (c i j : Nat) (v : W32)
    : ClaimsHeld dd s₀ (s.setRgHi n c i j v) := by
  unfold State.setRgHi
  grind [ClaimsHeld.fields]

theorem ClaimsHeld.setRg64 (hk : ClaimsHeld dd s₀ s) (n : RegName) (c i j v : Nat)
    : ClaimsHeld dd s₀ (s.setRg64 n c i j v) := by
  unfold State.setRg64
  grind [ClaimsHeld.fields, ClaimsHeld.setRg, ClaimsHeld.setRgHi]

theorem ClaimsHeld.count (hk : ClaimsHeld dd s₀ s) (n : RegName) (c i k : Nat) : ClaimsHeld dd s₀ (s.count n c i k) := by
  unfold State.count
  grind [ClaimsHeld.fields, ClaimsHeld.setRg]

theorem ClaimsHeld.setCore (hk : ClaimsHeld dd s₀ s) (c : Nat) (x : Core) : ClaimsHeld dd s₀ (s.setCore c x) := by
  unfold State.setCore
  grind [ClaimsHeld.fields]

theorem ClaimsHeld.modCore (hk : ClaimsHeld dd s₀ s) (c : Nat) (f : Core → Core) : ClaimsHeld dd s₀ (s.modCore c f) := by
  unfold State.modCore
  grind [ClaimsHeld.fields, ClaimsHeld.setCore]

theorem ClaimsHeld.modTile (hk : ClaimsHeld dd s₀ s) (c h : Nat) (f : Tile → Tile) : ClaimsHeld dd s₀ (s.modTile c h f) := by
  unfold State.modTile
  grind [ClaimsHeld.fields, ClaimsHeld.modCore]

theorem ClaimsHeld.modSeq (hk : ClaimsHeld dd s₀ s) (c : Nat) (f : Seq → Seq) : ClaimsHeld dd s₀ (s.modSeq c f) := by
  unfold State.modSeq
  grind [ClaimsHeld.fields, ClaimsHeld.modCore]

theorem ClaimsHeld.modArr (hk : ClaimsHeld dd s₀ s) (c : Nat) (f : Arr → Arr) : ClaimsHeld dd s₀ (s.modArr c f) := by
  unfold State.modArr
  grind [ClaimsHeld.fields, ClaimsHeld.modCore]

theorem ClaimsHeld.setSlot (hk : ClaimsHeld dd s₀ s) (c n : Nat) (x : Slot) : ClaimsHeld dd s₀ (s.setSlot c n x) := by
  unfold State.setSlot
  grind [ClaimsHeld.fields, ClaimsHeld.modCore]

theorem ClaimsHeld.modPort (hk : ClaimsHeld dd s₀ s) (p : Nat) (f : Port → Port) : ClaimsHeld dd s₀ (s.modPort p f) := by
  unfold State.modPort
  grind [ClaimsHeld.fields]

theorem ClaimsHeld.modGroup (hk : ClaimsHeld dd s₀ s) (g : Nat) (f : Group → Group) : ClaimsHeld dd s₀ (s.modGroup g f) := by
  unfold State.modGroup
  grind [ClaimsHeld.fields]

theorem ClaimsHeld.send (hk : ClaimsHeld dd s₀ s) (o : Out) : ClaimsHeld dd s₀ (s.send o) := by
  unfold State.send
  grind [ClaimsHeld.fields]

theorem ClaimsHeld.setSpad (hk : ClaimsHeld dd s₀ s) (c off : Nat) (bs : List Byte)
    : ClaimsHeld dd s₀ (s.setSpad c off bs) := by
  unfold State.setSpad
  grind [ClaimsHeld.fields, ClaimsHeld.setBytes]

theorem ClaimsHeld.sendPacket (hk : ClaimsHeld dd s₀ s) (p : Nat) (k : Packet) : ClaimsHeld dd s₀ (s.sendPacket p k) := by
  unfold State.sendPacket
  grind [ClaimsHeld.fields, ClaimsHeld.modPort, ClaimsHeld.each, ClaimsHeld.send]

theorem ClaimsHeld.groupAct (hk : ClaimsHeld dd s₀ s) (g j n : Nat) : ClaimsHeld dd s₀ (s.groupAct g j n) := by
  unfold State.groupAct
  grind [ClaimsHeld.fields]

theorem ClaimsHeld.groupSend (hk : ClaimsHeld dd s₀ s) (g p : Nat) (k : Packet) : ClaimsHeld dd s₀ (s.groupSend g p k) := by
  unfold State.groupSend
  grind [ClaimsHeld.fields, ClaimsHeld.groupAct, ClaimsHeld.sendPacket]

theorem ClaimsHeld.toParent (hk : ClaimsHeld dd s₀ s) (g : Nat) (k : Packet) : ClaimsHeld dd s₀ (s.toParent g k) := by
  unfold State.toParent
  grind [ClaimsHeld.fields, ClaimsHeld.groupSend]

theorem ClaimsHeld.toKids (hk : ClaimsHeld dd s₀ s) (g : Nat) (k : Packet) : ClaimsHeld dd s₀ (s.toKids g k) := by
  unfold State.toKids
  grind [ClaimsHeld.fields, ClaimsHeld.each, ClaimsHeld.groupSend]

theorem ClaimsHeld.slotRelease (hk : ClaimsHeld dd s₀ s) (c n cls : Nat) : ClaimsHeld dd s₀ (s.slotRelease c n cls) := by
  unfold State.slotRelease
  grind [ClaimsHeld.fields, ClaimsHeld.setSlot]

theorem ClaimsHeld.barrierDown (hk : ClaimsHeld dd s₀ s) (g : Nat) : ClaimsHeld dd s₀ (s.barrierDown g) := by
  unfold State.barrierDown
  grind [ClaimsHeld.fields, ClaimsHeld.modGroup, ClaimsHeld.toKids, ClaimsHeld.slotRelease]

theorem ClaimsHeld.barrierStep (hk : ClaimsHeld dd s₀ s) (g : Nat) : ClaimsHeld dd s₀ (s.barrierStep g) := by
  unfold State.barrierStep
  grind [ClaimsHeld.fields, ClaimsHeld.barrierDown, ClaimsHeld.modGroup, ClaimsHeld.toParent]

theorem ClaimsHeld.slotFull (hk : ClaimsHeld dd s₀ s) (c n : Nat) : ClaimsHeld dd s₀ (s.slotFull c n) := by
  unfold State.slotFull
  grind [ClaimsHeld.fields, ClaimsHeld.setSlot, ClaimsHeld.modGroup, ClaimsHeld.barrierStep]

theorem ClaimsHeld.writeRd (hk : ClaimsHeld dd s₀ s) (c : Nat) : ClaimsHeld dd s₀ (s.writeRd c) := by
  unfold State.writeRd
  grind [ClaimsHeld.fields, ClaimsHeld.setSpad]

theorem ClaimsHeld.setRd (hk : ClaimsHeld dd s₀ s) (c i : Nat) : ClaimsHeld dd s₀ (s.setRd c i) := by
  unfold State.setRd
  grind [ClaimsHeld.fields, ClaimsHeld.modSeq, ClaimsHeld.writeRd]

theorem ClaimsHeld.seqDoneAt (hk : ClaimsHeld dd s₀ s) (c i : Nat) : ClaimsHeld dd s₀ (s.seqDoneAt c i) := by
  unfold State.seqDoneAt
  grind [ClaimsHeld.fields, ClaimsHeld.setRd, ClaimsHeld.modSeq]

theorem ClaimsHeld.seqDone (hk : ClaimsHeld dd s₀ s) (c : Nat) : ClaimsHeld dd s₀ (s.seqDone c) := by
  unfold State.seqDone
  grind [ClaimsHeld.fields, ClaimsHeld.seqDoneAt]

theorem ClaimsHeld.setScalar (hk : ClaimsHeld dd s₀ s) (c n v : Nat) : ClaimsHeld dd s₀ (s.setScalar c n v) := by
  unfold State.setScalar
  grind [ClaimsHeld.fields, ClaimsHeld.setRg64]

theorem ClaimsHeld.settle (hk : ClaimsHeld dd s₀ s) (d : Nat) : ClaimsHeld dd s₀ (s.settle d) := by
  unfold State.settle
  grind [ClaimsHeld.fields, ClaimsHeld.modDisp]

theorem ClaimsHeld.flagTile (hk : ClaimsHeld dd s₀ s) (c h : Nat) (l : List Nat) : ClaimsHeld dd s₀ (s.flagTile c h l) := by
  unfold State.flagTile
  grind [ClaimsHeld.fields, ClaimsHeld.modTile]

theorem ClaimsHeld.tileEvent (hk : ClaimsHeld dd s₀ s) (c h code cls detail : Nat)
    : ClaimsHeld dd s₀ (s.tileEvent c h code cls detail) := by
  unfold State.tileEvent
  grind [ClaimsHeld.fields, ClaimsHeld.log]

theorem ClaimsHeld.unstall (hk : ClaimsHeld dd s₀ s) (c : Nat) (p : StallBy → Bool) : ClaimsHeld dd s₀ (s.unstall c p) := by
  unfold State.unstall
  grind [ClaimsHeld.fields, ClaimsHeld.modCore]

theorem ClaimsHeld.arrKick (hk : ClaimsHeld dd s₀ s) (c : Nat) : ClaimsHeld dd s₀ (s.arrKick c) := by
  unfold State.arrKick
  grind [ClaimsHeld.fields, ClaimsHeld.modTile]

theorem ClaimsHeld.arrLeave (hk : ClaimsHeld dd s₀ s) (c : Nat) : ClaimsHeld dd s₀ (s.arrLeave c) := by
  unfold State.arrLeave
  grind [ClaimsHeld.fields, ClaimsHeld.modArr, ClaimsHeld.arrKick]

theorem ClaimsHeld.arrDrop (hk : ClaimsHeld dd s₀ s) (c h : Nat) : ClaimsHeld dd s₀ (s.arrDrop c h) := by
  unfold State.arrDrop
  grind [ClaimsHeld.fields, ClaimsHeld.modArr, ClaimsHeld.arrLeave]

theorem ClaimsHeld.dropWork (hk : ClaimsHeld dd s₀ s) (c h : Nat) : ClaimsHeld dd s₀ (s.dropWork c h) := by
  unfold State.dropWork
  grind [ClaimsHeld.fields, ClaimsHeld.modCore, ClaimsHeld.arrDrop]

theorem ClaimsHeld.releaseSlots (hk : ClaimsHeld dd s₀ s) (c h : Nat) : ClaimsHeld dd s₀ (s.releaseSlots c h) := by
  unfold State.releaseSlots
  exact (hk.each _ _ fun t n h => h.slotRelease _ _ _).each _ _ fun t n h => h.slotRelease _ _ _

theorem ClaimsHeld.freeTile (hk : ClaimsHeld dd s₀ s) (c h : Nat) : ClaimsHeld dd s₀ (s.freeTile c h) := by
  unfold State.freeTile
  grind [ClaimsHeld.fields, ClaimsHeld.dropWork, ClaimsHeld.unstall, ClaimsHeld.modTile, ClaimsHeld.modSeq]

theorem ClaimsHeld.treeMismatch (hk : ClaimsHeld dd s₀ s) (c d tile epoch : Nat) (x y : PartSum)
    : ClaimsHeld dd s₀ (s.treeMismatch c d tile epoch x y) := by
  unfold State.treeMismatch
  grind [ClaimsHeld.fields, ClaimsHeld.log]

theorem ClaimsHeld.addPart (hk : ClaimsHeld dd s₀ s) (c d : Nat) (p : PartSum) : ClaimsHeld dd s₀ (s.addPart c d p) := by
  have ht : ClaimsHeld dd s₀ { s with sdt := { s.sdt with partSums := s.sdt.partSums.filter (· ≠ p) } } := hk.fields ⟨rfl,
    rfl, rfl⟩
  unfold State.addPart
  dsimp only
  split
  · exact hk.fields ⟨rfl, rfl, rfl⟩
  · split
    · exact hk.fields ⟨rfl, rfl, rfl⟩
    · exact (ht.treeMismatch ..).fields ⟨rfl, rfl, rfl⟩

theorem ClaimsHeld.countPart (hk : ClaimsHeld dd s₀ s) (d tile : Nat) : ClaimsHeld dd s₀ (s.countPart d tile) := by
  unfold State.countPart
  grind [ClaimsHeld.fields, ClaimsHeld.modDisp]

theorem ClaimsHeld.countHub (hk : ClaimsHeld dd s₀ s) (c h d tile : Nat) : ClaimsHeld dd s₀ (s.countHub c h d tile) := by
  unfold State.countHub
  grind [ClaimsHeld.fields]

theorem ClaimsHeld.commitDone (hk : ClaimsHeld dd s₀ s) (c h : Nat) (ok : Bool) : ClaimsHeld dd s₀ (s.commitDone c h ok) := by
  unfold State.commitDone
  grind [ClaimsHeld.fields, ClaimsHeld.setScalar, ClaimsHeld.seqDone, ClaimsHeld.freeTile]

end Sys2Proof.Machine
end

section
set_option Elab.async false
/-! What memory and slot accesses leave of a sequencer and its tiles. -/

namespace Sys2Proof.Machine
open Sys2Proof
variable {s₀ s t u : State} {c cc : Nat}

/-- The sequencer's place, its state, its contexts and the core's tiles stay. -/
def IssueHeld (c : Nat) (s t : State) : Prop := (t.core c).seq.rd = (s.core c).seq.rd ∧ (t.core c).seq.wait = (s.core c).seq.wait ∧ (t.core c).seq.halted = (s.core c).seq.halted ∧ (t.core c).seq.stop = (s.core c).seq.stop ∧ (t.core c).seq.ctxs = (s.core c).seq.ctxs ∧ (t.core c).tiles = (s.core c).tiles

theorem IssueHeld.refl (c : Nat) (s : State) : IssueHeld c s s := ⟨rfl, rfl, rfl, rfl, rfl, rfl⟩

theorem IssueHeld.of_core_eq (hk : IssueHeld cc s₀ s) (e : t.core cc = s.core cc) : IssueHeld cc s₀ t := by
  rwa [IssueHeld, e]

theorem IssueHeld.of_cores_eq (hk : IssueHeld cc s₀ s) (e : t.cores = s.cores) : IssueHeld cc s₀ t :=
  hk.of_core_eq (by rw [State.core, State.core, e])

theorem IssueHeld.fields (hk : IssueHeld cc s₀ s) {a1 a2 a3 a4 a5 a6 a7 a9 a10 a11 a12 a13 a14 a15 a16 a17 a18 a19 a20 a21} :
    IssueHeld cc s₀ (State.mk a1 a2 a3 a4 a5 a6 a7 s.cores a9 a10 a11 a12 a13 a14 a15 a16 a17 a18 a19 a20 a21) := hk.of_cores_eq rfl

theorem IssueHeld.modCore (hk : IssueHeld cc s₀ s) (c : Nat) (f : Core → Core) (hf : ∀ k, (f k).seq.rd = k.seq.rd ∧ (f k).seq.wait = k.seq.wait ∧ (f k).seq.halted = k.seq.halted ∧ (f k).seq.stop = k.seq.stop ∧ (f k).seq.ctxs = k.seq.ctxs ∧ (f k).tiles = k.tiles) : IssueHeld cc s₀ (s.modCore c f) := by
  by_cases hc : cc = c
  · subst hc
    have e := hf (s.core cc)
    unfold IssueHeld at *
    rw [State.core_modCore_self]
    simp only [e]
    exact hk
  · exact hk.of_core_eq (State.core_modCore_ne s f hc)

theorem IssueHeld.modSeq (hk : IssueHeld cc s₀ s) (c : Nat) (f : Seq → Seq) (hf : ∀ q, (f q).rd = q.rd ∧ (f q).wait = q.wait ∧ (f q).halted = q.halted ∧ (f q).stop = q.stop ∧ (f q).ctxs = q.ctxs) : IssueHeld cc s₀ (s.modSeq c f) :=
  hk.modCore c _ fun k => by simp only [hf, and_self]

theorem IssueHeld.each {α : Type} (hk : IssueHeld cc s₀ s) (l : List α) (f : State → α → State)
    (hf : ∀ t x, IssueHeld cc s₀ t → IssueHeld cc s₀ (f t x)) : IssueHeld cc s₀ (s.each l f) := State.each_inv s (IssueHeld cc s₀) l f hf hk

theorem IssueHeld.log (hk : IssueHeld cc s₀ s) (e : Event) : IssueHeld cc s₀ (s.log e) := hk.of_cores_eq (State.log_cores s e)

theorem IssueHeld.setBytes (hk : IssueHeld cc s₀ s) (a : Nat) (bs : List Byte) : IssueHeld cc s₀ (s.setBytes a bs) :=
  hk.of_cores_eq (State.setBytes_cores s a bs)

theorem IssueHeld.setRg (hk : IssueHeld cc s₀ s) (n : RegName) (c i j : Nat) (v : W32)
    : IssueHeld cc s₀ (s.setRg n c i j v) := by
  unfold State.setRg
  grind [IssueHeld.fields]

theorem IssueHeld.setRgHi (hk : IssueHeld cc s₀ s) (n : RegName) (c i j : Nat) (v : W32)
    : IssueHeld cc s₀ (s.setRgHi n c i j v) := by
  unfold State.setRgHi
  grind [IssueHeld.fields]

theorem IssueHeld.setRg64 (hk : IssueHeld cc s₀ s) (n : RegName) (c i j v : Nat) : IssueHeld cc s₀ (s.setRg64 n c i j v) := by
  unfold State.setRg64
  grind [IssueHeld.fields, IssueHeld.setRg, IssueHeld.setRgHi]

theorem IssueHeld.count (hk : IssueHeld cc s₀ s) (n : RegName) (c i k : Nat) : IssueHeld cc s₀ (s.count n c i k) := by
  unfold State.count
  grind [IssueHeld.fields, IssueHeld.setRg]

theorem IssueHeld.count64 (hk : IssueHeld cc s₀ s) (n : RegName) (c k : Nat) : IssueHeld cc s₀ (s.count64 n c k) := by
  unfold State.count64
  grind [IssueHeld.fields, IssueHeld.setRg64]

theorem IssueHeld.setSlot (hk : IssueHeld cc s₀ s) (c n : Nat) (x : Slot) : IssueHeld cc s₀ (s.setSlot c n x) := by
  unfold State.setSlot
  grind [IssueHeld.fields, IssueHeld.modCore]

theorem IssueHeld.send (hk : IssueHeld cc s₀ s) (o : Out) : IssueHeld cc s₀ (s.send o) := by
  unfold State.send
  grind [IssueHeld.fields]

theorem IssueHeld.act (hk : IssueHeld cc s₀ s) (c j n : Nat) : IssueHeld cc s₀ (s.act c j n) := by
  unfold State.act
  grind [IssueHeld.fields, IssueHeld.modCore]

theorem IssueHeld.mesh (hk : IssueHeld cc s₀ s) (c : Nat) (d : Option Nat) (n : Nat) : IssueHeld cc s₀ (s.mesh c d n) := by
  unfold State.mesh
  grind [IssueHeld.fields, IssueHeld.act]

theorem IssueHeld.setQuad (hk : IssueHeld cc s₀ s) (q : Nat) (x : QuadSt) : IssueHeld cc s₀ (s.setQuad q x) := by
  unfold State.setQuad
  grind [IssueHeld.fields]

theorem IssueHeld.ungate (hk : IssueHeld cc s₀ s) (c : Nat) : IssueHeld cc s₀ (s.ungate c) := by
  unfold State.ungate
  grind [IssueHeld.fields, IssueHeld.setQuad]

theorem IssueHeld.reqEvent (hk : IssueHeld cc s₀ s) (r : Req) (code cls detail : Nat)
    : IssueHeld cc s₀ (s.reqEvent r code cls detail) := by
  unfold State.reqEvent
  grind [IssueHeld.fields, IssueHeld.log]

theorem IssueHeld.coreEvent (hk : IssueHeld cc s₀ s) (c code cls detail : Nat)
    : IssueHeld cc s₀ (s.coreEvent c code cls detail) := by
  unfold State.coreEvent
  grind [IssueHeld.fields, IssueHeld.log]

theorem IssueHeld.access (hk : IssueHeld cc s₀ s) (r : Req) (a : Nat) : IssueHeld cc s₀ (s.access r a) := by
  unfold State.access
  grind [IssueHeld.fields, IssueHeld.reqEvent]

theorem IssueHeld.refuse (hk : IssueHeld cc s₀ s) (r : Req) (a : Nat) : IssueHeld cc s₀ (s.refuse r a) := by
  unfold State.refuse
  grind [IssueHeld.fields, IssueHeld.send, IssueHeld.access]

theorem IssueHeld.setSpad (hk : IssueHeld cc s₀ s) (c off : Nat) (bs : List Byte) : IssueHeld cc s₀ (s.setSpad c off bs) := by
  unfold State.setSpad
  grind [IssueHeld.fields, IssueHeld.setBytes]

theorem IssueHeld.putLine (hk : IssueHeld cc s₀ s) (l v : Nat) (bs : List Byte) (keep : Bool)
    : IssueHeld cc s₀ (s.putLine l v bs keep) := by
  unfold State.putLine
  grind [IssueHeld.fields, IssueHeld.setBytes]

theorem IssueHeld.setWay (hk : IssueHeld cc s₀ s) (st w : Nat) (x : Option PLine) : IssueHeld cc s₀ (s.setWay st w x) := by
  unfold State.setWay
  grind [IssueHeld.fields]

theorem IssueHeld.touch (hk : IssueHeld cc s₀ s) (st w : Nat) (h : Hint) : IssueHeld cc s₀ (s.touch st w h) := by
  unfold State.touch
  grind [IssueHeld.fields]

theorem IssueHeld.writeBack (hk : IssueHeld cc s₀ s) (x : PLine) : IssueHeld cc s₀ (s.writeBack x) := by
  unfold State.writeBack
  grind [IssueHeld.fields, IssueHeld.putLine]

theorem IssueHeld.allocate (hk : IssueHeld cc s₀ s) (st : Nat) (x : PLine) (h : Hint)
    : IssueHeld cc s₀ (s.allocate st x h) := by
  unfold State.allocate
  grind [IssueHeld.fields, IssueHeld.writeBack, IssueHeld.setWay, IssueHeld.touch]

theorem IssueHeld.countPantry (hk : IssueHeld cc s₀ s) (g : Nat) (hit : Bool) : IssueHeld cc s₀ (s.countPantry g hit) := by
  unfold State.countPantry
  grind [IssueHeld.fields, IssueHeld.count64]

theorem IssueHeld.readLine (hk : IssueHeld cc s₀ s) (h : Hint) (l : Nat) : IssueHeld cc s₀ (s.readLine h l).2.2 := by
  unfold State.readLine
  grind [IssueHeld.fields, IssueHeld.countPantry, IssueHeld.touch, IssueHeld.allocate]

theorem IssueHeld.cellarReadLines (hk : IssueHeld cc s₀ s) (h : Hint) (ls : List Nat) :
    IssueHeld cc s₀ (s.cellarReadLines h ls).2.2 := by
  induction ls generalizing s with
  | nil => simpa [State.cellarReadLines] using hk
  | cons x l ih =>
    unfold State.cellarReadLines
    grind [IssueHeld.readLine]

theorem IssueHeld.cellarRead (hk : IssueHeld cc s₀ s) (h : Hint) (a n : Nat) : IssueHeld cc s₀ (s.cellarRead h a n).2.2 := by
  unfold State.cellarRead
  grind [IssueHeld.fields, IssueHeld.cellarReadLines]

theorem IssueHeld.cellarRefuse (hk : IssueHeld cc s₀ s) (r : Req) (a : Nat) (w : CellarNo)
    : IssueHeld cc s₀ (s.cellarRefuse r a w) := by
  unfold State.cellarRefuse
  grind [IssueHeld.fields, IssueHeld.reqEvent, IssueHeld.send, IssueHeld.refuse]

theorem IssueHeld.spdErr (hk : IssueHeld cc s₀ s) (c kind num : Nat) (nowin : Bool := false)
    : IssueHeld cc s₀ (s.spdErr c kind num nowin) := by
  unfold State.spdErr
  grind [IssueHeld.fields, IssueHeld.setRg]

theorem IssueHeld.slotTouch (hk : IssueHeld cc s₀ s) (c off len : Nat) (wr : Bool)
    : IssueHeld cc s₀ (s.slotTouch c off len wr) := by
  unfold State.slotTouch
  grind [IssueHeld.fields, IssueHeld.each, IssueHeld.setSlot]

theorem IssueHeld.slotClass (hk : IssueHeld cc s₀ s) (c n : Nat) (r : Option Req) (wr : Bool) (cls : Nat)
    : IssueHeld cc s₀ (s.slotClass c n r wr cls) := by
  unfold State.slotClass
  grind [IssueHeld.fields, IssueHeld.spdErr, IssueHeld.log, IssueHeld.coreEvent]

theorem IssueHeld.stallOn (hk : IssueHeld cc s₀ s) (c : Nat) (x : Stall) : IssueHeld cc s₀ (s.stallOn c x) := by
  unfold State.stallOn
  grind [IssueHeld.fields, IssueHeld.modCore, IssueHeld.setRg]

theorem IssueHeld.wordAct (hk : IssueHeld cc s₀ s) (c off len : Nat) : IssueHeld cc s₀ (s.wordAct c off len) := by
  unfold State.wordAct
  grind [IssueHeld.fields, IssueHeld.act]

theorem IssueHeld.ringHook (hk : IssueHeld cc s₀ s) (c off : Nat) (bs : List Byte) : IssueHeld cc s₀ (s.ringHook c off bs) := by
  unfold State.ringHook
  grind [IssueHeld.fields, IssueHeld.modSeq]

theorem IssueHeld.store (hk : IssueHeld cc s₀ s) (c off : Nat) (bs : List Byte) : IssueHeld cc s₀ (s.store c off bs) := by
  unfold State.store
  grind [IssueHeld.fields, IssueHeld.setSpad, IssueHeld.ringHook, IssueHeld.wordAct]

theorem IssueHeld.spadWrite (hk : IssueHeld cc s₀ s) (c off : Nat) (bs : List Byte) (cls : Nat)
    : IssueHeld cc s₀ (s.spadWrite c off bs cls).2 := by
  unfold State.spadWrite
  grind [IssueHeld.fields, IssueHeld.slotClass, IssueHeld.slotTouch, IssueHeld.store]

theorem IssueHeld.winRefuse (hk : IssueHeld cc s₀ s) (r : Req) (c off : Nat) : IssueHeld cc s₀ (s.winRefuse r c off) := by
  unfold State.winRefuse
  grind [IssueHeld.fields, IssueHeld.spdErr, IssueHeld.reqEvent, IssueHeld.send]

theorem IssueHeld.lineAct (hk : IssueHeld cc s₀ s) (r : Req) (a n : Nat) : IssueHeld cc s₀ (s.lineAct r a n) := by
  unfold State.lineAct
  grind [IssueHeld.fields, IssueHeld.act, IssueHeld.mesh]

theorem IssueHeld.spadAct (hk : IssueHeld cc s₀ s) (r : Req) (c n : Nat) : IssueHeld cc s₀ (s.spadAct r c n) := by
  unfold State.spadAct
  grind [IssueHeld.fields, IssueHeld.mesh]

theorem IssueHeld.readCellar (hk : IssueHeld cc s₀ s) (r : Req) (h : Hint) (a n : Nat)
    : IssueHeld cc s₀ (s.readCellar r h a n).2 := by
  unfold State.readCellar
  grind [IssueHeld.fields, IssueHeld.cellarRefuse, IssueHeld.lineAct, IssueHeld.cellarRead]

theorem IssueHeld.readAtSlots (hk : IssueHeld cc s₀ s) (r : Req) (c off n : Nat)
    : IssueHeld cc s₀ (s.readAtSlots r c off n).2 := by
  unfold State.readAtSlots
  grind [IssueHeld.fields, IssueHeld.slotClass, IssueHeld.slotTouch, IssueHeld.wordAct, IssueHeld.spadAct, IssueHeld.ungate]

theorem IssueHeld.readSpad (hk : IssueHeld cc s₀ s) (r : Req) (c off n : Nat) : IssueHeld cc s₀ (s.readSpad r c off n).2 := by
  unfold State.readSpad
  grind [IssueHeld.fields, IssueHeld.refuse, IssueHeld.winRefuse, IssueHeld.readAtSlots]

theorem IssueHeld.readMem (hk : IssueHeld cc s₀ s) (r : Req) (h : Hint) (a n : Nat)
    : IssueHeld cc s₀ (s.readMem r h a n).2 := by
  unfold State.readMem
  grind [IssueHeld.fields, IssueHeld.readCellar, IssueHeld.readSpad, IssueHeld.refuse]

theorem IssueHeld.setScalar (hk : IssueHeld cc s₀ s) (c n v : Nat) : IssueHeld cc s₀ (s.setScalar c n v) := by
  unfold State.setScalar
  grind [IssueHeld.fields, IssueHeld.setRg64]

end Sys2Proof.Machine
end

section
set_option Elab.async false
/-! What shared operations leave unchanged. -/

namespace Sys2Proof
open Sys2Proof.Machine
variable {ps : List Part} {s₀ s t u : State} {c cc : Nat}

theorem only.modSess (hk : only ps s₀ s) (m1 : Part.ses ∈ ps) (n : Nat) (f : Session → Session)
    : only ps s₀ (s.modSess n f) := by
  unfold State.modSess
  grind [only.fields]

theorem only.spendOn (hk : only ps s₀ s) (m1 : Part.ses ∈ ps) (m2 : Part.mtr ∈ ps) (c e : Nat)
    : only ps s₀ (s.spendOn c e) := by
  unfold State.spendOn
  grind [only.fields, only.modSess]

theorem only.arrDrop (hk : only ps s₀ s) (m1 : Part.cores ∈ ps) (c h : Nat) : only ps s₀ (s.arrDrop c h) := by
  unfold State.arrDrop
  grind [only.fields, only.modArr, only.arrLeave]

theorem only.dropWork (hk : only ps s₀ s) (m1 : Part.cores ∈ ps) (c h : Nat) : only ps s₀ (s.dropWork c h) := by
  unfold State.dropWork
  grind [only.fields, only.modCore, only.arrDrop]

theorem only.releaseSlots (hk : only ps s₀ s) (m1 : Part.cores ∈ ps) (c h : Nat) : only ps s₀ (s.releaseSlots c h) := by
  unfold State.releaseSlots
  exact (hk.each _ _ fun t n ht => ht.slotRelease m1 _ _ _).each _ _ fun t n ht => ht.slotRelease m1 _ _ _

theorem only.freeTile (hk : only ps s₀ s) (m1 : Part.cores ∈ ps) (c h : Nat) : only ps s₀ (s.freeTile c h) := by
  unfold State.freeTile
  grind [only.fields, only.dropWork, only.unstall, only.modTile, only.modSeq]

theorem onlyCore.modSess (hk : onlyCore cc s₀ s) (n : Nat) (f : Session → Session) : onlyCore cc s₀ (s.modSess n f) := by
  unfold State.modSess
  grind [onlyCore.fields]

theorem onlyCore.setScalar (hk : onlyCore cc s₀ s) (c n v : Nat) : onlyCore cc s₀ (s.setScalar c n v) := by
  unfold State.setScalar
  grind [onlyCore.fields, onlyCore.setRg64]

theorem onlyCore.answerClaim (hk : onlyCore c s₀ s) (h : Nat) (r : CRec) : onlyCore c s₀ (s.answerClaim c h r) := by
  unfold State.answerClaim
  grind [onlyCore.fields, onlyCore.spadWrite, onlyCore.setScalar, onlyCore.modCore, onlyCore.modTile, onlyCore.seqDone]

theorem onlyCore.spendOn (hk : onlyCore cc s₀ s) (c e : Nat) : onlyCore cc s₀ (s.spendOn c e) := by
  unfold State.spendOn
  grind [onlyCore.fields, onlyCore.modSess]

theorem onlyCore.takeItem (hk : onlyCore cc s₀ s) (d c h : Nat) (q : QItem) : onlyCore cc s₀ (s.takeItem d c h q) := by
  unfold State.takeItem
  grind [onlyCore.fields, onlyCore.modDisp, onlyCore.settle]

theorem onlyCore.dropClaim (hk : onlyCore cc s₀ s) (d : Nat) (r : ClaimReq) : onlyCore cc s₀ (s.dropClaim d r) := by
  unfold State.dropClaim
  grind [onlyCore.fields, onlyCore.modDisp]

end Sys2Proof
end

section
set_option Elab.async false
/-! What counting a stale commit leaves of a tile. -/

namespace Sys2Proof.Machine
open Sys2Proof
variable {s₀ s t u : State} {c cc hh : Nat}

/-- The tile's commit stays. -/
def CommitHeld (c h : Nat) (s t : State) : Prop := (t.tile c h).commit = (s.tile c h).commit

theorem CommitHeld.refl (c h : Nat) (s : State) : CommitHeld c h s s := rfl

theorem CommitHeld.of_tile_eq (hk : CommitHeld cc hh s₀ s) (e : t.tile cc hh = s.tile cc hh) : CommitHeld cc hh s₀ t := by
  rwa [CommitHeld, e]

theorem CommitHeld.of_cores_eq (hk : CommitHeld cc hh s₀ s) (e : t.cores = s.cores) : CommitHeld cc hh s₀ t :=
  hk.of_tile_eq (by rw [State.tile, State.tile, State.core, State.core, e])

theorem CommitHeld.fields (hk : CommitHeld cc hh s₀ s) {a1 a2 a3 a4 a5 a6 a7 a9 a10 a11 a12 a13 a14 a15 a16 a17 a18 a19 a20 a21} :
    CommitHeld cc hh s₀ (State.mk a1 a2 a3 a4 a5 a6 a7 s.cores a9 a10 a11 a12 a13 a14 a15 a16 a17 a18 a19 a20 a21) := hk.of_cores_eq rfl

theorem CommitHeld.modCore (hk : CommitHeld cc hh s₀ s) (c : Nat) (f : Core → Core) (hf : ∀ k, (f k).tiles = k.tiles) : CommitHeld cc hh s₀ (s.modCore c f) :=
  hk.of_tile_eq (by
    by_cases hc : cc = c
    · subst hc
      exact State.tile_modCore cc f hh hf
    · rw [State.tile, State.core_modCore_ne s f hc]
      rfl)

theorem CommitHeld.modTile (hk : CommitHeld cc hh s₀ s) (c h : Nat) (f : Tile → Tile) (hf : ∀ t, (f t).commit = t.commit) :
    CommitHeld cc hh s₀ (s.modTile c h f) := by
  by_cases hc : cc = c
  · subst hc
    by_cases hh' : hh = h
    · subst hh'
      have e := hf (s.tile cc hh)
      unfold CommitHeld at *
      rw [State.tile_modTile_self]
      simp only [e]
      exact hk
    · exact hk.of_tile_eq (State.tile_modTile_ne s f hh')
  · exact hk.of_tile_eq (by rw [State.tile, State.modTile, State.core_modCore_ne s _ hc]; rfl)

theorem CommitHeld.each {α : Type} (hk : CommitHeld cc hh s₀ s) (l : List α) (f : State → α → State)
    (hf : ∀ t x, CommitHeld cc hh s₀ t → CommitHeld cc hh s₀ (f t x)) : CommitHeld cc hh s₀ (s.each l f) := State.each_inv s (CommitHeld cc hh s₀) l f hf hk

theorem CommitHeld.log (hk : CommitHeld cc hh s₀ s) (e : Event) : CommitHeld cc hh s₀ (s.log e) := hk.of_cores_eq (State.log_cores s e)

theorem CommitHeld.setRg (hk : CommitHeld cc hh s₀ s) (n : RegName) (c i j : Nat) (v : W32)
    : CommitHeld cc hh s₀ (s.setRg n c i j v) := by
  unfold State.setRg
  grind [CommitHeld.fields]

theorem CommitHeld.count (hk : CommitHeld cc hh s₀ s) (n : RegName) (c i k : Nat) : CommitHeld cc hh s₀ (s.count n c i k) := by
  unfold State.count
  grind [CommitHeld.fields, CommitHeld.setRg]

theorem CommitHeld.setSlot (hk : CommitHeld cc hh s₀ s) (c n : Nat) (x : Slot) : CommitHeld cc hh s₀ (s.setSlot c n x) := by
  unfold State.setSlot
  grind [CommitHeld.fields, CommitHeld.modCore]

theorem CommitHeld.modDisp (hk : CommitHeld cc hh s₀ s) (d : Nat) (f : Disp → Disp) : CommitHeld cc hh s₀ (s.modDisp d f) := by
  unfold State.modDisp
  grind [CommitHeld.fields]

theorem CommitHeld.slotRelease (hk : CommitHeld cc hh s₀ s) (c n cls : Nat) : CommitHeld cc hh s₀ (s.slotRelease c n cls) := by
  unfold State.slotRelease
  grind [CommitHeld.fields, CommitHeld.setSlot]

theorem CommitHeld.settle (hk : CommitHeld cc hh s₀ s) (d : Nat) : CommitHeld cc hh s₀ (s.settle d) := by
  unfold State.settle
  grind [CommitHeld.fields, CommitHeld.modDisp]

theorem CommitHeld.flagTile (hk : CommitHeld cc hh s₀ s) (c h : Nat) (l : List Nat)
    : CommitHeld cc hh s₀ (s.flagTile c h l) := by
  unfold State.flagTile
  grind [CommitHeld.fields, CommitHeld.modTile]

theorem CommitHeld.tileEvent (hk : CommitHeld cc hh s₀ s) (c h code cls detail : Nat)
    : CommitHeld cc hh s₀ (s.tileEvent c h code cls detail) := by
  unfold State.tileEvent
  grind [CommitHeld.fields, CommitHeld.log]

theorem CommitHeld.releaseSlots (hk : CommitHeld cc hh s₀ s) (c h : Nat) : CommitHeld cc hh s₀ (s.releaseSlots c h) := by
  unfold State.releaseSlots
  exact (hk.each _ _ fun t n h => h.slotRelease _ _ _).each _ _ fun t n h => h.slotRelease _ _ _

end Sys2Proof.Machine
end

section
set_option Elab.async false
/-! Claims and commits (R324, R325, R327, R355). -/

namespace Sys2Proof.Machine
open Sys2Proof
variable {s t u v : State}

/-! ### Fields of packed words -/

theorem bits_pack_head (n v : Nat) (fs : List (Nat × Nat)) : bits (pack ((n, v) :: fs)) 0 n = v % 2 ^ n := by
  rw [bits, pack, Nat.shiftRight_zero, Nat.add_mul_mod_self_left, Nat.mod_mod]

theorem bits_pack_tail (n v lo m : Nat) (fs : List (Nat × Nat)) : bits (pack ((n, v) :: fs)) (n + lo) m = bits (pack fs) lo m := by
  rw [bits, bits, pack, Nat.shiftRight_add, Nat.shiftRight_eq_div_pow _ n, Nat.add_mul_div_left _ _ (Nat.two_pow_pos n),
    Nat.div_eq_of_lt (Nat.mod_lt _ (Nat.two_pow_pos n)), Nat.zero_add]

theorem bits_mod_two_pow {x lo n m : Nat} (h : lo + n ≤ m) : bits (x % 2 ^ m) lo n = bits x lo n := by
  refine Nat.eq_of_testBit_eq fun b => ?_
  rw [testBit_bits, testBit_bits, Nat.testBit_mod_two_pow]
  by_cases hb : b < n
  · simp [hb, show lo + b < m by omega]
  · simp [hb]

/-- The status of a claim record. -/
theorem bits_status {status floor : Nat} {guard : Bool} (hs : status ∈ [1, 2, 3, 4]) :
    bits (mkRec 0 0 status floor guard false 0 0 0 0 0).toNat 48 4 = status := by
  have h0 : status ≠ 0 ∧ status < 16 := by simp at hs; omega
  obtain ⟨h0, h16⟩ := h0
  rw [mkRec, if_neg h0, BitVec.toNat_ofNat, bits_mod_two_pow (by decide), bits_pack_tail 32 0 16, bits_pack_tail 16 0 0,
    bits_pack_head]
  exact Nat.mod_eq_of_lt h16

/-- The record of an item has status 0. -/
theorem CRec.status_mkRec_zero (tile epoch floor : Nat) (guard close : Bool) (kpart cb cm cn bkt : Nat) :
    CRec.status (mkRec tile epoch 0 floor guard close kpart cb cm cn bkt) = 0 := by
  rw [CRec.status, fld, mkRec, if_pos rfl, BitVec.toNat_ofNat, bits_mod_two_pow (by decide)]
  exact (bits_pack_tail 32 _ 16 4 _).trans ((bits_pack_tail 16 _ 0 4 _).trans (bits_pack_head 4 0 _))

theorem Disp.status_record (x : Disp) (q : QItem) : CRec.status (x.record q) = 0 := by
  unfold Disp.record
  split <;> exact CRec.status_mkRec_zero ..

/-! ### Answering a claim -/

theorem IssueHeld.tile {c : Nat} (h : IssueHeld c s t) (k : Nat) : t.tile c k = s.tile c k := by
  obtain ⟨-, -, -, -, -, ht⟩ := h
  rw [State.tile, State.tile, Core.tile, Core.tile, ht]

theorem IssueHeld.curCtx {c : Nat} (h : IssueHeld c s t) : t.curCtx c = s.curCtx c := by
  obtain ⟨-, -, -, -, hx, -⟩ := h
  rw [State.curCtx, State.curCtx, hx]

theorem IssueHeld.completes {c : Nat} (h : IssueHeld c s t) : completes c s (t.seqDone c) := by
  obtain ⟨hr, -, hh, hp, -, -⟩ := h
  exact completes_seqDone hr hh hp

/-- The record is stored and its low half is in the scalar, before the handle takes it. -/
def State.recorded (s : State) (c sd raddr : Nat) (r : CRec) : State :=
  (((s.spadWrite c (raddr * 32) (toLe 16 r.toNat) pSeq).2.setScalar c sd (r.toNat % 2 ^ 64)).modCore c
    (fun k => { k with lastFloor := r.floor }))

theorem IssueHeld.recorded {c sd raddr : Nat} {r : CRec} (h : IssueHeld c s t) : IssueHeld c s (t.recorded c sd raddr r) :=
  ((h.spadWrite ..).setScalar ..).modCore _ _ fun _ => ⟨rfl, rfl, rfl, rfl, rfl, rfl⟩

/-- The handle of a claim that got an item. -/
def State.claimed (s : State) (c : Nat) (r : CRec) : Tile :=
  { st := .claimed, rec_ := r, ctx := ((s.curCtx c).getD {}).id, setRung := ((s.curCtx c).getD {}).nextRung }

theorem State.answerClaim_waiting {c h sd raddr : Nat} {r : CRec} (hw : (s.core c).seq.wait = .claim h sd raddr) :
    s.answerClaim c h r = (if r.status = 0 then
      (s.recorded c sd raddr r).modTile c h (fun _ => (s.recorded c sd raddr r).claimed c r)
      else s.recorded c sd raddr r).seqDone c := by
  simp only [State.answerClaim, hw, if_true]
  rfl

theorem State.tile_seqDone (c h : Nat) : (s.seqDone c).tile c h = s.tile c h := by
  rw [State.tile, State.core_seqDone]
  rfl

/-- A claim that is answered with a status alone: the sequencer goes on, its tiles stay, the status is in the scalar. -/
theorem State.answerClaim_status {c h sd raddr status floor : Nat} {guard : Bool} (hc : (t.core c) = s.core c)
    (hw : (s.core c).seq.wait = .claim h sd raddr) (hs : status ∈ [1, 2, 3, 4]) :
    completes c s (t.answerClaim c h (mkRec 0 0 status floor guard false 0 0 0 0 0)) ∧
    (t.answerClaim c h (mkRec 0 0 status floor guard false 0 0 0 0 0)).tile c h = s.tile c h ∧
    fld (BitVec.ofNat 64 ((t.answerClaim c h (mkRec 0 0 status floor guard false 0 0 0 0 0)).scalar c sd)) 51 48 = status := by
  have hst := bits_status (floor := floor) (guard := guard) hs
  have hne : CRec.status (mkRec 0 0 status floor guard false 0 0 0 0 0) ≠ 0 := by
    rw [CRec.status, fld, show 51 + 1 - 48 = 4 from rfl, hst]
    simp at hs
    omega
  have hk : IssueHeld c s (t.recorded c sd raddr (mkRec 0 0 status floor guard false 0 0 0 0 0)) :=
    ((IssueHeld.refl c s).of_core_eq hc).recorded
  rw [State.answerClaim_waiting (by rw [hc]; exact hw), if_neg hne]
  refine ⟨hk.completes, (State.tile_seqDone _ _).trans (hk.tile h), ?_⟩
  rw [State.scalar_of_regs_eq (State.seqDone_regs c)]
  have hsc : (t.recorded c sd raddr (mkRec 0 0 status floor guard false 0 0 0 0 0)).scalar c sd =
      (mkRec 0 0 status floor guard false 0 0 0 0 0).toNat % 2 ^ 64 % 2 ^ 64 := State.scalar_setScalar c sd _
  rw [hsc, fld, BitVec.toNat_ofNat, bits_mod_two_pow (by decide), bits_mod_two_pow (by decide), bits_mod_two_pow (by decide)]
  exact hst

/-- A claim that is answered with an item: the sequencer goes on, the handle is CLAIMED with the record. -/
theorem State.answerClaim_item {c h sd raddr : Nat} {r : CRec} (hc : (t.core c) = s.core c)
    (hw : (s.core c).seq.wait = .claim h sd raddr) (hr : r.status = 0) :
    completes c s (t.answerClaim c h r) ∧ (t.answerClaim c h r).tile c h = s.claimed c r := by
  have hk : IssueHeld c s (t.recorded c sd raddr r) := ((IssueHeld.refl c s).of_core_eq hc).recorded
  rw [State.answerClaim_waiting (by rw [hc]; exact hw), if_pos hr]
  refine ⟨?_, ?_⟩
  · obtain ⟨hrd, -, hh, hp, -, -⟩ := hk
    refine completes_seqDone ?_ ?_ ?_ <;> simpa [State.modTile] using ‹_›
  · rw [State.tile_seqDone, State.tile_modTile_self, State.claimed, State.claimed, hk.curCtx]

/-! ### Serving a claim -/

theorem execClaimServe_serves {d : DispId} {r : ClaimReq} {l : List ClaimReq} (hl : (s.disp d.val).claims = r :: l)
    (hh : r.held = false) (hq : (s.disp d.val).quiesced = false) : exec (.claimServe d) s = .next (s.serveClaim d.val r) := by
  simp [exec, execClaimServe, hl, hh, hq]

theorem State.serveClaim_status {d : Nat} {r : ClaimReq} (h : s.claimStatus d r.core ≠ 0) :
    s.serveClaim d r = (s.dropClaim d r).answerClaim r.core r.h
      (mkRec 0 0 (s.claimStatus d r.core) (s.disp d).floor (s.disp d).guard false 0 0 0 0 0) := by
  simp only [State.serveClaim, h, ne_eq, not_false_eq_true, if_true]

/-- The joules that a claim of an item is estimated to spend. -/
def State.claimCost (s : State) (d core : Nat) (q : QItem) : Nat :=
  s.estimate (s.disp d).desc (s.disp d).alen ((s.disp d).record q)
    (Desc.rung (s.disp d).desc (max ((s.curCtx core).getD {}).nextRung (s.disp d).floor))

theorem State.serveClaim_item {d : Nat} {r : ClaimReq} {q : QItem} (h : s.claimStatus d r.core = 0) (hi : (s.disp d).item = some q)
    (ha : s.admits r.core (s.claimCost d r.core q) = true) :
    s.serveClaim d r = ((((s.dropClaim d r).spendOn r.core (s.claimCost d r.core q)).takeItem d r.core r.h q).answerClaim r.core r.h
      ((s.disp d).record q)) := by
  have ha' := ha
  unfold State.claimCost at ha'
  simp only [State.serveClaim, h, ne_eq, not_true_eq_false, if_false, hi, ha', if_true]
  rfl

theorem State.sdt_spendOn (c e : Nat) : (s.spendOn c e).sdt = s.sdt :=
  State.sdt_of_only ((only.refl [.ses, .mtr] s).spendOn (by simp) (by simp) c e) (by simp)

theorem State.cores_spendOn (c e : Nat) : (s.spendOn c e).cores = s.cores :=
  (((only.refl [.ses, .mtr] s).spendOn (by simp) (by simp) c e) .cores).resolve_left (by simp)

theorem State.cores_settle (d : Nat) : (s.settle d).cores = s.cores :=
  (((only.refl [.sdt] s).settle (by simp) d) .cores).resolve_left (by simp)

theorem State.core_of_cores_eq {c : Nat} (e : t.cores = s.cores) : t.core c = s.core c := by rw [State.core, State.core, e]

theorem State.core_takeItem (d c h : Nat) (q : QItem) (k : Nat) : (s.takeItem d c h q).core k = s.core k :=
  State.core_of_cores_eq (by
    unfold State.takeItem
    rw [State.cores_settle]
    rfl)

/-- What taking an item leaves of the claims: one more is open. -/
theorem State.claims_takeItem (d c h : Nat) (q : QItem) : (s.takeItem d c h q).sdt.claims =
    s.sdt.claims ++ [{ core := c, h := h, disp := d, tile := q.tile, close := q.close, epoch := (s.disp d).epoch }] := by
  unfold State.takeItem
  rw [State.settle_claims]
  rfl

theorem State.disp_takeItem (d c h : Nat) (q : QItem) : ((s.takeItem d c h q).disp d).claims = (s.disp d).claims ∧
    ((s.takeItem d c h q).disp d).queue = (s.disp d).queue.drop 1 := by
  unfold State.takeItem
  extract_lets x rows t
  obtain ⟨st, co, hd⟩ := State.disp_settle (s := { t with sdt := { t.sdt with
    claims := t.sdt.claims ++ [{ core := c, h := h, disp := d, tile := q.tile, close := q.close, epoch := x.epoch }]
    hub := t.sdt.hub ++ rows.map (fun r => ({ disp := d, row := r, cnt := 0 } : HubRow)) } }) d
  rw [hd]
  change ((t.disp d).settled st co).claims = _ ∧ ((t.disp d).settled st co).queue = _
  rw [State.disp_modDisp_self]
  exact ⟨rfl, rfl⟩

theorem onlyDisp_takeItem {d : Nat} (c h : Nat) (q : QItem) (hk : onlyDisp d s t) : onlyDisp d s (t.takeItem d c h q) := by
  unfold State.takeItem
  extract_lets x rows v
  refine onlyDisp_settle (onlyDisp.of_disp_eq (s := v) (hk.modDisp _) fun _ => rfl)

/-! ### Commits -/

theorem State.claimAt_disp {c d tile epoch : Nat} {e : Claim} (h : s.claimAt c d tile epoch = some e) : e.disp = d := by
  have hm : e ∈ s.sdt.claims.filter (fun x => x.core = c && x.disp = d && x.tile = tile && x.epoch = epoch) := by
    unfold State.claimAt at h
    extract_lets l at h
    rcases hf : l.find? (fun x => !x.stale) with _ | y
    · rw [hf, Option.none_or] at h
      exact List.mem_of_head? h
    · rw [hf, Option.some_or, Option.some.injEq] at h
      exact h ▸ List.mem_of_find?_eq_some hf
  have := (List.mem_filter.1 hm).2
  simp only [Bool.and_eq_true, decide_eq_true_eq] at this
  exact this.1.1.2

/-- The state with a commit that is under way taken from the list. -/
def State.resolving (s : State) (c h : Nat) : State :=
  { s with sdt := { s.sdt with commits := s.sdt.commits.filter (· ≠ (c, h)) } }

theorem execCommitResolve_accepts {c : CoreId} {h : Handle} {e : Claim} {q : CommitReq}
    (hc : s.sdt.commits.contains (c.val, h.val) = true)
    (he : s.claimAt c.val (Desc.disp (s.tileDesc c.val h.val)) (CRec.tile (s.tile c.val h.val).rec_)
      (CRec.epoch (s.tile c.val h.val).rec_) = some e)
    (hs : e.stale = false) (hq : (s.tile c.val h.val).commit = some q) (hst : q.store = false) :
    exec (.commitResolve c h) s = .next (((s.resolving c.val h.val).accept c.val h.val e).commitDone c.val h.val true) := by
  change execCommitResolve c h s = _
  unfold execCommitResolve
  extract_lets c' h' sd s0 t d e'
  have he' : e' = some e := he
  have hq' : t.commit = some q := hq
  rw [if_pos hc, he']
  simp only [hs, hq', hst, Bool.false_and, Bool.false_eq_true, if_false]
  rfl

theorem execCommitResolve_none {c : CoreId} {h : Handle} (hc : s.sdt.commits.contains (c.val, h.val) = true)
    (he : s.claimAt c.val (Desc.disp (s.tileDesc c.val h.val)) (CRec.tile (s.tile c.val h.val).rec_)
      (CRec.epoch (s.tile c.val h.val).rec_) = none) :
    exec (.commitResolve c h) s = .next (((s.resolving c.val h.val).stale c.val h.val none).commitDone c.val h.val false) := by
  change execCommitResolve c h s = _
  unfold execCommitResolve
  extract_lets c' h' sd s0 t d e'
  have he' : e' = none := he
  rw [if_pos hc, he']
  rfl

theorem State.tile_modSeq (c : Nat) (f : Seq → Seq) (h : Nat) : (s.modSeq c f).tile c h = s.tile c h :=
  State.tile_modCore c _ h (by exact fun _ => rfl)

/-- A handle that is freed is FREE. -/
theorem State.tile_freeTile (c h : Nat) : (s.freeTile c h).tile c h = {} := by
  rw [State.freeTile, State.tile_modSeq, State.tile_modTile_self]

theorem State.tile_commitDone (c h : Nat) (ok : Bool) : (s.commitDone c h ok).tile c h = {} := State.tile_freeTile c h

/-- A dispenser that has counted one more commit. -/
def Disp.counted (y : Disp) : Disp := { y with done := min (y.done + 1) (2 ^ 32 - 1) }

/-- What accepting a commit does once its claim is closed and counted leaves the claims and what is done. -/
theorem State.accept_held (c h : Nat) (e : Claim) :
    ClaimsHeld e.disp ((s.closeClaim e).modDisp e.disp Disp.counted) (s.accept c h e) := by
  unfold State.accept
  extract_lets d x s1 sd t s2 s3
  have h1 : ClaimsHeld e.disp s1 s1 := ClaimsHeld.refl _ _
  have h2 : ClaimsHeld e.disp s1 s2 := by
    have ht : ClaimsHeld e.disp s1 t := by
      simp only [t]
      split
      · exact h1.addPart ..
      · exact h1
    simp only [s2]
    split
    · exact h1.fields ⟨rfl, rfl, rfl⟩
    · split
      · exact ht.countPart ..
      · split
        · exact h1.countHub ..
        · exact h1
  have h3 : ClaimsHeld e.disp s1 s3 := by
    simp only [s3]
    split
    · exact h2.slotFull ..
    · exact h2
  exact (h3.releaseSlots ..).settle ..

/-- Accepting a commit closes its claim and counts it. -/
theorem State.accept_claims (c h : Nat) (e : Claim) :
    (s.accept c h e).sdt.claims = s.sdt.claims.erase e ∧ (s.accept c h e).sdt.commits = s.sdt.commits ∧
      ((s.accept c h e).disp e.disp).done = (s.disp e.disp).counted.done := by
  obtain ⟨k1, k2, k3⟩ := State.accept_held (s := s) c h e
  rw [State.disp_modDisp_self] at k3
  exact ⟨k1, k2, k3⟩

theorem State.commits_resolving (c h : Nat) : (c, h) ∉ (s.resolving c h).sdt.commits := by
  simp [State.resolving]

/-- A stale commit that closes no claim leaves the claims, the commits and what is done. -/
theorem State.stale_claims (d c h : Nat) : ClaimsHeld d s (s.stale c h none) := by
  unfold State.stale
  extract_lets t d' n s1 sd s2 s3
  have h2 : ClaimsHeld d s s2 := (ClaimsHeld.refl d s).fields ⟨rfl, rfl, rfl⟩
  exact ((((h2.count ..).setRg ..).flagTile ..).tileEvent .. |>.releaseSlots ..).settle ..

/-! ### Counting a duplicate -/

/-- Where the log counts its events. -/
def logCounters : List RegName := [.evtLost, .evtCntC, .evtCntT, .evtCntP, .evtCntD]

theorem classCounter_mem {k : Nat} {n : RegName} (h : classCounter k = some n) : n ∈ logCounters := by
  unfold classCounter at h
  split at h <;> cases h <;> decide

/-- An event that is logged leaves every register but the log's own counters. -/
theorem State.rg_log {n : RegName} {c i j : Nat} (e : Event) (h : ∀ m ∈ logCounters, regAddr n c i j ≠ regAddr m 0 0 0) :
    (s.log e).rg n c i j = s.rg n c i j := by
  have hcount (t : State) (m : RegName) (hm : m ∈ logCounters) : (t.count m 0 0 1).rg n c i j = t.rg n c i j :=
    State.rg_setRg_ne t _ (h m hm)
  unfold State.log
  extract_lets e1 ev s1 s2 s3
  have h2 : s2.rg n c i j = s.rg n c i j := by
    simp only [s2]
    split
    · rfl
    · exact hcount s1 .evtLost (by decide)
  have h3 : s3.rg n c i j = s.rg n c i j := by
    simp only [s3]
    split
    · next m hm => exact (hcount s2 m (classCounter_mem hm)).trans h2
    · exact h2
  refine State.each_inv _ (fun t => t.rg n c i j = s.rg n c i j) _ _ (fun t x ht => ?_) h3
  unfold State.modSess
  split <;> exact ht

/-- A dispenser's count of duplicates stands apart from the log's counters. -/
theorem sdtDup_apart_log (d : Nat) (hd : d < 64) : ∀ m ∈ logCounters, regAddr .sdtDup 0 d 0 ≠ regAddr m 0 0 0 := by
  have ha : regAddr .sdtDup 0 d 0 = 0x21000000028 + d * 0x100 := by simp [regAddr, RegName.row, Blk.isCore, Blk.base]
  have hm : ∀ m ∈ logCounters, 0x21000A00000 ≤ regAddr m 0 0 0 := by decide
  intro m h
  have := hm m h
  omega

/-- A scalar that is written leaves the count of duplicates. -/
theorem State.rg_sdtDup_setScalar {c sd d v : Nat} (hsd : sd < 8) :
    (s.setScalar c sd v).rg .sdtDup 0 d = s.rg .sdtDup 0 d := by
  have ha : regAddr .sdtDup 0 d 0 = 0x21000000028 + d * 0x100 := by simp [regAddr, RegName.row, Blk.isCore, Blk.base]
  have hs : regAddr .seqS c sd 0 = 0x020000004040 + c * 0x10000 + sd * 8 := by
    simp [regAddr, RegName.row, Blk.isCore, Blk.base, ctlBase]
    omega
  exact State.rg_setRg64_far (by rw [ha, hs]; omega)

theorem State.counted_sdtDup_stale (c h : Nat) (hd : Desc.disp (s.tileDesc c h) < 64) :
    counted .sdtDup 0 (Desc.disp (s.tileDesc c h)) 1 s (s.stale c h none) := by
  unfold State.stale
  extract_lets t d n s1 sd s2 s3
  have h3 : s3.rg .sdtDup 0 d = BitVec.ofNat 32 (satAdd 32 (s.rg .sdtDup 0 d).toNat 1) := by
    have hne : regAddr .sdtDup 0 d 0 ≠ regAddr .sdtLastdup 0 d 0 := by
      simp [regAddr, RegName.row, Blk.isCore, Blk.base]
    exact (State.rg_setRg_ne _ _ hne).trans (State.rg_setRg_self _ _ _ _ _ _)
  have h4 : (s3.tileEvent c h 0x0501 0 (s3.tileTsw c h).toNat).rg .sdtDup 0 d = s3.rg .sdtDup 0 d :=
    State.rg_log _ (sdtDup_apart_log d hd)
  have hr : (((s3.tileEvent c h 0x0501 0 (s3.tileTsw c h).toNat).releaseSlots c h).settle d).regs =
      (s3.tileEvent c h 0x0501 0 (s3.tileTsw c h).toNat).regs :=
    State.regs_of_only (ps := [.cores, .sdt]) (((only.refl _ _).releaseSlots (by simp) c h).settle (by simp) d) (by simp)
  exact (State.rg_of_regs_eq hr).trans (h4.trans h3)

theorem Desc.disp_lt (x : Desc) : Desc.disp x < 64 := Nat.mod_lt _ (by decide)

/-- Ending a commit leaves the count of duplicates. -/
theorem State.rg_sdtDup_commitDone {c h d : Nat} {ok : Bool} (hq : ∀ q, (s.tile c h).commit = some q → q.sd < 8) :
    (s.commitDone c h ok).rg .sdtDup 0 d = s.rg .sdtDup 0 d := by
  have hfree (t : State) : (t.freeTile c h).rg .sdtDup 0 d = t.rg .sdtDup 0 d :=
    State.rg_of_regs_eq (State.regs_of_only ((only.refl [.cores] t).freeTile (by simp) c h) (by simp))
  unfold State.commitDone
  extract_lets w u
  refine (hfree u).trans ?_
  simp only [u]
  split
  · next k q _ hk =>
    split
    · exact (State.rg_of_regs_eq (State.seqDone_regs c)).trans (State.rg_sdtDup_setScalar (hq q hk))
    · rfl
  · rfl

/-- A tile's handle keeps its commit while a stale one is counted. -/
theorem State.commit_stale (c h : Nat) : ((s.stale c h none).tile c h).commit = (s.tile c h).commit := by
  have hk : CommitHeld c h s (s.stale c h none) := by
    unfold State.stale
    extract_lets t d n s1 sd s2 s3
    have h2 : CommitHeld c h s s2 := (CommitHeld.refl c h s).of_cores_eq rfl
    exact ((((h2.count ..).setRg ..).flagTile ..).tileEvent .. |>.releaseSlots ..).settle ..
  exact hk

/-! ### Partial sums -/

/-- The partial sum that a tile sends. -/
def State.partSumOf (s : State) (c h : Nat) : PartSum :=
  { disp := Desc.disp (s.tileDesc c h), tile := CRec.tile (s.tile c h).rec_, epoch := CRec.epoch (s.tile c h).rec_
    ptag := ptagOf (s.tileRung c h), regime := s.tileRegime c h, flags := flags6 (s.tile c h).tsw, acc := (s.tile c h).acc }

/-- The dispenser holds one more partial sum. -/
def State.withPart (s : State) (p : PartSum) : State := { s with sdt := { s.sdt with partSums := s.sdt.partSums ++ [p] } }

theorem only_withPart (s : State) (p : PartSum) : only [.sdt] s (s.withPart p) := fun q => by
  cases q <;> simp [Part.same, State.withPart]

theorem execPartialSumArrival_arrives {c : CoreId} {h : Handle} (ho : s.coreOpen c.val = true)
    (hp : (s.core c.val).seq.parts.head? = some h.val) (hi : s.isImatch c.val h.val = false) :
    exec (.partialSumArrival c h) s = .next (((s.withPart (s.partSumOf c.val h.val)).modTile c.val h.val
      (fun t => { t with partSent := 2 })).modSeq c.val (fun q => { q with reds := q.reds - 1, parts := q.parts.drop 1 })) := by
  change execPartialSumArrival c h s = _
  unfold execPartialSumArrival
  simp only [ho, hp, hi, decide_true, Bool.and_true, if_true, Bool.false_eq_true, if_false]
  rfl

/-- Settles O24, from serving a claim, resolving a commit and taking a partial sum. -/
theorem claimsAndCommits : Obligations.ClaimsAndCommits := by
  refine ⟨?_, ?_, ?_, ?_, ?_⟩
  · intro d r l sd raddr s hl hh hq hw hst
    have he := execClaimServe_serves hl hh hq
    rw [State.serveClaim_status (by intro h0; rw [h0] at hst; simp at hst)] at he
    obtain ⟨h1, h2, h3⟩ := State.answerClaim_status (t := s.dropClaim d.val r) (s := s) (floor := (s.disp d.val).floor)
      (guard := (s.disp d.val).guard) rfl hw hst
    refine ⟨_, he, h1, h2, ?_, ?_, h3, ?_, ((onlyCore.refl _ s).dropClaim _ _).answerClaim _ _⟩
    · rw [State.disp_of_sdt_eq (State.sdt_answerClaim ..), State.dropClaim, State.disp_modDisp_self]
    · rw [State.sdt_answerClaim]
      rfl
    · exact ((onlyDisp.refl d.val s).modDisp _).of_sdt_eq (State.sdt_answerClaim ..)
  · intro d r l q sd raddr s x hl hh hq hw hst hi ha
    have he := execClaimServe_serves hl hh hq
    rw [State.serveClaim_item hst hi ha] at he
    have hc (k : Nat) : ((((s.dropClaim d.val r).spendOn r.core (s.claimCost d.val r.core q)).takeItem d.val r.core r.h q)).core k
        = s.core k := (State.core_takeItem ..).trans (State.core_of_cores_eq (State.cores_spendOn ..))
    have hsd : ((s.dropClaim d.val r).spendOn r.core (s.claimCost d.val r.core q)).sdt = (s.dropClaim d.val r).sdt :=
      State.sdt_spendOn ..
    have hx : (s.dropClaim d.val r).disp d.val = { x with claims := x.claims.filter (fun z => z ≠ r) } :=
      State.disp_modDisp_self _ _ _
    obtain ⟨h1, h2⟩ := State.answerClaim_item (s := s) (hc r.core) hw (Disp.status_record x q)
    obtain ⟨h3, h4⟩ := State.disp_takeItem (s := (s.dropClaim d.val r).spendOn r.core (s.claimCost d.val r.core q))
      d.val r.core r.h q
    rw [State.disp_of_sdt_eq hsd, hx] at h3 h4
    refine ⟨_, he, h1, h2, ?_, ?_, ?_, ?_, ?_⟩
    · rw [State.sdt_answerClaim, State.claims_takeItem, State.disp_of_sdt_eq hsd, hx, hsd]
      rfl
    · rw [State.disp_of_sdt_eq (State.sdt_answerClaim ..), h3]
    · rw [State.disp_of_sdt_eq (State.sdt_answerClaim ..), h4]
    · refine onlyDisp.of_sdt_eq ?_ (State.sdt_answerClaim ..)
      exact onlyDisp_takeItem _ _ _ (((onlyDisp.refl d.val s).modDisp _).of_sdt_eq hsd)
    · exact ((((onlyCore.refl _ s).dropClaim _ _).spendOn _ _).takeItem _ _ _ _).answerClaim _ _
  · intro c h e q s hc he hs hq hst
    have hd := State.claimAt_disp he
    have hk := (ClaimsHeld.refl e.disp ((s.resolving c.val h.val).accept c.val h.val e)).commitDone c.val h.val true
    obtain ⟨k1, k2, k3⟩ := hk
    obtain ⟨a1, a2, a3⟩ := State.accept_claims (s := s.resolving c.val h.val) c.val h.val e
    refine ⟨_, execCommitResolve_accepts hc he hs hq hst, State.tile_commitDone .., k1.trans a1, k3.trans a3, ?_⟩
    rw [k2, a2]
    exact State.commits_resolving c.val h.val
  · intro c h s d hc he hq
    have hk := (State.stale_claims (s := s.resolving c.val h.val) d c.val h.val).commitDone c.val h.val false
    obtain ⟨k1, k2, k3⟩ := hk
    refine ⟨_, execCommitResolve_none hc he, State.tile_commitDone .., k1, k3, ?_, ?_⟩
    · have hst := State.counted_sdtDup_stale (s := s.resolving c.val h.val) c.val h.val (Desc.disp_lt _)
      have hcd := State.rg_sdtDup_commitDone (s := (s.resolving c.val h.val).stale c.val h.val none) (c := c.val) (h := h.val) (d := d)
        (ok := false) (by rw [State.commit_stale]; exact hq)
      exact hcd.trans hst
    · rw [k2]
      exact State.commits_resolving c.val h.val
  · intro c h s ho hp hi
    refine ⟨_, execPartialSumArrival_arrives ho hp hi, ?_, ?_, ?_, ⟨_, rfl, rfl, rfl⟩, ?_, ?_, ?_⟩
    · rw [State.tile_modSeq, State.tile_modTile_self]
    · rw [State.core_modSeq_self, State.modTile, State.core_modCore_self]
      rfl
    · rw [State.core_modSeq_self, State.modTile, State.core_modCore_self]
      rfl
    · exact ((onlyTile.refl c.val h.val (s.withPart (s.partSumOf c.val h.val))).modTile _).of_tiles_eq fun k => State.tile_modSeq _ _ _
    · exact ((onlyCore.of_only (only_withPart s _) (by simp)).modTile _ _).modSeq _
    · exact ((only_withPart s _).mono (by simp)).modTile (by simp) _ _ _ |>.modSeq (by simp) _ _

end Sys2Proof.Machine
end

section
set_option Elab.async false
/-! The ring's write index (R342), written through a window by another core. -/

namespace Sys2Proof.Machine
open Sys2Proof

/-- Refutes O26: core 1 that writes core 0's ring index through a window counts in its own mesh activity, so that core 0 is not the only
core that changes. -/
theorem not_sequencerControl : ¬ Obligations.SequencerControl := by
  intro h
  obtain ⟨h, -, -, -, -⟩ := h
  obtain ⟨t, he, -, -, hc, -⟩ := h (.core 1) 0 5 coreWindow (by decide +kernel) (by decide +kernel) (by decide +kernel)
    (by decide +kernel) (by decide +kernel) (by decide +kernel)
  have ha : coreOneAct (exec (.ringWriteIndex (.core 1) 0 5) coreWindow) = [(6, 1)] := by decide +kernel
  rw [he, coreOneAct, hc 1 (by decide)] at ha
  exact absurd ha (by decide +kernel)

end Sys2Proof.Machine
end

section
set_option Elab.async false
/-! What shared operations leave unchanged. -/

namespace Sys2Proof
open Sys2Proof.Machine
variable {ps : List Part} {s₀ s t u : State} {c cc : Nat}

theorem only.seqNext (hk : only ps s₀ s) (m1 : Part.mem ∈ ps) (m2 : Part.cores ∈ ps) (c : Nat) : only ps s₀ (s.seqNext c) := by
  unfold State.seqNext
  grind [only.fields, only.setRd]

theorem only.issued (hk : only ps s₀ s) (m1 : Part.regs ∈ ps) (c : Nat) : only ps s₀ (s.issued c) := by
  unfold State.issued
  grind [only.fields, only.count]

theorem only.seqGoOn (hk : only ps s₀ s) (m1 : Part.regs ∈ ps) (m2 : Part.mem ∈ ps) (m3 : Part.cores ∈ ps) (c : Nat)
    : only ps s₀ (s.seqGoOn c) := by
  unfold State.seqGoOn
  grind [only.fields, only.issued, only.seqNext]

theorem only.seqWait (hk : only ps s₀ s) (m1 : Part.regs ∈ ps) (m2 : Part.cores ∈ ps) (c : Nat) (w : Wait)
    : only ps s₀ (s.seqWait c w) := by
  unfold State.seqWait
  grind [only.fields, only.issued, only.modSeq]

theorem only.fetchStart (hk : only ps s₀ s) (m1 : Part.cores ∈ ps) (c ch h : Nat) (weight : Bool)
    : only ps s₀ (s.fetchStart c ch h weight) := by
  unfold State.fetchStart
  grind [only.fields, only.modChan]

theorem only.arrive (hk : only ps s₀ s) (m1 : Part.sdt ∈ ps) : only ps s₀ (s.arrive).2 := by
  unfold State.arrive
  grind [only.fields]

theorem only.arrEnter (hk : only ps s₀ s) (m1 : Part.cores ∈ ps) (c h : Nat) (first : Bool)
    : only ps s₀ (s.arrEnter c h first) := by
  unfold State.arrEnter
  grind [only.fields, only.modArr, only.arrKick]

theorem only.sampleDue (hk : only ps s₀ s) (m1 : Part.cores ∈ ps) (c h : Nat) : only ps s₀ (s.sampleDue c h) := by
  unfold State.sampleDue
  grind [only.fields, only.modTile, only.modCore]

theorem only.enqueue (hk : only ps s₀ s) (m1 : Part.cores ∈ ps) (c : Nat) (e : Engine) (w : BitVec 128) (vlen : Nat)
    : only ps s₀ (s.enqueue c e w vlen) := by
  unfold State.enqueue
  grind [only.fields, only.modSeq, only.kick]

theorem only.bindOperand (hk : only ps s₀ s) (m1 : Part.cores ∈ ps) (c : Nat) (weight : Bool) (w : BitVec 128)
    : only ps s₀ (s.bindOperand c weight w) := by
  unfold State.bindOperand
  grind [only.fields, only.modBind, only.fetchStart]

theorem onlyCore.seqNext (hk : onlyCore c s₀ s) : onlyCore c s₀ (s.seqNext c) := by
  unfold State.seqNext
  grind [onlyCore.fields, onlyCore.setRd]

theorem onlyCore.issued (hk : onlyCore cc s₀ s) (c : Nat) : onlyCore cc s₀ (s.issued c) := by
  unfold State.issued
  grind [onlyCore.fields, onlyCore.count]

theorem onlyCore.seqGoOn (hk : onlyCore c s₀ s) : onlyCore c s₀ (s.seqGoOn c) := by
  unfold State.seqGoOn
  grind [onlyCore.fields, onlyCore.issued, onlyCore.seqNext]

theorem onlyCore.seqWait (hk : onlyCore c s₀ s) (w : Wait) : onlyCore c s₀ (s.seqWait c w) := by
  unfold State.seqWait
  grind [onlyCore.fields, onlyCore.issued, onlyCore.modSeq]

theorem onlyCore.fetchStart (hk : onlyCore c s₀ s) (ch h : Nat) (weight : Bool)
    : onlyCore c s₀ (s.fetchStart c ch h weight) := by
  unfold State.fetchStart
  grind [onlyCore.fields, onlyCore.modChan]

theorem onlyCore.arrive (hk : onlyCore cc s₀ s) : onlyCore cc s₀ (s.arrive).2 := by
  unfold State.arrive
  grind [onlyCore.fields]

theorem onlyCore.arrEnter (hk : onlyCore c s₀ s) (h : Nat) (first : Bool) : onlyCore c s₀ (s.arrEnter c h first) := by
  unfold State.arrEnter
  grind [onlyCore.fields, onlyCore.modArr, onlyCore.arrKick]

theorem onlyCore.sampleDue (hk : onlyCore c s₀ s) (h : Nat) : onlyCore c s₀ (s.sampleDue c h) := by
  unfold State.sampleDue
  grind [onlyCore.fields, onlyCore.modTile, onlyCore.modCore]

theorem onlyCore.enqueue (hk : onlyCore c s₀ s) (e : Engine) (w : BitVec 128) (vlen : Nat)
    : onlyCore c s₀ (s.enqueue c e w vlen) := by
  unfold State.enqueue
  grind [onlyCore.fields, onlyCore.modSeq, onlyCore.kick]

theorem onlyCore.bindOperand (hk : onlyCore c s₀ s) (weight : Bool) (w : BitVec 128)
    : onlyCore c s₀ (s.bindOperand c weight w) := by
  unfold State.bindOperand
  grind [onlyCore.fields, onlyCore.modBind, onlyCore.fetchStart]

end Sys2Proof
end

section
set_option Elab.async false
/-! What joining the array leaves of a tile. -/

namespace Sys2Proof.Machine
open Sys2Proof
variable {s₀ s t u : State} {c cc hh : Nat}

/-- The tile's state, item, rung and outputs stay. -/
def StepHeld (c h : Nat) (s t : State) : Prop := (t.tile c h).st = (s.tile c h).st ∧ (t.tile c h).ctx = (s.tile c h).ctx ∧ (t.tile c h).rec_ = (s.tile c h).rec_ ∧ (t.tile c h).rung = (s.tile c h).rung ∧ (t.tile c h).pass2 = (s.tile c h).pass2 ∧ (t.tile c h).acc = (s.tile c h).acc

theorem StepHeld.refl (c h : Nat) (s : State) : StepHeld c h s s := ⟨rfl, rfl, rfl, rfl, rfl, rfl⟩

theorem StepHeld.of_tile_eq (hk : StepHeld cc hh s₀ s) (e : t.tile cc hh = s.tile cc hh) : StepHeld cc hh s₀ t := by
  rwa [StepHeld, e]

theorem StepHeld.modCore (hk : StepHeld cc hh s₀ s) (c : Nat) (f : Core → Core) (hf : ∀ k, (f k).tiles = k.tiles) : StepHeld cc hh s₀ (s.modCore c f) :=
  hk.of_tile_eq (by
    by_cases hc : cc = c
    · subst hc
      exact State.tile_modCore cc f hh hf
    · rw [State.tile, State.core_modCore_ne s f hc]
      rfl)

theorem StepHeld.modTile (hk : StepHeld cc hh s₀ s) (c h : Nat) (f : Tile → Tile) (hf : ∀ t, (f t).st = t.st ∧ (f t).ctx = t.ctx ∧ (f t).rec_ = t.rec_ ∧ (f t).rung = t.rung ∧ (f t).pass2 = t.pass2 ∧ (f t).acc = t.acc) :
    StepHeld cc hh s₀ (s.modTile c h f) := by
  by_cases hc : cc = c
  · subst hc
    by_cases hh' : hh = h
    · subst hh'
      have e := hf (s.tile cc hh)
      unfold StepHeld at *
      rw [State.tile_modTile_self]
      simp only [e]
      exact hk
    · exact hk.of_tile_eq (State.tile_modTile_ne s f hh')
  · exact hk.of_tile_eq (by rw [State.tile, State.modTile, State.core_modCore_ne s _ hc]; rfl)

theorem StepHeld.modArr (hk : StepHeld cc hh s₀ s) (c : Nat) (f : Arr → Arr) : StepHeld cc hh s₀ (s.modArr c f) := by
  unfold State.modArr
  grind [StepHeld.modCore]

theorem StepHeld.arrKick (hk : StepHeld cc hh s₀ s) (c : Nat) : StepHeld cc hh s₀ (s.arrKick c) := by
  unfold State.arrKick
  grind [StepHeld.modTile]

theorem StepHeld.arrEnter (hk : StepHeld cc hh s₀ s) (c h : Nat) (first : Bool) : StepHeld cc hh s₀ (s.arrEnter c h first) := by
  unfold State.arrEnter
  grind [StepHeld.modArr, StepHeld.arrKick]

theorem StepHeld.sampleDue (hk : StepHeld cc hh s₀ s) (c h : Nat) : StepHeld cc hh s₀ (s.sampleDue c h) := by
  unfold State.sampleDue
  split
  · refine StepHeld.modCore (StepHeld.modTile hk _ _ _ ?_) _ _ ?_
    · intro t
      exact ⟨rfl, rfl, rfl, rfl, rfl, rfl⟩
    · intro k
      rfl
  · exact hk

end Sys2Proof.Machine
end

section
set_option Elab.async false
/-! The sequencer (R343 to R346, R371): what fetching, issuing, going on, waiting and being refused do. -/

namespace Sys2Proof.Machine
open Sys2Proof
variable {s t u : State} {c : Nat}

/-! ### Fetching -/

/-- A sequencer that fetches a command of an opcode runs it. -/
theorem State.seqRun_fetched {op : Nat} {f : BitVec 128 → State} (h : fetchesOp c op s) (hop : op ≤ 0x19) :
    s.seqRun c op f = f (s.fetchWord c) := by
  obtain ⟨hf, ho⟩ := h
  unfold State.seqRun
  extract_lets w o
  have hw : o = op := ho
  have hr : opReserved o = false := by simp [opReserved, hw, hop]
  rw [if_pos hf, hr, if_neg (by decide), if_pos hw]

/-- A sequencer that fetches waits for nothing and runs. -/
theorem State.fetches_idle (h : s.fetches c = true) : (s.core c).seq.wait = .none ∧ (s.core c).seq.halted = false := by
  simp only [State.fetches, Bool.and_eq_true, Bool.not_eq_true', decide_eq_true_eq] at h
  obtain ⟨⟨⟨⟨⟨hh, hw⟩, -⟩, -⟩, -⟩, -⟩ := h
  exact ⟨hw, hh⟩

/-! ### Going on and waiting -/

/-- From `s` to `t` the sequencer of core `c` stays where it is, and so does its count of commands. -/
def SeqAt (c : Nat) (s t : State) : Prop :=
  (t.core c).seq.rd = (s.core c).seq.rd ∧ (t.core c).seq.wait = (s.core c).seq.wait ∧
    (t.core c).seq.halted = (s.core c).seq.halted ∧ t.rg .seqIssued c = s.rg .seqIssued c

theorem SeqAt.refl (c : Nat) (s : State) : SeqAt c s s := ⟨rfl, rfl, rfl, rfl⟩

theorem SeqAt.of_seq_eq (h : (t.core c).seq = (s.core c).seq) (hr : t.rg .seqIssued c = s.rg .seqIssued c) : SeqAt c s t := by
  rw [SeqAt, h, hr]
  exact ⟨rfl, rfl, rfl, rfl⟩

theorem SeqAt.of_issueHeld (h : IssueHeld c s t) (hr : t.rg .seqIssued c = s.rg .seqIssued c) : SeqAt c s t := by
  obtain ⟨h1, h2, h3, -, -, -⟩ := h
  exact ⟨h1, h2, h3, hr⟩

theorem SeqAt.of_regs_eq (h : (t.core c).seq = (s.core c).seq) (hr : t.regs = s.regs) : SeqAt c s t :=
  .of_seq_eq h (State.rg_of_regs_eq hr)

theorem SeqAt.modTile (h : SeqAt c s t) (k : Nat) (f : Tile → Tile) : SeqAt c s (t.modTile c k f) := by
  rw [SeqAt, State.seq_modTile]
  exact h

@[simp] theorem State.core_issued (d : Nat) : (s.issued c).core d = s.core d := rfl

@[simp] theorem State.core_seqNext :
    (s.seqNext c).core c = { s.core c with seq := { (s.core c).seq with rd := ((s.core c).seq.rd + 1) % 256 } } := State.core_setRd _ _

@[simp] theorem State.core_seqGoOn :
    (s.seqGoOn c).core c = { s.core c with seq := { (s.core c).seq with rd := ((s.core c).seq.rd + 1) % 256 } } := by
  rw [State.seqGoOn, State.core_seqNext, State.core_issued]

@[simp] theorem State.core_seqWait (w : Wait) :
    (s.seqWait c w).core c = { s.core c with seq := { (s.core c).seq with wait := w } } := by
  rw [State.seqWait, State.core_modSeq_self, State.core_issued]

@[simp] theorem State.tile_seqGoOn (h : Nat) : (s.seqGoOn c).tile c h = s.tile c h := by
  rw [State.tile, State.core_seqGoOn]
  rfl

@[simp] theorem State.tile_seqWait (w : Wait) (h : Nat) : (s.seqWait c w).tile c h = s.tile c h := by
  rw [State.tile, State.core_seqWait]
  rfl

@[simp] theorem State.chan_seqGoOn (ch : Nat) : (s.seqGoOn c).chan c ch = s.chan c ch := by
  rw [State.chan, State.core_seqGoOn, State.chan]

theorem State.regs_setRd (i : Nat) : (s.setRd c i).regs = s.regs :=
  State.regs_of_only ((only.refl [.mem, .cores] s).setRd (by simp) (by simp) c i) (by simp)

theorem State.regs_seqGoOn : (s.seqGoOn c).regs = (s.issued c).regs := State.regs_setRd _

/-- A command that does not block leaves the sequencer at the next one. -/
theorem goesOn_seqGoOn (h : SeqAt c s t) : goesOn c s (t.seqGoOn c) := by
  obtain ⟨h1, h2, h3, h4⟩ := h
  refine ⟨?_, ?_, ?_, ?_⟩
  · rw [State.core_seqGoOn, h1]
  · rw [State.core_seqGoOn, h2]
  · rw [State.core_seqGoOn, h3]
  · rw [counted, State.rg_of_regs_eq State.regs_seqGoOn, ← h4]
    exact State.rg_setRg_self t .seqIssued c 0 0 _

/-- A command that blocks leaves the sequencer where it is, waiting. -/
theorem waitsIn_seqWait (w : Wait) (h : SeqAt c s t) : waitsIn c w s (t.seqWait c w) := by
  obtain ⟨h1, -, -, h4⟩ := h
  refine ⟨?_, ?_, ?_⟩
  · rw [State.core_seqWait, h1]
  · rw [State.core_seqWait]
  · rw [counted, ← h4]
    exact State.rg_setRg_self t .seqIssued c 0 0 _

/-- Going on writes nothing but the ring's read index. -/
theorem onlyRingIndex_seqGoOn (hm : t.mem = s.mem) (hr : t.rg .seqRing c = s.rg .seqRing c) : onlyRingIndex c s (t.seqGoOn c) := by
  have hi : (t.issued c).rg .seqRing c = t.rg .seqRing c := State.rg_setRg_core (by decide) (by decide) (by decide) c _
  intro a ha
  have hb := State.byte_setRd (s := t.issued c) c (((t.issued c).core c).seq.rd + 1) a (by
    rw [State.ringOff, hi, hr]
    exact ha)
  refine hb.trans ?_
  rw [State.byte, State.byte, ← hm]
  rfl

theorem onlyRingIndex_seqGoOn_of_only {ps : List Part} (h : only ps s t) (hm : .mem ∉ ps) (hr : .regs ∉ ps) :
    onlyRingIndex c s (t.seqGoOn c) :=
  onlyRingIndex_seqGoOn ((h .mem).resolve_left hm) (State.rg_of_regs_eq (State.regs_of_only h hr))

theorem onlyTile_seqGoOn {h : Nat} (hk : onlyTile c h s t) : onlyTile c h s (t.seqGoOn c) :=
  hk.of_tiles_eq fun _ => State.tile_seqGoOn _

theorem onlyTile_seqWait {h : Nat} {w : Wait} (hk : onlyTile c h s t) : onlyTile c h s (t.seqWait c w) :=
  hk.of_tiles_eq fun _ => State.tile_seqWait _ _

theorem onlyTile_modTile {h : Nat} (s : State) (f : Tile → Tile) : onlyTile c h s (s.modTile c h f) := (onlyTile.refl c h s).modTile f

/-! ### Causes of refusal -/

theorem State.tileCause_none {suits : Bool} (h1 : suits = true) (h2 : (s.curCtx c).isSome = true) : s.tileCause c suits = none := by
  rw [State.tileCause, h1]
  simp [Option.isSome_iff_ne_none.1 h2]

end Sys2Proof.Machine
end

section
set_option Elab.async false
/-! LAYER, SETPREC, CLAIM and the refusal of reserved bits (R345 to R347, R351, R352, R355, R357). -/

namespace Sys2Proof.Machine
open Sys2Proof
variable {s t u v : State} {c : CoreId}

/-! ### LAYER -/

/-- A LAYER whose descriptor passes every check waits for its dispenser, or for a free context. -/
theorem State.layerWith_passes {k n : Nat} {d : Desc} {p : Prog} {x : State}
    (hx : x = u.modSeq k (fun q => { q with asStored := [] })) (hc : x.layerCause k d n p = none) :
    u.layerWith k n d p = x.seqWait k (if 2 ≤ ((x.core k).heldCtxs.filter (fun y => !(x.core k).retired y.id)).length
      then .layerCtx (x.layerCtx k d n) else .present (x.layerCtx k d n)) := by
  subst hx
  unfold State.layerWith
  extract_lets t
  simp only [t] at hc ⊢
  rw [hc]

theorem execLayer_reads {bs im : List Byte} (hf : fetchesOp c.val 0x01 s) (hb : onlyBits (s.fetchWord c.val) [(8, 50)] = true)
    (hfit : spadFits (fld (s.fetchWord c.val) 21 8 * 32) 256 = true)
    (h1 : s.layerRead c.val (spadBase c.val + fld (s.fetchWord c.val) 21 8 * 32) 256 cSeq = (some bs, v))
    (h2 : v.layerRead c.val (Desc.eprog (BitVec.ofNat 2048 (ofLe bs))) 176 cVec = (some im, u)) :
    exec (.layer c) s = .next (u.layerWith c.val (if flag (s.fetchWord c.val) 22
      then s.scalar c.val (fld (s.fetchWord c.val) 25 23) % 2 ^ 32 else fld (s.fetchWord c.val) 57 26)
        (BitVec.ofNat 2048 (ofLe bs)) (BitVec.ofNat 1408 (ofLe im))) := by
  rw [exec, execLayer, State.seqRun_fetched hf (by decide)]
  simp only [State.layerCmd, hb, hfit, h1, h2, Bool.not_true, Bool.false_eq_true, if_false]

theorem execLayerContextFree_free {x : Ctx} (hw : (s.core c.val).seq.wait = .layerCtx x) (ho : s.coreOpen c.val = true)
    (hl : ((s.core c.val).seq.ctxs.filter (fun y => !(s.core c.val).retired y.id)).length < 2) :
    exec (.layerContextFree c) s = .next (s.modSeq c.val (fun q => { q with wait := .present x })) := by
  simp [exec, execLayerContextFree, hw, ho, hl]

/-! ### SETPREC -/

theorem execSetprec_handle (hf : fetchesOp c.val 0x02 s) (hb : onlyBits (s.fetchWord c.val) [(8, 6)] = true)
    (hn : flag (s.fetchWord c.val) 11 = false) (hst : (s.tile c.val (wTh (s.fetchWord c.val))).st = .claimed)
    (hd : (s.tile c.val (wTh (s.fetchWord c.val))).began = false ∨
      s.precDiffers c.val (wTh (s.fetchWord c.val)) (fld (s.fetchWord c.val) 13 12) = false)
    (hr : fld (s.fetchWord c.val) 13 12 ≤ Desc.nrung (s.tileDesc c.val (wTh (s.fetchWord c.val))))
    (he : (s.tileCtx c.val (wTh (s.fetchWord c.val))).exact_ = false) (hx : (s.curCtx c.val).isSome = true) :
    exec (.setprec c) s = .next ((s.modTile c.val (wTh (s.fetchWord c.val))
      (fun t => { t with setRung := fld (s.fetchWord c.val) 13 12 })).seqGoOn c.val) := by
  rw [exec, execSetprec, State.seqRun_fetched hf (by decide), State.setprecCmd, hb, if_neg (by decide), if_neg (by simp [hn])]
  have hg : (((s.tile c.val (wTh (s.fetchWord c.val))).began || (s.tile c.val (wTh (s.fetchWord c.val))).st = .opened ||
      (s.tile c.val (wTh (s.fetchWord c.val))).st = .output) &&
      s.precDiffers c.val (wTh (s.fetchWord c.val)) (fld (s.fetchWord c.val) 13 12)) = false := by
    obtain hd | hd := hd <;> simp [hd, hst]
  extract_lets t
  rw [if_neg (ne_true_of_eq_false hg), State.tileCause_none (by simp [t, hst, hr]) hx]
  simp [he, State.unless]

theorem execSetprec_next {x : Ctx} (hf : fetchesOp c.val 0x02 s) (hb : onlyBits (s.fetchWord c.val) [(8, 6)] = true)
    (hn : flag (s.fetchWord c.val) 11 = true) (hx : s.curCtx c.val = some x) (hr : fld (s.fetchWord c.val) 13 12 ≤ Desc.nrung x.desc)
    (he : x.exact_ = false) :
    exec (.setprec c) s = .next ((s.modCtx c.val x.id (fun y => { y with nextRung := fld (s.fetchWord c.val) 13 12 })).seqGoOn c.val) := by
  rw [exec, execSetprec, State.seqRun_fetched hf (by decide), State.setprecCmd, hb, if_neg (by decide), if_pos hn]
  simp [hx, firstCause, he, Nat.not_lt.2 hr, State.unless]

/-- The current context once a field of it has been set. -/
theorem State.curCtx_modCtx {k : Nat} {x : Ctx} (f : Ctx → Ctx) (hx : s.curCtx k = some x) :
    (s.modCtx k x.id f).curCtx k = some (f x) := by
  rw [State.curCtx, State.modCtx, State.core_modSeq_self, List.getLast?_map]
  rw [State.curCtx] at hx
  simp [hx]

/-! ### CLAIM -/

theorem State.disp_seqWait (k : Nat) (w : Wait) (d : Nat) : (s.seqWait k w).disp d = s.disp d := rfl

theorem execClaim_joins {x : Ctx} (hf : fetchesOp c.val 0x03 s) (hq : (s.core c.val).quiescing = false)
    (hb : onlyBits (s.fetchWord c.val) [(8, 20)] = true) (hst : (s.tile c.val (wTh (s.fetchWord c.val))).st = .free)
    (hx : s.curCtx c.val = some x) :
    exec (.claim c) s = .next ((s.arrive.2.modDisp (Desc.disp x.desc)
      (fun y => { y with claims := y.claims ++ [{ core := c.val, h := wTh (s.fetchWord c.val), arr := s.sdt.arrived }] })).seqWait c.val
        (.claim (wTh (s.fetchWord c.val)) (fld (s.fetchWord c.val) 13 11) (fld (s.fetchWord c.val) 27 14))) := by
  rw [exec, execClaim, hq, if_neg (by decide), State.seqRun_fetched hf (by decide), State.claimCmd, hb, if_neg (by decide),
    State.tileCause_none (by simp [hst]) (by simp [hx]), State.unless]
  simp only [hx, Option.getD_some]
  rfl

/-! ### Refusal -/

theorem execNop_reserved (hf : fetchesOp c.val 0x00 s) (hb : onlyBits (s.fetchWord c.val) [] = false) :
    exec (.nop c) s = .next (s.seqRefuse c.val 0x00 rRESV) := by
  rw [exec, execNop, State.seqRun_fetched hf (by decide), hb]
  rfl

/-- A sequencer that has been refused a command. -/
def Seq.refused (q : Seq) (v : Nat) : Seq :=
  { q with halted := true, fault := true, wait := .none, stop := false, lasterr := BitVec.ofNat 32 v }

theorem State.core_seqRefuse (k op reason : Nat) : (s.seqRefuse k op reason).core k =
    { s.core k with seq := (s.core k).seq.refused (pack [(8, reason), (8, (s.core k).seq.rd), (8, op)]) } := by
  have hl (t : State) (e : Event) : (t.log e).core k = t.core k := State.core_of_cores_eq (State.log_cores t e)
  rw [State.seqRefuse]
  exact (hl _ _).trans ((State.core_writeRd k k).trans (State.core_modSeq_self k _))

theorem onlyRingIndex_seqRefuse (k op reason : Nat) : onlyRingIndex k s (s.seqRefuse k op reason) := by
  intro a ha
  have hl (t : State) (e : Event) : (t.log e).byte a = t.byte a := by rw [State.byte, State.log_mem, State.byte]
  rw [State.seqRefuse]
  exact (hl _ _).trans (State.byte_writeRd k a ha)

/-- Settles O27, from the commands' effects and the rules of the sequencer. -/
theorem layerSetprecClaim : Obligations.LayerSetprecClaim := by
  refine ⟨?_, ?_, ?_, ?_, ?_, ?_⟩
  · intro c bs im v u s w d n x hf hb hfit h1 h2 hc
    have he := execLayer_reads hf hb hfit h1 h2
    have hat : SeqAt c.val u x := ⟨by simp [x], by simp [x], by simp [x], rfl⟩
    have hoc (w : Wait) : onlyCore c.val u (x.seqWait c.val w) := ((onlyCore.refl _ u).modSeq _).seqWait _
    have hon (w : Wait) : only [.cores, .regs] u (x.seqWait c.val w) := ((only.refl _ u).modSeq (by simp) _ _).seqWait (by simp) (by simp) _ _
    rw [State.layerWith_passes (x := x) rfl hc] at he
    refine ⟨fun hl => ?_, fun hl => ?_⟩
    · rw [if_neg (by omega)] at he
      exact ⟨_, he, waitsIn_seqWait _ hat, hoc _, hon _⟩
    · rw [if_pos hl] at he
      exact ⟨_, he, waitsIn_seqWait _ hat, hoc _, hon _⟩
  · intro c x s hw ho hl
    refine ⟨_, execLayerContextFree_free hw ho hl, ?_, (onlyCore.refl _ s).modSeq _, (only.refl _ s).modSeq (by simp) _ _⟩
    rw [State.core_modSeq_self]
  · intro c s w hf hb hn hst hd hr he hx
    have hon : only [.cores] s (s.modTile c.val (wTh w) (fun t => { t with setRung := fld w 13 12 })) :=
      (only.refl _ s).modTile (by simp) _ _ _
    refine ⟨_, execSetprec_handle hf hb hn hst hd hr he hx, goesOn_seqGoOn ((SeqAt.refl _ s).modTile _ _), ?_,
      onlyTile_seqGoOn (onlyTile_modTile s _), ((onlyCore.refl _ s).modTile _ _).seqGoOn,
      onlyRingIndex_seqGoOn_of_only hon (by simp) (by simp), (hon.mono (by simp)).seqGoOn (by simp) (by simp) (by simp) _⟩
    rw [State.tile_seqGoOn, State.tile_modTile_self]
  · intro c x s w hf hb hn hx hr he
    have hon : only [.cores] s (s.modCtx c.val x.id (fun y => { y with nextRung := fld w 13 12 })) :=
      (only.refl _ s).modCtx (by simp) _ _ _
    refine ⟨_, execSetprec_next hf hb hn hx hr he, goesOn_seqGoOn ⟨by simp [State.modCtx], by simp [State.modCtx],
      by simp [State.modCtx], rfl⟩, ?_, fun h => ?_, ((onlyCore.refl _ s).modCtx _ _).seqGoOn,
      onlyRingIndex_seqGoOn_of_only hon (by simp) (by simp)⟩
    · rw [State.curCtx, State.core_seqGoOn]
      exact State.curCtx_modCtx _ hx
    · rw [State.tile_seqGoOn, State.modCtx, State.tile_modSeq]
  · intro c x s w hf hq hb hst hx
    refine ⟨_, execClaim_joins hf hq hb hst hx, waitsIn_seqWait _ (.of_regs_eq rfl rfl), ?_, ?_,
      (((onlyCore.refl _ s).arrive).modDisp _ _).seqWait _,
      (((only.refl _ s).arrive (by simp)).modDisp (by simp) _ _).seqWait (by simp) (by simp) _ _⟩
    · rw [State.disp_seqWait, State.disp_modDisp_self]
      rfl
    · exact (((onlyDisp.refl _ s).of_disp_eq (t := s.arrive.2) fun _ => rfl).modDisp _).of_disp_eq fun _ => State.disp_seqWait ..
  · intro c s hf hb
    refine ⟨_, execNop_reserved hf hb, ?_, ?_, ?_, ?_, (onlyCore.refl _ s).seqRefuse _ _, onlyRingIndex_seqRefuse _ _ _⟩ <;>
      rw [State.core_seqRefuse]
    · rfl
    · rfl
    · rfl
    · simp [Seq.refused, pack]

end Sys2Proof.Machine
end

section
set_option Elab.async false
/-! The sequencer's tile commands (R355 to R357, R364). -/

namespace Sys2Proof.Machine
open Sys2Proof
variable {s t : State} {c : CoreId}

/-- A command that changes one handle's tile and goes on. -/
theorem State.modTile_goesOn (s : State) (k h : Nat) (f : Tile → Tile) :
    goesOn k s ((s.modTile k h f).seqGoOn k) ∧ ((s.modTile k h f).seqGoOn k).tile k h = f (s.tile k h) ∧
    onlyTile k h s ((s.modTile k h f).seqGoOn k) ∧ onlyCore k s ((s.modTile k h f).seqGoOn k) ∧
    onlyRingIndex k s ((s.modTile k h f).seqGoOn k) ∧ only [.cores, .regs, .mem] s ((s.modTile k h f).seqGoOn k) := by
  have hon : only [.cores] s (s.modTile k h f) := (only.refl _ s).modTile (by simp) _ _ _
  refine ⟨goesOn_seqGoOn ((SeqAt.refl _ s).modTile _ _), ?_, onlyTile_seqGoOn (onlyTile_modTile s _),
    ((onlyCore.refl _ s).modTile _ _).seqGoOn, onlyRingIndex_seqGoOn_of_only hon (by simp) (by simp),
    (hon.mono (by simp)).seqGoOn (by simp) (by simp) (by simp) _⟩
  rw [State.tile_seqGoOn, State.tile_modTile_self]

/-! ### LOADW and LOADA -/

theorem State.wait_of_fetchesOp {k op : Nat} (h : fetchesOp k op s) : (s.core k).seq.wait = .none := (State.fetches_idle h.1).1

/-- A load that no check refuses binds its operand and goes on, or waits for its channel. -/
theorem State.loadCmd_fetched {k op : Nat} {weight : Bool} (hf : fetchesOp k op s) (hop : op ≤ 0x19)
    (hc : s.loadCause k (s.fetchWord k) = none) : s.loadCmd k op weight =
      if flag (s.fetchWord k) 15 && !s.chanFree k (fld (s.fetchWord k) 14 11) then s.seqWait k .channel
      else (s.bindOperand k weight (s.fetchWord k)).seqGoOn k := by
  rw [State.loadCmd, State.wait_of_fetchesOp hf, if_neg (by decide), State.seqRun_fetched hf hop, hc]
  rfl

/-- A load that has waited for its channel binds its operand once the channel is free. -/
theorem State.loadCmd_waited {k op : Nat} {weight : Bool} (hw : (s.core k).seq.wait = .channel) (ho : s.coreOpen k = true)
    (hop : fld (s.fetchWord k) 7 0 = op) (hf : s.chanFree k (fld (s.fetchWord k) 14 11) = true) :
    s.loadCmd k op weight = (s.bindOperand k weight (s.fetchWord k)).seqDone k := by
  rw [State.loadCmd, if_pos hw]
  simp [ho, hop, hf]

/-- An operand in slots. -/
def slotBinding (w : BitVec 128) : Binding := { bound := true, dslot := fld w 21 16, sslot := fld w 27 22 }

/-- An operand that a channel fetches. -/
def fetchBinding (w : BitVec 128) : Binding :=
  { bound := true, fetch := true, ch := fld w 14 11, sbase := fld w 29 16, slen := fld w 43 30, kch := fld w 49 44 }

theorem State.bindOperand_slots {k : Nat} {weight : Bool} {w : BitVec 128} (h : flag w 15 = false) :
    s.bindOperand k weight w = s.modTile k (wTh w) (fun t => t.setBind weight (slotBinding w)) := by
  simp only [State.bindOperand, h, Bool.false_eq_true, if_false]
  rfl

theorem State.bindOperand_fetch {k : Nat} {weight : Bool} {w : BitVec 128} (h : flag w 15 = true) :
    s.bindOperand k weight w = (s.modTile k (wTh w) (fun t => t.setBind weight (fetchBinding w))).fetchStart k (fld w 14 11) (wTh w)
      weight := by
  simp only [State.bindOperand, h, if_true]
  rfl

theorem State.chan_modTile (k h : Nat) (f : Tile → Tile) (ch : Nat) : (s.modTile k h f).chan k ch = s.chan k ch := by
  rw [State.chan, State.modTile, State.core_modCore_self]
  rfl

theorem State.seq_fetchStart (k ch h : Nat) (weight : Bool) : ((s.fetchStart k ch h weight).core k).seq = (s.core k).seq := by
  rw [State.fetchStart, State.modChan, State.core_modCore_self]

theorem State.seq_bindOperand (k : Nat) (weight : Bool) (w : BitVec 128) : ((s.bindOperand k weight w).core k).seq = (s.core k).seq := by
  cases h : flag w 15
  · rw [State.bindOperand_slots h, State.seq_modTile]
  · rw [State.bindOperand_fetch h, State.seq_fetchStart, State.seq_modTile]

theorem State.only_bindOperand (k : Nat) (weight : Bool) (w : BitVec 128) : only [.cores] s (s.bindOperand k weight w) :=
  (only.refl _ s).bindOperand (by simp) _ _ _

/-- What binding an operand by a channel's fetch leaves. -/
theorem State.bindOperand_fetches {k : Nat} {weight : Bool} {w : BitVec 128} (h : flag w 15 = true) :
    ((s.bindOperand k weight w).chan k (fld w 14 11)).st = .run ∧
    ((s.bindOperand k weight w).chan k (fld w 14 11)).use_ = .fetch (wTh w) weight ∧
    (∀ d, d ≠ fld w 14 11 → (s.bindOperand k weight w).chan k d = s.chan k d) ∧
    (s.bindOperand k weight w).tile k (wTh w) = (s.tile k (wTh w)).setBind weight (fetchBinding w) ∧
    onlyTile k (wTh w) s (s.bindOperand k weight w) := by
  rw [State.bindOperand_fetch h]
  refine ⟨?_, ?_, fun d hd => ?_, ?_, ?_⟩
  · rw [State.fetchStart, State.chan_modChan_self]
  · rw [State.fetchStart, State.chan_modChan_self]
  · rw [State.fetchStart, State.chan_modChan_ne _ _ hd, State.chan_modTile]
  · rw [State.fetchStart, State.tile_modChan, State.tile_modTile_self]
  · exact (onlyTile_modTile s _).of_tiles_eq fun j => State.tile_modChan _ _ _ _

/-- What a load by a channel's fetch leaves, whether it goes on at once or has waited. -/
def Fetches (k : Nat) (weight : Bool) (w : BitVec 128) (s t : State) : Prop :=
  (t.chan k (fld w 14 11)).st = .run ∧ (t.chan k (fld w 14 11)).use_ = .fetch (wTh w) weight ∧
  (∀ d, d ≠ fld w 14 11 → t.chan k d = s.chan k d) ∧
  t.tile k (wTh w) = (s.tile k (wTh w)).setBind weight (fetchBinding w) ∧
  onlyTile k (wTh w) s t ∧ onlyCore k s t ∧ onlyRingIndex k s t ∧ only [.cores, .regs, .mem] s t

theorem State.chan_seqDone (k ch : Nat) : (s.seqDone k).chan k ch = s.chan k ch := by
  rw [State.chan, State.core_seqDone, State.chan]

theorem State.bindOperand_goesOn {k : Nat} {weight : Bool} {w : BitVec 128} (h : flag w 15 = true) :
    goesOn k s ((s.bindOperand k weight w).seqGoOn k) ∧ Fetches k weight w s ((s.bindOperand k weight w).seqGoOn k) := by
  obtain ⟨h1, h2, h3, h4, h5⟩ := State.bindOperand_fetches (s := s) (k := k) (weight := weight) h
  refine ⟨goesOn_seqGoOn (.of_regs_eq (State.seq_bindOperand ..) (State.regs_of_only (State.only_bindOperand _ _ _) (by simp))), ?_, ?_,
    fun d hd => ?_, ?_, onlyTile_seqGoOn h5, ((onlyCore.refl _ s).bindOperand _ _).seqGoOn,
    onlyRingIndex_seqGoOn_of_only (State.only_bindOperand _ _ _) (by simp) (by simp),
    ((State.only_bindOperand _ _ _).mono (by simp)).seqGoOn (by simp) (by simp) (by simp) _⟩
  · rw [State.chan_seqGoOn, h1]
  · rw [State.chan_seqGoOn, h2]
  · rw [State.chan_seqGoOn, h3 d hd]
  · rw [State.tile_seqGoOn, h4]

theorem State.bindOperand_completes {k : Nat} {weight : Bool} {w : BitVec 128} (h : flag w 15 = true) :
    completes k s ((s.bindOperand k weight w).seqDone k) ∧ Fetches k weight w s ((s.bindOperand k weight w).seqDone k) := by
  obtain ⟨h1, h2, h3, h4, h5⟩ := State.bindOperand_fetches (s := s) (k := k) (weight := weight) h
  have hon : only [.cores] s (s.bindOperand k weight w) := State.only_bindOperand _ _ _
  have hseq := State.seq_bindOperand (s := s) k weight w
  refine ⟨completes_seqDone (by rw [hseq]) (by rw [hseq]) (by rw [hseq]), ?_, ?_, fun d hd => ?_, ?_,
    h5.of_tiles_eq fun j => State.tile_seqDone _ _, ((onlyCore.refl _ s).bindOperand _ _).seqDone,
    onlyRingIndex_seqDone ((hon .mem).resolve_left (by simp)) ?_, (hon.mono (by simp)).seqDone (by simp) (by simp) _⟩
  · rw [State.chan_seqDone, h1]
  · rw [State.chan_seqDone, h2]
  · rw [State.chan_seqDone, h3 d hd]
  · rw [State.tile_seqDone, h4]
  · rw [State.ringOff, State.ringOff, State.rg_of_regs_eq (State.regs_of_only hon (by simp))]

/-! ### PRELOAD, SCOUT, STEP, DRAIN, COMMIT and GAUGE -/

theorem execPreload_sets (hf : fetchesOp c.val 0x06 s) (hb : onlyBits (s.fetchWord c.val) [(8, 15)] = true)
    (hfm : fmtOk (fld (s.fetchWord c.val) 16 12) = true) (hcb : isCb (fld (s.fetchWord c.val) 16 12) = false)
    (hd : s.declared c.val (fld (s.fetchWord c.val) 22 17) = true) (hst : (s.tile c.val (wTh (s.fetchWord c.val))).st = .claimed)
    (hbg : (s.tile c.val (wTh (s.fetchWord c.val))).began = false) (hx : (s.curCtx c.val).isSome = true) :
    exec (.preload c) s = .next ((s.modTile c.val (wTh (s.fetchWord c.val)) (fun t => { t with
      pre := some (flag (s.fetchWord c.val) 11, fld (s.fetchWord c.val) 16 12, fld (s.fetchWord c.val) 22 17) })).seqGoOn c.val) := by
  rw [exec, execPreload, State.seqRun_fetched hf (by decide)]
  simp only [State.preloadCmd, hb, hfm, hcb, hd, State.takesBinding, hst, hbg, State.tileCause_none (suits := true) rfl hx,
    Bool.not_true, Bool.not_false, Bool.or_self, Bool.false_eq_true, if_false, decide_true, Bool.and_self, State.unless]

theorem execScout_waits (hf : fetchesOp c.val 0x07 s) (hb : onlyBits (s.fetchWord c.val) [(8, 6)] = true)
    (hst : (s.tile c.val (wTh (s.fetchWord c.val))).st = .claimed)
    (hbg : (s.tile c.val (wTh (s.fetchWord c.val))).began = false)
    (hl : (s.tile c.val (wTh (s.fetchWord c.val))).loaded = true)
    (hr : rungScout (Desc.rung (s.tileDesc c.val (wTh (s.fetchWord c.val))) (s.startRung c.val (wTh (s.fetchWord c.val)))) ≠ 0)
    (hx : (s.curCtx c.val).isSome = true) :
    exec (.scout c) s = .next (s.seqWait c.val (.scout (wTh (s.fetchWord c.val)) (fld (s.fetchWord c.val) 13 11))) := by
  rw [exec, execScout, State.seqRun_fetched hf (by decide)]
  simp only [State.scoutCmd, hb, State.takesBinding, hst, hbg, hl, hr, State.tileCause_none (suits := true) rfl hx, Bool.not_true,
    Bool.not_false, Bool.false_eq_true, if_false, decide_true, Bool.and_self, ne_eq, not_false_eq_true, State.unless]

theorem execStep_opens (hf : fetchesOp c.val 0x08 s) (hb : onlyBits (s.fetchWord c.val) [(8, 3)] = true)
    (hst : (s.tile c.val (wTh (s.fetchWord c.val))).st = .claimed)
    (hl : (s.tile c.val (wTh (s.fetchWord c.val))).loaded = true) (hx : (s.curCtx c.val).isSome = true) :
    exec (.step c) s = .next ((if (s.tile c.val (wTh (s.fetchWord c.val))).opened then
      (s.modTile c.val (wTh (s.fetchWord c.val)) (fun t => { t with st := .opened })).stepScouted c.val (wTh (s.fetchWord c.val))
      else s.modTile c.val (wTh (s.fetchWord c.val)) (fun t => { t with st := .opened })).seqGoOn c.val) := by
  rw [exec, execStep, State.seqRun_fetched hf (by decide)]
  simp only [State.stepCmd, hb, State.takesBinding, hst, hl, State.tileCause_none (suits := true) rfl hx, Bool.not_true,
    Bool.false_eq_true, if_false, decide_true, Bool.and_self, State.unless]

theorem execDrain_drains (hf : fetchesOp c.val 0x09 s) (hb : onlyBits (s.fetchWord c.val) [(8, 9)] = true)
    (hd : s.declared c.val (fld (s.fetchWord c.val) 16 11) = true) (hst : (s.tile c.val (wTh (s.fetchWord c.val))).st = .opened)
    (hp : s.isPart c.val (wTh (s.fetchWord c.val)) = false) (hx : (s.curCtx c.val).isSome = true) :
    exec (.drain c) s = .next ((s.modTile c.val (wTh (s.fetchWord c.val))
      (fun t => { t with st := .output, oslot := some (fld (s.fetchWord c.val) 16 11) })).seqGoOn c.val) := by
  rw [exec, execDrain, State.seqRun_fetched hf (by decide)]
  simp only [State.drainCmd, hb, hd, hst, hp, State.tileCause_none (suits := true) rfl hx, Bool.not_true, Bool.not_false,
    Bool.false_eq_true, if_false, decide_true, Bool.and_self, State.unless]

theorem execCommit_waits (hf : fetchesOp c.val 0x13 s) (hb : onlyBits (s.fetchWord c.val) [(8, 12)] = true)
    (hx : (s.curCtx c.val).isSome = true)
    (hst : (s.tile c.val (wTh (s.fetchWord c.val))).st = .output ∨ ((s.tile c.val (wTh (s.fetchWord c.val))).st = .opened ∧
      (s.tile c.val (wTh (s.fetchWord c.val))).partSent ≠ 0)) :
    exec (.commit c) s = .next ((s.modTile c.val (wTh (s.fetchWord c.val)) (fun t => { t with
      commit := some { sd := fld (s.fetchWord c.val) 13 11, store := flag (s.fetchWord c.val) 15, ch := fld (s.fetchWord c.val) 19 16 } })).seqWait
        c.val (.commit (wTh (s.fetchWord c.val)))) := by
  have hfree : (s.tile c.val (wTh (s.fetchWord c.val))).st ≠ .free := by
    obtain h | ⟨h, -⟩ := hst <;> rw [h] <;> decide
  rw [exec, execCommit, State.seqRun_fetched hf (by decide)]
  simp only [State.commitCmd, hb, hfree, Bool.not_true, Bool.false_eq_true, if_false, decide_false, Bool.and_false, Bool.false_and]
  rw [State.tileCause_none (by obtain h | ⟨h, hp⟩ := hst <;> simp [*]) hx]
  rfl

theorem execCommit_skips (hf : fetchesOp c.val 0x13 s) (hb : onlyBits (s.fetchWord c.val) [(8, 12)] = true)
    (hx : (s.curCtx c.val).isSome = true) (h14 : flag (s.fetchWord c.val) 14 = true)
    (hst : (s.tile c.val (wTh (s.fetchWord c.val))).st = .free) :
    exec (.commit c) s = .next ((s.setScalar c.val (fld (s.fetchWord c.val) 13 11) 0).seqGoOn c.val) := by
  rw [exec, execCommit, State.seqRun_fetched hf (by decide)]
  simp only [State.commitCmd, hb, h14, hst, hx, Bool.not_true, Bool.false_eq_true, if_false, decide_true, Bool.and_self, if_true]

theorem execGaugeForce_sets (hf : fetchesOp c.val 0x17 s) (hb : onlyBits (s.fetchWord c.val) [(8, 4)] = true)
    (hst : (s.tile c.val (wTh (s.fetchWord c.val))).st = .claimed) (hx : (s.curCtx c.val).isSome = true)
    (h11 : flag (s.fetchWord c.val) 11 = false) :
    exec (.gaugeForce c) s = .next ((s.modTile c.val (wTh (s.fetchWord c.val))
      (fun t => { t with gforce := true, gskip := false })).seqGoOn c.val) := by
  rw [exec, execGaugeForce, State.gaugeCmd, State.seqRun_fetched hf (by decide)]
  simp [hb, h11, State.takesBinding, hst, State.tileCause_none (suits := true) rfl hx, State.unless]

theorem execGaugeSkip_sets (hf : fetchesOp c.val 0x17 s) (hb : onlyBits (s.fetchWord c.val) [(8, 4)] = true)
    (hst : (s.tile c.val (wTh (s.fetchWord c.val))).st = .claimed) (hx : (s.curCtx c.val).isSome = true)
    (h11 : flag (s.fetchWord c.val) 11 = true) (he : (s.tileCtx c.val (wTh (s.fetchWord c.val))).exact_ = false) :
    exec (.gaugeSkip c) s = .next ((s.modTile c.val (wTh (s.fetchWord c.val))
      (fun t => { t with gskip := true, gforce := false })).seqGoOn c.val) := by
  rw [exec, execGaugeSkip, State.gaugeCmd, State.seqRun_fetched hf (by decide)]
  simp [hb, h11, State.takesBinding, hst, he, State.tileCause_none (suits := true) rfl hx, State.unless]

/-! ### STEP of a tile that SCOUT has opened -/

theorem State.seq_sampleDue (k h : Nat) : ((s.sampleDue k h).core k).seq = (s.core k).seq := by
  unfold State.sampleDue
  split
  · rw [State.core_modCore_self]
    exact State.seq_modTile k h _ k
  · rfl

theorem State.core_arrKick (k : Nat) : ((s.arrKick k).core k).seq = (s.core k).seq ∧ ((s.arrKick k).core k).arr = (s.core k).arr := by
  unfold State.arrKick
  split
  · exact ⟨State.seq_modTile .., State.arr_modTile ..⟩
  · exact ⟨rfl, rfl⟩

theorem State.seq_arrEnter (k h : Nat) (first : Bool) : ((s.arrEnter k h first).core k).seq = (s.core k).seq := by
  rw [State.arrEnter, (State.core_arrKick _).1, State.modArr, State.core_modCore_self]

/-- A handle in the array's queue streams or is still in the queue once the array may start. -/
theorem Arr.start_mem {a : Arr} {h : Nat} (hm : h ∈ a.queue) : a.start.cur = some h ∨ h ∈ a.start.queue := by
  unfold Arr.start
  split
  · next k q hc hq =>
    rw [hq, List.mem_cons] at hm
    exact hm.imp (fun e => by rw [e]) id
  · exact .inr hm

/-- A tile that joins the array streams or waits in its queue. -/
theorem State.arr_arrEnter (k h : Nat) :
    ((s.arrEnter k h false).core k).arr.cur = some h ∨ h ∈ ((s.arrEnter k h false).core k).arr.queue := by
  rw [State.arrEnter, (State.core_arrKick _).2, State.modArr, State.core_modCore_self]
  exact Arr.start_mem (by simp)

/-- A tile's geometry follows from its item, its rung and its layer. -/
theorem State.geo_congr {k h : Nat} (h1 : (t.tile k h).ctx = (s.tile k h).ctx) (h2 : (t.tile k h).rec_ = (s.tile k h).rec_)
    (h3 : (t.tile k h).rung = (s.tile k h).rung) (hq : (t.core k).seq.ctxs = (s.core k).seq.ctxs) (hr : t.regs = s.regs) :
    t.geo k h = s.geo k h := by
  have hx : t.tileCtx k h = s.tileCtx k h := by rw [State.tileCtx, State.tileCtx, State.ctxOf, State.ctxOf, hq, h1]
  simp only [State.geo, State.geoAt, State.tileRung, State.tileDesc, hx, h2, h3, State.rf, State.rg, hr]

theorem Geo.addsDue_congr (g : Geo) {x y : Tile} (hp : x.pass2 = y.pass2) (ha : x.acc = y.acc) : g.addsDue x = g.addsDue y := by
  have hl : g.rowLive x = g.rowLive y := by
    funext row
    rw [Geo.rowLive, Geo.rowLive, hp, ha]
  rw [Geo.addsDue, Geo.addsDue, hl]

/-- A tile joins the array, sampled where its layer says so. -/
def State.joined (s : State) (k h : Nat) : State := (s.sampleDue k h).arrEnter k h false

theorem State.only_joined (k h : Nat) : only [.cores] s (s.joined k h) := ((only.refl _ s).sampleDue (by simp) _ _).arrEnter (by simp) _ _ _

theorem State.seq_joined (k h : Nat) : ((s.joined k h).core k).seq = (s.core k).seq := (State.seq_arrEnter ..).trans (State.seq_sampleDue ..)

theorem StepHeld.joined (k h : Nat) : StepHeld k h s (s.joined k h) := ((StepHeld.refl k h s).sampleDue _ _).arrEnter _ _ _

/-- A tile with a pass before it streams on; nothing of it ends. -/
theorem State.stepScouted_streams {k h : Nat}
    (hp : (s.tile k h).pass2 = false ∨ (s.geo k h).addsDue (s.tile k h) ≠ 0) : s.stepScouted k h = s.joined k h := by
  have hk := StepHeld.joined (s := s) k h
  obtain ⟨-, h1, h2, h3, h4, h5⟩ := hk
  change (if ((s.joined k h).tile k h).pass2 then (s.joined k h).fullPass k h else s.joined k h) = s.joined k h
  rw [h4]
  obtain hp | hp := hp
  · rw [if_neg (by simp [hp])]
  · have hg : (s.joined k h).geo k h = s.geo k h :=
      State.geo_congr h1 h2 h3 (by rw [State.seq_joined]) (State.regs_of_only (State.only_joined k h) (by simp))
    split
    · rw [State.fullPass, hg, Geo.addsDue_congr _ h4 h5, if_neg hp]
    · rfl

/-- A STEP of a tile that SCOUT has opened, with a pass before it. -/
theorem State.stepScouted_goesOn {k h : Nat} (hp : (s.tile k h).pass2 = false ∨ (s.geo k h).addsDue (s.tile k h) ≠ 0)
    (hu : t = s.modTile k h (fun t => { t with st := .opened })) :
    goesOn k s ((t.stepScouted k h).seqGoOn k) ∧ (((t.stepScouted k h).seqGoOn k).tile k h).st = .opened ∧
      ((((t.stepScouted k h).seqGoOn k).core k).arr.cur = some h ∨ h ∈ (((t.stepScouted k h).seqGoOn k).core k).arr.queue) ∧
      onlyCore k s ((t.stepScouted k h).seqGoOn k) ∧ onlyRingIndex k s ((t.stepScouted k h).seqGoOn k) := by
  have ht : t.tile k h = { s.tile k h with st := .opened } := by rw [hu, State.tile_modTile_self]
  have hseq : (t.core k).seq = (s.core k).seq := by rw [hu, State.seq_modTile]
  have hot : only [.cores] s t := hu ▸ (only.refl _ s).modTile (by simp) _ _ _
  have hoc : onlyCore k s t := hu ▸ (onlyCore.refl _ s).modTile _ _
  have hg : t.geo k h = s.geo k h := State.geo_congr (by rw [ht]) (by rw [ht]) (by rw [ht]) (by rw [hseq])
    (State.regs_of_only hot (by simp))
  have hon : only [.cores] s (t.joined k h) := only.trans hot (State.only_joined k h)
  rw [State.stepScouted_streams (by rw [hg, ht]; exact hp)]
  refine ⟨goesOn_seqGoOn (.of_regs_eq (by rw [State.seq_joined, hseq]) (State.regs_of_only hon (by simp))), ?_, ?_,
    ((hoc.sampleDue _).arrEnter _ _).seqGoOn, onlyRingIndex_seqGoOn_of_only hon (by simp) (by simp)⟩
  · obtain ⟨h1, -⟩ := StepHeld.joined (s := t) k h
    rw [State.tile_seqGoOn, h1, ht]
  · rw [State.core_seqGoOn]
    exact State.arr_arrEnter k h

/-! ### The obligation -/

theorem State.rg_seqIssued_setScalar {k sd v : Nat} (h : sd < 8) : (s.setScalar k sd v).rg .seqIssued k = s.rg .seqIssued k := by
  refine State.rg_setRg64_far ?_
  simp only [regAddr, RegName.row, Blk.isCore, Blk.base, if_true]
  omega

theorem State.scalar_seqGoOn (k sd : Nat) (h : sd < 8) : (s.seqGoOn k).scalar k sd = s.scalar k sd := by
  have hne : regAddr .seqS k sd 0 ≠ regAddr .seqIssued k 0 0 ∧ regAddr .seqS k sd 0 + 4 ≠ regAddr .seqIssued k 0 0 := by
    simp only [regAddr, RegName.row, Blk.isCore, Blk.base, if_true]
    omega
  rw [State.scalar_of_regs_eq State.regs_seqGoOn, State.scalar, State.scalar, State.rg64, State.rg64, State.issued, State.count,
    State.rg_setRg_ne s _ hne.1]
  congr 3
  exact Sparse.get_put_ne _ _ _ _ hne.2

theorem fld_lt {w : Nat} (d : BitVec w) (hi lo : Nat) : fld d hi lo < 2 ^ (hi + 1 - lo) := Nat.mod_lt _ (Nat.two_pow_pos _)

/-- Settles O28, from the commands' effects and the rules of the sequencer. -/
theorem tileCommands : Obligations.TileCommands := by
  refine ⟨?_, ?_, ?_, ?_, ?_, ?_, ?_, ?_⟩
  · intro c s w b hc h15
    have hload (op : Nat) (weight : Bool) (hf : fetchesOp c.val op s) (hop : op ≤ 0x19) :
        s.loadCmd c.val op weight = (s.modTile c.val (wTh w) (fun t => t.setBind weight (slotBinding w))).seqGoOn c.val := by
      rw [State.loadCmd_fetched hf hop hc, if_neg (by simp only [w] at h15; simp [h15]), State.bindOperand_slots h15]
    refine ⟨fun hf => ?_, fun hf => ?_⟩
    · exact ⟨_, congrArg Host.Outcome.next (hload _ true hf (by decide)), State.modTile_goesOn s _ _ _⟩
    · exact ⟨_, congrArg Host.Outcome.next (hload _ false hf (by decide)), State.modTile_goesOn s _ _ _⟩
  · intro c s w ch b fetches h15
    refine ⟨fun hc hch => ?_, fun hc hch => ?_, fun hw ho hch => ?_⟩
    · have hload (op : Nat) (weight : Bool) (hf : fetchesOp c.val op s) (hop : op ≤ 0x19) :
          s.loadCmd c.val op weight = (s.bindOperand c.val weight w).seqGoOn c.val := by
        rw [State.loadCmd_fetched hf hop hc, if_neg (by simp only [ch, w] at hch; simp [hch])]
      refine ⟨fun hf => ?_, fun hf => ?_⟩
      · exact ⟨_, congrArg Host.Outcome.next (hload _ true hf (by decide)), State.bindOperand_goesOn h15⟩
      · exact ⟨_, congrArg Host.Outcome.next (hload _ false hf (by decide)), State.bindOperand_goesOn h15⟩
    · have hload (op : Nat) (weight : Bool) (hf : fetchesOp c.val op s) (hop : op ≤ 0x19) :
          s.loadCmd c.val op weight = s.seqWait c.val .channel := by
        rw [State.loadCmd_fetched hf hop hc, if_pos (by simp only [ch, w] at hch h15; simp [hch, h15])]
      refine ⟨fun hf => ?_, fun hf => ?_⟩
      · exact ⟨_, congrArg Host.Outcome.next (hload _ true hf (by decide)), waitsIn_seqWait _ (SeqAt.refl _ s),
          (onlyCore.refl _ s).seqWait _, (only.refl _ s).seqWait (by simp) (by simp) _ _⟩
      · exact ⟨_, congrArg Host.Outcome.next (hload _ false hf (by decide)), waitsIn_seqWait _ (SeqAt.refl _ s),
          (onlyCore.refl _ s).seqWait _, (only.refl _ s).seqWait (by simp) (by simp) _ _⟩
    · refine ⟨fun hop => ?_, fun hop => ?_⟩
      · exact ⟨_, congrArg Host.Outcome.next (State.loadCmd_waited hw ho hop hch), State.bindOperand_completes h15⟩
      · exact ⟨_, congrArg Host.Outcome.next (State.loadCmd_waited hw ho hop hch), State.bindOperand_completes h15⟩
  · intro c s w h hf hb hfm hcb hd hst hbg hx
    exact ⟨_, execPreload_sets hf hb hfm hcb hd hst hbg hx, State.modTile_goesOn s _ _ _⟩
  · intro c s w h hf hb hst hbg hl hr hx
    exact ⟨_, execScout_waits hf hb hst hbg hl hr hx, waitsIn_seqWait _ (SeqAt.refl _ s), fun k => State.tile_seqWait _ _,
      (onlyCore.refl _ s).seqWait _, (only.refl _ s).seqWait (by simp) (by simp) _ _⟩
  · intro c s w h hf hb hst hl hx
    have he := execStep_opens hf hb hst hl hx
    refine ⟨fun ho => ?_, fun ho hp => ?_, fun ho hp => ?_⟩
    · rw [if_neg (by simpa [h, w] using ho)] at he
      exact ⟨_, he, State.modTile_goesOn s _ _ _⟩
    · rw [if_pos ho] at he
      exact ⟨_, he, State.stepScouted_goesOn (.inl hp) rfl⟩
    · rw [if_pos ho] at he
      exact ⟨_, he, State.stepScouted_goesOn (.inr hp) rfl⟩
  · intro c s w h hf hb hd hst hp hx
    exact ⟨_, execDrain_drains hf hb hd hst hp hx, State.modTile_goesOn s _ _ _⟩
  · intro c s w h hf hb hx
    refine ⟨fun hst => ?_, fun h14 hst => ?_⟩
    · refine ⟨_, execCommit_waits hf hb hx hst, waitsIn_seqWait _ ((SeqAt.refl _ s).modTile _ _), ?_,
        onlyTile_seqWait (onlyTile_modTile s _), ((onlyCore.refl _ s).modTile _ _).seqWait _,
        ((only.refl _ s).modTile (by simp) _ _ _).seqWait (by simp) (by simp) _ _⟩
      rw [State.tile_seqWait, State.tile_modTile_self]
    · have hsd : fld w 13 11 < 8 := fld_lt w 13 11
      refine ⟨_, execCommit_skips hf hb hx h14 hst, goesOn_seqGoOn (.of_seq_eq rfl (State.rg_seqIssued_setScalar hsd)), ?_,
        fun k => State.tile_seqGoOn _, ((onlyCore.refl _ s).setScalar _ _ _).seqGoOn, onlyRingIndex_seqGoOn rfl ?_,
        ((only.refl _ s).setScalar (by simp) _ _ _).seqGoOn (by simp) (by simp) (by simp) _⟩
      · rw [State.scalar_seqGoOn _ _ hsd, State.scalar_setScalar, Nat.zero_mod]
      · refine State.rg_setRg64_far ?_
        simp only [regAddr, RegName.row, Blk.isCore, Blk.base, if_true]
        omega
  · intro c s w h hf hb hst hx
    refine ⟨fun h11 => ?_, fun h11 he => ?_⟩
    · exact ⟨_, execGaugeForce_sets hf hb hst hx h11, State.modTile_goesOn s _ _ _⟩
    · exact ⟨_, execGaugeSkip_sets hf hb hst hx h11 he, State.modTile_goesOn s _ _ _⟩

end Sys2Proof.Machine
end

section
set_option Elab.async false
/-! What shared operations leave unchanged. -/

namespace Sys2Proof
open Sys2Proof.Machine
variable {ps : List Part} {s₀ s t u : State} {c cc : Nat}

theorem only.mesh (hk : only ps s₀ s) (m1 : Part.cores ∈ ps) (c : Nat) (d : Option Nat) (n : Nat)
    : only ps s₀ (s.mesh c d n) := by
  unfold State.mesh
  grind [only.fields, only.act]

theorem only.touch (hk : only ps s₀ s) (m1 : Part.pnt ∈ ps) (st w : Nat) (h : Hint) : only ps s₀ (s.touch st w h) := by
  unfold State.touch
  grind [only.fields]

theorem only.allocate (hk : only ps s₀ s) (m1 : Part.mem ∈ ps) (m2 : Part.pnt ∈ ps) (m3 : Part.clr ∈ ps) (st : Nat)
    (x : PLine) (h : Hint) : only ps s₀ (s.allocate st x h) := by
  unfold State.allocate
  grind [only.fields, only.writeBack, only.setWay, only.touch]

theorem only.countPantry (hk : only ps s₀ s) (m1 : Part.regs ∈ ps) (g : Nat) (hit : Bool)
    : only ps s₀ (s.countPantry g hit) := by
  unfold State.countPantry
  grind [only.fields, only.count64]

theorem only.writeLine (hk : only ps s₀ s) (m1 : Part.regs ∈ ps) (m2 : Part.mem ∈ ps) (m3 : Part.pnt ∈ ps)
    (m4 : Part.clr ∈ ps) (h : Hint) (l o : Nat) (bs : List Byte) : only ps s₀ (s.writeLine h l o bs) := by
  unfold State.writeLine
  grind (gen := 40) (ematch := 40) [only.fields, only.putLine, only.countPantry, only.setWay, only.touch, only.allocate]

theorem only.cellarWrite (hk : only ps s₀ s) (m1 : Part.regs ∈ ps) (m2 : Part.mem ∈ ps) (m3 : Part.pnt ∈ ps)
    (m4 : Part.clr ∈ ps) (h : Hint) (a : Nat) (bs : List Byte) : only ps s₀ (s.cellarWrite h a bs) := by
  unfold State.cellarWrite
  grind [only.fields, only.each, only.writeLine]

theorem only.groupAct (hk : only ps s₀ s) (m1 : Part.mtr ∈ ps) (g j n : Nat) : only ps s₀ (s.groupAct g j n) := by
  unfold State.groupAct
  grind [only.fields]

theorem only.closeClaim (hk : only ps s₀ s) (m1 : Part.sdt ∈ ps) (x : Claim) : only ps s₀ (s.closeClaim x) := by
  unfold State.closeClaim
  grind [only.fields]

theorem only.endClaim (hk : only ps s₀ s) (m1 : Part.sdt ∈ ps) (c d tile epoch : Nat)
    : only ps s₀ (s.endClaim c d tile epoch) := by
  unfold State.endClaim
  grind [only.fields, only.closeClaim, only.settle]

theorem only.latch (hk : only ps s₀ s) (m1 : Part.cores ∈ ps) (c h : Nat) : only ps s₀ (s.latch c h) := by
  unfold State.latch
  grind [only.fields, only.modTile]

theorem only.guardNow (hk : only ps s₀ s) (m1 : Part.cores ∈ ps) (c h : Nat) : only ps s₀ (s.guardNow c h) := by
  unfold State.guardNow
  grind [only.fields, only.modTile]

theorem only.abortChans (hk : only ps s₀ s) (m1 : Part.regs ∈ ps) (m3 : Part.cores ∈ ps) (c h : Nat) :
    only ps s₀ (s.abortChans c h) := by
  unfold State.abortChans
  grind [only.each, only.chanHalt]

theorem only.abortWait (hk : only ps s₀ s) (m1 : Part.regs ∈ ps) (m2 : Part.mem ∈ ps) (m3 : Part.cores ∈ ps) (c h : Nat)
    (tsw : W32) : only ps s₀ (s.abortWait c h tsw) := by
  unfold State.abortWait
  grind [only.fields, only.setScalar, only.seqDone]

theorem only.abortTile (hk : only ps s₀ s) (m1 : Part.regs ∈ ps) (m2 : Part.mem ∈ ps) (m3 : Part.cores ∈ ps)
    (m4 : Part.sdt ∈ ps) (c h : Nat) : only ps s₀ (s.abortTile c h) := by
  unfold State.abortTile
  have ht := (((hk.flagTile m3 c h [fABORT]).releaseSlots m3 c h).abortChans m1 m3 c h).abortWait m1 m2 m3 c h
    ((s.flagTile c h [fABORT]).tileTsw c h)
  exact (only.fields ht (.inr rfl) (.inr rfl) (.inr rfl) (.inr rfl) (.inr rfl) (.inr rfl) (.inr rfl) (.inr rfl) (.inl m4)
    (.inr rfl) (.inr rfl) (.inr rfl) (.inr rfl) (.inr rfl) (.inr rfl) (.inr rfl) (.inr rfl) (.inr rfl) (.inr rfl) (.inr rfl)
    (.inr rfl)).freeTile m3 _ _

theorem only.writeSlot (hk : only ps s₀ s) (m1 : Part.free ∈ ps) (m2 : Part.regs ∈ ps) (m3 : Part.mem ∈ ps)
    (m4 : Part.pnt ∈ ps) (m5 : Part.clr ∈ ps) (m6 : Part.mtr ∈ ps) (g tile : Nat) : only ps s₀ (s.writeSlot g tile) := by
  unfold State.writeSlot
  grind [only.fields, only.draw, only.groupAct, only.cellarWrite]

theorem only.endTile (hk : only ps s₀ s) (m1 : Part.regs ∈ ps) (m2 : Part.mem ∈ ps) (m3 : Part.cores ∈ ps)
    (m4 : Part.sdt ∈ ps) (c h : Nat) : only ps s₀ (s.endTile c h) := by
  unfold State.endTile
  grind [only.fields, only.endClaim, only.abortTile]

theorem onlyCore.mesh (hk : onlyCore c s₀ s) (d : Option Nat) (n : Nat) : onlyCore c s₀ (s.mesh c d n) := by
  unfold State.mesh
  grind [onlyCore.fields, onlyCore.act]

theorem onlyCore.refetch (hk : onlyCore c s₀ s) (h : Nat) : onlyCore c s₀ (s.refetch c h) := by
  unfold State.refetch
  grind [onlyCore.fields, onlyCore.each, onlyCore.unstall, onlyCore.fetchStart]

theorem onlyCore.latch (hk : onlyCore c s₀ s) (h : Nat) : onlyCore c s₀ (s.latch c h) := by
  unfold State.latch
  grind [onlyCore.fields, onlyCore.modTile]

theorem onlyCore.guardNow (hk : onlyCore c s₀ s) (h : Nat) : onlyCore c s₀ (s.guardNow c h) := by
  unfold State.guardNow
  grind [onlyCore.fields, onlyCore.modTile]

theorem onlyCore.fillSum (hk : onlyCore c s₀ s) (h : Nat) (reran more : Bool) : onlyCore c s₀ (s.fillSum c h reran more) := by
  unfold State.fillSum
  grind [onlyCore.fields, onlyCore.mesh, onlyCore.modTile]

theorem onlyCore.scoutEnds (hk : onlyCore c s₀ s) (h : Nat) : onlyCore c s₀ (s.scoutEnds c h) := by
  unfold State.scoutEnds
  grind [onlyCore.fields, onlyCore.setScalar, onlyCore.seqDone]

theorem onlyCore.openAttempt (hk : onlyCore c s₀ s) (h rung : Nat) (reran more : Bool)
    : onlyCore c s₀ (s.openAttempt c h rung reran more) := by
  unfold State.openAttempt
  grind [onlyCore.fields, onlyCore.latch, onlyCore.guardNow, onlyCore.fillSum, onlyCore.refetch, onlyCore.sampleDue,
    onlyCore.modTile, onlyCore.arrEnter, onlyCore.scoutEnds]

end Sys2Proof
end

section
set_option Elab.async false
/-! What the checks and the array leave of an open tile. -/

namespace Sys2Proof.Machine
open Sys2Proof
variable {s₀ s t u : State} {c cc hh : Nat}

/-- The tile stays open at its rung, with its outputs and settings. -/
def OpenHeld (c h : Nat) (s t : State) : Prop := (t.tile c h).st = (s.tile c h).st ∧ (t.tile c h).rung = (s.tile c h).rung ∧ (t.tile c h).began = (s.tile c h).began ∧ (t.tile c h).opened = (s.tile c h).opened ∧ (t.tile c h).latched = (s.tile c h).latched ∧ (t.tile c h).ended = (s.tile c h).ended ∧ (t.tile c h).acc = (s.tile c h).acc ∧ (t.tile c h).sumFrom = (s.tile c h).sumFrom

theorem OpenHeld.refl (c h : Nat) (s : State) : OpenHeld c h s s := ⟨rfl, rfl, rfl, rfl, rfl, rfl, rfl, rfl⟩

theorem OpenHeld.of_tile_eq (hk : OpenHeld cc hh s₀ s) (e : t.tile cc hh = s.tile cc hh) : OpenHeld cc hh s₀ t := by
  rwa [OpenHeld, e]

theorem OpenHeld.of_cores_eq (hk : OpenHeld cc hh s₀ s) (e : t.cores = s.cores) : OpenHeld cc hh s₀ t :=
  hk.of_tile_eq (by rw [State.tile, State.tile, State.core, State.core, e])

theorem OpenHeld.fields (hk : OpenHeld cc hh s₀ s) {a1 a2 a3 a4 a5 a6 a7 a9 a10 a11 a12 a13 a14 a15 a16 a17 a18 a19 a20 a21} :
    OpenHeld cc hh s₀ (State.mk a1 a2 a3 a4 a5 a6 a7 s.cores a9 a10 a11 a12 a13 a14 a15 a16 a17 a18 a19 a20 a21) := hk.of_cores_eq rfl

theorem OpenHeld.modCore (hk : OpenHeld cc hh s₀ s) (c : Nat) (f : Core → Core) (hf : ∀ k, (f k).tiles = k.tiles) : OpenHeld cc hh s₀ (s.modCore c f) :=
  hk.of_tile_eq (by
    by_cases hc : cc = c
    · subst hc
      exact State.tile_modCore cc f hh hf
    · rw [State.tile, State.core_modCore_ne s f hc]
      rfl)

theorem OpenHeld.modTile (hk : OpenHeld cc hh s₀ s) (c h : Nat) (f : Tile → Tile) (hf : ∀ t, (f t).st = t.st ∧ (f t).rung = t.rung ∧ (f t).began = t.began ∧ (f t).opened = t.opened ∧ (f t).latched = t.latched ∧ (f t).ended = t.ended ∧ (f t).acc = t.acc ∧ (f t).sumFrom = t.sumFrom) :
    OpenHeld cc hh s₀ (s.modTile c h f) := by
  by_cases hc : cc = c
  · subst hc
    by_cases hh' : hh = h
    · subst hh'
      have e := hf (s.tile cc hh)
      unfold OpenHeld at *
      rw [State.tile_modTile_self]
      simp only [e]
      exact hk
    · exact hk.of_tile_eq (State.tile_modTile_ne s f hh')
  · exact hk.of_tile_eq (by rw [State.tile, State.modTile, State.core_modCore_ne s _ hc]; rfl)

theorem OpenHeld.log (hk : OpenHeld cc hh s₀ s) (e : Event) : OpenHeld cc hh s₀ (s.log e) := hk.of_cores_eq (State.log_cores s e)

theorem OpenHeld.setRg (hk : OpenHeld cc hh s₀ s) (n : RegName) (c i j : Nat) (v : W32)
    : OpenHeld cc hh s₀ (s.setRg n c i j v) := by
  unfold State.setRg
  grind [OpenHeld.fields]

theorem OpenHeld.count (hk : OpenHeld cc hh s₀ s) (n : RegName) (c i k : Nat) : OpenHeld cc hh s₀ (s.count n c i k) := by
  unfold State.count
  grind [OpenHeld.fields, OpenHeld.setRg]

theorem OpenHeld.modSeq (hk : OpenHeld cc hh s₀ s) (c : Nat) (f : Seq → Seq) : OpenHeld cc hh s₀ (s.modSeq c f) := by
  unfold State.modSeq
  grind [OpenHeld.fields, OpenHeld.modCore]

theorem OpenHeld.modArr (hk : OpenHeld cc hh s₀ s) (c : Nat) (f : Arr → Arr) : OpenHeld cc hh s₀ (s.modArr c f) := by
  unfold State.modArr
  grind [OpenHeld.fields, OpenHeld.modCore]

theorem OpenHeld.act (hk : OpenHeld cc hh s₀ s) (c j n : Nat) : OpenHeld cc hh s₀ (s.act c j n) := by
  unfold State.act
  grind [OpenHeld.fields, OpenHeld.modCore]

theorem OpenHeld.mesh (hk : OpenHeld cc hh s₀ s) (c : Nat) (d : Option Nat) (n : Nat) : OpenHeld cc hh s₀ (s.mesh c d n) := by
  unfold State.mesh
  grind [OpenHeld.fields, OpenHeld.act]

theorem OpenHeld.tileEvent (hk : OpenHeld cc hh s₀ s) (c h code cls detail : Nat)
    : OpenHeld cc hh s₀ (s.tileEvent c h code cls detail) := by
  unfold State.tileEvent
  grind [OpenHeld.fields, OpenHeld.log]

theorem OpenHeld.arrKick (hk : OpenHeld cc hh s₀ s) (c : Nat) : OpenHeld cc hh s₀ (s.arrKick c) := by
  unfold State.arrKick
  grind [OpenHeld.fields, OpenHeld.modTile]

theorem OpenHeld.arrEnter (hk : OpenHeld cc hh s₀ s) (c h : Nat) (first : Bool) : OpenHeld cc hh s₀ (s.arrEnter c h first) := by
  unfold State.arrEnter
  grind [OpenHeld.fields, OpenHeld.modArr, OpenHeld.arrKick]

theorem OpenHeld.sampleDue (hk : OpenHeld cc hh s₀ s) (c h : Nat) : OpenHeld cc hh s₀ (s.sampleDue c h) := by
  unfold State.sampleDue
  split
  · refine OpenHeld.modCore (OpenHeld.modTile hk _ _ _ ?_) _ _ ?_
    · intro t
      exact ⟨rfl, rfl, rfl, rfl, rfl, rfl, rfl, rfl⟩
    · intro k
      rfl
  · exact hk

theorem OpenHeld.sendPart (hk : OpenHeld cc hh s₀ s) (c h : Nat) : OpenHeld cc hh s₀ (s.sendPart c h) := by
  unfold State.sendPart
  grind [OpenHeld.fields, OpenHeld.mesh, OpenHeld.modSeq]

theorem OpenHeld.ladderTop (hk : OpenHeld cc hh s₀ s) (c h : Nat) : OpenHeld cc hh s₀ (s.ladderTop c h) := by
  unfold State.ladderTop
  grind [OpenHeld.fields, OpenHeld.modTile, OpenHeld.count, OpenHeld.tileEvent]

end Sys2Proof.Machine
end

section
set_option Elab.async false
/-! What a commit leaves of the channels of its core. -/

namespace Sys2Proof.Machine
open Sys2Proof
variable {s₀ s t u : State} {c cc : Nat}

/-- The core's channels stay. -/
def ChanHeld (c : Nat) (s t : State) : Prop := (t.core c).chans = (s.core c).chans

theorem ChanHeld.refl (c : Nat) (s : State) : ChanHeld c s s := rfl

theorem ChanHeld.of_core_eq (hk : ChanHeld cc s₀ s) (e : t.core cc = s.core cc) : ChanHeld cc s₀ t := by
  rwa [ChanHeld, e]

theorem ChanHeld.of_cores_eq (hk : ChanHeld cc s₀ s) (e : t.cores = s.cores) : ChanHeld cc s₀ t :=
  hk.of_core_eq (by rw [State.core, State.core, e])

theorem ChanHeld.fields (hk : ChanHeld cc s₀ s) {a1 a2 a3 a4 a5 a6 a7 a9 a10 a11 a12 a13 a14 a15 a16 a17 a18 a19 a20 a21} :
    ChanHeld cc s₀ (State.mk a1 a2 a3 a4 a5 a6 a7 s.cores a9 a10 a11 a12 a13 a14 a15 a16 a17 a18 a19 a20 a21) := hk.of_cores_eq rfl

theorem ChanHeld.modCore (hk : ChanHeld cc s₀ s) (c : Nat) (f : Core → Core) (hf : ∀ k, (f k).chans = k.chans) : ChanHeld cc s₀ (s.modCore c f) := by
  by_cases hc : cc = c
  · subst hc
    have e := hf (s.core cc)
    unfold ChanHeld at *
    rw [State.core_modCore_self]
    simp only [e]
    exact hk
  · exact hk.of_core_eq (State.core_modCore_ne s f hc)

theorem ChanHeld.modTile (hk : ChanHeld cc s₀ s) (c h : Nat) (f : Tile → Tile) : ChanHeld cc s₀ (s.modTile c h f) :=
  hk.modCore c _ fun _ => rfl

theorem ChanHeld.log (hk : ChanHeld cc s₀ s) (e : Event) : ChanHeld cc s₀ (s.log e) := hk.of_cores_eq (State.log_cores s e)

theorem ChanHeld.setBytes (hk : ChanHeld cc s₀ s) (a : Nat) (bs : List Byte) : ChanHeld cc s₀ (s.setBytes a bs) :=
  hk.of_cores_eq (State.setBytes_cores s a bs)

theorem ChanHeld.setRg (hk : ChanHeld cc s₀ s) (n : RegName) (c i j : Nat) (v : W32) : ChanHeld cc s₀ (s.setRg n c i j v) := by
  unfold State.setRg
  grind [ChanHeld.fields]

theorem ChanHeld.setRgHi (hk : ChanHeld cc s₀ s) (n : RegName) (c i j : Nat) (v : W32)
    : ChanHeld cc s₀ (s.setRgHi n c i j v) := by
  unfold State.setRgHi
  grind [ChanHeld.fields]

theorem ChanHeld.setRg64 (hk : ChanHeld cc s₀ s) (n : RegName) (c i j v : Nat) : ChanHeld cc s₀ (s.setRg64 n c i j v) := by
  unfold State.setRg64
  grind [ChanHeld.fields, ChanHeld.setRg, ChanHeld.setRgHi]

theorem ChanHeld.modSeq (hk : ChanHeld cc s₀ s) (c : Nat) (f : Seq → Seq) : ChanHeld cc s₀ (s.modSeq c f) := by
  unfold State.modSeq
  grind [ChanHeld.fields, ChanHeld.modCore]

theorem ChanHeld.modArr (hk : ChanHeld cc s₀ s) (c : Nat) (f : Arr → Arr) : ChanHeld cc s₀ (s.modArr c f) := by
  unfold State.modArr
  grind [ChanHeld.fields, ChanHeld.modCore]

theorem ChanHeld.setSlot (hk : ChanHeld cc s₀ s) (c n : Nat) (x : Slot) : ChanHeld cc s₀ (s.setSlot c n x) := by
  unfold State.setSlot
  grind [ChanHeld.fields, ChanHeld.modCore]

theorem ChanHeld.setSpad (hk : ChanHeld cc s₀ s) (c off : Nat) (bs : List Byte) : ChanHeld cc s₀ (s.setSpad c off bs) := by
  unfold State.setSpad
  grind [ChanHeld.fields, ChanHeld.setBytes]

theorem ChanHeld.slotRelease (hk : ChanHeld cc s₀ s) (c n cls : Nat) : ChanHeld cc s₀ (s.slotRelease c n cls) := by
  unfold State.slotRelease
  grind [ChanHeld.fields, ChanHeld.setSlot]

theorem ChanHeld.writeRd (hk : ChanHeld cc s₀ s) (c : Nat) : ChanHeld cc s₀ (s.writeRd c) := by
  unfold State.writeRd
  grind [ChanHeld.fields, ChanHeld.setSpad]

theorem ChanHeld.setRd (hk : ChanHeld cc s₀ s) (c i : Nat) : ChanHeld cc s₀ (s.setRd c i) := by
  unfold State.setRd
  grind [ChanHeld.fields, ChanHeld.modSeq, ChanHeld.writeRd]

theorem ChanHeld.seqDoneAt (hk : ChanHeld cc s₀ s) (c i : Nat) : ChanHeld cc s₀ (s.seqDoneAt c i) := by
  unfold State.seqDoneAt
  grind [ChanHeld.fields, ChanHeld.setRd, ChanHeld.modSeq]

theorem ChanHeld.seqDone (hk : ChanHeld cc s₀ s) (c : Nat) : ChanHeld cc s₀ (s.seqDone c) := by
  unfold State.seqDone
  grind [ChanHeld.fields, ChanHeld.seqDoneAt]

theorem ChanHeld.setScalar (hk : ChanHeld cc s₀ s) (c n v : Nat) : ChanHeld cc s₀ (s.setScalar c n v) := by
  unfold State.setScalar
  grind [ChanHeld.fields, ChanHeld.setRg64]

theorem ChanHeld.unstall (hk : ChanHeld cc s₀ s) (c : Nat) (p : StallBy → Bool) : ChanHeld cc s₀ (s.unstall c p) := by
  unfold State.unstall
  grind [ChanHeld.fields, ChanHeld.modCore]

theorem ChanHeld.arrKick (hk : ChanHeld cc s₀ s) (c : Nat) : ChanHeld cc s₀ (s.arrKick c) := by
  unfold State.arrKick
  grind [ChanHeld.fields, ChanHeld.modTile]

theorem ChanHeld.arrLeave (hk : ChanHeld cc s₀ s) (c : Nat) : ChanHeld cc s₀ (s.arrLeave c) := by
  unfold State.arrLeave
  grind [ChanHeld.fields, ChanHeld.modArr, ChanHeld.arrKick]

theorem ChanHeld.arrDrop (hk : ChanHeld cc s₀ s) (c h : Nat) : ChanHeld cc s₀ (s.arrDrop c h) := by
  unfold State.arrDrop
  grind [ChanHeld.fields, ChanHeld.modArr, ChanHeld.arrLeave]

theorem ChanHeld.dropWork (hk : ChanHeld cc s₀ s) (c h : Nat) : ChanHeld cc s₀ (s.dropWork c h) := by
  unfold State.dropWork
  grind [ChanHeld.fields, ChanHeld.modCore, ChanHeld.arrDrop]

theorem ChanHeld.freeTile (hk : ChanHeld cc s₀ s) (c h : Nat) : ChanHeld cc s₀ (s.freeTile c h) := by
  unfold State.freeTile
  grind [ChanHeld.fields, ChanHeld.dropWork, ChanHeld.unstall, ChanHeld.modTile, ChanHeld.modSeq]

theorem ChanHeld.commitDone (hk : ChanHeld cc s₀ s) (c h : Nat) (ok : Bool) : ChanHeld cc s₀ (s.commitDone c h ok) := by
  unfold State.commitDone
  grind [ChanHeld.fields, ChanHeld.setScalar, ChanHeld.seqDone, ChanHeld.freeTile]

end Sys2Proof.Machine
end

section
set_option Elab.async false
/-! A tile's way to its commit (R117, R169, R328, R355, R364, R428). -/

namespace Sys2Proof.Machine
open Sys2Proof
variable {s t : State} {c : CoreId}

/-! ### Opening -/

/-- An attempt that has not ended has nothing to check. -/
theorem State.attemptCheck_streaming {k h : Nat} (he : (s.tile k h).ended = false) : s.attemptCheck k h = s := by
  rw [State.attemptCheck]
  simp [he]

/-- A tile's first attempt, before it joins the array. -/
def State.attempted (s : State) (k h rung : Nat) : State :=
  ((s.latch k h).guardNow k h).modTile k h
    (fun t => t.attempt rung (s.geoAt k h (Desc.rung (s.tileDesc k h) rung)).outs false false)

/-- A first attempt joins the array, with its scout pass due where it has one. -/
theorem State.openAttempt_first {k h rung : Nat} (hs : (s.tile k h).sumFrom = false) (hst : (s.tile k h).st ≠ .claimed) :
    s.openAttempt k h rung false false =
      (if ((s.attempted k h rung).sampleDue k h).tileScout k h ≠ 0 then
        ((s.attempted k h rung).sampleDue k h).modTile k h (fun t => { t with sst := .due })
      else (s.attempted k h rung).sampleDue k h).arrEnter k h false := by
  change (if (s.tile k h).sumFrom = true then _ else if ((s.attempted k h rung).sampleDue k h).tileScout k h ≠ 0 then _
    else if (s.tile k h).st = .claimed then _ else _) = _
  rw [if_neg (by simp [hs]), if_neg hst]
  split <;> rfl

/-- What a first attempt leaves of its tile. -/
theorem OpenHeld.openAttempt_first {k h rung : Nat} (hs : (s.tile k h).sumFrom = false) (hst : (s.tile k h).st ≠ .claimed) :
    OpenHeld k h (s.attempted k h rung) (s.openAttempt k h rung false false) := by
  have hd := (OpenHeld.refl k h (s.attempted k h rung)).sampleDue k h
  rw [State.openAttempt_first hs hst]
  refine OpenHeld.arrEnter ?_ _ _ _
  split
  · exact hd.modTile _ _ _ fun t => ⟨rfl, rfl, rfl, rfl, rfl, rfl, rfl, rfl⟩
  · exact hd

theorem State.tile_guardNow (k h : Nat) : ∃ b, (s.guardNow k h).tile k h = { s.tile k h with guarded := b } :=
  ⟨_, State.tile_modTile_self ..⟩

theorem execTileOpen_opens {h : Handle} (ho : s.coreOpen c.val = true) (hst : (s.tile c.val h.val).st = .opened)
    (hb : (s.tile c.val h.val).began = false)
    (hr : s.hasRoom c.val h.val (s.geoAt c.val h.val (Desc.rung (s.tileDesc c.val h.val) (s.startRung c.val h.val))) = true) :
    exec (.tileOpen c h) s = .next (s.openTile c.val h.val) := by
  have hw : s.wantsOpen c.val h.val = true := by simp [State.wantsOpen, hb, hst]
  have hg : s.openRung c.val h.val = s.startRung c.val h.val := by simp [State.openRung, hb]
  simp [exec, execTileOpen, ho, hw, hg, hr]

theorem State.openTile_first {k h : Nat} (hb : (s.tile k h).began = false) :
    s.openTile k h = (s.openAttempt k h (s.startRung k h) false false).attemptCheck k h := by
  rw [State.openTile]
  simp [hb]

theorem State.ended_attempted (k h rung : Nat) : ((s.attempted k h rung).tile k h).ended = false := by
  rw [State.attempted, State.tile_modTile_self]
  rfl

theorem tileOpen_joins {h : Handle} (ho : s.coreOpen c.val = true) (hst : (s.tile c.val h.val).st = .opened)
    (hb : (s.tile c.val h.val).began = false) (hs : (s.tile c.val h.val).sumFrom = false)
    (hr : s.hasRoom c.val h.val (s.geoAt c.val h.val (Desc.rung (s.tileDesc c.val h.val) (s.startRung c.val h.val))) = true) :
    exec (.tileOpen c h) s = .next (s.openAttempt c.val h.val (s.startRung c.val h.val) false false) := by
  have hne : (s.tile c.val h.val).st ≠ .claimed := by rw [hst]; decide
  obtain ⟨-, -, -, -, -, he, -, -⟩ := OpenHeld.openAttempt_first (rung := s.startRung c.val h.val) hs hne
  rw [execTileOpen_opens ho hst hb hr, State.openTile_first hb,
    State.attemptCheck_streaming (he.trans (State.ended_attempted ..))]

/-- The settings in force, which a tile latches as it opens. -/
def State.settings (s : State) (k : Nat) : Latched :=
  { skipdis := (s.rg .arrCtrl k).toNat.testBit 0, lockstep := (s.rg .arrCtrl k).toNat.testBit 1,
    zskdis := (s.rg .sveCtrl k).toNat.testBit 0, scdis := (s.rg .sveCtrl k).toNat.testBit 1,
    gdis := (s.rg .gauCtrl k).toNat.testBit 0 }

theorem State.tile_attempted (k h rung : Nat) : ((s.attempted k h rung).tile k h).st = (s.tile k h).st ∧
    ((s.attempted k h rung).tile k h).rung = rung ∧ ((s.attempted k h rung).tile k h).began = true ∧
    ((s.attempted k h rung).tile k h).opened = true ∧ ((s.attempted k h rung).tile k h).latched = s.settings k := by
  obtain ⟨b, hg⟩ := (s.latch k h).tile_guardNow k h
  rw [State.attempted, State.tile_modTile_self, hg, State.latch, State.tile_modTile_self]
  exact ⟨rfl, rfl, rfl, rfl, rfl⟩

theorem State.only_openAttempt_first {k h rung : Nat} (hs : (s.tile k h).sumFrom = false) (hst : (s.tile k h).st ≠ .claimed) :
    only [.cores] s (s.openAttempt k h rung false false) := by
  have ha : only [.cores] s (s.attempted k h rung) :=
    (((only.refl _ s).latch (by simp) _ _).guardNow (by simp) _ _).modTile (by simp) _ _ _
  have hd := ha.sampleDue (by simp) k h
  rw [State.openAttempt_first hs hst]
  refine only.arrEnter ?_ (by simp) _ _ _
  split
  · exact hd.modTile (by simp) _ _ _
  · exact hd

theorem State.arr_openAttempt_first {k h rung : Nat} (hs : (s.tile k h).sumFrom = false) (hst : (s.tile k h).st ≠ .claimed) :
    ((s.openAttempt k h rung false false).core k).arr.cur = some h ∨
      h ∈ ((s.openAttempt k h rung false false).core k).arr.queue := by
  rw [State.openAttempt_first hs hst]
  exact State.arr_arrEnter k h

/-! ### REDUCE -/

/-- A REDUCE that no check refuses does its mode's work and goes on. -/
theorem State.reduceCmd_fetched {k mode : Nat} {f : State → Nat → BitVec 128 → State} (hf : fetchesOp k 0x14 s)
    (hb : onlyBits (s.fetchWord k) [(8, 13)] = true) (hm : fld (s.fetchWord k) 12 11 = mode) (h3 : mode ≠ 3)
    (hc : s.reduceCause k (wTh (s.fetchWord k)) mode = none) :
    s.reduceCmd k mode f = (f s (wTh (s.fetchWord k)) (s.fetchWord k)).seqGoOn k := by
  rw [State.reduceCmd, State.seqRun_fetched hf (by decide)]
  simp [hb, hm, h3, hc, State.unless]

/-! ### Work on one tile of a core, beside its sequencer -/

/-- From `s` to `t` at most tile `h` of core `k` changes among the cores' tiles, and the core's sequencer stays. -/
def InTile (k h : Nat) (s t : State) : Prop := SeqAt k s t ∧ onlyTile k h s t ∧ onlyCore k s t

theorem SeqAt.trans {k : Nat} {u : State} (a : SeqAt k s t) (b : SeqAt k t u) : SeqAt k s u := by
  obtain ⟨h1, h2, h3, h4⟩ := a
  obtain ⟨g1, g2, g3, g4⟩ := b
  exact ⟨g1.trans h1, g2.trans h2, g3.trans h3, g4.trans h4⟩

section
variable {s₀ : State} {k h : Nat}

theorem InTile.refl (k h : Nat) (s : State) : InTile k h s s := ⟨.refl k s, .refl k h s, .refl k s⟩

theorem InTile.trans {u : State} (a : InTile k h s t) (b : InTile k h t u) : InTile k h s u := by
  obtain ⟨a1, a2, a3⟩ := a
  obtain ⟨b1, b2, b3⟩ := b
  exact ⟨a1.trans b1, a2.trans b2, a3.trans b3⟩

theorem InTile.modTile (hk : InTile k h s₀ s) (f : Tile → Tile) : InTile k h s₀ (s.modTile k h f) := by
  obtain ⟨h1, h2, h3⟩ := hk
  exact ⟨h1.modTile _ _, h2.modTile _, h3.modTile _ _⟩

theorem State.seq_act (j n : Nat) : ((s.act k j n).core k).seq = (s.core k).seq := by
  rw [State.act, State.core_modCore_self]

theorem State.tile_mesh (n : Nat) : (s.mesh k none n).tile k h = s.tile k h :=
  (State.tile_act _ _ _ _).trans (State.tile_act _ _ _ _)

theorem InTile.mesh (hk : InTile k h s₀ s) (n : Nat) : InTile k h s₀ (s.mesh k none n) := by
  obtain ⟨h1, h2, h3⟩ := hk
  refine ⟨h1.trans (.of_regs_eq ?_ rfl), h2.of_tiles_eq fun j => ?_, h3.mesh _ _⟩
  · exact (State.seq_act _ _).trans (State.seq_act _ _)
  · exact State.tile_mesh _

theorem InTile.modCore (hk : InTile k h s₀ s) (f : Core → Core) (hq : ∀ x, (f x).seq = x.seq) (ht : ∀ x, (f x).tiles = x.tiles) :
    InTile k h s₀ (s.modCore k f) := by
  obtain ⟨h1, h2, h3⟩ := hk
  refine ⟨h1.trans (.of_regs_eq ?_ rfl), h2.of_tiles_eq fun j => State.tile_modCore k f j ht, h3.modCore _⟩
  rw [State.core_modCore_self, hq]

theorem InTile.modSeq (hk : InTile k h s₀ s) (f : Seq → Seq) (h1 : ∀ q, (f q).rd = q.rd) (h2 : ∀ q, (f q).wait = q.wait)
    (h3 : ∀ q, (f q).halted = q.halted) : InTile k h s₀ (s.modSeq k f) := by
  obtain ⟨g1, g2, g3⟩ := hk
  refine ⟨g1.trans ⟨?_, ?_, ?_, rfl⟩, g2.of_tiles_eq fun j => State.tile_modSeq _ _ _, g3.modSeq _⟩
  · rw [State.core_modSeq_self, h1]
  · rw [State.core_modSeq_self, h2]
  · rw [State.core_modSeq_self, h3]

theorem InTile.sendPart (hk : InTile k h s₀ s) (j : Nat) : InTile k h s₀ (s.sendPart k j) := by
  unfold State.sendPart
  extract_lets t
  split
  · exact (hk.mesh _).modSeq _ (fun _ => rfl) (fun _ => rfl) (fun _ => rfl)
  · exact hk

theorem InTile.passed (hk : InTile k h s₀ s) : InTile k h s₀ (s.passed k h) := (hk.modTile _).sendPart _

theorem InTile.sampleDue (hk : InTile k h s₀ s) : InTile k h s₀ (s.sampleDue k h) := by
  unfold State.sampleDue
  split
  · exact (hk.modTile _).modCore _ (fun _ => rfl) (fun _ => rfl)
  · exact hk

/-- The count of a core's commands stands apart from the log's counters. -/
theorem seqIssued_apart_log (k : Nat) : ∀ m ∈ logCounters, regAddr .seqIssued k 0 0 ≠ regAddr m 0 0 0 := by
  have ha : regAddr .seqIssued k 0 0 % 0x10000 = 0x4010 := by
    simp only [regAddr, RegName.row, Blk.isCore, Blk.base, ctlBase, if_true]
    omega
  have hm : ∀ m ∈ logCounters, regAddr m 0 0 0 % 0x10000 ≠ 0x4010 := by decide
  intro m h e
  exact hm m h (e ▸ ha)

theorem InTile.ladderTop (hk : InTile k h s₀ s) : InTile k h s₀ (s.ladderTop k h) := by
  unfold State.ladderTop
  split
  · exact hk
  · obtain ⟨h1, h2, h3⟩ := hk.modTile (fun t => { t with top := true })
    refine ⟨h1.trans (.of_seq_eq ?_ ?_), h2.of_tiles_eq fun j => ?_, (h3.count _ _ _ _).log _⟩
    · rw [State.tileEvent, State.core_of_cores_eq (State.log_cores _ _), State.core_of_cores_eq (State.count_cores _ _ _ _ _)]
    · refine (State.rg_log _ (seqIssued_apart_log k)).trans (State.rg_setRg_ne _ _ ?_)
      simp only [regAddr, RegName.row, Blk.isCore, Blk.base, if_true]
      omega
    · rw [State.tile, State.tileEvent, State.core_of_cores_eq (State.log_cores _ _),
        State.core_of_cores_eq (State.count_cores _ _ _ _ _)]
      rfl

theorem InTile.fillSum (hk : InTile k h s₀ s) (reran more : Bool) : InTile k h s₀ (s.fillSum k h reran more) := by
  unfold State.fillSum
  split
  · exact (hk.mesh _).modTile _
  · exact hk.modTile _

/-- A command that works on one tile goes on beside it. -/
theorem InTile.goesOn (hk : InTile k h s t) :
    goesOn k s (t.seqGoOn k) ∧ onlyTile k h s (t.seqGoOn k) ∧ onlyCore k s (t.seqGoOn k) := by
  obtain ⟨h1, h2, h3⟩ := hk
  exact ⟨goesOn_seqGoOn h1, onlyTile_seqGoOn h2, h3.seqGoOn⟩

end

/-! ### REDUCE SUM -/

theorem OpenHeld.passed {k h : Nat} {s₀ : State} (hk : OpenHeld k h s₀ s) : OpenHeld k h s₀ (s.passed k h) := by
  refine OpenHeld.sendPart (OpenHeld.modTile hk k h _ ?_) _ _
  intro t
  exact ⟨rfl, rfl, rfl, rfl, rfl, rfl, rfl, rfl⟩

/-- Accumulators that hold the tree's sum are never requeued: their checks touch their tile alone (R153, R328). -/
theorem State.attemptCheck_sum {k h : Nat} (hs : (s.tile k h).sumFrom = true) (hg : (s.tile k h).gst ≠ .finished) :
    InTile k h s (s.attemptCheck k h) ∧ OpenHeld k h s (s.attemptCheck k h) := by
  have htrig (b : Bool) : InTile k h s (s.triggered k h b) ∧ OpenHeld k h s (s.triggered k h b) := by
    have hm : s.mayRequeue k h = false := by simp [State.mayRequeue, hs]
    rw [State.triggered, hm, Bool.and_false, if_neg (by decide)]
    cases b
    · exact ⟨(InTile.refl k h s).passed, (OpenHeld.refl k h s).passed⟩
    · exact ⟨(InTile.refl k h s).ladderTop.passed, OpenHeld.passed (OpenHeld.ladderTop (.refl k h s) k h)⟩
  unfold State.attemptCheck
  extract_lets t
  split
  · simp only [t, if_false, ne_eq, not_true_eq_false, decide_false, Bool.and_false, Bool.false_eq_true, Bool.false_or]
    exact htrig _
  · exact ⟨.refl k h s, .refl k h s⟩

theorem State.gst_sampleDue {k h : Nat} (hg : (s.tile k h).gst ≠ .finished) : ((s.sampleDue k h).tile k h).gst ≠ .finished := by
  unfold State.sampleDue
  split
  · rw [State.tile, State.core_modCore_self]
    change ((s.modTile k h _).tile k h).gst ≠ _
    rw [State.tile_modTile_self]
    simp
  · exact hg

/-- What the Seed Tray holds for a CLOSE tile. -/
def State.heldSum (s : State) (k h : Nat) : Option PartSum :=
  s.sdt.sums.find? (fun y => y.disp = Desc.disp (s.tileDesc k h) && y.tile = CRec.tile (s.tile k h).rec_)

theorem State.tile_fillSum {k h : Nat} {p : PartSum} {reran more : Bool} (hp : s.heldSum k h = some p) :
    ((s.fillSum k h reran more).tile k h).acc = p.acc ∧ ((s.fillSum k h reran more).tile k h).opened = true ∧
    ((s.fillSum k h reran more).tile k h).st = (s.tile k h).st ∧
    ((s.fillSum k h reran more).tile k h).sumFrom = (s.tile k h).sumFrom ∧
    ((s.fillSum k h reran more).tile k h).gst = .none := by
  have e : (s.fillSum k h reran more).tile k h = { (s.tile k h).attempt (s.sumRung k h p) 0 reran more with
      acc := p.acc, tsw := ofFlags6 p.flags, ended := true } := by
    rw [State.heldSum] at hp
    rw [State.fillSum, hp]
    dsimp only
    rw [State.tile_modTile_self, State.tile_mesh]
  rw [e]
  exact ⟨rfl, rfl, rfl, rfl, rfl⟩

/-- A CLOSE tile opens with the tree's sum (R328). -/
theorem State.openTile_sum {k h : Nat} {p : PartSum} (hb : (s.tile k h).began = false) (hs : (s.tile k h).sumFrom = true)
    (hp : s.heldSum k h = some p) : InTile k h s (s.openTile k h) ∧ ((s.openTile k h).tile k h).acc = p.acc ∧
      ((s.openTile k h).tile k h).opened = true ∧ ((s.openTile k h).tile k h).st = (s.tile k h).st := by
  let t0 := (s.latch k h).guardNow k h
  have hin0 : InTile k h s t0 := ((InTile.refl k h s).modTile _).modTile _
  have htile0 : (t0.tile k h).st = (s.tile k h).st ∧ (t0.tile k h).rec_ = (s.tile k h).rec_ ∧ (t0.tile k h).ctx = (s.tile k h).ctx ∧
      (t0.tile k h).sumFrom = (s.tile k h).sumFrom := by
    obtain ⟨b, hg⟩ := (s.latch k h).tile_guardNow k h
    rw [show t0.tile k h = _ from hg, State.latch, State.tile_modTile_self]
    exact ⟨rfl, rfl, rfl, rfl⟩
  obtain ⟨h1, h2, h3, h4⟩ := htile0
  have hp0 : t0.heldSum k h = some p := by
    have hd : t0.tileDesc k h = s.tileDesc k h :=
      (State.tileDesc_modTile _ _ _ rfl).trans (State.tileDesc_modTile _ _ _ rfl)
    rw [State.heldSum, hd, h2]
    exact hp
  obtain ⟨f1, f2, f3, f4, f5⟩ := State.tile_fillSum (reran := false) (more := false) hp0
  let u := t0.fillSum k h false false
  have hsd := (OpenHeld.refl k h u).sampleDue k h
  obtain ⟨g1, -, -, g4, -, -, g7, g8⟩ := hsd
  have ho : s.openTile k h = (u.sampleDue k h).attemptCheck k h := by
    rw [State.openTile_first hb]
    change State.attemptCheck (if (s.tile k h).sumFrom = true then _ else _) k h = _
    rw [if_pos hs]
    rfl
  obtain ⟨hci, c1, -, -, c4, -, -, c7, -⟩ := State.attemptCheck_sum (s := u.sampleDue k h) (g8.trans (f4.trans (h4.trans hs)))
    (State.gst_sampleDue (by rw [f5]; decide))
  rw [ho]
  refine ⟨?_, c7.trans (g7.trans f1), c4.trans (g4.trans f2), c1.trans (g1.trans (f3.trans h1))⟩
  exact (hin0.fillSum false false).sampleDue.trans hci

/-! ### Rounds of a reduction group -/

/-- A round that is not there begins. -/
theorem State.round_modRound_new {g tile : Nat} {f : Round → Round} (h : (s.group g).round tile = none)
    (hf : (f { tile := tile }).tile = tile) : ((s.modRound g tile f).group g).round tile = some (f { tile := tile }) := by
  rw [Group.round] at h
  rw [State.modRound, State.group_modGroup_self, Group.round, Group.round, h]
  simp [List.find?_append, h, hf]

/-- A round that is there is changed. -/
theorem State.round_modRound_some {g tile : Nat} {f : Round → Round} {r : Round} (h : (s.group g).round tile = some r)
    (hf : ∀ r, (f r).tile = r.tile) : ((s.modRound g tile f).group g).round tile = some (f r) := by
  have hsome (l : List Round) (hl : l.find? (fun r => r.tile = tile) = some r) :
      (l.map (fun r => if r.tile = tile then f r else r)).find? (fun r => r.tile = tile) = some (f r) := by
    induction l with
    | nil => cases hl
    | cons x xs ih =>
      by_cases hx : x.tile = tile
      · simp only [List.find?_cons, hx, decide_true, Option.some.injEq] at hl
        subst hl
        simp [hf, hx]
      · simp only [List.find?_cons, hx, decide_false] at hl
        simp [hx, ih hl]
  rw [State.modRound, State.group_modGroup_self]
  rw [Group.round] at h ⊢
  rw [Group.round, h]
  exact hsome _ h

/-- A change of a round leaves the rest of its group. -/
theorem State.group_modRound (g tile : Nat) (f : Round → Round) :
    (s.modRound g tile f).group g = { s.group g with rounds := ((s.modRound g tile f).group g).rounds } := by
  rw [State.modRound, State.group_modGroup_self]
  split <;> rfl

theorem State.group_of_tch_eq (h : t.tch = s.tch) (g : Nat) : t.group g = s.group g := by rw [State.group, h]; rfl

theorem State.group_writeSlot (g tile j : Nat) : (s.writeSlot g tile).group j = s.group j :=
  State.group_of_tch_eq (((only.refl [.free, .regs, .mem, .pnt, .clr, .mtr] s).writeSlot (by simp) (by simp) (by simp) (by simp)
    (by simp) (by simp) g tile .tch).resolve_left (by simp)) j

/-- The first arrival of a round makes its outputs. -/
theorem addOuts_nil (regime : Nat) (xs : List Acc) : ∃ ys, addOuts regime 0 [] xs = some ys ∧ ys.length = xs.length := by
  have hall : ((List.replicate xs.length ({} : Acc)).zip xs).all (fun y => !y.1.anch || y.1.anchor = y.2.anchor) = true := by
    rw [List.all_eq_true]
    intro y hy
    have h1 := List.eq_of_mem_replicate (List.of_mem_zip hy).1
    simp [h1]
  rw [addOuts]
  simp only [List.length_nil, Nat.zero_add, Nat.sub_zero, List.nil_append, List.drop_zero, List.take_replicate, Nat.min_self]
  rw [if_pos hall]
  refine ⟨_, rfl, ?_⟩
  rw [overAt_length (by simp)]
  simp

/-- A round's first arrival (R427, R429). -/
theorem State.arrival_first {g tile ptag regime flags gcnt : Nat} {xs : List Acc} (h : (s.group g).round tile = none) :
    ∃ r, ((s.arrival g tile 0 ptag regime flags gcnt xs).group g).round tile = some r ∧ r.tile = tile ∧
      r.acc.length = xs.length ∧ r.sentUp = false ∧ r.got = [] ∧
      ((s.arrival g tile 0 ptag regime flags gcnt xs).group g).kids = (s.group g).kids := by
  obtain ⟨ys, hy, hl⟩ := addOuts_nil regime xs
  unfold State.arrival
  extract_lets x r0 r
  have hr0 : r0 = { tile := tile } := by simp [r0, x, h]
  have hr : r = { tile := tile, ptag := ptag, regime := regime } := by simp [r, hr0]
  rw [hr, if_pos ⟨rfl, rfl⟩]
  dsimp only
  rw [hy]
  dsimp only
  rw [State.group_writeSlot, State.round_modRound_new h rfl, State.group_modRound]
  exact ⟨_, rfl, rfl, hl, rfl, rfl, rfl⟩

/-- A slot that waits for a child goes nowhere. -/
theorem State.roundStep_waits {g tile : Nat} {r : Round} (h : (s.group g).round tile = some r) (hk : (s.group g).kids ≠ [])
    (ha : r.acc ≠ []) (hg : r.got = []) : s.roundStep g tile = s := by
  have hn : (s.group g).kids.all (fun k => r.kidDone k.1) = false := by
    obtain ⟨k, l, hl⟩ := List.exists_cons_of_ne_nil hk
    have hd : r.kidDone k.1 = false := by
      have hp : 0 < r.acc.length := List.length_pos_iff.2 ha
      have he : Sparse.get 0 r.got k.1 = 0 := by rw [hg]; rfl
      rw [Round.kidDone, he]
      simp only [Bool.and_eq_false_iff, decide_eq_false_iff_not]
      omega
    rw [hl, List.all_cons, hd, Bool.false_and]
  rw [State.roundStep]
  simp [h, hn]

/-! ### REDUCE PART -/

theorem State.tile_sendPart (k h j : Nat) : (s.sendPart k h).tile k j = s.tile k j := by
  unfold State.sendPart
  extract_lets t
  split
  · rw [State.tile_modSeq, State.tile_mesh]
  · rfl

theorem State.seq_mesh (k n : Nat) : ((s.mesh k none n).core k).seq = (s.core k).seq := (State.seq_act _ _).trans (State.seq_act _ _)

/-- Sending a part's message touches the list of parts alone, and lists the part once it is checked. -/
theorem State.seq_sendPart (k h : Nat) : ((s.sendPart k h).core k).seq.reds = (s.core k).seq.reds ∧
    ((s.tile k h).partSent = 1 → (s.tile k h).checked = true → h ∈ ((s.sendPart k h).core k).seq.parts) := by
  unfold State.sendPart
  extract_lets t
  split
  · rw [State.core_modSeq_self]
    dsimp only
    rw [State.seq_mesh]
    exact ⟨rfl, fun _ _ => by simp⟩
  · next hn =>
    refine ⟨rfl, fun h1 h2 => ?_⟩
    simp only [t, h1, h2, decide_true, Bool.true_and, Bool.not_eq_true', Bool.not_eq_false, List.contains_eq_mem, decide_eq_true_eq] at hn
    exact hn

/-- What REDUCE PART does. -/
def State.partReduced (s : State) (k h : Nat) : State :=
  ((s.modTile k h (fun t => { t with partSent := 1 })).modSeq k (fun q => { q with reds := q.reds + 1 })).sendPart k h

theorem InTile.partReduced (k h : Nat) : InTile k h s (s.partReduced k h) := by
  refine InTile.sendPart (InTile.modSeq (InTile.modTile (.refl k h s) _) _ ?_ ?_ ?_) _
  all_goals
    intro q
    rfl

theorem State.tile_partReduced (k h : Nat) : (s.partReduced k h).tile k h = { s.tile k h with partSent := 1 } := by
  rw [State.partReduced, State.tile_sendPart, State.tile_modSeq, State.tile_modTile_self]

theorem State.seq_partReduced (k h : Nat) : ((s.partReduced k h).core k).seq.reds = (s.core k).seq.reds + 1 ∧
    ((s.tile k h).checked = true → h ∈ ((s.partReduced k h).core k).seq.parts) := by
  obtain ⟨h1, h2⟩ := State.seq_sendPart (s := (s.modTile k h (fun t => { t with partSent := 1 })).modSeq k
    (fun q => { q with reds := q.reds + 1 })) k h
  refine ⟨h1.trans ?_, fun hc => h2 ?_ ?_⟩
  · rw [State.core_modSeq_self, State.seq_modTile]
  · rw [State.tile_modSeq, State.tile_modTile_self]
  · rw [State.tile_modSeq, State.tile_modTile_self]
    exact hc

/-! ### The tile that REDUCE SUM opens -/

/-- The tile that waits to take the tree's sum. -/
def State.sumWaits (s : State) (k h : Nat) : State := s.modTile k h (fun t => { t with st := .opened, sumFrom := true })

theorem State.tile_sumWaits (k h : Nat) : (s.sumWaits k h).tile k h = { s.tile k h with st := .opened, sumFrom := true } :=
  State.tile_modTile_self ..

theorem State.tileCtx_sumWaits (k h j : Nat) : (s.sumWaits k h).tileCtx k j = s.tileCtx k j := by
  have hx : ((s.sumWaits k h).tile k j).ctx = (s.tile k j).ctx := by
    by_cases hj : j = h
    · rw [hj, State.tile_sumWaits]
    · rw [State.sumWaits, State.tile_modTile_ne s _ hj]
  rw [State.tileCtx, State.tileCtx, hx, State.ctxOf, State.ctxOf, State.sumWaits, State.seq_modTile]

theorem State.geo_sumWaits {k h j : Nat} (hj : j ≠ h) : (s.sumWaits k h).geo k j = s.geo k j := by
  have ht : (s.sumWaits k h).tile k j = s.tile k j := State.tile_modTile_ne s _ hj
  exact State.geo_congr (by rw [ht]) (by rw [ht]) (by rw [ht]) (by rw [State.sumWaits, State.seq_modTile]) rfl

theorem State.geoAt_sumWaits (k h w : Nat) : (s.sumWaits k h).geoAt k h w = s.geoAt k h w := by
  have hx : (s.sumWaits k h).tileCtx k h = s.tileCtx k h := State.tileCtx_sumWaits k h h
  simp only [State.geoAt, hx, State.tile_sumWaits]
  rfl

theorem State.hasRoom_sumWaits (k h : Nat) (g : Geo) : (s.sumWaits k h).hasRoom k h g = s.hasRoom k h g := by
  have ho : (upTo 8).filter (fun j => j ≠ h && ((s.sumWaits k h).tile k j).began) =
      (upTo 8).filter (fun j => j ≠ h && (s.tile k j).began) := by
    refine List.filter_congr fun j _ => ?_
    by_cases hj : j = h
    · simp [hj]
    · rw [State.sumWaits, State.tile_modTile_ne s _ hj]
  simp only [State.hasRoom, ho]
  congr 1
  rw [Bool.eq_iff_iff, List.all_eq_true, List.all_eq_true]
  refine forall₂_congr fun j hj => ?_
  obtain ⟨-, hj⟩ := List.mem_filter.1 hj
  obtain ⟨hj, -⟩ := Bool.and_eq_true_iff.1 hj
  rw [State.geo_sumWaits (of_decide_eq_true hj)]

/-- Whether there is room for the tree's sum, before and after REDUCE SUM has marked its tile. -/
theorem State.room_sumWaits (k h : Nat) :
    (s.sumWaits k h).hasRoom k h ((s.sumWaits k h).geoAt k h
      (Desc.rung ((s.sumWaits k h).tileDesc k h) ((s.sumWaits k h).startRung k h))) =
    s.hasRoom k h (s.geoAt k h (Desc.rung (s.tileDesc k h) (s.startRung k h))) := by
  have hd : (s.sumWaits k h).tileDesc k h = s.tileDesc k h := congrArg Ctx.desc (State.tileCtx_sumWaits k h h)
  have hr : (s.sumWaits k h).startRung k h = s.startRung k h := by
    rw [State.startRung, State.startRung, State.tile_sumWaits]
  rw [State.hasRoom_sumWaits, State.geoAt_sumWaits, hd, hr]

theorem State.heldSum_sumWaits (k h : Nat) : (s.sumWaits k h).heldSum k h = s.heldSum k h := by
  have hd : (s.sumWaits k h).tileDesc k h = s.tileDesc k h := congrArg Ctx.desc (State.tileCtx_sumWaits k h h)
  rw [State.heldSum, State.heldSum, hd, State.tile_sumWaits]
  rfl

/-! ### Contributions and commits -/

theorem execContributionSend_takes {h : Handle} {g : Nat} (hg : (s.tile c.val h.val).grp = some g) (ho : s.coreOpen c.val = true)
    (h1 : (s.tile c.val h.val).opened = true) (h2 : (s.tile c.val h.val).checked = true)
    (h3 : (s.tile c.val h.val).contributed = false) :
    exec (.contributionSend c h) s = .next (s.sendContribution c.val h.val g) := by
  simp [exec, execContributionSend, hg, ho, h1, h2, h3]

/-- The round that a tile's contribution begins, before the group looks at it. -/
def State.contributes (s : State) (c h g : Nat) : State :=
  let t := s.tile c h
  (((s.mesh c none (t.acc.length * wordBytes (s.tileRegime c h))).arrival g (CRec.tile t.rec_) 0 (ptagOf (s.tileRung c h))
    (s.tileRegime c h) (flags6 t.tsw) ((t.acc.map (·.cnt)).foldl max 0)
    (t.acc.map (fun (a : Acc) => { a with anch := true }))).modRound g (CRec.tile t.rec_) (fun r => { r with local_ := some (c, h) }))

/-- A contribution to a round that waits for a child joins it (R428, R429). -/
theorem State.sendContribution_joins {k h g : Nat}
    (hb : s.contributionBad k g (CRec.tile (s.tile k h).rec_) (s.tile k h).acc.length (s.tileRegime k h) = false)
    (ha : (s.tile k h).acc ≠ []) (hr : (s.group g).round (CRec.tile (s.tile k h).rec_) = none) (hk : (s.group g).kids ≠ []) :
    ((s.sendContribution k h g).tile k h).contributed = true ∧
    ∃ r, ((s.sendContribution k h g).group g).round (CRec.tile (s.tile k h).rec_) = some r ∧ r.local_ = some (k, h) ∧
      r.acc.length = (s.tile k h).acc.length ∧ r.sentUp = false := by
  have hm : (s.mesh k none ((s.tile k h).acc.length * wordBytes (s.tileRegime k h))).group g = s.group g := rfl
  obtain ⟨r, h1, h2, h3, h4, h5, h6⟩ := State.arrival_first (s := s.mesh k none ((s.tile k h).acc.length *
    wordBytes (s.tileRegime k h))) (ptag := ptagOf (s.tileRung k h)) (regime := s.tileRegime k h)
    (flags := flags6 (s.tile k h).tsw) (gcnt := ((s.tile k h).acc.map (·.cnt)).foldl max 0)
    (xs := (s.tile k h).acc.map (fun (a : Acc) => { a with anch := true })) (hm ▸ hr)
  have h7 : ((s.contributes k h g).group g).round (CRec.tile (s.tile k h).rec_) = some { r with local_ := some (k, h) } :=
    State.round_modRound_some h1 fun _ => rfl
  have h8 : ((s.contributes k h g).group g).kids = (s.group g).kids := by
    rw [State.contributes, State.group_modRound]
    exact h6
  have hl : r.acc.length = (s.tile k h).acc.length := h3.trans (List.length_map ..)
  have hne : r.acc ≠ [] := by
    rw [← List.length_pos_iff, hl]
    exact List.length_pos_iff.2 ha
  have he : s.sendContribution k h g = (s.contributes k h g).modTile k h (fun t => { t with contributed := true }) := by
    have hw : ((s.contributes k h g).modTile k h (fun t => { t with contributed := true })).roundStep g (CRec.tile (s.tile k h).rec_) =
        (s.contributes k h g).modTile k h (fun t => { t with contributed := true }) :=
      State.roundStep_waits h7 (h8 ▸ hk) hne h5
    rw [State.sendContribution]
    dsimp only
    rw [hb, if_neg (by decide)]
    exact hw
  rw [he, State.tile_modTile_self]
  exact ⟨rfl, _, h7, rfl, hl, h4⟩

/-- A contribution that the hub refuses ends its tile (R428, R434). -/
theorem State.sendContribution_refused {k h g : Nat}
    (hb : s.contributionBad k g (CRec.tile (s.tile k h).rec_) (s.tile k h).acc.length (s.tileRegime k h) = true) :
    (s.sendContribution k h g).tile k h = {} ∧ (s.sendContribution k h g).tch = s.tch := by
  rw [State.sendContribution]
  dsimp only
  rw [hb, if_pos rfl]
  refine ⟨State.tile_freeTile _ _, ?_⟩
  exact (only.endTile (ps := [.regs, .evt, .ses, .mem, .cores, .sdt]) ((only.refl _ s).log (by simp) (by simp) (by simp) _)
    (by simp) (by simp) (by simp) (by simp) k h .tch).resolve_left (by simp)

/-- A commit as it is sent (R130, R355). -/
def State.commitSent (s : State) (c h : Nat) (q : CommitReq) : State :=
  let u := (s.modTile c h (fun t => { t with commit := some { q with sent := true } })).setRg .arrLasttsw c 0 0 (s.tileTsw c h)
  { u with sdt := { u.sdt with commits := u.sdt.commits ++ [(c, h)] } }

theorem execCommitSend_sends {h : Handle} {q : CommitReq} (hq : (s.tile c.val h.val).commit = some q) (ho : s.coreOpen c.val = true)
    (hs : q.sent = false) (hst : s.stalled c.val (.out h.val) = false)
    (hd : ((s.tile c.val h.val).st = .output ∧ (s.tile c.val h.val).outSt = .ended) ∨
      ((s.tile c.val h.val).st ≠ .output ∧ (s.tile c.val h.val).partSent = 2)) :
    exec (.commitSend c h) s = .next (s.commitSent c.val h.val q) := by
  have hend : (if (s.tile c.val h.val).st = .output then decide ((s.tile c.val h.val).outSt = .ended)
      else decide ((s.tile c.val h.val).partSent = 2)) = true := by
    obtain ⟨h1, h2⟩ | ⟨h1, h2⟩ := hd
    · rw [if_pos h1, h2]
      rfl
    · rw [if_neg h1, h2]
      rfl
  rw [exec, execCommitSend]
  simp only [hq, ho, hs, hst, hend, Bool.not_false, Bool.and_self, if_true]
  rfl

theorem execCommitStore_stores {h : Handle} {q : CommitReq} {bs : List Byte} {u v : State}
    (hq : (s.tile c.val h.val).commit = some q) (ho : s.coreOpen c.val = true) (hu : (s.chan c.val q.ch).use_ = .store h.val)
    (ha : q.accepted = some true) (hst : (s.chan c.val q.ch).st = .run) (hh : (s.chan c.val q.ch).halt = false)
    (hr : s.readMem (coreReq c.val) .normal (spadBase c.val + s.slotOff c.val ((s.tile c.val h.val).oslot.getD 0))
      (s.slotLen c.val ((s.tile c.val h.val).oslot.getD 0)) = (.ok bs, u))
    (hw : u.storeTile c.val q.ch (s.geo c.val h.val) bs = (true, v)) :
    exec (.commitStore c h) s = .next (((v.modChan c.val q.ch (fun y => { y with st := .idle, use_ := .chain })).slotRelease c.val
      ((s.tile c.val h.val).oslot.getD 0) cDma).commitDone c.val h.val true) := by
  rw [exec, execCommitStore]
  simp only [hq, ho, hu, ha, hst, hh, hr, hw, Bool.not_true, ne_eq, not_true_eq_false, decide_false, Bool.or_false,
    Bool.false_eq_true, if_false, reduceCtorEq]

theorem State.only_commitSent (k h : Nat) (q : CommitReq) : only [.cores, .regs, .sdt] s (s.commitSent k h q) := by
  unfold State.commitSent
  extract_lets u
  have hu : only [.cores, .regs, .sdt] s u := ((only.refl _ s).modTile (by simp) _ _ _).setRg (by simp) _ _ _ _ _
  grind [only.fields]

theorem State.tile_commitSent (k h : Nat) (q : CommitReq) :
    (s.commitSent k h q).tile k h = { s.tile k h with commit := some { q with sent := true } } ∧ onlyTile k h s (s.commitSent k h q) ∧
    onlyCore k s (s.commitSent k h q) := by
  let u := s.modTile k h (fun t => { t with commit := some { q with sent := true } })
  have hcore (d : Nat) : (s.commitSent k h q).core d = u.core d := rfl
  have htile (j : Nat) : (s.commitSent k h q).tile k j = u.tile k j := by rw [State.tile, hcore, State.tile]
  refine ⟨?_, fun j hj => ?_, fun d hd => ?_⟩
  · rw [htile, State.tile_modTile_self]
  · rw [htile, onlyTile_modTile s _ j hj]
  · exact (hcore d).trans (State.core_modCore_ne s _ hd)

theorem State.regs_commitSent (k h : Nat) (q : CommitReq) : (s.commitSent k h q).rg .arrLasttsw k = s.tileTsw k h ∧
    onlyRegs [regAddr .arrLasttsw k 0 0] s (s.commitSent k h q) := by
  have hr : (s.commitSent k h q).regs = (s.setRg .arrLasttsw k 0 0 (s.tileTsw k h)).regs := rfl
  refine ⟨?_, ((onlyRegs.refl _ s).setRg _ _ _ _ _ (by simp)).trans (.of_regs_eq hr)⟩
  rw [State.rg_of_regs_eq hr, State.rg_setRg_self]

theorem ChanHeld.chan {k : Nat} (h : ChanHeld k s t) (ch : Nat) : t.chan k ch = s.chan k ch := by
  unfold ChanHeld at h
  rw [State.chan, State.chan, h]

/-- The channel of a COMMIT with STORE is free once its copy is made (R292, R364). -/
theorem State.chan_stored (v : State) (k h ch n : Nat) :
    (((v.modChan k ch (fun y => { y with st := .idle, use_ := .chain })).slotRelease k n cDma).commitDone k h true).chan k ch =
      { v.chan k ch with st := .idle, use_ := .chain } := by
  have hk := ChanHeld.commitDone (ChanHeld.slotRelease (.refl k (v.modChan k ch (fun y => { y with st := .idle, use_ := .chain }))) k n cDma)
    k h true
  rw [hk.chan, State.chan_modChan_self]

/-! ### The obligation -/

/-- Settles O29, from the tile's opening, its REDUCE, its contribution and its commit. -/
theorem tileProgress : Obligations.TileProgress := by
  refine ⟨?_, ?_, ?_, ?_, ?_, ?_⟩
  · intro c h s ho hst hb hs hr
    have hne : (s.tile c.val h.val).st ≠ .claimed := by rw [hst]; decide
    obtain ⟨h1, h2, h3, h4, h5, -, -, -⟩ := OpenHeld.openAttempt_first (rung := s.startRung c.val h.val) hs hne
    obtain ⟨a1, a2, a3, a4, a5⟩ := State.tile_attempted (s := s) c.val h.val (s.startRung c.val h.val)
    have hl := h5.trans a5
    refine ⟨_, tileOpen_joins ho hst hb hs hr, h4.trans a4, h3.trans a3, h1.trans (a1.trans hst), h2.trans a2, ?_, ?_, ?_,
      State.arr_openAttempt_first hs hne, (onlyCore.refl _ s).openAttempt _ _ _ _, State.only_openAttempt_first hs hne⟩
    · rw [hl, State.settings]
    · rw [hl, State.settings]
    · rw [hl, State.settings]
  · intro c s w h hf hb hx
    refine ⟨fun hm hst hp hps => ?_, fun hm hst hbg hcl => ?_, fun hm hst hg => ?_⟩
    · have hc : s.reduceCause c.val h mPART = none := by
        rw [State.reduceCause, State.tileCause_none (by simp [hst, hp, hps]) hx]
      have he : exec (.reducePart c) s = .next ((s.partReduced c.val h).seqGoOn c.val) :=
        congrArg Host.Outcome.next (State.reduceCmd_fetched hf hb hm (by decide) hc)
      obtain ⟨g1, g2, g3⟩ := (InTile.partReduced (s := s) c.val h).goesOn
      obtain ⟨q1, q2⟩ := State.seq_partReduced (s := s) c.val h
      refine ⟨_, he, g1, ?_, ?_, fun hck => ?_, g2, g3⟩
      · rw [State.tile_seqGoOn, State.tile_partReduced]
      · rw [State.core_seqGoOn]
        exact q1
      · rw [State.core_seqGoOn]
        exact q2 hck
    · have hc : s.reduceCause c.val h mSUM = none := by
        rw [State.reduceCause, State.tileCause_none (by simp [hst, hbg, hcl, mPART, mSUM]) hx]
      have he : exec (.reduceSum c) s = .next ((if s.hasRoom c.val h (s.geoAt c.val h
          (Desc.rung (s.tileDesc c.val h) (s.startRung c.val h))) then (s.sumWaits c.val h).openTile c.val h
          else s.sumWaits c.val h).seqGoOn c.val) := by
        rw [← State.room_sumWaits]
        exact congrArg Host.Outcome.next (State.reduceCmd_fetched hf hb hm (by decide) hc)
      have hw : InTile c.val h s (s.sumWaits c.val h) := (InTile.refl c.val h s).modTile _
      refine ⟨fun p hr hp => ?_, fun hr => ?_⟩
      · obtain ⟨hi, o1, o2, o3⟩ := State.openTile_sum (s := s.sumWaits c.val h) (k := c.val) (h := h) (p := p)
          (by rw [State.tile_sumWaits]; exact hbg) (by rw [State.tile_sumWaits]) (by rw [State.heldSum_sumWaits]; exact hp)
        rw [if_pos hr] at he
        obtain ⟨g1, g2, g3⟩ := (hw.trans hi).goesOn
        refine ⟨_, he, g1, ?_, ?_, ?_, g2, g3⟩
        · rw [State.tile_seqGoOn, o1]
        · rw [State.tile_seqGoOn, o2]
        · rw [State.tile_seqGoOn, o3, State.tile_sumWaits]
      · rw [if_neg (by rw [hr]; decide)] at he
        obtain ⟨g1, g2, g3⟩ := hw.goesOn
        refine ⟨_, he, g1, ?_, g2, g3⟩
        rw [State.tile_seqGoOn, State.tile_sumWaits]
    · have hc : s.reduceCause c.val h mGROUP = none := by
        rw [State.reduceCause, State.tileCause_none (by simp [hst, hg, mPART, mSUM, mGROUP]) hx]
      obtain ⟨g1, g2, g3, g4, -⟩ := State.modTile_goesOn s c.val h (fun t => { t with grp := some (fld w 20 13) })
      exact ⟨_, congrArg Host.Outcome.next (State.reduceCmd_fetched hf hb hm (by decide) hc), g1, g2, g3, g4⟩
  · intro c h g s x hg ho h1 h2 h3 ha hb hr hk
    exact ⟨_, execContributionSend_takes hg ho h1 h2 h3, State.sendContribution_joins hb ha hr hk⟩
  · intro c h g s x hg ho h1 h2 h3 hb
    obtain ⟨e1, e2⟩ := State.sendContribution_refused hb
    exact ⟨_, execContributionSend_takes hg ho h1 h2 h3, e1, congrArg Tch.groups e2⟩
  · intro c h q s x hq ho hs hst hd
    obtain ⟨h1, h2, h3⟩ := State.tile_commitSent (s := s) c.val h.val q
    obtain ⟨h4, h5⟩ := State.regs_commitSent (s := s) c.val h.val q
    exact ⟨_, execCommitSend_sends hq ho hs hst hd, rfl, h1, h2, h3, h4, h5, State.only_commitSent _ _ _⟩
  · intro c h q bs u v s n hq ho hu ha hst hh hr hw
    refine ⟨_, execCommitStore_stores hq ho hu ha hst hh hr hw, State.tile_commitDone _ _ _, ?_, ?_⟩
    · rw [State.chan_stored]
    · rw [State.chan_stored]

end Sys2Proof.Machine
end

section
set_option Elab.async false
/-! What starting a DMA chain leaves of a sequencer. -/

namespace Sys2Proof.Machine
open Sys2Proof
variable {s₀ s t u : State} {c cc hh : Nat}

theorem IssueHeld.modChan (hk : IssueHeld cc s₀ s) (c ch : Nat) (f : Chan → Chan) : IssueHeld cc s₀ (s.modChan c ch f) := by
  unfold State.modChan
  grind [IssueHeld.fields, IssueHeld.modCore]

theorem IssueHeld.unstall (hk : IssueHeld cc s₀ s) (c : Nat) (p : StallBy → Bool) : IssueHeld cc s₀ (s.unstall c p) := by
  unfold State.unstall
  grind [IssueHeld.fields, IssueHeld.modCore]

theorem IssueHeld.chanHalt (hk : IssueHeld cc s₀ s) (c ch err : Nat) : IssueHeld cc s₀ (s.chanHalt c ch err) := by
  unfold State.chanHalt
  grind [IssueHeld.fields, IssueHeld.modChan, IssueHeld.unstall, IssueHeld.count]

theorem IssueHeld.chanFault (hk : IssueHeld cc s₀ s) (c ch a : Nat) : IssueHeld cc s₀ (s.chanFault c ch a) := by
  unfold State.chanFault
  grind [IssueHeld.fields, IssueHeld.chanHalt, IssueHeld.coreEvent]

theorem IssueHeld.chanNo (hk : IssueHeld cc s₀ s) (c ch : Nat) (got : Got) : IssueHeld cc s₀ (s.chanNo c ch got) := by
  cases got <;> unfold State.chanNo <;> grind [IssueHeld.chanFault, IssueHeld.modChan, IssueHeld.stallOn]

theorem IssueHeld.kick (hk : IssueHeld cc s₀ s) (c : Nat) (e : Engine) : IssueHeld cc s₀ (s.kick c e) := by
  unfold State.kick
  grind [IssueHeld.fields, IssueHeld.modSeq]

theorem IssueHeld.enqueue (hk : IssueHeld cc s₀ s) (c : Nat) (e : Engine) (w : BitVec 128) (vlen : Nat)
    : IssueHeld cc s₀ (s.enqueue c e w vlen) := by
  unfold State.enqueue
  grind [IssueHeld.fields, IssueHeld.modSeq, IssueHeld.kick]

theorem IssueHeld.chanDesc (hk : IssueHeld cc s₀ s) (c ch a : Nat) : IssueHeld cc s₀ (s.chanDesc c ch a) := by
  unfold State.chanDesc
  grind [IssueHeld.fields, IssueHeld.chanHalt, IssueHeld.coreEvent]

theorem IssueHeld.loadDesc (hk : IssueHeld cc s₀ s) (c ch : Nat) : IssueHeld cc s₀ (s.loadDesc c ch) := by
  unfold State.loadDesc
  grind [IssueHeld.fields, IssueHeld.chanDesc, IssueHeld.readMem, IssueHeld.modChan, IssueHeld.chanNo]

theorem IssueHeld.dropReqs (hk : IssueHeld cc s₀ s) (c ch : Nat) : IssueHeld cc s₀ (s.dropReqs c ch) := by
  unfold State.dropReqs
  grind [IssueHeld.fields]

theorem IssueHeld.startChain (hk : IssueHeld cc s₀ s) (c ch a : Nat) : IssueHeld cc s₀ (s.startChain c ch a) := by
  unfold State.startChain
  grind [IssueHeld.fields, IssueHeld.dropReqs, IssueHeld.modChan, IssueHeld.loadDesc]

end Sys2Proof.Machine
end

section
set_option Elab.async false
/-! The sequencer's engine commands (R345, R349). -/

namespace Sys2Proof.Machine
open Sys2Proof
variable {s t : State} {c : CoreId}

/-! ### A command takes its engine's place -/

/-- A command of VLEN `n` takes engine `e`'s queue place and the sequencer goes on. -/
def Taken (k : Nat) (e : Engine) (w : BitVec 128) (n : Nat) (s t : State) : Prop :=
  goesOn k s t ∧ (∃ j ∈ (t.core k).seq.jobs, j.eng = e ∧ j.cmd = w ∧ j.vlen = n) ∧
    (t.core k).seq.jobs.length = (s.core k).seq.jobs.length + 1 ∧ onlyCore k s t ∧ onlyRingIndex k s t ∧
    only [.cores, .regs, .mem] s t

theorem State.jobs_kick (k : Nat) (e : Engine) : ((s.kick k e).core k).seq.jobs.length = (s.core k).seq.jobs.length ∧
    ∀ j ∈ (s.core k).seq.jobs, ∃ i ∈ ((s.kick k e).core k).seq.jobs, i.eng = j.eng ∧ i.cmd = j.cmd ∧ i.vlen = j.vlen := by
  unfold State.kick
  split
  · exact ⟨rfl, fun j hj => ⟨j, hj, rfl, rfl, rfl⟩⟩
  · rw [State.core_modSeq_self]
    refine ⟨List.length_map .., fun j hj => ⟨_, List.mem_map_of_mem hj, ?_⟩⟩
    split <;> exact ⟨rfl, rfl, rfl⟩

theorem State.jobs_enqueue (k : Nat) (e : Engine) (w : BitVec 128) (n : Nat) :
    (∃ j ∈ ((s.enqueue k e w n).core k).seq.jobs, j.eng = e ∧ j.cmd = w ∧ j.vlen = n) ∧
    ((s.enqueue k e w n).core k).seq.jobs.length = (s.core k).seq.jobs.length + 1 := by
  unfold State.enqueue
  extract_lets j
  obtain ⟨h1, h2⟩ := State.jobs_kick (s := s.modSeq k (fun q => { q with jobs := q.jobs ++ [j] })) k e
  rw [State.core_modSeq_self] at h1 h2
  refine ⟨?_, h1.trans (by simp)⟩
  obtain ⟨i, hi, g1, g2, g3⟩ := h2 j (by simp)
  exact ⟨i, hi, g1, g2, g3⟩

theorem State.regs_enqueue (k : Nat) (e : Engine) (w : BitVec 128) (n : Nat) : (s.enqueue k e w n).regs = s.regs :=
  State.regs_of_only ((only.refl [.cores] s).enqueue (by simp) k e w n) (by simp)

/-- VEC_VLEN stands apart from the sequencer's registers. -/
theorem vecVlen_apart (k : Nat) : regAddr .seqIssued k 0 0 ≠ regAddr .vecVlen k 0 0 ∧ regAddr .seqRing k 0 0 ≠ regAddr .vecVlen k 0 0 := by
  simp only [regAddr, RegName.row, Blk.isCore, Blk.base, if_true]
  omega

/-- A command whose engine's queue place is free takes it (R345). -/
theorem State.issueJob_takes {k n : Nat} {e : Engine} (w : BitVec 128) (vs : Bool) (hp : s.placeFree k e = true) :
    Taken k e w n s (s.issueJob k e w vs n) := by
  unfold State.issueJob
  extract_lets t
  have hcore (d : Nat) : t.core d = s.core d := by
    simp only [t]
    split <;> rfl
  have hmem : t.mem = s.mem := by
    simp only [t]
    split <;> rfl
  have hrg (m : RegName) (hm : regAddr m k 0 0 ≠ regAddr .vecVlen k 0 0) : t.rg m k = s.rg m k := by
    simp only [t]
    split
    · exact State.rg_setRg_ne s _ hm
    · rfl
  have hon : only [.cores, .regs] s t := by
    simp only [t]
    split
    · exact (only.refl _ s).setRg (by simp) _ _ _ _ _
    · exact .refl _ s
  obtain ⟨hi, hr⟩ := vecVlen_apart k
  have hseq : IssueHeld k s (t.enqueue k e w n) := ((IssueHeld.refl k s).of_core_eq (hcore k)).enqueue _ _ _ _
  obtain ⟨hj, hl⟩ := State.jobs_enqueue (s := t) k e w n
  have hregs := State.regs_enqueue (s := t) k e w n
  rw [if_pos (by rw [State.placeFree, State.queuedJob, hcore k]; exact hp)]
  refine ⟨goesOn_seqGoOn (.of_issueHeld hseq ((State.rg_of_regs_eq hregs).trans (hrg .seqIssued hi))), ?_, ?_, ?_, ?_, ?_⟩
  · rw [State.core_seqGoOn]
    exact hj
  · rw [State.core_seqGoOn, ← hcore k]
    exact hl
  · exact (onlyCore.enqueue (fun d _ => hcore d) _ _ _).seqGoOn
  · refine onlyRingIndex_seqGoOn ?_ ((State.rg_of_regs_eq hregs).trans (hrg .seqRing hr))
    exact ((((only.refl [.cores] t).enqueue (by simp) k e w n) .mem).resolve_left (by simp)).trans hmem
  · exact ((hon.mono (by simp)).enqueue (by simp) _ _ _ _).seqGoOn (by simp) (by simp) (by simp) _

/-! ### The commands -/

theorem execVprog_takes (hf : fetchesOp c.val 0x0A s) (hc : s.vprogCause c.val (s.fetchWord c.val) = none) :
    exec (.vprog c) s = .next (s.issueJob c.val .vprog (s.fetchWord c.val) (flag (s.fetchWord c.val) 112)
      (s.engVlen c.val .vprog (s.fetchWord c.val))) := by
  rw [exec, execVprog, State.seqRun_fetched hf (by decide), hc, State.unless]

theorem execRake_takes (hf : fetchesOp c.val 0x0B s) (hc : s.rakeCause c.val (s.fetchWord c.val) = none) :
    exec (.rake c) s = .next (s.issueJob c.val .rake (s.fetchWord c.val) (flag (s.fetchWord c.val) 73)
      (s.engVlen c.val .rake (s.fetchWord c.val))) := by
  rw [exec, execRake, State.seqRun_fetched hf (by decide), hc, State.unless]

theorem execConv_takes (hf : fetchesOp c.val 0x0C s) (hc : s.convCause c.val (s.fetchWord c.val) = none) :
    exec (.conv c) s = .next (s.issueJob c.val .conv (s.fetchWord c.val) (flag (s.fetchWord c.val) 105)
      (s.engVlen c.val .conv (s.fetchWord c.val))) := by
  rw [exec, execConv, State.seqRun_fetched hf (by decide), hc, State.unless]

theorem execSort_takes (hf : fetchesOp c.val 0x15 s) (hb : onlyBits (s.fetchWord c.val) [(8, 92)] = true)
    (h1 : leaves (fld (s.fetchWord c.val) 21 8) (4 * (fld (s.fetchWord c.val) 99 68 + 1)) = false)
    (h2 : leaves (fld (s.fetchWord c.val) 35 22) (4 * (fld (s.fetchWord c.val) 39 36 + 1)) = false)
    (h3 : leaves (fld (s.fetchWord c.val) 53 40) (4 * fld (s.fetchWord c.val) 99 68) = false)
    (h4 : leaves (fld (s.fetchWord c.val) 67 54) (4 * (fld (s.fetchWord c.val) 39 36 + 1)) = false) :
    exec (.sort c) s = .next (s.issueJob c.val .sort (s.fetchWord c.val) false 0) := by
  rw [exec, execSort, State.seqRun_fetched hf (by decide)]
  simp only [hb, h1, h2, h3, h4, Bool.not_true, Bool.or_self]
  rfl

theorem execMerge_takes (hf : fetchesOp c.val 0x16 s) (hb : onlyBits (s.fetchWord c.val) [(8, 45)] = true)
    (h1 : leaves (fld (s.fetchWord c.val) 21 8) 16 = false)
    (h2 : leaves (fld (s.fetchWord c.val) 38 25) (fld (s.fetchWord c.val) 52 39 * 32) = false)
    (h3 : (s.mergeRanges c.val (s.fetchWord c.val)).any (fun x => !spadFits x.1 x.2) = false)
    (h4 : s.mergeLong c.val (s.fetchWord c.val) = false) :
    exec (.merge c) s = .next (s.issueJob c.val .merge (s.fetchWord c.val) false 0) := by
  rw [exec, execMerge, State.seqRun_fetched hf (by decide)]
  simp only [hb, h1, h2, h3, h4, Bool.not_true, Bool.or_self]
  rfl

theorem execDma_starts (hf : fetchesOp c.val 0x0D s) (hb : onlyBits (s.fetchWord c.val) [(8, 53)] = true)
    (h12 : flag (s.fetchWord c.val) 12 = false) (hch : s.chanFree c.val (fld (s.fetchWord c.val) 11 8) = true) :
    exec (.dma c) s = .next ((s.dmaStart c.val (s.fetchWord c.val)).seqGoOn c.val) := by
  rw [exec, execDma, State.dmaCmd, State.wait_of_fetchesOp hf, if_neg (by decide), State.seqRun_fetched hf (by decide)]
  simp only [hb, h12, Bool.false_eq_true, if_false, Bool.not_true, Bool.false_and]
  change Host.Outcome.next (if _ then _ else _) = _
  rw [if_pos hch]

/-- Settles O30, from the engines' queue places and the start of a chain. -/
theorem engineCommands : Obligations.EngineCommands := by
  refine ⟨?_, ?_⟩
  · intro c s w taken
    refine ⟨fun hf hc hp => ?_, fun hf hc hp => ?_, fun hf hc hp => ?_, fun hf hb h1 h2 h3 h4 hp => ?_,
      fun hf hb h1 h2 h3 h4 hp => ?_⟩
    · exact ⟨_, execVprog_takes hf hc, State.issueJob_takes _ _ hp⟩
    · exact ⟨_, execRake_takes hf hc, State.issueJob_takes _ _ hp⟩
    · exact ⟨_, execConv_takes hf hc, State.issueJob_takes _ _ hp⟩
    · exact ⟨_, execSort_takes hf hb h1 h2 h3 h4, State.issueJob_takes _ _ hp⟩
    · exact ⟨_, execMerge_takes hf hb h1 h2 h3 h4, State.issueJob_takes _ _ hp⟩
  · intro c s w hf hb h12 hch
    have ha : dmaAddr c.val w = fld w 60 13 := by simp [dmaAddr, w, h12]
    have hs : s.dmaStart c.val w = (s.setRg64 .dmaDesc c.val (fld w 11 8) 0 (dmaAddr c.val w)).startChain c.val (fld w 11 8)
      (dmaAddr c.val w) := rfl
    obtain ⟨h1, h2, -⟩ := State.chan_startChain (s := s.setRg64 .dmaDesc c.val (fld w 11 8) 0 (dmaAddr c.val w)) c.val (fld w 11 8)
      (dmaAddr c.val w)
    obtain ⟨h3, -⟩ := ((IssueHeld.refl c.val s).setRg64 .dmaDesc c.val (fld w 11 8) 0 (dmaAddr c.val w)).startChain c.val (fld w 11 8)
      (dmaAddr c.val w)
    refine ⟨_, execDma_starts hf hb h12 hch, ?_, ?_, ?_⟩
    · rw [State.chan_seqGoOn, hs, h1]
      rfl
    · rw [State.chan_seqGoOn, hs, h2, ha]
    · rw [State.core_seqGoOn]
      exact congrArg (fun n => (n + 1) % 256) h3

end Sys2Proof.Machine
end

section
set_option Elab.async false
/-! What shared operations leave unchanged. -/

namespace Sys2Proof
open Sys2Proof.Machine
variable {ps : List Part} {s₀ s t u : State} {c cc : Nat}

theorem only.modPort (hk : only ps s₀ s) (m1 : Part.tch ∈ ps) (p : Nat) (f : Port → Port) : only ps s₀ (s.modPort p f) := by
  unfold State.modPort
  grind [only.fields]

theorem only.modGroup (hk : only ps s₀ s) (m1 : Part.tch ∈ ps) (g : Nat) (f : Group → Group) : only ps s₀ (s.modGroup g f) := by
  unfold State.modGroup
  grind [only.fields]

theorem only.send (hk : only ps s₀ s) (m1 : Part.outbox ∈ ps) (o : Out) : only ps s₀ (s.send o) := by
  unfold State.send
  grind [only.fields]

theorem only.setQuad (hk : only ps s₀ s) (m1 : Part.prc ∈ ps) (q : Nat) (x : QuadSt) : only ps s₀ (s.setQuad q x) := by
  unfold State.setQuad
  grind [only.fields]

theorem only.ungate (hk : only ps s₀ s) (m1 : Part.prc ∈ ps) (c : Nat) : only ps s₀ (s.ungate c) := by
  unfold State.ungate
  grind [only.fields, only.setQuad]

theorem only.sendPacket (hk : only ps s₀ s) (m1 : Part.outbox ∈ ps) (m2 : Part.tch ∈ ps) (p : Nat) (k : Packet)
    : only ps s₀ (s.sendPacket p k) := by
  unfold State.sendPacket
  grind [only.fields, only.modPort, only.each, only.send]

theorem only.sendTo (hk : only ps s₀ s) (m1 : Part.outbox ∈ ps) (m2 : Part.tch ∈ ps) (k : Packet)
    : only ps s₀ (s.sendTo k) := by
  unfold State.sendTo
  grind [only.fields, only.sendPacket]

theorem only.request (hk : only ps s₀ s) (m1 : Part.outbox ∈ ps) (m2 : Part.cores ∈ ps) (m3 : Part.tch ∈ ps) (k : Packet)
    (f : ReqFor) (dest : Nat) : only ps s₀ (s.request k f dest) := by
  unfold State.request
  grind [only.fields, only.act, only.mesh, only.sendTo]

theorem only.groupSend (hk : only ps s₀ s) (m1 : Part.outbox ∈ ps) (m2 : Part.tch ∈ ps) (m3 : Part.mtr ∈ ps) (g p : Nat)
    (k : Packet) : only ps s₀ (s.groupSend g p k) := by
  unfold State.groupSend
  grind [only.fields, only.groupAct, only.sendPacket]

theorem only.toParent (hk : only ps s₀ s) (m1 : Part.outbox ∈ ps) (m2 : Part.tch ∈ ps) (m3 : Part.mtr ∈ ps) (g : Nat)
    (k : Packet) : only ps s₀ (s.toParent g k) := by
  unfold State.toParent
  grind [only.fields, only.groupSend]

theorem only.toKids (hk : only ps s₀ s) (m1 : Part.outbox ∈ ps) (m2 : Part.tch ∈ ps) (m3 : Part.mtr ∈ ps) (g : Nat)
    (k : Packet) : only ps s₀ (s.toKids g k) := by
  unfold State.toKids
  grind [only.fields, only.each, only.groupSend]

theorem only.barrierDown (hk : only ps s₀ s) (m1 : Part.outbox ∈ ps) (m2 : Part.cores ∈ ps) (m3 : Part.tch ∈ ps)
    (m4 : Part.mtr ∈ ps) (g : Nat) : only ps s₀ (s.barrierDown g) := by
  unfold State.barrierDown
  grind [only.fields, only.modGroup, only.toKids, only.slotRelease]

theorem only.barrierStep (hk : only ps s₀ s) (m1 : Part.outbox ∈ ps) (m2 : Part.cores ∈ ps) (m3 : Part.tch ∈ ps)
    (m4 : Part.mtr ∈ ps) (g : Nat) : only ps s₀ (s.barrierStep g) := by
  unfold State.barrierStep
  grind [only.fields, only.barrierDown, only.modGroup, only.toParent]

theorem only.slotFull (hk : only ps s₀ s) (m1 : Part.outbox ∈ ps) (m2 : Part.cores ∈ ps) (m3 : Part.tch ∈ ps)
    (m4 : Part.mtr ∈ ps) (c n : Nat) : only ps s₀ (s.slotFull c n) := by
  unfold State.slotFull
  grind [only.fields, only.setSlot, only.modGroup, only.barrierStep]

theorem onlyCore.modPort (hk : onlyCore cc s₀ s) (p : Nat) (f : Port → Port) : onlyCore cc s₀ (s.modPort p f) := by
  unfold State.modPort
  grind [onlyCore.fields]

theorem onlyCore.send (hk : onlyCore cc s₀ s) (o : Out) : onlyCore cc s₀ (s.send o) := by
  unfold State.send
  grind [onlyCore.fields]

theorem onlyCore.sendPacket (hk : onlyCore cc s₀ s) (p : Nat) (k : Packet) : onlyCore cc s₀ (s.sendPacket p k) := by
  unfold State.sendPacket
  grind [onlyCore.fields, onlyCore.modPort, onlyCore.each, onlyCore.send]

theorem onlyCore.sendTo (hk : onlyCore cc s₀ s) (k : Packet) : onlyCore cc s₀ (s.sendTo k) := by
  unfold State.sendTo
  grind [onlyCore.fields, onlyCore.sendPacket]

theorem onlyCore.request (hk : onlyCore c s₀ s) (k : Packet) (dest : Nat) : onlyCore c s₀ (s.request k (.signal c) dest) := by
  unfold State.request
  grind [onlyCore.fields, onlyCore.act, onlyCore.mesh, onlyCore.sendTo]

end Sys2Proof
end

section
set_option Elab.async false
/-! What requests and slot states leave of a sequencer. -/

namespace Sys2Proof.Machine
open Sys2Proof
variable {s₀ s t u : State} {c cc : Nat}

/-- The sequencer stays as it is. -/
def SeqSame (c : Nat) (s t : State) : Prop := (t.core c).seq = (s.core c).seq

theorem SeqSame.refl (c : Nat) (s : State) : SeqSame c s s := rfl

theorem SeqSame.of_core_eq (hk : SeqSame cc s₀ s) (e : t.core cc = s.core cc) : SeqSame cc s₀ t := by
  rwa [SeqSame, e]

theorem SeqSame.of_cores_eq (hk : SeqSame cc s₀ s) (e : t.cores = s.cores) : SeqSame cc s₀ t :=
  hk.of_core_eq (by rw [State.core, State.core, e])

theorem SeqSame.fields (hk : SeqSame cc s₀ s) {a1 a2 a3 a4 a5 a6 a7 a9 a10 a11 a12 a13 a14 a15 a16 a17 a18 a19 a20 a21} :
    SeqSame cc s₀ (State.mk a1 a2 a3 a4 a5 a6 a7 s.cores a9 a10 a11 a12 a13 a14 a15 a16 a17 a18 a19 a20 a21) := hk.of_cores_eq rfl

theorem SeqSame.modCore (hk : SeqSame cc s₀ s) (c : Nat) (f : Core → Core) (hf : ∀ k, (f k).seq = k.seq) : SeqSame cc s₀ (s.modCore c f) := by
  by_cases hc : cc = c
  · subst hc
    have e := hf (s.core cc)
    unfold SeqSame at *
    rw [State.core_modCore_self]
    simp only [e]
    exact hk
  · exact hk.of_core_eq (State.core_modCore_ne s f hc)

theorem SeqSame.each {α : Type} (hk : SeqSame cc s₀ s) (l : List α) (f : State → α → State)
    (hf : ∀ t x, SeqSame cc s₀ t → SeqSame cc s₀ (f t x)) : SeqSame cc s₀ (s.each l f) := State.each_inv s (SeqSame cc s₀) l f hf hk

theorem SeqSame.setRg (hk : SeqSame cc s₀ s) (n : RegName) (c i j : Nat) (v : W32) : SeqSame cc s₀ (s.setRg n c i j v) := by
  unfold State.setRg
  grind [SeqSame.fields]

theorem SeqSame.setSlot (hk : SeqSame cc s₀ s) (c n : Nat) (x : Slot) : SeqSame cc s₀ (s.setSlot c n x) := by
  unfold State.setSlot
  grind [SeqSame.fields, SeqSame.modCore]

theorem SeqSame.modPort (hk : SeqSame cc s₀ s) (p : Nat) (f : Port → Port) : SeqSame cc s₀ (s.modPort p f) := by
  unfold State.modPort
  grind [SeqSame.fields]

theorem SeqSame.send (hk : SeqSame cc s₀ s) (o : Out) : SeqSame cc s₀ (s.send o) := by
  unfold State.send
  grind [SeqSame.fields]

theorem SeqSame.act (hk : SeqSame cc s₀ s) (c j n : Nat) : SeqSame cc s₀ (s.act c j n) := by
  unfold State.act
  grind [SeqSame.fields, SeqSame.modCore]

theorem SeqSame.mesh (hk : SeqSame cc s₀ s) (c : Nat) (d : Option Nat) (n : Nat) : SeqSame cc s₀ (s.mesh c d n) := by
  unfold State.mesh
  grind [SeqSame.fields, SeqSame.act]

theorem SeqSame.sendPacket (hk : SeqSame cc s₀ s) (p : Nat) (k : Packet) : SeqSame cc s₀ (s.sendPacket p k) := by
  unfold State.sendPacket
  grind [SeqSame.fields, SeqSame.modPort, SeqSame.each, SeqSame.send]

theorem SeqSame.sendTo (hk : SeqSame cc s₀ s) (k : Packet) : SeqSame cc s₀ (s.sendTo k) := by
  unfold State.sendTo
  grind [SeqSame.fields, SeqSame.sendPacket]

theorem SeqSame.request (hk : SeqSame cc s₀ s) (k : Packet) (f : ReqFor) (dest : Nat) : SeqSame cc s₀ (s.request k f dest) := by
  unfold State.request
  grind [SeqSame.fields, SeqSame.act, SeqSame.mesh, SeqSame.sendTo]

theorem SeqSame.stallOn (hk : SeqSame cc s₀ s) (c : Nat) (x : Stall) : SeqSame cc s₀ (s.stallOn c x) := by
  unfold State.stallOn
  grind [SeqSame.fields, SeqSame.modCore, SeqSame.setRg]

theorem SeqSame.slotRelease (hk : SeqSame cc s₀ s) (c n cls : Nat) : SeqSame cc s₀ (s.slotRelease c n cls) := by
  unfold State.slotRelease
  grind [SeqSame.fields, SeqSame.setSlot]

end Sys2Proof.Machine
end

section
set_option Elab.async false
/-! The sequencer's NOP, WAITSLOT, SIGNAL and FENCE (R350, R360, R361, R363). -/

namespace Sys2Proof.Machine
open Sys2Proof
variable {s t : State} {c : CoreId}

/-! ### NOP and WAITSLOT -/

theorem execNop_goesOn (hf : fetchesOp c.val 0x00 s) (hb : onlyBits (s.fetchWord c.val) [] = true) :
    exec (.nop c) s = .next (s.seqGoOn c.val) := by
  rw [exec, execNop, State.seqRun_fetched hf (by decide)]
  simp only [hb, if_true, State.unless]

theorem onlyRegs_seqGoOn (s : State) (k : Nat) : onlyRegs [regAddr .seqIssued k 0 0] s (s.seqGoOn k) :=
  ((onlyRegs.refl _ s).setRg .seqIssued k 0 0 _ (by simp)).trans (.of_regs_eq State.regs_seqGoOn)

theorem execWaitslot_fetched (hf : fetchesOp c.val 0x0E s) (hb : onlyBits (s.fetchWord c.val) [(8, 28)] = true)
    (hd : s.declared c.val (fld (s.fetchWord c.val) 13 8) = true) (h16 : flag (s.fetchWord c.val) 16 = false) :
    exec (.waitslot c) s = .next (if s.slotWanted c.val (s.fetchWord c.val) then
        (s.waitslotEnd c.val (s.fetchWord c.val)).seqGoOn c.val
      else (s.seqWait c.val (.slot (fld (s.fetchWord c.val) 13 8))).stallOn c.val
        { who := .seq, slot := fld (s.fetchWord c.val) 13 8, wr := flag (s.fetchWord c.val) 14, off := 0, len := 0, data := [] }) := by
  rw [exec, execWaitslot, State.seqRun_fetched hf (by decide)]
  simp only [State.waitslotCmd, hb, hd, h16, Bool.not_true, Bool.false_and, Bool.or_self]
  rfl

/-- A WAITSLOT that neither loads nor releases clears TO alone. -/
theorem State.waitslotEnd_plain {k : Nat} {w : BitVec 128} (h16 : flag w 16 = false) (h15 : flag w 15 = false) :
    s.waitslotEnd k w = s.modSeq k (fun q => { q with tout := false }) := by
  rw [State.waitslotEnd]
  simp [h16, h15]

theorem State.stalled_stallOn (k : Nat) (x : Stall) : (s.stallOn k x).stalled k x.who = true := by
  have h : (s.stallOn k x).core k = { s.core k with stalls := (s.core k).stalls ++ [x] } := by
    change (s.modCore k (fun y => { y with stalls := y.stalls ++ [x] })).core k = _
    rw [State.core_modCore_self]
  rw [State.stalled, h]
  simp

theorem waitsIn_stallOn {k : Nat} {w : Wait} {x : Stall} (h : waitsIn k w s t) : waitsIn k w s (t.stallOn k x) := by
  obtain ⟨h1, h2, h3⟩ := h
  have hq : ((t.stallOn k x).core k).seq = (t.core k).seq := (SeqSame.refl k t).stallOn k x
  refine ⟨by rw [hq, h1], by rw [hq, h2], ?_⟩
  have hr : (t.stallOn k x).rg .seqIssued k = t.rg .seqIssued k := by
    refine State.rg_setRg_ne _ _ ?_
    simp only [regAddr, RegName.row, Blk.isCore, Blk.base, if_true]
    omega
  rw [counted, hr]
  exact h3

theorem execWaitslotResume_ends {n : Nat} (hw : (s.core c.val).seq.wait = .slot n) (ho : s.coreOpen c.val = true)
    (hs : s.slotWanted c.val (s.fetchWord c.val) = true) :
    exec (.waitslotResume c) s =
      .next (((s.unstall c.val (· = .seq)).waitslotEnd c.val (s.fetchWord c.val)).seqDone c.val) := by
  rw [exec, execWaitslotResume]
  simp only [hw, ho, hs, Bool.and_self, if_true]

/-! ### SIGNAL -/

theorem State.signalCmd_fetched {k kind : Nat} {f : State → Nat → BitVec 128 → State} (hf : fetchesOp k 0x0F s)
    (hb : onlyBits (s.fetchWord k) [(8, 29)] = true) (hk : fld (s.fetchWord k) 9 8 = kind)
    (hd : kind < 2 ∨ flag (s.fetchWord k) 36 = true → s.declared k (fld (s.fetchWord k) 15 10) = true) :
    s.signalCmd k kind f = (f s (fld (s.fetchWord k) 15 10) (s.fetchWord k)).seqGoOn k := by
  have h2 : ((kind < 2 || flag (s.fetchWord k) 36) && !s.declared k (fld (s.fetchWord k) 15 10)) = false := by
    by_cases h : kind < 2 ∨ flag (s.fetchWord k) 36 = true
    · simp [hd h]
    · simp only [not_or, Bool.not_eq_true] at h
      simp [h.1, h.2]
  rw [State.signalCmd, State.seqRun_fetched hf (by decide)]
  simp only [hk, ne_eq, not_true_eq_false, if_false, hb, h2, Bool.not_true]
  rfl

theorem SeqAt.of_seqSame {k : Nat} (h : SeqSame k s t) (hr : t.regs = s.regs) : SeqAt k s t := .of_regs_eq h hr

/-- A FULL slot that is no group's barrier. -/
theorem State.slotFull_plain {k n : Nat} (hd : s.declared k n = true) (hst : (s.slot k n).st = .empty ∨ (s.slot k n).st = .filling)
    (hb : (s.setSlot k n { st := .full }).barrierOf k n = none) : s.slotFull k n = s.setSlot k n { st := .full } := by
  have he : (decide ((s.slot k n).st = .empty) || decide ((s.slot k n).st = .filling)) = true := by
    obtain h | h := hst <;> simp [h]
  rw [State.slotFull]
  simp only [hd, he, Bool.and_self, if_true, hb]

theorem State.slot_other_seqGoOn (d k n : Nat) : (s.seqGoOn k).slot d n = s.slot d n := by
  by_cases h : d = k
  · rw [h, State.slot, State.core_seqGoOn, State.slot]
  · have hc : (s.seqGoOn k).core d = s.core d := (onlyCore.refl k s).seqGoOn d h
    rw [State.slot, hc, State.slot]

/-- What a release leaves of a slot follows from the slot and its registers. -/
theorem State.slot_slotRelease_congr {d n : Nat} (cls : Nat) (hs : t.slot d n = s.slot d n) (hr : t.regs = s.regs) :
    (t.slotRelease d n cls).slot d n = (s.slotRelease d n cls).slot d n := by
  have hrg : t.rg .spdSlotCfg d n = s.rg .spdSlotCfg d n := State.rg_of_regs_eq hr
  have hd : t.declared d n = s.declared d n := by rw [State.declared, State.declared, hrg]
  have hm : t.cmask d n = s.cmask d n := by rw [State.cmask, State.cmask, State.rf, State.rf, hrg]
  have hh : t.slotHold d n = s.slotHold d n := by rw [State.slotHold, State.slotHold, hrg]
  have hq : t.mustRelease d n = s.mustRelease d n := by rw [State.mustRelease, State.mustRelease, hm, hh]
  simp only [State.slotRelease, hs, hd, hm, hh, hq]
  split
  · split
    · rw [State.slot_setSlot_self, State.slot_setSlot_self]
    · rw [State.slot_setSlot_self, State.slot_setSlot_self]
  · exact hs

theorem State.ungate_eq (d : Nat) : (s.ungate d).regs = s.regs ∧ (s.ungate d).cores = s.cores ∧ (s.ungate d).mem = s.mem ∧
    (s.ungate d).tch = s.tch := by
  unfold State.ungate
  split <;> exact ⟨rfl, rfl, rfl, rfl⟩

/-- A SIGNAL that a window admits acts on the slot whose first word it names (R285, R361). -/
theorem State.inSignal_admitted {d o m k : Nat} (full : Bool) (ho : s.coreOpen d = true) (hl : o < 0x80000)
    (ha : s.admitted (coreReq k) d o 1 .sig = true) (hm : s.slotFrom d o = some m) :
    (s.inSignal (coreReq k) d o full).2 =
      if full then (s.ungate d).slotFull d m else (s.ungate d).slotRelease d m cRemote := by
  have hn : s.spadNo d o 1 = none := by
    rw [State.spadNo, if_pos ho, pastSpad, if_pos (by omega)]
  have hf : (s.ungate d).slotFrom d o = some m := by
    rw [← hm]
    unfold State.ungate
    split <;> rfl
  rw [State.inSignal, hn]
  simp only [ha, Bool.not_true, Bool.false_eq_true, if_false, hf]
  rfl

theorem State.declared_of_slotFrom {d o m : Nat} (h : s.slotFrom d o = some m) : s.declared d m = true := by
  have := List.find?_some h
  rw [Bool.and_eq_true] at this
  exact this.1

theorem State.barrierOf_ungate (d m : Nat) (x : Slot) :
    ((s.ungate d).setSlot d m x).barrierOf d m = (s.setSlot d m x).barrierOf d m := by
  unfold State.ungate
  split <;> rfl

/-- A packet that is sent leaves the requests that wait. -/
theorem State.reqs_sendTo (k : Packet) : (s.sendTo k).tch.reqs = s.tch.reqs := by
  unfold State.sendTo
  split
  · unfold State.sendPacket
    split
    · exact State.each_inv _ (fun t => t.tch.reqs = s.tch.reqs) _ _ (fun t x ht => by exact ht) rfl
    · rfl
  · rfl

theorem State.tch_seqGoOn (k : Nat) : (s.seqGoOn k).tch = s.tch :=
  (((only.refl [.cores, .regs, .mem] s).seqGoOn (by simp) (by simp) (by simp) k) .tch).resolve_left (by simp)

/-- A SIGNAL FULL that goes out to another device (R361, R423). -/
def State.signalSent (s : State) (k : Nat) (w : BitVec 128) : State :=
  (s.modSeq k (fun q => { q with sigs := q.sigs + 1 })).request
    { typ := tSignal, dst := fld w 35 24, src := 0, addr := spadBase (fld w 23 16) + s.slotOff k (fld w 15 10), status := 0 }
    (.signal k) 0

theorem State.signalRemote_device {k : Nat} {w : BitVec 128} (h36 : flag w 36 = true)
    (hm : s.mayOriginate (some k) (fld w 35 24) = true) : s.signalRemote k (fld w 15 10) true w = s.signalSent k w := by
  rw [State.signalRemote]
  simp only [h36, if_true, hm]
  rfl

theorem State.signalSent_spec (k : Nat) (w : BitVec 128) : only [.outbox, .cores, .tch] s (s.signalSent k w) ∧
    ((s.signalSent k w).core k).seq = { (s.core k).seq with sigs := (s.core k).seq.sigs + 1 } ∧
    (s.signalSent k w).tch.reqs = s.tch.reqs ++
      [{ tag := s.tch.nextTag, for_ := .signal k, dst := fld w 35 24,
         addr := spadBase (fld w 23 16) + s.slotOff k (fld w 15 10) }] ∧ onlyCore k s (s.signalSent k w) := by
  refine ⟨((only.refl _ s).modSeq (by simp) _ _).request (by simp) (by simp) (by simp) _ _ _, ?_, State.reqs_sendTo _,
    ((onlyCore.refl _ s).modSeq _).request _ _⟩
  have h : SeqSame k (s.modSeq k (fun q => { q with sigs := q.sigs + 1 })) (s.signalSent k w) := (SeqSame.refl k _).request _ _ _
  rw [SeqSame, State.core_modSeq_self] at h
  exact h

/-! ### FENCE -/

theorem execFence_fetched (hf : fetchesOp c.val 0x10 s) (hb : onlyBits (s.fetchWord c.val) [(8, 6), (16, 16)] = true) :
    exec (.fence c) s = .next ((s.seqWait c.val .fence).fenceTry c.val) := by
  rw [exec, execFence, State.seqRun_fetched hf (by decide)]
  simp only [hb, if_true, State.unless]

theorem execFenceRelease_waiting (hw : (s.core c.val).seq.wait = .fence) (ho : s.coreOpen c.val = true) :
    exec (.fenceRelease c) s = .next (s.fenceTry c.val) := by
  rw [exec, execFenceRelease]
  simp [hw, ho]

/-- A sequencer that waits reads its command as before. -/
theorem State.fetchWord_seqWait (k : Nat) (w : Wait) : (s.seqWait k w).fetchWord k = s.fetchWord k := by
  have hr : (s.seqWait k w).ringOff k = s.ringOff k := by
    have hi : (s.seqWait k w).rg .seqRing k = s.rg .seqRing k := State.rg_setRg_core (by decide) (by decide) (by decide) k _
    rw [State.ringOff, State.ringOff, hi]
  rw [State.fetchWord, State.fetchWord, hr, State.core_seqWait]
  rfl

/-- A FENCE's own conditions do not ask whether its sequencer waits. -/
theorem State.fenceOwn_seqWait (k : Nat) (w : Wait) (x : BitVec 128) : (s.seqWait k w).fenceOwn k x = s.fenceOwn k x := by
  have hch (ch : Nat) : (s.seqWait k w).chan k ch = s.chan k ch := by
    rw [State.chan, State.core_seqWait, State.chan]
  have hfree : (s.seqWait k w).chanFree k = s.chanFree k := by
    funext ch
    rw [State.chanFree, State.chanFree, hch]
  have htch : (s.seqWait k w).tch = s.tch := rfl
  simp only [State.fenceOwn, State.sigsDone, State.chanRemote, hch, hfree, htch, State.stalled, State.curCtx, State.core_seqWait,
    Core.busyHandles, Core.tile]
  rfl

/-- A FENCE that no barrier holds and whose conditions hold completes. -/
theorem State.fenceTry_done {k : Nat} (h : s.fenceOwn k (s.fetchWord k) = true) (h13 : flag (s.fetchWord k) 13 = false) :
    s.fenceTry k = s.seqDone k := by
  rw [State.fenceTry]
  simp [h, h13]

theorem State.fenceTry_waits {k : Nat} (h : s.fenceOwn k (s.fetchWord k) = false) (hb : (s.core k).seq.atBarrier = false) :
    s.fenceTry k = s := by
  rw [State.fenceTry]
  simp [h, hb]

/-- The barrier that core `k` waits at is passed. -/
def State.passBarrier (s : State) (k : Nat) : State :=
  (s.modSeq k (fun q => { q with atBarrier := true })).modSeq k (fun q => { q with atBarrier := false, barriers := q.barriers + 1 })

theorem State.core_passBarrier (k : Nat) : (s.passBarrier k).core k =
    { s.core k with seq := { (s.core k).seq with atBarrier := false, barriers := (s.core k).seq.barriers + 1 } } := by
  rw [State.passBarrier, State.core_modSeq_self, State.core_modSeq_self]

/-- A FENCE with a barrier completes once every other core has reached it (R363). -/
theorem State.fenceTry_met {k : Nat} (h : s.fenceOwn k (s.fetchWord k) = true) (h13 : flag (s.fetchWord k) 13 = true)
    (hb : ∀ d ∈ s.barrierCores k, d = k ∨ (s.core k).seq.barriers < (s.core d).seq.barriers ∨
      ((s.core d).seq.barriers = (s.core k).seq.barriers ∧ (s.core d).seq.atBarrier = true)) :
    s.fenceTry k = (s.passBarrier k).seqDone k := by
  have hmet : (s.modSeq k (fun q => { q with atBarrier := true })).barrierMet k = true := by
    have hcores : (s.modSeq k (fun q => { q with atBarrier := true })).barrierCores k = s.barrierCores k := by
      have hcst (d : Nat) : ((s.modSeq k (fun q => { q with atBarrier := true })).core d).cst = (s.core d).cst := by
        by_cases hd : d = k
        · rw [hd, State.core_modSeq_self]
        · exact congrArg Core.cst (State.core_modCore_ne s _ hd)
      simp only [State.barrierCores, hcst]
      rfl
    rw [State.barrierMet, hcores, List.all_eq_true]
    intro d hd
    by_cases hk : d = k
    · simp [hk]
    · have hc : (s.modSeq k (fun q => { q with atBarrier := true })).core d = s.core d := State.core_modCore_ne s _ hk
      obtain h1 | h1 | ⟨h1, h2⟩ := hb d hd
      · exact absurd h1 hk
      · simp [hc, State.core_modSeq_self, h1]
      · simp [hc, State.core_modSeq_self, h1, h2]
  rw [State.fenceTry]
  simp only [h, h13, Bool.not_true, Bool.and_false, Bool.false_eq_true, if_false, hmet, if_true]
  rfl

/-! ### The obligation -/

/-- A FENCE as it arrives: it issues and waits. -/
theorem State.fence_arrives {k : Nat} (s : State) : waitsIn k .fence s (s.seqWait k .fence) ∧ onlyCore k s (s.seqWait k .fence) :=
  ⟨waitsIn_seqWait _ (SeqAt.refl _ s), (onlyCore.refl _ s).seqWait _⟩

theorem State.regs_seqDone (k : Nat) : (s.seqDone k).regs = s.regs := State.regs_setRd _

theorem counted_of_regs_eq {n : RegName} {k i q : Nat} {u : State} (h : counted n k i q s t) (hr : u.regs = t.regs) :
    counted n k i q s u := by
  rw [counted, State.rg_of_regs_eq hr]
  exact h

/-- Settles O31, from the commands' effects and the rules of the sequencer. -/
theorem waitsSignalsFences : Obligations.WaitsSignalsFences := by
  refine ⟨?_, ?_, ?_, ?_, ?_, ?_, ?_, ?_⟩
  · intro c s hf hb
    refine ⟨_, execNop_goesOn hf hb, goesOn_seqGoOn (SeqAt.refl _ s), ?_, (onlyCore.refl _ s).seqGoOn, onlyRegs_seqGoOn s _,
      onlyRingIndex_seqGoOn rfl rfl, (only.refl _ s).seqGoOn (by simp) (by simp) (by simp) _⟩
    rw [State.core_seqGoOn]
  · intro c s w hf hb hd h16
    have he := execWaitslot_fetched hf hb hd h16
    refine ⟨fun h15 hw => ?_, fun hw => ?_⟩
    · rw [if_pos hw, State.waitslotEnd_plain h16 h15] at he
      refine ⟨_, he, goesOn_seqGoOn ⟨?_, ?_, ?_, rfl⟩, ?_, fun n => ?_, ((onlyCore.refl _ s).modSeq _).seqGoOn,
        onlyRingIndex_seqGoOn rfl rfl⟩
      · rw [State.core_modSeq_self]
      · rw [State.core_modSeq_self]
      · rw [State.core_modSeq_self]
      · rw [State.core_seqGoOn, State.core_modSeq_self]
      · rw [State.slot_other_seqGoOn, State.slot, State.core_modSeq_self, State.slot]
    · rw [if_neg (by simp only [w] at hw; simp [hw])] at he
      exact ⟨_, he, waitsIn_stallOn (waitsIn_seqWait _ (SeqAt.refl _ s)), State.stalled_stallOn _ _⟩
  · intro c n s w hw ho hs h16 h15
    have he := execWaitslotResume_ends hw ho hs
    rw [State.waitslotEnd_plain h16 h15] at he
    have hc : ((s.unstall c.val (· = .seq)).modSeq c.val (fun q => { q with tout := false })).core c.val =
        { s.core c.val with seq := { (s.core c.val).seq with tout := false },
                            stalls := (s.core c.val).stalls.filter (fun x => !(x.who = .seq : Bool)) } := by
      rw [State.core_modSeq_self, State.unstall, State.core_modCore_self]
    refine ⟨_, he, completes_seqDone ?_ ?_ ?_, ?_, ?_, (((onlyCore.refl _ s).unstall _).modSeq _).seqDone,
      onlyRingIndex_seqDone rfl rfl⟩
    · rw [hc]
    · rw [hc]
    · rw [hc]
    · rw [State.core_seqDone, hc]
      rfl
    · rw [State.stalled, State.core_seqDone, hc]
      simp
  · intro c s w n hf hb hd
    refine ⟨fun hk hst hbar => ?_, fun hk => ?_⟩
    · have he : exec (.signalFull c) s = .next ((s.slotFull c.val n).seqGoOn c.val) :=
        congrArg Host.Outcome.next (State.signalCmd_fetched hf hb hk fun _ => hd)
      rw [State.slotFull_plain hd hst hbar] at he
      refine ⟨_, he, goesOn_seqGoOn (.of_seqSame ((SeqSame.refl _ s).setSlot ..) rfl), ?_, ((onlyCore.refl _ s).setSlot _ _).seqGoOn,
        onlyRingIndex_seqGoOn rfl rfl⟩
      rw [State.slot_other_seqGoOn, State.slot_setSlot_self]
    · have he : exec (.signalRelease c) s = .next ((s.slotRelease c.val n cSeq).seqGoOn c.val) :=
        congrArg Host.Outcome.next (State.signalCmd_fetched hf hb hk fun _ => hd)
      have hon : only [.cores] s (s.slotRelease c.val n cSeq) := (only.refl _ s).slotRelease (by simp) _ _ _
      refine ⟨_, he, goesOn_seqGoOn (.of_seqSame ((SeqSame.refl _ s).slotRelease ..) (State.regs_of_only hon (by simp))),
        State.slot_other_seqGoOn _ _ _, ((onlyCore.refl _ s).slotRelease _ _).seqGoOn, onlyRingIndex_seqGoOn_of_only hon (by simp) (by simp)⟩
  · intro c m s w d o hf hb h36 hod hl ha hm
    have hdec : ∀ kind, ¬ kind < 2 → (kind < 2 ∨ flag (s.fetchWord c.val) 36 = true → s.declared c.val (fld (s.fetchWord c.val) 15 10) = true) := by
      intro kind hk h
      obtain h | h := h
      · exact absurd h hk
      · simp only [w] at h36
        rw [h36] at h
        cases h
    have hsig (full : Bool) (n : Nat) (hn : n = fld w 15 10) : s.signalRemote c.val n full w =
        if full then (s.ungate d).slotFull d m else (s.ungate d).slotRelease d m cRemote := by
      rw [State.signalRemote, hn]
      simp only [h36, Bool.false_eq_true, if_false]
      exact State.inSignal_admitted full hod hl ha hm
    obtain ⟨hur, huc, hum, -⟩ := State.ungate_eq (s := s) d
    have hus : SeqSame c.val s (s.ungate d) := (SeqSame.refl c.val s).of_cores_eq huc
    have hslot : (s.ungate d).slot d m = s.slot d m := by rw [State.slot, State.core_of_cores_eq huc, State.slot]
    refine ⟨fun hk hst hbar => ?_, fun hk => ?_⟩
    · have he : exec (.signalRemoteFull c) s = .next ((s.signalRemote c.val (fld w 15 10) true w).seqGoOn c.val) :=
        congrArg Host.Outcome.next (State.signalCmd_fetched hf hb hk (hdec 2 (by decide)))
      have hdc : (s.ungate d).declared d m = true := by
        rw [State.declared, State.rg_of_regs_eq hur]
        exact State.declared_of_slotFrom hm
      rw [hsig true _ rfl, if_pos rfl, State.slotFull_plain hdc (by rw [hslot]; exact hst) (by rw [State.barrierOf_ungate]; exact hbar)] at he
      refine ⟨_, he, goesOn_seqGoOn (.of_seqSame (hus.setSlot ..) hur), ?_, onlyRingIndex_seqGoOn hum (State.rg_of_regs_eq hur)⟩
      rw [State.slot_other_seqGoOn, State.slot_setSlot_self]
    · have he : exec (.signalRemoteRelease c) s = .next ((s.signalRemote c.val (fld w 15 10) false w).seqGoOn c.val) :=
        congrArg Host.Outcome.next (State.signalCmd_fetched hf hb hk (hdec 3 (by decide)))
      rw [hsig false _ rfl, if_neg (by decide)] at he
      have hon : only [.cores] (s.ungate d) ((s.ungate d).slotRelease d m cRemote) := (only.refl _ _).slotRelease (by simp) _ _ _
      have hr : ((s.ungate d).slotRelease d m cRemote).regs = s.regs := (State.regs_of_only hon (by simp)).trans hur
      refine ⟨_, he, goesOn_seqGoOn (.of_seqSame (hus.slotRelease ..) hr), ?_,
        onlyRingIndex_seqGoOn (((hon .mem).resolve_left (by simp)).trans hum) (State.rg_of_regs_eq hr)⟩
      rw [State.slot_other_seqGoOn, State.slot_slotRelease_congr cRemote hslot hur]
  · intro c s w hf hb h36 hd hmay hk
    have he : exec (.signalRemoteFull c) s = .next ((s.signalRemote c.val (fld w 15 10) true w).seqGoOn c.val) :=
      congrArg Host.Outcome.next (State.signalCmd_fetched hf hb hk fun _ => hd)
    rw [State.signalRemote_device h36 hmay] at he
    obtain ⟨hon, hseq, hreqs, hoc⟩ := State.signalSent_spec (s := s) c.val w
    refine ⟨_, he, goesOn_seqGoOn ⟨?_, ?_, ?_, State.rg_of_regs_eq (State.regs_of_only hon (by simp))⟩, ?_, ?_, hoc.seqGoOn⟩
    · rw [hseq]
    · rw [hseq]
    · rw [hseq]
    · rw [State.core_seqGoOn, hseq]
    · rw [State.tch_seqGoOn, hreqs]
  · intro c s w hf hb
    obtain ⟨ha, hc⟩ := State.fence_arrives (k := c.val) s
    obtain ⟨h1, h2, h3⟩ := ha
    have he := execFence_fetched hf hb
    refine ⟨fun hown h13 => ?_, fun hown hbar => ?_⟩
    · rw [State.fenceTry_done (by rw [State.fetchWord_seqWait, State.fenceOwn_seqWait]; exact hown)
        (by rw [State.fetchWord_seqWait]; exact h13)] at he
      refine ⟨_, he, ?_, ?_, counted_of_regs_eq h3 (State.regs_seqDone _), hc.seqDone, onlyRingIndex_seqDone rfl ?_⟩
      · rw [State.core_seqDone]
        exact congrArg (fun n => (n + 1) % 256) h1
      · rw [State.core_seqDone]
        rfl
      · rw [State.ringOff, State.ringOff]
        exact congrArg (fun v => BitVec.toNat v % 2 ^ 14 * 32) (State.rg_setRg_core (by decide) (by decide) (by decide) c.val _)
    · rw [State.fenceTry_waits (by rw [State.fetchWord_seqWait, State.fenceOwn_seqWait]; exact hown)
        (by rw [State.core_seqWait]; exact hbar)] at he
      exact ⟨_, he, ⟨h1, h2, h3⟩, hc, (only.refl _ s).seqWait (by simp) (by simp) _ _⟩
  · intro c s w hw ho hown
    have he := execFenceRelease_waiting hw ho
    refine ⟨fun h13 => ?_, fun h13 hb => ?_⟩
    · rw [State.fenceTry_done hown h13] at he
      exact ⟨_, he, completes_seqDone rfl rfl rfl, (onlyCore.refl _ s).seqDone, onlyRingIndex_seqDone rfl rfl⟩
    · rw [State.fenceTry_met hown h13 hb] at he
      have hc := State.core_passBarrier (s := s) c.val
      refine ⟨_, he, completes_seqDone ?_ ?_ ?_, ?_, ?_, (((onlyCore.refl _ s).modSeq _).modSeq _).seqDone,
        onlyRingIndex_seqDone rfl rfl⟩
      · rw [hc]
      · rw [hc]
      · rw [hc]
      · rw [State.core_seqDone, hc]
        rfl
      · rw [State.core_seqDone, hc]
        rfl

end Sys2Proof.Machine
end

section
set_option Elab.async false
/-! BRANCH, LOOP, EVENT and HALT of a sequencer (R350, R365, R366). -/

namespace Sys2Proof.Machine
open Sys2Proof
variable {s t : State} {c : CoreId}

/-! ### The read index -/

/-- Setting the read index writes nothing but its place in the ring. -/
theorem onlyRingIndex_setRd {k i : Nat} (hm : t.mem = s.mem) (hr : t.rg .seqRing k = s.rg .seqRing k) :
    onlyRingIndex k s (t.setRd k i) := by
  have ho : t.ringOff k = s.ringOff k := by rw [State.ringOff, State.ringOff, hr]
  intro a ha
  rw [State.byte_setRd k i a (by rw [ho]; exact ha), State.byte, State.byte, hm]

theorem State.rg_seqRing_issued (k : Nat) : (s.issued k).rg .seqRing k = s.rg .seqRing k :=
  State.rg_setRg_core (by decide) (by decide) (by decide) k _

/-- A command that issues and sends its sequencer to entry `i`. -/
theorem State.setRd_issued {k i : Nat} (h : SeqAt k s t) : ((t.issued k).setRd k i).core k =
      { t.core k with seq := { (t.core k).seq with rd := i % 256 } } ∧
    counted .seqIssued k 0 1 s ((t.issued k).setRd k i) := by
  obtain ⟨-, -, -, h4⟩ := h
  refine ⟨by rw [State.core_setRd, State.core_issued], ?_⟩
  rw [counted, State.rg_of_regs_eq (State.regs_setRd i), ← h4]
  exact State.rg_setRg_self t .seqIssued k 0 0 _

/-! ### BRANCH -/

theorem State.branchNext_mod {k : Nat} (w : BitVec 128) : s.branchNext k w % 256 =
    if s.branchHolds k w then fld w 37 30 else ((s.core k).seq.rd + 1) % 256 := by
  rw [State.branchNext]
  split
  · exact Nat.mod_eq_of_lt (fld_lt w 37 30)
  · rfl

theorem execBranch_fetched (hf : fetchesOp c.val 0x11 s) (hb : onlyBits (s.fetchWord c.val) [(8, 62)] = true)
    (hc : fld (s.fetchWord c.val) 11 8 ≤ 0xA) (hl : fld (s.fetchWord c.val) 23 18 + fld (s.fetchWord c.val) 29 24 ≤ 63) :
    exec (.branch c) s = .next (if 8 ≤ fld (s.fetchWord c.val) 11 8 && !s.enginesDone c.val then s.seqWait c.val .branch
      else (s.issued c.val).setRd c.val (s.branchNext c.val (s.fetchWord c.val))) := by
  rw [exec, execBranch, State.branchCmd, State.wait_of_fetchesOp hf, if_neg (by decide), State.seqRun_fetched hf (by decide)]
  simp only [hb, Nat.not_lt.2 hc, Nat.not_lt.2 hl, decide_false, Bool.not_true, Bool.or_self, Bool.false_eq_true, if_false, State.unless]

theorem execBranch_waited (hw : (s.core c.val).seq.wait = .branch) (ho : s.coreOpen c.val = true)
    (hd : s.enginesDone c.val = true) :
    exec (.branch c) s = .next (s.seqDoneAt c.val (s.branchNext c.val (s.fetchWord c.val))) := by
  rw [exec, execBranch, State.branchCmd, if_pos hw]
  simp [ho, hd]

/-! ### LOOP -/

theorem State.loopCmd_fetched {k : Nat} {end_ : Bool} {f : State → BitVec 128 → State} (hf : fetchesOp k 0x12 s)
    (hb : onlyBits (s.fetchWord k) [(8, 39)] = true) (he : flag (s.fetchWord k) 10 = end_) :
    s.loopCmd k end_ f = f s (s.fetchWord k) := by
  rw [State.loopCmd, State.seqRun_fetched hf (by decide)]
  simp only [he, ne_eq, not_true_eq_false, if_false, hb, if_true, State.unless]

/-- A command that changes the loops and goes on. -/
theorem State.setLoops_goesOn (s : State) (k : Nat) (f : Seq → List Loop) :
    goesOn k s ((s.modSeq k (fun q => { q with loops := f q })).seqGoOn k) ∧
    (((s.modSeq k (fun q => { q with loops := f q })).seqGoOn k).core k).seq.loops = f (s.core k).seq ∧
    onlyCore k s ((s.modSeq k (fun q => { q with loops := f q })).seqGoOn k) ∧
    onlyRingIndex k s ((s.modSeq k (fun q => { q with loops := f q })).seqGoOn k) := by
  have hc : (s.modSeq k (fun q => { q with loops := f q })).core k =
      { s.core k with seq := { (s.core k).seq with loops := f (s.core k).seq } } := State.core_modSeq_self ..
  refine ⟨goesOn_seqGoOn ⟨?_, ?_, ?_, rfl⟩, ?_, ((onlyCore.refl _ s).modSeq _).seqGoOn, onlyRingIndex_seqGoOn rfl rfl⟩
  · rw [hc]
  · rw [hc]
  · rw [hc]
  · rw [State.core_seqGoOn, hc]

theorem execLoopStart_opens (hf : fetchesOp c.val 0x12 s) (hb : onlyBits (s.fetchWord c.val) [(8, 39)] = true)
    (h10 : flag (s.fetchWord c.val) 10 = false) (hl : (s.core c.val).seq.loops.length = fld (s.fetchWord c.val) 9 8)
    {n : Nat} (hn : (if flag (s.fetchWord c.val) 11 then s.scalar c.val (fld (s.fetchWord c.val) 14 12) % 2 ^ 32
      else fld (s.fetchWord c.val) 46 15) = n) (h0 : n ≠ 0) :
    exec (.loopStart c) s = .next ((s.modSeq c.val (fun q => { q with
      loops := q.loops ++ [{ cnt := n, start := (q.rd + 1) % 256 }] })).seqGoOn c.val) := by
  rw [exec, execLoopStart, State.loopCmd_fetched hf hb h10]
  simp only [hn, hl, h0, ne_eq, not_true_eq_false, decide_false, Bool.or_self, Bool.false_eq_true, if_false]

theorem execLoopEnd_open {l : Loop} (hf : fetchesOp c.val 0x12 s) (hb : onlyBits (s.fetchWord c.val) [(8, 39)] = true)
    (h10 : flag (s.fetchWord c.val) 10 = true) (hg : (s.core c.val).seq.loops.getLast? = some l)
    (hl : (s.core c.val).seq.loops.length = fld (s.fetchWord c.val) 9 8 + 1) :
    exec (.loopEnd c) s = .next (if 1 < l.cnt then
        ((s.issued c.val).modSeq c.val (fun q => { q with loops := q.loops.dropLast ++ [{ l with cnt := l.cnt - 1 }] })).setRd
          c.val l.start
      else (s.modSeq c.val (fun q => { q with loops := q.loops.dropLast })).seqGoOn c.val) := by
  rw [exec, execLoopEnd, State.loopCmd_fetched hf hb h10]
  simp only [hg, hl, ne_eq, not_true_eq_false, if_false]

/-! ### EVENT and HALT -/

/-- The record of an EVENT. -/
def State.userEvent (s : State) (k : Nat) (w : BitVec 128) : Event :=
  { code := 0x0504, cls := 0, part := s.partOf k, session := (s.core k).owner, core := some k,
    detail := fld w 23 8 + 65536 * ((if flag w 27 then s.scalar k (fld w 26 24) else fld w 91 28) % 2 ^ 48) }

/-- The record of a HALT. -/
def State.haltEvent (s : State) (k : Nat) (w : BitVec 128) : Event :=
  { code := 0x0505, cls := 0, part := s.partOf k, session := (s.core k).owner, core := some k, detail := fld w 23 8 }

theorem execEvent_raises (hf : fetchesOp c.val 0x18 s) (hb : onlyBits (s.fetchWord c.val) [(8, 84)] = true) :
    exec (.event c) s = .next ((s.log (s.userEvent c.val (s.fetchWord c.val))).seqGoOn c.val) := by
  have hp (v : Nat) : pack [(16, fld (s.fetchWord c.val) 23 8), (48, v)] = fld (s.fetchWord c.val) 23 8 + 65536 * (v % 2 ^ 48) := by
    have h16 : fld (s.fetchWord c.val) 23 8 < 2 ^ 16 := fld_lt _ _ _
    simp only [pack]
    omega
  rw [exec, execEvent, State.seqRun_fetched hf (by decide)]
  simp only [hb, if_true, State.unless, hp]
  rfl

/-- A sequencer that HALT stops, behind itself in the ring. -/
def State.halts (s : State) (k : Nat) : State :=
  (((s.log (s.haltEvent k (s.fetchWord k))).seqGoOn k).modSeq k (fun q => { q with halted := true })).writeRd k

theorem execHalt_halts (hf : fetchesOp c.val 0x19 s) (hb : onlyBits (s.fetchWord c.val) [(8, 16)] = true) :
    exec (.halt c) s = .next (s.halts c.val) := by
  rw [exec, execHalt, State.seqRun_fetched hf (by decide)]
  simp only [hb, if_true, State.unless]
  rfl

/-- The ring's place stands apart from the log's counters. -/
theorem seqRing_apart_log (k : Nat) : ∀ m ∈ logCounters, regAddr .seqRing k 0 0 ≠ regAddr m 0 0 0 := by
  have ha : regAddr .seqRing k 0 0 % 0x10000 = 0x4008 := by
    simp only [regAddr, RegName.row, Blk.isCore, Blk.base, ctlBase, if_true]
    omega
  have hm : ∀ m ∈ logCounters, regAddr m 0 0 0 % 0x10000 ≠ 0x4008 := by decide
  intro m h e
  exact hm m h (e ▸ ha)

theorem SeqAt.log {k : Nat} (e : Event) : SeqAt k s (s.log e) :=
  .of_seq_eq (by rw [State.core_of_cores_eq (State.log_cores s e)]) (State.rg_log e (seqIssued_apart_log k))

/-- An event stands in the log with the time. -/
theorem logged_log (s : State) (e : Event) : logged e s (s.log e) := ⟨State.log_cnt s e, State.log_at s e⟩

theorem logged_of_evt_eq {e : Event} {u : State} (h : logged e s t) (hu : u.evt = t.evt) : logged e s u := by
  rw [logged, hu]
  exact h

theorem State.evt_seqGoOn (k : Nat) : (s.seqGoOn k).evt = s.evt :=
  (((only.refl [.cores, .regs, .mem] s).seqGoOn (by simp) (by simp) (by simp) k) .evt).resolve_left (by simp)

theorem State.core_halts (k : Nat) : (s.halts k).core k =
    { s.core k with seq := { (s.core k).seq with rd := ((s.core k).seq.rd + 1) % 256, halted := true } } := by
  rw [State.halts, State.core_writeRd, State.core_modSeq_self, State.core_seqGoOn, State.core_of_cores_eq (State.log_cores s _)]

theorem onlyRingIndex_halts (k : Nat) : onlyRingIndex k s (s.halts k) := by
  intro a ha
  have hring : (s.log (s.haltEvent k (s.fetchWord k))).rg .seqRing k = s.rg .seqRing k := State.rg_log _ (seqRing_apart_log k)
  have hgo := onlyRingIndex_seqGoOn (c := k) (State.log_mem s (s.haltEvent k (s.fetchWord k))) hring a ha
  have hregs : (((s.log (s.haltEvent k (s.fetchWord k))).seqGoOn k).modSeq k (fun q => { q with halted := true })).regs =
      ((s.log (s.haltEvent k (s.fetchWord k))).issued k).regs := (State.modSeq_regs _ _ _).trans State.regs_seqGoOn
  have ho : (((s.log (s.haltEvent k (s.fetchWord k))).seqGoOn k).modSeq k (fun q => { q with halted := true })).ringOff k =
      s.ringOff k := by
    rw [State.ringOff, State.ringOff, State.rg_of_regs_eq hregs, State.rg_seqRing_issued, hring]
  rw [State.halts, State.byte_writeRd k a (by rw [ho]; exact ha), State.byte_modSeq]
  exact hgo

/-! ### The obligation -/

/-- Settles O32, from the commands' effects and the rules of the sequencer. -/
theorem branchesLoopsEvents : Obligations.BranchesLoopsEvents := by
  refine ⟨?_, ?_, ?_, ?_, ?_, ?_⟩
  · intro c s w hf hb hc hl
    have he := execBranch_fetched hf hb hc hl
    refine ⟨fun hd => ?_, fun h8 hd => ?_⟩
    · have hgo : ¬ (8 ≤ fld (s.fetchWord c.val) 11 8 && !s.enginesDone c.val) = true := by
        obtain h | h := hd
        · have h8 : ¬ 8 ≤ fld (s.fetchWord c.val) 11 8 := Nat.not_le.2 h
          simp [h8]
        · simp [h]
      rw [if_neg hgo] at he
      obtain ⟨h1, h2⟩ := State.setRd_issued (i := s.branchNext c.val w) (SeqAt.refl c.val s)
      refine ⟨_, he, ?_, h2, ((onlyCore.refl _ s).issued _).setRd _, onlyRingIndex_setRd rfl (State.rg_seqRing_issued _),
        ((only.refl _ s).issued (by simp) _).setRd (by simp) (by simp) _ _⟩
      rw [h1, State.branchNext_mod]
    · rw [if_pos (by simp only [w] at h8; simp [h8, hd])] at he
      exact ⟨_, he, waitsIn_seqWait _ (SeqAt.refl _ s), (onlyCore.refl _ s).seqWait _,
        (only.refl _ s).seqWait (by simp) (by simp) _ _⟩
  · intro c s w q hw ho hd
    refine ⟨_, execBranch_waited hw ho hd, ?_, ?_, ?_, (onlyCore.refl _ s).seqDoneAt _, ?_,
      (only.refl _ s).seqDoneAt (by simp) (by simp) _ _⟩
    · rw [State.core_seqDoneAt]
      rfl
    · rw [State.core_seqDoneAt]
      exact State.branchNext_mod w
    · rw [State.core_seqDoneAt]
      rfl
    · exact fun a ha => onlyRingIndex_setRd (t := s) rfl rfl a ha
  · intro c s w q n hf hb h10 hl h0
    obtain ⟨h1, h2, h3, h4⟩ := State.setLoops_goesOn s c.val (fun q => q.loops ++ [{ cnt := n, start := (q.rd + 1) % 256 }])
    exact ⟨_, execLoopStart_opens hf hb h10 hl rfl h0, h1, h2, h3, h4⟩
  · intro c l s w q hf hb h10 hg hl
    have he := execLoopEnd_open hf hb h10 hg hl
    refine ⟨fun h1 => ?_, fun h1 => ?_⟩
    · rw [if_pos h1] at he
      have hc : ((s.issued c.val).modSeq c.val (fun q => { q with loops := q.loops.dropLast ++ [{ l with cnt := l.cnt - 1 }] })).core c.val =
          { s.core c.val with seq := { q with loops := q.loops.dropLast ++ [{ l with cnt := l.cnt - 1 }] } } := by
        rw [State.core_modSeq_self, State.core_issued]
      refine ⟨_, he, ?_, ?_, ?_, (((onlyCore.refl _ s).issued _).modSeq _).setRd _, onlyRingIndex_setRd rfl (State.rg_seqRing_issued _)⟩
      · rw [State.core_setRd]
      · rw [State.core_setRd, hc]
      · rw [counted, State.rg_of_regs_eq (State.regs_setRd _)]
        exact State.rg_setRg_self s .seqIssued c.val 0 0 _
    · rw [if_neg (Nat.not_lt.2 h1)] at he
      obtain ⟨g1, g2, g3, g4⟩ := State.setLoops_goesOn s c.val (fun q => q.loops.dropLast)
      exact ⟨_, he, g1, g2, g3, g4⟩
  · intro c s w v hf hb
    exact ⟨_, execEvent_raises hf hb, goesOn_seqGoOn (SeqAt.log _), logged_of_evt_eq (logged_log s _) (State.evt_seqGoOn _),
      ((onlyCore.refl _ s).log _).seqGoOn,
      onlyRingIndex_seqGoOn (State.log_mem s _) (State.rg_log _ (seqRing_apart_log _))⟩
  · intro c s w hf hb
    have hc := State.core_halts (s := s) c.val
    have hevt : (s.halts c.val).evt = (s.log (s.haltEvent c.val w)).evt :=
      ((((only.refl [.cores, .regs, .mem] _).seqGoOn (by simp) (by simp) (by simp) _).modSeq (by simp) _ _).writeRd (by simp) _
        .evt).resolve_left (by simp)
    refine ⟨_, execHalt_halts hf hb, ?_, ?_, ?_, logged_of_evt_eq (logged_log s _) hevt,
      ((((onlyCore.refl _ s).log _).seqGoOn).modSeq _).writeRd _, onlyRingIndex_halts _⟩
    · rw [hc]
    · rw [hc]
    · rw [hc]

end Sys2Proof.Machine
end

section
set_option Elab.async false
/-! What the steps of a full load leave of the configuration, the Cellar and the fault state. -/

namespace Sys2Proof.Machine
open Sys2Proof
variable {s₀ s t u : State}

/-- The Cellar's training, the image's configuration, the one in force and the device fault stay. -/
def LoadHeld (s t : State) : Prop :=
  t.clr.initerr = s.clr.initerr ∧ t.clr.rate = s.clr.rate ∧ t.clr.gib = s.clr.gib ∧ t.trl.new = s.trl.new ∧ t.cfg = s.cfg ∧ t.evt.dfault = s.evt.dfault

theorem LoadHeld.refl (s : State) : LoadHeld s s := ⟨rfl, rfl, rfl, rfl, rfl, rfl⟩

theorem LoadHeld.of_eq (hk : LoadHeld s₀ s) (e1 : t.clr = s.clr) (e2 : t.trl = s.trl) (e3 : t.cfg = s.cfg) (e4 : t.evt = s.evt) : LoadHeld s₀ t := by
  rwa [LoadHeld, e1, e2, e3, e4]

theorem LoadHeld.fields (hk : LoadHeld s₀ s) {a1 a2 a3 a4 a5 a6 a7 a8 a9 a10 a11 a12 a13 a14 a15 a16 a17 a18 a19 a20 a21}
    (e : a11.initerr = s.clr.initerr ∧ a11.rate = s.clr.rate ∧ a11.gib = s.clr.gib ∧ a16.new = s.trl.new ∧ a17 = s.cfg ∧ a21.dfault = s.evt.dfault) :
    LoadHeld s₀ (State.mk a1 a2 a3 a4 a5 a6 a7 a8 a9 a10 a11 a12 a13 a14 a15 a16 a17 a18 a19 a20 a21) := by
  unfold LoadHeld at *
  simp only [e]
  exact hk

theorem LoadHeld.others (hk : LoadHeld s₀ s) {a1 a2 a3 a4 a5 a6 a7 a8 a9 a10 a12 a13 a14 a15 a18 a19 a20} :
    LoadHeld s₀ (State.mk a1 a2 a3 a4 a5 a6 a7 a8 a9 a10 s.clr a12 a13 a14 a15 s.trl s.cfg a18 a19 a20 s.evt) := hk.of_eq rfl rfl rfl rfl

theorem LoadHeld.each {α : Type} (hk : LoadHeld s₀ s) (l : List α) (f : State → α → State)
    (hf : ∀ t x, LoadHeld s₀ t → LoadHeld s₀ (f t x)) : LoadHeld s₀ (s.each l f) := State.each_inv s (LoadHeld s₀) l f hf hk

theorem LoadHeld.foldl {α : Type} (hk : LoadHeld s₀ s) (l : List α) (f : State → α → State)
    (hf : ∀ t x, LoadHeld s₀ t → LoadHeld s₀ (f t x)) : LoadHeld s₀ (l.foldl f s) := hk.each l f hf

theorem LoadHeld.log (hk : LoadHeld s₀ s) (e : Event) : LoadHeld s₀ (s.log e) := by
  unfold LoadHeld at *
  rw [State.log_clr, State.log_trl, State.log_cfg, State.log_evt]
  exact hk

theorem LoadHeld.setBytes (hk : LoadHeld s₀ s) (a : Nat) (bs : List Byte) : LoadHeld s₀ (s.setBytes a bs) := by
  unfold LoadHeld at *
  rw [State.setBytes_clr, State.setBytes_trl, State.setBytes_cfg, State.setBytes_evt]
  exact hk

theorem LoadHeld.setRg (hk : LoadHeld s₀ s) (n : RegName) (c i j : Nat) (v : W32) : LoadHeld s₀ (s.setRg n c i j v) := by
  unfold State.setRg
  grind [LoadHeld.fields, LoadHeld.others]

theorem LoadHeld.setRgHi (hk : LoadHeld s₀ s) (n : RegName) (c i j : Nat) (v : W32) : LoadHeld s₀ (s.setRgHi n c i j v) := by
  unfold State.setRgHi
  grind [LoadHeld.fields, LoadHeld.others]

theorem LoadHeld.setRg64 (hk : LoadHeld s₀ s) (n : RegName) (c i j v : Nat) : LoadHeld s₀ (s.setRg64 n c i j v) := by
  unfold State.setRg64
  grind [LoadHeld.fields, LoadHeld.others, LoadHeld.setRg, LoadHeld.setRgHi]

theorem LoadHeld.count (hk : LoadHeld s₀ s) (n : RegName) (c i k : Nat) : LoadHeld s₀ (s.count n c i k) := by
  unfold State.count
  grind [LoadHeld.fields, LoadHeld.others, LoadHeld.setRg]

theorem LoadHeld.setCore (hk : LoadHeld s₀ s) (c : Nat) (x : Core) : LoadHeld s₀ (s.setCore c x) := by
  unfold State.setCore
  grind [LoadHeld.fields, LoadHeld.others]

theorem LoadHeld.modCore (hk : LoadHeld s₀ s) (c : Nat) (f : Core → Core) : LoadHeld s₀ (s.modCore c f) := by
  unfold State.modCore
  grind [LoadHeld.fields, LoadHeld.others, LoadHeld.setCore]

theorem LoadHeld.modTile (hk : LoadHeld s₀ s) (c h : Nat) (f : Tile → Tile) : LoadHeld s₀ (s.modTile c h f) := by
  unfold State.modTile
  grind [LoadHeld.fields, LoadHeld.others, LoadHeld.modCore]

theorem LoadHeld.modSeq (hk : LoadHeld s₀ s) (c : Nat) (f : Seq → Seq) : LoadHeld s₀ (s.modSeq c f) := by
  unfold State.modSeq
  grind [LoadHeld.fields, LoadHeld.others, LoadHeld.modCore]

theorem LoadHeld.modArr (hk : LoadHeld s₀ s) (c : Nat) (f : Arr → Arr) : LoadHeld s₀ (s.modArr c f) := by
  unfold State.modArr
  grind [LoadHeld.fields, LoadHeld.others, LoadHeld.modCore]

theorem LoadHeld.modChan (hk : LoadHeld s₀ s) (c ch : Nat) (f : Chan → Chan) : LoadHeld s₀ (s.modChan c ch f) := by
  unfold State.modChan
  grind [LoadHeld.fields, LoadHeld.others, LoadHeld.modCore]

theorem LoadHeld.setSlot (hk : LoadHeld s₀ s) (c n : Nat) (x : Slot) : LoadHeld s₀ (s.setSlot c n x) := by
  unfold State.setSlot
  grind [LoadHeld.fields, LoadHeld.others, LoadHeld.modCore]

theorem LoadHeld.modDisp (hk : LoadHeld s₀ s) (d : Nat) (f : Disp → Disp) : LoadHeld s₀ (s.modDisp d f) := by
  unfold State.modDisp
  grind [LoadHeld.fields, LoadHeld.others]

theorem LoadHeld.modPort (hk : LoadHeld s₀ s) (p : Nat) (f : Port → Port) : LoadHeld s₀ (s.modPort p f) := by
  unfold State.modPort
  grind [LoadHeld.fields, LoadHeld.others]

theorem LoadHeld.modGroup (hk : LoadHeld s₀ s) (g : Nat) (f : Group → Group) : LoadHeld s₀ (s.modGroup g f) := by
  unfold State.modGroup
  grind [LoadHeld.fields, LoadHeld.others]

theorem LoadHeld.modEth (hk : LoadHeld s₀ s) (p : Nat) (f : Eth → Eth) : LoadHeld s₀ (s.modEth p f) := by
  unfold State.modEth
  grind [LoadHeld.fields, LoadHeld.others]

theorem LoadHeld.modSess (hk : LoadHeld s₀ s) (n : Nat) (f : Session → Session) : LoadHeld s₀ (s.modSess n f) := by
  unfold State.modSess
  grind [LoadHeld.fields, LoadHeld.others]

theorem LoadHeld.setSec (hk : LoadHeld s₀ s) (x : Sec) : LoadHeld s₀ (s.setSec x) := hk.of_eq rfl rfl rfl rfl

theorem LoadHeld.send (hk : LoadHeld s₀ s) (o : Out) : LoadHeld s₀ (s.send o) := by
  unfold State.send
  grind [LoadHeld.fields, LoadHeld.others]

theorem LoadHeld.act (hk : LoadHeld s₀ s) (c j n : Nat) : LoadHeld s₀ (s.act c j n) := by
  unfold State.act
  grind [LoadHeld.fields, LoadHeld.others, LoadHeld.modCore]

theorem LoadHeld.coreEvent (hk : LoadHeld s₀ s) (c code cls detail : Nat) : LoadHeld s₀ (s.coreEvent c code cls detail) := by
  unfold State.coreEvent
  grind [LoadHeld.fields, LoadHeld.others, LoadHeld.log]

theorem LoadHeld.partEvent (hk : LoadHeld s₀ s) (p code cls detail : Nat) : LoadHeld s₀ (s.partEvent p code cls detail) := by
  unfold State.partEvent
  grind [LoadHeld.fields, LoadHeld.others, LoadHeld.log]

theorem LoadHeld.devEvent (hk : LoadHeld s₀ s) (code cls detail : Nat) : LoadHeld s₀ (s.devEvent code cls detail) := by
  unfold State.devEvent
  grind [LoadHeld.fields, LoadHeld.others, LoadHeld.log]

theorem LoadHeld.zeroRange (hk : LoadHeld s₀ s) (a n : Nat) : LoadHeld s₀ (s.zeroRange a n) := hk.of_eq rfl rfl rfl rfl

theorem LoadHeld.setSpad (hk : LoadHeld s₀ s) (c off : Nat) (bs : List Byte) : LoadHeld s₀ (s.setSpad c off bs) := by
  unfold State.setSpad
  grind [LoadHeld.fields, LoadHeld.others, LoadHeld.setBytes]

theorem LoadHeld.setKslot (hk : LoadHeld s₀ s) (k : Nat) (x : KSlot) : LoadHeld s₀ (s.setKslot k x) := by
  unfold State.setKslot
  grind [LoadHeld.fields, LoadHeld.others]

theorem LoadHeld.sendPacket (hk : LoadHeld s₀ s) (p : Nat) (k : Packet) : LoadHeld s₀ (s.sendPacket p k) := by
  unfold State.sendPacket
  grind [LoadHeld.fields, LoadHeld.others, LoadHeld.modPort, LoadHeld.each, LoadHeld.send]

theorem LoadHeld.groupAct (hk : LoadHeld s₀ s) (g j n : Nat) : LoadHeld s₀ (s.groupAct g j n) := by
  unfold State.groupAct
  grind [LoadHeld.fields, LoadHeld.others]

theorem LoadHeld.groupSend (hk : LoadHeld s₀ s) (g p : Nat) (k : Packet) : LoadHeld s₀ (s.groupSend g p k) := by
  unfold State.groupSend
  grind [LoadHeld.fields, LoadHeld.others, LoadHeld.groupAct, LoadHeld.sendPacket]

theorem LoadHeld.toParent (hk : LoadHeld s₀ s) (g : Nat) (k : Packet) : LoadHeld s₀ (s.toParent g k) := by
  unfold State.toParent
  grind [LoadHeld.fields, LoadHeld.others, LoadHeld.groupSend]

theorem LoadHeld.toKids (hk : LoadHeld s₀ s) (g : Nat) (k : Packet) : LoadHeld s₀ (s.toKids g k) := by
  unfold State.toKids
  grind [LoadHeld.fields, LoadHeld.others, LoadHeld.each, LoadHeld.groupSend]

theorem LoadHeld.spdErr (hk : LoadHeld s₀ s) (c kind num : Nat) (nowin : Bool := false)
    : LoadHeld s₀ (s.spdErr c kind num nowin) := by
  unfold State.spdErr
  grind [LoadHeld.fields, LoadHeld.others, LoadHeld.setRg]

theorem LoadHeld.slotTouch (hk : LoadHeld s₀ s) (c off len : Nat) (wr : Bool) : LoadHeld s₀ (s.slotTouch c off len wr) := by
  unfold State.slotTouch
  grind [LoadHeld.fields, LoadHeld.others, LoadHeld.each, LoadHeld.setSlot]

theorem LoadHeld.slotClass (hk : LoadHeld s₀ s) (c n : Nat) (r : Option Req) (wr : Bool) (cls : Nat)
    : LoadHeld s₀ (s.slotClass c n r wr cls) := by
  unfold State.slotClass
  grind [LoadHeld.fields, LoadHeld.others, LoadHeld.spdErr, LoadHeld.log, LoadHeld.coreEvent]

theorem LoadHeld.slotRelease (hk : LoadHeld s₀ s) (c n cls : Nat) : LoadHeld s₀ (s.slotRelease c n cls) := by
  unfold State.slotRelease
  grind [LoadHeld.fields, LoadHeld.others, LoadHeld.setSlot]

theorem LoadHeld.wordAct (hk : LoadHeld s₀ s) (c off len : Nat) : LoadHeld s₀ (s.wordAct c off len) := by
  unfold State.wordAct
  grind [LoadHeld.fields, LoadHeld.others, LoadHeld.act]

theorem LoadHeld.ringHook (hk : LoadHeld s₀ s) (c off : Nat) (bs : List Byte) : LoadHeld s₀ (s.ringHook c off bs) := by
  unfold State.ringHook
  grind [LoadHeld.fields, LoadHeld.others, LoadHeld.modSeq]

theorem LoadHeld.store (hk : LoadHeld s₀ s) (c off : Nat) (bs : List Byte) : LoadHeld s₀ (s.store c off bs) := by
  unfold State.store
  grind [LoadHeld.fields, LoadHeld.others, LoadHeld.setSpad, LoadHeld.ringHook, LoadHeld.wordAct]

theorem LoadHeld.spadWrite (hk : LoadHeld s₀ s) (c off : Nat) (bs : List Byte) (cls : Nat)
    : LoadHeld s₀ (s.spadWrite c off bs cls).2 := by
  unfold State.spadWrite
  grind [LoadHeld.fields, LoadHeld.others, LoadHeld.slotClass, LoadHeld.slotTouch, LoadHeld.store]

theorem LoadHeld.writeRd (hk : LoadHeld s₀ s) (c : Nat) : LoadHeld s₀ (s.writeRd c) := by
  unfold State.writeRd
  grind [LoadHeld.fields, LoadHeld.others, LoadHeld.setSpad]

theorem LoadHeld.setRd (hk : LoadHeld s₀ s) (c i : Nat) : LoadHeld s₀ (s.setRd c i) := by
  unfold State.setRd
  grind [LoadHeld.fields, LoadHeld.others, LoadHeld.modSeq, LoadHeld.writeRd]

theorem LoadHeld.seqDoneAt (hk : LoadHeld s₀ s) (c i : Nat) : LoadHeld s₀ (s.seqDoneAt c i) := by
  unfold State.seqDoneAt
  grind [LoadHeld.fields, LoadHeld.others, LoadHeld.setRd, LoadHeld.modSeq]

theorem LoadHeld.seqDone (hk : LoadHeld s₀ s) (c : Nat) : LoadHeld s₀ (s.seqDone c) := by
  unfold State.seqDone
  grind [LoadHeld.fields, LoadHeld.others, LoadHeld.seqDoneAt]

theorem LoadHeld.setScalar (hk : LoadHeld s₀ s) (c n v : Nat) : LoadHeld s₀ (s.setScalar c n v) := by
  unfold State.setScalar
  grind [LoadHeld.fields, LoadHeld.others, LoadHeld.setRg64]

theorem LoadHeld.closeClaim (hk : LoadHeld s₀ s) (x : Claim) : LoadHeld s₀ (s.closeClaim x) := by
  unfold State.closeClaim
  grind [LoadHeld.fields, LoadHeld.others]

theorem LoadHeld.dropSums (hk : LoadHeld s₀ s) (d : Nat) : LoadHeld s₀ (s.dropSums d) := by
  unfold State.dropSums
  grind [LoadHeld.fields, LoadHeld.others]

theorem LoadHeld.dropHub (hk : LoadHeld s₀ s) (d : Nat) : LoadHeld s₀ (s.dropHub d) := by
  unfold State.dropHub
  grind [LoadHeld.fields, LoadHeld.others]

theorem LoadHeld.clearHub (hk : LoadHeld s₀ s) (d : Nat) : LoadHeld s₀ (s.clearHub d) := by
  unfold State.clearHub
  grind [LoadHeld.fields, LoadHeld.others]

theorem LoadHeld.settle (hk : LoadHeld s₀ s) (d : Nat) : LoadHeld s₀ (s.settle d) := by
  unfold State.settle
  grind [LoadHeld.fields, LoadHeld.others, LoadHeld.modDisp]

theorem LoadHeld.answerClaim (hk : LoadHeld s₀ s) (c h : Nat) (r : CRec) : LoadHeld s₀ (s.answerClaim c h r) := by
  unfold State.answerClaim
  grind [LoadHeld.fields, LoadHeld.others, LoadHeld.spadWrite, LoadHeld.setScalar, LoadHeld.modCore, LoadHeld.modTile, LoadHeld.seqDone]

theorem LoadHeld.abortHeld (hk : LoadHeld s₀ s) (d : Nat) (p : ClaimReq → Bool) : LoadHeld s₀ (s.abortHeld d p) := by
  unfold State.abortHeld
  grind [LoadHeld.fields, LoadHeld.others, LoadHeld.modDisp, LoadHeld.each, LoadHeld.answerClaim]

theorem LoadHeld.disarmDisp (hk : LoadHeld s₀ s) (d : Nat) : LoadHeld s₀ (s.disarmDisp d) := by
  unfold State.disarmDisp
  grind [LoadHeld.fields, LoadHeld.others, LoadHeld.abortHeld, LoadHeld.dropSums, LoadHeld.dropHub, LoadHeld.modDisp]

theorem LoadHeld.endClaim (hk : LoadHeld s₀ s) (c d tile epoch : Nat) : LoadHeld s₀ (s.endClaim c d tile epoch) := by
  unfold State.endClaim
  grind [LoadHeld.fields, LoadHeld.others, LoadHeld.closeClaim, LoadHeld.settle]

theorem LoadHeld.flagTile (hk : LoadHeld s₀ s) (c h : Nat) (l : List Nat) : LoadHeld s₀ (s.flagTile c h l) := by
  unfold State.flagTile
  grind [LoadHeld.fields, LoadHeld.others, LoadHeld.modTile]

theorem LoadHeld.unstall (hk : LoadHeld s₀ s) (c : Nat) (p : StallBy → Bool) : LoadHeld s₀ (s.unstall c p) := by
  unfold State.unstall
  grind [LoadHeld.fields, LoadHeld.others, LoadHeld.modCore]

theorem LoadHeld.chanHalt (hk : LoadHeld s₀ s) (c ch err : Nat) : LoadHeld s₀ (s.chanHalt c ch err) := by
  unfold State.chanHalt
  grind [LoadHeld.fields, LoadHeld.others, LoadHeld.modChan, LoadHeld.unstall, LoadHeld.count]

theorem LoadHeld.arrKick (hk : LoadHeld s₀ s) (c : Nat) : LoadHeld s₀ (s.arrKick c) := by
  unfold State.arrKick
  grind [LoadHeld.fields, LoadHeld.others, LoadHeld.modTile]

theorem LoadHeld.arrLeave (hk : LoadHeld s₀ s) (c : Nat) : LoadHeld s₀ (s.arrLeave c) := by
  unfold State.arrLeave
  grind [LoadHeld.fields, LoadHeld.others, LoadHeld.modArr, LoadHeld.arrKick]

theorem LoadHeld.arrDrop (hk : LoadHeld s₀ s) (c h : Nat) : LoadHeld s₀ (s.arrDrop c h) := by
  unfold State.arrDrop
  grind [LoadHeld.fields, LoadHeld.others, LoadHeld.modArr, LoadHeld.arrLeave]

theorem LoadHeld.dropWork (hk : LoadHeld s₀ s) (c h : Nat) : LoadHeld s₀ (s.dropWork c h) := by
  unfold State.dropWork
  grind [LoadHeld.fields, LoadHeld.others, LoadHeld.modCore, LoadHeld.arrDrop]

theorem LoadHeld.releaseSlots (hk : LoadHeld s₀ s) (c h : Nat) : LoadHeld s₀ (s.releaseSlots c h) := by
  unfold State.releaseSlots
  exact (hk.each _ _ fun t n h => h.slotRelease _ _ _).each _ _ fun t n h => h.slotRelease _ _ _

theorem LoadHeld.abortChans (hk : LoadHeld s₀ s) (c h : Nat) : LoadHeld s₀ (s.abortChans c h) := by
  unfold State.abortChans
  grind [LoadHeld.fields, LoadHeld.others, LoadHeld.each, LoadHeld.store, LoadHeld.chanHalt]

theorem LoadHeld.freeTile (hk : LoadHeld s₀ s) (c h : Nat) : LoadHeld s₀ (s.freeTile c h) := by
  unfold State.freeTile
  grind [LoadHeld.fields, LoadHeld.others, LoadHeld.dropWork, LoadHeld.unstall, LoadHeld.modTile, LoadHeld.modSeq]

theorem LoadHeld.abortWait (hk : LoadHeld s₀ s) (c h : Nat) (tsw : W32) : LoadHeld s₀ (s.abortWait c h tsw) := by
  unfold State.abortWait
  grind [LoadHeld.fields, LoadHeld.others, LoadHeld.setScalar, LoadHeld.seqDone]

theorem LoadHeld.abortTile (hk : LoadHeld s₀ s) (c h : Nat) : LoadHeld s₀ (s.abortTile c h) := by
  unfold State.abortTile
  grind (gen := 40) (ematch := 40) [LoadHeld.fields, LoadHeld.others, LoadHeld.flagTile, LoadHeld.releaseSlots, LoadHeld.abortChans,
    LoadHeld.abortWait, LoadHeld.freeTile]

theorem LoadHeld.endTile (hk : LoadHeld s₀ s) (c h : Nat) : LoadHeld s₀ (s.endTile c h) := by
  unfold State.endTile
  grind [LoadHeld.fields, LoadHeld.others, LoadHeld.endClaim, LoadHeld.abortTile]

theorem LoadHeld.groupEvent (hk : LoadHeld s₀ s) (g code cls detail tile : Nat)
    : LoadHeld s₀ (s.groupEvent g code cls detail tile) := by
  unfold State.groupEvent
  grind [LoadHeld.fields, LoadHeld.others, LoadHeld.log]

theorem LoadHeld.endRounds (hk : LoadHeld s₀ s) (g cause : Nat) (doubt : Bool) : LoadHeld s₀ (s.endRounds g cause doubt) := by
  unfold State.endRounds
  grind [LoadHeld.fields, LoadHeld.others, LoadHeld.endTile, LoadHeld.groupEvent, LoadHeld.modGroup, LoadHeld.foldl]

theorem LoadHeld.sendAbort (hk : LoadHeld s₀ s) (g cause : Nat) : LoadHeld s₀ (s.sendAbort g cause) := by
  unfold State.sendAbort
  grind [LoadHeld.fields, LoadHeld.others, LoadHeld.toKids, LoadHeld.toParent]

theorem LoadHeld.abortGroup (hk : LoadHeld s₀ s) (g cause : Nat) (doubt : Bool) : LoadHeld s₀ (s.abortGroup g cause doubt) := by
  unfold State.abortGroup
  grind [LoadHeld.fields, LoadHeld.others, LoadHeld.sendAbort, LoadHeld.endRounds]

theorem LoadHeld.resetGroup (hk : LoadHeld s₀ s) (g : Nat) : LoadHeld s₀ (s.resetGroup g) := by
  unfold State.resetGroup
  grind [LoadHeld.fields, LoadHeld.others, LoadHeld.abortGroup]

theorem LoadHeld.linkGroup (hk : LoadHeld s₀ s) (g p : Nat) : LoadHeld s₀ (s.linkGroup g p) := by
  unfold State.linkGroup
  grind [LoadHeld.fields, LoadHeld.others, LoadHeld.abortGroup]

theorem LoadHeld.egressStart (hk : LoadHeld s₀ s) (p : Nat) : LoadHeld s₀ (s.egressStart p) := by
  unfold State.egressStart
  grind [LoadHeld.fields, LoadHeld.others, LoadHeld.modEth]

theorem LoadHeld.egress (hk : LoadHeld s₀ s) (p : Nat) (f : EFrame) : LoadHeld s₀ (s.egress p f) := by
  unfold State.egress
  grind [LoadHeld.fields, LoadHeld.others, LoadHeld.modEth, LoadHeld.egressStart]

theorem LoadHeld.sendFrame (hk : LoadHeld s₀ s) (n : Nat) (f : HxtFrame) : LoadHeld s₀ (s.sendFrame n f) := by
  unfold State.sendFrame
  grind [LoadHeld.fields, LoadHeld.others, LoadHeld.modSess, LoadHeld.egress, LoadHeld.send]

theorem LoadHeld.sendMsg (hk : LoadHeld s₀ s) (n : Nat) (m : OutMsg) (tx : Nat) : LoadHeld s₀ (s.sendMsg n m tx) := by
  unfold State.sendMsg
  grind [LoadHeld.fields, LoadHeld.others, LoadHeld.each, LoadHeld.sendFrame]

theorem LoadHeld.flushOut (hk : LoadHeld s₀ s) (n : Nat) : LoadHeld s₀ (s.flushOut n) := by
  unfold State.flushOut
  grind [LoadHeld.fields, LoadHeld.others, LoadHeld.modSess, LoadHeld.each, LoadHeld.sendMsg]

theorem LoadHeld.post (hk : LoadHeld s₀ s) (n typ : Nat) (resp : Bool) (pl : List Byte) (src : Option (Nat × Nat) := none)
    : LoadHeld s₀ (s.post n typ resp pl src) := by
  unfold State.post
  grind [LoadHeld.fields, LoadHeld.others, LoadHeld.modSess, LoadHeld.flushOut, LoadHeld.log]

theorem LoadHeld.respond (hk : LoadHeld s₀ s) (n typ code detail : Nat) : LoadHeld s₀ (s.respond n typ code detail) := by
  unfold State.respond
  grind [LoadHeld.fields, LoadHeld.others, LoadHeld.post]

theorem LoadHeld.endMsg (hk : LoadHeld s₀ s) (n : Nat) (m : InMsg) (code detail : Nat)
    : LoadHeld s₀ (s.endMsg n m code detail) := by
  unfold State.endMsg
  grind [LoadHeld.fields, LoadHeld.others, LoadHeld.modSess, LoadHeld.respond]

theorem LoadHeld.attest (hk : LoadHeld s₀ s) (kind : Nat) (part : Option Nat) : LoadHeld s₀ (s.attest kind part) := by
  unfold State.attest
  grind [LoadHeld.fields, LoadHeld.others, LoadHeld.log, LoadHeld.setSec]

theorem LoadHeld.newKey (hk : LoadHeld s₀ s) (k : Nat) (st : KeySt) (bound : Option Nat)
    : LoadHeld s₀ (s.newKey k st bound) := by
  unfold State.newKey
  grind [LoadHeld.fields, LoadHeld.others, LoadHeld.setKslot]

theorem LoadHeld.queueFill (hk : LoadHeld s₀ s) (r : Region) : LoadHeld s₀ (s.queueFill r) := by
  unfold State.queueFill
  grind [LoadHeld.fields, LoadHeld.others]

theorem LoadHeld.destroyKey (hk : LoadHeld s₀ s) (r : Region) : LoadHeld s₀ (s.destroyKey r) := by
  unfold State.destroyKey
  grind [LoadHeld.fields, LoadHeld.others, LoadHeld.newKey, LoadHeld.setKslot, LoadHeld.queueFill]

theorem LoadHeld.closeWindows (hk : LoadHeld s₀ s) (n : Nat) : LoadHeld s₀ (s.closeWindows n) := by
  unfold State.closeWindows
  grind [LoadHeld.fields, LoadHeld.others]

theorem LoadHeld.closeDebug (hk : LoadHeld s₀ s) : LoadHeld s₀ (s.closeDebug) := by
  unfold State.closeDebug
  grind [LoadHeld.fields, LoadHeld.others, LoadHeld.attest]

theorem LoadHeld.dropSession (hk : LoadHeld s₀ s) (n : Nat) : LoadHeld s₀ (s.dropSession n) := by
  unfold State.dropSession
  grind [LoadHeld.fields, LoadHeld.others, LoadHeld.closeWindows, LoadHeld.each, LoadHeld.destroyKey, LoadHeld.closeDebug, LoadHeld.modCore,
    LoadHeld.modSess]

theorem LoadHeld.dropStalls (hk : LoadHeld s₀ s) (n : Nat) : LoadHeld s₀ (s.dropStalls n) := by
  unfold State.dropStalls
  grind [LoadHeld.fields, LoadHeld.others, LoadHeld.each, LoadHeld.unstall]

theorem LoadHeld.dropFrames (hk : LoadHeld s₀ s) (n : Nat) : LoadHeld s₀ (s.dropFrames n) := by
  unfold State.dropFrames
  grind [LoadHeld.fields, LoadHeld.others]

theorem LoadHeld.freeCtx (hk : LoadHeld s₀ s) (n : Nat) : LoadHeld s₀ (s.freeCtx n) := by
  unfold State.freeCtx
  grind [LoadHeld.fields, LoadHeld.others, LoadHeld.dropFrames, LoadHeld.modSess]

theorem LoadHeld.killSession (hk : LoadHeld s₀ s) (n : Nat) : LoadHeld s₀ (s.killSession n) := by
  unfold State.killSession
  grind [LoadHeld.fields, LoadHeld.others, LoadHeld.endMsg, LoadHeld.dropStalls, LoadHeld.dropSession, LoadHeld.freeCtx, LoadHeld.foldl]

theorem LoadHeld.dropLines (hk : LoadHeld s₀ s) (p : Nat → Bool) : LoadHeld s₀ (s.dropLines p) := by
  unfold State.dropLines
  grind [LoadHeld.fields, LoadHeld.others]

theorem LoadHeld.wipeCore (hk : LoadHeld s₀ s) (c : Nat) : LoadHeld s₀ (s.wipeCore c) := by
  unfold State.wipeCore
  grind [LoadHeld.fields, LoadHeld.others, LoadHeld.setCore, LoadHeld.act, LoadHeld.zeroRange]

theorem LoadHeld.resetGroups (hk : LoadHeld s₀ s) (p : Nat) : LoadHeld s₀ (s.resetGroups p) := by
  unfold State.resetGroups
  grind [LoadHeld.fields, LoadHeld.others, LoadHeld.each, LoadHeld.resetGroup]

theorem LoadHeld.beginScrub (hk : LoadHeld s₀ s) (p : Nat) (kill : Bool) : LoadHeld s₀ (s.beginScrub p kill) := by
  unfold State.beginScrub
  grind (gen := 40) (ematch := 40) [LoadHeld.fields, LoadHeld.others, LoadHeld.each, LoadHeld.abortHeld, LoadHeld.resetGroups,
    LoadHeld.destroyKey, LoadHeld.killSession, LoadHeld.disarmDisp, LoadHeld.clearHub, LoadHeld.modDisp, LoadHeld.wipeCore,
      LoadHeld.dropLines]

theorem LoadHeld.failLoad (hk : LoadHeld s₀ s) (err : Nat) : LoadHeld s₀ (s.failLoad err) := by
  unfold State.failLoad
  grind [LoadHeld.fields, LoadHeld.others, LoadHeld.each, LoadHeld.modDisp, LoadHeld.devEvent]

theorem LoadHeld.resetPart (hk : LoadHeld s₀ s) (p cause : Nat) (kill : Bool) : LoadHeld s₀ (s.resetPart p cause kill) := by
  unfold State.resetPart
  grind [LoadHeld.fields, LoadHeld.others, LoadHeld.each, LoadHeld.killSession, LoadHeld.attest, LoadHeld.failLoad, LoadHeld.beginScrub,
    LoadHeld.partEvent]

theorem LoadHeld.portDown (hk : LoadHeld s₀ s) (p err : Nat) (tout : PortSt) : LoadHeld s₀ (s.portDown p err tout) := by
  unfold State.portDown
  grind [LoadHeld.fields, LoadHeld.others, LoadHeld.modPort, LoadHeld.count, LoadHeld.log, LoadHeld.each, LoadHeld.linkGroup]

theorem LoadHeld.portTrain (hk : LoadHeld s₀ s) (p : Nat) : LoadHeld s₀ (s.portTrain p) := by
  unfold State.portTrain
  grind [LoadHeld.fields, LoadHeld.others, LoadHeld.portDown, LoadHeld.modPort]

theorem LoadHeld.writeCoreImg (hk : LoadHeld s₀ s) (g : Cfg) (c : Nat) : LoadHeld s₀ (s.writeCoreImg g c) := by
  unfold State.writeCoreImg
  grind [LoadHeld.fields, LoadHeld.others, LoadHeld.setRg]

theorem LoadHeld.writeBudget (hk : LoadHeld s₀ s) (g : Cfg) (p : Nat) : LoadHeld s₀ (s.writeBudget g p) := by
  unfold State.writeBudget
  grind [LoadHeld.fields, LoadHeld.others, LoadHeld.setRg64, LoadHeld.setRg]

theorem LoadHeld.writeFence (hk : LoadHeld s₀ s) (g : Cfg) : LoadHeld s₀ (s.writeFence g) := by
  unfold State.writeFence
  grind [LoadHeld.fields, LoadHeld.others, LoadHeld.each, LoadHeld.setRg]

theorem LoadHeld.writeHubImg (hk : LoadHeld s₀ s) (g : Cfg) : LoadHeld s₀ (s.writeHubImg g) := by
  unfold State.writeHubImg
  grind (gen := 40) (ematch := 40) [LoadHeld.fields, LoadHeld.others, LoadHeld.each, LoadHeld.setRg, LoadHeld.writeFence]

theorem LoadHeld.programKeys (hk : LoadHeld s₀ s) : LoadHeld s₀ (s.programKeys) := by
  unfold State.programKeys
  grind [LoadHeld.fields, LoadHeld.others, LoadHeld.each, LoadHeld.newKey, LoadHeld.setKslot]

theorem LoadHeld.dropPantry (hk : LoadHeld s₀ s) : LoadHeld s₀ (s.dropPantry) := by
  unfold State.dropPantry
  grind [LoadHeld.fields, LoadHeld.others]

theorem LoadHeld.freshCore (hk : LoadHeld s₀ s) (c : Nat) : LoadHeld s₀ (s.freshCore c) := by
  unfold State.freshCore
  grind [LoadHeld.fields, LoadHeld.others, LoadHeld.modCore, LoadHeld.setRg, LoadHeld.wipeCore]

theorem LoadHeld.bumpAll (hk : LoadHeld s₀ s) : LoadHeld s₀ (s.bumpAll) := by
  unfold State.bumpAll
  grind [LoadHeld.fields, LoadHeld.others, LoadHeld.each, LoadHeld.modDisp]

theorem LoadHeld.writeEth (hk : LoadHeld s₀ s) (g : Cfg) : LoadHeld s₀ (s.writeEth g) := by
  unfold State.writeEth
  grind [LoadHeld.fields, LoadHeld.others, LoadHeld.each, LoadHeld.modEth]

theorem LoadHeld.resized (hk : LoadHeld s₀ s) (ps : List Nat) : LoadHeld s₀ (s.resized ps) := by
  unfold State.resized
  grind [LoadHeld.fields, LoadHeld.others, LoadHeld.each, LoadHeld.partEvent]

end Sys2Proof.Machine
end

section
set_option Elab.async false
/-! What applying a partition leaves of the loader. -/

namespace Sys2Proof.Machine
open Sys2Proof
variable {s₀ s t u : State}

/-- The loader and the retained configuration stay. -/
def TrlHeld (s t : State) : Prop :=
  t.trl = s.trl ∧ t.retained = s.retained

theorem TrlHeld.refl (s : State) : TrlHeld s s := ⟨rfl, rfl⟩

theorem TrlHeld.of_eq (hk : TrlHeld s₀ s) (e1 : t.trl = s.trl) (e2 : t.retained = s.retained) : TrlHeld s₀ t := by
  rwa [TrlHeld, e1, e2]

theorem TrlHeld.fields (hk : TrlHeld s₀ s) {a1 a2 a3 a4 a5 a6 a7 a8 a9 a10 a11 a12 a13 a14 a15 a16 a17 a18 a19 a20 a21}
    (e : a16 = s.trl ∧ a18 = s.retained) :
    TrlHeld s₀ (State.mk a1 a2 a3 a4 a5 a6 a7 a8 a9 a10 a11 a12 a13 a14 a15 a16 a17 a18 a19 a20 a21) := by
  unfold TrlHeld at *
  simp only [e]
  exact hk

theorem TrlHeld.others (hk : TrlHeld s₀ s) {a1 a2 a3 a4 a5 a6 a7 a8 a9 a10 a11 a12 a13 a14 a15 a17 a19 a20 a21} :
    TrlHeld s₀ (State.mk a1 a2 a3 a4 a5 a6 a7 a8 a9 a10 a11 a12 a13 a14 a15 s.trl a17 s.retained a19 a20 a21) := hk.of_eq rfl rfl

theorem TrlHeld.each {α : Type} (hk : TrlHeld s₀ s) (l : List α) (f : State → α → State)
    (hf : ∀ t x, TrlHeld s₀ t → TrlHeld s₀ (f t x)) : TrlHeld s₀ (s.each l f) := State.each_inv s (TrlHeld s₀) l f hf hk

theorem TrlHeld.log (hk : TrlHeld s₀ s) (e : Event) : TrlHeld s₀ (s.log e) := by
  unfold TrlHeld at *
  rw [State.log_trl, State.log_retained]
  exact hk

theorem TrlHeld.setBytes (hk : TrlHeld s₀ s) (a : Nat) (bs : List Byte) : TrlHeld s₀ (s.setBytes a bs) := by
  unfold TrlHeld at *
  rw [State.setBytes_trl, State.setBytes_retained]
  exact hk

theorem TrlHeld.setRg (hk : TrlHeld s₀ s) (n : RegName) (c i j : Nat) (v : W32) : TrlHeld s₀ (s.setRg n c i j v) := by
  unfold State.setRg
  grind [TrlHeld.fields, TrlHeld.others]

theorem TrlHeld.setRgHi (hk : TrlHeld s₀ s) (n : RegName) (c i j : Nat) (v : W32) : TrlHeld s₀ (s.setRgHi n c i j v) := by
  unfold State.setRgHi
  grind [TrlHeld.fields, TrlHeld.others]

theorem TrlHeld.setRg64 (hk : TrlHeld s₀ s) (n : RegName) (c i j v : Nat) : TrlHeld s₀ (s.setRg64 n c i j v) := by
  unfold State.setRg64
  grind [TrlHeld.fields, TrlHeld.others, TrlHeld.setRg, TrlHeld.setRgHi]

theorem TrlHeld.setCore (hk : TrlHeld s₀ s) (c : Nat) (x : Core) : TrlHeld s₀ (s.setCore c x) := by
  unfold State.setCore
  grind [TrlHeld.fields, TrlHeld.others]

theorem TrlHeld.modCore (hk : TrlHeld s₀ s) (c : Nat) (f : Core → Core) : TrlHeld s₀ (s.modCore c f) := by
  unfold State.modCore
  grind [TrlHeld.fields, TrlHeld.others, TrlHeld.setCore]

theorem TrlHeld.modTile (hk : TrlHeld s₀ s) (c h : Nat) (f : Tile → Tile) : TrlHeld s₀ (s.modTile c h f) := by
  unfold State.modTile
  grind [TrlHeld.fields, TrlHeld.others, TrlHeld.modCore]

theorem TrlHeld.modSeq (hk : TrlHeld s₀ s) (c : Nat) (f : Seq → Seq) : TrlHeld s₀ (s.modSeq c f) := by
  unfold State.modSeq
  grind [TrlHeld.fields, TrlHeld.others, TrlHeld.modCore]

theorem TrlHeld.modArr (hk : TrlHeld s₀ s) (c : Nat) (f : Arr → Arr) : TrlHeld s₀ (s.modArr c f) := by
  unfold State.modArr
  grind [TrlHeld.fields, TrlHeld.others, TrlHeld.modCore]

theorem TrlHeld.modChan (hk : TrlHeld s₀ s) (c ch : Nat) (f : Chan → Chan) : TrlHeld s₀ (s.modChan c ch f) := by
  unfold State.modChan
  grind [TrlHeld.fields, TrlHeld.others, TrlHeld.modCore]

theorem TrlHeld.setSlot (hk : TrlHeld s₀ s) (c n : Nat) (x : Slot) : TrlHeld s₀ (s.setSlot c n x) := by
  unfold State.setSlot
  grind [TrlHeld.fields, TrlHeld.others, TrlHeld.modCore]

theorem TrlHeld.modDisp (hk : TrlHeld s₀ s) (d : Nat) (f : Disp → Disp) : TrlHeld s₀ (s.modDisp d f) := by
  unfold State.modDisp
  grind [TrlHeld.fields, TrlHeld.others]

theorem TrlHeld.modSess (hk : TrlHeld s₀ s) (n : Nat) (f : Session → Session) : TrlHeld s₀ (s.modSess n f) := by
  unfold State.modSess
  grind [TrlHeld.fields, TrlHeld.others]

theorem TrlHeld.setSec (hk : TrlHeld s₀ s) (x : Sec) : TrlHeld s₀ (s.setSec x) := hk.of_eq rfl rfl

theorem TrlHeld.act (hk : TrlHeld s₀ s) (c j n : Nat) : TrlHeld s₀ (s.act c j n) := by
  unfold State.act
  grind [TrlHeld.fields, TrlHeld.others, TrlHeld.modCore]

theorem TrlHeld.mesh (hk : TrlHeld s₀ s) (c : Nat) (d : Option Nat) (n : Nat) : TrlHeld s₀ (s.mesh c d n) := by
  unfold State.mesh
  grind [TrlHeld.fields, TrlHeld.others, TrlHeld.act]

theorem TrlHeld.coreEvent (hk : TrlHeld s₀ s) (c code cls detail : Nat) : TrlHeld s₀ (s.coreEvent c code cls detail) := by
  unfold State.coreEvent
  grind [TrlHeld.fields, TrlHeld.others, TrlHeld.log]

theorem TrlHeld.partEvent (hk : TrlHeld s₀ s) (p code cls detail : Nat) : TrlHeld s₀ (s.partEvent p code cls detail) := by
  unfold State.partEvent
  grind [TrlHeld.fields, TrlHeld.others, TrlHeld.log]

theorem TrlHeld.devEvent (hk : TrlHeld s₀ s) (code cls detail : Nat) : TrlHeld s₀ (s.devEvent code cls detail) := by
  unfold State.devEvent
  grind [TrlHeld.fields, TrlHeld.others, TrlHeld.log]

theorem TrlHeld.setSpad (hk : TrlHeld s₀ s) (c off : Nat) (bs : List Byte) : TrlHeld s₀ (s.setSpad c off bs) := by
  unfold State.setSpad
  grind [TrlHeld.fields, TrlHeld.others, TrlHeld.setBytes]

theorem TrlHeld.putLine (hk : TrlHeld s₀ s) (l v : Nat) (bs : List Byte) (keep : Bool)
    : TrlHeld s₀ (s.putLine l v bs keep) := by
  unfold State.putLine
  grind [TrlHeld.fields, TrlHeld.others, TrlHeld.setBytes]

theorem TrlHeld.setWay (hk : TrlHeld s₀ s) (st w : Nat) (x : Option PLine) : TrlHeld s₀ (s.setWay st w x) := by
  unfold State.setWay
  grind [TrlHeld.fields, TrlHeld.others]

theorem TrlHeld.writeBack (hk : TrlHeld s₀ s) (x : PLine) : TrlHeld s₀ (s.writeBack x) := by
  unfold State.writeBack
  grind [TrlHeld.fields, TrlHeld.others, TrlHeld.putLine]

theorem TrlHeld.spdErr (hk : TrlHeld s₀ s) (c kind num : Nat) (nowin : Bool := false)
    : TrlHeld s₀ (s.spdErr c kind num nowin) := by
  unfold State.spdErr
  grind [TrlHeld.fields, TrlHeld.others, TrlHeld.setRg]

theorem TrlHeld.slotTouch (hk : TrlHeld s₀ s) (c off len : Nat) (wr : Bool) : TrlHeld s₀ (s.slotTouch c off len wr) := by
  unfold State.slotTouch
  grind [TrlHeld.fields, TrlHeld.others, TrlHeld.each, TrlHeld.setSlot]

theorem TrlHeld.slotClass (hk : TrlHeld s₀ s) (c n : Nat) (r : Option Req) (wr : Bool) (cls : Nat)
    : TrlHeld s₀ (s.slotClass c n r wr cls) := by
  unfold State.slotClass
  grind [TrlHeld.fields, TrlHeld.others, TrlHeld.spdErr, TrlHeld.log, TrlHeld.coreEvent]

theorem TrlHeld.wordAct (hk : TrlHeld s₀ s) (c off len : Nat) : TrlHeld s₀ (s.wordAct c off len) := by
  unfold State.wordAct
  grind [TrlHeld.fields, TrlHeld.others, TrlHeld.act]

theorem TrlHeld.ringHook (hk : TrlHeld s₀ s) (c off : Nat) (bs : List Byte) : TrlHeld s₀ (s.ringHook c off bs) := by
  unfold State.ringHook
  grind [TrlHeld.fields, TrlHeld.others, TrlHeld.modSeq]

theorem TrlHeld.store (hk : TrlHeld s₀ s) (c off : Nat) (bs : List Byte) : TrlHeld s₀ (s.store c off bs) := by
  unfold State.store
  grind [TrlHeld.fields, TrlHeld.others, TrlHeld.setSpad, TrlHeld.ringHook, TrlHeld.wordAct]

theorem TrlHeld.spadWrite (hk : TrlHeld s₀ s) (c off : Nat) (bs : List Byte) (cls : Nat)
    : TrlHeld s₀ (s.spadWrite c off bs cls).2 := by
  unfold State.spadWrite
  grind [TrlHeld.fields, TrlHeld.others, TrlHeld.slotClass, TrlHeld.slotTouch, TrlHeld.store]

theorem TrlHeld.writeRd (hk : TrlHeld s₀ s) (c : Nat) : TrlHeld s₀ (s.writeRd c) := by
  unfold State.writeRd
  grind [TrlHeld.fields, TrlHeld.others, TrlHeld.setSpad]

theorem TrlHeld.setRd (hk : TrlHeld s₀ s) (c i : Nat) : TrlHeld s₀ (s.setRd c i) := by
  unfold State.setRd
  grind [TrlHeld.fields, TrlHeld.others, TrlHeld.modSeq, TrlHeld.writeRd]

theorem TrlHeld.seqDoneAt (hk : TrlHeld s₀ s) (c i : Nat) : TrlHeld s₀ (s.seqDoneAt c i) := by
  unfold State.seqDoneAt
  grind [TrlHeld.fields, TrlHeld.others, TrlHeld.setRd, TrlHeld.modSeq]

theorem TrlHeld.seqDone (hk : TrlHeld s₀ s) (c : Nat) : TrlHeld s₀ (s.seqDone c) := by
  unfold State.seqDone
  grind [TrlHeld.fields, TrlHeld.others, TrlHeld.seqDoneAt]

theorem TrlHeld.setScalar (hk : TrlHeld s₀ s) (c n v : Nat) : TrlHeld s₀ (s.setScalar c n v) := by
  unfold State.setScalar
  grind [TrlHeld.fields, TrlHeld.others, TrlHeld.setRg64]

theorem TrlHeld.settle (hk : TrlHeld s₀ s) (d : Nat) : TrlHeld s₀ (s.settle d) := by
  unfold State.settle
  grind [TrlHeld.fields, TrlHeld.others, TrlHeld.modDisp]

theorem TrlHeld.answerClaim (hk : TrlHeld s₀ s) (c h : Nat) (r : CRec) : TrlHeld s₀ (s.answerClaim c h r) := by
  unfold State.answerClaim
  grind [TrlHeld.fields, TrlHeld.others, TrlHeld.spadWrite, TrlHeld.setScalar, TrlHeld.modCore, TrlHeld.modTile, TrlHeld.seqDone]

theorem TrlHeld.unstall (hk : TrlHeld s₀ s) (c : Nat) (p : StallBy → Bool) : TrlHeld s₀ (s.unstall c p) := by
  unfold State.unstall
  grind [TrlHeld.fields, TrlHeld.others, TrlHeld.modCore]

theorem TrlHeld.fetchStart (hk : TrlHeld s₀ s) (c ch h : Nat) (weight : Bool) : TrlHeld s₀ (s.fetchStart c ch h weight) := by
  unfold State.fetchStart
  grind [TrlHeld.fields, TrlHeld.others, TrlHeld.modChan]

theorem TrlHeld.spendOn (hk : TrlHeld s₀ s) (c e : Nat) : TrlHeld s₀ (s.spendOn c e) := by
  unfold State.spendOn
  grind [TrlHeld.fields, TrlHeld.others, TrlHeld.modSess]

theorem TrlHeld.arrKick (hk : TrlHeld s₀ s) (c : Nat) : TrlHeld s₀ (s.arrKick c) := by
  unfold State.arrKick
  grind [TrlHeld.fields, TrlHeld.others, TrlHeld.modTile]

theorem TrlHeld.arrEnter (hk : TrlHeld s₀ s) (c h : Nat) (first : Bool) : TrlHeld s₀ (s.arrEnter c h first) := by
  unfold State.arrEnter
  grind [TrlHeld.fields, TrlHeld.others, TrlHeld.modArr, TrlHeld.arrKick]

theorem TrlHeld.refetch (hk : TrlHeld s₀ s) (c h : Nat) : TrlHeld s₀ (s.refetch c h) := by
  unfold State.refetch
  grind [TrlHeld.fields, TrlHeld.others, TrlHeld.each, TrlHeld.unstall, TrlHeld.fetchStart]

theorem TrlHeld.latch (hk : TrlHeld s₀ s) (c h : Nat) : TrlHeld s₀ (s.latch c h) := by
  unfold State.latch
  grind [TrlHeld.fields, TrlHeld.others, TrlHeld.modTile]

theorem TrlHeld.guardNow (hk : TrlHeld s₀ s) (c h : Nat) : TrlHeld s₀ (s.guardNow c h) := by
  unfold State.guardNow
  grind [TrlHeld.fields, TrlHeld.others, TrlHeld.modTile]

theorem TrlHeld.sampleDue (hk : TrlHeld s₀ s) (c h : Nat) : TrlHeld s₀ (s.sampleDue c h) := by
  unfold State.sampleDue
  grind [TrlHeld.fields, TrlHeld.others, TrlHeld.modTile, TrlHeld.modCore]

theorem TrlHeld.fillSum (hk : TrlHeld s₀ s) (c h : Nat) (reran more : Bool) : TrlHeld s₀ (s.fillSum c h reran more) := by
  unfold State.fillSum
  grind [TrlHeld.fields, TrlHeld.others, TrlHeld.mesh, TrlHeld.modTile]

theorem TrlHeld.scoutEnds (hk : TrlHeld s₀ s) (c h : Nat) : TrlHeld s₀ (s.scoutEnds c h) := by
  unfold State.scoutEnds
  grind [TrlHeld.fields, TrlHeld.others, TrlHeld.setScalar, TrlHeld.seqDone]

theorem TrlHeld.openAttempt (hk : TrlHeld s₀ s) (c h rung : Nat) (reran more : Bool)
    : TrlHeld s₀ (s.openAttempt c h rung reran more) := by
  unfold State.openAttempt
  grind [TrlHeld.fields, TrlHeld.others, TrlHeld.latch, TrlHeld.guardNow, TrlHeld.fillSum, TrlHeld.refetch, TrlHeld.sampleDue,
    TrlHeld.modTile, TrlHeld.arrEnter, TrlHeld.scoutEnds]

theorem TrlHeld.reopen (hk : TrlHeld s₀ s) (c h rung : Nat) (reran : Bool) : TrlHeld s₀ (s.reopen c h rung reran) := by
  unfold State.reopen
  grind [TrlHeld.fields, TrlHeld.others, TrlHeld.openAttempt, TrlHeld.modTile]

theorem TrlHeld.attest (hk : TrlHeld s₀ s) (kind : Nat) (part : Option Nat) : TrlHeld s₀ (s.attest kind part) := by
  unfold State.attest
  grind [TrlHeld.fields, TrlHeld.others, TrlHeld.log, TrlHeld.setSec]

theorem TrlHeld.dropLines (hk : TrlHeld s₀ s) (p : Nat → Bool) : TrlHeld s₀ (s.dropLines p) := by
  unfold State.dropLines
  grind [TrlHeld.fields, TrlHeld.others]

theorem TrlHeld.writeBackGroup (hk : TrlHeld s₀ s) (g : Nat) : TrlHeld s₀ (s.writeBackGroup g) := by
  unfold State.writeBackGroup
  grind [TrlHeld.fields, TrlHeld.others, TrlHeld.each, TrlHeld.writeBack, TrlHeld.setWay]

theorem TrlHeld.invalidateGroup (hk : TrlHeld s₀ s) (g : Nat) : TrlHeld s₀ (s.invalidateGroup g) := by
  unfold State.invalidateGroup
  grind [TrlHeld.fields, TrlHeld.others, TrlHeld.dropLines]

theorem TrlHeld.pantryDo (hk : TrlHeld s₀ s) (o : POp) (g : Nat) : TrlHeld s₀ (s.pantryDo o g) := by
  unfold State.pantryDo
  grind [TrlHeld.fields, TrlHeld.others, TrlHeld.writeBackGroup, TrlHeld.invalidateGroup]

theorem TrlHeld.takeItem (hk : TrlHeld s₀ s) (d c h : Nat) (q : QItem) : TrlHeld s₀ (s.takeItem d c h q) := by
  unfold State.takeItem
  grind [TrlHeld.fields, TrlHeld.others, TrlHeld.modDisp, TrlHeld.settle]

theorem TrlHeld.dropClaim (hk : TrlHeld s₀ s) (d : Nat) (r : ClaimReq) : TrlHeld s₀ (s.dropClaim d r) := by
  unfold State.dropClaim
  grind [TrlHeld.fields, TrlHeld.others, TrlHeld.modDisp]

theorem TrlHeld.serveClaim (hk : TrlHeld s₀ s) (d : Nat) (r : ClaimReq) : TrlHeld s₀ (s.serveClaim d r) := by
  unfold State.serveClaim
  grind [TrlHeld.fields, TrlHeld.others, TrlHeld.dropClaim, TrlHeld.answerClaim, TrlHeld.spendOn, TrlHeld.takeItem, TrlHeld.modDisp]

theorem TrlHeld.presentOne (hk : TrlHeld s₀ s) (x : HeldItem) : TrlHeld s₀ (s.presentOne x) := by
  obtain ⟨n, _ | d, c, h⟩ := x <;> unfold State.presentOne <;> grind [TrlHeld.modDisp, TrlHeld.serveClaim, TrlHeld.spendOn,
    TrlHeld.modTile, TrlHeld.reopen]

theorem TrlHeld.presentAll (hk : TrlHeld s₀ s) (l : List HeldItem) :
    TrlHeld s₀ (s.presentAll l) := by
  induction l generalizing s with
  | nil => simpa [State.presentAll] using hk
  | cons x l ih =>
    unfold State.presentAll
    grind [TrlHeld.presentOne]

theorem TrlHeld.present_ (hk : TrlHeld s₀ s) (sel : Nat → Bool) : TrlHeld s₀ (s.present_ sel) := by
  unfold State.present_
  grind [TrlHeld.fields, TrlHeld.others, TrlHeld.presentAll]

theorem TrlHeld.writeCoreImg (hk : TrlHeld s₀ s) (g : Cfg) (c : Nat) : TrlHeld s₀ (s.writeCoreImg g c) := by
  unfold State.writeCoreImg
  grind [TrlHeld.fields, TrlHeld.others, TrlHeld.setRg]

theorem TrlHeld.writeBudget (hk : TrlHeld s₀ s) (g : Cfg) (p : Nat) : TrlHeld s₀ (s.writeBudget g p) := by
  unfold State.writeBudget
  grind [TrlHeld.fields, TrlHeld.others, TrlHeld.setRg64, TrlHeld.setRg]

theorem TrlHeld.writeFence (hk : TrlHeld s₀ s) (g : Cfg) : TrlHeld s₀ (s.writeFence g) := by
  unfold State.writeFence
  grind [TrlHeld.fields, TrlHeld.others, TrlHeld.each, TrlHeld.setRg]

theorem TrlHeld.joinCore (hk : TrlHeld s₀ s) (g : Cfg) (c : Nat) (was : Bool) : TrlHeld s₀ (s.joinCore g c was) := by
  unfold State.joinCore
  grind [TrlHeld.fields, TrlHeld.others, TrlHeld.writeCoreImg, TrlHeld.modCore, TrlHeld.setRg]

theorem TrlHeld.moveGroup (hk : TrlHeld s₀ s) (g : Cfg) (k : Nat) : TrlHeld s₀ (s.moveGroup g k) := by
  unfold State.moveGroup
  grind [TrlHeld.fields, TrlHeld.others, TrlHeld.pantryDo, TrlHeld.setRg]

theorem TrlHeld.applyPart (hk : TrlHeld s₀ s) (p : Nat) : TrlHeld s₀ (s.applyPart p) := by
  unfold State.applyPart
  grind (gen := 40) (ematch := 40) [TrlHeld.fields, TrlHeld.others, TrlHeld.each, TrlHeld.moveGroup, TrlHeld.setRg, TrlHeld.joinCore,
    TrlHeld.writeCoreImg, TrlHeld.writeBudget, TrlHeld.modDisp, TrlHeld.present_]

theorem TrlHeld.resized (hk : TrlHeld s₀ s) (ps : List Nat) : TrlHeld s₀ (s.resized ps) := by
  unfold State.resized
  grind [TrlHeld.fields, TrlHeld.others, TrlHeld.each, TrlHeld.partEvent]

end Sys2Proof.Machine
end

section
set_option Elab.async false
/-! Full and partial loads of the trellis (R390 to R403). -/

namespace Sys2Proof.Machine
open Sys2Proof
variable {s t : State}

/-! ### A load that fails -/

theorem logged_of_start {e : Event} {u : State} (h : logged e u t) (he : u.evt = s.evt) (hp : u.prc = s.prc) : logged e s t := by
  rw [logged, he, hp] at h
  exact h

/-- A load that fails leaves the configuration, and raises TRL_REFUSED with its cause (R400). -/
theorem State.failLoad_spec (s : State) (err : Nat) : (s.failLoad err).trl.st = .failed ∧ (s.failLoad err).trl.err = err ∧
    (s.failLoad err).cfg = s.cfg ∧ logged { code := 0x0602, cls := 2, detail := err } s (s.failLoad err) := by
  unfold State.failLoad
  extract_lets x t u
  have hu : only [.sdt] t u := (only.refl _ t).each _ _ fun v d hv => hv.modDisp (by simp) _ _
  have ht : u.trl = t.trl := (hu .trl).resolve_left (by simp)
  have hc : u.cfg = s.cfg := (hu .cfg).resolve_left (by simp)
  have he : u.evt = s.evt := (hu .evt).resolve_left (by simp)
  have hp : u.prc = s.prc := (hu .prc).resolve_left (by simp)
  rw [State.devEvent]
  refine ⟨?_, ?_, ?_, ?_⟩
  · rw [State.log_trl, ht]
  · rw [State.log_trl, ht]
  · rw [State.log_cfg, hc]
  · exact logged_of_start (logged_log u { code := 0x0602, cls := 2, detail := err }) he hp

theorem State.refuseLoad_running {e : Nat} (hb : s.trl.boot = false) : s.refuseLoad e = s.failLoad e := by
  rw [State.refuseLoad]
  simp [hb]

theorem only_trl (x : Trl) : only [.trl] s { s with trl := x } := by
  refine (only.refl _ s).fields ?_ ?_ ?_ ?_ ?_ ?_ ?_ ?_ ?_ ?_ ?_ ?_ ?_ ?_ ?_ ?_ ?_ ?_ ?_ ?_ ?_
  all_goals simp

/-! ### GO and the image -/

/-- The loader as a load begins. -/
def State.loadBegun (s : State) (flash : Bool) (src : Nat) : State :=
  { s with trl := { s.trl with st := .read, err := 0, flash := flash, src := src, img := [], partial_ := false,
                               len := if flash then 0 else imgLength (s.imageBytes src 128) } }

theorem State.beginLoad_eq (flash : Bool) (src : Nat) : s.beginLoad flash src =
    if s.sourceOk flash src then s.loadBegun flash src else (s.loadBegun flash src).failLoad trlSOURCE := rfl

theorem execTrlGo_admitted {r : Req} {flash : Bool} (h : s.mayReg r { n := .trlCtrl, c := 0, i := 0, j := 0, hi := false } true = true) :
    exec (.trlGo r flash) s = .next (if s.trlBusy then s.access r (regAddr .trlCtrl 0 0 0)
      else s.beginLoad flash (s.rg64 .trlSrc % 2 ^ 48)) := by
  rw [exec, execTrlGo, State.atReg_may s r .trlCtrl 0 0 _ h]
  rfl

/-- An image as it has been read. -/
def State.imageRead (s : State) (img : List Byte) : State :=
  { s with trl := { s.trl with img := img, partial_ := imgPartial img, deferred := [] } }

theorem execTrlImageReadDone_flash {bs : List Byte} (hst : s.trl.st = .read) (hf : s.trl.flash = true) :
    exec (.trlImageReadDone bs) s = .next (match s.imageCause bs (bs.take (imgLength bs)) with
      | some e => (s.imageRead (bs.take (imgLength bs))).refuseLoad e
      | none => { s.imageRead (bs.take (imgLength bs)) with trl := { (s.imageRead (bs.take (imgLength bs))).trl with
          st := .verify, changed := if imgPartial (bs.take (imgLength bs)) then (s.imageRead (bs.take (imgLength bs))).imageParts else [] } }) := by
  have hg : (if s.trl.flash then bs else s.imageBytes s.trl.src s.trl.len) = bs := if_pos hf
  change execTrlImageReadDone bs s = _
  rw [execTrlImageReadDone, if_neg (by simp [hst]), hg]
  dsimp only
  cases s.imageCause bs (bs.take (imgLength bs)) <;> rfl

/-! ### Verification -/

theorem execTrlVerifyDone_refused {e : Nat} (hst : s.trl.st = .verify) (hv : s.verify = .inl e) :
    exec .trlVerifyDone s = .next (s.refuseLoad e) := by
  rw [exec, execTrlVerifyDone, if_neg (by simp [hst]), hv]

/-- A full load with nothing to reset goes on to the Cellar, which has not trained. -/
theorem execTrlVerifyDone_trains {g : Cfg} (hst : s.trl.st = .verify) (hv : s.verify = .inr g) (hp : s.trl.partial_ = false)
    (hparts : s.cfg.parts = []) (hses : s.ses.ctx = []) (hscr : s.sec.scrubs = []) (hr : s.clr.rate = 0) :
    exec .trlVerifyDone s = .next { s with trl := { s.trl with new := g, st := .train } } := by
  have hreset (x : Trl) : ({ s with trl := x } : State).resetAll = { s with trl := x } := by
    unfold State.resetAll
    simp only [State.parts, State.sessions, hparts, hses, List.map_nil, State.each, List.foldl_nil]
  rw [exec, execTrlVerifyDone, if_neg (by simp [hst]), hv]
  simp only [hp, Bool.false_eq_true, if_false, hreset]
  rw [State.fullGoesOn]
  simp only [hscr, State.trainOrApply, hr]
  rfl

theorem execTrlVerifyDone_partial {g : Cfg} (hst : s.trl.st = .verify) (hv : s.verify = .inr g) (hp : s.trl.partial_ = true) :
    exec .trlVerifyDone s = .next (({ s with trl := { s.trl with new := g } } : State).beginQuiesce) := by
  rw [exec, execTrlVerifyDone, if_neg (by simp [hst]), hv]
  simp only [hp, if_true]

/-! ### Applying a full configuration -/

/-- A full load is DONE, its configuration retained. -/
def State.loadDone (s : State) (g : Cfg) : State :=
  { s with retained := g, trl := { s.trl with
    st := .done, err := 0, img := [], fallback := false, boot := false, deferred := [] } }

/-- Whether the device runs a fallback image. -/
def State.runsFallback (s : State) (b : Bool) : State := { s with evt := { s.evt with bare := false, fallback := b } }

theorem LoadHeld.loadDone {s₀ : State} (h : LoadHeld s₀ s) (g : Cfg) : LoadHeld s₀ (s.loadDone g) :=
  h.fields ⟨rfl, rfl, rfl, rfl, rfl, rfl⟩

theorem LoadHeld.runsFallback {s₀ : State} (h : LoadHeld s₀ s) (b : Bool) : LoadHeld s₀ (s.runsFallback b) :=
  h.fields ⟨rfl, rfl, rfl, rfl, rfl, rfl⟩

theorem TrlHeld.runsFallback {s₀ : State} (h : TrlHeld s₀ s) (b : Bool) : TrlHeld s₀ (s.runsFallback b) := h.others

theorem LoadHeld.writeImg (s : State) (g : Cfg) : LoadHeld { s with cfg := g } (s.writeImg g) := by
  unfold State.writeImg
  extract_lets t
  refine LoadHeld.each (LoadHeld.each (LoadHeld.writeHubImg (.refl t) _) _ _ ?_) _ _ ?_
  · intro u c hu
    exact hu.writeCoreImg _ _
  · intro u p hu
    exact hu.writeBudget _ _

/-- The configuration of an image is in force and retained, and the Cellar stays as it has trained (R391 steps 6 to 8). -/
theorem State.applyFull_spec (s : State) : s.applyFull.trl.st = .done ∧ s.applyFull.cfg = s.trl.new ∧ s.applyFull.retained = s.trl.new ∧
    s.applyFull.clr.initerr = s.clr.initerr ∧ s.applyFull.clr.rate = s.clr.rate ∧ s.applyFull.clr.gib = s.clr.gib ∧
    s.applyFull.evt.dfault = s.evt.dfault := by
  unfold State.applyFull
  extract_lets g t1 t2 x3 t3 t4 x5 t5 x6 t6 t7
  have h1 : LoadHeld { s with cfg := g } t1 := (LoadHeld.writeImg s g).programKeys.dropPantry.bumpAll
  have h2 : LoadHeld { s with cfg := g } t2 := h1.each _ _ fun u c hu => hu.freshCore _
  have h4 : LoadHeld { s with cfg := g } t4 := ((LoadHeld.others h2).writeEth g).each _ _ fun u p hu => hu.portTrain _
  clear_value t4
  have h5 : LoadHeld { s with cfg := g } t5 := h4.loadDone g
  have e5 : t5.trl.st = .done ∧ t5.retained = g := ⟨rfl, rfl⟩
  clear_value t5
  have h6 : LoadHeld { s with cfg := g } t6 ∧ TrlHeld t5 t6 := by
    simp only [t6]
    split
    · exact ⟨h5.others, (TrlHeld.refl t5).others⟩
    · exact ⟨h5, .refl t5⟩
  have h7 : LoadHeld { s with cfg := g } t7 ∧ TrlHeld t5 t7 := ⟨(h6.1.devEvent _ _ _).attest _ _, (h6.2.devEvent _ _ _).attest _ _⟩
  clear_value t7
  have hend (u : State) (b : Bool) (hl : LoadHeld { s with cfg := g } u) (ht : TrlHeld t5 u) :
      (u.runsFallback b).trl.st = .done ∧ (u.runsFallback b).cfg = g ∧ (u.runsFallback b).retained = g ∧
      (u.runsFallback b).clr.initerr = s.clr.initerr ∧ (u.runsFallback b).clr.rate = s.clr.rate ∧
      (u.runsFallback b).clr.gib = s.clr.gib ∧ (u.runsFallback b).evt.dfault = s.evt.dfault := by
    obtain ⟨a1, a2, a3, -, a5, a6⟩ := hl.runsFallback b
    obtain ⟨b1, b2⟩ := ht.runsFallback b
    exact ⟨(congrArg Trl.st b1).trans e5.1, a5, b2.trans e5.2, a1, a2, a3, a6⟩
  split
  · exact hend _ true (h7.1.devEvent 0x0604 0 s.trl.src) (h7.2.devEvent 0x0604 0 s.trl.src)
  · exact hend _ false h7.1 h7.2

/-- A fault of the device sets DFAULT and leaves the Cellar's training and the image's configuration. -/
theorem State.dEvent_spec (s : State) (code detail : Nat) : (s.dEvent code detail).clr.initerr = s.clr.initerr ∧
    (s.dEvent code detail).clr.rate = s.clr.rate ∧ (s.dEvent code detail).clr.gib = s.clr.gib ∧
    (s.dEvent code detail).trl.new = s.trl.new ∧ (s.dEvent code detail).evt.dfault = true := by
  unfold State.dEvent
  extract_lets u t x
  have hu : LoadHeld s u := (LoadHeld.refl s).devEvent _ _ _
  have ht : LoadHeld s t := by
    simp only [t]
    split
    · exact hu.failLoad _
    · exact hu
  clear_value t
  have hreset (w : State) : LoadHeld w (w.each s.parts (fun u p => u.resetPart p prDEVICE false)) :=
    (LoadHeld.refl _).each _ _ fun v p hv => hv.resetPart _ _ _
  obtain ⟨h1, h2, h3, h4, -, -⟩ := ht
  obtain ⟨g1, g2, g3, g4, -, g6⟩ := hreset { t with evt := { t.evt with dfault := true } }
  exact ⟨g1.trans h1, g2.trans h2, g3.trans h3, g4.trans h4, g6⟩

/-- What the training of the Cellar leaves (R403). -/
theorem State.cellarTrained_spec (s : State) (failed : List (Fin 16)) :
    (s.cellarTrained failed).trl.new = s.trl.new ∧ (s.cellarTrained failed).clr.initerr = initErr s.clr.mods failed ∧
    (s.cellarTrained failed).clr.rate = (if initErr s.clr.mods failed = 0 then commonRate s.clr.mods else 0) ∧
    (s.cellarTrained failed).clr.gib = (if initErr s.clr.mods failed = 0 then installedGib s.clr.mods else 0) ∧
    (initErr s.clr.mods failed ≠ 0 → (s.cellarTrained failed).evt.dfault = true) := by
  unfold State.cellarTrained
  extract_lets mods
  split
  · next he =>
    rw [he]
    exact ⟨rfl, rfl, rfl, rfl, fun h => absurd rfl h⟩
  · next e he =>
    obtain ⟨h1, h2, h3, h4, h5⟩ := State.dEvent_spec { s with clr := { s.clr with rate := 0, gib := 0, initerr := e + 1 } } 0x0701 (e + 1)
    rw [he]
    exact ⟨h4, h1, h2, h3, fun _ => h5⟩

/-- Settles O33, from the loader's steps. -/
theorem fullLoads : Obligations.FullLoads := by
  refine ⟨?_, ?_, ?_, ?_⟩
  · intro r flash s src hr
    have he := execTrlGo_admitted (flash := flash) hr
    refine ⟨fun hb ho => ?_, fun hb ho => ?_, fun hb => ?_⟩
    · rw [hb, if_neg (by decide), State.beginLoad_eq, if_pos ho] at he
      exact ⟨_, he, rfl, rfl, rfl, rfl, rfl, only_trl _⟩
    · rw [hb, if_neg (by decide), State.beginLoad_eq, if_neg (Bool.eq_false_iff.1 ho)] at he
      obtain ⟨h1, h2, -, h4⟩ := State.failLoad_spec (s.loadBegun flash src) trlSOURCE
      exact ⟨_, he, h1, h2, logged_of_start h4 rfl rfl⟩
    · rw [hb, if_pos rfl] at he
      exact he
  · intro bs s hst hf
    refine ⟨fun hc => ?_, fun e hc hb => ?_⟩
    · have he := execTrlImageReadDone_flash (bs := bs) hst hf
      rw [hc] at he
      exact ⟨_, he, rfl, rfl, only_trl _⟩
    · have he := execTrlImageReadDone_flash (bs := bs) hst hf
      have hb' : (s.imageRead (bs.take (imgLength bs))).trl.boot = false := hb
      rw [hc] at he
      dsimp only at he
      rw [State.refuseLoad_running hb'] at he
      obtain ⟨h1, h2, h3, h4⟩ := State.failLoad_spec (s.imageRead (bs.take (imgLength bs))) e
      exact ⟨_, he, h1, h2, h3, logged_of_start h4 rfl rfl⟩
  · intro s hst
    refine ⟨fun e hv hb => ?_, fun g hv hp h1 h2 h3 h4 => ?_⟩
    · have he := execTrlVerifyDone_refused hst hv
      rw [State.refuseLoad_running hb] at he
      obtain ⟨h1, h2, h3, -⟩ := s.failLoad_spec e
      exact ⟨_, he, h1, h2, h3⟩
    · exact ⟨_, execTrlVerifyDone_trains hst hv hp h1 h2 h3 h4, rfl, rfl, only_trl _⟩
  · intro failed s e hst
    have he : exec (.cellarTrainDone failed) s = .next (s.cellarTrained failed).applyFull := by
      rw [exec, execCellarTrainDone, if_neg (by simp [hst])]
    obtain ⟨a1, a2, a3, a4, a5, a6, a7⟩ := (s.cellarTrained failed).applyFull_spec
    obtain ⟨c1, c2, c3, c4, c5⟩ := s.cellarTrained_spec failed
    exact ⟨_, he, a1, a2.trans c1, a3.trans c1, a4.trans c2, a5.trans c3, a6.trans c4, fun h => a7.trans (c5 h)⟩

end Sys2Proof.Machine
end

section
set_option Elab.async false
/-! Partial loads (R393 to R395). -/

namespace Sys2Proof.Machine
open Sys2Proof
variable {s t : State}

/-! ### Claims are held -/

/-- What is set in every dispenser of a list is set. -/
theorem State.disp_each_quiesced (l : List Nat) : ∀ (s : State) (d : Nat), d ∈ l ∨ (s.disp d).quiesced = true →
    ((s.each l (fun u d => u.modDisp d (fun x => { x with quiesced := true }))).disp d).quiesced = true := by
  induction l with
  | nil =>
    intro s d h
    exact h.resolve_left (by simp)
  | cons e l ih =>
    intro s d h
    refine ih (s.modDisp e (fun x => { x with quiesced := true })) d ?_
    by_cases hd : d = e
    · exact .inr (by rw [hd, State.disp_modDisp_self])
    · rw [State.disp_modDisp_ne s _ hd]
      exact h.imp_left fun hm => (List.mem_cons.1 hm).resolve_left hd

/-- A partial load whose partitions none has FORCE holds their claims and waits. -/
theorem State.beginQuiesce_spec (h : ∀ p ∈ s.trl.changed, flag (Sparse.get 0 s.trl.new.parts p) 28 = false) :
    s.beginQuiesce.trl.st = .quiesce ∧ s.beginQuiesce.trl.new = s.trl.new ∧
    (∀ d ∈ s.changedDisps, (s.beginQuiesce.disp d).quiesced = true) ∧ only [.trl, .sdt] s s.beginQuiesce := by
  unfold State.beginQuiesce
  extract_lets t x u
  have hon : only [.sdt] s t := (only.refl _ s).each _ _ fun v d hv => hv.modDisp (by simp) _ _
  have ht : t.trl = s.trl := (hon .trl).resolve_left (by simp)
  have hd (d : Nat) (hm : d ∈ s.changedDisps) : (t.disp d).quiesced = true := State.disp_each_quiesced _ s d (.inl hm)
  clear_value t
  have hf : u.trl.changed.filter u.forced = [] := by
    rw [List.filter_eq_nil_iff]
    intro p hp
    have hp' : p ∈ s.trl.changed := by rw [← ht]; exact hp
    have hn : u.trl.new = s.trl.new := by rw [← ht]
    rw [State.forced, State.newRec, hn, h p hp']
    simp
  have hnew : t.trl.new = s.trl.new := congrArg Trl.new ht
  rw [hf]
  exact ⟨rfl, hnew, hd, only.trans (hon.mono (by simp)) ((only_trl _).mono (by simp))⟩

/-! ### The quiesce point -/

theorem execQuiescePoint_quiet (hst : s.trl.st = .quiesce) (hq : s.allQuiet = true) : exec .quiescePoint s =
    .next (if s.trl.changed.any s.permBusy then s.failLoad trlPERMBUSY else s.passQuiesce) := by
  rw [exec, execQuiescePoint, if_neg (by simp [hst, hq])]
  split <;> rfl

theorem execQuiesceTimeout_fails (hst : s.trl.st = .quiesce) (hq : s.allQuiet = false)
    (hf : s.trl.changed.any (fun p => !s.forced p) = true) : exec .quiesceTimeout s = .next (s.failLoad trlQUIESCE) := by
  rw [exec, execQuiesceTimeout, if_pos (by simp only [hst, hq, hf]; decide)]

/-! ### Partitions apply -/

/-- A partition's kills and resets that waited, where none did. -/
theorem State.runDeferred_none {p : Nat} (h : s.trl.deferred = []) : (s.runDeferred p).trl = { s.trl with deferred := [] } ∧
    (s.runDeferred p).cfg = s.cfg ∧ (s.runDeferred p).retained = s.retained := by
  rw [State.runDeferred]
  simp only [h, List.filter_nil]
  exact ⟨rfl, rfl, rfl⟩

/-- The loader once partition `p` has applied, with those that are left. -/
def State.partApplied (s : State) (p : Nat) (l : List Nat) : State :=
  { s.applyPart p with trl := { (s.applyPart p).trl with st := .apply, changed := l } }

theorem State.partApplied_spec (s : State) (p : Nat) (l : List Nat) :
    (s.partApplied p l).trl = { s.trl with st := .apply, changed := l } ∧ (s.partApplied p l).retained = s.retained := by
  obtain ⟨ht, hr⟩ := (TrlHeld.refl s).applyPart p
  rw [State.partApplied, ht]
  exact ⟨rfl, hr⟩

theorem execPartitionApplyDone_applies {p : Nat} {l : List Nat} (hst : s.trl.st = .scrub ∨ s.trl.st = .apply)
    (hp : s.trl.partial_ = true) (hm : s.trl.moved = []) (hw : s.trl.wbinv = []) (hc : s.trl.changed = p :: l) :
    exec .partitionApplyDone s = .next ((if l.isEmpty then (s.partApplied p l).endPartial s.imageParts
      else s.partApplied p l).runDeferred p) := by
  have hready : ((s.trl.st = .scrub || s.trl.st = .apply) && s.trl.partial_ && s.trl.moved.isEmpty && s.trl.wbinv.isEmpty) = true := by
    rw [hp, hm, hw]
    obtain h | h := hst <;> rw [h] <;> rfl
  rw [exec, execPartitionApplyDone]
  simp only [hc, hready, Bool.not_true, Bool.false_eq_true, if_false]
  rfl

/-- The end of a partial load: its configuration is in force and retained (R393 step 10). -/
theorem State.endPartial_spec (s : State) (ps : List Nat) : (s.endPartial ps).trl.st = .done ∧ (s.endPartial ps).trl.err = 0 ∧
    (s.endPartial ps).trl.deferred = s.trl.deferred ∧ (s.endPartial ps).cfg = s.trl.new ∧ (s.endPartial ps).retained = s.trl.new := by
  unfold State.endPartial
  extract_lets g t1 x t2 t3 t4
  have h1 : t1.cfg = g ∧ t1.retained = g ∧ t1.trl = s.trl := by
    have hl : LoadHeld { s with cfg := g, retained := g } t1 := (LoadHeld.refl _).writeFence _
    have ht : TrlHeld { s with cfg := g, retained := g } t1 := (TrlHeld.refl _).writeFence _
    obtain ⟨-, -, -, -, h5, -⟩ := hl
    obtain ⟨h6, h7⟩ := ht
    exact ⟨h5, h7, h6⟩
  obtain ⟨hc, hr, ht⟩ := h1
  clear_value t1
  have h2 : t2.trl.st = .done ∧ t2.trl.err = 0 ∧ t2.trl.deferred = t1.trl.deferred ∧ t2.cfg = t1.cfg ∧ t2.retained = t1.retained :=
    ⟨rfl, rfl, rfl, rfl, rfl⟩
  clear_value t2
  obtain ⟨d1, d2, d3, d4, d5⟩ := h2
  have h4 : t4.cfg = t2.cfg ∧ TrlHeld t2 t4 := by
    have h3 : LoadHeld t2 t4 := ((LoadHeld.refl t2).devEvent _ _ _).each _ _ fun u d hu => hu.modDisp _ _
    obtain ⟨-, -, -, -, h5, -⟩ := h3
    exact ⟨h5, ((TrlHeld.refl t2).devEvent _ _ _).each _ _ fun u d hu => hu.modDisp _ _⟩
  obtain ⟨h4c, h4t⟩ := h4
  clear_value t4
  have hend : LoadHeld t4 ((t4.resized ps).attest attPARTIAL none) := ((LoadHeld.refl t4).resized ps).attest attPARTIAL none
  obtain ⟨-, -, -, -, hend, -⟩ := hend
  obtain ⟨e1, e2⟩ := (h4t.resized ps).attest attPARTIAL none
  have hdef : t1.trl.deferred = s.trl.deferred := congrArg Trl.deferred ht
  rw [hend, e1, e2, h4c]
  exact ⟨d1, d2, d3.trans hdef, d4.trans hc, d5.trans hr⟩

/-- Settles O34, from the loader's steps. -/
theorem partialLoads : Obligations.PartialLoads := by
  refine ⟨?_, ?_, ?_, ?_⟩
  · intro g s hst hv hp hf
    obtain ⟨h1, h2, h3, h4⟩ := State.beginQuiesce_spec (s := { s with trl := { s.trl with new := g } }) hf
    exact ⟨_, execTrlVerifyDone_partial hst hv hp, h1, h2, h3, only.trans ((only_trl _).mono (by simp)) h4⟩
  · intro s hst hq
    have he := execQuiescePoint_quiet hst hq
    refine ⟨fun hb => ?_, fun hb => ?_⟩
    · rw [if_pos hb] at he
      obtain ⟨h1, h2, h3, -⟩ := s.failLoad_spec trlPERMBUSY
      exact ⟨_, he, h1, h2, h3⟩
    · rw [if_neg (Bool.eq_false_iff.1 hb)] at he
      exact ⟨_, he, rfl, rfl, rfl⟩
  · intro s hst hq hf
    obtain ⟨h1, h2, h3, h4⟩ := s.failLoad_spec trlQUIESCE
    exact ⟨_, execQuiesceTimeout_fails hst hq hf, h1, h2, h3, h4⟩
  · intro p q l s hst hp hm hw hd
    refine ⟨fun hc => ?_, fun hc => ?_⟩
    · have he := execPartitionApplyDone_applies hst hp hm hw hc
      obtain ⟨ht, hr⟩ := s.partApplied_spec p (q :: l)
      obtain ⟨e1, -, e3⟩ := State.runDeferred_none (s := s.partApplied p (q :: l)) (p := p) (by rw [ht]; exact hd)
      rw [if_neg (by simp)] at he
      rw [ht] at e1
      refine ⟨_, he, ?_, ?_, e3.trans hr⟩
      · rw [e1]
      · rw [e1]
    · have he := execPartitionApplyDone_applies hst hp hm hw hc
      obtain ⟨ht, -⟩ := s.partApplied_spec p []
      obtain ⟨a1, a2, a3, a4, a5⟩ := State.endPartial_spec (s.partApplied p []) s.imageParts
      rw [ht] at a3 a4 a5
      obtain ⟨e1, e2, e3⟩ := State.runDeferred_none (s := (s.partApplied p []).endPartial s.imageParts) (p := p) (a3.trans hd)
      rw [if_pos (by rfl)] at he
      refine ⟨_, he, ?_, ?_, e2.trans a4, e3.trans a5⟩
      · rw [e1]
        exact a1
      · rw [e1]
        exact a2

end Sys2Proof.Machine
end

section
set_option Elab.async false
/-! What a kill fill leaves of the fill engine. -/

namespace Sys2Proof.Machine
open Sys2Proof
variable {s₀ s t u : State}

/-- The fills that wait and the one that runs stay. -/
def FillHeld (s t : State) : Prop :=
  t.clr.kills = s.clr.kills ∧ t.clr.fill = s.clr.fill ∧ t.clr.fillSt = s.clr.fillSt

theorem FillHeld.refl (s : State) : FillHeld s s := ⟨rfl, rfl, rfl⟩

theorem FillHeld.of_eq (hk : FillHeld s₀ s) (e1 : t.clr = s.clr) : FillHeld s₀ t := by
  rwa [FillHeld, e1]

theorem FillHeld.fields (hk : FillHeld s₀ s) {a1 a2 a3 a4 a5 a6 a7 a8 a9 a10 a11 a12 a13 a14 a15 a16 a17 a18 a19 a20 a21}
    (e : a11.kills = s.clr.kills ∧ a11.fill = s.clr.fill ∧ a11.fillSt = s.clr.fillSt) :
    FillHeld s₀ (State.mk a1 a2 a3 a4 a5 a6 a7 a8 a9 a10 a11 a12 a13 a14 a15 a16 a17 a18 a19 a20 a21) := by
  unfold FillHeld at *
  simp only [e]
  exact hk

theorem FillHeld.each {α : Type} (hk : FillHeld s₀ s) (l : List α) (f : State → α → State)
    (hf : ∀ t x, FillHeld s₀ t → FillHeld s₀ (f t x)) : FillHeld s₀ (s.each l f) := State.each_inv s (FillHeld s₀) l f hf hk

theorem FillHeld.setBytes (hk : FillHeld s₀ s) (a : Nat) (bs : List Byte) : FillHeld s₀ (s.setBytes a bs) := by
  unfold FillHeld at *
  rw [State.setBytes_clr]
  exact hk

theorem FillHeld.setSec (hk : FillHeld s₀ s) (x : Sec) : FillHeld s₀ (s.setSec x) := hk.of_eq rfl

theorem FillHeld.putLine (hk : FillHeld s₀ s) (l v : Nat) (bs : List Byte) (keep : Bool)
    : FillHeld s₀ (s.putLine l v bs keep) := by
  unfold State.putLine
  exact FillHeld.fields (hk.setBytes _ _) ⟨rfl, rfl, rfl⟩

theorem FillHeld.setWay (hk : FillHeld s₀ s) (st w : Nat) (x : Option PLine) : FillHeld s₀ (s.setWay st w x) := by
  unfold State.setWay
  grind [FillHeld.fields]

theorem FillHeld.attest (hk : FillHeld s₀ s) (kind : Nat) (part : Option Nat) : FillHeld s₀ (s.attest kind part) := by
  unfold State.attest
  grind [FillHeld.fields, FillHeld.setSec]

theorem FillHeld.fillLine (hk : FillHeld s₀ s) (l v : Nat) (bs : List Byte) : FillHeld s₀ (s.fillLine l v bs) := by
  unfold State.fillLine
  grind [FillHeld.fields, FillHeld.putLine, FillHeld.setWay]

end Sys2Proof.Machine
end

section
set_option Elab.async false
/-! What shared operations leave unchanged. -/

namespace Sys2Proof
open Sys2Proof.Machine
variable {ps : List Part} {s₀ s t u : State} {c cc : Nat}

theorem only.devEvent (hk : only ps s₀ s) (m1 : Part.regs ∈ ps) (m2 : Part.ses ∈ ps) (m3 : Part.evt ∈ ps)
    (code cls detail : Nat) : only ps s₀ (s.devEvent code cls detail) := by
  unfold State.devEvent
  grind [only.fields, only.log]

theorem only.withClr (hk : only ps s₀ s) (m : Part.clr ∈ ps) (x : Cellar) : only ps s₀ { s with clr := x } := by
  refine hk.fields ?_ ?_ ?_ ?_ ?_ ?_ ?_ ?_ ?_ ?_ ?_ ?_ ?_ ?_ ?_ ?_ ?_ ?_ ?_ ?_ ?_
  all_goals simp [m]

theorem only.cellarCe (hk : only ps s₀ s) (m1 : Part.regs ∈ ps) (m2 : Part.clr ∈ ps) (m3 : Part.ses ∈ ps)
    (m4 : Part.evt ∈ ps) (l dev : Nat) (sub : Bool) : only ps s₀ (s.cellarCe l dev sub) := by
  unfold State.cellarCe
  extract_lets c v s1 due
  have h1 : only ps s₀ s1 := hk.setRg m1 _ _ _ _ _
  split
  · exact (h1.withClr m2 _).log m1 m3 m4 _
  · exact h1

theorem only.cellarUe (hk : only ps s₀ s) (m1 : Part.regs ∈ ps) (m2 : Part.clr ∈ ps) (m3 : Part.ses ∈ ps)
    (m4 : Part.evt ∈ ps) (l : Nat) : only ps s₀ (s.cellarUe l) := by
  unfold State.cellarUe
  grind [only.fields, only.count, only.setRg64, only.log]

theorem only.burstCe (hk : only ps s₀ s) (m1 : Part.regs ∈ ps) (m2 : Part.clr ∈ ps) (m3 : Part.ses ∈ ps)
    (m4 : Part.evt ∈ ps) (l : Nat) (e : DramErr) (sub : Bool) : only ps s₀ (s.burstCe l e sub) := by
  unfold State.burstCe
  grind [only.fields, only.cellarCe]

theorem only.dramErr (hk : only ps s₀ s) (m1 : Part.regs ∈ ps) (m2 : Part.clr ∈ ps) (m3 : Part.ses ∈ ps)
    (m4 : Part.evt ∈ ps) (l : Nat) (e : DramErr) : only ps s₀ (s.dramErr l e) := by
  unfold State.dramErr
  grind [only.fields, only.cellarUe, only.burstCe]

end Sys2Proof
end

section
set_option Elab.async false
/-! What an error found by patrol leaves. -/

namespace Sys2Proof.Machine
open Sys2Proof
variable {s₀ s t u : State}

/-- Patrol's place and its passes stay. -/
def PatrolHeld (s t : State) : Prop :=
  t.clr.patrol = s.clr.patrol ∧ t.clr.passes = s.clr.passes

theorem PatrolHeld.refl (s : State) : PatrolHeld s s := ⟨rfl, rfl⟩

theorem PatrolHeld.fields (hk : PatrolHeld s₀ s) {a1 a2 a3 a4 a5 a6 a7 a8 a9 a10 a11 a12 a13 a14 a15 a16 a17 a18 a19 a20 a21}
    (e : a11.patrol = s.clr.patrol ∧ a11.passes = s.clr.passes) :
    PatrolHeld s₀ (State.mk a1 a2 a3 a4 a5 a6 a7 a8 a9 a10 a11 a12 a13 a14 a15 a16 a17 a18 a19 a20 a21) := by
  unfold PatrolHeld at *
  simp only [e]
  exact hk

theorem PatrolHeld.log (hk : PatrolHeld s₀ s) (e : Event) : PatrolHeld s₀ (s.log e) := by
  unfold PatrolHeld at *
  rw [State.log_clr]
  exact hk

theorem PatrolHeld.setRg (hk : PatrolHeld s₀ s) (n : RegName) (c i j : Nat) (v : W32) : PatrolHeld s₀ (s.setRg n c i j v) := by
  unfold State.setRg
  grind [PatrolHeld.fields]

theorem PatrolHeld.setRgHi (hk : PatrolHeld s₀ s) (n : RegName) (c i j : Nat) (v : W32)
    : PatrolHeld s₀ (s.setRgHi n c i j v) := by
  unfold State.setRgHi
  grind [PatrolHeld.fields]

theorem PatrolHeld.setRg64 (hk : PatrolHeld s₀ s) (n : RegName) (c i j v : Nat) : PatrolHeld s₀ (s.setRg64 n c i j v) := by
  unfold State.setRg64
  grind [PatrolHeld.fields, PatrolHeld.setRg, PatrolHeld.setRgHi]

theorem PatrolHeld.count (hk : PatrolHeld s₀ s) (n : RegName) (c i k : Nat) : PatrolHeld s₀ (s.count n c i k) := by
  unfold State.count
  grind [PatrolHeld.fields, PatrolHeld.setRg]

theorem PatrolHeld.cellarCe (hk : PatrolHeld s₀ s) (l dev : Nat) (sub : Bool) : PatrolHeld s₀ (s.cellarCe l dev sub) := by
  unfold State.cellarCe
  extract_lets c v s1 due
  have h1 : PatrolHeld s₀ s1 := hk.setRg _ _ _ _ _
  split
  · refine PatrolHeld.log ?_ _
    exact h1.fields ⟨rfl, rfl⟩
  · exact h1

theorem PatrolHeld.cellarUe (hk : PatrolHeld s₀ s) (l : Nat) : PatrolHeld s₀ (s.cellarUe l) := by
  unfold State.cellarUe
  grind [PatrolHeld.fields, PatrolHeld.count, PatrolHeld.setRg64, PatrolHeld.log]

theorem PatrolHeld.burstCe (hk : PatrolHeld s₀ s) (l : Nat) (e : DramErr) (sub : Bool) : PatrolHeld s₀ (s.burstCe l e sub) := by
  unfold State.burstCe
  grind [PatrolHeld.fields, PatrolHeld.cellarCe]

theorem PatrolHeld.dramErr (hk : PatrolHeld s₀ s) (l : Nat) (e : DramErr) : PatrolHeld s₀ (s.dramErr l e) := by
  unfold State.dramErr
  grind [PatrolHeld.fields, PatrolHeld.cellarUe, PatrolHeld.burstCe]

end Sys2Proof.Machine
end

section
set_option Elab.async false
/-! The Cellar: patrol, module temperature and fills (R405 to R412). -/

namespace Sys2Proof.Machine
open Sys2Proof
variable {s t : State}

theorem only_clr (x : Cellar) : only [.clr] s { s with clr := x } := (only.refl _ s).withClr (by simp) x

/-! ### Patrol -/

theorem mem_insertAsc (x y : Nat) (l : List Nat) : y ∈ insertAsc x l ↔ y = x ∨ y ∈ l := by
  induction l with
  | nil => simp [insertAsc]
  | cons z zs ih =>
    unfold insertAsc
    split
    · simp
    · split
      · next h => simp [h]
      · rw [List.mem_cons, ih, List.mem_cons]
        exact or_left_comm

/-- The Cellar's error registers stand apart from one another and from the log's counters. -/
theorem clrRegs_apart : regAddr .clrUecnt 0 0 0 ≠ regAddr .clrLastue 0 0 0 ∧ regAddr .clrUecnt 0 0 0 ≠ regAddr .clrLastue 0 0 0 + 4 ∧
    ∀ m ∈ logCounters, regAddr .clrUecnt 0 0 0 ≠ regAddr m 0 0 0 ∧ regAddr .clrLastue 0 0 0 ≠ regAddr m 0 0 0 ∧
      regAddr .clrLastue 0 0 0 + 4 ≠ regAddr m 0 0 0 := by decide

/-- An event that is logged leaves every register but the log's own counters. -/
theorem State.regs_log_far {a : Nat} (d : W32) (e : Event) (h : ∀ m ∈ logCounters, a ≠ regAddr m 0 0 0) :
    Sparse.get d (s.log e).regs a = Sparse.get d s.regs a := by
  have hcount (t : State) (m : RegName) (hm : m ∈ logCounters) : Sparse.get d (t.count m 0 0 1).regs a = Sparse.get d t.regs a :=
    Sparse.get_put_ne _ _ _ _ (h m hm)
  unfold State.log
  extract_lets e1 ev s1 s2 s3
  have h2 : Sparse.get d s2.regs a = Sparse.get d s.regs a := by
    simp only [s2]
    split
    · rfl
    · exact hcount s1 .evtLost (by decide)
  have h3 : Sparse.get d s3.regs a = Sparse.get d s.regs a := by
    simp only [s3]
    split
    · next m hm => exact (hcount s2 m (classCounter_mem hm)).trans h2
    · exact h2
  refine State.each_inv _ (fun t => Sparse.get d t.regs a = Sparse.get d s.regs a) _ _ (fun t x ht => ?_) h3
  unfold State.modSess
  split <;> exact ht

theorem State.rg64_log {n : RegName} {c i j : Nat} (e : Event) (h : ∀ m ∈ logCounters, regAddr n c i j ≠ regAddr m 0 0 0)
    (h4 : ∀ m ∈ logCounters, regAddr n c i j + 4 ≠ regAddr m 0 0 0) : (s.log e).rg64 n c i j = s.rg64 n c i j := by
  have hhi : (s.log e).rgHi n c i j = s.rgHi n c i j := State.regs_log_far _ e h4
  rw [State.rg64, State.rg_log e h, hhi, State.rg64]

/-- An uncorrectable error poisons its line, and is counted and recorded (R407). -/
theorem State.cellarUe_spec (l : Nat) : l ∈ (s.cellarUe l).clr.poison ∧ (s.cellarUe l).rg64 .clrLastue = l * 128 % 2 ^ 64 ∧
    counted .clrUecnt 0 0 1 s (s.cellarUe l) := by
  obtain ⟨h1, h2, hlog⟩ := clrRegs_apart
  unfold State.cellarUe
  extract_lets x s1 s2
  refine ⟨?_, ?_, ?_⟩
  · rw [State.log_clr]
    exact (mem_insertAsc _ _ _).2 (.inl rfl)
  · rw [State.rg64_log _ (fun m hm => (hlog m hm).2.1) (fun m hm => (hlog m hm).2.2)]
    exact State.rg64_setRg64 _ _ _ _ _
  · rw [counted, State.rg_log _ (fun m hm => (hlog m hm).1)]
    exact (State.rg_setRg64_far ⟨h1, h2⟩).trans (State.rg_setRg_self _ _ _ _ _ _)

theorem State.dramErr_clean (l : Nat) : s.dramErr l [] = s := rfl

theorem State.dramErr_uncorrectable {l : Nat} {e : DramErr}
    (h : decodeBurst e false = .uncorrectable ∨ decodeBurst e true = .uncorrectable) : s.dramErr l e = s.cellarUe l := by
  rw [State.dramErr, if_pos]
  simpa using h

theorem State.only_dramErr (l : Nat) (e : DramErr) : only [.clr, .regs, .evt, .ses] s (s.dramErr l e) :=
  (only.refl _ s).dramErr (by simp) (by simp) (by simp) (by simp) _ _

/-- A line that patrol has read. -/
def State.patrolled (s : State) (e : DramErr) : State :=
  let t := s.dramErr (patrolLine s.clr.patrol) e
  let n := s.clr.patrol + 1
  let whole : Bool := s.capacity ≤ n * 128
  { t with clr := { t.clr with patrol := if whole then 0 else n, passes := if whole then (t.clr.passes + 1) % 2 ^ 22 else t.clr.passes } }

theorem execPatrolScrubLine_reads {e : DramErr} (h : s.patrols = true) : exec (.patrolScrubLine e) s = .next (s.patrolled e) := by
  rw [exec, execPatrolScrubLine, h]
  rfl

theorem State.patrolled_spec (e : DramErr) : (s.patrolled e).clr.patrol = (if s.capacity ≤ (s.clr.patrol + 1) * 128 then 0 else s.clr.patrol + 1) ∧
    (s.patrolled e).clr.passes = (if s.capacity ≤ (s.clr.patrol + 1) * 128 then (s.clr.passes + 1) % 2 ^ 22 else s.clr.passes) ∧
    (s.patrolled e).clr.poison = (s.dramErr (patrolLine s.clr.patrol) e).clr.poison ∧
    (s.patrolled e).regs = (s.dramErr (patrolLine s.clr.patrol) e).regs ∧
    only [.clr] (s.dramErr (patrolLine s.clr.patrol) e) (s.patrolled e) := by
  obtain ⟨-, hp⟩ := (PatrolHeld.refl s).dramErr (patrolLine s.clr.patrol) e
  refine ⟨?_, ?_, rfl, rfl, only_clr _⟩
  · simp only [State.patrolled, decide_eq_true_eq]
  · simp only [State.patrolled, hp, decide_eq_true_eq]

/-! ### Module temperature -/

theorem mem_setMember (b : Bool) (c : Nat) (l : List Nat) : c ∈ setMember b c l ↔ b = true := by
  cases b
  · simp [setMember]
  · simp [setMember, mem_insertAsc]

/-- The temperature of a channel's module, as the Cellar keeps it. -/
def State.moduleAt (s : State) (c : Nat) (degC : Int) : State :=
  { s with clr := { s.clr with warm := setMember (85 ≤ degC) c s.clr.warm, hot := setMember (95 ≤ degC) c s.clr.hot } }

theorem execModuleThermal_eq (ch : Fin 16) (degC : Int) : exec (.moduleThermal ch degC) s = .next
    (if (95 ≤ degC : Bool) && !s.clr.hot.contains ch.val then (s.moduleAt ch.val degC).devEvent 0x0704 0 ch.val
      else s.moduleAt ch.val degC) := rfl

theorem State.moduleAt_spec (c : Nat) (degC : Int) : (c ∈ (s.moduleAt c degC).clr.hot ↔ 95 ≤ degC) ∧
    (c ∈ (s.moduleAt c degC).clr.warm ↔ 85 ≤ degC) ∧ only [.clr] s (s.moduleAt c degC) := by
  refine ⟨?_, ?_, only_clr _⟩
  · exact (mem_setMember _ _ _).trans decide_eq_true_iff
  · exact (mem_setMember _ _ _).trans decide_eq_true_iff

/-! ### Fills -/

theorem execCellarFillGo_may {r : Req} (h : s.mayReg r { n := .clrFillctl, c := 0, i := 0, j := 0, hi := false } true = true) :
    exec (.cellarFillGo r) s = .next (s.fillGo r) := by
  rw [exec, execCellarFillGo, State.atReg_may s r .clrFillctl 0 0 _ h]

theorem execCellarFillHalt_may {r : Req} (h : s.mayReg r { n := .clrFillctl, c := 0, i := 0, j := 0, hi := false } true = true) :
    exec (.cellarFillHalt r) s = .next s.haltFill := by
  rw [exec, execCellarFillHalt, State.atReg_may s r .clrFillctl 0 0 _ h]

theorem State.killFill_spec (f : Fill) : (s.killFill f).clr.kills = s.clr.kills.drop 1 ∧ (s.killFill f).clr.fill = s.clr.fill ∧
    (s.killFill f).clr.fillSt = s.clr.fillSt := by
  unfold State.killFill
  extract_lets plain part x t
  exact ((FillHeld.refl t).each _ _ fun u l hu => hu.fillLine _ _ _).attest _ _

/-- Settles O35, from patrol, the modules' temperature and the fill engine. -/
theorem cellarCommands : Obligations.CellarCommands := by
  refine ⟨?_, ?_, ?_, ?_, ?_⟩
  · intro e s n hp
    obtain ⟨h1, h2, h3, h4, h5⟩ := s.patrolled_spec e
    have hd := s.only_dramErr (patrolLine s.clr.patrol) e
    have hon : only [.clr, .regs, .evt, .ses] s (s.patrolled e) := only.trans hd (h5.mono (by simp))
    refine ⟨_, execPatrolScrubLine_reads hp, h1, h2, (hon .mem).resolve_left (by simp), hon, fun he => ?_, fun hu => ?_⟩
    · rw [he, State.dramErr_clean] at h3 h5
      rw [he]
      exact ⟨h3, h5⟩
    · rw [State.dramErr_uncorrectable hu] at h3 h4
      obtain ⟨u1, u2, u3⟩ := s.cellarUe_spec (patrolLine s.clr.patrol)
      refine ⟨h3 ▸ u1, ?_, counted_of_regs_eq u3 h4⟩
      rw [← u2, State.rg64, State.rg64, State.rgHi, State.rgHi, State.rg_of_regs_eq h4, h4]
  · intro ch degC s
    have he := execModuleThermal_eq (s := s) ch degC
    obtain ⟨h1, h2, h3⟩ := s.moduleAt_spec ch.val degC
    refine ⟨fun hd => ?_, fun hd hd' => ?_, fun hd => ?_⟩
    · by_cases hw : s.clr.hot.contains ch.val = true
      · rw [if_neg (by rw [hw]; simp)] at he
        exact ⟨_, he, h1.2 hd, h2.2 (by omega), fun h => absurd hw (by rw [h]; decide), fun _ => h3⟩
      · rw [if_pos (by rw [Bool.eq_false_iff.2 hw]; simp [hd])] at he
        refine ⟨_, he, ?_, ?_, fun _ => logged_of_start (logged_log _ _) rfl rfl, fun h => absurd h hw⟩
        · rw [State.devEvent, State.log_clr]
          exact h1.2 hd
        · rw [State.devEvent, State.log_clr]
          exact h2.2 (by omega)
    · rw [if_neg (by simp [Int.not_le.2 hd'])] at he
      exact ⟨_, he, fun h => absurd (h1.1 h) (by omega), h2.2 hd, h3⟩
    · have hn : ¬ 95 ≤ degC := by omega
      rw [if_neg (by simp [hn])] at he
      exact ⟨_, he, fun h => absurd (h1.1 h) hn, fun h => absurd (h2.1 h) (by omega), h3⟩
  · intro r s b n hr
    have hg := execCellarFillGo_may hr
    have hh := execCellarFillHalt_may hr
    have hal (hb : b % 128 = 0) (hn : n % 128 = 0) : ¬ (b % 128 ≠ 0 || n % 128 ≠ 0) = true := by
      rw [hb, hn]
      decide
    refine ⟨fun hf hb hn => ?_, fun hf hb => ?_, fun hf => ?_, fun hf => ?_, fun hf => ?_⟩
    · rw [State.fillGo, hf, if_neg (by decide), State.startFill, if_neg (hal hb hn)] at hg
      exact ⟨_, hg, rfl, only_clr _⟩
    · rw [State.fillGo, hf, if_neg (by decide), State.startFill, if_pos (by simpa [b, n] using hb)] at hg
      refine ⟨_, hg, ?_, only_clr _⟩
      rw [State.endFill, ← hf]
      rfl
    · rw [State.fillGo, if_pos (Option.isSome_iff_ne_none.2 hf)] at hg
      exact hg
    · obtain ⟨f, hf'⟩ := Option.ne_none_iff_exists'.1 hf
      rw [State.haltFill, hf'] at hh
      exact ⟨_, hh, rfl, rfl, rfl⟩
    · rw [State.haltFill, hf] at hh
      exact hh
  · intro f s e u hk hf
    refine ⟨u.endFill e, ?_, rfl, rfl, only_clr _⟩
    rw [exec, execCellarFillDone, hk, hf]
  · intro f l s hk
    obtain ⟨h1, h2, h3⟩ := s.killFill_spec f
    refine ⟨s.killFill f, ?_, h1.trans (by rw [hk]; rfl), h2, h3⟩
    rw [exec, execCellarFillDone, hk]

/-! ### A filled line -/

/-- Settles O36, from the line's bytes on the DRAM. -/
theorem filledLine : Obligations.FilledLine := by
  intro s l v bs hl
  have hp : padTo 128 bs = bs := by
    rw [padTo, hl, List.take_of_length_le (by omega)]
    simp
  have hm : (s.fillLine l v bs).mem = (s.setBytes (l * 128) bs).mem := by
    have hput : (s.putLine l v bs false).mem = (s.setBytes (l * 128) bs).mem := by
      rw [State.putLine, hp]
    unfold State.fillLine
    extract_lets t
    split
    · exact hput
    · extract_lets st
      split <;> exact hput
  refine ⟨?_, fun a ha => ?_⟩
  · have h := State.bytes_setBytes s (l * 128) bs
    rw [hl] at h
    refine Eq.trans ?_ h
    simp only [State.bytes, State.byte, hm]
  · rw [State.byte, hm]
    exact State.byte_setBytes_out s (l * 128) bs a (by rw [hl]; exact ha)

end Sys2Proof.Machine
end

section
set_option Elab.async false
/-! What leaves the ports that are not UP as they are. -/

namespace Sys2Proof.Machine
open Sys2Proof
variable {s₀ s t u : State}

/-- A port that is not UP stays as it is. -/
def DownHeld (s t : State) : Prop :=
  ∀ p, (s.port p).st ≠ .up → t.port p = s.port p

theorem DownHeld.refl (s : State) : DownHeld s s := fun _ _ => rfl

theorem DownHeld.of_ports (hk : DownHeld s₀ s) (e : t.tch.ports = s.tch.ports) : DownHeld s₀ t := by
  unfold DownHeld State.port at *
  rwa [e]

theorem DownHeld.of_eq (hk : DownHeld s₀ s) (e : t.tch = s.tch) : DownHeld s₀ t := hk.of_ports (by rw [e])

theorem DownHeld.fields (hk : DownHeld s₀ s) {a1 a2 a3 a4 a5 a6 a7 a8 a9 a10 a11 a12 a13 a14 a15 a16 a17 a18 a19 a20 a21}
    (e : a12.ports = s.tch.ports) :
    DownHeld s₀ (State.mk a1 a2 a3 a4 a5 a6 a7 a8 a9 a10 a11 a12 a13 a14 a15 a16 a17 a18 a19 a20 a21) := hk.of_ports e

theorem DownHeld.others (hk : DownHeld s₀ s) {a1 a2 a3 a4 a5 a6 a7 a8 a9 a10 a11 a13 a14 a15 a16 a17 a18 a19 a20 a21} :
    DownHeld s₀ (State.mk a1 a2 a3 a4 a5 a6 a7 a8 a9 a10 a11 s.tch a13 a14 a15 a16 a17 a18 a19 a20 a21) := hk.of_eq rfl

theorem DownHeld.each {α : Type} (hk : DownHeld s₀ s) (l : List α) (f : State → α → State)
    (hf : ∀ t x, DownHeld s₀ t → DownHeld s₀ (f t x)) : DownHeld s₀ (s.each l f) := State.each_inv s (DownHeld s₀) l f hf hk

theorem DownHeld.foldl {α : Type} (hk : DownHeld s₀ s) (l : List α) (f : State → α → State)
    (hf : ∀ t x, DownHeld s₀ t → DownHeld s₀ (f t x)) : DownHeld s₀ (l.foldl f s) := hk.each l f hf

theorem DownHeld.log (hk : DownHeld s₀ s) (e : Event) : DownHeld s₀ (s.log e) := hk.of_eq (State.log_tch s e)

theorem DownHeld.setBytes (hk : DownHeld s₀ s) (a : Nat) (bs : List Byte) : DownHeld s₀ (s.setBytes a bs) :=
  hk.of_eq (State.setBytes_tch s a bs)

/-- Only a port that is UP loads a packet. -/
theorem DownHeld.sendPacket (hk : DownHeld s₀ s) (p : Nat) (k : Packet) : DownHeld s₀ (s.sendPacket p k) := by
  unfold State.sendPacket
  by_cases h : (s.port p).st = .up
  · rw [if_pos h]
    refine DownHeld.each ?_ _ _ (fun t f ht => ht.of_eq rfl)
    intro q hq
    have hs := hk q hq
    have hne : q ≠ p := by
      rintro rfl
      exact hq (by rw [← hs]; exact h)
    rw [State.port_modPort_ne _ _ hne]
    exact hs
  · rwa [if_neg h]

theorem DownHeld.setRg (hk : DownHeld s₀ s) (n : RegName) (c i j : Nat) (v : W32) : DownHeld s₀ (s.setRg n c i j v) := by
  unfold State.setRg
  grind [DownHeld.fields, DownHeld.others]

theorem DownHeld.setRgHi (hk : DownHeld s₀ s) (n : RegName) (c i j : Nat) (v : W32) : DownHeld s₀ (s.setRgHi n c i j v) := by
  unfold State.setRgHi
  grind [DownHeld.fields, DownHeld.others]

theorem DownHeld.setRg64 (hk : DownHeld s₀ s) (n : RegName) (c i j v : Nat) : DownHeld s₀ (s.setRg64 n c i j v) := by
  unfold State.setRg64
  grind [DownHeld.fields, DownHeld.others, DownHeld.setRg, DownHeld.setRgHi]

theorem DownHeld.count (hk : DownHeld s₀ s) (n : RegName) (c i k : Nat) : DownHeld s₀ (s.count n c i k) := by
  unfold State.count
  grind [DownHeld.fields, DownHeld.others, DownHeld.setRg]

theorem DownHeld.setCore (hk : DownHeld s₀ s) (c : Nat) (x : Core) : DownHeld s₀ (s.setCore c x) := by
  unfold State.setCore
  grind [DownHeld.fields, DownHeld.others]

theorem DownHeld.modCore (hk : DownHeld s₀ s) (c : Nat) (f : Core → Core) : DownHeld s₀ (s.modCore c f) := by
  unfold State.modCore
  grind [DownHeld.fields, DownHeld.others, DownHeld.setCore]

theorem DownHeld.modTile (hk : DownHeld s₀ s) (c h : Nat) (f : Tile → Tile) : DownHeld s₀ (s.modTile c h f) := by
  unfold State.modTile
  grind [DownHeld.fields, DownHeld.others, DownHeld.modCore]

theorem DownHeld.modSeq (hk : DownHeld s₀ s) (c : Nat) (f : Seq → Seq) : DownHeld s₀ (s.modSeq c f) := by
  unfold State.modSeq
  grind [DownHeld.fields, DownHeld.others, DownHeld.modCore]

theorem DownHeld.modArr (hk : DownHeld s₀ s) (c : Nat) (f : Arr → Arr) : DownHeld s₀ (s.modArr c f) := by
  unfold State.modArr
  grind [DownHeld.fields, DownHeld.others, DownHeld.modCore]

theorem DownHeld.modChan (hk : DownHeld s₀ s) (c ch : Nat) (f : Chan → Chan) : DownHeld s₀ (s.modChan c ch f) := by
  unfold State.modChan
  grind [DownHeld.fields, DownHeld.others, DownHeld.modCore]

theorem DownHeld.setSlot (hk : DownHeld s₀ s) (c n : Nat) (x : Slot) : DownHeld s₀ (s.setSlot c n x) := by
  unfold State.setSlot
  grind [DownHeld.fields, DownHeld.others, DownHeld.modCore]

theorem DownHeld.modDisp (hk : DownHeld s₀ s) (d : Nat) (f : Disp → Disp) : DownHeld s₀ (s.modDisp d f) := by
  unfold State.modDisp
  grind [DownHeld.fields, DownHeld.others]

theorem DownHeld.modGroup (hk : DownHeld s₀ s) (g : Nat) (f : Group → Group) : DownHeld s₀ (s.modGroup g f) := by
  unfold State.modGroup
  grind [DownHeld.fields, DownHeld.others]

theorem DownHeld.setSpad (hk : DownHeld s₀ s) (c off : Nat) (bs : List Byte) : DownHeld s₀ (s.setSpad c off bs) := by
  unfold State.setSpad
  grind [DownHeld.fields, DownHeld.others, DownHeld.setBytes]

theorem DownHeld.groupAct (hk : DownHeld s₀ s) (g j n : Nat) : DownHeld s₀ (s.groupAct g j n) := by
  unfold State.groupAct
  grind [DownHeld.fields, DownHeld.others]

theorem DownHeld.groupSend (hk : DownHeld s₀ s) (g p : Nat) (k : Packet) : DownHeld s₀ (s.groupSend g p k) := by
  unfold State.groupSend
  grind [DownHeld.fields, DownHeld.others, DownHeld.groupAct, DownHeld.sendPacket]

theorem DownHeld.toParent (hk : DownHeld s₀ s) (g : Nat) (k : Packet) : DownHeld s₀ (s.toParent g k) := by
  unfold State.toParent
  grind [DownHeld.fields, DownHeld.others, DownHeld.groupSend]

theorem DownHeld.toKids (hk : DownHeld s₀ s) (g : Nat) (k : Packet) : DownHeld s₀ (s.toKids g k) := by
  unfold State.toKids
  grind [DownHeld.fields, DownHeld.others, DownHeld.each, DownHeld.groupSend]

theorem DownHeld.slotRelease (hk : DownHeld s₀ s) (c n cls : Nat) : DownHeld s₀ (s.slotRelease c n cls) := by
  unfold State.slotRelease
  grind [DownHeld.fields, DownHeld.others, DownHeld.setSlot]

theorem DownHeld.writeRd (hk : DownHeld s₀ s) (c : Nat) : DownHeld s₀ (s.writeRd c) := by
  unfold State.writeRd
  grind [DownHeld.fields, DownHeld.others, DownHeld.setSpad]

theorem DownHeld.setRd (hk : DownHeld s₀ s) (c i : Nat) : DownHeld s₀ (s.setRd c i) := by
  unfold State.setRd
  grind [DownHeld.fields, DownHeld.others, DownHeld.modSeq, DownHeld.writeRd]

theorem DownHeld.seqDoneAt (hk : DownHeld s₀ s) (c i : Nat) : DownHeld s₀ (s.seqDoneAt c i) := by
  unfold State.seqDoneAt
  grind [DownHeld.fields, DownHeld.others, DownHeld.setRd, DownHeld.modSeq]

theorem DownHeld.seqDone (hk : DownHeld s₀ s) (c : Nat) : DownHeld s₀ (s.seqDone c) := by
  unfold State.seqDone
  grind [DownHeld.fields, DownHeld.others, DownHeld.seqDoneAt]

theorem DownHeld.setScalar (hk : DownHeld s₀ s) (c n v : Nat) : DownHeld s₀ (s.setScalar c n v) := by
  unfold State.setScalar
  grind [DownHeld.fields, DownHeld.others, DownHeld.setRg64]

theorem DownHeld.closeClaim (hk : DownHeld s₀ s) (x : Claim) : DownHeld s₀ (s.closeClaim x) := by
  unfold State.closeClaim
  grind [DownHeld.fields, DownHeld.others]

theorem DownHeld.settle (hk : DownHeld s₀ s) (d : Nat) : DownHeld s₀ (s.settle d) := by
  unfold State.settle
  grind [DownHeld.fields, DownHeld.others, DownHeld.modDisp]

theorem DownHeld.endClaim (hk : DownHeld s₀ s) (c d tile epoch : Nat) : DownHeld s₀ (s.endClaim c d tile epoch) := by
  unfold State.endClaim
  grind [DownHeld.fields, DownHeld.others, DownHeld.closeClaim, DownHeld.settle]

theorem DownHeld.flagTile (hk : DownHeld s₀ s) (c h : Nat) (l : List Nat) : DownHeld s₀ (s.flagTile c h l) := by
  unfold State.flagTile
  grind [DownHeld.fields, DownHeld.others, DownHeld.modTile]

theorem DownHeld.unstall (hk : DownHeld s₀ s) (c : Nat) (p : StallBy → Bool) : DownHeld s₀ (s.unstall c p) := by
  unfold State.unstall
  grind [DownHeld.fields, DownHeld.others, DownHeld.modCore]

theorem DownHeld.chanHalt (hk : DownHeld s₀ s) (c ch err : Nat) : DownHeld s₀ (s.chanHalt c ch err) := by
  unfold State.chanHalt
  grind [DownHeld.fields, DownHeld.others, DownHeld.modChan, DownHeld.unstall, DownHeld.count]

theorem DownHeld.arrKick (hk : DownHeld s₀ s) (c : Nat) : DownHeld s₀ (s.arrKick c) := by
  unfold State.arrKick
  grind [DownHeld.fields, DownHeld.others, DownHeld.modTile]

theorem DownHeld.arrLeave (hk : DownHeld s₀ s) (c : Nat) : DownHeld s₀ (s.arrLeave c) := by
  unfold State.arrLeave
  grind [DownHeld.fields, DownHeld.others, DownHeld.modArr, DownHeld.arrKick]

theorem DownHeld.arrDrop (hk : DownHeld s₀ s) (c h : Nat) : DownHeld s₀ (s.arrDrop c h) := by
  unfold State.arrDrop
  grind [DownHeld.fields, DownHeld.others, DownHeld.modArr, DownHeld.arrLeave]

theorem DownHeld.dropWork (hk : DownHeld s₀ s) (c h : Nat) : DownHeld s₀ (s.dropWork c h) := by
  unfold State.dropWork
  grind [DownHeld.fields, DownHeld.others, DownHeld.modCore, DownHeld.arrDrop]

theorem DownHeld.releaseSlots (hk : DownHeld s₀ s) (c h : Nat) : DownHeld s₀ (s.releaseSlots c h) := by
  unfold State.releaseSlots
  exact (hk.each _ _ fun t n h => h.slotRelease _ _ _).each _ _ fun t n h => h.slotRelease _ _ _

theorem DownHeld.abortChans (hk : DownHeld s₀ s) (c h : Nat) : DownHeld s₀ (s.abortChans c h) := by
  unfold State.abortChans
  grind [DownHeld.fields, DownHeld.others, DownHeld.each, DownHeld.chanHalt]

theorem DownHeld.freeTile (hk : DownHeld s₀ s) (c h : Nat) : DownHeld s₀ (s.freeTile c h) := by
  unfold State.freeTile
  grind [DownHeld.fields, DownHeld.others, DownHeld.dropWork, DownHeld.unstall, DownHeld.modTile, DownHeld.modSeq]

theorem DownHeld.abortWait (hk : DownHeld s₀ s) (c h : Nat) (tsw : W32) : DownHeld s₀ (s.abortWait c h tsw) := by
  unfold State.abortWait
  grind [DownHeld.fields, DownHeld.others, DownHeld.setScalar, DownHeld.seqDone]

theorem DownHeld.abortTile (hk : DownHeld s₀ s) (c h : Nat) : DownHeld s₀ (s.abortTile c h) := by
  unfold State.abortTile
  grind (gen := 40) (ematch := 40) [DownHeld.fields, DownHeld.others, DownHeld.flagTile, DownHeld.releaseSlots, DownHeld.abortChans,
    DownHeld.abortWait, DownHeld.freeTile]

theorem DownHeld.endTile (hk : DownHeld s₀ s) (c h : Nat) : DownHeld s₀ (s.endTile c h) := by
  unfold State.endTile
  grind [DownHeld.fields, DownHeld.others, DownHeld.endClaim, DownHeld.abortTile]

theorem DownHeld.groupEvent (hk : DownHeld s₀ s) (g code cls detail tile : Nat)
    : DownHeld s₀ (s.groupEvent g code cls detail tile) := by
  unfold State.groupEvent
  grind [DownHeld.fields, DownHeld.others, DownHeld.log]

theorem DownHeld.endRounds (hk : DownHeld s₀ s) (g cause : Nat) (doubt : Bool) : DownHeld s₀ (s.endRounds g cause doubt) := by
  unfold State.endRounds
  grind [DownHeld.fields, DownHeld.others, DownHeld.endTile, DownHeld.groupEvent, DownHeld.modGroup, DownHeld.foldl]

theorem DownHeld.sendAbort (hk : DownHeld s₀ s) (g cause : Nat) : DownHeld s₀ (s.sendAbort g cause) := by
  unfold State.sendAbort
  grind [DownHeld.fields, DownHeld.others, DownHeld.toKids, DownHeld.toParent]

theorem DownHeld.abortGroup (hk : DownHeld s₀ s) (g cause : Nat) (doubt : Bool) : DownHeld s₀ (s.abortGroup g cause doubt) := by
  unfold State.abortGroup
  grind [DownHeld.fields, DownHeld.others, DownHeld.sendAbort, DownHeld.endRounds]

theorem DownHeld.linkGroup (hk : DownHeld s₀ s) (g p : Nat) : DownHeld s₀ (s.linkGroup g p) := by
  unfold State.linkGroup
  grind [DownHeld.fields, DownHeld.others, DownHeld.abortGroup]

end Sys2Proof.Machine
end

section
set_option Elab.async false
/-! The Tchiuth links: flits, retries, training and the loss of a link (R414 to R417). -/

namespace Sys2Proof.Machine
open Sys2Proof
variable {s t : State}

/-! ### Acknowledgements -/

/-- Bit 33 of a flit, its NAK, is what the sender was given. -/
theorem testBit_mkFlit_nak (fseq ackseq : Nat) (ackv nak : Bool) (first : Nat) (stream : List Byte) :
    (leAt (mkFlit fseq ackseq ackv nak first stream) 0 8).testBit 33 = nak := by
  have header (w : Nat) (l : List Byte) : (leAt (toLe 8 w ++ l) 0 8).testBit 33 = w.testBit 33 := by
    have hlen : (8 * 0 + 33) / 8 < (toLe 8 w).length := by rw [toLe_length]; decide
    rw [testBit_leAt _ _ _ _ (by decide), List.getD_eq_getElem?_getD, List.getElem?_append_left hlen,
      ← List.getD_eq_getElem?_getD]
    exact getLsbD_toLe 8 w 33 (by decide)
  unfold mkFlit
  extract_lets body
  rw [List.append_assoc, header]
  have hn : b2n nak < 2 := by cases nak <;> decide
  have hbit : decide (b2n nak = 1) = nak := by cases nak <;> rfl
  rw [Nat.testBit_eq_decide_div_mod_eq]
  refine (decide_eq_decide.mpr ?_).trans hbit
  simp only [pack]
  omega

theorem State.sendAck_spec (p : Nat) (nak : Bool) : ∃ f, s.sendAck p nak = s.send (.flit p f) ∧ (leAt f 0 8).testBit 33 = nak :=
  ⟨_, rfl, testBit_mkFlit_nak ..⟩

/-- A flit with an error is counted and answered by a NAK. -/
theorem State.badFlit_spec (n : RegName) (p : Nat) :
    ∃ f, counted n 0 p 1 s ((s.count n 0 p 1).sendAck p true) ∧
      ((s.count n 0 p 1).sendAck p true).outbox = s.outbox ++ [.flit p f] ∧ (leAt f 0 8).testBit 33 = true ∧
      only [.regs, .outbox] s ((s.count n 0 p 1).sendAck p true) := by
  obtain ⟨f, hf, hbit⟩ := (s.count n 0 p 1).sendAck_spec p true
  rw [hf]
  exact ⟨f, State.rg_count_self s n 0 p 1, rfl, hbit, ((only.refl _ s).count (by simp) _ _ _ _).send (by simp) _⟩

/-! ### Flits in order and out of order -/

/-- What a flit without error does to its port before its sequence number is looked at. -/
def Port.heard (x : Port) (w : Nat) : Port :=
  let y := if w.testBit 32 then x.acked (bits w 16 16) else x
  { y with credits := Sparse.upd 0 y.credits (bits w 42 3) (· + bits w 45 12) }

/-- An acknowledgement takes flits from those kept and changes nothing else. -/
theorem Port.acked_spec (x : Port) (n : Nat) : ∃ l, x.acked n = { x with unacked := l } := by
  unfold Port.acked
  split
  · exact ⟨_, rfl⟩
  · exact ⟨_, rfl⟩

theorem Port.heard_spec (x : Port) (w : Nat) :
    (x.heard w).st = x.st ∧ (x.heard w).rxSeq = x.rxSeq ∧ (x.heard w).rxq = x.rxq ∧ (x.heard w).rxBuf = x.rxBuf := by
  obtain ⟨l, hl⟩ := x.acked_spec (bits w 16 16)
  unfold Port.heard
  rw [hl]
  split <;> exact ⟨rfl, rfl, rfl, rfl⟩

/-- A flit of no NAK with another number than the one expected is heard and not taken. -/
theorem State.goodFlit_apart (p : Nat) (flit : List Byte) (hnak : (leAt flit 0 8).testBit 33 = false)
    (hseq : bits (leAt flit 0 8) 0 16 ≠ (s.port p).rxSeq) :
    s.goodFlit p flit = s.modPort p (·.heard (leAt flit 0 8)) := by
  unfold State.goodFlit
  extract_lets w ackv s1 s2 x
  have h2 : s2 = s.modPort p (·.heard (leAt flit 0 8)) := if_neg (by simp [w, hnak])
  rw [if_neg, h2]
  intro h
  rw [Bool.and_eq_true, decide_eq_true_eq, decide_eq_true_eq] at h
  apply hseq
  rw [h.2]
  simp only [x, h2, State.port_modPort_self]
  exact ((s.port p).heard_spec _).2.1

theorem only.packetIn {ps : List Part} {s₀ : State} (hk : only ps s₀ s) (m1 : Part.tch ∈ ps) (m2 : Part.regs ∈ ps) (p : Nat)
    (h payload : List Byte) : only ps s₀ (s.packetIn p h payload) := by
  unfold State.packetIn
  extract_lets k
  split
  · exact hk.modPort m1 _ _
  · exact hk.count m2 _ _ _ _

/-- A packet that reaches the packet layer leaves the number expected and what is sent. -/
theorem State.packetIn_spec (p : Nat) (h payload : List Byte) :
    ((s.packetIn p h payload).port p).rxSeq = (s.port p).rxSeq ∧ ((s.packetIn p h payload).port p).rxAny = (s.port p).rxAny ∧
      (s.packetIn p h payload).outbox = s.outbox := by
  unfold State.packetIn
  extract_lets k
  split
  · rw [State.port_modPort_self]
    exact ⟨rfl, rfl, rfl⟩
  · exact ⟨rfl, rfl, rfl⟩

/-- A flit of no NAK that comes in order is taken and acknowledged. -/
theorem State.goodFlit_inOrder (p : Nat) (flit : List Byte) (hup : (s.port p).st = .up) (hnak : (leAt flit 0 8).testBit 33 = false)
    (hseq : bits (leAt flit 0 8) 0 16 = (s.port p).rxSeq) :
    ∃ f, ((s.goodFlit p flit).port p).rxSeq = ((s.port p).rxSeq + 1) % 65536 ∧ ((s.goodFlit p flit).port p).rxAny = true ∧
      (s.goodFlit p flit).outbox = s.outbox ++ [.flit p f] ∧ (leAt f 0 8).testBit 33 = false ∧
      only [.tch, .regs, .outbox] s (s.goodFlit p flit) := by
  unfold State.goodFlit
  extract_lets w ackv s1 s2 x y t
  have h2 : s2 = s.modPort p (·.heard (leAt flit 0 8)) := if_neg (by simp [w, hnak])
  have hx : x = (s.port p).heard (leAt flit 0 8) := by
    simp only [x, h2, State.port_modPort_self]
  obtain ⟨hst, hrx, -, -⟩ := (s.port p).heard_spec (leAt flit 0 8)
  rw [if_pos (by simp [hx, hst, hup, hrx, w, hseq])]
  have ht : (t.port p).rxSeq = ((s.port p).rxSeq + 1) % 65536 ∧ (t.port p).rxAny = true ∧ t.outbox = s.outbox ∧
      only [.tch, .regs, .outbox] s t := by
    simp only [t]
    rw [State.port_modPort_self]
    refine ⟨?_, rfl, by rw [h2]; rfl, ?_⟩
    · change (x.rxSeq + 1) % 65536 = _
      rw [hx, hrx]
    · rw [h2]
      exact ((only.refl _ s).modPort (by simp) _ _).modPort (by simp) _ _
  clear_value t y
  have hin := State.each_inv t (fun u => (u.port p).rxSeq = ((s.port p).rxSeq + 1) % 65536 ∧ (u.port p).rxAny = true ∧
    u.outbox = s.outbox ∧ only [.tch, .regs, .outbox] s u) y.1 (fun u k => u.packetIn p k.1 k.2) (fun u k hu => by
      obtain ⟨e1, e2, e3⟩ := u.packetIn_spec p k.1 k.2
      rw [e1, e2, e3]
      exact ⟨hu.1, hu.2.1, hu.2.2.1, only.packetIn hu.2.2.2 (by simp) (by simp) _ _ _⟩) ht
  obtain ⟨hseq', hany, hout, honly⟩ := hin
  obtain ⟨f, hf, hbit⟩ := (t.each y.1 (fun u k => u.packetIn p k.1 k.2)).sendAck_spec p false
  rw [hf]
  refine ⟨f, hseq', hany, ?_, hbit, honly.send (by simp) _⟩
  change _ ++ _ = _
  rw [hout]

/-! ### Flits received -/

section
variable (p : PortId) (flit : List Byte) (hlen : flit.length = 256) (hup : (s.port p.val).st = .up)
include hlen hup

theorem execFlitReceive_uncorrectable :
    exec (.flitReceive p flit false true) s = .next ((s.count .tchFecunc 0 p.val 1).sendAck p.val true) := by
  rw [exec, execFlitReceive, if_neg (by simp [hlen]), if_neg (by simp [hup])]
  rfl

theorem execFlitReceive_crc (h : crc32 (flit.take 252) ≠ leAt flit 252 4) :
    exec (.flitReceive p flit false false) s = .next ((s.count .tchCrcerr 0 p.val 1).sendAck p.val true) := by
  rw [exec, execFlitReceive, if_neg (by simp [hlen]), if_neg (by simp [hup])]
  simp [h]

theorem execFlitReceive_good (h : crc32 (flit.take 252) = leAt flit 252 4) :
    exec (.flitReceive p flit false false) s = .next (s.goodFlit p.val flit) := by
  rw [exec, execFlitReceive, if_neg (by simp [hlen]), if_neg (by simp [hup])]
  simp [h]

end

/-! ### Retries -/

/-- Flits sent over a port join what is sent, and nothing else changes. -/
theorem State.each_send_spec {α : Type} (l : List α) (f : α → Out) :
    (s.each l (fun u x => u.send (f x))).outbox = s.outbox ++ l.map f ∧
      (s.each l (fun u x => u.send (f x))).tch = s.tch ∧ (s.each l (fun u x => u.send (f x))).regs = s.regs := by
  induction l generalizing s with
  | nil => exact ⟨(List.append_nil _).symm, rfl, rfl⟩
  | cons x l ih =>
    obtain ⟨h1, h2, h3⟩ := ih (s := s.send (f x))
    refine ⟨?_, h2, h3⟩
    rw [State.each_cons, h1, List.map_cons, State.send, List.append_assoc]
    rfl

/-- No flit sent 8 times: every kept one is sent once more. -/
theorem State.resend_spec (p : Nat) (h : ∀ f ∈ (s.port p).unacked, f.sent < 8) :
    ((s.resend p).port p).unacked = (s.port p).unacked.map (fun f => { f with sent := f.sent + 1 }) ∧
      (s.resend p).outbox = s.outbox ++ (s.port p).unacked.map (fun f => .flit p f.bytes) ∧
      counted .tchRetry 0 p (s.port p).unacked.length s (s.resend p) ∧ only [.tch, .regs, .outbox] s (s.resend p) := by
  unfold State.resend
  extract_lets fl t
  rw [if_neg (by simpa [fl, Nat.not_le] using h)]
  have ht : (t.port p).unacked = fl.map (fun f => { f with sent := f.sent + 1 }) ∧ t.outbox = s.outbox ∧
      counted .tchRetry 0 p fl.length s t ∧ only [.tch, .regs, .outbox] s t := by
    refine ⟨?_, rfl, State.rg_count_self _ .tchRetry 0 p _, ((only.refl _ s).modPort (by simp) _ _).count (by simp) _ _ _ _⟩
    simp only [t, State.port_count, State.port_modPort_self, fl]
  clear_value t
  obtain ⟨hun, hout, hcnt, honly⟩ := ht
  obtain ⟨eo, et, er⟩ := State.each_send_spec (s := t) fl (fun f => .flit p f.bytes)
  have hport : (t.each fl (fun u f => u.send (.flit p f.bytes))).port p = t.port p := by
    rw [State.port, et]
    rfl
  refine ⟨by rw [hport, hun], by rw [eo, hout], counted_of_regs_eq hcnt er, only.each honly _ _ (fun u f hu => hu.send (by simp) _)⟩

/-- A port that has gone down: what it kept is lost, but for the packets that it has acknowledged (R417). -/
def Port.lost (x : Port) (err : Nat) (tout : PortSt) : Port :=
  { st := tout, err := err, peer := x.peer, peerPort := x.peerPort, rtt := x.rtt, tries := x.tries, rxq := x.rxq }

/-- A port that goes down is as it went down whatever its groups do. -/
theorem State.port_portDown (p err : Nat) (tout : PortSt) (h : tout ≠ .up) :
    (s.portDown p err tout).port p =
      (s.port p).lost err tout := by
  unfold State.portDown
  extract_lets was t u
  have ht : t.port p = (s.port p).lost err tout := by
    simp only [t, State.port_modPort_self]
    rfl
  have hdown : DownHeld t u := ((DownHeld.refl t).count _ _ _ _).log _
  clear_value u t
  split
  · rw [← ht]
    exact (hdown.each _ _ (fun v g hv => hv.linkGroup g p)) p (by rw [ht]; exact h)
  · exact ht

theorem execFlitRetryTimeout_resends (p : PortId) (hup : (s.port p.val).st = .up) (h : (s.port p.val).unacked ≠ []) :
    exec (.flitRetryTimeout p) s = .next (s.resend p.val) := by
  rw [exec, execFlitRetryTimeout, if_pos (by simp [hup, h])]

/-! ### Training -/

theorem State.port_portTrain (p : Nat) (h : flag (s.portCfg p) 7 = true) :
    ((s.portTrain p).port p).st = .training ∧ ((s.portTrain p).port p).tries = 0 ∧ ((s.portTrain p).port p).err = 0 := by
  unfold State.portTrain
  extract_lets t
  have ht : (t.port p).st = .training ∧ (t.port p).err = 0 := by
    simp only [t, if_pos h]
    rw [State.port_portDown p 0 .training (by decide)]
    exact ⟨rfl, rfl⟩
  clear_value t
  rw [State.port_modPort_self]
  exact ⟨ht.1, rfl, ht.2⟩

/-- A link that trains as the image says comes UP. -/
theorem execTchTrainDone_up (p : PortId) (peer : Fin 4096) (port : Fin 8) (topo : BitVec 12) (rtt : Nat)
    (hst : (s.port p.val).st = .training) (h : s.trainErr p.val peer.val port.val topo.toNat rtt = 0) :
    exec (.tchTrainDone p (.up peer port topo rtt)) s =
      .next (((s.modPort p.val (fun x => { x with peer := peer.val, peerPort := port.val, rtt := min rtt 511 })).modPort p.val
        (fun x => { x with st := .up, err := 0, tries := 0 })).log
          { code := 0x0801, cls := 0, part := s.portPart p.val, detail := p.val }) := by
  rw [exec, execTchTrainDone]
  rw [if_neg (by simp [hst])]
  extract_lets s1
  have h1 : s1.trainErr p.val peer.val port.val topo.toNat rtt = 0 := h
  simp only [h1]
  rfl

theorem execTchTrainDone_phyFail (p : PortId) (hst : (s.port p.val).st = .training) :
    exec (.tchTrainDone p .phyFail) s = .next (s.trainFail p.val 1) := by
  rw [exec, execTchTrainDone]
  rw [if_neg (by simp [hst])]

/-! ### The loss of a link -/

theorem tchDown_apart (p : PortId) : ∀ m ∈ logCounters, regAddr .tchDown 0 p.val 0 ≠ regAddr m 0 0 0 := by
  revert p
  decide

/-- A link that is lost is counted and raised; with no reduction group nothing else hangs on it. -/
theorem State.portDown_lost (p : PortId) (hup : (s.port p.val).st = .up) (hg : s.tch.groups = []) :
    counted .tchDown 0 p.val 1 s (s.portDown p.val 1 .down) ∧
      logged { code := 0x0802, cls := 2, part := s.portPart p.val, detail := p.val + 8 } s (s.portDown p.val 1 .down) := by
  unfold State.portDown
  extract_lets was t u
  have hdetail : pack [(3, p.val), (3, 1)] = p.val + 8 := by
    have hp := p.isLt
    simp only [pack]
    omega
  have hgroups : u.tch.groups = [] := by
    simp only [u, State.log_tch]
    exact hg
  rw [if_pos (by simp only [was]; exact hup), hgroups]
  change counted .tchDown 0 p.val 1 s u ∧ logged _ s u
  simp only [u, hdetail]
  constructor
  · rw [counted, State.rg_log _ (tchDown_apart p), State.rg_count_self]
    rfl
  · exact logged_of_start (logged_log _ _) rfl rfl

/-- Settles O37, by the flit's number and check, the flits kept, and what a port that goes down leaves. -/
theorem linkCommands : Obligations.LinkCommands := by
  unfold Obligations.LinkCommands
  refine ⟨fun p flit s hlen hup => ⟨?_, fun hcrc => ?_, fun hcrc hnak => ⟨fun hseq => ?_, fun hseq => ?_⟩⟩,
    fun p s hup hun => ⟨fun h => ?_, fun h => ?_⟩, fun r p s hmay => ⟨fun hen => ?_, ?_⟩, fun p peer port topo rtt s hst h => ?_,
    fun p s hst => ?_, fun p s hup => ?_⟩
  · obtain ⟨f, h⟩ := s.badFlit_spec .tchFecunc p.val
    exact ⟨_, f, execFlitReceive_uncorrectable p flit hlen hup, h⟩
  · obtain ⟨f, h⟩ := s.badFlit_spec .tchCrcerr p.val
    exact ⟨_, f, execFlitReceive_crc p flit hlen hup hcrc, h⟩
  · obtain ⟨f, h⟩ := s.goodFlit_inOrder p.val flit hup hnak hseq
    exact ⟨_, f, execFlitReceive_good p flit hlen hup hcrc, h⟩
  · obtain ⟨-, hrx, hrxq, hbuf⟩ := (s.port p.val).heard_spec (leAt flit 0 8)
    refine ⟨_, execFlitReceive_good p flit hlen hup hcrc, ?_⟩
    rw [s.goodFlit_apart p.val flit hnak hseq, State.port_modPort_self]
    exact ⟨hrx, hrxq, hbuf, (only.refl _ s).modPort (by simp) _ _⟩
  · exact ⟨_, execFlitRetryTimeout_resends p hup hun, s.resend_spec p.val h⟩
  · refine ⟨_, execFlitRetryTimeout_resends p hup hun, ?_⟩
    rw [State.resend, if_pos (by simpa using h), State.port_portDown p.val 5 .training (by decide)]
    exact ⟨rfl, rfl⟩
  · refine ⟨_, ?_, s.port_portTrain p.val hen⟩
    rw [exec, execTchRetrain, State.atReg_may _ _ _ _ _ _ hmay]
  · refine ⟨s.portDown p.val 6 .down, ?_, ?_⟩
    · rw [exec, execTchDisable, State.atReg_may _ _ _ _ _ _ hmay]
    · rw [State.port_portDown p.val 6 .down (by decide)]
      exact ⟨rfl, rfl⟩
  · refine ⟨_, execTchTrainDone_up p peer port topo rtt hst h, ?_⟩
    rw [State.port, State.log_tch, ← State.port, State.port_modPort_self, State.port_modPort_self]
    exact ⟨rfl, rfl, rfl, rfl, logged_of_start (logged_log _ _) rfl rfl⟩
  · refine ⟨_, execTchTrainDone_phyFail p hst, ?_, (only.refl _ s).modPort (by simp) _ _⟩
    rw [State.trainFail, State.port_modPort_self]
  · refine ⟨s.portDown p.val 1 .down, ?_, ?_⟩
    · rw [exec, execTchLinkDown, if_pos hup]
    · rw [State.port_portDown p.val 1 .down (by decide)]
      exact ⟨rfl, rfl, rfl, fun hg => s.portDown_lost p hup hg⟩

end Sys2Proof.Machine
end

section
set_option Elab.async false
/-! Accesses from outside to a scratchpad through its windows, and the slots that they fill or release (R273, R274, R285, R361). -/

namespace Sys2Proof.Machine
open Sys2Proof
variable {s t : State} {c off : Nat}

/-! ### Bytes stored and read -/

theorem State.mem_of_only {ps : List Part} (h : only ps s t) (hp : .mem ∉ ps) : t.mem = s.mem := (h .mem).resolve_left hp

theorem State.byte_of_mem_eq (h : t.mem = s.mem) (a : Nat) : t.byte a = s.byte a := by
  rw [State.byte, h, State.byte]

theorem State.spad_of_mem_eq (h : t.mem = s.mem) (c off n : Nat) : t.spad c off n = s.spad c off n := by
  simp only [State.spad, State.bytes, State.byte_of_mem_eq h]

/-- A store within the scratchpad writes its bytes and no other memory. -/
theorem State.mem_store (bs : List Byte) (h : off + bs.length ≤ 0x80000) : (s.store c off bs).mem = (s.setSpad c off bs).mem := by
  unfold State.store
  extract_lets b
  have hb : b = bs := List.take_of_length_le (by omega)
  clear_value b
  subst hb
  exact State.mem_of_only (((only.refl [.cores] _).ringHook (by simp) c off b).wordAct (by simp) c off b.length) (by simp)

/-- The state once a write from outside has been stored. -/
def State.written (s : State) (c off : Nat) (bs : List Byte) : State := ((s.slotTouch c off bs.length true).store c off bs).ungate c

/-- The state once a read from outside has been made. -/
def State.readOut (s : State) (c off n : Nat) : State := ((s.slotTouch c off n false).wordAct c off n).ungate c

theorem State.only_written (bs : List Byte) : only [.mem, .cores, .prc] s (s.written c off bs) :=
  (((only.refl _ s).slotTouch (by simp) _ _ _ _).store (by simp) (by simp) _ _ _).ungate (by simp) _

theorem State.only_readOut (n : Nat) : only [.cores, .prc] s (s.readOut c off n) :=
  (((only.refl _ s).slotTouch (by simp) _ _ _ _).wordAct (by simp) _ _ _).ungate (by simp) _

theorem onlyCore.ungate {k : Nat} {s₀ : State} (hk : onlyCore k s₀ s) (c : Nat) : onlyCore k s₀ (s.ungate c) := by
  intro d hd
  rw [State.core_of_cores_eq (State.ungate_eq c).2.1]
  exact hk d hd

theorem State.onlyCore_written (bs : List Byte) : onlyCore c s (s.written c off bs) :=
  onlyCore.ungate (((onlyCore.refl c s).slotTouch _ _ _).store _ _) c

theorem State.onlyCore_readOut (n : Nat) : onlyCore c s (s.readOut c off n) :=
  onlyCore.ungate (((onlyCore.refl c s).slotTouch _ _ _).wordAct _ _) c

theorem State.mem_written (bs : List Byte) (h : off + bs.length ≤ 0x80000) :
    (s.written c off bs).mem = ((s.slotTouch c off bs.length true).setSpad c off bs).mem := by
  rw [State.written, (State.ungate_eq c).2.2.1, State.mem_store bs h]

/-- What has been written from outside stands in the scratchpad. -/
theorem State.spad_written (bs : List Byte) (h : off + bs.length ≤ 0x80000) : (s.written c off bs).spad c off bs.length = bs := by
  rw [State.spad_of_mem_eq (State.mem_written bs h), State.spad_setSpad]

/-- No byte outside the range changes. -/
theorem State.byte_written (bs : List Byte) (h : off + bs.length ≤ 0x80000) (a : Nat)
    (ha : a < spadBase c + off ∨ spadBase c + off + bs.length ≤ a) : (s.written c off bs).byte a = s.byte a := by
  rw [State.byte_of_mem_eq (State.mem_written bs h), State.setSpad, State.byte_setBytes_out _ _ _ _ ha]
  exact State.byte_of_mem_eq (State.mem_of_only ((only.refl [.cores] s).slotTouch (by simp) _ _ _ _) (by simp)) a

/-! ### Through a window -/

theorem State.spadNo_open {n : Nat} (ho : s.coreOpen c = true) (h : off + n ≤ 0x80000) : s.spadNo c off n = none := by
  rw [State.spadNo, if_pos ho, pastSpad, if_pos h]

section
variable {r : Req} (hr : reqCore r = none) (ho : s.coreOpen c = true)
include hr ho

/-- A write that a window admits and whose slots allow it is stored. -/
theorem State.writeSpad_admitted (bs : List Byte) (hl : off + bs.length ≤ 0x80000) (ha : s.admitted r c off bs.length .wr = true)
    (hs : s.slotCheck c off bs.length true (reqClass r).1 = .ok) : s.writeSpad r c off bs = (.ok, s.written c off bs) := by
  rw [State.writeSpad, State.spadNo_open ho hl]
  simp only [hr, ha, State.writeAtSlots, reduceCtorEq, if_false, hs, State.spadAct, Bool.not_true, ne_eq, Bool.and_false,
    Bool.false_eq_true]
  rfl

/-- A read that a window admits and whose slots allow it returns the bytes. -/
theorem State.readSpad_admitted (n : Nat) (hl : off + n ≤ 0x80000) (ha : s.admitted r c off n .rd = true)
    (hs : s.slotCheck c off n false (reqClass r).2 = .ok) : s.readSpad r c off n = (.ok (s.spad c off n), s.readOut c off n) := by
  rw [State.readSpad, State.spadNo_open ho hl]
  simp only [hr, ha, State.readAtSlots, reduceCtorEq, if_false, hs, State.spadAct, Bool.not_true, ne_eq, Bool.and_false,
    Bool.false_eq_true]
  rfl

theorem State.writeSpad_refused (bs : List Byte) (hl : off + bs.length ≤ 0x80000) (ha : s.admitted r c off bs.length .wr = false) :
    s.writeSpad r c off bs = (.refused (spadBase c + off), s.winRefuse r c off) := by
  rw [State.writeSpad, State.spadNo_open ho hl]
  simp only [hr, ha, Bool.not_false, Bool.and_true, ne_eq, reduceCtorEq, not_false_eq_true, decide_true, if_true]

theorem State.readSpad_refused (n : Nat) (hl : off + n ≤ 0x80000) (ha : s.admitted r c off n .rd = false) :
    s.readSpad r c off n = (.refused (spadBase c + off), s.winRefuse r c off) := by
  rw [State.readSpad, State.spadNo_open ho hl]
  simp only [hr, ha, Bool.not_false, Bool.and_true, ne_eq, reduceCtorEq, not_false_eq_true, decide_true, if_true]

end

/-! ### Packets sent -/

/-- Sending leaves the packets that ports have delivered. -/
theorem State.rxq_sendPacket (q i : Nat) (k : Packet) : ((s.sendPacket q k).port i).rxq = (s.port i).rxq := by
  unfold State.sendPacket
  split
  · rw [State.port, (State.each_send_spec _ _).2.1, ← State.port]
    by_cases h : i = q
    · rw [h, State.port_modPort_self]
      rfl
    · rw [State.port_modPort_ne _ _ h]
  · rfl

/-- The packets that ports have delivered stay. -/
def RxqHeld (s t : State) : Prop := ∀ i, (t.port i).rxq = (s.port i).rxq

theorem State.rxq_groupSend (g q : Nat) (k : Packet) : RxqHeld s (s.groupSend g q k) :=
  fun i => (s.groupAct g 9 (ceilDiv (32 + k.payload.length) 244)).rxq_sendPacket q i k

theorem State.rxq_toKids (g : Nat) (k : Packet) : RxqHeld s (s.toKids g k) := by
  refine State.each_inv s (RxqHeld s) _ _ (fun t x ht i => ?_) (fun _ => rfl)
  exact (State.rxq_groupSend g x.2 _ i).trans (ht i)

theorem State.rxq_toParent (g : Nat) (k : Packet) : RxqHeld s (s.toParent g k) := by
  unfold State.toParent
  extract_lets x
  split
  · exact fun _ => rfl
  · exact State.rxq_groupSend g _ _

/-! ### Slots that are filled or released -/

/-- The barrier of a group at a slot of a core. -/
def State.barrierAt (s : State) (g c n : Nat) : Prop :=
  (s.rg .grpBar 0 g).toNat.testBit 14 = true ∧ bits (s.rg .grpBar 0 g).toNat 0 8 = c ∧ bits (s.rg .grpBar 0 g).toNat 8 6 = n

theorem State.barrierAt_of_barrierOf {g n : Nat} (h : s.barrierOf c n = some g) : s.barrierAt g c n := by
  have := List.find?_some h
  simp only [Bool.and_eq_true, decide_eq_true_eq] at this
  exact ⟨this.1.1.2, this.1.2, this.2⟩

/-- Every member at and below this one, the root, has arrived at a group's barrier (R438). -/
def State.barrierFull (s : State) (g : Nat) : Bool :=
  (s.group g).barLocal && (s.group g).kids.all (fun k => (s.group g).barKids.contains k.1) && !(s.group g).barUp &&
    decide ((s.group g).parent = 0xFFF)

/-- A barrier's step sends its messages, and releases its slot where it is the last member's. -/
theorem State.barrierStep_spec {g n : Nat} (hb : s.barrierAt g c n) :
    ∃ u, only [.outbox, .tch, .mtr] s u ∧ RxqHeld s u ∧ s.barrierStep g = if s.barrierFull g then u.slotRelease c n cRemote else u := by
  obtain ⟨h14, hc, hn⟩ := hb
  unfold State.barrierStep State.barrierFull
  extract_lets x
  by_cases hx : (x.barLocal && x.kids.all (fun k => x.barKids.contains k.1) && !x.barUp) = true
  · rw [if_pos hx]
    by_cases hp : x.parent = 0xFFF
    · rw [if_pos hp]
      refine ⟨(s.modGroup g (fun y => { y with barLocal := false, barKids := [], barUp := false })).toKids g
        (s.groupPacket g tBardown 0 0), ((only.refl _ s).modGroup (by simp) _ _).toKids (by simp) (by simp) (by simp) _ _,
        State.rxq_toKids (s := s.modGroup g (fun y => { y with barLocal := false, barKids := [], barUp := false })) g _, ?_⟩
      rw [State.barrierDown]
      simp only [h14, hc, hn, if_true]
      rw [if_pos]
      exact Bool.and_eq_true_iff.mpr ⟨hx, decide_eq_true hp⟩
    · rw [if_neg hp]
      refine ⟨(s.modGroup g (fun y => { y with barUp := true })).toParent g (s.groupPacket g tBarup 0 0),
        ((only.refl _ s).modGroup (by simp) _ _).toParent (by simp) (by simp) (by simp) _ _,
        State.rxq_toParent (s := s.modGroup g (fun y => { y with barUp := true })) g _, ?_⟩
      rw [if_neg]
      intro h
      exact hp (of_decide_eq_true (Bool.and_eq_true_iff.mp h).2)
  · rw [if_neg hx]
    refine ⟨s, only.refl _ s, fun _ => rfl, ?_⟩
    rw [if_neg]
    intro h
    exact hx (Bool.and_eq_true_iff.mp h).1

theorem onlyCore.slotFull {s₀ : State} (hk : onlyCore c s₀ s) (n : Nat) : onlyCore c s₀ (s.slotFull c n) := by
  unfold State.slotFull
  extract_lets x t
  have ht : onlyCore c s₀ t := hk.setSlot _ _
  clear_value t
  split
  · split
    · next g hg =>
      obtain ⟨u, hu, -, he⟩ := State.barrierStep_spec (s := t.modGroup g (fun y => { y with barLocal := true }))
        (State.barrierAt_of_barrierOf (s := t) hg)
      have hcu : onlyCore c s₀ u := by
        intro d hd
        rw [State.core_of_cores_eq ((hu .cores).resolve_left (by simp))]
        exact ht d hd
      rw [he]
      split
      · exact hcu.slotRelease _ _
      · exact hcu
    · exact ht
  · exact hk

theorem State.rxq_slotRelease (c n cls : Nat) : RxqHeld s (s.slotRelease c n cls) := by
  intro i
  rw [State.port, (((only.refl [.cores] s).slotRelease (by simp) c n cls) .tch).resolve_left (by simp), State.port]

theorem State.rxq_slotFull (c n : Nat) : RxqHeld s (s.slotFull c n) := by
  unfold State.slotFull
  extract_lets x t
  split
  · split
    · next g hg =>
      obtain ⟨u, -, hu, he⟩ := State.barrierStep_spec (s := t.modGroup g (fun y => { y with barLocal := true }))
        (State.barrierAt_of_barrierOf (s := t) hg)
      rw [he]
      split
      · exact fun i => (State.rxq_slotRelease c n cRemote i).trans (hu i)
      · exact hu
    · exact fun _ => rfl
  · exact fun _ => rfl

/-- What FULL makes of a slot follows from the slot, its registers and the groups. -/
theorem State.slot_slotFull_congr {n : Nat} (hs : t.slot c n = s.slot c n) (hr : t.regs = s.regs) (hg : t.tch.groups = s.tch.groups) :
    (t.slotFull c n).slot c n = (s.slotFull c n).slot c n := by
  have hrg (m : RegName) (i j : Nat) : t.rg m i j = s.rg m i j := State.rg_of_regs_eq hr
  have hgr (g : Nat) : t.group g = s.group g := by rw [State.group, hg, State.group]
  have hd : t.declared c n = s.declared c n := by rw [State.declared, State.declared, hrg]
  have hb : (t.setSlot c n { st := .full }).barrierOf c n = (s.setSlot c n { st := .full }).barrierOf c n := by
    change t.barrierOf c n = s.barrierOf c n
    simp only [State.barrierOf, hg, hrg, hgr]
  unfold State.slotFull
  simp only [hs, hd, hb]
  split
  · split
    · next g hbar =>
      have hbt := State.barrierAt_of_barrierOf (s := s.setSlot c n { st := .full }) hbar
      obtain ⟨u, hu, -, eu⟩ := State.barrierStep_spec (c := c) (n := n) (g := g)
        (s := (s.setSlot c n { st := .full }).modGroup g (fun y => { y with barLocal := true })) hbt
      obtain ⟨v, hv, -, ev⟩ := State.barrierStep_spec (c := c) (n := n) (g := g)
        (s := (t.setSlot c n { st := .full }).modGroup g (fun y => { y with barLocal := true })) (by
          obtain ⟨h1, h2, h3⟩ := hbt
          refine ⟨?_, ?_, ?_⟩
          · exact (congrArg (fun w : W32 => w.toNat.testBit 14) (hrg _ _ _)).trans h1
          · exact (congrArg (fun w : W32 => bits w.toNat 0 8) (hrg _ _ _)).trans h2
          · exact (congrArg (fun w : W32 => bits w.toNat 8 6) (hrg _ _ _)).trans h3)
      have hslot {a b : State} (h : only [.outbox, .tch, .mtr] a b) : b.slot c n = a.slot c n := by
        rw [State.slot, State.core_of_cores_eq ((h .cores).resolve_left (by simp)), State.slot]
      have hus : u.slot c n = { st := .full } := (hslot hu).trans (s.slot_setSlot_self c n _)
      have hvs : v.slot c n = { st := .full } := (hslot hv).trans (t.slot_setSlot_self c n _)
      have hfull : State.barrierFull ((t.setSlot c n { st := .full }).modGroup g (fun y => { y with barLocal := true })) g =
          State.barrierFull ((s.setSlot c n { st := .full }).modGroup g (fun y => { y with barLocal := true })) g := by
        simp only [State.barrierFull, State.group_modGroup_self]
        rw [show (t.setSlot c n { st := .full }).group g = (s.setSlot c n { st := .full }).group g from hgr g]
      rw [eu, ev, hfull]
      split
      · refine State.slot_slotRelease_congr cRemote (hvs.trans hus.symm) ?_
        exact (State.regs_of_only hv (by simp)).trans (hr.trans (State.regs_of_only hu (by simp)).symm)
      · exact hvs.trans hus.symm
    · rw [State.slot_setSlot_self, State.slot_setSlot_self]
  · exact hs

end Sys2Proof.Machine
end

section
set_option Elab.async false
/-! Packets that go on to another device, and the requests of other devices (R418, R422, R423, R424). -/

namespace Sys2Proof.Machine
open Sys2Proof
variable {s t : State} {p : PortId} {k : Packet} {l : List Packet}

/-! ### Packets sent -/

theorem chunksOf_ne_nil {α : Type} (n fuel : Nat) {bs : List α} (h : bs ≠ []) : chunksOf n (fuel + 1) bs ≠ [] := by
  cases bs with
  | nil => exact absurd rfl h
  | cons x xs => simp [chunksOf]

theorem Packet.bytes_ne_nil (k : Packet) : k.bytes ≠ [] := by
  have hlen : (toLe 4 (pack [(8, k.typ), (12, k.dst), (12, k.src)])).length = 4 := toLe_length ..
  have hpos : 0 < k.bytes.length := by
    rw [Packet.bytes, Packet.header]
    simp only [List.length_append, hlen]
    omega
  exact List.ne_nil_of_length_pos hpos

/-- A packet fills a flit at least. -/
theorem Port.load_flits_ne_nil (x : Port) {bs : List Byte} (h : bs ≠ []) : (x.load bs).2 ≠ [] := by
  have hc : 0 < (chunksOf 244 18 bs).length := List.length_pos_iff.mpr (chunksOf_ne_nil 244 17 h)
  apply List.ne_nil_of_length_pos
  simp only [Port.load, List.length_map, List.length_zip, upTo, List.length_range, Nat.min_self]
  exact hc

/-- A port that is UP sends a packet's flits. -/
theorem State.outbox_sendPacket {q : Nat} (k : Packet) (hup : (s.port q).st = .up) :
    (s.sendPacket q k).outbox = s.outbox ++ ((s.port q).load k.bytes).2.map (.flit q) := by
  rw [State.sendPacket, if_pos hup]
  exact (State.each_send_spec _ _).1

theorem State.only_respondRemote (d tag typ status : Nat) (pl : List Byte) :
    only [.outbox, .tch] s (s.respondRemote d tag typ status pl) := (only.refl _ s).sendTo (by simp) (by simp) _

theorem State.mem_respondRemote (d tag typ status : Nat) (pl : List Byte) : (s.respondRemote d tag typ status pl).mem = s.mem :=
  State.mem_of_only (State.only_respondRemote d tag typ status pl) (by simp)

/-! ### The packet at the head -/

/-- The state once the oldest packet of a port has been taken. -/
def State.popped (s : State) (p : Nat) (l : List Packet) : State := s.modPort p (fun x => { x with rxq := l })

theorem State.rxq_popped (p : Nat) (l : List Packet) : ((s.popped p l).port p).rxq = l := by
  rw [State.popped, State.port_modPort_self]

/-- A packet of the type a command handles, for this device, is taken. -/
theorem State.onPacket_head {typ : Nat} (f : Packet → State → State) (hq : (s.port p.val).rxq = k :: l) (hd : k.dst = s.devId)
    (ht : k.typ = typ) : s.onPacket p typ f = .next (f k (s.popped p.val l)) := by
  simp only [State.onPacket, State.headPacket, hq, ht, hd, decide_true, Bool.and_self, if_true]
  rfl

/-! ### Forwarding -/

/-- A packet for another device has a route, a port of it UP and a place in the topology. -/
def State.goesOn (s : State) (k : Packet) : Prop := ∃ q, s.route k.dst = some q ∧ (s.port q).st = .up ∧ s.inTopo k.dst = true

theorem State.st_popped (p q : Nat) (l : List Packet) : ((s.popped p l).port q).st = (s.port q).st := by
  by_cases h : q = p
  · rw [h, State.popped, State.port_modPort_self]
  · rw [State.popped, State.port_modPort_ne _ _ h]

section
variable (hq : (s.port p.val).rxq = k :: l) (hd : k.dst ≠ s.devId)
include hq hd

theorem execTchForward_goes {q : Nat} (hr : s.route k.dst = some q) (hup : (s.port q).st = .up) (hin : s.inTopo k.dst = true) :
    exec (.tchForward p) s = .next ((s.popped p.val l).sendPacket q k) := by
  rw [exec, execTchForward, hq]
  simp only [if_neg hd]
  have hup' : ((s.popped p.val l).port q).st = .up := by rw [State.st_popped, hup]
  have hcond : (decide (((s.popped p.val l).port q).st = .up) && (s.popped p.val l).inTopo k.dst) = true := by
    rw [hup']
    exact hin
  change (match s.route k.dst with | none => _ | some q => _) = _
  rw [hr]
  exact congrArg Host.Outcome.next (if_pos hcond)

/-- What cannot go on is answered NACK NOROUTE where it is a request, and lost elsewhere. -/
theorem execTchForward_stays (h : ¬ s.goesOn k) :
    exec (.tchForward p) s = .next (if k.typ = tWrite || k.typ = tRead || k.typ = tSignal
      then (s.popped p.val l).respondRemote k.src k.tag tNack 2 [] else s.popped p.val l) := by
  rw [exec, execTchForward, hq]
  simp only [if_neg hd]
  change (match s.route k.dst with | none => _ | some q => _) = _
  cases hr : s.route k.dst with
  | none => rfl
  | some q =>
    refine congrArg Host.Outcome.next (if_neg ?_)
    intro hc
    rw [Bool.and_eq_true, decide_eq_true_eq] at hc
    obtain ⟨hup, hin⟩ := hc
    change ((s.popped p.val l).port q).st = .up at hup
    rw [State.st_popped] at hup
    exact h ⟨q, hr, hup, hin⟩

end

/-! ### Requests at a scratchpad -/

section
variable {c off : Nat} (d : Fin 4096) (tag pos : Nat) (ho : s.coreOpen c = true)
include ho

theorem State.inData_write_admitted (bs : List Byte) (n : Nat) (hl : off + bs.length ≤ 0x80000)
    (ha : s.admitted (.remote d) c off bs.length .wr = true) (hs : s.slotCheck c off bs.length true pRemote = .ok)
    (hb : s.behind (.remote d) c off bs.length true = none) :
    s.inData (.remote d) c off (some bs) n (some tag) pos = (s.written c off bs).respondRemote d.val tag tWack 0 [] := by
  rw [State.inData]
  simp only [State.spadNo_open ho hl, ha, hb, decide_true, Bool.and_self, if_true,
    State.writeSpad_admitted (r := .remote d) rfl ho bs hl ha hs]
  rfl

theorem State.inData_read_admitted (n : Nat) (hl : off + n ≤ 0x80000)
    (ha : s.admitted (.remote d) c off n .rd = true) (hs : s.slotCheck c off n false cRemote = .ok)
    (hb : s.behind (.remote d) c off n false = none) :
    s.inData (.remote d) c off none n (some tag) pos = (s.readOut c off n).respondRemote d.val tag tRdata 0 (s.spad c off n) := by
  rw [State.inData]
  simp only [State.spadNo_open ho hl, ha, hb, decide_true, Bool.and_self, if_true,
    State.readSpad_admitted (r := .remote d) rfl ho n hl ha hs]
  rfl

theorem State.inData_write_refused (bs : List Byte) (n : Nat) (hl : off + bs.length ≤ 0x80000)
    (ha : s.admitted (.remote d) c off bs.length .wr = false) :
    s.inData (.remote d) c off (some bs) n (some tag) pos = (s.winRefuse (.remote d) c off).respondRemote d.val tag tNack 1 [] := by
  rw [State.inData]
  simp only [State.spadNo_open ho hl, ha, decide_true, Bool.and_false, Bool.false_eq_true, if_false,
    State.writeSpad_refused (r := .remote d) rfl ho bs hl ha]
  rfl

theorem State.inData_read_refused (n : Nat) (hl : off + n ≤ 0x80000) (ha : s.admitted (.remote d) c off n .rd = false) :
    s.inData (.remote d) c off none n (some tag) pos = (s.winRefuse (.remote d) c off).respondRemote d.val tag tNack 1 [] := by
  rw [State.inData]
  simp only [State.spadNo_open ho hl, ha, decide_true, Bool.and_false, Bool.false_eq_true, if_false,
    State.readSpad_refused (r := .remote d) rfl ho n hl ha]
  rfl

end

/-- A refusal by the windows tells another device's request, and changes no memory and no core. -/
theorem State.only_winRefuse_remote (d : Fin 4096) (c off : Nat) : only [.regs, .outbox] s (s.winRefuse (.remote d) c off) := by
  unfold State.winRefuse
  extract_lets t u
  have ht : only [.regs, .outbox] s t := by
    simp only [t]
    split
    · exact (only.refl _ s).spdErr (by simp) _ _ _ _
    · exact (only.refl _ s).spdErr (by simp) _ _ _ _
  clear_value t
  exact ht.send (by simp) _

/-- A SIGNAL of another device that a window admits acts on the slot whose first word it names. -/
theorem State.inSignal_remote {c off : Nat} (d : Fin 4096) (full : Bool) (ho : s.coreOpen c = true) (hl : off < 0x80000)
    (ha : s.admitted (.remote d) c off 1 .sig = true) :
    s.inSignal (.remote d) c off full = (true, match s.slotFrom c off with
      | some n => if full then (s.ungate c).slotFull c n else (s.ungate c).slotRelease c n cRemote
      | none => s.ungate c) := by
  have hf : (s.ungate c).slotFrom c off = s.slotFrom c off := by
    unfold State.ungate
    split <;> rfl
  rw [State.inSignal, State.spadNo_open ho hl]
  simp only [ha, Bool.not_true, Bool.false_eq_true, if_false, hf]
  cases s.slotFrom c off <;> rfl

theorem State.inSignal_remote_refused {c off : Nat} (d : Fin 4096) (full : Bool) (ho : s.coreOpen c = true) (hl : off < 0x80000)
    (ha : s.admitted (.remote d) c off 1 .sig = false) :
    s.inSignal (.remote d) c off full = (false, s.winRefuse (.remote d) c off) := by
  rw [State.inSignal, State.spadNo_open ho hl]
  simp only [ha, Bool.not_false, if_true]

/-! ### A request once its packet has been taken -/

/-- A packet for this device whose request is of a scratchpad. -/
def spadRequest (p : PortId) (k : Packet) (l : List Packet) (c off : Nat) (s : State) : Prop :=
  (s.port p.val).rxq = k :: l ∧ k.dst = s.devId ∧ whereIs k.addr = .spad c off ∧ s.coreOpen c = true

section
variable {c off : Nat} (h : spadRequest p k l c off s)
include h

theorem execTchWrite_admitted (ht : k.typ = tWrite) (hl : off + k.payload.length ≤ 0x80000)
    (ha : s.admitted (.remote (Fin.ofNat 4096 k.src)) c off k.payload.length .wr = true)
    (hs : s.slotCheck c off k.payload.length true pRemote = .ok)
    (hb : s.behind (.remote (Fin.ofNat 4096 k.src)) c off k.payload.length true = none) :
    exec (.tchWrite p) s =
      .next (((s.popped p.val l).written c off k.payload).respondRemote (Fin.ofNat 4096 k.src).val k.tag tWack 0 []) := by
  obtain ⟨hq, hd, hw, ho⟩ := h
  rw [exec, execTchWrite, State.onPacket_head _ hq hd ht, State.remoteData, hw]
  exact congrArg Host.Outcome.next (State.inData_write_admitted (s := s.popped p.val l) _ k.tag 0 ho k.payload k.len hl ha hs hb)

theorem execTchRead_admitted (ht : k.typ = tRead) (hl : off + k.len ≤ 0x80000)
    (ha : s.admitted (.remote (Fin.ofNat 4096 k.src)) c off k.len .rd = true)
    (hs : s.slotCheck c off k.len false cRemote = .ok) (hb : s.behind (.remote (Fin.ofNat 4096 k.src)) c off k.len false = none) :
    exec (.tchRead p) s =
      .next (((s.popped p.val l).readOut c off k.len).respondRemote (Fin.ofNat 4096 k.src).val k.tag tRdata 0 (s.spad c off k.len)) := by
  obtain ⟨hq, hd, hw, ho⟩ := h
  rw [exec, execTchRead, State.onPacket_head _ hq hd ht, State.remoteData, hw]
  exact congrArg Host.Outcome.next (State.inData_read_admitted (s := s.popped p.val l) _ k.tag 0 ho k.len hl ha hs hb)

theorem execTchWrite_refused (ht : k.typ = tWrite) (hl : off + k.payload.length ≤ 0x80000)
    (ha : s.admitted (.remote (Fin.ofNat 4096 k.src)) c off k.payload.length .wr = false) :
    exec (.tchWrite p) s = .next (((s.popped p.val l).winRefuse (.remote (Fin.ofNat 4096 k.src)) c off).respondRemote
      (Fin.ofNat 4096 k.src).val k.tag tNack 1 []) := by
  obtain ⟨hq, hd, hw, ho⟩ := h
  rw [exec, execTchWrite, State.onPacket_head _ hq hd ht, State.remoteData, hw]
  exact congrArg Host.Outcome.next (State.inData_write_refused (s := s.popped p.val l) _ k.tag 0 ho k.payload k.len hl ha)

theorem execTchRead_refused (ht : k.typ = tRead) (hl : off + k.len ≤ 0x80000)
    (ha : s.admitted (.remote (Fin.ofNat 4096 k.src)) c off k.len .rd = false) :
    exec (.tchRead p) s = .next (((s.popped p.val l).winRefuse (.remote (Fin.ofNat 4096 k.src)) c off).respondRemote
      (Fin.ofNat 4096 k.src).val k.tag tNack 1 []) := by
  obtain ⟨hq, hd, hw, ho⟩ := h
  rw [exec, execTchRead, State.onPacket_head _ hq hd ht, State.remoteData, hw]
  exact congrArg Host.Outcome.next (State.inData_read_refused (s := s.popped p.val l) _ k.tag 0 ho k.len hl ha)

/-- The state once a remote SIGNAL that a window admits has acted. -/
def State.signalled (s : State) (c off : Nat) (full : Bool) : State :=
  match s.slotFrom c off with
  | some n => if full then (s.ungate c).slotFull c n else (s.ungate c).slotRelease c n cRemote
  | none => s.ungate c

theorem execTchSignal_admitted (ht : k.typ = tSignal) (hl : off < 0x80000)
    (ha : s.admitted (.remote (Fin.ofNat 4096 k.src)) c off 1 .sig = true) :
    exec (.tchSignal p) s =
      .next (((s.popped p.val l).signalled c off (!k.status.testBit 0)).respondRemote k.src k.tag tSack 0 []) := by
  obtain ⟨hq, hd, hw, ho⟩ := h
  rw [exec, execTchSignal, State.onPacket_head _ hq hd ht, State.remoteSignal, hw]
  have hsig := State.inSignal_remote (s := s.popped p.val l) (Fin.ofNat 4096 k.src) (!k.status.testBit 0) ho hl ha
  simp only [remoteReq, hsig, if_true]
  rfl

theorem execTchSignal_refused (ht : k.typ = tSignal) (hl : off < 0x80000)
    (ha : s.admitted (.remote (Fin.ofNat 4096 k.src)) c off 1 .sig = false) :
    exec (.tchSignal p) s = .next (((s.popped p.val l).winRefuse (.remote (Fin.ofNat 4096 k.src)) c off).respondRemote
      k.src k.tag tNack 1 []) := by
  obtain ⟨hq, hd, hw, ho⟩ := h
  rw [exec, execTchSignal, State.onPacket_head _ hq hd ht, State.remoteSignal, hw]
  have hsig := State.inSignal_remote_refused (s := s.popped p.val l) (Fin.ofNat 4096 k.src) (!k.status.testBit 0) ho hl ha
  simp only [remoteReq, hsig, Bool.false_eq_true, if_false]

end

/-- What a remote SIGNAL does to the slots. -/
theorem State.signalled_spec (c off : Nat) (full : Bool) :
    (∀ m, s.slotFrom c off = some m →
      (s.signalled c off full).slot c m = (if full then s.slotFull c m else s.slotRelease c m cRemote).slot c m) ∧
    (s.slotFrom c off = none → (s.signalled c off full).core c = s.core c) ∧
    (s.signalled c off full).mem = s.mem ∧ onlyCore c s (s.signalled c off full) ∧
    (∀ i, ((s.signalled c off full).port i).rxq = (s.port i).rxq) := by
  obtain ⟨hur, huc, hum, hut⟩ := State.ungate_eq (s := s) c
  have hslot (m : Nat) : (s.ungate c).slot c m = s.slot c m := by rw [State.slot, State.core_of_cores_eq huc, State.slot]
  have hrxq (i : Nat) : ((s.ungate c).port i).rxq = (s.port i).rxq := by rw [State.port, hut, State.port]
  have hun : onlyCore c s (s.ungate c) := onlyCore.ungate (onlyCore.refl c s) c
  unfold State.signalled
  cases hm : s.slotFrom c off with
  | none => exact ⟨by simp, fun _ => State.core_of_cores_eq huc, hum, hun, hrxq⟩
  | some m =>
    cases full with
    | true =>
      have hon : only [.outbox, .cores, .tch, .mtr] (s.ungate c) ((s.ungate c).slotFull c m) :=
        (only.refl _ _).slotFull (by simp) (by simp) (by simp) (by simp) c m
      refine ⟨?_, by simp, ((hon .mem).resolve_left (by simp)).trans hum, onlyCore.slotFull hun m,
        fun i => (State.rxq_slotFull c m i).trans (hrxq i)⟩
      rintro _ ⟨⟩
      exact State.slot_slotFull_congr (hslot m) hur (by rw [hut])
    | false =>
      have hon : only [.cores] (s.ungate c) ((s.ungate c).slotRelease c m cRemote) := (only.refl _ _).slotRelease (by simp) _ _ _
      refine ⟨?_, by simp, ((hon .mem).resolve_left (by simp)).trans hum, hun.slotRelease m cRemote,
        fun i => (State.rxq_slotRelease c m cRemote i).trans (hrxq i)⟩
      rintro _ ⟨⟩
      exact State.slot_slotRelease_congr cRemote (hslot m) hur

/-- Settles O38, by the packet's destination, its type, and the windows of the core it names. -/
theorem remoteRequests : Obligations.RemoteRequests := by
  unfold Obligations.RemoteRequests
  refine ⟨?_, ?_, ?_⟩
  · intro p k l s u goes hq hd
    refine ⟨?_, ?_, ?_⟩
    · rintro ⟨q, hr, hup, hin⟩
      refine ⟨_, execTchForward_goes hq hd hr hup hin, ?_, ?_, ?_, ?_⟩
      · rw [State.rxq_sendPacket, State.rxq_popped]
      · rw [State.outbox_sendPacket _ (by rw [State.st_popped, hup]), List.length_append, List.length_map]
        exact Nat.lt_add_of_pos_right (List.length_pos_iff.mpr (Port.load_flits_ne_nil _ k.bytes_ne_nil))
      · have hon : only [.outbox, .tch] (s.popped p.val l) ((s.popped p.val l).sendPacket q k) :=
          (only.refl _ _).sendPacket (by simp) (by simp) q k
        exact (hon .mem).resolve_left (by simp)
      · exact ((only.refl _ s).modPort (by simp) _ _).sendPacket (by simp) (by simp) q k
    · intro hgo ht
      rw [execTchForward_stays hq hd hgo, if_pos (by simpa [or_assoc] using ht)]
      rfl
    · intro hgo h1 h2 h3
      rw [execTchForward_stays hq hd hgo, if_neg (by simp [h1, h2, h3])]
      rfl
  · intro p k l c off s d hq hd hw ho
    have h : spadRequest p k l c off s := ⟨hq, hd, hw, ho⟩
    refine ⟨?_, ?_, ?_, ?_, ?_, ?_⟩
    · intro ht hl ha hs hb
      have hon := State.only_written (s := s.popped p.val l) (c := c) (off := off) k.payload
      refine ⟨_, _, execTchWrite_admitted h ht hl ha hs hb, rfl, State.spad_written _ hl, ?_, ?_, ?_, ?_⟩
      · rw [State.port, (hon .tch).resolve_left (by simp), ← State.port, State.rxq_popped]
      · exact State.onlyCore_written k.payload
      · exact (hon .outbox).resolve_left (by simp)
      · intro a hout
        rw [State.byte_of_mem_eq (State.mem_respondRemote ..)]
        exact State.byte_written k.payload hl a hout
    · intro ht hl ha hs hb
      have hon := State.only_readOut (s := s.popped p.val l) (c := c) (off := off) k.len
      refine ⟨_, _, execTchRead_admitted h ht hl ha hs hb, rfl, ?_, ?_, ?_, ?_⟩
      · rw [State.port, (hon .tch).resolve_left (by simp), ← State.port, State.rxq_popped]
      · exact (State.mem_respondRemote ..).trans ((hon .mem).resolve_left (by simp))
      · exact State.onlyCore_readOut k.len
      · exact (hon .outbox).resolve_left (by simp)
    · intro ht hl ha
      obtain ⟨h1, h2, h3, h4, h5⟩ := State.signalled_spec (s := s.popped p.val l) c off (!k.status.testBit 0)
      refine ⟨_, _, execTchSignal_admitted h ht hl ha, rfl, ?_, h2, ?_, ?_, h4⟩
      · intro m hm
        rw [h1 m hm]
        have hs : (s.popped p.val l).slot c m = s.slot c m := rfl
        cases k.status.testBit 0 with
        | true => exact State.slot_slotRelease_congr cRemote hs rfl
        | false => exact State.slot_slotFull_congr hs rfl rfl
      · rw [h5, State.rxq_popped]
      · exact (State.mem_respondRemote ..).trans h3
    · intro ht hl ha
      have hon := State.only_winRefuse_remote (s := s.popped p.val l) (Fin.ofNat 4096 k.src) c off
      exact ⟨_, _, execTchWrite_refused h ht hl ha, rfl, (State.mem_respondRemote ..).trans ((hon .mem).resolve_left (by simp)),
        (hon .cores).resolve_left (by simp)⟩
    · intro ht hl ha
      have hon := State.only_winRefuse_remote (s := s.popped p.val l) (Fin.ofNat 4096 k.src) c off
      exact ⟨_, _, execTchRead_refused h ht hl ha, rfl, (State.mem_respondRemote ..).trans ((hon .mem).resolve_left (by simp)),
        (hon .cores).resolve_left (by simp)⟩
    · intro ht hl ha
      have hon := State.only_winRefuse_remote (s := s.popped p.val l) (Fin.ofNat 4096 k.src) c off
      exact ⟨_, _, execTchSignal_refused h ht hl ha, rfl, (State.mem_respondRemote ..).trans ((hon .mem).resolve_left (by simp)),
        (hon .cores).resolve_left (by simp)⟩
  · intro p k l s u hq hd hw
    have hno (x : Option (List Byte)) : (s.popped p.val l).remoteData k x = (s.popped p.val l).respondRemote k.src k.tag tNack 1 [] := by
      unfold State.remoteData
      split
      · next c off hc => exact absurd hc (hw c off)
      · rfl
    refine ⟨fun ht => ?_, fun ht => ?_, fun ht => ?_⟩
    · rw [exec, execTchWrite, State.onPacket_head _ hq hd ht, hno]
      rfl
    · rw [exec, execTchRead, State.onPacket_head _ hq hd ht, hno]
      rfl
    · rw [exec, execTchSignal, State.onPacket_head _ hq hd ht, State.remoteSignal]
      split
      · next c off hc => exact absurd hc (hw c off)
      · rfl

end Sys2Proof.Machine
end

section
set_option Elab.async false
/-! The responses to this device's requests (R284, R363, R423). -/

namespace Sys2Proof.Machine
open Sys2Proof
variable {s t : State} {p : PortId} {k : Packet} {l : List Packet} {q : OutReq} {c ch : Nat}

/-! ### The steps of a response, each with what it leaves -/

theorem ChanHeld.act {s₀ : State} (hk : ChanHeld c s₀ s) (d j n : Nat) : ChanHeld c s₀ (s.act d j n) :=
  hk.modCore d _ (fun _ => rfl)

theorem ChanHeld.mesh_hub {s₀ : State} (hk : ChanHeld c s₀ s) (d n : Nat) : ChanHeld c s₀ (s.mesh d none n) :=
  ChanHeld.act (ChanHeld.act hk ..) ..

theorem only.endReq {ps : List Part} {s₀ : State} (hk : only ps s₀ s) (m : Part.tch ∈ ps) (q : OutReq) : only ps s₀ (s.endReq q) := by
  refine hk.fields ?_ ?_ ?_ ?_ ?_ ?_ ?_ ?_ ?_ ?_ ?_ ?_ ?_ ?_ ?_ ?_ ?_ ?_ ?_ ?_ ?_
  all_goals simp [m]

theorem only.dropReqs {ps : List Part} {s₀ : State} (hk : only ps s₀ s) (m : Part.tch ∈ ps) (c ch : Nat) :
    only ps s₀ (s.dropReqs c ch) := by
  refine hk.fields ?_ ?_ ?_ ?_ ?_ ?_ ?_ ?_ ?_ ?_ ?_ ?_ ?_ ?_ ?_ ?_ ?_ ?_ ?_ ?_ ?_
  all_goals simp [m]

theorem State.tch_of_only {ps : List Part} (h : only ps s t) (hp : .tch ∉ ps) : t.tch = s.tch := (h .tch).resolve_left hp

/-- The state once a request of a port's head packet is no longer outstanding. -/
def State.ended (s : State) (p : Nat) (l : List Packet) (q : OutReq) : State := (s.popped p l).endReq q

/-- The packet is taken and the request no longer waited for. -/
structure Answered (s t : State) (p : Nat) (l : List Packet) (q : OutReq) : Prop where
  reqs : t.tch.reqs = s.tch.reqs.erase q
  rxq : (t.port p).rxq = l

theorem State.answered_ended (p : Nat) (l : List Packet) (q : OutReq) : Answered s (s.ended p l q) p l q :=
  ⟨rfl, State.rxq_popped p l⟩

theorem Answered.of_tch_eq {p : Nat} (h : Answered s t p l q) {u : State} (e : u.tch = t.tch) : Answered s u p l q := by
  obtain ⟨h1, h2⟩ := h
  exact ⟨by rw [e, h1], by rw [State.port, e, ← State.port, h2]⟩

theorem State.only_ended (p : Nat) (l : List Packet) (q : OutReq) : only [.tch] s (s.ended p l q) :=
  only.endReq ((only.refl _ s).modPort (by simp) _ _) (by simp) q

/-! ### The end of a row -/

theorem only.rowEnd_cores {ps : List Part} {s₀ : State} (hk : only ps s₀ s) (m : Part.cores ∈ ps) (c ch : Nat) :
    only ps s₀ (s.rowEnd c ch) := by
  have ht := hk.modChan m c ch (fun x => { x with st := .run, rows := x.rows + 1, sent := false })
  unfold State.rowEnd
  extract_lets x t
  split
  · unfold State.chanHalt
    extract_lets u
    rw [if_pos rfl]
    exact (ht.modChan m _ _ _).unstall m _ _
  · exact ht

/-- A row that ends counts, and a HALT takes effect. -/
theorem State.chan_rowEnd (c ch : Nat) :
    ((s.rowEnd c ch).chan c ch).rows = (s.chan c ch).rows + 1 ∧ ((s.rowEnd c ch).chan c ch).sent = false ∧
      ((s.rowEnd c ch).chan c ch).st = if (s.chan c ch).halt then .halted else .run := by
  unfold State.rowEnd
  extract_lets x t
  have ht : t.chan c ch = { s.chan c ch with st := .run, rows := (s.chan c ch).rows + 1, sent := false } :=
    State.chan_modChan_self ..
  clear_value t
  split
  · rw [State.chan_chanHalt, ht]
    exact ⟨rfl, rfl, rfl⟩
  · rw [ht]
    exact ⟨rfl, rfl, rfl⟩

/-! ### WACK -/

/-- The request that a packet answers once the packet is taken. -/
theorem State.reqOf_popped (p : Nat) (l : List Packet) (k : Packet) : (s.popped p l).reqOf k = s.reqOf k := rfl

/-- A write of a channel counts its acknowledgement; the last one of a row sent ends the row. -/
theorem State.wacked_dma (hf : q.for_ = .dma c ch) (hr : q.read = false) :
    (s.popped p.val l).wacked q =
      let u := (s.ended p.val l q).modChan c ch (fun x => { x with acks := x.acks - 1 })
      if (u.chan c ch).sent && (u.chan c ch).acks = 0 then u.rowEnd c ch else u := by
  rw [State.wacked, hf, hr]
  rfl

section
variable (hq : (s.port p.val).rxq = k :: l) (hd : k.dst = s.devId)
include hq hd

theorem execTchWack_head (ht : k.typ = tWack) (hreq : s.reqOf k = some q) :
    exec (.tchWack p) s = .next ((s.popped p.val l).wacked q) := by
  rw [exec, execTchWack, State.onPacket_head _ hq hd ht, State.reqOf_popped, hreq]

theorem execTchRdata_head (ht : k.typ = tRdata) (hreq : s.reqOf k = some q) :
    exec (.tchRdata p) s = .next (s.readBack (s.popped p.val l) q k.payload) := by
  rw [exec, execTchRdata, State.onPacket_head _ hq hd ht, State.reqOf_popped, hreq]

theorem execTchSack_signal (ht : k.typ = tSack) (hreq : s.reqOf k = some q) (hf : q.for_ = .signal c) :
    exec (.tchSack p) s = .next ((s.ended p.val l q).modSeq c (fun x => { x with sigs := x.sigs - 1 })) := by
  rw [exec, execTchSack, State.onPacket_head _ hq hd ht, State.reqOf_popped, hreq]
  simp only [hf]
  rfl

theorem execTchNack_head (ht : k.typ = tNack) (hreq : s.reqOf k = some q) :
    exec (.tchNack p) s = .next ((s.popped p.val l).reqRefused q (if k.status = 2 then 0x0803 else 0x0405)
      (if k.status = 2 then q.dst else q.addr)) := by
  rw [exec, execTchNack, State.onPacket_head _ hq hd ht, State.reqOf_popped, hreq]
  by_cases h2 : k.status = 2
  · simp only [h2, if_true]
  · simp only [h2, if_false]

end

/-! ### Refused requests -/

/-- The event of a core's request. -/
def State.reqEv (s : State) (c code detail : Nat) : Event :=
  { code := code, cls := 2, part := s.partOf c, core := some c, detail := detail }

/-- A refused SIGNAL is raised and no longer outstanding. -/
theorem State.reqRefused_signal (code detail : Nat) (hf : q.for_ = .signal c) :
    ((s.reqRefused q code detail).core c).seq = { (s.core c).seq with sigs := (s.core c).seq.sigs - 1 } ∧
      (s.reqRefused q code detail).tch = (s.endReq q).tch ∧ logged (s.reqEv c code detail) s (s.reqRefused q code detail) ∧
      onlyCore c s (s.reqRefused q code detail) ∧ (s.reqRefused q code detail).mem = s.mem := by
  rw [State.reqRefused, hf]
  dsimp only
  have hcores : ((s.endReq q).coreEvent c code 2 detail).cores = s.cores := State.log_cores _ _
  have htch : ((s.endReq q).coreEvent c code 2 detail).tch = (s.endReq q).tch := State.log_tch _ _
  have hmem : ((s.endReq q).coreEvent c code 2 detail).mem = s.mem := State.log_mem _ _
  have hlog : logged (s.reqEv c code detail) s ((s.endReq q).coreEvent c code 2 detail) :=
    logged_of_start (logged_log (s.endReq q) _) rfl rfl
  have honly : onlyCore c s ((s.endReq q).coreEvent c code 2 detail) := fun d _ => State.core_of_cores_eq hcores
  generalize (s.endReq q).coreEvent c code 2 detail = t at *
  refine ⟨?_, htch, hlog, honly.modSeq _, hmem⟩
  rw [State.core_modSeq_self, State.core_of_cores_eq hcores]

theorem State.chanFree_coreEvent (d code cls detail c ch : Nat) : (s.coreEvent d code cls detail).chanFree c ch = s.chanFree c ch := by
  have hc : (s.coreEvent d code cls detail).chan c ch = s.chan c ch := ((ChanHeld.refl c s).log _).chan ch
  rw [State.chanFree, hc, State.chanFree]

/-- A refused request of a channel that does not run is raised and no longer outstanding. -/
theorem State.reqRefused_free (code detail : Nat) (hf : q.for_ = .dma c ch) (hc : s.chanFree c ch = true) :
    s.reqRefused q code detail = (s.endReq q).coreEvent c code 2 detail := by
  have hfree : ((s.endReq q).coreEvent c code 2 detail).chanFree c ch = true := by
    rw [State.chanFree_coreEvent]
    exact hc
  rw [State.reqRefused, hf]
  exact if_pos hfree

/-- One of a channel that runs halts it, drops what else it waits for, and is raised twice. -/
theorem State.reqRefused_runs (code detail : Nat) (hf : q.for_ = .dma c ch) (hc : s.chanFree c ch = false) :
    s.reqRefused q code detail = (((s.endReq q).coreEvent c code 2 detail).dropReqs c ch).chanFault c ch q.addr := by
  have hfree : ((s.endReq q).coreEvent c code 2 detail).chanFree c ch = false := by
    rw [State.chanFree_coreEvent]
    exact hc
  rw [State.reqRefused, hf]
  exact if_neg (by simp [hfree])

/-- Two events logged one after the other stand at the next two places. -/
theorem log_two {e f : Event} {u : State} (h : logged e s t) (hu : u.evt = t.evt) (hp : u.prc = s.prc) :
    (u.log f).evt.cnt = s.evt.cnt + 2 ∧
      Sparse.get none (u.log f).evt.log (s.evt.cnt % 8192) = some { e with time := s.prc.time } ∧
      Sparse.get none (u.log f).evt.log ((s.evt.cnt + 1) % 8192) = some { f with time := s.prc.time } := by
  obtain ⟨hcnt, hat⟩ := h
  have hapart : s.evt.cnt % 8192 ≠ (s.evt.cnt + 1) % 8192 := by omega
  have hat2 := State.log_at u f
  rw [hu, hcnt, hp] at hat2
  refine ⟨by rw [State.log_cnt, hu, hcnt], ?_, hat2⟩
  rw [State.log_evt, hu, hcnt]
  dsimp only
  rw [Sparse.get_put_ne _ _ _ _ hapart]
  exact hat

theorem pack_addr_chan (a n : Nat) : pack [(48, a), (4, n)] = a % 2 ^ 48 + 2 ^ 48 * (n % 16) := by
  simp [pack]

/-- A refused request of a channel, whether the channel runs or not. -/
theorem State.reqRefused_dma (code detail : Nat) (hf : q.for_ = .dma c ch) :
    (s.reqRefused q code detail).mem = s.mem ∧ onlyCore c s (s.reqRefused q code detail) ∧
      (∀ i, ((s.reqRefused q code detail).port i) = s.port i) ∧
      (s.chanFree c ch = false → ((s.reqRefused q code detail).chan c ch).st = .halted ∧
        ((s.reqRefused q code detail).chan c ch).err = eACCESS ∧ (∀ x ∈ (s.reqRefused q code detail).tch.reqs, x.for_ ≠ .dma c ch) ∧
        (s.reqRefused q code detail).evt.cnt = s.evt.cnt + 2 ∧
        Sparse.get none (s.reqRefused q code detail).evt.log (s.evt.cnt % 8192) = some { s.reqEv c code detail with time := s.prc.time } ∧
        Sparse.get none (s.reqRefused q code detail).evt.log ((s.evt.cnt + 1) % 8192) =
          some { s.reqEv c 0x0407 (q.addr % 2 ^ 48 + 2 ^ 48 * (ch % 16)) with time := s.prc.time }) ∧
      (s.chanFree c ch = true → (s.reqRefused q code detail).chan c ch = s.chan c ch ∧
        (s.reqRefused q code detail).tch.reqs = s.tch.reqs.erase q ∧ logged (s.reqEv c code detail) s (s.reqRefused q code detail)) := by
  have hon1 : only [.regs, .ses, .evt, .tch] s ((s.endReq q).coreEvent c code 2 detail) :=
    (only.endReq (only.refl _ s) (by simp) q).coreEvent (by simp) (by simp) (by simp) _ _ _ _
  have hch1 : ChanHeld c s ((s.endReq q).coreEvent c code 2 detail) := ChanHeld.log (s := s.endReq q) (ChanHeld.refl c s) _
  have htch1 : ((s.endReq q).coreEvent c code 2 detail).tch = (s.endReq q).tch := State.log_tch _ _
  have hlog1 : logged (s.reqEv c code detail) s ((s.endReq q).coreEvent c code 2 detail) :=
    logged_of_start (logged_log (s.endReq q) _) rfl rfl
  cases hc : s.chanFree c ch with
  | true =>
    rw [State.reqRefused_free code detail hf hc]
    generalize (s.endReq q).coreEvent c code 2 detail = t at *
    refine ⟨State.mem_of_only hon1 (by simp), fun d _ => State.core_of_cores_eq ((hon1 .cores).resolve_left (by simp)),
      fun i => by rw [State.port, htch1]; rfl, by simp, fun _ => ⟨hch1.chan ch, by rw [htch1]; rfl, hlog1⟩⟩
  | false =>
    rw [State.reqRefused_runs code detail hf hc]
    generalize (s.endReq q).coreEvent c code 2 detail = t at *
    have htch : (t.dropReqs c ch).tch.ports = s.tch.ports := by rw [State.dropReqs, htch1]; rfl
    have hon2 : only [.regs, .ses, .evt, .tch] s (t.dropReqs c ch) := only.dropReqs hon1 (by simp) c ch
    have hevt : (t.dropReqs c ch).evt = t.evt := rfl
    have hreqs : ∀ x ∈ (t.dropReqs c ch).tch.reqs, x.for_ ≠ .dma c ch := by
      intro x hx
      simpa using (List.mem_filter.mp hx).2
    generalize t.dropReqs c ch = u at *
    have hhalt : only [.regs, .cores] u (u.chanHalt c ch eACCESS) := (only.refl _ u).chanHalt (by simp) (by simp) _ _ _
    have hch := State.chan_halt_coreEvent (s := u) c ch eACCESS 0x0407 2 (pack [(48, q.addr), (4, ch)])
    have hcore : onlyCore c s (u.chanHalt c ch eACCESS) := by
      refine onlyCore.chanHalt (fun d _ => ?_) ch eACCESS
      exact State.core_of_cores_eq ((hon2 .cores).resolve_left (by simp))
    unfold State.chanFault
    generalize u.chanHalt c ch eACCESS = w at *
    have hcfg : w.cfg = s.cfg := ((hhalt .cfg).resolve_left (by simp)).trans ((hon2 .cfg).resolve_left (by simp))
    have hprc : w.prc = s.prc := ((hhalt .prc).resolve_left (by simp)).trans ((hon2 .prc).resolve_left (by simp))
    have hmem : w.mem = s.mem := ((hhalt .mem).resolve_left (by simp)).trans ((hon2 .mem).resolve_left (by simp))
    have hpart : w.partOf c = s.partOf c := by rw [State.partOf, hcfg, State.partOf]
    have hwt : (w.coreEvent c 0x0407 2 (pack [(48, q.addr), (4, ch)])).tch = u.tch :=
      (State.log_tch _ _).trans (State.tch_of_only hhalt (by simp))
    have htwo := log_two (f := s.reqEv c 0x0407 (q.addr % 2 ^ 48 + 2 ^ 48 * (ch % 16))) hlog1
      (((hhalt .evt).resolve_left (by simp)).trans hevt) hprc
    have hv : w.coreEvent c 0x0407 2 (pack [(48, q.addr), (4, ch)]) =
        w.log (s.reqEv c 0x0407 (q.addr % 2 ^ 48 + 2 ^ 48 * (ch % 16))) := by
      rw [State.coreEvent, hpart, pack_addr_chan]
      rfl
    rw [← hv] at htwo
    refine ⟨(State.log_mem w _).trans hmem, hcore.coreEvent _ _ _ _, fun i => ?_, fun _ => ⟨?_, ?_, ?_, htwo⟩, by simp⟩
    · rw [State.port, hwt, htch, ← State.port]
    · rw [hch]
    · rw [hch]
    · rw [hwt]
      exact hreqs

/-- What a request that is no longer outstanding leaves of the rest of the device. -/
theorem State.spec_ended_signal (code detail : Nat) (hf : q.for_ = .signal c) :
    ∃ t, t = (s.popped p.val l).reqRefused q code detail ∧
      (t.core c).seq = { (s.core c).seq with sigs := (s.core c).seq.sigs - 1 } ∧ t.tch.reqs = s.tch.reqs.erase q ∧
      logged (s.reqEv c code detail) s t ∧ onlyCore c s t ∧ t.mem = s.mem ∧ (t.port p.val).rxq = l := by
  obtain ⟨h1, h2, h3, h4, h5⟩ := State.reqRefused_signal (s := s.popped p.val l) code detail hf
  refine ⟨_, rfl, h1, by rw [h2]; rfl, logged_of_start h3 rfl rfl, h4, h5, ?_⟩
  have ha : Answered s ((s.popped p.val l).reqRefused q code detail) p.val l q := (State.answered_ended p.val l q).of_tch_eq h2
  exact ha.rxq

theorem pack_timeout (a n : Nat) : pack [(12, a), (4, 0), (16, n)] = a % 4096 + 65536 * (n % 65536) := by
  simp only [pack]
  omega

theorem execTchTimeout_some {tag : Fin 65536} (h : s.tch.reqs.find? (·.tag = tag.val) = some q) :
    exec (.tchTimeout tag) s = .next (s.reqRefused q 0x0804 (q.dst % 4096 + 65536 * (q.tag % 65536))) := by
  rw [exec, execTchTimeout, h]
  simp only [pack_timeout]

/-- Settles O39, by what the request is for and the packet's type. -/
theorem remoteResponses : Obligations.RemoteResponses := by
  unfold Obligations.RemoteResponses
  intro ev signalEnds channelEnds
  refine ⟨?_, ?_, ?_⟩
  · intro p k l q s u code detail hq hd hreq
    refine ⟨?_, ?_, ?_, ?_, ?_, ?_⟩
    · intro c ch ht hf hr y
      refine ⟨_, execTchWack_head hq hd ht hreq, ?_⟩
      rw [State.wacked_dma hf hr]
      extract_lets v
      have hv : v.chan c ch = y := State.chan_modChan_self ..
      have ha : Answered s v p.val l q := (State.answered_ended p.val l q).of_tch_eq rfl
      have hon : only [.tch, .cores] s v := ((State.only_ended p.val l q).mono (by simp)).modChan (by simp) c ch _
      have hco : onlyCore c s v := onlyCore.modChan (s := s.ended p.val l q) (fun _ _ => rfl) ch _
      clear_value v
      rw [hv]
      by_cases hend : (y.sent && decide (y.acks = 0)) = true
      · rw [if_pos hend]
        have he : only [.cores] v (v.rowEnd c ch) := only.rowEnd_cores (only.refl _ v) (by simp) c ch
        have ha2 := ha.of_tch_eq (State.tch_of_only he (by simp))
        obtain ⟨h1, h2, h3⟩ := State.chan_rowEnd (s := v) c ch
        rw [Bool.and_eq_true, decide_eq_true_eq] at hend
        rw [hv] at h1 h3
        refine ⟨ha2.reqs, ha2.rxq, hco.rowEnd ch, hon.trans (he.mono (by simp)), ?_, fun _ _ => ⟨h1, h2, h3⟩⟩
        rintro (hs | hs)
        · exact absurd (hend.1.symm.trans hs) (by decide)
        · exact absurd hend.2 hs
      · rw [if_neg hend]
        refine ⟨ha.reqs, ha.rxq, hco, hon, fun _ => hv, fun h1 h2 => ?_⟩
        exact absurd (Bool.and_eq_true_iff.mpr ⟨h1, decide_eq_true h2⟩) hend
    · intro c ch v ht hf hr hop hput w
      rw [execTchRdata_head hq hd ht hreq, State.readBack, hf, hr]
      have hput' : (s.popped p.val l).dmaPut c ch q.dest (ddHint ((s.popped p.val l).chan c ch).desc) k.payload = (true, v) := hput
      have hop' : ¬ ddOp ((s.popped p.val l).chan c ch).desc ≠ 0 := by
        intro h
        exact h hop
      simp only [if_neg hop', hput']
      have hw : (w.chan c ch).acks = (v.chan c ch).acks - 1 := by
        simp only [w, State.chan_modChan_self]
        rw [(ChanHeld.mesh_hub (ChanHeld.refl c (v.endReq q)) c k.payload.length).chan ch]
        rfl
      rw [← hw]
    · intro c ch ht hf hr hop hacks
      refine ⟨_, execTchRdata_head hq hd ht hreq, ?_⟩
      have hop' : ddOp ((s.popped p.val l).chan c ch).desc ≠ 0 := hop
      rw [State.readBack, hf, hr]
      simp only [if_pos hop', State.gathered]
      have hm : ChanHeld c s (((s.popped p.val l).endReq q).mesh c none k.payload.length) :=
        ChanHeld.mesh_hub (s := (s.popped p.val l).endReq q) (ChanHeld.refl c s) c _
      have hon : only [.tch, .cores] s (((s.popped p.val l).endReq q).mesh c none k.payload.length) :=
        ((State.only_ended p.val l q).mono (by simp)).mesh (by simp) _ _ _
      have hco : onlyCore c s (((s.popped p.val l).endReq q).mesh c none k.payload.length) :=
        onlyCore.mesh (s := s.ended p.val l q) (fun _ _ => rfl) none _
      have ha : Answered s (((s.popped p.val l).endReq q).mesh c none k.payload.length) p.val l q :=
        (State.answered_ended p.val l q).of_tch_eq rfl
      generalize ((s.popped p.val l).endReq q).mesh c none k.payload.length = m at *
      have hleft : ¬ (s.chan c ch).acks - 1 = 0 := by omega
      rw [State.chan_modChan_self, hm.chan ch, if_neg hleft, State.chan_modChan_self, hm.chan ch]
      exact ⟨rfl, rfl, ha.reqs, ha.rxq, hco.modChan ch _, hon.modChan (by simp) c ch _⟩
    · intro c ht hf
      refine ⟨_, execTchSack_signal hq hd ht hreq hf, ?_, rfl, State.rxq_popped p.val l, ?_, ?_⟩
      · rw [State.core_modSeq_self]
        rfl
      · exact onlyCore.modSeq (s := s.ended p.val l q) (fun _ _ => rfl) _
      · exact ((State.only_ended p.val l q).mono (by simp)).modSeq (by simp) c _
    · intro c ht hf
      obtain ⟨t, rfl, h1, h2, h3, h4, h5, h6⟩ := State.spec_ended_signal (s := s) (p := p) (l := l) code detail hf
      exact ⟨_, execTchNack_head hq hd ht hreq, ⟨h1, h2, h3, h4, h5⟩, h6⟩
    · intro c ch ht hf
      obtain ⟨h1, h2, h3, h4⟩ := State.reqRefused_dma (s := s.popped p.val l) code detail hf
      refine ⟨_, execTchNack_head hq hd ht hreq, ⟨h1, h2, h4⟩, ?_⟩
      rw [h3]
      exact State.rxq_popped p.val l
  · intro p k l s u hq hd hreq
    refine ⟨fun ht => ?_, fun ht => ?_, fun ht => ?_, fun ht => ?_⟩
    · rw [exec, execTchWack, State.onPacket_head _ hq hd ht, State.reqOf_popped, hreq]
      rfl
    · rw [exec, execTchRdata, State.onPacket_head _ hq hd ht, State.reqOf_popped, hreq]
      rfl
    · rw [exec, execTchSack, State.onPacket_head _ hq hd ht, State.reqOf_popped, hreq]
      rfl
    · rw [exec, execTchNack, State.onPacket_head _ hq hd ht, State.reqOf_popped, hreq]
      rfl
  · intro tag q s detail hfind
    refine ⟨fun c hf => ?_, fun c ch hf => ?_⟩
    · obtain ⟨h1, h2, h3, h4, h5⟩ := State.reqRefused_signal (s := s) 0x0804 detail hf
      exact ⟨_, execTchTimeout_some hfind, h1, by rw [h2]; rfl, h3, h4, h5⟩
    · obtain ⟨h1, h2, -, h4⟩ := State.reqRefused_dma (s := s) 0x0804 detail hf
      exact ⟨_, execTchTimeout_some hfind, h1, h2, h4⟩

end Sys2Proof.Machine
end

section
set_option Elab.async false
/-! Reduction groups: their messages and their epochs (R425 to R433, R438, R442). -/

namespace Sys2Proof.Machine
open Sys2Proof
variable {s t : State} {p : PortId} {k : Packet} {l : List Packet}

/-! ### What the messages of a group leave of it -/

theorem State.groups_sendPacket (q : Nat) (k : Packet) : (s.sendPacket q k).tch.groups = s.tch.groups := by
  unfold State.sendPacket
  split
  · rw [(State.each_send_spec _ _).2.1]
    rfl
  · rfl

theorem State.group_of_groups_eq (h : t.tch.groups = s.tch.groups) (g : Nat) : t.group g = s.group g := by
  rw [State.group, h, State.group]

theorem State.group_toKids (g : Nat) (k : Packet) (j : Nat) : (s.toKids g k).group j = s.group j := by
  refine State.each_inv s (fun t => t.group j = s.group j) _ _ (fun t x ht => ?_) rfl
  exact (State.group_of_groups_eq (State.groups_sendPacket x.2 _) j).trans ht

/-- The end of an epoch's rounds leaves the group ABORTED with its cause, and only rounds that have committed. -/
theorem State.group_endRounds (g cause : Nat) (doubt : Bool) :
    ((s.endRounds g cause doubt).group g).st = .aborted ∧ ((s.endRounds g cause doubt).group g).cause = cause ∧
      ∀ y ∈ ((s.endRounds g cause doubt).group g).rounds, y.committed = true := by
  unfold State.endRounds
  extract_lets x opens t
  clear_value t
  have h : ((t.modGroup g (fun x => { x with rounds := x.rounds.filter (·.committed), st := .aborted, cause := cause })).groupEvent
      g 0x0806 2 (pack [(8, g), (3, cause)]) 0).group g =
      { t.group g with rounds := (t.group g).rounds.filter (·.committed), st := .aborted, cause := cause } :=
    (State.group_of_tch_eq (State.log_tch _ _) g).trans (State.group_modGroup_self ..)
  rw [h]
  exact ⟨rfl, rfl, fun y hy => (List.mem_filter.mp hy).2⟩

/-- An OPEN group's abort ends its epoch with the cause. -/
theorem State.group_abortGroup (g cause : Nat) (doubt : Bool) (h : (s.group g).st = .opened) :
    ((s.abortGroup g cause doubt).group g).st = .aborted ∧ ((s.abortGroup g cause doubt).group g).cause = cause ∧
      ∀ y ∈ ((s.abortGroup g cause doubt).group g).rounds, y.committed = true := by
  rw [State.abortGroup, if_pos h]
  exact State.group_endRounds g cause doubt

/-! ### A message at its group -/

/-- The packet at the head is of an OPEN group, of its epoch and its tree. -/
def groupMessage (p : PortId) (k : Packet) (l : List Packet) (s : State) : Prop :=
  (s.port p.val).rxq = k :: l ∧ k.dst = s.devId ∧ (s.group k.grp).valid = true ∧ k.tdigest = (s.group k.grp).tdigest ∧
    (s.group k.grp).st = .opened ∧ k.epoch = (s.group k.grp).epoch

theorem State.group_popped (p : Nat) (l : List Packet) (g : Nat) : (s.popped p l).group g = s.group g := rfl

section
variable (h : groupMessage p k l s)
include h

/-- One from a child is handled. -/
theorem State.onGroup_child (hk : (s.group k.grp).kids.any (fun y => y.1 = k.src) = true) (f : Group → State) :
    (s.popped p.val l).onGroup k false f = f (s.group k.grp) := by
  obtain ⟨-, -, hv, ht, ho, he⟩ := h
  rw [State.onGroup]
  simp only [State.group_popped, hv, ht, ho, he, hk]
  simp

/-- One from the parent is handled. -/
theorem State.onGroup_parent (hk : k.src = (s.group k.grp).parent) (f : Group → State) :
    (s.popped p.val l).onGroup k true f = f (s.group k.grp) := by
  obtain ⟨-, -, hv, ht, ho, he⟩ := h
  rw [State.onGroup]
  simp only [State.group_popped, hv, ht, ho, he, hk]
  simp

end

/-! ### SUM -/

theorem addOuts_fresh (regime i : Nat) (xs : List Acc) : ∃ ys, addOuts regime i [] xs = some ys ∧ ys.length = i + xs.length := by
  have hdrop : (List.replicate (i + xs.length) ({} : Acc)).drop i = List.replicate xs.length {} := by
    rw [List.drop_replicate, Nat.add_sub_cancel_left]
  have hall : ((List.replicate xs.length ({} : Acc)).zip xs).all (fun y => !y.1.anch || y.1.anchor = y.2.anchor) = true := by
    rw [List.all_eq_true]
    intro y hy
    have h1 := List.eq_of_mem_replicate (List.of_mem_zip hy).1
    simp [h1]
  rw [addOuts]
  simp only [List.length_nil, Nat.sub_zero, List.nil_append, hdrop, List.take_replicate, Nat.min_self]
  rw [if_pos hall]
  refine ⟨_, rfl, ?_⟩
  rw [overAt_length (by simp)]
  simp

/-- The first arrival of a round, whichever outputs come first (R429). -/
theorem State.arrival_fresh {g tile i ptag regime flags gcnt : Nat} {xs : List Acc} (h : (s.group g).round tile = none) :
    ∃ r, ((s.arrival g tile i ptag regime flags gcnt xs).group g).round tile = some r ∧ r.acc.length = i + xs.length ∧
      r.ptag = ptag ∧ r.regime = regime ∧ r.got = [] ∧ r.local_ = none := by
  obtain ⟨ys, hy, hl⟩ := addOuts_fresh regime i xs
  unfold State.arrival
  extract_lets x r0 r
  have hr0 : r0 = { tile := tile } := by simp [r0, x, h]
  have hr : r = { tile := tile, ptag := ptag, regime := regime } := by simp [r, hr0]
  rw [hr, if_pos ⟨rfl, rfl⟩]
  dsimp only
  rw [hy]
  dsimp only
  rw [State.group_writeSlot, State.round_modRound_new h rfl]
  exact ⟨_, rfl, hl, rfl, rfl, rfl, rfl⟩

/-- A round to which this member has not contributed goes nowhere. -/
theorem State.roundStep_alone {g tile : Nat} {r : Round} (h : (s.group g).round tile = some r) (hl : r.local_ = none) :
    s.roundStep g tile = s := by
  rw [State.roundStep]
  simp [h, hl]

/-- The first SUM of a round. -/
theorem State.sumIn_fresh {xs : List Acc} (hx : outsOf k = some xs) (ha : s.inArea k = true)
    (hr : (s.group k.grp).round k.tile = none) :
    ∃ r, ((s.sumIn k).group k.grp).round k.tile = some r ∧ r.acc.length = k.first + xs.length ∧ r.ptag = k.ptag ∧
      r.regime = k.regime ∧ Sparse.get 0 r.got k.src = xs.length ∧ r.local_ = none := by
  obtain ⟨r, h1, h2, h3, h4, h5, h6⟩ := State.arrival_fresh (i := k.first) (ptag := k.ptag) (regime := k.regime) (flags := k.flags)
    (gcnt := if k.first = 0 then k.gcnt else 0) (xs := xs) hr
  unfold State.sumIn
  simp only [hx, ha, Bool.not_true, Bool.false_eq_true, if_false]
  generalize s.arrival k.grp k.tile k.first k.ptag k.regime k.flags (if k.first = 0 then k.gcnt else 0) xs = t at *
  have hround := State.round_modRound_some (f := fun r => { r with got := Sparse.upd 0 r.got k.src (· + xs.length) }) h1 (fun _ => rfl)
  rw [State.roundStep_alone hround h6]
  refine ⟨_, hround, h2, h3, h4, ?_, h6⟩
  dsimp only
  rw [h5]
  simp [Sparse.upd, Sparse.get_put_self, Sparse.get]

/-! ### RESULT and STAGED -/

/-- What the parent's RESULT makes of a round. -/
def Round.overwritten (r : Round) (k : Packet) (xs : List Acc) : Round := { r with
  acc := overAt k.first (r.acc ++ List.replicate (k.first + xs.length - r.acc.length) ({} : Acc)) xs
  flags := r.flags ||| k.flags
  gcnt := k.gcnt
  resGot := r.resGot + xs.length
  ptag := k.ptag
  regime := k.regime }

/-- The outputs of a RESULT stand at their places. -/
theorem Round.acc_overwritten (r : Round) (k : Packet) (xs : List Acc) :
    (((r.overwritten k xs).acc.drop k.first).take xs.length) = xs := by
  have hlen : ((r.acc ++ List.replicate (k.first + xs.length - r.acc.length) ({} : Acc)).take k.first).length = k.first := by
    rw [List.length_take, List.length_append, List.length_replicate]
    omega
  rw [Round.overwritten, overAt, List.append_assoc, List.drop_left' hlen, List.take_left]

/-- A RESULT that is not the last overwrites its outputs. -/
theorem State.resultIn_partial {xs : List Acc} {r : Round} (hx : outsOf k = some xs) (hr : (s.group k.grp).round k.tile = some r)
    (hs : r.staged = false) (ha : s.inArea k = true) (hn : r.resGot + xs.length < r.acc.length) :
    ((s.resultIn k).group k.grp).round k.tile = some (r.overwritten k xs) ∧ only [.tch] s (s.resultIn k) := by
  unfold State.resultIn
  simp only [hx, hr, hs, ha, Bool.not_true, Bool.or_self, Bool.false_eq_true, if_false, if_neg (Nat.not_le.mpr hn)]
  exact ⟨State.round_modRound_some hr (fun _ => rfl), (only.refl _ s).modGroup (by simp) _ _⟩

/-- A member that has not staged a round waits for nothing more of its children. -/
theorem State.stagedStep_idle {g tile : Nat} {r : Round} (h : (s.group g).round tile = some r) (hs : r.staged = false) :
    s.stagedStep g tile = s := by
  rw [State.stagedStep]
  simp [h, hs]

/-! ### COMMIT -/

/-- A round's commit marks it, counts it and releases the contributor. -/
theorem State.roundCommit_spec {g tile : Nat} {r : Round} (h : (s.group g).round tile = some r) (hc : r.committed = false) :
    ((s.roundCommit g tile).group g).round tile = some { r with committed := true } ∧
      ((s.roundCommit g tile).group g).committed = (s.group g).committed + 1 ∧
      ∀ c h, r.local_ = some (c, h) → ((s.roundCommit g tile).tile c h).released = true := by
  unfold State.roundCommit
  simp -zeta only [h, hc, Bool.false_eq_true, if_false]
  extract_lets t1 t2
  have hround := State.round_modRound_some (f := fun r => { r with committed := true }) h (fun _ => rfl)
  have hcnt : ((s.modRound g tile (fun r => { r with committed := true })).group g).committed = (s.group g).committed := by
    rw [State.group_modRound]
  have ht1 : (t1.group g).round tile = some { r with committed := true } ∧ (t1.group g).committed = (s.group g).committed + 1 := by
    simp only [t1, State.group_modGroup_self]
    exact ⟨hround, congrArg (· + 1) hcnt⟩
  clear_value t1
  have ht2 : t2.group g = t1.group g := by
    simp only [t2]
    split <;> rfl
  rw [← ht2] at ht1
  rw [State.group_toKids]
  refine ⟨ht1.1, ht1.2, fun c h hl => ?_⟩
  have hon : only [.outbox, .tch, .mtr] t2 (t2.toKids g (t2.groupPacket g tCommit 0 tile)) :=
    (only.refl _ t2).toKids (by simp) (by simp) (by simp) _ _
  rw [State.tile, State.core_of_cores_eq ((hon .cores).resolve_left (by simp)), ← State.tile]
  simp only [t2, hl, State.tile_modTile_self]

/-! ### Barriers -/

theorem State.group_slotRelease (c n cls g : Nat) : (s.slotRelease c n cls).group g = s.group g :=
  State.group_of_tch_eq (State.tch_of_only ((only.refl [.cores] s).slotRelease (by simp) c n cls) (by simp)) g

theorem State.group_barrierDown (g : Nat) : ((s.barrierDown g).group g).barLocal = false ∧
    ((s.barrierDown g).group g).barKids = [] ∧ ((s.barrierDown g).group g).barUp = false := by
  have hg : (s.barrierDown g).group g = { s.group g with barLocal := false, barKids := [], barUp := false } := by
    unfold State.barrierDown
    extract_lets v t
    have ht : t.group g = { s.group g with barLocal := false, barKids := [], barUp := false } := by
      simp only [t, State.group_toKids, State.group_modGroup_self]
    split
    · rw [State.group_slotRelease, ht]
    · exact ht
  rw [hg]
  exact ⟨rfl, rfl, rfl⟩

/-- A barrier at which this member has not arrived waits. -/
theorem State.barrierStep_idle {g : Nat} (h : (s.group g).barLocal = false) : s.barrierStep g = s := by
  rw [State.barrierStep]
  simp [h]

/-- Settles O40, by the type of the message. -/
theorem reductionMessages : Obligations.ReductionMessages := by
  unfold Obligations.ReductionMessages
  intro p k l s x hq hd hv htd ho he
  have h : groupMessage p k l s := ⟨hq, hd, hv, htd, ho, he⟩
  refine ⟨?_, ?_, ?_, ?_, ?_, ?_, ?_⟩
  · intro xs hk ht hx ha hr
    obtain ⟨r, hr1, hr2⟩ := State.sumIn_fresh (s := s.popped p.val l) hx ha hr
    refine ⟨_, r, ?_, hr1, hr2⟩
    rw [exec, execTchSum, State.onPacket_head _ hq hd ht, State.onGroup_child h hk]
  · intro xs r hk ht hx hr hs ha hn
    obtain ⟨h1, h2⟩ := State.resultIn_partial (s := s.popped p.val l) hx hr hs ha hn
    refine ⟨_, _, ?_, h1, rfl, Round.acc_overwritten r k xs, hs, ((only.refl _ s).modPort (by simp) _ _).trans h2⟩
    rw [exec, execTchResult, State.onPacket_head _ hq hd ht, State.onGroup_parent h hk]
  · intro r hk ht hr hs
    have hround := State.round_modRound_some (s := s.popped p.val l)
      (f := fun r => { r with stagedKids := insertAsc k.src r.stagedKids }) hr (fun _ => rfl)
    refine ⟨(s.popped p.val l).modRound k.grp k.tile (fun r => { r with stagedKids := insertAsc k.src r.stagedKids }), _, ?_, hround,
      (mem_insertAsc ..).mpr (Or.inl rfl), rfl, ((only.refl _ s).modPort (by simp) _ _).modGroup (by simp) _ _⟩
    rw [exec, execTchStaged, State.onPacket_head _ hq hd ht, State.onGroup_child h hk]
    simp only [x] at hr
    simp only [hr]
    rw [State.stagedStep_idle hround hs]
  · intro r hk ht hr hc
    obtain ⟨h1, h2, h3⟩ := State.roundCommit_spec (s := s.popped p.val l) hr hc
    refine ⟨_, _, ?_, h1, rfl, h2, h3⟩
    rw [exec, execTchCommit, State.onPacket_head _ hq hd ht, State.onGroup_parent h hk]
    simp only [x] at hr
    simp only [hr]
  · intro hk hp ht
    obtain ⟨h1, h2, -⟩ := State.group_endRounds (s := (s.popped p.val l).toKids k.grp
      { (s.popped p.val l).groupPacket k.grp tAbort 0 0 with status := k.status }) k.grp k.status false
    refine ⟨_, ?_, h1, h2⟩
    rw [exec, execTchAbort, State.onPacket_head _ hq hd ht, State.abortIn]
    simp only [x] at hv htd ho he hp hk
    simp only [State.group_popped, hv, htd, ho, he, hp, hk]
    simp [hp]
  · intro hk ht hb
    have hg := State.group_modGroup_self (s := s.popped p.val l) k.grp (fun x => { x with barKids := insertAsc k.src x.barKids })
    refine ⟨(s.popped p.val l).modGroup k.grp (fun x => { x with barKids := insertAsc k.src x.barKids }), ?_, ?_, ?_,
      ((only.refl _ s).modPort (by simp) _ _).modGroup (by simp) _ _⟩
    · rw [exec, execTchBarup, State.onPacket_head _ hq hd ht, State.onGroup_child h hk, State.barrierStep_idle]
      rw [hg]
      exact hb
    · rw [hg]
      exact (mem_insertAsc ..).mpr (Or.inl rfl)
    · rw [hg]
      exact hb
  · intro hk ht
    refine ⟨_, ?_, State.group_barrierDown (s := s.popped p.val l) k.grp⟩
    rw [exec, execTchBardown, State.onPacket_head _ hq hd ht, State.onGroup_parent h hk]

/-! ### Epochs -/

/-- Settles O41, by the state of the group and whether its area is admitted. -/
theorem groupEpochs : Obligations.GroupEpochs := by
  unfold Obligations.GroupEpochs
  refine ⟨?_, ?_⟩
  · intro r g e s x hmay
    refine ⟨fun hst hbad => ?_, fun hst hbad => ?_, fun hst => ?_, fun hst => ?_⟩
    · refine ⟨s.modGroup g.val (fun x => { x with st := .opened, cause := 0, epoch := e.val, rounds := [], committed := 0 }), ?_,
        State.group_modGroup_self .., fun k hk => State.group_modGroup_ne _ _ hk, (only.refl _ s).modGroup (by simp) _ _⟩
      rw [exec, execGroupOpen, State.atReg_may _ _ _ _ _ _ hmay, State.openGroup, if_neg hst, if_neg (by simp [hbad])]
    · refine ⟨s.modGroup g.val (fun x => { x with st := .closed, cause := cauAREA, rounds := [] }), ?_,
        State.group_modGroup_self .., fun k hk => State.group_modGroup_ne _ _ hk, (only.refl _ s).modGroup (by simp) _ _⟩
      rw [exec, execGroupOpen, State.atReg_may _ _ _ _ _ _ hmay, State.openGroup, if_neg hst, if_pos hbad]
    · rw [exec, execGroupOpen, State.atReg_may _ _ _ _ _ _ hmay, State.openGroup, if_pos hst]
    · refine ⟨_, ?_, State.group_abortGroup g.val cauSOFTWARE false hst⟩
      rw [exec, execGroupAbort, State.atReg_may _ _ _ _ _ _ hmay]
  · intro g tile r s hst hr hc
    obtain ⟨h1, h2, -⟩ := State.group_abortGroup g.val cauTIMEOUT (decide ((s.group g.val).parent ≠ 0xFFF)) hst
    refine ⟨_, ?_, h1, h2⟩
    rw [exec, execRoundTimeout, hr]
    simp only [hc, Bool.false_eq_true, if_false]

end Sys2Proof.Machine
end

section
set_option Elab.async false
/-! What shared operations leave unchanged. -/

namespace Sys2Proof
open Sys2Proof.Machine
variable {ps : List Part} {s₀ s t u : State} {c cc : Nat}

theorem only.modEth (hk : only ps s₀ s) (m1 : Part.eth ∈ ps) (p : Nat) (f : Eth → Eth) : only ps s₀ (s.modEth p f) := by
  unfold State.modEth
  grind [only.fields]

theorem only.queueFrame (hk : only ps s₀ s) (m1 : Part.ses ∈ ps) (port : Nat) (h : HxtFrame)
    : only ps s₀ (s.queueFrame port h) := by
  unfold State.queueFrame
  grind [only.fields]

end Sys2Proof
end

section
set_option Elab.async false
/-! Ethernet frames, host links, gates and shapers (R443 to R448). -/

namespace Sys2Proof.Machine
open Sys2Proof
variable {s t : State}

/-! ### The next frame -/

/-- The start of a port's next frame: the port's link, gate and credits stay, every waiting frame still waits or is in transmission,
and no other port changes. -/
structure Started (s t : State) (p : Nat) : Prop where
  link : (t.ethp p).link = (s.ethp p).link
  pver : (t.ethp p).pver = (s.ethp p).pver
  pos : (t.ethp p).pos = (s.ethp p).pos
  neg : (t.ethp p).neg = (s.ethp p).neg
  waits : ∀ x ∈ (s.ethp p).egress, x ∈ (t.ethp p).egress ∨ (t.ethp p).cur = some x
  others : ∀ q, q ≠ p → t.ethp q = s.ethp q
  only_eth : only [.eth] s t

theorem Started.refl (s : State) (p : Nat) : Started s s p :=
  ⟨rfl, rfl, rfl, rfl, fun _ h => Or.inl h, fun _ _ => rfl, only.refl _ s⟩

/-- A frame that starts, and what of the others waits behind a preempted one. -/
theorem Started.begins (p : Nat) (f : EFrame) (l : List EFrame) (hl : ∀ x ∈ (s.ethp p).egress, x ≠ f → x ∈ l) :
    Started s (s.modEth p (fun e => { e with cur := some f, egress := l })) p := by
  have hp : (s.modEth p (fun e => { e with cur := some f, egress := l })).ethp p =
    { s.ethp p with cur := some f, egress := l } := State.ethp_modEth_self ..
  refine ⟨by rw [hp], by rw [hp], by rw [hp], by rw [hp], fun x hx => ?_, fun q hq => State.ethp_modEth_ne _ _ hq,
    (only.refl _ s).modEth (by simp) _ _⟩
  rw [hp]
  by_cases hf : x = f
  · exact Or.inr (by rw [hf])
  · exact Or.inl (hl x hx hf)

theorem State.egressStart_started (s : State) (p : Nat) : Started s (s.egressStart p) p := by
  unfold State.egressStart
  extract_lets e
  split
  · exact .refl s p
  · split
    · exact .refl s p
    · next f _ =>
      have hmod (g : EFrame → List EFrame → List EFrame) : s.modEth p (fun e => { e with cur := some f, egress := g f e.egress }) =
          s.modEth p (fun y => { y with cur := some f, egress := g f (s.ethp p).egress }) := rfl
      split
      · rw [hmod (fun f l => l.erase f)]
        exact .begins p f _ fun x hx hne => (List.mem_erase_of_ne hne).mpr hx
      · next g _ =>
        split
        · rw [hmod (fun f l => g :: l.erase f)]
          exact .begins p f _ fun x hx hne => List.mem_cons_of_mem _ ((List.mem_erase_of_ne hne).mpr hx)
        · exact .refl s p

/-! ### Frames received -/

section
variable (p : Fin 4) (f : Frame) (hup : (s.ethp p.val).link = .up)
include hup

theorem execEthFrameReceive_badFcs (h : f.fcsOk = false) :
    exec (.ethFrameReceive p f .none) s = .next (s.count .ethFcserr 0 p.val 1) := by
  rw [exec, execEthFrameReceive]
  simp [hup, h]

theorem execEthFrameReceive_good (h : f.fcsOk = true) : exec (.ethFrameReceive p f .none) s = .next (s.ethIn p.val f) := by
  rw [exec, execEthFrameReceive]
  simp [hup, h, State.ethSram]

end

/-- A frame that is for nobody is dropped and counted. -/
theorem State.ethIn_other {p : Nat} {f : Frame} (h : f.body = .other) : s.ethIn p f = s.count .ethRxdrop 0 p 1 := by
  have hx : s.hxtOf p f = none := by
    rw [State.hxtOf]
    simp [h]
  rw [State.ethIn]
  simp [hx, State.answerTo, h]

/-- An ARP request for the port's address is answered. -/
theorem State.ethIn_arp {p : Nat} {f : Frame} {a : W32} (h : f.body = .arp a) (hb : f.bytes ≤ 9216) (ho : s.ours4 p a = true)
    (hf : s.liveFilters p = []) : s.ethIn p f = s.egress p { q := 0, bytes := 64, answer := some (.arp a) } := by
  have hx : s.hxtOf p f = none := by
    rw [State.hxtOf]
    simp [h]
  have hfil : s.filtered p f = (true, s) := by
    rw [State.filtered, hf]
    rfl
  rw [State.ethIn]
  simp only [if_neg (Nat.not_lt.mpr hb), hx, h, State.answerTo, ho, if_true, hfil]

theorem execMgmtFrameReceive_auth {f : Frame} {h : HxtFrame} {i : Fin 4} (hup : (s.ethp 4).link = .up) (hfcs : f.fcsOk = true)
    (hb : f.bytes ≤ 9216) (hbody : f.body = .hxtEty h) (hda : f.da.toNat = macOf 4) (hbad : badHeader h = false)
    (hack : h.ackonly = false) (ht : h.typ = mAUTH) : exec (.mgmtFrameReceive f i) s = .next (s.queueFrame 4 h) := by
  have hopen : ¬ h.typ = mOPEN := by
    rw [ht]
    decide
  have hlong : decide (9216 < f.bytes) = false := decide_eq_false (Nat.not_lt.mpr hb)
  have hacc : s.hxtAccept 4 h 0 = s.queueFrame 4 h := by
    rw [State.hxtAccept]
    simp [hack, ht]
  rw [exec, execMgmtFrameReceive]
  simp only [hup, hfcs, hlong, hbody, hda, hbad, hopen]
  simpa using hacc

/-! ### Links and gates -/

theorem execEthLinkTrainDone_training {p : EthId} (ok preempt : Bool) (hl : s.linkable p.val = true)
    (ht : (s.ethp p.val).link = .training) : exec (.ethLinkTrainDone p ok preempt) s =
      .next ((s.modEth p.val (fun e => { e with link := if ok then .up else .failed, pver := ok && preempt })).egressStart p.val) := by
  rw [exec, execEthLinkTrainDone]
  simp [hl, ht]

/-- A port's gate entry takes effect, and a frame that its gate stops waits again. -/
def State.gated (s : State) (p i : Nat) : State :=
  match (s.ethp p).cur with
  | some f => if s.preemptable p f.q && !((s.ethp p).gcl.getD i (0, 0)).1.testBit f.q
      then (s.modEth p (fun e => { e with pos := i })).modEth p (fun e => { e with cur := none, egress := f :: e.egress })
      else s.modEth p (fun e => { e with pos := i })
  | none => s.modEth p (fun e => { e with pos := i })

theorem State.gated_spec (p i : Nat) : ((s.gated p i).ethp p).pos = i ∧ (∀ q, q ≠ p → (s.gated p i).ethp q = s.ethp q) ∧
    only [.eth] s (s.gated p i) := by
  have h1 : ((s.modEth p (fun e => { e with pos := i })).ethp p).pos = i ∧
      (∀ q, q ≠ p → (s.modEth p (fun e => { e with pos := i })).ethp q = s.ethp q) ∧
      only [.eth] s (s.modEth p (fun e => { e with pos := i })) :=
    ⟨by rw [State.ethp_modEth_self], fun q hq => State.ethp_modEth_ne _ _ hq, (only.refl _ s).modEth (by simp) _ _⟩
  unfold State.gated
  split
  · split
    · refine ⟨?_, fun q hq => ?_, h1.2.2.modEth (by simp) _ _⟩
      · rw [State.ethp_modEth_self]
        exact h1.1
      · rw [State.ethp_modEth_ne _ _ hq]
        exact h1.2.1 q hq
    · exact h1
  · exact h1

theorem execGateEntryExpiry_due {p : Fin 4} (hl : s.prc.lock = true) (hg : (s.ethp p.val).gcl ≠ [])
    (hi : (gateWalk (s.ethp p.val).gcl 0 ((s.ethp p.val).phase s.prc.time)).1 ≠ (s.ethp p.val).pos) :
    exec (.gateEntryExpiry p) s = .next ((s.gated p.val
      (gateWalk (s.ethp p.val).gcl 0 ((s.ethp p.val).phase s.prc.time)).1).egressStart p.val) := by
  rw [exec, execGateEntryExpiry]
  rw [if_neg (by simp [hl, hg, hi])]
  rfl

theorem execEgressFrameDone_plain {p : Fin 4} {f : EFrame} (hc : (s.ethp p.val).cur = some f)
    (hs : (s.rg .ethTsn 0 p.val).toNat.testBit (8 + f.q) = false) (hx : f.hxt = none) : exec (.egressFrameDone p) s =
      .next (((s.modEth p.val (fun e => { e with cur := none })).send (.frame p.val f)).egressStart p.val) := by
  rw [exec, execEgressFrameDone]
  simp [hc, hs, hx]

/-- Settles O42, by the frame's check sequence and body, the port's link, and the entry in force. -/
theorem framesAndLinks : Obligations.FramesAndLinks := by
  unfold Obligations.FramesAndLinks
  refine ⟨?_, ?_, ?_, ?_, ?_, ?_, ?_⟩
  · intro p f s hup
    refine ⟨fun h => ?_, fun h hb => ?_, fun a h hb hbody ho hf => ?_⟩
    · exact ⟨_, execEthFrameReceive_badFcs p f hup h, s.rg_count_self _ _ _ _, (only.refl _ s).count (by simp) _ _ _ _⟩
    · refine ⟨_, execEthFrameReceive_good p f hup h, ?_⟩
      rw [State.ethIn_other hb]
      exact ⟨s.rg_count_self _ _ _ _, (only.refl _ s).count (by simp) _ _ _ _⟩
    · refine ⟨_, execEthFrameReceive_good p f hup h, ?_⟩
      rw [State.ethIn_arp hbody hb ho hf, State.egress]
      have hst := State.egressStart_started (s.modEth p.val (fun e =>
        { e with egress := e.egress ++ [{ q := 0, bytes := 64, answer := some (.arp a) }] })) p.val
      refine ⟨hst.waits _ ?_, ((only.refl _ s).modEth (by simp) _ _).trans hst.only_eth⟩
      rw [State.ethp_modEth_self]
      exact List.mem_append_right _ (List.mem_singleton_self _)
  · intro f h i s hup hfcs hb hbody hda hbad hack ht
    refine ⟨_, execMgmtFrameReceive_auth hup hfcs hb hbody hda hbad hack ht, rfl, ?_⟩
    exact (only.refl _ s).queueFrame (by simp) _ _
  · intro p ok preempt s hl ht
    have hst := State.egressStart_started
      (s.modEth p.val (fun e => { e with link := if ok then .up else .failed, pver := ok && preempt })) p.val
    refine ⟨_, execEthLinkTrainDone_training ok preempt hl ht, ?_, ?_, ((only.refl _ s).modEth (by simp) _ _).trans hst.only_eth⟩
    · rw [hst.link, State.ethp_modEth_self]
    · rw [hst.pver, State.ethp_modEth_self]
  · intro p s hup
    refine ⟨s.modEth p.val (fun e => { e with link := .down, pver := false, cur := none }), ?_, State.ethp_modEth_self ..,
      fun q hq => State.ethp_modEth_ne _ _ hq, (only.refl _ s).modEth (by simp) _ _⟩
    rw [exec, execEthLinkLoss, if_pos hup]
  · intro p s i hl hg hi
    obtain ⟨h1, h2, h3⟩ := State.gated_spec (s := s) p.val i
    have hst := State.egressStart_started (s.gated p.val i) p.val
    refine ⟨_, execGateEntryExpiry_due hl hg hi, ?_, fun q hq => ?_, h3.trans hst.only_eth⟩
    · rw [hst.pos, h1]
    · rw [hst.others q hq, h2 q hq]
  · intro p f s hc hs hx
    have hst := State.egressStart_started ((s.modEth p.val (fun e => { e with cur := none })).send (.frame p.val f)) p.val
    have h0 : only [.eth, .outbox] s ((s.modEth p.val (fun e => { e with cur := none })).send (.frame p.val f)) :=
      ((only.refl _ s).modEth (by simp) _ _).send (by simp) _
    refine ⟨_, execEgressFrameDone_plain hc hs hx, ?_, ?_, h0.trans (hst.only_eth.mono (by simp))⟩
    · exact (hst.only_eth .outbox).resolve_left (by simp)
    · rw [hst.neg]
      change ((s.modEth p.val (fun e => { e with cur := none })).ethp p.val).neg = (s.ethp p.val).neg
      rw [State.ethp_modEth_self]
  · intro p q s hn
    have hst := State.egressStart_started (s.modEth p.val (fun e => { e with neg := e.neg.filter (· ≠ q.val) })) p.val
    refine ⟨(s.modEth p.val (fun e => { e with neg := e.neg.filter (· ≠ q.val) })).egressStart p.val, ?_, ?_,
      ((only.refl _ s).modEth (by simp) _ _).trans hst.only_eth⟩
    · rw [exec, execCbsCreditRecovered, if_pos hn]
    · rw [hst.neg, State.ethp_modEth_self]
      simp

end Sys2Proof.Machine
end

section
set_option Elab.async false
/-! What shared operations leave unchanged. -/

namespace Sys2Proof
open Sys2Proof.Machine
variable {ps : List Part} {s₀ s t u : State} {c cc : Nat}

theorem only.egressStart (hk : only ps s₀ s) (m1 : Part.eth ∈ ps) (p : Nat) : only ps s₀ (s.egressStart p) := by
  unfold State.egressStart
  grind [only.fields, only.modEth]

theorem only.egress (hk : only ps s₀ s) (m1 : Part.eth ∈ ps) (p : Nat) (f : EFrame) : only ps s₀ (s.egress p f) := by
  unfold State.egress
  grind [only.fields, only.modEth, only.egressStart]

theorem only.identitySign (hk : only ps s₀ s) (m1 : Part.free ∈ ps) (bs : List Byte) : only ps s₀ (s.identitySign bs).2 := by
  unfold State.identitySign
  grind [only.fields, only.draw]

theorem only.sendFrame (hk : only ps s₀ s) (m1 : Part.outbox ∈ ps) (m2 : Part.eth ∈ ps) (m3 : Part.ses ∈ ps) (n : Nat)
    (f : HxtFrame) : only ps s₀ (s.sendFrame n f) := by
  unfold State.sendFrame
  grind [only.fields, only.modSess, only.egress, only.send]

theorem only.sendMsg (hk : only ps s₀ s) (m1 : Part.outbox ∈ ps) (m2 : Part.eth ∈ ps) (m3 : Part.ses ∈ ps) (n : Nat)
    (m : OutMsg) (tx : Nat) : only ps s₀ (s.sendMsg n m tx) := by
  unfold State.sendMsg
  grind [only.fields, only.each, only.sendFrame]

theorem only.flushOut (hk : only ps s₀ s) (m1 : Part.outbox ∈ ps) (m2 : Part.eth ∈ ps) (m3 : Part.ses ∈ ps) (n : Nat)
    : only ps s₀ (s.flushOut n) := by
  unfold State.flushOut
  grind [only.fields, only.modSess, only.each, only.sendMsg]

theorem only.post (hk : only ps s₀ s) (m1 : Part.outbox ∈ ps) (m2 : Part.regs ∈ ps) (m3 : Part.eth ∈ ps)
    (m4 : Part.ses ∈ ps) (m5 : Part.evt ∈ ps) (n typ : Nat) (resp : Bool) (pl : List Byte)
      (src : Option (Nat × Nat) := none) : only ps s₀ (s.post n typ resp pl src) := by
  unfold State.post
  grind [only.fields, only.modSess, only.flushOut, only.log]

theorem only.reply (hk : only ps s₀ s) (m1 : Part.outbox ∈ ps) (m2 : Part.eth ∈ ps) (port n typ : Nat) (pl : List Byte)
    : only ps s₀ (s.reply port n typ pl) := by
  unfold State.reply
  grind [only.fields, only.egress, only.send]

theorem only.respond (hk : only ps s₀ s) (m1 : Part.outbox ∈ ps) (m2 : Part.regs ∈ ps) (m3 : Part.eth ∈ ps)
    (m4 : Part.ses ∈ ps) (m5 : Part.evt ∈ ps) (n typ code detail : Nat) : only ps s₀ (s.respond n typ code detail) := by
  unfold State.respond
  grind [only.fields, only.post]

theorem only.dropFrames (hk : only ps s₀ s) (m1 : Part.ses ∈ ps) (n : Nat) : only ps s₀ (s.dropFrames n) := by
  unfold State.dropFrames
  grind [only.fields]

theorem only.freeCtx (hk : only ps s₀ s) (m1 : Part.ses ∈ ps) (n : Nat) : only ps s₀ (s.freeCtx n) := by
  unfold State.freeCtx
  grind [only.fields, only.dropFrames, only.modSess]

theorem only.openAnswer (hk : only ps s₀ s) (m1 : Part.free ∈ ps) (port n tid : Nat) (pl : List Byte)
    : only ps s₀ (s.openAnswer port n tid pl).2 := by
  unfold State.openAnswer
  grind [only.fields, only.draw, only.identitySign]

theorem only.halfContext (hk : only ps s₀ s) (m1 : Part.ses ∈ ps) (port n tid : Nat) (pl resp : List Byte) (eph : Nat)
    : only ps s₀ (s.halfContext port n tid pl resp eph) := by
  unfold State.halfContext
  grind [only.fields, only.modSess]

end Sys2Proof
end

section
set_option Elab.async false
/-! What the messages and events of a session leave of the sessions' store. -/

namespace Sys2Proof.Machine
open Sys2Proof
variable {s₀ s t u : State}

/-- The frames that wait, the failures counted, the tenants locked out and the tenants' records stay. -/
def SesHeld (s t : State) : Prop :=
  t.ses.inq = s.ses.inq ∧ t.ses.fails = s.ses.fails ∧ t.ses.locked = s.ses.locked ∧ t.ses.tenants = s.ses.tenants

theorem SesHeld.refl (s : State) : SesHeld s s := ⟨rfl, rfl, rfl, rfl⟩

theorem SesHeld.of_eq (hk : SesHeld s₀ s) (e1 : t.ses = s.ses) : SesHeld s₀ t := by
  rwa [SesHeld, e1]

theorem SesHeld.fields (hk : SesHeld s₀ s) {a1 a2 a3 a4 a5 a6 a7 a8 a9 a10 a11 a12 a13 a14 a15 a16 a17 a18 a19 a20 a21}
    (e : a14.inq = s.ses.inq ∧ a14.fails = s.ses.fails ∧ a14.locked = s.ses.locked ∧ a14.tenants = s.ses.tenants) :
    SesHeld s₀ (State.mk a1 a2 a3 a4 a5 a6 a7 a8 a9 a10 a11 a12 a13 a14 a15 a16 a17 a18 a19 a20 a21) := by
  unfold SesHeld at *
  simp only [e]
  exact hk

theorem SesHeld.each {α : Type} (hk : SesHeld s₀ s) (l : List α) (f : State → α → State)
    (hf : ∀ t x, SesHeld s₀ t → SesHeld s₀ (f t x)) : SesHeld s₀ (s.each l f) := State.each_inv s (SesHeld s₀) l f hf hk

theorem SesHeld.modSess (hk : SesHeld s₀ s) (n : Nat) (f : Session → Session) : SesHeld s₀ (s.modSess n f) := by
  unfold State.modSess
  grind [SesHeld.fields]

theorem SesHeld.log (hk : SesHeld s₀ s) (e : Event) : SesHeld s₀ (s.log e) := by
  unfold State.log
  extract_lets e1 ev s1 s2 s3
  have h2 : SesHeld s₀ s2 := by
    simp only [s2]
    split <;> exact hk.of_eq rfl
  have h3 : SesHeld s₀ s3 := by
    simp only [s3]
    split
    · exact h2.of_eq rfl
    · exact h2
  exact h3.each _ _ fun t n ht => ht.modSess n _

theorem SesHeld.modEth (hk : SesHeld s₀ s) (p : Nat) (f : Eth → Eth) : SesHeld s₀ (s.modEth p f) := by
  unfold State.modEth
  grind [SesHeld.fields]

theorem SesHeld.send (hk : SesHeld s₀ s) (o : Out) : SesHeld s₀ (s.send o) := by
  unfold State.send
  grind [SesHeld.fields]

theorem SesHeld.egressStart (hk : SesHeld s₀ s) (p : Nat) : SesHeld s₀ (s.egressStart p) := by
  unfold State.egressStart
  grind [SesHeld.fields, SesHeld.modEth]

theorem SesHeld.egress (hk : SesHeld s₀ s) (p : Nat) (f : EFrame) : SesHeld s₀ (s.egress p f) := by
  unfold State.egress
  grind [SesHeld.fields, SesHeld.modEth, SesHeld.egressStart]

theorem SesHeld.sendFrame (hk : SesHeld s₀ s) (n : Nat) (f : HxtFrame) : SesHeld s₀ (s.sendFrame n f) := by
  unfold State.sendFrame
  grind [SesHeld.fields, SesHeld.modSess, SesHeld.egress, SesHeld.send]

theorem SesHeld.sendMsg (hk : SesHeld s₀ s) (n : Nat) (m : OutMsg) (tx : Nat) : SesHeld s₀ (s.sendMsg n m tx) := by
  unfold State.sendMsg
  grind [SesHeld.fields, SesHeld.each, SesHeld.sendFrame]

theorem SesHeld.flushOut (hk : SesHeld s₀ s) (n : Nat) : SesHeld s₀ (s.flushOut n) := by
  unfold State.flushOut
  grind [SesHeld.fields, SesHeld.modSess, SesHeld.each, SesHeld.sendMsg]

theorem SesHeld.post (hk : SesHeld s₀ s) (n typ : Nat) (resp : Bool) (pl : List Byte) (src : Option (Nat × Nat) := none)
    : SesHeld s₀ (s.post n typ resp pl src) := by
  unfold State.post
  grind [SesHeld.fields, SesHeld.modSess, SesHeld.flushOut, SesHeld.log]

end Sys2Proof.Machine
end

section
set_option Elab.async false
/-! What the messages and events of a session leave of a session. -/

namespace Sys2Proof.Machine
open Sys2Proof
variable {s₀ s t u : State} {nn : Nat}

/-- What a session is, but for the messages it sends, its events and its account at the Meter. -/
def Session.fixed (x : Session) : Session :=
  { x with outMsgs := [], queued := [], hostAck := 0, unackedIn := 0, ackCtr := 0, srtt := 0, rttvar := 0, rto := 0, events := [],
           discarded := 0, lost := 0, led := 0, t0 := 0, spend := 0 }

/-- A session stays but for what its messages, its events and the Meter change. -/
def SessFixed (n : Nat) (s t : State) : Prop := (t.sess n).fixed = (s.sess n).fixed

theorem SessFixed.refl (n : Nat) (s : State) : SessFixed n s s := rfl

theorem SessFixed.of_eq (hk : SessFixed nn s₀ s) (e : t.ses = s.ses) : SessFixed nn s₀ t := by
  unfold SessFixed State.sess at *
  rwa [e]

theorem SessFixed.modSess (hk : SessFixed nn s₀ s) (n : Nat) (f : Session → Session) (hf : ∀ x, (f x).fixed = x.fixed) :
    SessFixed nn s₀ (s.modSess n f) := by
  unfold SessFixed at *
  by_cases h : nn = n
  · rw [h, State.sess_modSess_self, hf, ← h, hk]
  · rw [State.sess_modSess_ne _ _ h, hk]

theorem Session.fixed_queueEvent (x : Session) (e : Event) : (x.queueEvent e).fixed = x.fixed := by
  unfold Session.queueEvent
  split <;> rfl

theorem SessFixed.others (hk : SessFixed nn s₀ s) {a1 a2 a3 a4 a5 a6 a7 a8 a9 a10 a11 a12 a13 a15 a16 a17 a18 a19 a20 a21} :
    SessFixed nn s₀ (State.mk a1 a2 a3 a4 a5 a6 a7 a8 a9 a10 a11 a12 a13 s.ses a15 a16 a17 a18 a19 a20 a21) := hk.of_eq rfl

theorem SessFixed.each {α : Type} (hk : SessFixed nn s₀ s) (l : List α) (f : State → α → State)
    (hf : ∀ t x, SessFixed nn s₀ t → SessFixed nn s₀ (f t x)) : SessFixed nn s₀ (s.each l f) := State.each_inv s (SessFixed nn s₀) l f hf hk

theorem SessFixed.log (hk : SessFixed nn s₀ s) (e : Event) : SessFixed nn s₀ (s.log e) := by
  unfold State.log
  extract_lets e1 ev s1 s2 s3
  have h2 : SessFixed nn s₀ s2 := by
    simp only [s2]
    split <;> exact hk.of_eq rfl
  have h3 : SessFixed nn s₀ s3 := by
    simp only [s3]
    split
    · exact h2.of_eq rfl
    · exact h2
  exact h3.each _ _ fun t n ht => ht.modSess n _ fun x => x.fixed_queueEvent e1

theorem SessFixed.modEth (hk : SessFixed nn s₀ s) (p : Nat) (f : Eth → Eth) : SessFixed nn s₀ (s.modEth p f) := by
  unfold State.modEth
  grind [SessFixed.others]

theorem SessFixed.send (hk : SessFixed nn s₀ s) (o : Out) : SessFixed nn s₀ (s.send o) := by
  unfold State.send
  grind [SessFixed.others]

theorem SessFixed.egressStart (hk : SessFixed nn s₀ s) (p : Nat) : SessFixed nn s₀ (s.egressStart p) := by
  unfold State.egressStart
  grind [SessFixed.others, SessFixed.modEth]

theorem SessFixed.egress (hk : SessFixed nn s₀ s) (p : Nat) (f : EFrame) : SessFixed nn s₀ (s.egress p f) := by
  unfold State.egress
  grind [SessFixed.others, SessFixed.modEth, SessFixed.egressStart]

theorem SessFixed.sendFrame (hk : SessFixed nn s₀ s) (n : Nat) (f : HxtFrame) : SessFixed nn s₀ (s.sendFrame n f) := by
  unfold State.sendFrame
  extract_lets t g
  have ht : SessFixed nn s₀ t := hk.modSess n _ fun _ => rfl
  split
  · exact ht.egress _ _
  · exact ht.send _

theorem SessFixed.sendMsg (hk : SessFixed nn s₀ s) (n : Nat) (m : OutMsg) (tx : Nat) : SessFixed nn s₀ (s.sendMsg n m tx) := by
  unfold State.sendMsg
  grind [SessFixed.others, SessFixed.each, SessFixed.sendFrame]

theorem SessFixed.flushOut (hk : SessFixed nn s₀ s) (n : Nat) : SessFixed nn s₀ (s.flushOut n) := by
  unfold State.flushOut
  extract_lets x go
  refine SessFixed.each ?_ _ _ fun t m ht => ht.sendMsg n m 0
  exact hk.modSess n _ fun _ => rfl

end Sys2Proof.Machine
end

section
set_option Elab.async false
/-! The handshake of a session and the timeouts of its context (R467 to R475). -/

namespace Sys2Proof.Machine
open Sys2Proof
variable {s t u : State} {n : Nat}

/-! ### Bytes and frames -/

theorem ofLe_lt (bs : List Byte) : ofLe bs < 256 ^ bs.length := by
  induction bs with
  | nil => simp [ofLe]
  | cons b bs ih =>
    have hb := b.isLt
    rw [ofLe, List.length_cons, Nat.pow_succ]
    omega

theorem leAt_lt (bs : List Byte) (o m : Nat) : leAt bs o m < 256 ^ m :=
  Nat.lt_of_lt_of_le (ofLe_lt _) (Nat.pow_le_pow_right (by decide) (List.length_take_le ..))

/-- The state without the frame that is taken from those that wait. -/
theorem State.takeFrame_some {p : Nat × HxtFrame → Bool} {x : Nat × HxtFrame} (h : s.takeFrame p = some (x, u)) :
    u = { s with ses := { s.ses with inq := s.ses.inq.erase x } } := by
  unfold State.takeFrame at h
  split at h
  · cases h
  · cases h
    rfl

theorem State.ses_of_only {ps : List Part} (h : only ps s t) (hp : .ses ∉ ps) : t.ses = s.ses := (h .ses).resolve_left hp

theorem State.sess_of_ses_eq (h : t.ses = s.ses) (n : Nat) : t.sess n = s.sess n := by
  unfold State.sess
  rw [h]

theorem only_ses (x : Ses) : only [.ses] s { s with ses := x } := by
  refine (only.refl [.ses] s).fields ?_ ?_ ?_ ?_ ?_ ?_ ?_ ?_ ?_ ?_ ?_ ?_ ?_ ?_ ?_ ?_ ?_ ?_ ?_ ?_ ?_
  all_goals simp

/-- An event of no session and no partition reaches no session. -/
theorem State.ses_devEvent (code cls detail : Nat) : (s.devEvent code cls detail).ses = s.ses := by
  unfold State.devEvent State.log
  extract_lets e1 ev s1 s2 s3
  have h2 : s2.ses = s.ses := by
    simp only [s2]
    split <;> rfl
  have h3 : s3.ses = s.ses := by
    rw [← h2]
    simp only [s3]
    split <;> rfl
  have hf : (s3.sessions ++ s3.mgmtSessions).filter (fun n => s.takes n e1) = [] := by
    rw [List.filter_eq_nil_iff]
    intro n _
    simp [State.takes, e1]
  rw [hf]
  exact h3

/-! ### A message sent -/

/-- A message that a session sends takes its next number, and leaves the rest of the session but for its messages. -/
theorem State.fixed_post (n typ : Nat) (resp : Bool) (pl : List Byte) (src : Option (Nat × Nat)) :
    ((s.post n typ resp pl src).sess n).fixed = { (s.sess n).fixed with outSeq := (s.sess n).outSeq + 1 } := by
  unfold State.post
  extract_lets q m t
  have ht : (t.sess n).fixed = { (s.sess n).fixed with outSeq := (s.sess n).outSeq + 1 } := by
    refine ((SessFixed.refl n _).flushOut n).trans ?_
    rw [State.sess_modSess_self]
    rfl
  clear_value t
  split
  · exact ((SessFixed.refl n t).log _).trans ht
  · exact ht

/-- What the rules of a handshake read of a session. -/
structure Session.Keyed (x : Session) (st : SesSt) (kepoch : Nat) (keys : List Byte) (inSeq rights : Nat) : Prop where
  st : x.st = st
  kepoch : x.kepoch = kepoch
  keys : x.keys = keys
  inSeq : x.inSeq = inSeq
  rights : x.rights = rights

theorem Session.Keyed.of_fixed {x y : Session} {st : SesSt} {ke : Nat} {keys : List Byte} {i r o : Nat}
    (h : x.Keyed st ke keys i r) (e : y.fixed = { x.fixed with outSeq := o }) : y.Keyed st ke keys i r := by
  obtain ⟨h1, h2, h3, h4, h5⟩ := h
  have hst := congrArg Session.st e
  have hke := congrArg Session.kepoch e
  have hkeys := congrArg Session.keys e
  have hin := congrArg Session.inSeq e
  have hr := congrArg Session.rights e
  exact ⟨hst.trans h1, hke.trans h2, hkeys.trans h3, hin.trans h4, hr.trans h5⟩

/-! ### OPEN -/

section
variable {port : Nat} {h : HxtFrame} {assign : SessId} (hf : s.takeFrame (isTyp mOPEN) = some ((port, h), u))
include hf

theorem execHxtOpen_late : exec (.hxtOpen assign false) s = .next (u.count .sesHsdrop 0 0 1) := by
  rw [exec, execHxtOpen, hf]
  rfl

theorem execHxtOpen_badForm (hb : openBadForm h.payload = true) : exec (.hxtOpen assign true) s =
    .next (u.openNo port (if port = 4 then 65536 + h.session % 4 else assign.val) stRESV) := by
  rw [exec, execHxtOpen, hf]
  simp only [hb, if_true]
  rfl

theorem execHxtOpen_new (hp : port < 4) (hb : openBadForm h.payload = false) (hr : (leAt h.payload 4 1).testBit 2 = false)
    (hh : u.handshake port (leAt h.payload 0 4) ((h.payload.drop 8).take 32) = none) (hs : (u.sess assign.val).st = .free) :
    exec (.hxtOpen assign true) s = .next (u.openNew port assign.val h.payload) := by
  have hp4 : port ≠ 4 := by omega
  rw [exec, execHxtOpen, hf]
  simp only [hb, hr, hh, hp4, if_false, hs]
  simp

end

/-- An OPEN that nothing holds takes its context to HALFOPEN. -/
theorem State.openNew_spec {port : Nat} {pl : List Byte} (hp : port < 4) (hs : (s.sess n).st = .free) (ho : s.opensHeld port = false)
    (hl : s.ses.locked.contains (leAt pl 0 4) = false) (hf : s.tenantFull port (leAt pl 0 4) = false)
    (hsc : s.tenantScrubs port (leAt pl 0 4) = false) (hh : s.halfOpen.length < 1024) :
    ((s.openNew port n pl).sess n).st = .halfopen ∧ ((s.openNew port n pl).sess n).tid.toNat = leAt pl 0 4 ∧
      ((s.openNew port n pl).sess n).port = port ∧
      ((s.openNew port n pl).sess n).known = (s.tenantOf port (leAt pl 0 4)).isSome ∧ onlySess n s (s.openNew port n pl) ∧
      only [.ses, .eth, .free] s (s.openNew port n pl) := by
  have hnew : s.openNew port n pl = (((s.openAnswer port n (leAt pl 0 4) pl).2.halfContext port n (leAt pl 0 4) pl
      (s.openAnswer port n (leAt pl 0 4) pl).1.1 (s.openAnswer port n (leAt pl 0 4) pl).1.2).reply port n mOPEN
        (s.openAnswer port n (leAt pl 0 4) pl).1.1) := by
    have hlocked : leAt pl 0 4 ∉ s.ses.locked := by simpa using hl
    rw [State.openNew]
    simp [hs, ho, hlocked, hf, hsc, Nat.not_le.mpr hh]
  have hy : only [.free] s (s.openAnswer port n (leAt pl 0 4) pl).2 := (only.refl _ s).openAnswer (by simp) _ _ _ _
  rw [hnew]
  generalize (s.openAnswer port n (leAt pl 0 4) pl).1 = a
  generalize (s.openAnswer port n (leAt pl 0 4) pl).2 = y at *
  have hyses : y.ses = s.ses := State.ses_of_only hy (by simp)
  have hten : y.tenantOf port (leAt pl 0 4) = s.tenantOf port (leAt pl 0 4) := by rw [State.tenantOf, hyses, State.tenantOf]
  have hw : only [.ses, .free] s (y.halfContext port n (leAt pl 0 4) pl a.1 a.2) :=
    (hy.mono (by simp)).halfContext (by simp) _ _ _ _ _ _
  have hsess : (y.halfContext port n (leAt pl 0 4) pl a.1 a.2).sess n =
      { st := .halfopen, tenant := ((y.tenantOf port (leAt pl 0 4)).map (·.1)).getD 0, tid := BitVec.ofNat 32 (leAt pl 0 4),
        known := (y.tenantOf port (leAt pl 0 4)).isSome, part := ((y.tenantOf port (leAt pl 0 4)).map (fun y => fld y.2 37 32)).getD 0,
        txq := ((y.tenantOf port (leAt pl 0 4)).map (fun y => fld y.2 52 50)).getD 0,
        asked := leAt pl 5 1 &&& (((y.tenantOf port (leAt pl 0 4)).map (fun y => fld y.2 43 40)).getD 0),
        fragsz := 1024 * 2 ^ (leAt pl 4 1 % 4), port := port, hn := (pl.drop 8).take 32, opened := pl, eph := a.2, resp := a.1 } :=
    State.sess_modSess_self ..
  have hothers : onlySess n s (y.halfContext port n (leAt pl 0 4) pl a.1 a.2) := fun k hk =>
    (State.sess_modSess_ne _ _ hk).trans (State.sess_of_ses_eq hyses k)
  rw [hten] at hsess
  generalize y.halfContext port n (leAt pl 0 4) pl a.1 a.2 = w at *
  have hreply (f : HxtFrame) (b : Nat) : only [.eth] w (w.egress port { q := 0, bytes := b, hxt := some f }) :=
    (only.refl _ w).egress (by simp) _ _
  unfold State.reply
  extract_lets m f
  rw [if_pos hp]
  have he := hreply f (hxtBytes a.1.length)
  generalize w.egress port { q := 0, bytes := hxtBytes a.1.length, hxt := some f } = v at *
  have hv (k : Nat) : v.sess k = w.sess k := State.sess_of_ses_eq (State.ses_of_only he (by simp)) k
  rw [hv, hsess]
  refine ⟨rfl, ?_, rfl, rfl, fun k hk => (hv k).trans (hothers k hk), (hw.mono (by simp)).trans (he.mono (by simp))⟩
  exact Nat.mod_eq_of_lt (leAt_lt pl 0 4)

/-! ### AUTH -/

/-- The failures of a tenant counted anew from 0. -/
def State.clearFails (s : State) (tid : Nat) : State := { s with ses := { s.ses with fails := Sparse.put 0 s.ses.fails tid 0 } }

theorem State.fails_clearFails (tid : Nat) : Sparse.get 0 (s.clearFails tid).ses.fails tid = 0 :=
  Sparse.get_put_self 0 s.ses.fails tid 0

/-- An accepted AUTH of a new session opens it under its keys. -/
theorem State.authOpens_spec (n : Nat) (auth : List Byte) :
    ((s.authOpens n auth).sess n).Keyed .opened (s.sess n).kepoch (s.newKeys n auth 0) (s.sess n).inSeq (s.sess n).asked ∧
      (s.authOpens n auth).ses.fails = s.ses.fails := by
  unfold State.authOpens
  extract_lets keys t
  have ht : (t.sess n).Keyed .opened (s.sess n).kepoch keys (s.sess n).inSeq (s.sess n).asked := by
    simp only [t, State.sess_modSess_self]
    exact ⟨rfl, rfl, rfl, rfl, rfl⟩
  have hk : SesHeld s t := (SesHeld.refl s).modSess _ _
  clear_value t
  obtain ⟨-, hfails, -⟩ := hk.post n mAUTH true (toLe 4 stOK ++ toLe 1 (t.sess n).rights) none
  exact ⟨ht.of_fixed (State.fixed_post ..), hfails⟩

theorem State.ses_dropStalls (n : Nat) : (s.dropStalls n).ses = s.ses :=
  State.each_inv s (fun t => t.ses = s.ses) _ _ (fun t c ht => by exact ht) rfl

/-- A resume completes with the next key epoch. -/
theorem State.authResumes_spec (n : Nat) (auth : List Byte) :
    ((s.authResumes n auth).sess n).Keyed .opened (((s.sess n).kepoch + 1) % 65536)
      (s.newKeys n auth (((s.sess n).kepoch + 1) % 65536)) 0 (s.sess n).rights ∧ (s.authResumes n auth).ses.fails = s.ses.fails := by
  unfold State.authResumes
  extract_lets ke keys old t
  have hsess : ((s.dropFrames n).dropStalls n).sess n = s.sess n :=
    (State.sess_of_ses_eq (State.ses_dropStalls n) n).trans rfl
  have ht : (t.sess n).Keyed .opened ke keys 0 (s.sess n).rights := by
    simp only [t, State.sess_modSess_self]
    have hrights := congrArg Session.rights hsess
    exact ⟨rfl, rfl, rfl, rfl, hrights⟩
  have hfails : t.ses.fails = s.ses.fails := by
    obtain ⟨-, h, -⟩ := (SesHeld.refl ((s.dropFrames n).dropStalls n)).modSess n (fun x =>
      { x.forget with
        st := .opened, kepoch := ke, keys := keys, inSeq := 0, sack := [], inMsgs := [], outSeq := 0
        outMsgs := [], queued := [], hostAck := 0, unackedIn := 0, ackCtr := 0 })
    rw [State.ses_dropStalls] at h
    exact h
  clear_value t
  have hpost (u : State) (typ : Nat) (resp : Bool) (pl : List Byte) (src : Option (Nat × Nat))
      (hu : (u.sess n).Keyed .opened ke keys 0 (s.sess n).rights ∧ u.ses.fails = s.ses.fails) :
      ((u.post n typ resp pl src).sess n).Keyed .opened ke keys 0 (s.sess n).rights ∧
        (u.post n typ resp pl src).ses.fails = s.ses.fails := by
    obtain ⟨-, h, -⟩ := (SesHeld.refl u).post n typ resp pl src
    exact ⟨hu.1.of_fixed (State.fixed_post ..), h.trans hu.2⟩
  exact State.each_inv _ (fun u => (u.sess n).Keyed .opened ke keys 0 (s.sess n).rights ∧ u.ses.fails = s.ses.fails) old _
    (fun u m hu => hpost u _ _ _ _ hu) (hpost t _ _ _ _ ⟨ht, hfails⟩)

theorem sesAuthfail_apart : ∀ m ∈ logCounters, regAddr .sesAuthfail 0 0 0 ≠ regAddr m 0 0 0 := by decide

/-- A failed AUTH is counted and raised; a new context is freed, a resume ends. -/
theorem State.authFails_spec (port n : Nat) :
    counted .sesAuthfail 0 0 1 s (s.authFails port n) ∧
      logged { code := 0x0901, cls := 0, detail := (s.sess n).tid.toNat } s (s.authFails port n) ∧
      ((s.sess n).st = .halfopen → (s.authFails port n).sess n = {}) ∧
      ((s.sess n).st = .rekey → ((s.authFails port n).sess n).st = (if (s.sess n).wasLost then .lost else .opened)) := by
  unfold State.authFails
  extract_lets x tid k r old u w
  have hr : only [.outbox, .eth] s (s.reply port n mAUTH (toLe 4 stDENIED ++ [0])) := (only.refl _ s).reply (by simp) (by simp) _ _ _ _
  have hu : u.sess n = s.sess n ∧ counted .sesAuthfail 0 0 1 s u ∧ u.evt = s.evt ∧ u.prc = s.prc := by
    have hrg : (s.reply port n mAUTH (toLe 4 stDENIED ++ [0])).rg .sesAuthfail 0 0 = s.rg .sesAuthfail 0 0 :=
      State.rg_of_regs_eq (State.regs_of_only hr (by simp))
    refine ⟨State.sess_of_ses_eq (t := s.reply port n mAUTH (toLe 4 stDENIED ++ [0])) (State.ses_of_only hr (by simp)) n, ?_,
      (hr .evt).resolve_left (by simp), (hr .prc).resolve_left (by simp)⟩
    have hc := (s.reply port n mAUTH (toLe 4 stDENIED ++ [0])).rg_count_self .sesAuthfail 0 0 1
    rw [hrg] at hc
    exact hc
  clear_value u
  obtain ⟨husess, hucnt, huevt, huprc⟩ := hu
  have hw : only [.outbox, .eth, .ses] u w ∧ ((s.sess n).st = .halfopen → w.sess n = {}) ∧
      ((s.sess n).st = .rekey → (w.sess n).st = (if (s.sess n).wasLost then .lost else .opened)) := by
    by_cases hst : (s.sess n).st = .halfopen
    · have hwe : w = u.freeCtx n := if_pos hst
      rw [hwe]
      exact ⟨(only.refl _ u).freeCtx (by simp) n, fun _ => State.sess_modSess_self .., fun h => absurd (hst.symm.trans h) (by decide)⟩
    · have hwe : w = (u.modSess n (fun x => { x.forget with st := if x.wasLost then .lost else .opened })).flushOut n := if_neg hst
      rw [hwe]
      refine ⟨((only.refl _ u).modSess (by simp) n _).flushOut (by simp) (by simp) (by simp) n, fun h => absurd h hst, fun _ => ?_⟩
      have hfix := congrArg Session.st ((SessFixed.refl n
        (u.modSess n (fun x => { x.forget with st := if x.wasLost then .lost else .opened }))).flushOut n)
      rw [State.sess_modSess_self, husess] at hfix
      exact hfix
  clear_value w
  obtain ⟨hon, hfree, hback⟩ := hw
  have hsess : (w.devEvent 0x0901 0 tid).sess n = w.sess n := State.sess_of_ses_eq (State.ses_devEvent ..) n
  rw [hsess]
  refine ⟨?_, ?_, hfree, hback⟩
  · have hrg : (w.devEvent 0x0901 0 tid).rg .sesAuthfail 0 0 = u.rg .sesAuthfail 0 0 :=
      (State.rg_log _ sesAuthfail_apart).trans (State.rg_of_regs_eq (State.regs_of_only hon (by simp)))
    rw [counted, hrg]
    exact hucnt
  · exact logged_of_start (logged_log w _) (((hon .evt).resolve_left (by simp)).trans huevt)
      (((hon .prc).resolve_left (by simp)).trans huprc)

section
variable {port : Nat} {h : HxtFrame} (hf : s.takeFrame (isTyp mAUTH) = some ((port, h), u))
include hf

/-- An AUTH taken from the waiting frames changes no session and no tenant. -/
theorem State.auth_taken (m : Nat) : u.sess m = s.sess m ∧ u.macOf m = s.macOf m := by
  rw [State.takeFrame_some hf]
  exact ⟨rfl, rfl⟩

theorem execHxtAuth_halfopen (hst : (s.sess (sessNum port h)).st = .halfopen)
    (hr : (s.sess (sessNum port h)).known = true ∧ h.payload = s.macOf (sessNum port h)) :
    exec .hxtAuth s = .next ((u.clearFails (s.sess (sessNum port h)).tid.toNat).authOpens (sessNum port h) h.payload) := by
  obtain ⟨hs, hm⟩ := State.auth_taken hf (sessNum port h)
  rw [exec, execHxtAuth, hf]
  simp only [hs, hst, hm, hr.1, ← hr.2]
  simp
  rfl

theorem execHxtAuth_rekey (hst : (s.sess (sessNum port h)).st = .rekey)
    (hr : (s.sess (sessNum port h)).known = true ∧ h.payload = s.macOf (sessNum port h)) :
    exec .hxtAuth s = .next ((u.clearFails (s.sess (sessNum port h)).tid.toNat).authResumes (sessNum port h) h.payload) := by
  obtain ⟨hs, hm⟩ := State.auth_taken hf (sessNum port h)
  rw [exec, execHxtAuth, hf]
  simp only [hs, hst, hm, hr.1, ← hr.2]
  simp
  rfl

theorem execHxtAuth_wrong (hst : (s.sess (sessNum port h)).st = .halfopen ∨ (s.sess (sessNum port h)).st = .rekey)
    (hr : ¬ ((s.sess (sessNum port h)).known = true ∧ h.payload = s.macOf (sessNum port h))) :
    exec .hxtAuth s = .next (u.authFails port (sessNum port h)) := by
  obtain ⟨hs, hm⟩ := State.auth_taken hf (sessNum port h)
  have hno : ¬ ((s.sess (sessNum port h)).known && decide (h.payload = s.macOf (sessNum port h))) = true := by
    rw [Bool.and_eq_true, decide_eq_true_eq]
    exact hr
  rw [exec, execHxtAuth, hf]
  obtain hst | hst := hst
  · simp only [hs, hst, hm, if_neg hno]
  · simp only [hs, hst, hm, if_neg hno]

theorem execHxtAuth_free (hst : (s.sess (sessNum port h)).st = .free) : exec .hxtAuth s = .next u := by
  obtain ⟨hs, -⟩ := State.auth_taken hf (sessNum port h)
  rw [exec, execHxtAuth, hf]
  simp only [hs, hst]

end

/-! ### The end of a context -/

theorem State.sess_freeCtx (n : Nat) : (s.freeCtx n).sess n = {} := State.sess_modSess_self ..

/-- A session that is killed leaves its context FREE. -/
theorem State.sess_killSession (n : Nat) (h : (s.sess n).st ≠ .free) : (s.killSession n).sess n = {} := by
  unfold State.killSession
  extract_lets x t
  rw [if_neg h]
  exact State.sess_freeCtx n

/-- Settles O43, by the state of the context and the MAC. -/
theorem handshake : Obligations.Handshake := by
  unfold Obligations.Handshake
  refine ⟨?_, ?_, ?_, ?_, ?_, ?_⟩
  · intro n port h u s hf
    have hu := State.takeFrame_some hf
    refine ⟨⟨_, execHxtOpen_late hf, ?_, rfl, ?_⟩, fun hb => execHxtOpen_badForm hf hb, ?_⟩
    · rw [hu]
      exact State.rg_count_self ..
    · rw [hu]
      exact ((only_ses _).mono (by simp)).count (by simp) _ _ _ _
    · intro hp hb hr hh hs ho hl hfull hsc hhalf
      obtain ⟨h1, h2, h3, h4, h5, h6⟩ := State.openNew_spec hp hs ho hl hfull hsc hhalf
      refine ⟨_, execHxtOpen_new hf hp hb hr hh hs, h1, h2, h3, h4, fun k hk => (h5 k hk).trans ?_, ?_⟩
      · rw [hu]
        rfl
      · refine only.trans ?_ h6
        rw [hu]
        exact (only_ses _).mono (by simp)
  · intro port h u s n right hf
    obtain ⟨hs, hm⟩ := State.auth_taken hf n
    have hu := State.takeFrame_some hf
    refine ⟨?_, ?_, ?_, execHxtAuth_free hf⟩
    · intro hr hst
      obtain ⟨hk, hfails⟩ := State.authOpens_spec (s := u.clearFails (s.sess n).tid.toNat) n h.payload
      refine ⟨_, execHxtAuth_halfopen hf hst hr, hk.st, hk.rights.trans (congrArg Session.asked hs), hk.keys.trans ?_, ?_⟩
      · rw [hu]
        rfl
      · rw [hfails]
        exact State.fails_clearFails _
    · intro hr hst ke
      obtain ⟨hk, hfails⟩ := State.authResumes_spec (s := u.clearFails (s.sess n).tid.toNat) n h.payload
      have hke : (u.clearFails (s.sess n).tid.toNat).sess n = s.sess n := hs
      rw [hke] at hk
      refine ⟨_, execHxtAuth_rekey hf hst hr, hk.st, hk.kepoch, hk.keys.trans ?_, hk.inSeq, ?_⟩
      · rw [hu]
        rfl
      · rw [hfails]
        exact State.fails_clearFails _
    · intro hr hst
      obtain ⟨h1, h2, h3, h4⟩ := State.authFails_spec (s := u) port n
      rw [hs] at h2 h3 h4
      refine ⟨_, execHxtAuth_wrong hf hst hr, ?_, ?_, h3, h4⟩
      · rw [hu] at h1 ⊢
        exact h1
      · exact logged_of_start h2 (by rw [hu]) (by rw [hu])
  · intro x s
    exact ⟨_, rfl, rfl, rfl, only_ses _⟩
  · intro n s hst
    refine ⟨_, ?_, State.sess_freeCtx (s := s) n.val, fun k hk => State.sess_modSess_ne _ _ hk, (only.refl _ s).freeCtx (by simp) _⟩
    rw [exec, execHalfopenTimeout, if_pos hst]
  · intro n s hst
    have hfix := (SessFixed.refl n.val
      (s.modSess n.val (fun x => { x.forget with st := if x.wasLost then .lost else .opened }))).flushOut n.val
    unfold SessFixed at hfix
    rw [State.sess_modSess_self] at hfix
    refine ⟨_, ?_, congrArg Session.st hfix, congrArg Session.resp hfix⟩
    rw [exec, execRekeyTimeout, if_pos hst]
  · intro n s hst
    refine ⟨_, ?_, State.sess_killSession (s := s) n.val (by rw [hst]; decide)⟩
    rw [exec, execLingerExpiry, if_pos hst]

end Sys2Proof.Machine
end

section
set_option Elab.async false
/-! What shared operations leave unchanged. -/

namespace Sys2Proof
open Sys2Proof.Machine
variable {ps : List Part} {s₀ s t u : State} {c cc : Nat}

theorem only.endMsg (hk : only ps s₀ s) (m1 : Part.outbox ∈ ps) (m2 : Part.regs ∈ ps) (m3 : Part.eth ∈ ps)
    (m4 : Part.ses ∈ ps) (m5 : Part.evt ∈ ps) (n : Nat) (m : InMsg) (code detail : Nat)
      : only ps s₀ (s.endMsg n m code detail) := by
  unfold State.endMsg
  grind [only.fields, only.modSess, only.respond]

theorem only.finishMsg (hk : only ps s₀ s) (m1 : Part.outbox ∈ ps) (m2 : Part.regs ∈ ps) (m3 : Part.eth ∈ ps)
    (m4 : Part.ses ∈ ps) (m5 : Part.evt ∈ ps) (n : Nat) (m : InMsg) : only ps s₀ (s.finishMsg n m) := by
  unfold State.finishMsg
  grind [only.fields, only.modSess, only.post]

theorem only.statMsg (hk : only ps s₀ s) (m1 : Part.outbox ∈ ps) (m2 : Part.regs ∈ ps) (m3 : Part.eth ∈ ps)
    (m4 : Part.ses ∈ ps) (m5 : Part.evt ∈ ps) (n : Nat) (m : InMsg) : only ps s₀ (s.statMsg n m) := by
  unfold State.statMsg
  grind [only.fields, only.endMsg, only.modSess, only.post]

theorem only.fenceMsg (hk : only ps s₀ s) (m1 : Part.outbox ∈ ps) (m2 : Part.regs ∈ ps) (m3 : Part.eth ∈ ps)
    (m4 : Part.ses ∈ ps) (m5 : Part.evt ∈ ps) (n : Nat) (m : InMsg) : only ps s₀ (s.fenceMsg n m) := by
  unfold State.fenceMsg
  grind [only.fields, only.endMsg]

end Sys2Proof
end

section
set_option Elab.async false
/-! The messages of a session begin and end (R457, R459, R460, R464). -/

namespace Sys2Proof.Machine
open Sys2Proof
variable {s t u : State} {n q : Nat} {port : Nat} {h : HxtFrame} {l : List (Nat × HxtFrame)} {m : InMsg}

/-! ### The waiting frames -/

/-- The state once the oldest waiting frame has been taken. -/
def State.taken (s : State) (l : List (Nat × HxtFrame)) : State := { s with ses := { s.ses with inq := l } }

theorem State.takeFrame_head {p : Nat × HxtFrame → Bool} {x : Nat × HxtFrame} (hq : s.ses.inq = x :: l) (hp : p x = true) :
    s.takeFrame p = some (x, s.taken l) := by
  rw [State.takeFrame, hq, List.find?_cons_of_pos hp]
  simp [State.taken]

theorem State.sess_taken (l : List (Nat × HxtFrame)) (n : Nat) : (s.taken l).sess n = s.sess n := rfl

theorem State.msgFor_taken (l : List (Nat × HxtFrame)) (x : Nat × HxtFrame) : (s.taken l).msgFor x = s.msgFor x := rfl

theorem State.msgFor_some (hm : s.msgFor (port, h) = some m) : m ∈ (s.sess (sessNum port h)).inMsgs ∧ m.seq = h.seq :=
  ⟨List.mem_of_find?_eq_some hm, by simpa using List.find?_some hm⟩

/-- A message changed is found as it is now. -/
theorem State.msgFor_modMsg {f : InMsg → InMsg} (hm : s.msgFor (port, h) = some m) (hf : ∀ y, (f y).seq = y.seq) :
    (s.modMsg (sessNum port h) h.seq f).msgFor (port, h) = some (f m) := by
  have find (l : List InMsg) (hl : l.find? (fun y => decide (y.seq = h.seq)) = some m) :
      (l.map (fun y => if y.seq = h.seq then f y else y)).find? (fun y => decide (y.seq = h.seq)) = some (f m) := by
    induction l with
    | nil => cases hl
    | cons y ys ih =>
      by_cases hy : y.seq = h.seq
      · rw [List.find?_cons_of_pos (by simpa using hy)] at hl
        cases hl
        rw [List.map_cons, if_pos hy, List.find?_cons_of_pos (by simpa [hf] using hy)]
      · rw [List.find?_cons_of_neg (by simpa using hy)] at hl
        rw [List.map_cons, if_neg hy, List.find?_cons_of_neg (by simpa using hy), ih hl]
  rw [State.msgFor, State.modMsg, State.sess_modSess_self]
  exact find _ hm

theorem State.only_modMsg (n q : Nat) (f : InMsg → InMsg) : only [.ses] s (s.modMsg n q f) := (only.refl _ s).modSess (by simp) _ _

theorem State.modSess_eq (n : Nat) (f : Session → Session) : ∃ x, s.modSess n f = { s with ses := x } := by
  unfold State.modSess
  split
  · exact ⟨_, rfl⟩
  · exact ⟨_, rfl⟩

/-- What the sessions hold does not bear on who reaches a scratchpad. -/
theorem State.access_modMsg (n q : Nat) (f : InMsg → InMsg) (r : Req) (c off len a : Nat) (need : Need) (wr : Bool) (cls : Nat) :
    (s.modMsg n q f).coreOpen c = s.coreOpen c ∧ (s.modMsg n q f).admitted r c off len need = s.admitted r c off len need ∧
      (s.modMsg n q f).slotCheck c off len wr cls = s.slotCheck c off len wr cls ∧
      (s.modMsg n q f).behind r c off len wr = s.behind r c off len wr ∧
      (s.modMsg n q f).imageHeld a len = s.imageHeld a len ∧ (s.modMsg n q f).mem = s.mem := by
  unfold State.modMsg
  obtain ⟨x, hx⟩ := State.modSess_eq (s := s) n (fun x => { x with inMsgs := x.inMsgs.map (fun m => if m.seq = q then f m else m) })
  rw [hx]
  exact ⟨rfl, rfl, rfl, rfl, rfl, rfl⟩

/-- Messages left once one is answered do not depend on what its operation made of it. -/
theorem filter_modMsg (l : List InMsg) (q : Nat) (f : InMsg → InMsg) (hf : ∀ y, (f y).seq = y.seq) :
    (l.map (fun y => if y.seq = q then f y else y)).filter (fun y => decide (y.seq ≠ q)) = l.filter (fun y => decide (y.seq ≠ q)) := by
  induction l with
  | nil => rfl
  | cons y ys ih =>
    by_cases hy : y.seq = q
    · rw [List.map_cons, if_pos hy, List.filter_cons_of_neg (by simpa [hf] using hy), List.filter_cons_of_neg (by simpa using hy), ih]
    · rw [List.map_cons, if_neg hy, List.filter_cons_of_pos (by simpa using hy), List.filter_cons_of_pos (by simpa using hy), ih]

/-! ### Accesses to a scratchpad -/

/-- A host session's requester. -/
theorem reqFor_session (hn : n < 65536) : ∃ d : Fin 65536, reqFor n = .session d ∧ d.val = n :=
  ⟨Fin.ofNat 65536 n, if_pos hn, Nat.mod_eq_of_lt hn⟩

section
variable {c off a : Nat} (hn : n < 65536) (hw : whereIs a = .spad c off) (ho : s.coreOpen c = true)
include hn hw ho

theorem State.rangeNo_admitted {len : Nat} (wr : Bool) (ha : s.admitted (reqFor n) c off len (if wr then .wr else .rd) = true) :
    s.rangeNo n a len wr = none := by
  have hlow : ¬ 65536 ≤ n := Nat.not_le.mpr hn
  rw [State.rangeNo]
  simp [hw, hlow, ho, ha]

/-- A fragment's bytes that pass the windows and slots are stored. -/
theorem State.placeFragment_stored (pos : Nat) {bs : List Byte} (hbs : bs ≠ []) (hl : off + bs.length ≤ 0x80000)
    (ha : s.admitted (reqFor n) c off bs.length .wr = true) (hs : s.slotCheck c off bs.length true pSession = .ok)
    (hb : s.behind (reqFor n) c off bs.length true = none) (hi : s.imageHeld a bs.length = none) :
    s.placeFragment n q a pos bs = s.written c off bs := by
  have hne : bs.isEmpty = false := by simpa using hbs
  have hrange := State.rangeNo_admitted hn hw ho true ha
  obtain ⟨d, hd, -⟩ := reqFor_session hn
  rw [hd] at ha hb
  have hdata : s.inData (reqFor n) c off (some bs) bs.length (some q) pos = s.written c off bs := by
    rw [hd, State.inData]
    simp only [State.spadNo_open ho hl, ha, hb, decide_true, Bool.and_self, if_true,
      State.writeSpad_admitted (r := .session d) rfl ho bs hl ha hs]
    rfl
  rw [State.placeFragment, hne, if_neg (by decide), hrange, hi]
  simp only [State.placeAt, hw, hdata]

/-- A read that passes the windows and slots gathers its bytes. -/
theorem State.readAt_gathered {len : Nat} (hl : off + len ≤ 0x80000) (ha : s.admitted (reqFor n) c off len .rd = true)
    (hs : s.slotCheck c off len false cSession = .ok) (hb : s.behind (reqFor n) c off len false = none) :
    s.readAt n q a len = (s.readOut c off len).modMsg n q (·.put 4 (s.spad c off len)) := by
  obtain ⟨d, hd, hval⟩ := reqFor_session hn
  rw [hd] at ha hb
  rw [State.readAt, hw]
  dsimp only
  rw [hd, State.inData]
  simp only [State.spadNo_open ho hl, ha, hb, decide_true, Bool.and_self, if_true,
    State.readSpad_admitted (r := .session d) rfl ho len hl ha hs]
  rw [← hval]
  rfl

end

/-- No line outside the Cellar can hold an error that a read finds. -/
theorem State.readErrs_spad {c off a len : Nat} (hw : whereIs a = .spad c off) (de : LineErrs) :
    s.readErrs (cellarLines a len) de = s := by
  have hnil : cellarLines a len = [] := by rw [cellarLines, hw]
  rw [State.readErrs, hnil]
  exact State.each_inv s (fun t => t = s) _ _ (fun t e ht => by simpa using ht) rfl

/-! ### WRITE and READ -/

/-- The message has begun. -/
def InMsg.began (y : InMsg) : InMsg := { y with begun := true }

theorem InMsg.seq_began (y : InMsg) : y.began.seq = y.seq := rfl

section
variable (hq : s.ses.inq = (port, h) :: l) (hm : s.msgFor (port, h) = some m)
include hq hm

/-- Fragment 0 of a WRITE that may begin begins it and is placed. -/
theorem execHxtWrite_begins (ht : isTyp mWRITE (port, h) = true) (hf : h.frag = 0) (hno : m.no = false)
    (hb : (s.sess (sessNum port h)).mayBegin m.seq = true) (ha : leAt m.head 0 8 < 2 ^ 48)
    (hr : ((s.taken l).modMsg (sessNum port h) h.seq InMsg.began).rangeNo (sessNum port h) (leAt m.head 0 8) (m.len - 8) true = none) :
    exec .hxtWrite s = .next (((s.taken l).modMsg (sessNum port h) h.seq InMsg.began).placeFragment (sessNum port h) h.seq
      (leAt m.head 0 8) 8 (h.payload.drop 8)) := by
  have hbegins : (s.taken l).writeBegins (sessNum port h) h.seq (m.len - 8) (leAt m.head 0 8) =
      (s.taken l).modMsg (sessNum port h) h.seq InMsg.began := by
    unfold State.writeBegins
    extract_lets t
    change t.rangeNo _ _ _ _ = none at hr
    rw [if_neg (Nat.not_le.mpr ha)]
    split
    · rfl
    · rw [hr]
      rfl
  have hfor := State.msgFor_modMsg (s := s.taken l) (f := InMsg.began) hm InMsg.seq_began
  rw [exec, execHxtWrite, State.takeFrame_head hq]
  · simp only [State.msgFor_taken, hm, hf, if_true, hbegins, hfor]
    rw [if_neg (by simp [InMsg.began, hno])]
  · simp [ht, hm, hf, hb]

/-- A further fragment of a WRITE is placed. -/
theorem execHxtWrite_further (ht : isTyp mWRITE (port, h) = true) (hf : h.frag ≠ 0) (hb : m.begun = true) (hno : m.no = false) :
    exec .hxtWrite s = .next ((s.taken l).placeFragment (sessNum port h) h.seq
      (leAt m.head 0 8 + h.frag * (s.sess (sessNum port h)).fragsz) (8 + h.frag * (s.sess (sessNum port h)).fragsz) h.payload) := by
  rw [exec, execHxtWrite, State.takeFrame_head hq]
  · simp only [State.msgFor_taken, hm, if_neg hf, hno, Bool.false_eq_true, if_false]
    rfl
  · simp [ht, hm, hb]

/-- A READ that may begin begins. -/
theorem execHxtRead_begins (de : LineErrs) (ht : isTyp mREAD (port, h) = true)
    (hb : (s.sess (sessNum port h)).mayBegin m.seq = true) :
    exec (.hxtRead de) s = .next ((s.taken l).readBegins (sessNum port h) m de) := by
  rw [exec, execHxtRead, State.takeFrame_head hq]
  · simp only [State.msgFor_taken, hm]
  · simp [ht, hm, hb]

end

/-- The bytes gathered stand where they were put. -/
theorem InMsg.data_put {bs : List Byte} {len : Nat} (pos : Nat) (hlen : bs.length = len) :
    ((m.put pos bs).data.drop pos).take len = bs := by
  have hpre : (m.data.take pos ++ zeros (pos - m.data.length)).length = pos := by
    simp only [List.length_append, List.length_take, zeros, List.length_replicate]
    omega
  subst hlen
  simp only [InMsg.put, List.append_assoc]
  rw [← List.append_assoc, List.drop_left' hpre, List.take_left' rfl]

/-- A READ of an admitted range reads it. -/
theorem State.readBegins_spad {c off : Nat} (de : LineErrs) (hn : n < 65536) (hw : whereIs (leAt m.head 0 8) = .spad c off)
    (ho : s.coreOpen c = true) (hlen : m.len = 12) (ha48 : leAt m.head 0 8 < 2 ^ 48) (h0 : 0 < leAt m.head 8 4)
    (h1 : leAt m.head 8 4 ≤ 1048576) (hl : off + leAt m.head 8 4 ≤ 0x80000)
    (ha : s.admitted (reqFor n) c off (leAt m.head 8 4) .rd = true) (hs : s.slotCheck c off (leAt m.head 8 4) false cSession = .ok)
    (hb : s.behind (reqFor n) c off (leAt m.head 8 4) false = none) :
    s.readBegins n m de = (((s.modMsg n m.seq InMsg.began).readOut c off (leAt m.head 8 4)).modMsg n m.seq
      (·.put 4 (s.spad c off (leAt m.head 8 4)))) := by
  obtain ⟨eo, ea, es, eb, -, em⟩ := State.access_modMsg (s := s) n m.seq InMsg.began (reqFor n) c off (leAt m.head 8 4) 0 .rd false cSession
  have hlarge : leAt m.head 0 8 < 281474976710656 := ha48
  have hform : ¬ (decide (m.len ≠ 12) || decide (2 ^ 48 ≤ leAt m.head 0 8) || decide (leAt m.head 8 4 = 0) ||
      decide (1048576 < leAt m.head 8 4)) = true := by
    simp [hlen, hlarge, h1, Nat.ne_of_gt h0]
  unfold State.readBegins
  extract_lets a len t
  change t.coreOpen c = _ at eo
  change t.admitted _ _ _ _ _ = _ at ea
  change t.slotCheck _ _ _ _ _ = _ at es
  change t.behind _ _ _ _ _ = _ at eb
  change t.mem = _ at em
  rw [if_neg hform, State.rangeNo_admitted hn hw (eo.trans ho) false (ea.trans ha)]
  dsimp only
  rw [State.readErrs_spad hw, State.readAt_gathered hn hw (eo.trans ho) hl (ea.trans ha) (es.trans hs) (eb.trans hb),
    State.spad_of_mem_eq em]
  rfl

/-! ### Answers -/

/-- An answered message leaves the session's list, and the answer takes the session's next number. -/
def MsgAnswered (n q : Nat) (s t : State) : Prop :=
  (t.sess n).fixed = { (s.sess n).fixed with
    inMsgs := (s.sess n).inMsgs.filter (fun y => decide (y.seq ≠ q)), outSeq := (s.sess n).outSeq + 1 }

theorem State.msgAnswered_post (n q typ : Nat) (resp : Bool) (pl : List Byte) (src : Option (Nat × Nat)) : MsgAnswered n q s
    ((s.modSess n (fun x => { x with inMsgs := x.inMsgs.filter (fun y => decide (y.seq ≠ q)) })).post n typ resp pl src) := by
  unfold MsgAnswered
  rw [State.fixed_post, State.sess_modSess_self]
  rfl

theorem State.msgAnswered_endMsg (n : Nat) (m : InMsg) (code detail : Nat) : MsgAnswered n m.seq s (s.endMsg n m code detail) :=
  State.msgAnswered_post ..

theorem State.msgAnswered_finishMsg (n : Nat) (m : InMsg) : MsgAnswered n m.seq s (s.finishMsg n m) := by
  unfold State.finishMsg
  extract_lets t len
  split
  · exact State.msgAnswered_post ..
  · exact State.msgAnswered_post ..

theorem State.msgAnswered_statMsg (n : Nat) (m : InMsg) : MsgAnswered n m.seq s (s.statMsg n m) := by
  unfold State.statMsg
  split
  · exact State.msgAnswered_endMsg ..
  · exact State.msgAnswered_post ..

theorem State.msgAnswered_fenceMsg (n : Nat) (m : InMsg) : MsgAnswered n m.seq s (s.fenceMsg n m) := State.msgAnswered_endMsg ..

theorem MsgAnswered.spec (h : MsgAnswered n q s t) : (t.sess n).inMsgs = (s.sess n).inMsgs.filter (fun y => decide (y.seq ≠ q)) ∧
    (t.sess n).outSeq = (s.sess n).outSeq + 1 ∧ (t.sess n).st = (s.sess n).st ∧ (t.sess n).aps = (s.sess n).aps ∧
    (t.sess n).closeSeq = (s.sess n).closeSeq := by
  have h1 := congrArg Session.inMsgs h
  have h2 := congrArg Session.outSeq h
  have h3 := congrArg Session.st h
  have h4 := congrArg Session.aps h
  have h5 := congrArg Session.closeSeq h
  exact ⟨h1, h2, h3, h4, h5⟩

/-! ### CLOSE and KILL -/

theorem State.ses_destroyKey (r : Region) : (s.destroyKey r).ses = s.ses := by
  unfold State.destroyKey
  extract_lets t
  have ht : t.ses = s.ses := by
    simp only [t]
    split
    · rfl
    · split <;> rfl
  split
  · exact ht
  · exact ht

/-- What is dropped with a session lies outside the sessions, but for its apertures and events. -/
theorem State.dropSession_eq (n : Nat) : ∃ t : State, t.ses = s.ses ∧
    s.dropSession n = t.modSess n (fun x => { x with aps := [], events := [], discarded := 0 }) := by
  unfold State.dropSession
  extract_lets t1 t2 t3 t4
  have h1 : t1.ses = s.ses := by
    simp only [t1, State.closeWindows]
    split <;> rfl
  have h2 : t2.ses = s.ses := State.each_inv t1 (fun t => t.ses = s.ses) _ _ (fun t r ht => (State.ses_destroyKey r).trans ht) h1
  have h3 : t3.ses = s.ses := by
    simp only [t3]
    split
    · exact (State.attest_ses _ _ _).trans h2
    · exact h2
  exact ⟨t4, State.each_inv t3 (fun t => t.ses = s.ses) _ _ (fun t r ht => by exact ht) h3, rfl⟩

/-- A session that is dropped has no aperture. -/
theorem State.dropSession_spec (n : Nat) : ((s.dropSession n).sess n).aps = [] ∧ ((s.dropSession n).sess n).st = (s.sess n).st ∧
    ((s.dropSession n).sess n).closeSeq = (s.sess n).closeSeq := by
  obtain ⟨t, ht, he⟩ := State.dropSession_eq (s := s) n
  rw [he, State.sess_modSess_self, State.sess_of_ses_eq ht]
  exact ⟨rfl, rfl, rfl⟩

/-- CLOSE leaves the session without apertures. -/
theorem State.closeMsg_spec (hlen : m.len = 0) : ((s.closeMsg n m).sess n).aps = [] ∧ ((s.closeMsg n m).sess n).st = (s.sess n).st ∧
    ((s.closeMsg n m).sess n).closeSeq = (s.sess n).closeSeq := by
  obtain ⟨d1, d2, d3⟩ := State.dropSession_spec (s := s) n
  obtain ⟨-, -, e1, e2, e3⟩ := (State.msgAnswered_endMsg (s := s.dropSession n) n m stOK 0).spec
  rw [State.closeMsg, if_neg (by simp [hlen])]
  exact ⟨e2.trans d1, e1.trans d2, e3.trans d3⟩

/-- A KILL of the session itself frees its context. -/
theorem State.killMsg_self (hlen : m.len = 4) (hw : leAt m.head 0 4 = 0) (hst : (s.sess n).st ≠ .free) :
    (s.killMsg n m).sess n = {} := by
  obtain ⟨-, -, e1, -⟩ := (State.msgAnswered_endMsg (s := s) n m stOK 0).spec
  have hk : s.killMsg n m = (s.endMsg n m stOK 0).killSession n := by
    rw [State.killMsg]
    simp [hlen, hw, bits]
  rw [hk]
  exact State.sess_killSession n (by rw [e1]; exact hst)

/-! ### Ordered messages -/

/-- Which messages are complete does not depend on what has begun. -/
theorem Session.clearTo_map {x y : Session} (q i : Nat) (f : InMsg → InMsg) (hf : ∀ m, (f m).seq = m.seq) (h1 : y.inSeq = x.inSeq)
    (h2 : y.sack = x.sack) (h3 : y.inMsgs = x.inMsgs.map (fun m => if m.seq = q then f m else m)) : y.clearTo i = x.clearTo i := by
  have hseq (m : InMsg) : (if m.seq = q then f m else m).seq = m.seq := by
    split
    · exact hf m
    · rfl
  simp only [Session.clearTo, Session.reached, h1, h2, h3, List.any_map, List.all_map, Function.comp_def, hseq]

/-- The state once an ordered message's frame has been taken: a CLOSE moves the context to CLOSING. -/
def State.orderedTaken (s : State) (n : Nat) (h : HxtFrame) (m : InMsg) : State :=
  if h.typ = mCLOSE && m.len = 0 then (s.modMsg n h.seq InMsg.began).modSess n (fun x => { x with st := .closing, closeSeq := some h.seq })
  else s.modMsg n h.seq InMsg.began

/-- An ordered message whose earlier ones are complete acts as its frame is taken. -/
theorem State.ordered_acts {p : Nat × HxtFrame → Bool} (hq : s.ses.inq = (port, h) :: l) (hp : p (port, h) = true)
    (hm : s.msgFor (port, h) = some m) (hc : (s.sess (sessNum port h)).clearTo h.seq = true) :
    s.ordered p = ((s.taken l).orderedTaken (sessNum port h) h m).orderedAct (sessNum port h) m := by
  have hclear : (((s.taken l).orderedTaken (sessNum port h) h m).sess (sessNum port h)).clearTo h.seq = true := by
    have hmod := State.sess_modSess_self (s := s.taken l) (sessNum port h)
      (fun x => { x with inMsgs := x.inMsgs.map (fun m => if m.seq = h.seq then m.began else m) })
    rw [← hc]
    refine Session.clearTo_map h.seq h.seq InMsg.began InMsg.seq_began ?_ ?_ ?_
    all_goals
      unfold State.orderedTaken State.modMsg
      split
    all_goals
      simp only [State.sess_modSess_self]
      rfl
  rw [State.ordered, State.takeFrame_head hq hp]
  simp only [State.msgFor_taken, hm]
  exact if_pos hclear

/-- What the taking of an ordered message's frame leaves. -/
theorem State.orderedTaken_spec (n : Nat) (h : HxtFrame) (m : InMsg) :
    ((s.orderedTaken n h m).sess n).inMsgs.filter (fun y => decide (y.seq ≠ h.seq)) =
        (s.sess n).inMsgs.filter (fun y => decide (y.seq ≠ h.seq)) ∧
      ((s.orderedTaken n h m).sess n).outSeq = (s.sess n).outSeq ∧
      (h.typ ≠ mCLOSE → ((s.orderedTaken n h m).sess n).st = (s.sess n).st) ∧
      (h.typ = mCLOSE → m.len = 0 → ((s.orderedTaken n h m).sess n).st = .closing ∧
        ((s.orderedTaken n h m).sess n).closeSeq = some h.seq) ∧
      (s.orderedTaken n h m).ses.inq = s.ses.inq ∧ (s.orderedTaken n h m).mem = s.mem := by
  have hmod : ((s.modMsg n h.seq InMsg.began).sess n) =
      { s.sess n with inMsgs := (s.sess n).inMsgs.map (fun y => if y.seq = h.seq then y.began else y) } := State.sess_modSess_self ..
  have hq : (s.modMsg n h.seq InMsg.began).ses.inq = s.ses.inq := ((SesHeld.refl s).modSess n _).1
  have hmem : (s.modMsg n h.seq InMsg.began).mem = s.mem := State.mem_of_only (State.only_modMsg n h.seq InMsg.began) (by simp)
  have hfil := filter_modMsg (s.sess n).inMsgs h.seq InMsg.began InMsg.seq_began
  unfold State.orderedTaken
  split
  · next hcl =>
    rw [Bool.and_eq_true, decide_eq_true_eq] at hcl
    rw [State.sess_modSess_self, hmod]
    refine ⟨hfil, rfl, fun hne => absurd hcl.1 hne, fun _ _ => ⟨rfl, rfl⟩, ?_, ?_⟩
    · exact ((SesHeld.refl (s.modMsg n h.seq InMsg.began)).modSess n _).1.trans hq
    · exact (State.mem_of_only ((only.refl [.ses] (s.modMsg n h.seq InMsg.began)).modSess (by simp) n _) (by simp)).trans hmem
  · next hcl =>
    rw [hmod]
    refine ⟨hfil, rfl, fun _ => rfl, fun h1 h2 => absurd ?_ hcl, hq, hmem⟩
    rw [h1, h2]
    rfl

theorem isTyp_eq {k : Nat} (ht : isTyp k (port, h) = true) : h.typ = k := by
  simp only [isTyp, Bool.and_eq_true, decide_eq_true_eq] at ht
  exact ht.2

section

theorem State.orderedAct_fence (ht : m.typ = mFENCE) : s.orderedAct n m = s.fenceMsg n m := if_pos ht

theorem State.orderedAct_stat (ht : m.typ = mSTAT) : s.orderedAct n m = s.statMsg n m := by
  unfold State.orderedAct
  rw [ht, if_neg (by decide), if_pos rfl]

theorem State.orderedAct_kill (ht : m.typ = mKILL) : s.orderedAct n m = s.killMsg n m := by
  unfold State.orderedAct
  rw [ht, if_neg (by decide), if_neg (by decide), if_pos rfl]

theorem State.orderedAct_close (ht : m.typ = mCLOSE) : s.orderedAct n m = s.closeMsg n m := by
  unfold State.orderedAct
  rw [ht, if_neg (by decide), if_neg (by decide), if_neg (by decide), if_pos rfl]

theorem State.orderedAct_submit (ht : m.typ = mSUBMIT) : s.orderedAct n m = s.submitMsg n m := by
  unfold State.orderedAct
  rw [ht, if_neg (by decide), if_neg (by decide), if_neg (by decide), if_neg (by decide)]

end

/-- An answer takes no waiting frame. -/
theorem SesHeld.endMsg (hk : SesHeld u s) (n : Nat) (m : InMsg) (code detail : Nat) : SesHeld u (s.endMsg n m code detail) :=
  SesHeld.post (hk.modSess n _) _ _ _ _ _

theorem State.inq_statMsg (n : Nat) (m : InMsg) : (s.statMsg n m).ses.inq = s.ses.inq := by
  unfold State.statMsg
  split
  · exact ((SesHeld.refl s).endMsg n m _ _).1
  · exact (SesHeld.post ((SesHeld.refl s).modSess n _) _ _ _ _ _).1

/-- Settles O44, by the type of the message and what comes before it. -/
theorem sessionMessages : Obligations.SessionMessages := by
  unfold Obligations.SessionMessages
  refine ⟨?_, ?_, ?_, ?_, ?_, ?_⟩
  · intro port h l m c off s n a hq hn hm hbegun hno hmay ha48 hw ho
    obtain ⟨hmem, hseq⟩ := State.msgFor_some hm
    have hy : m.began ∈ (((s.taken l).modMsg n h.seq InMsg.began).sess n).inMsgs := by
      rw [State.modMsg, State.sess_modSess_self]
      exact List.mem_map.mpr ⟨m, hmem, if_pos hseq⟩
    have hothers : onlySess n s ((s.taken l).modMsg n h.seq InMsg.began) := fun k hk => State.sess_modSess_ne _ _ hk
    have hinq : ((s.taken l).modMsg n h.seq InMsg.began).ses.inq = l := ((SesHeld.refl (s.taken l)).modSess n _).1
    have honly : only [.ses] s ((s.taken l).modMsg n h.seq InMsg.began) := (only_ses _).trans (State.only_modMsg n h.seq InMsg.began)
    refine ⟨?_, ?_⟩
    · intro bs ht hf hbs hlen h8 hl hadm hs hb hi
      obtain ⟨eo, ea, es, eb, ei, em⟩ := State.access_modMsg (s := s.taken l) n h.seq InMsg.began (reqFor n) c off bs.length a .wr true pSession
      have hbl : bs.length = m.len - 8 := by rw [hbs, List.length_drop, hlen]
      have hne : bs ≠ [] := List.ne_nil_of_length_pos (by omega)
      have hr := State.rangeNo_admitted (len := bs.length) hn hw (eo.trans ho) true (ea.trans hadm)
      rw [hbl] at hr
      have he := execHxtWrite_begins hq hm ht hf hno hmay ha48 hr
      rw [← hbs, State.placeFragment_stored hn hw (eo.trans ho) 8 hne hl (ea.trans hadm) (es.trans hs) (eb.trans hb) (ei.trans hi)] at he
      have hon := State.only_written (s := (s.taken l).modMsg n h.seq InMsg.began) (c := c) (off := off) bs
      have hses := State.ses_of_only hon (by simp)
      refine ⟨_, he, State.spad_written bs hl, by rw [hses, hinq], fun b hout => ?_, ⟨m.began, ?_, hseq, rfl, hno⟩, ?_, fun k hk => ?_⟩
      · rw [State.byte_written bs hl b hout, State.byte_of_mem_eq em]
        rfl
      · rw [State.sess_of_ses_eq hses]
        exact hy
      · intro d hd
        rw [State.onlyCore_written bs d hd]
        exact State.core_of_cores_eq ((honly .cores).resolve_left (by simp))
      · rw [State.sess_of_ses_eq hses, hothers k hk]
    · intro len de ht hlen hlenEq h0 h1 hl hadm hs hb
      subst hlenEq
      have he := execHxtRead_begins hq hm de ht hmay
      have hb' := State.readBegins_spad (s := s.taken l) de hn hw ho hlen ha48 h0 h1 hl hadm hs hb
      rw [hseq] at hb'
      rw [show sessNum port h = n from rfl, hb'] at he
      have hon := State.only_readOut (s := (s.taken l).modMsg n h.seq InMsg.began) (c := c) (off := off) (leAt m.head 8 4)
      have hco := State.onlyCore_readOut (s := (s.taken l).modMsg n h.seq InMsg.began) (c := c) (off := off) (leAt m.head 8 4)
      have hses := State.ses_of_only hon (by simp)
      have hmemr := State.mem_of_only hon (by simp)
      have hyw : m.began ∈ ((((s.taken l).modMsg n h.seq InMsg.began).readOut c off (leAt m.head 8 4)).sess n).inMsgs := by
        rw [State.sess_of_ses_eq hses]
        exact hy
      refine ⟨_, he, ?_, ?_, ⟨m.began.put 4 (s.spad c off (leAt m.head 8 4)), ?_, hseq, rfl, ?_⟩, ?_, fun k hk => ?_⟩
      · exact ((SesHeld.refl _).modSess n _).1.trans ((congrArg Ses.inq hses).trans hinq)
      · exact (State.mem_of_only (State.only_modMsg n h.seq _) (by simp)).trans (hmemr.trans (State.mem_of_only honly (by simp)))
      · rw [State.modMsg, State.sess_modSess_self]
        exact List.mem_map.mpr ⟨m.began, hyw, if_pos hseq⟩
      · exact InMsg.data_put 4 (by rw [State.spad, State.bytes, List.length_map, upTo, List.length_range])
      · intro d hd
        refine (State.core_of_cores_eq ((State.only_modMsg n h.seq _ .cores).resolve_left (by simp))).trans ?_
        rw [hco d hd]
        exact State.core_of_cores_eq ((honly .cores).resolve_left (by simp))
      · rw [State.modMsg, State.sess_modSess_ne _ _ hk, State.sess_of_ses_eq hses, hothers k hk]
  · intro port h l m c off s n a bs hq hn hm hbegun hno ht hf hbs hw ho hl hadm hs hb hi
    have he := execHxtWrite_further hq hm ht hf hbegun hno
    rw [State.placeFragment_stored (s := s.taken l) hn hw ho _ hbs hl hadm hs hb hi] at he
    have hon := State.only_written (s := s.taken l) (c := c) (off := off) h.payload
    have hses := State.ses_of_only hon (by simp)
    exact ⟨_, he, State.spad_written _ hl, by rw [hses]; rfl, fun b hout => State.byte_written _ hl b hout,
      State.onlyCore_written h.payload, fun k _ => State.sess_of_ses_eq hses k⟩
  · intro n q m s hfind ht hover
    have he : exec (.hxtMessageComplete n q) s = .next (s.finishMsg n.val m) := by
      rw [exec, execHxtMessageComplete, hfind]
      simp only [hover, if_true]
    obtain ⟨h1, h2, -⟩ := (State.msgAnswered_finishMsg (s := s) n.val m).spec
    have hon : only [.outbox, .regs, .eth, .ses, .evt] s (s.finishMsg n.val m) :=
      (only.refl _ s).finishMsg (by simp) (by simp) (by simp) (by simp) (by simp) _ _
    exact ⟨_, he, h1, h2, State.mem_of_only hon (by simp)⟩
  · intro port h l m s n answered hq hn hm htyp hclear hlen
    obtain ⟨-, hseq⟩ := State.msgFor_some hm
    obtain ⟨hmsgs, hout, hst, hclose, hinq, hmem⟩ := State.orderedTaken_spec (s := s.taken l) n h m
    have answers {t : State} (ha : MsgAnswered n m.seq ((s.taken l).orderedTaken n h m) t) (hc : h.typ ≠ mCLOSE) :
        (t.sess n).inMsgs = (s.sess n).inMsgs.filter (fun y => decide (y.seq ≠ h.seq)) ∧ (t.sess n).outSeq = (s.sess n).outSeq + 1 ∧
          (t.sess n).st = (s.sess n).st := by
      obtain ⟨h1, h2, h3, -⟩ := ha.spec
      rw [hseq] at h1
      exact ⟨h1.trans hmsgs, h2.trans (congrArg (· + 1) hout), h3.trans (hst hc)⟩
    refine ⟨fun ht => ?_, fun ht => ?_, fun ht => ?_⟩
    · have hf := isTyp_eq ht
      have he := State.ordered_acts hq ht hm hclear
      rw [State.orderedAct_fence (htyp.trans hf)] at he
      obtain ⟨h1, h2, h3⟩ := answers (State.msgAnswered_fenceMsg n m) (by rw [hf]; decide)
      have hon : only [.outbox, .regs, .eth, .ses, .evt] ((s.taken l).orderedTaken n h m) (((s.taken l).orderedTaken n h m).fenceMsg n m) :=
        (only.refl _ _).fenceMsg (by simp) (by simp) (by simp) (by simp) (by simp) _ _
      exact ⟨_, congrArg Host.Outcome.next he, ⟨((SesHeld.refl _).endMsg n m _ _).1.trans hinq, h1, h2⟩, h3, (State.mem_of_only hon (by simp)).trans hmem⟩
    · have hf := isTyp_eq ht
      have he := State.ordered_acts hq ht hm hclear
      rw [State.orderedAct_stat (htyp.trans hf)] at he
      obtain ⟨h1, h2, h3⟩ := answers (State.msgAnswered_statMsg n m) (by rw [hf]; decide)
      have hon : only [.outbox, .regs, .eth, .ses, .evt] ((s.taken l).orderedTaken n h m) (((s.taken l).orderedTaken n h m).statMsg n m) :=
        (only.refl _ _).statMsg (by simp) (by simp) (by simp) (by simp) (by simp) _ _
      exact ⟨_, congrArg Host.Outcome.next he, ⟨(State.inq_statMsg n m).trans hinq, h1, h2⟩, h3, (State.mem_of_only hon (by simp)).trans hmem⟩
    · have hf := isTyp_eq ht
      have he := State.ordered_acts hq ht hm hclear
      rw [State.orderedAct_close (htyp.trans hf)] at he
      obtain ⟨h1, h2⟩ := hclose hf hlen
      obtain ⟨e1, e2, e3⟩ := State.closeMsg_spec (s := (s.taken l).orderedTaken n h m) (n := n) hlen
      exact ⟨_, congrArg Host.Outcome.next he, e2.trans h1, e1, e3.trans h2⟩
  · intro port h l m s n hq hm ht htyp hclear hst hlen hw
    have hf := isTyp_eq ht
    obtain ⟨-, -, hkept, -⟩ := State.orderedTaken_spec (s := s.taken l) n h m
    have he := State.ordered_acts hq ht hm hclear
    rw [State.orderedAct_kill htyp] at he
    have hne : (((s.taken l).orderedTaken n h m).sess n).st ≠ .free := by
      rw [hkept (by rw [hf]; decide), State.sess_taken, hst]
      decide
    exact ⟨_, congrArg Host.Outcome.next he, State.killMsg_self hlen hw hne⟩
  · intro n m s hfind
    have he : exec (.orderedMessageStart n) s = .next (s.orderedAct n.val m) := by
      rw [exec, execOrderedMessageStart, hfind]
    refine ⟨fun ht => ?_, fun ht hlen => ?_, fun ht hlen hw hst => ?_, fun ht => ?_⟩
    · rcases ht with ht | ht
      · rw [State.orderedAct_fence ht] at he
        obtain ⟨h1, h2, -⟩ := (State.msgAnswered_fenceMsg (s := s) n.val m).spec
        have hon : only [.outbox, .regs, .eth, .ses, .evt] s (s.fenceMsg n.val m) :=
          (only.refl _ _).fenceMsg (by simp) (by simp) (by simp) (by simp) (by simp) _ _
        exact ⟨_, he, h1, h2, State.mem_of_only hon (by simp)⟩
      · rw [State.orderedAct_stat ht] at he
        obtain ⟨h1, h2, -⟩ := (State.msgAnswered_statMsg (s := s) n.val m).spec
        have hon : only [.outbox, .regs, .eth, .ses, .evt] s (s.statMsg n.val m) :=
          (only.refl _ _).statMsg (by simp) (by simp) (by simp) (by simp) (by simp) _ _
        exact ⟨_, he, h1, h2, State.mem_of_only hon (by simp)⟩
    · rw [State.orderedAct_close ht] at he
      exact ⟨_, he, (State.closeMsg_spec hlen).1⟩
    · rw [State.orderedAct_kill ht] at he
      exact ⟨_, he, State.killMsg_self hlen hw hst⟩
    · rw [State.orderedAct_submit ht] at he
      exact ⟨_, he, rfl⟩

end Sys2Proof.Machine
end

section
set_option Elab.async false
/-! SUBMIT (R463) and the count of apertures in use. -/

namespace Sys2Proof.Machine
open Sys2Proof

/-- A SUBMIT with one APERTURE entry: aperture 0 is set to the 4096 bytes at 4096. -/
def apertureMsg : List Byte := [3, 0, 0, 0] ++ toLe 8 0 ++ toLe 8 4096 ++ toLe 8 4096

def apertureFrame : HxtFrame :=
  { ver := 0, typ := mSUBMIT, resp := false, ackonly := false, resvBit := false, tx := 0, session := 3, kepoch := 0, seq := 0, ack := 0,
    sack := 0, frag := 0, nfrag := 1, len := 28, payload := apertureMsg, tag := [] }

def apertureIn : InMsg := { seq := 0, typ := mSUBMIT, nfrag := 1, len := 28, head := apertureMsg }

/-- A session that holds 4096 apertures and waits for its SUBMIT. -/
def crowdedSession : Session := { part := 5, inMsgs := [apertureIn], aps := List.replicate 4096 (9, none) }

/-- The lower megabyte of the Cellar, partition 5's. -/
def lowerRegion : Region :=
  { base := 0, size := 1048576, part := 5, hub := false, group := 0, nocache := false, kslot := 0, ksrc := 0, zkill := false }

/-- Session 3, listed after session 5, holds 4096 apertures: a change to it lists it a second time. -/
def crowded : State :=
  { State.reset with
    ses := { State.reset.ses with inq := [(0, apertureFrame)], ctx := [(5, { part := 5 }), (3, crowdedSession)] },
    cfg := { State.reset.cfg with regions := [lowerRegion] } }

/-- Whether session 3 has aperture 0 set once a command has run. -/
def apertureSet (o : Host.Outcome State Fault Refusal) : Bool :=
  match o with
  | .next t => (Sparse.get none (t.sess 3).aps 0).isSome
  | _ => false

/-- Refutes O45: with its contexts out of order, the beginning of the SUBMIT lists the session twice, so that its 4096 apertures count
as 8192 and the APERTURE entry is answered BUSY. -/
theorem not_submits : ¬ Obligations.Submits := by
  intro h
  obtain ⟨-, -, -, -, h, -⟩ := h 0 apertureFrame [] apertureIn 3 1 crowded (by decide +kernel) (by decide +kernel) (by decide +kernel)
    (by decide +kernel) (by decide +kernel) (by decide +kernel) (by decide +kernel) (by decide +kernel) (by decide +kernel)
    (by decide +kernel) (by decide +kernel)
  obtain ⟨h, -⟩ := h rfl (by decide +kernel) (by decide +kernel) (by decide +kernel)
  obtain ⟨v, he, hv, -⟩ := h lowerRegion
    (by decide +kernel) (by decide +kernel) (by decide +kernel) (by decide +kernel) (by decide +kernel) rfl (by decide +kernel)
    (by decide +kernel) (by decide +kernel) (by decide +kernel)
  have hnot : apertureSet (exec .submitAperture crowded) = false := by decide +kernel
  obtain ⟨-, -, -, haps, -⟩ := (State.msgAnswered_endMsg (s := v) 3 apertureIn stOK 0).spec
  change exec .submitAperture crowded = .next (v.endMsg 3 apertureIn stOK 0) at he
  change Sparse.get none (v.sess 3).aps 0 = _ at hv
  rw [he, apertureSet, haps, hv] at hnot
  exact absurd hnot (by decide)

end Sys2Proof.Machine
end

section
set_option Elab.async false
/-! Tenant records and the kill of a session (R466, R480, R499). -/

namespace Sys2Proof.Machine
open Sys2Proof
variable {s t : State}

/-- The kill of a session keeps the tenant records. -/
theorem State.tenants_killSession (n : Nat) : (s.killSession n).ses.tenants = s.ses.tenants := by
  have answered (l : List InMsg) (u : State) : (l.foldl (fun t m => t.endMsg n m stKILLED 0) u).ses.tenants = u.ses.tenants := by
    induction l generalizing u with
    | nil => rfl
    | cons m ms ih => exact (ih _).trans ((SesHeld.refl u).endMsg n m stKILLED 0).2.2.2
  unfold State.killSession
  extract_lets x t
  split
  · rfl
  · have ht : t.ses.tenants = s.ses.tenants := by
      simp only [t]
      split
      · exact answered _ _
      · rfl
    obtain ⟨u, hu, he⟩ := State.dropSession_eq (s := t.dropStalls n) n
    have hdrop : ((t.dropStalls n).dropSession n).ses.tenants = s.ses.tenants := by
      rw [he, ((SesHeld.refl u).modSess n _).2.2.2, hu, State.ses_dropStalls, ht]
    exact ((SesHeld.refl _).modSess n _).2.2.2.trans hdrop

/-- A record set stands in the table, the others stay, and no session changes. -/
theorem State.setTenant_spec (i : Nat) (r : Tenant) : Sparse.get 0 (s.setTenant i r).ses.tenants i = r ∧
    (∀ k, k ≠ i → Sparse.get 0 (s.setTenant i r).ses.tenants k = Sparse.get 0 s.ses.tenants k) ∧
    (s.setTenant i r).ses.ctx = s.ses.ctx ∧ (∀ k, (s.setTenant i r).sessionsBy k = s.sessionsBy k) ∧ only [.ses] s (s.setTenant i r) :=
  ⟨Sparse.get_put_self _ s.ses.tenants i r, fun _ hk => Sparse.get_put_ne _ _ s.ses.tenants r hk, rfl, fun _ => rfl, only_ses _⟩

/-- The sessions of a record that is cleared do not bear on the table. -/
theorem State.tenants_clearTenant (i : Nat) : (s.clearTenant i).ses.tenants = (s.setTenant i 0).ses.tenants := by
  unfold State.clearTenant
  extract_lets t
  exact State.each_inv t (fun u => u.ses.tenants = t.ses.tenants) _ _ (fun _ n hu => (State.tenants_killSession n).trans hu) rfl

/-- Settles O47, by the tenants' sparse table and the kill of each session. -/
theorem tenantsAndKills : Obligations.TenantsAndKills := by
  unfold Obligations.TenantsAndKills
  refine ⟨fun r i s hr => ⟨?_, ?_⟩, ?_⟩
  · exact ⟨_, by rw [exec, execTenantWrite, State.atReg_may _ _ _ _ _ _ hr], by
      obtain ⟨hself, hother, hctx, -, hon⟩ := State.setTenant_spec (s := s) i.val s.stagedTenant
      exact ⟨hself, hother, hctx, hon⟩⟩
  · obtain ⟨hself, hother, -, hby, hon⟩ := State.setTenant_spec (s := s) i.val 0
    rw [← State.tenants_clearTenant] at hself hother
    refine ⟨s.clearTenant i.val, by rw [exec, execTenantClear, State.atReg_may _ _ _ _ _ _ hr], hself, hother, fun hnone => ?_⟩
    have hsame : s.clearTenant i.val = s.setTenant i.val 0 := by
      rw [State.clearTenant, hby, hnone]
      rfl
    rw [hsame]
    exact hon
  · intro r n s hr hst
    exact ⟨_, by rw [exec, execSesKillGo, State.atReg_may _ _ _ _ _ _ hr], State.sess_killSession n.val hst⟩

end Sys2Proof.Machine
end

section
set_option Elab.async false
/-! What the steps of a scrub leave of the scrubs that run and of what waits for them. -/

namespace Sys2Proof.Machine
open Sys2Proof
variable {s₀ s t u : State}

/-- The scrubs that run, the check of a debug token, the load, the configuration and the warm reset stay. -/
def ScrubHeld (s t : State) : Prop :=
  t.sec.scrubs = s.sec.scrubs ∧ t.sec.vendorDue = s.sec.vendorDue ∧ t.sec.tokBusy = s.sec.tokBusy ∧ t.sec.tokRes = s.sec.tokRes ∧ t.trl = s.trl ∧ t.cfg = s.cfg ∧ t.evt.warm = s.evt.warm

theorem ScrubHeld.refl (s : State) : ScrubHeld s s := ⟨rfl, rfl, rfl, rfl, rfl, rfl, rfl⟩

theorem ScrubHeld.of_eq (hk : ScrubHeld s₀ s) (e1 : t.sec = s.sec) (e2 : t.trl = s.trl) (e3 : t.cfg = s.cfg) (e4 : t.evt = s.evt) : ScrubHeld s₀ t := by
  rwa [ScrubHeld, e1, e2, e3, e4]

theorem ScrubHeld.fields (hk : ScrubHeld s₀ s) {a1 a2 a3 a4 a5 a6 a7 a8 a9 a10 a11 a12 a13 a14 a15 a16 a17 a18 a19 a20 a21}
    (e : a15.scrubs = s.sec.scrubs ∧ a15.vendorDue = s.sec.vendorDue ∧ a15.tokBusy = s.sec.tokBusy ∧ a15.tokRes = s.sec.tokRes ∧ a16 = s.trl ∧ a17 = s.cfg ∧ a21.warm = s.evt.warm) :
    ScrubHeld s₀ (State.mk a1 a2 a3 a4 a5 a6 a7 a8 a9 a10 a11 a12 a13 a14 a15 a16 a17 a18 a19 a20 a21) := by
  unfold ScrubHeld at *
  simp only [e]
  exact hk

theorem ScrubHeld.others (hk : ScrubHeld s₀ s) {a1 a2 a3 a4 a5 a6 a7 a8 a9 a10 a11 a12 a13 a14 a18 a19 a20} :
    ScrubHeld s₀ (State.mk a1 a2 a3 a4 a5 a6 a7 a8 a9 a10 a11 a12 a13 a14 s.sec s.trl s.cfg a18 a19 a20 s.evt) := hk.of_eq rfl rfl rfl rfl

theorem ScrubHeld.each {α : Type} (hk : ScrubHeld s₀ s) (l : List α) (f : State → α → State)
    (hf : ∀ t x, ScrubHeld s₀ t → ScrubHeld s₀ (f t x)) : ScrubHeld s₀ (s.each l f) := State.each_inv s (ScrubHeld s₀) l f hf hk

theorem ScrubHeld.foldl {α : Type} (hk : ScrubHeld s₀ s) (l : List α) (f : State → α → State)
    (hf : ∀ t x, ScrubHeld s₀ t → ScrubHeld s₀ (f t x)) : ScrubHeld s₀ (l.foldl f s) := hk.each l f hf

theorem ScrubHeld.log (hk : ScrubHeld s₀ s) (e : Event) : ScrubHeld s₀ (s.log e) := by
  unfold ScrubHeld at *
  rw [State.log_sec, State.log_trl, State.log_cfg, State.log_evt]
  exact hk

theorem ScrubHeld.setBytes (hk : ScrubHeld s₀ s) (a : Nat) (bs : List Byte) : ScrubHeld s₀ (s.setBytes a bs) := by
  unfold ScrubHeld at *
  rw [State.setBytes_sec, State.setBytes_trl, State.setBytes_cfg, State.setBytes_evt]
  exact hk

theorem ScrubHeld.setRg (hk : ScrubHeld s₀ s) (n : RegName) (c i j : Nat) (v : W32) : ScrubHeld s₀ (s.setRg n c i j v) := by
  unfold State.setRg
  grind [ScrubHeld.fields, ScrubHeld.others]

theorem ScrubHeld.setRgHi (hk : ScrubHeld s₀ s) (n : RegName) (c i j : Nat) (v : W32) : ScrubHeld s₀ (s.setRgHi n c i j v) := by
  unfold State.setRgHi
  grind [ScrubHeld.fields, ScrubHeld.others]

theorem ScrubHeld.setRg64 (hk : ScrubHeld s₀ s) (n : RegName) (c i j v : Nat) : ScrubHeld s₀ (s.setRg64 n c i j v) := by
  unfold State.setRg64
  grind [ScrubHeld.fields, ScrubHeld.others, ScrubHeld.setRg, ScrubHeld.setRgHi]

theorem ScrubHeld.count (hk : ScrubHeld s₀ s) (n : RegName) (c i k : Nat) : ScrubHeld s₀ (s.count n c i k) := by
  unfold State.count
  grind [ScrubHeld.fields, ScrubHeld.others, ScrubHeld.setRg]

theorem ScrubHeld.setCore (hk : ScrubHeld s₀ s) (c : Nat) (x : Core) : ScrubHeld s₀ (s.setCore c x) := by
  unfold State.setCore
  grind [ScrubHeld.fields, ScrubHeld.others]

theorem ScrubHeld.modCore (hk : ScrubHeld s₀ s) (c : Nat) (f : Core → Core) : ScrubHeld s₀ (s.modCore c f) := by
  unfold State.modCore
  grind [ScrubHeld.fields, ScrubHeld.others, ScrubHeld.setCore]

theorem ScrubHeld.modTile (hk : ScrubHeld s₀ s) (c h : Nat) (f : Tile → Tile) : ScrubHeld s₀ (s.modTile c h f) := by
  unfold State.modTile
  grind [ScrubHeld.fields, ScrubHeld.others, ScrubHeld.modCore]

theorem ScrubHeld.modSeq (hk : ScrubHeld s₀ s) (c : Nat) (f : Seq → Seq) : ScrubHeld s₀ (s.modSeq c f) := by
  unfold State.modSeq
  grind [ScrubHeld.fields, ScrubHeld.others, ScrubHeld.modCore]

theorem ScrubHeld.modArr (hk : ScrubHeld s₀ s) (c : Nat) (f : Arr → Arr) : ScrubHeld s₀ (s.modArr c f) := by
  unfold State.modArr
  grind [ScrubHeld.fields, ScrubHeld.others, ScrubHeld.modCore]

theorem ScrubHeld.modChan (hk : ScrubHeld s₀ s) (c ch : Nat) (f : Chan → Chan) : ScrubHeld s₀ (s.modChan c ch f) := by
  unfold State.modChan
  grind [ScrubHeld.fields, ScrubHeld.others, ScrubHeld.modCore]

theorem ScrubHeld.setSlot (hk : ScrubHeld s₀ s) (c n : Nat) (x : Slot) : ScrubHeld s₀ (s.setSlot c n x) := by
  unfold State.setSlot
  grind [ScrubHeld.fields, ScrubHeld.others, ScrubHeld.modCore]

theorem ScrubHeld.modDisp (hk : ScrubHeld s₀ s) (d : Nat) (f : Disp → Disp) : ScrubHeld s₀ (s.modDisp d f) := by
  unfold State.modDisp
  grind [ScrubHeld.fields, ScrubHeld.others]

theorem ScrubHeld.modPort (hk : ScrubHeld s₀ s) (p : Nat) (f : Port → Port) : ScrubHeld s₀ (s.modPort p f) := by
  unfold State.modPort
  grind [ScrubHeld.fields, ScrubHeld.others]

theorem ScrubHeld.modGroup (hk : ScrubHeld s₀ s) (g : Nat) (f : Group → Group) : ScrubHeld s₀ (s.modGroup g f) := by
  unfold State.modGroup
  grind [ScrubHeld.fields, ScrubHeld.others]

theorem ScrubHeld.modEth (hk : ScrubHeld s₀ s) (p : Nat) (f : Eth → Eth) : ScrubHeld s₀ (s.modEth p f) := by
  unfold State.modEth
  grind [ScrubHeld.fields, ScrubHeld.others]

theorem ScrubHeld.modSess (hk : ScrubHeld s₀ s) (n : Nat) (f : Session → Session) : ScrubHeld s₀ (s.modSess n f) := by
  unfold State.modSess
  grind [ScrubHeld.fields, ScrubHeld.others]

theorem ScrubHeld.setSec (hk : ScrubHeld s₀ s) {x : Sec} (h1 : x.scrubs = s.sec.scrubs)
    (h2 : x.vendorDue = s.sec.vendorDue) (h3 : x.tokBusy = s.sec.tokBusy) (h4 : x.tokRes = s.sec.tokRes)
      : ScrubHeld s₀ (s.setSec x) := by
  unfold State.setSec
  exact hk.fields ⟨h1, h2, h3, h4, rfl, rfl, rfl⟩

theorem ScrubHeld.send (hk : ScrubHeld s₀ s) (o : Out) : ScrubHeld s₀ (s.send o) := by
  unfold State.send
  grind [ScrubHeld.fields, ScrubHeld.others]

theorem ScrubHeld.act (hk : ScrubHeld s₀ s) (c j n : Nat) : ScrubHeld s₀ (s.act c j n) := by
  unfold State.act
  grind [ScrubHeld.fields, ScrubHeld.others, ScrubHeld.modCore]

theorem ScrubHeld.coreEvent (hk : ScrubHeld s₀ s) (c code cls detail : Nat) : ScrubHeld s₀ (s.coreEvent c code cls detail) := by
  unfold State.coreEvent
  grind [ScrubHeld.fields, ScrubHeld.others, ScrubHeld.log]

theorem ScrubHeld.partEvent (hk : ScrubHeld s₀ s) (p code cls detail : Nat) : ScrubHeld s₀ (s.partEvent p code cls detail) := by
  unfold State.partEvent
  grind [ScrubHeld.fields, ScrubHeld.others, ScrubHeld.log]

theorem ScrubHeld.zeroRange (hk : ScrubHeld s₀ s) (a n : Nat) : ScrubHeld s₀ (s.zeroRange a n) := hk.of_eq rfl rfl rfl rfl

theorem ScrubHeld.setSpad (hk : ScrubHeld s₀ s) (c off : Nat) (bs : List Byte) : ScrubHeld s₀ (s.setSpad c off bs) := by
  unfold State.setSpad
  grind [ScrubHeld.fields, ScrubHeld.others, ScrubHeld.setBytes]

theorem ScrubHeld.setKslot (hk : ScrubHeld s₀ s) (k : Nat) (x : KSlot) : ScrubHeld s₀ (s.setKslot k x) := by
  unfold State.setKslot
  grind [ScrubHeld.fields, ScrubHeld.others]

theorem ScrubHeld.sendPacket (hk : ScrubHeld s₀ s) (p : Nat) (k : Packet) : ScrubHeld s₀ (s.sendPacket p k) := by
  unfold State.sendPacket
  grind [ScrubHeld.fields, ScrubHeld.others, ScrubHeld.modPort, ScrubHeld.each, ScrubHeld.send]

theorem ScrubHeld.groupAct (hk : ScrubHeld s₀ s) (g j n : Nat) : ScrubHeld s₀ (s.groupAct g j n) := by
  unfold State.groupAct
  grind [ScrubHeld.fields, ScrubHeld.others]

theorem ScrubHeld.groupSend (hk : ScrubHeld s₀ s) (g p : Nat) (k : Packet) : ScrubHeld s₀ (s.groupSend g p k) := by
  unfold State.groupSend
  grind [ScrubHeld.fields, ScrubHeld.others, ScrubHeld.groupAct, ScrubHeld.sendPacket]

theorem ScrubHeld.toParent (hk : ScrubHeld s₀ s) (g : Nat) (k : Packet) : ScrubHeld s₀ (s.toParent g k) := by
  unfold State.toParent
  grind [ScrubHeld.fields, ScrubHeld.others, ScrubHeld.groupSend]

theorem ScrubHeld.toKids (hk : ScrubHeld s₀ s) (g : Nat) (k : Packet) : ScrubHeld s₀ (s.toKids g k) := by
  unfold State.toKids
  grind [ScrubHeld.fields, ScrubHeld.others, ScrubHeld.each, ScrubHeld.groupSend]

theorem ScrubHeld.spdErr (hk : ScrubHeld s₀ s) (c kind num : Nat) (nowin : Bool := false)
    : ScrubHeld s₀ (s.spdErr c kind num nowin) := by
  unfold State.spdErr
  grind [ScrubHeld.fields, ScrubHeld.others, ScrubHeld.setRg]

theorem ScrubHeld.slotTouch (hk : ScrubHeld s₀ s) (c off len : Nat) (wr : Bool) : ScrubHeld s₀ (s.slotTouch c off len wr) := by
  unfold State.slotTouch
  grind [ScrubHeld.fields, ScrubHeld.others, ScrubHeld.each, ScrubHeld.setSlot]

theorem ScrubHeld.slotClass (hk : ScrubHeld s₀ s) (c n : Nat) (r : Option Req) (wr : Bool) (cls : Nat)
    : ScrubHeld s₀ (s.slotClass c n r wr cls) := by
  unfold State.slotClass
  grind [ScrubHeld.fields, ScrubHeld.others, ScrubHeld.spdErr, ScrubHeld.log, ScrubHeld.coreEvent]

theorem ScrubHeld.slotRelease (hk : ScrubHeld s₀ s) (c n cls : Nat) : ScrubHeld s₀ (s.slotRelease c n cls) := by
  unfold State.slotRelease
  grind [ScrubHeld.fields, ScrubHeld.others, ScrubHeld.setSlot]

theorem ScrubHeld.wordAct (hk : ScrubHeld s₀ s) (c off len : Nat) : ScrubHeld s₀ (s.wordAct c off len) := by
  unfold State.wordAct
  grind [ScrubHeld.fields, ScrubHeld.others, ScrubHeld.act]

theorem ScrubHeld.ringHook (hk : ScrubHeld s₀ s) (c off : Nat) (bs : List Byte) : ScrubHeld s₀ (s.ringHook c off bs) := by
  unfold State.ringHook
  grind [ScrubHeld.fields, ScrubHeld.others, ScrubHeld.modSeq]

theorem ScrubHeld.store (hk : ScrubHeld s₀ s) (c off : Nat) (bs : List Byte) : ScrubHeld s₀ (s.store c off bs) := by
  unfold State.store
  grind [ScrubHeld.fields, ScrubHeld.others, ScrubHeld.setSpad, ScrubHeld.ringHook, ScrubHeld.wordAct]

theorem ScrubHeld.spadWrite (hk : ScrubHeld s₀ s) (c off : Nat) (bs : List Byte) (cls : Nat)
    : ScrubHeld s₀ (s.spadWrite c off bs cls).2 := by
  unfold State.spadWrite
  grind [ScrubHeld.fields, ScrubHeld.others, ScrubHeld.slotClass, ScrubHeld.slotTouch, ScrubHeld.store]

theorem ScrubHeld.writeRd (hk : ScrubHeld s₀ s) (c : Nat) : ScrubHeld s₀ (s.writeRd c) := by
  unfold State.writeRd
  grind [ScrubHeld.fields, ScrubHeld.others, ScrubHeld.setSpad]

theorem ScrubHeld.setRd (hk : ScrubHeld s₀ s) (c i : Nat) : ScrubHeld s₀ (s.setRd c i) := by
  unfold State.setRd
  grind [ScrubHeld.fields, ScrubHeld.others, ScrubHeld.modSeq, ScrubHeld.writeRd]

theorem ScrubHeld.seqDoneAt (hk : ScrubHeld s₀ s) (c i : Nat) : ScrubHeld s₀ (s.seqDoneAt c i) := by
  unfold State.seqDoneAt
  grind [ScrubHeld.fields, ScrubHeld.others, ScrubHeld.setRd, ScrubHeld.modSeq]

theorem ScrubHeld.seqDone (hk : ScrubHeld s₀ s) (c : Nat) : ScrubHeld s₀ (s.seqDone c) := by
  unfold State.seqDone
  grind [ScrubHeld.fields, ScrubHeld.others, ScrubHeld.seqDoneAt]

theorem ScrubHeld.setScalar (hk : ScrubHeld s₀ s) (c n v : Nat) : ScrubHeld s₀ (s.setScalar c n v) := by
  unfold State.setScalar
  grind [ScrubHeld.fields, ScrubHeld.others, ScrubHeld.setRg64]

theorem ScrubHeld.closeClaim (hk : ScrubHeld s₀ s) (x : Claim) : ScrubHeld s₀ (s.closeClaim x) := by
  unfold State.closeClaim
  grind [ScrubHeld.fields, ScrubHeld.others]

theorem ScrubHeld.dropSums (hk : ScrubHeld s₀ s) (d : Nat) : ScrubHeld s₀ (s.dropSums d) := by
  unfold State.dropSums
  grind [ScrubHeld.fields, ScrubHeld.others]

theorem ScrubHeld.dropHub (hk : ScrubHeld s₀ s) (d : Nat) : ScrubHeld s₀ (s.dropHub d) := by
  unfold State.dropHub
  grind [ScrubHeld.fields, ScrubHeld.others]

theorem ScrubHeld.clearHub (hk : ScrubHeld s₀ s) (d : Nat) : ScrubHeld s₀ (s.clearHub d) := by
  unfold State.clearHub
  grind [ScrubHeld.fields, ScrubHeld.others]

theorem ScrubHeld.settle (hk : ScrubHeld s₀ s) (d : Nat) : ScrubHeld s₀ (s.settle d) := by
  unfold State.settle
  grind [ScrubHeld.fields, ScrubHeld.others, ScrubHeld.modDisp]

theorem ScrubHeld.answerClaim (hk : ScrubHeld s₀ s) (c h : Nat) (r : CRec) : ScrubHeld s₀ (s.answerClaim c h r) := by
  unfold State.answerClaim
  grind [ScrubHeld.fields, ScrubHeld.others, ScrubHeld.spadWrite, ScrubHeld.setScalar, ScrubHeld.modCore, ScrubHeld.modTile, ScrubHeld.seqDone]

theorem ScrubHeld.abortHeld (hk : ScrubHeld s₀ s) (d : Nat) (p : ClaimReq → Bool) : ScrubHeld s₀ (s.abortHeld d p) := by
  unfold State.abortHeld
  grind [ScrubHeld.fields, ScrubHeld.others, ScrubHeld.modDisp, ScrubHeld.each, ScrubHeld.answerClaim]

theorem ScrubHeld.disarmDisp (hk : ScrubHeld s₀ s) (d : Nat) : ScrubHeld s₀ (s.disarmDisp d) := by
  unfold State.disarmDisp
  grind [ScrubHeld.fields, ScrubHeld.others, ScrubHeld.abortHeld, ScrubHeld.dropSums, ScrubHeld.dropHub, ScrubHeld.modDisp]

theorem ScrubHeld.endClaim (hk : ScrubHeld s₀ s) (c d tile epoch : Nat) : ScrubHeld s₀ (s.endClaim c d tile epoch) := by
  unfold State.endClaim
  grind [ScrubHeld.fields, ScrubHeld.others, ScrubHeld.closeClaim, ScrubHeld.settle]

theorem ScrubHeld.flagTile (hk : ScrubHeld s₀ s) (c h : Nat) (l : List Nat) : ScrubHeld s₀ (s.flagTile c h l) := by
  unfold State.flagTile
  grind [ScrubHeld.fields, ScrubHeld.others, ScrubHeld.modTile]

theorem ScrubHeld.unstall (hk : ScrubHeld s₀ s) (c : Nat) (p : StallBy → Bool) : ScrubHeld s₀ (s.unstall c p) := by
  unfold State.unstall
  grind [ScrubHeld.fields, ScrubHeld.others, ScrubHeld.modCore]

theorem ScrubHeld.chanHalt (hk : ScrubHeld s₀ s) (c ch err : Nat) : ScrubHeld s₀ (s.chanHalt c ch err) := by
  unfold State.chanHalt
  grind [ScrubHeld.fields, ScrubHeld.others, ScrubHeld.modChan, ScrubHeld.unstall, ScrubHeld.count]

theorem ScrubHeld.arrKick (hk : ScrubHeld s₀ s) (c : Nat) : ScrubHeld s₀ (s.arrKick c) := by
  unfold State.arrKick
  grind [ScrubHeld.fields, ScrubHeld.others, ScrubHeld.modTile]

theorem ScrubHeld.arrLeave (hk : ScrubHeld s₀ s) (c : Nat) : ScrubHeld s₀ (s.arrLeave c) := by
  unfold State.arrLeave
  grind [ScrubHeld.fields, ScrubHeld.others, ScrubHeld.modArr, ScrubHeld.arrKick]

theorem ScrubHeld.arrDrop (hk : ScrubHeld s₀ s) (c h : Nat) : ScrubHeld s₀ (s.arrDrop c h) := by
  unfold State.arrDrop
  grind [ScrubHeld.fields, ScrubHeld.others, ScrubHeld.modArr, ScrubHeld.arrLeave]

theorem ScrubHeld.dropWork (hk : ScrubHeld s₀ s) (c h : Nat) : ScrubHeld s₀ (s.dropWork c h) := by
  unfold State.dropWork
  grind [ScrubHeld.fields, ScrubHeld.others, ScrubHeld.modCore, ScrubHeld.arrDrop]

theorem ScrubHeld.releaseSlots (hk : ScrubHeld s₀ s) (c h : Nat) : ScrubHeld s₀ (s.releaseSlots c h) := by
  unfold State.releaseSlots
  exact (hk.each _ _ fun t n h => h.slotRelease _ _ _).each _ _ fun t n h => h.slotRelease _ _ _

theorem ScrubHeld.abortChans (hk : ScrubHeld s₀ s) (c h : Nat) : ScrubHeld s₀ (s.abortChans c h) := by
  unfold State.abortChans
  grind [ScrubHeld.fields, ScrubHeld.others, ScrubHeld.each, ScrubHeld.store, ScrubHeld.chanHalt]

theorem ScrubHeld.freeTile (hk : ScrubHeld s₀ s) (c h : Nat) : ScrubHeld s₀ (s.freeTile c h) := by
  unfold State.freeTile
  grind [ScrubHeld.fields, ScrubHeld.others, ScrubHeld.dropWork, ScrubHeld.unstall, ScrubHeld.modTile, ScrubHeld.modSeq]

theorem ScrubHeld.abortWait (hk : ScrubHeld s₀ s) (c h : Nat) (tsw : W32) : ScrubHeld s₀ (s.abortWait c h tsw) := by
  unfold State.abortWait
  grind [ScrubHeld.fields, ScrubHeld.others, ScrubHeld.setScalar, ScrubHeld.seqDone]

theorem ScrubHeld.abortTile (hk : ScrubHeld s₀ s) (c h : Nat) : ScrubHeld s₀ (s.abortTile c h) := by
  unfold State.abortTile
  grind (gen := 40) (ematch := 40) [ScrubHeld.fields, ScrubHeld.others, ScrubHeld.flagTile, ScrubHeld.releaseSlots, ScrubHeld.abortChans,
    ScrubHeld.abortWait, ScrubHeld.freeTile]

theorem ScrubHeld.endTile (hk : ScrubHeld s₀ s) (c h : Nat) : ScrubHeld s₀ (s.endTile c h) := by
  unfold State.endTile
  grind [ScrubHeld.fields, ScrubHeld.others, ScrubHeld.endClaim, ScrubHeld.abortTile]

theorem ScrubHeld.groupEvent (hk : ScrubHeld s₀ s) (g code cls detail tile : Nat)
    : ScrubHeld s₀ (s.groupEvent g code cls detail tile) := by
  unfold State.groupEvent
  grind [ScrubHeld.fields, ScrubHeld.others, ScrubHeld.log]

theorem ScrubHeld.endRounds (hk : ScrubHeld s₀ s) (g cause : Nat) (doubt : Bool)
    : ScrubHeld s₀ (s.endRounds g cause doubt) := by
  unfold State.endRounds
  grind [ScrubHeld.fields, ScrubHeld.others, ScrubHeld.endTile, ScrubHeld.groupEvent, ScrubHeld.modGroup, ScrubHeld.foldl]

theorem ScrubHeld.sendAbort (hk : ScrubHeld s₀ s) (g cause : Nat) : ScrubHeld s₀ (s.sendAbort g cause) := by
  unfold State.sendAbort
  grind [ScrubHeld.fields, ScrubHeld.others, ScrubHeld.toKids, ScrubHeld.toParent]

theorem ScrubHeld.abortGroup (hk : ScrubHeld s₀ s) (g cause : Nat) (doubt : Bool)
    : ScrubHeld s₀ (s.abortGroup g cause doubt) := by
  unfold State.abortGroup
  grind [ScrubHeld.fields, ScrubHeld.others, ScrubHeld.sendAbort, ScrubHeld.endRounds]

theorem ScrubHeld.resetGroup (hk : ScrubHeld s₀ s) (g : Nat) : ScrubHeld s₀ (s.resetGroup g) := by
  unfold State.resetGroup
  grind [ScrubHeld.fields, ScrubHeld.others, ScrubHeld.abortGroup]

theorem ScrubHeld.egressStart (hk : ScrubHeld s₀ s) (p : Nat) : ScrubHeld s₀ (s.egressStart p) := by
  unfold State.egressStart
  grind [ScrubHeld.fields, ScrubHeld.others, ScrubHeld.modEth]

theorem ScrubHeld.egress (hk : ScrubHeld s₀ s) (p : Nat) (f : EFrame) : ScrubHeld s₀ (s.egress p f) := by
  unfold State.egress
  grind [ScrubHeld.fields, ScrubHeld.others, ScrubHeld.modEth, ScrubHeld.egressStart]

theorem ScrubHeld.sendFrame (hk : ScrubHeld s₀ s) (n : Nat) (f : HxtFrame) : ScrubHeld s₀ (s.sendFrame n f) := by
  unfold State.sendFrame
  grind [ScrubHeld.fields, ScrubHeld.others, ScrubHeld.modSess, ScrubHeld.egress, ScrubHeld.send]

theorem ScrubHeld.sendMsg (hk : ScrubHeld s₀ s) (n : Nat) (m : OutMsg) (tx : Nat) : ScrubHeld s₀ (s.sendMsg n m tx) := by
  unfold State.sendMsg
  grind [ScrubHeld.fields, ScrubHeld.others, ScrubHeld.each, ScrubHeld.sendFrame]

theorem ScrubHeld.flushOut (hk : ScrubHeld s₀ s) (n : Nat) : ScrubHeld s₀ (s.flushOut n) := by
  unfold State.flushOut
  grind [ScrubHeld.fields, ScrubHeld.others, ScrubHeld.modSess, ScrubHeld.each, ScrubHeld.sendMsg]

theorem ScrubHeld.post (hk : ScrubHeld s₀ s) (n typ : Nat) (resp : Bool) (pl : List Byte)
    (src : Option (Nat × Nat) := none) : ScrubHeld s₀ (s.post n typ resp pl src) := by
  unfold State.post
  grind [ScrubHeld.fields, ScrubHeld.others, ScrubHeld.modSess, ScrubHeld.flushOut, ScrubHeld.log]

theorem ScrubHeld.respond (hk : ScrubHeld s₀ s) (n typ code detail : Nat) : ScrubHeld s₀ (s.respond n typ code detail) := by
  unfold State.respond
  grind [ScrubHeld.fields, ScrubHeld.others, ScrubHeld.post]

theorem ScrubHeld.endMsg (hk : ScrubHeld s₀ s) (n : Nat) (m : InMsg) (code detail : Nat)
    : ScrubHeld s₀ (s.endMsg n m code detail) := by
  unfold State.endMsg
  grind [ScrubHeld.fields, ScrubHeld.others, ScrubHeld.modSess, ScrubHeld.respond]

theorem ScrubHeld.attest (hk : ScrubHeld s₀ s) (kind : Nat) (part : Option Nat) : ScrubHeld s₀ (s.attest kind part) := by
  unfold State.attest
  exact hk.setSec rfl rfl rfl rfl

theorem ScrubHeld.newKey (hk : ScrubHeld s₀ s) (k : Nat) (st : KeySt) (bound : Option Nat)
    : ScrubHeld s₀ (s.newKey k st bound) := by
  unfold State.newKey
  grind [ScrubHeld.fields, ScrubHeld.others, ScrubHeld.setKslot]

theorem ScrubHeld.queueFill (hk : ScrubHeld s₀ s) (r : Region) : ScrubHeld s₀ (s.queueFill r) := by
  unfold State.queueFill
  grind [ScrubHeld.fields, ScrubHeld.others]

theorem ScrubHeld.destroyKey (hk : ScrubHeld s₀ s) (r : Region) : ScrubHeld s₀ (s.destroyKey r) := by
  unfold State.destroyKey
  grind [ScrubHeld.fields, ScrubHeld.others, ScrubHeld.newKey, ScrubHeld.setKslot, ScrubHeld.queueFill]

theorem ScrubHeld.closeWindows (hk : ScrubHeld s₀ s) (n : Nat) : ScrubHeld s₀ (s.closeWindows n) := by
  unfold State.closeWindows
  grind [ScrubHeld.fields, ScrubHeld.others]

theorem ScrubHeld.closeDebug (hk : ScrubHeld s₀ s) : ScrubHeld s₀ (s.closeDebug) := by
  unfold State.closeDebug
  grind [ScrubHeld.fields, ScrubHeld.others, ScrubHeld.attest]

theorem ScrubHeld.dropSession (hk : ScrubHeld s₀ s) (n : Nat) : ScrubHeld s₀ (s.dropSession n) := by
  unfold State.dropSession
  grind [ScrubHeld.fields, ScrubHeld.others, ScrubHeld.closeWindows, ScrubHeld.each, ScrubHeld.destroyKey, ScrubHeld.closeDebug,
    ScrubHeld.modCore, ScrubHeld.modSess]

theorem ScrubHeld.dropStalls (hk : ScrubHeld s₀ s) (n : Nat) : ScrubHeld s₀ (s.dropStalls n) := by
  unfold State.dropStalls
  grind [ScrubHeld.fields, ScrubHeld.others, ScrubHeld.each, ScrubHeld.unstall]

theorem ScrubHeld.dropFrames (hk : ScrubHeld s₀ s) (n : Nat) : ScrubHeld s₀ (s.dropFrames n) := by
  unfold State.dropFrames
  grind [ScrubHeld.fields, ScrubHeld.others]

theorem ScrubHeld.freeCtx (hk : ScrubHeld s₀ s) (n : Nat) : ScrubHeld s₀ (s.freeCtx n) := by
  unfold State.freeCtx
  grind [ScrubHeld.fields, ScrubHeld.others, ScrubHeld.dropFrames, ScrubHeld.modSess]

theorem ScrubHeld.killSession (hk : ScrubHeld s₀ s) (n : Nat) : ScrubHeld s₀ (s.killSession n) := by
  unfold State.killSession
  grind [ScrubHeld.fields, ScrubHeld.others, ScrubHeld.endMsg, ScrubHeld.dropStalls, ScrubHeld.dropSession, ScrubHeld.freeCtx, ScrubHeld.foldl]

theorem ScrubHeld.dropLines (hk : ScrubHeld s₀ s) (p : Nat → Bool) : ScrubHeld s₀ (s.dropLines p) := by
  unfold State.dropLines
  grind [ScrubHeld.fields, ScrubHeld.others]

theorem ScrubHeld.wipeCore (hk : ScrubHeld s₀ s) (c : Nat) : ScrubHeld s₀ (s.wipeCore c) := by
  unfold State.wipeCore
  grind [ScrubHeld.fields, ScrubHeld.others, ScrubHeld.setCore, ScrubHeld.act, ScrubHeld.zeroRange]

theorem ScrubHeld.resetGroups (hk : ScrubHeld s₀ s) (p : Nat) : ScrubHeld s₀ (s.resetGroups p) := by
  unfold State.resetGroups
  grind [ScrubHeld.fields, ScrubHeld.others, ScrubHeld.each, ScrubHeld.resetGroup]

end Sys2Proof.Machine
end

section
set_option Elab.async false
/-! What shared operations leave unchanged. -/

namespace Sys2Proof
open Sys2Proof.Machine
variable {ps : List Part} {s₀ s t u : State} {c cc : Nat}

theorem only.setSec (hk : only ps s₀ s) (m1 : Part.sec ∈ ps) (x : Sec) : only ps s₀ (s.setSec x) := by
  unfold State.setSec
  grind [only.fields]

theorem only.withPrc (hk : only ps s₀ s) (m : Part.prc ∈ ps) (x : Prc) : only ps s₀ { s with prc := x } := by
  refine hk.fields ?_ ?_ ?_ ?_ ?_ ?_ ?_ ?_ ?_ ?_ ?_ ?_ ?_ ?_ ?_ ?_ ?_ ?_ ?_ ?_ ?_
  all_goals simp [m]

theorem only.withMtr (hk : only ps s₀ s) (m : Part.mtr ∈ ps) (x : Mtr) : only ps s₀ { s with mtr := x } := by
  refine hk.fields ?_ ?_ ?_ ?_ ?_ ?_ ?_ ?_ ?_ ?_ ?_ ?_ ?_ ?_ ?_ ?_ ?_ ?_ ?_ ?_ ?_
  all_goals simp [m]

theorem only.partEvent (hk : only ps s₀ s) (m1 : Part.regs ∈ ps) (m2 : Part.ses ∈ ps) (m3 : Part.evt ∈ ps)
    (p code cls detail : Nat) : only ps s₀ (s.partEvent p code cls detail) := by
  unfold State.partEvent
  grind [only.fields, only.log]

theorem only.attest (hk : only ps s₀ s) (m1 : Part.sec ∈ ps) (kind : Nat) (part : Option Nat)
    : only ps s₀ (s.attest kind part) :=
  hk.setSec m1 _

theorem only.wipeCore (hk : only ps s₀ s) (m1 : Part.regs ∈ ps) (m2 : Part.latches ∈ ps) (m3 : Part.mem ∈ ps)
    (m4 : Part.cores ∈ ps) (m5 : Part.sdt ∈ ps) (m6 : Part.tch ∈ ps) (c : Nat) : only ps s₀ (s.wipeCore c) := by
  unfold State.wipeCore
  extract_lets k t sdt tch u
  have ht : only ps s₀ t := hk.setCore m4 _ _
  have hu : only ps s₀ u := by
    simp only [u]
    clear_value t
    grind [only.fields]
  exact hu.zeroRange m3 _ _

theorem only.railOn (hk : only ps s₀ s) (m1 : Part.outbox ∈ ps) (m2 : Part.prc ∈ ps) (k mv : Nat)
    : only ps s₀ (s.railOn k mv) :=
  (hk.withPrc m2 _).send m1 _

theorem only.railOff (hk : only ps s₀ s) (m1 : Part.outbox ∈ ps) (m2 : Part.prc ∈ ps) (k : Nat) : only ps s₀ (s.railOff k) :=
  (hk.withPrc m2 _).send m1 _

theorem only.railsOff (hk : only ps s₀ s) (m1 : Part.outbox ∈ ps) (m2 : Part.prc ∈ ps) (ks : List Nat)
    : only ps s₀ (s.railsOff ks) := by
  unfold State.railsOff
  grind [only.fields, only.each, only.railOff]

theorem only.keeper (hk : only ps s₀ s) (m1 : Part.outbox ∈ ps) (m2 : Part.prc ∈ ps) : only ps s₀ (s.keeper) := by
  unfold State.keeper
  grind [only.fields, only.railOn]

theorem only.raise (hk : only ps s₀ s) (m1 : Part.outbox ∈ ps) (m2 : Part.prc ∈ ps) (k mv : Nat) : only ps s₀ (s.raise k mv) :=
  (hk.railOn m1 m2 k mv).withPrc m2 _

theorem only.beginWake (hk : only ps s₀ s) (m1 : Part.outbox ∈ ps) (m2 : Part.prc ∈ ps) (code : Nat)
    : only ps s₀ (s.beginWake code) := by
  unfold State.beginWake
  exact (hk.withPrc m2 _).raise m1 m2 _ _

theorem only.charge (hk : only ps s₀ s) (m1 : Part.ses ∈ ps) (m2 : Part.mtr ∈ ps) (core part session : Option Nat) (n : Nat) :
    only ps s₀ (s.charge core part session n) := by
  unfold State.charge
  extract_lets m t
  have ht : only ps s₀ t := hk.withMtr m2 _
  clear_value t
  grind [only.modSess]

theorem only.chargeCore (hk : only ps s₀ s) (m1 : Part.cores ∈ ps) (m2 : Part.ses ∈ ps) (m3 : Part.mtr ∈ ps) (c : Nat) :
    only ps s₀ (s.chargeCore c) :=
  ((hk.charge m2 m3 _ _ _ _).withMtr m3 _).modCore m1 _ _

end Sys2Proof
end

section
set_option Elab.async false
/-! Fuses, rollback counters and scrubs of partitions (R398, R483, R484, R495, R500, R502, R547). -/

namespace Sys2Proof.Machine
open Sys2Proof
variable {s t u : State} {p : Nat}

/-! ### Scratchpads wiped -/

/-- A wiped core's scratchpad reads 0, and the rest of memory stays. -/
theorem State.byte_wipeCore (c a : Nat) :
    (s.wipeCore c).byte a = if spadBase c ≤ a ∧ a < spadBase c + 0x80000 then 0 else s.byte a := by
  unfold State.wipeCore
  extract_lets k t sdt tch u
  exact State.byte_zeroRange ..

/-- Cores that are wiped one after another all read 0. -/
theorem State.byte_wiped (l : List Nat) (a : Nat) (h : s.byte a = 0 ∨ ∃ c ∈ l, spadBase c ≤ a ∧ a < spadBase c + 0x80000) :
    (s.each l (fun t c => t.wipeCore c)).byte a = 0 := by
  induction l generalizing s with
  | nil => simpa using h
  | cons c cs ih =>
    refine ih ?_
    rw [State.byte_wipeCore]
    split
    · exact .inl rfl
    · next hout =>
      refine h.imp_right fun ⟨d, hd, hin⟩ => ?_
      rcases List.mem_cons.mp hd with rfl | hd
      · exact absurd hin hout
      · exact ⟨d, hd, hin⟩

/-! ### A scrub begins -/

/-- A partition is SCRUBBING from the beginning of its scrub, with the scratchpads of its cores 0. -/
theorem State.beginScrub_spec (s : State) (p : Nat) (kill : Bool) :
    (∃ gs, (s.beginScrub p kill).sec.scrubs = s.sec.scrubs ++ [{ part := p, kill := kill, invz := gs }]) ∧
      (∀ c ∈ s.coresOf p, ∀ o, o < 0x80000 → (s.beginScrub p kill).byte (spadBase c + o) = 0) ∧
      (s.beginScrub p kill).sec.vendorDue = s.sec.vendorDue ∧ (s.beginScrub p kill).sec.tokBusy = s.sec.tokBusy ∧
      (s.beginScrub p kill).sec.tokRes = s.sec.tokRes ∧ (s.beginScrub p kill).trl = s.trl ∧ (s.beginScrub p kill).cfg = s.cfg := by
  unfold State.beginScrub
  extract_lets ds t1 t2 t3 t4 t5 t6 gs t7
  have h3 : ScrubHeld s t3 := by
    refine State.each_inv t2 (ScrubHeld s) _ _ (fun t r ht => ht.destroyKey r) ?_
    refine ScrubHeld.resetGroups ?_ p
    exact State.each_inv s (ScrubHeld s) _ _ (fun t d ht => ht.abortHeld d _) (ScrubHeld.refl s)
  have h4 : ScrubHeld s t4 := by
    simp only [t4]
    split
    · exact State.each_inv t3 (ScrubHeld s) _ _ (fun t n ht => ht.killSession n) h3
    · exact h3
  have h5 : ScrubHeld s t5 := State.each_inv t4 (ScrubHeld s) _ _ (fun t d ht => ((ht.disarmDisp d).clearHub d).modDisp d _) h4
  have h7 : ScrubHeld s t7 := (State.each_inv t5 (ScrubHeld s) _ _ (fun t c ht => ht.wipeCore c) h5).dropLines _
  obtain ⟨-, -, -, -, -, hcfg5, -⟩ := h5
  obtain ⟨hscrubs, hvendor, hbusy, hres, htrl, hcfg, -⟩ := h7
  have hcores : t5.coresOf p = s.coresOf p := by rw [State.coresOf, hcfg5, State.coresOf]
  refine ⟨⟨gs, by simp only [hscrubs]⟩, fun c hc o ho => ?_, hvendor, hbusy, hres, htrl, hcfg⟩
  exact State.byte_wiped _ _ (.inr ⟨c, hcores ▸ hc, by omega, by omega⟩)

/-- A load that fails concerns neither the fuses and scrubs nor the configuration. -/
theorem State.failLoad_kept (err : Nat) : (s.failLoad err).sec = s.sec ∧ (s.failLoad err).cfg = s.cfg := by
  unfold State.failLoad
  extract_lets x t u
  have hu : only [.trl, .sdt, .regs, .ses, .evt] s (u.devEvent 0x0602 2 err) :=
    (((only_trl _).mono (by simp)).each _ _ fun v d hv => hv.modDisp (by simp) _ _).devEvent (by simp) (by simp) (by simp) _ _ _
  exact ⟨(hu .sec).resolve_left (by simp), (hu .cfg).resolve_left (by simp)⟩

theorem State.scrubbing_eq : s.scrubbing p = (s.sec.scrubs.find? (fun x => decide (x.part = p))).isSome := by
  rw [State.scrubbing, List.isSome_find?]

/-- The load as a reset or kill of a partition leaves it: one that still waits for the partition fails, one that still reads its
image lets the reset follow. -/
def State.loadReset (s : State) (p cause : Nat) (kill : Bool) : State :=
  if s.trl.partial_ && (s.trl.st = .verify || s.trl.st = .quiesce) && s.trl.changed.contains p then s.failLoad 10
  else if s.trl.st = .read then { s with trl := { s.trl with deferred := s.trl.deferred ++ [(p, cause, kill)] } }
  else s

/-- The measurement or event of a kill or reset. -/
def State.resetRaised (s : State) (p cause : Nat) (kill : Bool) : State :=
  if kill then s.attest attKILL (some p) else s.partEvent p 0x0006 3 cause

section
variable (hs : s.scrubbing p = false)
include hs

theorem State.resetPart_new (ha : s.applying p = false) (cause : Nat) (kill : Bool) : s.resetPart p cause kill =
    if (s.partRec p).isNone then s.loadReset p cause kill else ((s.loadReset p cause kill).resetRaised p cause kill).beginScrub p kill := by
  have hnone : s.sec.scrubs.find? (fun x => decide (x.part = p)) = none := by simpa [State.scrubbing_eq] using hs
  rw [State.resetPart, hnone]
  simp only [ha, Bool.false_eq_true, if_false]
  cases kill <;> rfl

theorem State.resetPart_applying (ha : s.applying p = true) (cause : Nat) (kill : Bool) : s.resetPart p cause kill =
    { s with trl := { s.trl with deferred := s.trl.deferred ++ [(p, cause, kill)] } } := by
  have hnone : s.sec.scrubs.find? (fun x => decide (x.part = p)) = none := by simpa [State.scrubbing_eq] using hs
  rw [State.resetPart, hnone]
  simp only [ha, if_true]

end

theorem State.resetPart_again (hs : s.scrubbing p = true) (cause : Nat) : s.resetPart p cause false = s := by
  obtain ⟨x, hx⟩ := Option.isSome_iff_exists.mp (State.scrubbing_eq ▸ hs)
  rw [State.resetPart, hx]
  rfl

theorem State.trlBusy_false (hb : s.trlBusy = false) : s.trl.st = .idle ∨ s.trl.st = .done ∨ s.trl.st = .failed := by
  unfold State.trlBusy at hb
  split at hb
  · next h => exact .inl h
  · next h => exact .inr (.inl h)
  · next h => exact .inr (.inr h)
  · cases hb

/-- A load that is over is left as it is. -/
theorem State.loadReset_idle (hb : s.trlBusy = false) (p cause : Nat) (kill : Bool) :
    s.loadReset p cause kill = s ∧ s.applying p = false := by
  unfold State.loadReset State.applying
  rcases State.trlBusy_false hb with h | h | h
  all_goals simp [h]

theorem State.loadReset_kept (p cause : Nat) (kill : Bool) :
    (s.loadReset p cause kill).sec = s.sec ∧ (s.loadReset p cause kill).cfg = s.cfg := by
  unfold State.loadReset
  split
  · exact State.failLoad_kept 10
  · split <;> exact ⟨rfl, rfl⟩

theorem ScrubHeld.resetRaised (hk : ScrubHeld u s) (p cause : Nat) (kill : Bool) : ScrubHeld u (s.resetRaised p cause kill) := by
  unfold State.resetRaised
  split
  · exact hk.attest _ _
  · exact hk.partEvent _ _ _ _

/-- A reset or kill of a partition makes it SCRUBBING, with its scratchpads 0. -/
theorem State.resetPart_scrubs (hs : s.scrubbing p = false) (ha : s.applying p = false) (hr : (s.partRec p).isSome = true)
    (cause : Nat) (kill : Bool) :
    (∃ gs, (s.resetPart p cause kill).sec.scrubs = s.sec.scrubs ++ [{ part := p, kill := kill, invz := gs }]) ∧
      (∀ c ∈ s.coresOf p, ∀ o, o < 0x80000 → (s.resetPart p cause kill).byte (spadBase c + o) = 0) ∧
      (s.resetPart p cause kill).cfg = s.cfg := by
  have hrec : ¬ (s.partRec p).isNone = true := by simpa using Option.isSome_iff_ne_none.mp hr
  obtain ⟨hsec, hcfg⟩ := State.loadReset_kept (s := s) p cause kill
  obtain ⟨h1, -, -, -, -, h6, -⟩ := (ScrubHeld.refl (s.loadReset p cause kill)).resetRaised p cause kill
  have hcores : ((s.loadReset p cause kill).resetRaised p cause kill).coresOf p = s.coresOf p := by
    rw [State.coresOf, h6, hcfg, State.coresOf]
  obtain ⟨⟨gs, b1⟩, b2, -, -, -, -, b7⟩ := ((s.loadReset p cause kill).resetRaised p cause kill).beginScrub_spec p kill
  rw [State.resetPart_new hs ha, if_neg hrec]
  rw [hcores] at b2
  exact ⟨⟨gs, by rw [b1, h1, hsec]⟩, b2, b7.trans (h6.trans hcfg)⟩

/-- A kill widens a reset under way. -/
theorem State.resetPart_widened (hs : s.scrubbing p = true) (cause : Nat) :
    (∃ x ∈ (s.resetPart p cause true).sec.scrubs, x.part = p ∧ x.kill = true) ∧
      (∀ y ∈ s.sec.scrubs, y.kill = true → y ∈ (s.resetPart p cause true).sec.scrubs) ∧ 
      ScrubHeld { s with sec := { s.sec with scrubs := (s.resetPart p cause true).sec.scrubs } } (s.resetPart p cause true) := by
  obtain ⟨x, hx⟩ := Option.isSome_iff_exists.mp (State.scrubbing_eq ▸ hs)
  have hmem := List.mem_of_find?_eq_some hx
  have hpart : x.part = p := by simpa using List.find?_some hx
  rw [State.resetPart, hx]
  dsimp only
  split
  · next hk =>
    have hkill : ScrubHeld s (s.each (s.sessionsOf p) (fun t n => t.killSession n)) :=
      State.each_inv s (ScrubHeld s) _ _ (fun t n ht => ht.killSession n) (ScrubHeld.refl s)
    generalize s.each (s.sessionsOf p) (fun t n => t.killSession n) = w at *
    obtain ⟨h1, h2, h3, h4, h5, h6, h7⟩ := hkill
    have hattest := (ScrubHeld.refl ({ w with sec := { w.sec with scrubs := w.sec.scrubs.map (fun (y : Scrub) =>
      if y.part = p then { y with kill := true } else y) } } : State)).attest attKILL (some p)
    generalize State.attest _ attKILL (some p) = v at *
    obtain ⟨a1, a2, a3, a4, a5, a6, a7⟩ := hattest
    refine ⟨⟨{ x with kill := true }, ?_, hpart, rfl⟩, fun y hy hyk => ?_, rfl, a2.trans h2, a3.trans h3, a4.trans h4, a5.trans h5,
      a6.trans h6, a7.trans h7⟩
    · rw [a1]
      exact List.mem_map.mpr ⟨x, h1 ▸ hmem, if_pos hpart⟩
    · rw [a1]
      refine List.mem_map.mpr ⟨y, h1 ▸ hy, ?_⟩
      split
      · rw [← hyk]
      · rfl
  · next hk =>
    refine ⟨⟨x, hmem, hpart, by simpa using hk⟩, fun y hy _ => hy, ScrubHeld.refl _⟩

/-! ### Fuses and rollback counters -/

theorem only_sec (x : Sec) : only [.sec] s { s with sec := x } := by
  refine (only.refl _ s).fields ?_ ?_ ?_ ?_ ?_ ?_ ?_ ?_ ?_ ?_ ?_ ?_ ?_ ?_ ?_ ?_ ?_ ?_ ?_ ?_ ?_
  all_goals simp

/-- The owner's hash is burnt once, and the device resets cold. -/
theorem execProvisionOwner_blank (x : BitVec 512) (hb : s.sec.boot = .rom) (hl : s.sec.lc = 1) :
    exec (.provisionOwner x) s =
      .next (State.coldBase { s with sec := { s.sec with ownerHash := s.sec.ownerHash ||| x, lc := s.sec.lc ||| 2 } } .rom) := by
  rw [exec, execProvisionOwner, if_pos (by simp [hb, hl])]

/-- A measurement touches the attestation log alone. -/
theorem State.attest_eq (kind : Nat) (part : Option Nat) : ∃ l n d, s.attest kind part =
    s.setSec { s.sec with log := l, logCnt := n, digest := d } := ⟨_, _, _, rfl⟩

/-- A counter follows the running image upward. -/
theorem State.advance_spec (r : Req) {i v : Nat} (hv : s.runningRb i = some v) :
    Sparse.get 0 (s.advance r i).sec.rbctr i = max (Sparse.get 0 s.sec.rbctr i) v ∧
      (∀ j, j ≠ i → Sparse.get 0 (s.advance r i).sec.rbctr j = Sparse.get 0 s.sec.rbctr j) ∧ only [.sec] s (s.advance r i) := by
  unfold State.advance
  rw [hv]
  dsimp only
  split
  · next hlt =>
    obtain ⟨l, k, d, he⟩ := State.attest_eq (s := { s with sec := { s.sec with rbctr := Sparse.put 0 s.sec.rbctr i v } }) attROLLBACK none
    rw [he]
    have hon := only_sec (s := s) { s.sec with rbctr := Sparse.put 0 s.sec.rbctr i v }
    refine ⟨?_, fun j hj => ?_, hon.setSec (by simp) _⟩
    · rw [Nat.max_eq_right (Nat.le_of_lt hlt)]
      exact Sparse.get_put_self 0 s.sec.rbctr i v
    · exact Sparse.get_put_ne 0 0 s.sec.rbctr v hj
  · next hge => exact ⟨(Nat.max_eq_left (Nat.not_lt.mp hge)).symm, fun _ _ => rfl, only.refl _ s⟩

/-! ### The end of a scrub -/

/-- A scrub that ends outside a load and a warm reset ends with its event and a spend of 0. -/
theorem State.scrubbed_spec {x : Scrub} (ht : s.trl.st ≠ .scrub) (hw : s.evt.warm = none) :
    (s.scrubbed x).sec.scrubs = s.sec.scrubs.filter (fun y => decide (y.part ≠ x.part)) ∧ (s.scrubbed x).partSpend x.part = 0 ∧
      logged { code := if x.kill then 0x0A01 else 0x0007, cls := 0, part := some x.part } s (s.scrubbed x) := by
  unfold State.scrubbed
  extract_lets sec mtr t u v
  have hu : only [.cores] t u := (only.refl _ t).each _ _ fun w c hw => hw.modCore (by simp) c _
  have hut : ScrubHeld t u := State.each_inv t (ScrubHeld t) _ _ (fun w c hw => hw.modCore c _) (ScrubHeld.refl t)
  have hprc : u.prc = s.prc := (hu .prc).resolve_left (by simp)
  have hevt : u.evt = s.evt := (hu .evt).resolve_left (by simp)
  have hmtr : u.partSpend x.part = 0 := by
    rw [State.partSpend, (hu .mtr).resolve_left (by simp)]
    change Sparse.get 0 (Sparse.put 0 s.mtr.spend x.part 0) x.part = 0
    exact Sparse.get_put_self 0 s.mtr.spend x.part 0
  have hv : ScrubHeld t v ∧ v.mtr = u.mtr ∧ logged { code := if x.kill then 0x0A01 else 0x0007, cls := 0, part := some x.part } s v := by
    simp only [v]
    split
    · next hk =>
      refine ⟨(hut.attest _ _).partEvent _ _ _ _, ?_, ?_⟩
      · exact (((only.refl [.sec, .regs, .ses, .evt] u).attest (by simp) attSCRUBBED (some x.part)).partEvent (by simp) (by simp)
          (by simp) x.part 0x0A01 0 0 .mtr).resolve_left (by simp)
      · exact logged_of_start (logged_log _ _) ((State.attest_evt ..).trans hevt) ((State.attest_prc ..).trans hprc)
    · next hk =>
      refine ⟨hut.partEvent _ _ _ _, ?_, logged_of_start (logged_log _ _) hevt hprc⟩
      exact ((only.refl [.regs, .ses, .evt] u).partEvent (by simp) (by simp) (by simp) x.part 0x0007 0 0 .mtr).resolve_left (by simp)
  clear_value v
  obtain ⟨⟨h1, -, -, -, h5, -, h7⟩, hm, hlog⟩ := hv
  have hfull : v.fullGoesOn = v := by
    have hst : v.trl.st ≠ .scrub := by
      rw [h5]
      exact ht
    rw [State.fullGoesOn, if_neg (by simp [hst])]
  have hwarm : v.warmGoesOn = v := by
    have hnone : v.evt.warm = none := h7.trans hw
    rw [State.warmGoesOn, if_neg (by simp [hnone])]
  rw [hfull, hwarm]
  refine ⟨h1, ?_, hlog⟩
  rw [State.partSpend, hm]
  exact hmtr

/-- Settles O48, by the state of the load, of the scrub and of the fuses. -/
theorem fusesAndKills : Obligations.FusesAndKills := by
  unfold Obligations.FusesAndKills
  refine ⟨fun x s => ⟨fun hb hl => ?_, fun hn => ?_⟩, fun s => ⟨_, rfl, rfl, only_sec _⟩, ?_, ?_, ?_⟩
  · refine ⟨_, execProvisionOwner_blank x hb hl, rfl, ?_, rfl, rfl, rfl, rfl, rfl, rfl⟩
    change s.sec.lc ||| 2 = 3
    rw [hl]
    rfl
  · rw [exec, execProvisionOwner, if_neg]
    rw [Bool.and_eq_true, decide_eq_true_eq, decide_eq_true_eq, Decidable.not_and_iff_or_not]
    exact hn
  · intro r i s hr
    have he : exec (.rollbackAdvance r i) s = .next (s.advance r i.val) := by
      rw [exec, execRollbackAdvance, State.atReg_may _ _ _ _ _ _ hr]
    refine ⟨fun v hv => ⟨_, he, State.advance_spec r hv⟩, fun hnone => ?_⟩
    rw [he, State.advance, hnone]
  · intro r p s hr
    have he : exec (.partitionKill r p) s = .next (s.resetPart p.val 0 true) := by
      rw [exec, execPartitionKill, State.atReg_may _ _ _ _ _ _ hr]
    refine ⟨fun hs ha hrec => ?_, fun hs => ?_, fun hs ha => ?_, fun hs hb hrec => ?_⟩
    · obtain ⟨⟨gs, h1⟩, h2, h3⟩ := State.resetPart_scrubs hs ha hrec 0 true
      exact ⟨_, he, ⟨_, h1 ▸ List.mem_append_right _ (List.mem_singleton_self _), rfl, rfl⟩, h2, h3⟩
    · obtain ⟨h1, -, -, -, -, -, -, h3, -⟩ := State.resetPart_widened hs 0
      exact ⟨_, he, h1, h3⟩
    · rw [he, State.resetPart_applying hs ha]
    · obtain ⟨hload, ha⟩ := State.loadReset_idle hb p.val 0 true
      rw [he, State.resetPart_new hs ha, hrec, hload]
      rfl
  · intro p x s hx
    have hpart : x.part = p.val := by simpa using List.find?_some hx
    refine ⟨fun hi ht hw => ?_, fun hi => ?_⟩
    · have he : exec (.killScrubDone p) s = .next (s.scrubbed x) := by
        rw [exec, execKillScrubDone, hx]
        simp [hi]
      obtain ⟨h1, h2, h3⟩ := State.scrubbed_spec (x := x) ht hw
      rw [hpart] at h1 h2 h3
      exact ⟨_, he, h1, h2, h3⟩
    · rw [exec, execKillScrubDone, hx]
      simp [hi]

end Sys2Proof.Machine
end

section
set_option Elab.async false
/-! What shared operations leave unchanged. -/

namespace Sys2Proof
open Sys2Proof.Machine
variable {ps : List Part} {s₀ s t u : State} {c cc : Nat}

theorem only.reqEvent (hk : only ps s₀ s) (m1 : Part.regs ∈ ps) (m2 : Part.ses ∈ ps) (m3 : Part.evt ∈ ps) (r : Req)
    (code cls detail : Nat) : only ps s₀ (s.reqEvent r code cls detail) := by
  unfold State.reqEvent
  grind [only.fields, only.log]

theorem only.access (hk : only ps s₀ s) (m1 : Part.regs ∈ ps) (m2 : Part.ses ∈ ps) (m3 : Part.evt ∈ ps) (r : Req) (a : Nat)
    : only ps s₀ (s.access r a) := by
  unfold State.access
  grind [only.fields, only.reqEvent]

theorem only.readLine (hk : only ps s₀ s) (m1 : Part.regs ∈ ps) (m2 : Part.mem ∈ ps) (m3 : Part.pnt ∈ ps)
    (m4 : Part.clr ∈ ps) (h : Hint) (l : Nat) : only ps s₀ (s.readLine h l).2.2 := by
  unfold State.readLine
  grind [only.fields, only.countPantry, only.touch, only.allocate]

theorem only.cellarReadLines (hk : only ps s₀ s) (m1 : Part.regs ∈ ps) (m2 : Part.mem ∈ ps) (m3 : Part.pnt ∈ ps)
    (m4 : Part.clr ∈ ps) (h : Hint) (ls : List Nat) :
    only ps s₀ (s.cellarReadLines h ls).2.2 := by
  induction ls generalizing s with
  | nil => simpa [State.cellarReadLines] using hk
  | cons x l ih =>
    unfold State.cellarReadLines
    grind [only.readLine]

theorem only.cellarRead (hk : only ps s₀ s) (m1 : Part.regs ∈ ps) (m2 : Part.mem ∈ ps) (m3 : Part.pnt ∈ ps)
    (m4 : Part.clr ∈ ps) (h : Hint) (a n : Nat) : only ps s₀ (s.cellarRead h a n).2.2 := by
  unfold State.cellarRead
  grind [only.fields, only.cellarReadLines]

theorem only.hubRead (hk : only ps s₀ s) (m1 : Part.regs ∈ ps) (m2 : Part.mem ∈ ps) (m3 : Part.pnt ∈ ps)
    (m4 : Part.clr ∈ ps) (m5 : Part.ses ∈ ps) (m6 : Part.evt ∈ ps) (r : Req) (a n : Nat) : only ps s₀ (s.hubRead r a n).2 := by
  unfold State.hubRead
  grind [only.fields, only.cellarRead, only.access]

end Sys2Proof
end

section
set_option Elab.async false
/-! Debug tokens and levels, and attestation reports (R494, R496 to R498). -/

namespace Sys2Proof.Machine
open Sys2Proof
variable {s t u : State} {p : Nat}

/-! ### Kills of several partitions -/

/-- What the kill of a partition leaves: no scrub that kills ends, and the load, the configuration and the token's check stay. -/
structure KillHeld (s t : State) : Prop where
  kills : ∀ x ∈ s.sec.scrubs, x.kill = true → x ∈ t.sec.scrubs
  vendorDue : t.sec.vendorDue = s.sec.vendorDue
  tokBusy : t.sec.tokBusy = s.sec.tokBusy
  tokRes : t.sec.tokRes = s.sec.tokRes
  trl : t.trl = s.trl
  cfg : t.cfg = s.cfg

theorem KillHeld.trans (h : KillHeld s t) (k : KillHeld t u) : KillHeld s u :=
  ⟨fun x hx hk => k.kills x (h.kills x hx hk) hk, k.vendorDue.trans h.vendorDue, k.tokBusy.trans h.tokBusy, k.tokRes.trans h.tokRes,
    k.trl.trans h.trl, k.cfg.trans h.cfg⟩

theorem ScrubHeld.killHeld (h : ScrubHeld s t) : KillHeld s t := by
  obtain ⟨h1, h2, h3, h4, h5, h6, -⟩ := h
  exact ⟨fun x hx _ => h1 ▸ hx, h2, h3, h4, h5, h6⟩

/-- A partition killed while no load runs is SCRUBBING by a kill. -/
theorem State.resetPart_kills (hb : s.trlBusy = false) (hr : (s.partRec p).isSome = true) (cause : Nat) :
    KillHeld s (s.resetPart p cause true) ∧ ∃ x ∈ (s.resetPart p cause true).sec.scrubs, x.part = p ∧ x.kill = true := by
  by_cases hs : s.scrubbing p = true
  · obtain ⟨h1, h2, -, h3, h4, h5, h6, h7, -⟩ := State.resetPart_widened hs cause
    exact ⟨⟨h2, h3, h4, h5, h6, h7⟩, h1⟩
  · obtain ⟨hload, ha⟩ := State.loadReset_idle hb p cause true
    have hrec : ¬ (s.partRec p).isNone = true := by simpa using Option.isSome_iff_ne_none.mp hr
    obtain ⟨h1, h2, h3, h4, h5, h6, -⟩ := (ScrubHeld.refl s).resetRaised p cause true
    obtain ⟨⟨gs, b1⟩, -, b2, b3, b4, b5, b6⟩ := (s.resetRaised p cause true).beginScrub_spec p true
    rw [State.resetPart_new (Bool.eq_false_iff.mpr hs) ha, if_neg hrec, hload]
    rw [h1] at b1
    refine ⟨⟨fun x hx _ => ?_, b2.trans h2, b3.trans h3, b4.trans h4, b5.trans h5, b6.trans h6⟩, ⟨_, b1 ▸ List.mem_append_right _ (List.mem_singleton_self _), rfl, rfl⟩⟩
    rw [b1]
    exact List.mem_append_left _ hx

/-- Partitions killed one after another are all SCRUBBING by a kill. -/
theorem State.resetParts_kill (l : List Nat) (hb : s.trlBusy = false) (hr : ∀ p ∈ l, (s.partRec p).isSome = true) :
    KillHeld s (s.each l (fun t p => t.resetPart p 0 true)) ∧
      ∀ p ∈ l, ∃ x ∈ (s.each l (fun t p => t.resetPart p 0 true)).sec.scrubs, x.part = p ∧ x.kill = true := by
  induction l generalizing s with
  | nil => exact ⟨(ScrubHeld.refl s).killHeld, fun _ h => absurd h List.not_mem_nil⟩
  | cons p l ih =>
    obtain ⟨hk, x, hx, hpart, hkill⟩ := State.resetPart_kills hb (hr p List.mem_cons_self) 0
    have hb' : (s.resetPart p 0 true).trlBusy = false := by
      rw [State.trlBusy, hk.trl]
      exact hb
    obtain ⟨hrest, hall⟩ := ih hb' fun q hq => by
      rw [State.partRec, hk.cfg]
      exact hr q (List.mem_cons_of_mem _ hq)
    refine ⟨hk.trans hrest, fun q hq => ?_⟩
    rcases List.mem_cons.mp hq with rfl | hq
    · exact ⟨x, hrest.kills x hx hkill, hpart, hkill⟩
    · exact hall q hq

/-- An accepted vendor token kills every partition. -/
theorem State.beginVendor_spec (hb : s.trlBusy = false) :
    s.beginVendor.sec.vendorDue = true ∧ s.beginVendor.sec.tokBusy = s.sec.tokBusy ∧ s.beginVendor.sec.tokRes = s.sec.tokRes ∧
      s.beginVendor.cfg = s.cfg ∧ ∀ p ∈ s.parts, ∃ x ∈ s.beginVendor.sec.scrubs, x.part = p ∧ x.kill = true := by
  unfold State.beginVendor
  extract_lets sec t0 t1 t2
  have hrec : ∀ p ∈ t0.parts, (t0.partRec p).isSome = true := by
    intro p hp
    obtain ⟨x, hx, hxp⟩ := List.mem_map.mp hp
    rw [State.partRec, Option.isSome_map, List.find?_isSome]
    exact ⟨x, hx, by simpa using hxp⟩
  obtain ⟨h1, hall⟩ := State.resetParts_kill t0.parts (s := t0) hb hrec
  have h2 : KillHeld t1 t2 :=
    (State.each_inv t1 (ScrubHeld t1) _ _ (fun t n ht => ht.killSession n) (ScrubHeld.refl t1)).killHeld
  have h3 := h2.trans (State.each_inv t2 (ScrubHeld t2) (t2.cfg.regions.filter (·.hub)) (fun t r => t.destroyKey r)
    (fun t r ht => ht.destroyKey r) (ScrubHeld.refl t2)).killHeld
  have h4 := h1.trans h3
  refine ⟨h4.vendorDue, h4.tokBusy, h4.tokRes, h4.cfg, fun p hp => ?_⟩
  obtain ⟨x, hx, hpart, hkill⟩ := hall p hp
  exact ⟨x, h3.kills x hx hkill, hpart, hkill⟩

/-- The owner level opens as its token says. -/
theorem State.openOwner_eq : ∃ l n d, s.openOwner = s.setSec { s.sec with
    dbg := s.sec.dbg / 2 * 2 + 1, dbgSession := if leAt s.sec.tok 5 1 = 1 then some (leAt s.sec.tok 6 2) else none
    dbgJtag := leAt s.sec.tok 5 1 = 0, expiry := leAt s.sec.tok 24 8, log := l, logCnt := n, digest := d } := by
  obtain ⟨l, n, d, h⟩ := State.attest_eq (s := { s with sec := { s.sec with
    dbg := s.sec.dbg / 2 * 2 + 1, dbgSession := if leAt s.sec.tok 5 1 = 1 then some (leAt s.sec.tok 6 2) else none
    dbgJtag := leAt s.sec.tok 5 1 = 0, expiry := leAt s.sec.tok 24 8 } }) attDEBUG none
  exact ⟨l, n, d, h⟩

/-- Settles O49, by the result of the token's check. -/
theorem debugAndAttestation : Obligations.DebugAndAttestation := by
  unfold Obligations.DebugAndAttestation
  refine ⟨?_, ?_, ?_, ?_, ?_, ?_⟩
  · intro r s hr hbusy
    have hsec : ∀ (a n : Nat), (s.hubRead r a n).2.sec = s.sec := fun a n =>
      ((only.refl [.regs, .mem, .pnt, .clr, .ses, .evt] s).hubRead (by simp) (by simp) (by simp) (by simp) (by simp) (by simp) r a n .sec).resolve_left (by simp)
    have he : exec (.debugUnlock r) s = .next (s.debugGo r) := by
      rw [exec, execDebugUnlock, State.atReg_may _ _ _ _ _ _ hr]
    refine ⟨_, he, ?_⟩
    rw [State.debugGo, hbusy]
    have h := hsec (s.rg64 .secDbgaddr % 2 ^ 48) 364
    have hchal := congrArg Sec.chal h
    have hdbg := congrArg Sec.dbg h
    exact ⟨rfl, rfl, hchal, hdbg⟩
  · intro s hbusy
    have he : exec .debugTokenCheckDone s = .next
        (if s.tokenResult ≠ 1 then { s with sec := { s.sec with tokBusy := false, tokRes := s.tokenResult } }
        else if leAt s.sec.tok 4 1 = 2 then ({ s with sec := { s.sec with tokBusy := false, tokRes := s.tokenResult } } : State).beginVendor
        else ({ s with sec := { s.sec with tokBusy := false, tokRes := s.tokenResult } } : State).openOwner) := by
      rw [exec, execDebugTokenCheckDone, if_neg (by simp [hbusy])]
    refine ⟨fun hres => ?_, fun hres hkind => ?_, fun hres hkind hb => ?_⟩
    · rw [if_pos hres] at he
      exact ⟨_, he, rfl, only_sec _⟩
    · rw [if_neg (Decidable.not_not.mpr hres), if_neg (by rw [hkind]; decide), hres] at he
      have hon := only_sec (s := s) { s.sec with tokBusy := false, tokRes := 1 }
      generalize hw : ({ s with sec := { s.sec with tokBusy := false, tokRes := 1 } } : State) = w at *
      obtain ⟨l, k, d, ho⟩ := State.openOwner_eq (s := w)
      refine ⟨_, he, ?_⟩
      rw [ho]
      subst hw
      exact ⟨rfl, rfl, rfl, rfl, hon.setSec (by simp) _⟩
    · rw [if_neg (Decidable.not_not.mpr hres), if_pos hkind, hres] at he
      obtain ⟨h1, h2, h3, h4, h5⟩ :=
        State.beginVendor_spec (s := { s with sec := { s.sec with tokBusy := false, tokRes := 1 } }) hb
      exact ⟨_, he, h2, h3, h1, h5, h4⟩
  · intro s hdue hs hd
    have he : exec .vendorUnlockEffect s =
        .next (({ s with sec := { s.sec with vendorDue := false, dbg := s.sec.dbg % 2 + 2 } } : State).attest attDEBUG none) := by
      rw [exec, execVendorUnlockEffect, if_pos (by simp [hdue, hs, hd])]
    have hon := only_sec (s := s) { s.sec with vendorDue := false, dbg := s.sec.dbg % 2 + 2 }
    obtain ⟨l, k, d, ha⟩ := State.attest_eq (s := { s with sec := { s.sec with vendorDue := false, dbg := s.sec.dbg % 2 + 2 } }) attDEBUG none
    rw [ha] at he
    exact ⟨_, he, rfl, rfl, hon.setSec (by simp) _⟩
  · intro s hd hx
    have he : exec .debugExpiry s = .next s.closeDebug := by
      rw [exec, execDebugExpiry, if_pos (by simpa [hd] using hx)]
    have hon := only_sec (s := s) { s.sec with dbg := s.sec.dbg / 2 * 2, dbgSession := none, dbgJtag := false, expiry := 0 }
    obtain ⟨l, k, d, ha⟩ := State.attest_eq
      (s := { s with sec := { s.sec with dbg := s.sec.dbg / 2 * 2, dbgSession := none, dbgJtag := false, expiry := 0 } }) attDEBUGEND none
    rw [State.closeDebug, ha] at he
    exact ⟨_, he, rfl, rfl, rfl, hon.setSec (by simp) _⟩
  · intro r s hr hbusy
    refine ⟨s.attestGo r, by rw [exec, execAttestationReport, State.atReg_may _ _ _ _ _ _ hr], ?_⟩
    rw [State.attestGo, hbusy]
    exact ⟨rfl, rfl⟩
  · intro s hbusy
    refine ⟨_, by rw [exec, execAttestationDone, if_neg (by simp [hbusy])], rfl⟩

end Sys2Proof.Machine
end

section
set_option Elab.async false
/-! What a device fault and the resets it brings leave of the boot, the Porch, the fault itself and the warm reset. -/

namespace Sys2Proof.Machine
open Sys2Proof
variable {s₀ s t u : State}

/-- The boot's state, the Porch, DFAULT and the warm reset stay. -/
def DevHeld (s t : State) : Prop :=
  t.sec.boot = s.sec.boot ∧ t.prc = s.prc ∧ t.evt.dfault = s.evt.dfault ∧ t.evt.warm = s.evt.warm

theorem DevHeld.refl (s : State) : DevHeld s s := ⟨rfl, rfl, rfl, rfl⟩

theorem DevHeld.of_eq (hk : DevHeld s₀ s) (e1 : t.sec = s.sec) (e2 : t.prc = s.prc) (e3 : t.evt = s.evt) : DevHeld s₀ t := by
  rwa [DevHeld, e1, e2, e3]

theorem DevHeld.fields (hk : DevHeld s₀ s) {a1 a2 a3 a4 a5 a6 a7 a8 a9 a10 a11 a12 a13 a14 a15 a16 a17 a18 a19 a20 a21}
    (e : a15.boot = s.sec.boot ∧ a19 = s.prc ∧ a21.dfault = s.evt.dfault ∧ a21.warm = s.evt.warm) :
    DevHeld s₀ (State.mk a1 a2 a3 a4 a5 a6 a7 a8 a9 a10 a11 a12 a13 a14 a15 a16 a17 a18 a19 a20 a21) := by
  unfold DevHeld at *
  simp only [e]
  exact hk

theorem DevHeld.others (hk : DevHeld s₀ s) {a1 a2 a3 a4 a5 a6 a7 a8 a9 a10 a11 a12 a13 a14 a16 a17 a18 a20} :
    DevHeld s₀ (State.mk a1 a2 a3 a4 a5 a6 a7 a8 a9 a10 a11 a12 a13 a14 s.sec a16 a17 a18 s.prc a20 s.evt) := hk.of_eq rfl rfl rfl

theorem DevHeld.each {α : Type} (hk : DevHeld s₀ s) (l : List α) (f : State → α → State)
    (hf : ∀ t x, DevHeld s₀ t → DevHeld s₀ (f t x)) : DevHeld s₀ (s.each l f) := State.each_inv s (DevHeld s₀) l f hf hk

theorem DevHeld.foldl {α : Type} (hk : DevHeld s₀ s) (l : List α) (f : State → α → State)
    (hf : ∀ t x, DevHeld s₀ t → DevHeld s₀ (f t x)) : DevHeld s₀ (l.foldl f s) := hk.each l f hf

theorem DevHeld.log (hk : DevHeld s₀ s) (e : Event) : DevHeld s₀ (s.log e) := by
  unfold DevHeld at *
  rw [State.log_sec, State.log_prc, State.log_evt]
  exact hk

theorem DevHeld.setBytes (hk : DevHeld s₀ s) (a : Nat) (bs : List Byte) : DevHeld s₀ (s.setBytes a bs) := by
  unfold DevHeld at *
  rw [State.setBytes_sec, State.setBytes_prc, State.setBytes_evt]
  exact hk

theorem DevHeld.setRg (hk : DevHeld s₀ s) (n : RegName) (c i j : Nat) (v : W32) : DevHeld s₀ (s.setRg n c i j v) := by
  unfold State.setRg
  grind [DevHeld.fields, DevHeld.others]

theorem DevHeld.setRgHi (hk : DevHeld s₀ s) (n : RegName) (c i j : Nat) (v : W32) : DevHeld s₀ (s.setRgHi n c i j v) := by
  unfold State.setRgHi
  grind [DevHeld.fields, DevHeld.others]

theorem DevHeld.setRg64 (hk : DevHeld s₀ s) (n : RegName) (c i j v : Nat) : DevHeld s₀ (s.setRg64 n c i j v) := by
  unfold State.setRg64
  grind [DevHeld.fields, DevHeld.others, DevHeld.setRg, DevHeld.setRgHi]

theorem DevHeld.count (hk : DevHeld s₀ s) (n : RegName) (c i k : Nat) : DevHeld s₀ (s.count n c i k) := by
  unfold State.count
  grind [DevHeld.fields, DevHeld.others, DevHeld.setRg]

theorem DevHeld.setCore (hk : DevHeld s₀ s) (c : Nat) (x : Core) : DevHeld s₀ (s.setCore c x) := by
  unfold State.setCore
  grind [DevHeld.fields, DevHeld.others]

theorem DevHeld.modCore (hk : DevHeld s₀ s) (c : Nat) (f : Core → Core) : DevHeld s₀ (s.modCore c f) := by
  unfold State.modCore
  grind [DevHeld.fields, DevHeld.others, DevHeld.setCore]

theorem DevHeld.modTile (hk : DevHeld s₀ s) (c h : Nat) (f : Tile → Tile) : DevHeld s₀ (s.modTile c h f) := by
  unfold State.modTile
  grind [DevHeld.fields, DevHeld.others, DevHeld.modCore]

theorem DevHeld.modSeq (hk : DevHeld s₀ s) (c : Nat) (f : Seq → Seq) : DevHeld s₀ (s.modSeq c f) := by
  unfold State.modSeq
  grind [DevHeld.fields, DevHeld.others, DevHeld.modCore]

theorem DevHeld.modArr (hk : DevHeld s₀ s) (c : Nat) (f : Arr → Arr) : DevHeld s₀ (s.modArr c f) := by
  unfold State.modArr
  grind [DevHeld.fields, DevHeld.others, DevHeld.modCore]

theorem DevHeld.modChan (hk : DevHeld s₀ s) (c ch : Nat) (f : Chan → Chan) : DevHeld s₀ (s.modChan c ch f) := by
  unfold State.modChan
  grind [DevHeld.fields, DevHeld.others, DevHeld.modCore]

theorem DevHeld.setSlot (hk : DevHeld s₀ s) (c n : Nat) (x : Slot) : DevHeld s₀ (s.setSlot c n x) := by
  unfold State.setSlot
  grind [DevHeld.fields, DevHeld.others, DevHeld.modCore]

theorem DevHeld.modDisp (hk : DevHeld s₀ s) (d : Nat) (f : Disp → Disp) : DevHeld s₀ (s.modDisp d f) := by
  unfold State.modDisp
  grind [DevHeld.fields, DevHeld.others]

theorem DevHeld.modPort (hk : DevHeld s₀ s) (p : Nat) (f : Port → Port) : DevHeld s₀ (s.modPort p f) := by
  unfold State.modPort
  grind [DevHeld.fields, DevHeld.others]

theorem DevHeld.modGroup (hk : DevHeld s₀ s) (g : Nat) (f : Group → Group) : DevHeld s₀ (s.modGroup g f) := by
  unfold State.modGroup
  grind [DevHeld.fields, DevHeld.others]

theorem DevHeld.modEth (hk : DevHeld s₀ s) (p : Nat) (f : Eth → Eth) : DevHeld s₀ (s.modEth p f) := by
  unfold State.modEth
  grind [DevHeld.fields, DevHeld.others]

theorem DevHeld.modSess (hk : DevHeld s₀ s) (n : Nat) (f : Session → Session) : DevHeld s₀ (s.modSess n f) := by
  unfold State.modSess
  grind [DevHeld.fields, DevHeld.others]

theorem DevHeld.setSec (hk : DevHeld s₀ s) {x : Sec} (hx : x.boot = s.sec.boot) : DevHeld s₀ (s.setSec x) := by
  unfold State.setSec
  exact hk.fields ⟨hx, rfl, rfl, rfl⟩

theorem DevHeld.send (hk : DevHeld s₀ s) (o : Out) : DevHeld s₀ (s.send o) := by
  unfold State.send
  grind [DevHeld.fields, DevHeld.others]

theorem DevHeld.act (hk : DevHeld s₀ s) (c j n : Nat) : DevHeld s₀ (s.act c j n) := by
  unfold State.act
  grind [DevHeld.fields, DevHeld.others, DevHeld.modCore]

theorem DevHeld.coreEvent (hk : DevHeld s₀ s) (c code cls detail : Nat) : DevHeld s₀ (s.coreEvent c code cls detail) := by
  unfold State.coreEvent
  grind [DevHeld.fields, DevHeld.others, DevHeld.log]

theorem DevHeld.partEvent (hk : DevHeld s₀ s) (p code cls detail : Nat) : DevHeld s₀ (s.partEvent p code cls detail) := by
  unfold State.partEvent
  grind [DevHeld.fields, DevHeld.others, DevHeld.log]

theorem DevHeld.devEvent (hk : DevHeld s₀ s) (code cls detail : Nat) : DevHeld s₀ (s.devEvent code cls detail) := by
  unfold State.devEvent
  grind [DevHeld.fields, DevHeld.others, DevHeld.log]

theorem DevHeld.zeroRange (hk : DevHeld s₀ s) (a n : Nat) : DevHeld s₀ (s.zeroRange a n) := hk.of_eq rfl rfl rfl

theorem DevHeld.setSpad (hk : DevHeld s₀ s) (c off : Nat) (bs : List Byte) : DevHeld s₀ (s.setSpad c off bs) := by
  unfold State.setSpad
  grind [DevHeld.fields, DevHeld.others, DevHeld.setBytes]

theorem DevHeld.setKslot (hk : DevHeld s₀ s) (k : Nat) (x : KSlot) : DevHeld s₀ (s.setKslot k x) := by
  unfold State.setKslot
  grind [DevHeld.fields, DevHeld.others]

theorem DevHeld.sendPacket (hk : DevHeld s₀ s) (p : Nat) (k : Packet) : DevHeld s₀ (s.sendPacket p k) := by
  unfold State.sendPacket
  grind [DevHeld.fields, DevHeld.others, DevHeld.modPort, DevHeld.each, DevHeld.send]

theorem DevHeld.groupAct (hk : DevHeld s₀ s) (g j n : Nat) : DevHeld s₀ (s.groupAct g j n) := by
  unfold State.groupAct
  grind [DevHeld.fields, DevHeld.others]

theorem DevHeld.groupSend (hk : DevHeld s₀ s) (g p : Nat) (k : Packet) : DevHeld s₀ (s.groupSend g p k) := by
  unfold State.groupSend
  grind [DevHeld.fields, DevHeld.others, DevHeld.groupAct, DevHeld.sendPacket]

theorem DevHeld.toParent (hk : DevHeld s₀ s) (g : Nat) (k : Packet) : DevHeld s₀ (s.toParent g k) := by
  unfold State.toParent
  grind [DevHeld.fields, DevHeld.others, DevHeld.groupSend]

theorem DevHeld.toKids (hk : DevHeld s₀ s) (g : Nat) (k : Packet) : DevHeld s₀ (s.toKids g k) := by
  unfold State.toKids
  grind [DevHeld.fields, DevHeld.others, DevHeld.each, DevHeld.groupSend]

theorem DevHeld.spdErr (hk : DevHeld s₀ s) (c kind num : Nat) (nowin : Bool := false)
    : DevHeld s₀ (s.spdErr c kind num nowin) := by
  unfold State.spdErr
  grind [DevHeld.fields, DevHeld.others, DevHeld.setRg]

theorem DevHeld.slotTouch (hk : DevHeld s₀ s) (c off len : Nat) (wr : Bool) : DevHeld s₀ (s.slotTouch c off len wr) := by
  unfold State.slotTouch
  grind [DevHeld.fields, DevHeld.others, DevHeld.each, DevHeld.setSlot]

theorem DevHeld.slotClass (hk : DevHeld s₀ s) (c n : Nat) (r : Option Req) (wr : Bool) (cls : Nat)
    : DevHeld s₀ (s.slotClass c n r wr cls) := by
  unfold State.slotClass
  grind [DevHeld.fields, DevHeld.others, DevHeld.spdErr, DevHeld.log, DevHeld.coreEvent]

theorem DevHeld.slotRelease (hk : DevHeld s₀ s) (c n cls : Nat) : DevHeld s₀ (s.slotRelease c n cls) := by
  unfold State.slotRelease
  grind [DevHeld.fields, DevHeld.others, DevHeld.setSlot]

theorem DevHeld.wordAct (hk : DevHeld s₀ s) (c off len : Nat) : DevHeld s₀ (s.wordAct c off len) := by
  unfold State.wordAct
  grind [DevHeld.fields, DevHeld.others, DevHeld.act]

theorem DevHeld.ringHook (hk : DevHeld s₀ s) (c off : Nat) (bs : List Byte) : DevHeld s₀ (s.ringHook c off bs) := by
  unfold State.ringHook
  grind [DevHeld.fields, DevHeld.others, DevHeld.modSeq]

theorem DevHeld.store (hk : DevHeld s₀ s) (c off : Nat) (bs : List Byte) : DevHeld s₀ (s.store c off bs) := by
  unfold State.store
  grind [DevHeld.fields, DevHeld.others, DevHeld.setSpad, DevHeld.ringHook, DevHeld.wordAct]

theorem DevHeld.spadWrite (hk : DevHeld s₀ s) (c off : Nat) (bs : List Byte) (cls : Nat)
    : DevHeld s₀ (s.spadWrite c off bs cls).2 := by
  unfold State.spadWrite
  grind [DevHeld.fields, DevHeld.others, DevHeld.slotClass, DevHeld.slotTouch, DevHeld.store]

theorem DevHeld.writeRd (hk : DevHeld s₀ s) (c : Nat) : DevHeld s₀ (s.writeRd c) := by
  unfold State.writeRd
  grind [DevHeld.fields, DevHeld.others, DevHeld.setSpad]

theorem DevHeld.setRd (hk : DevHeld s₀ s) (c i : Nat) : DevHeld s₀ (s.setRd c i) := by
  unfold State.setRd
  grind [DevHeld.fields, DevHeld.others, DevHeld.modSeq, DevHeld.writeRd]

theorem DevHeld.seqDoneAt (hk : DevHeld s₀ s) (c i : Nat) : DevHeld s₀ (s.seqDoneAt c i) := by
  unfold State.seqDoneAt
  grind [DevHeld.fields, DevHeld.others, DevHeld.setRd, DevHeld.modSeq]

theorem DevHeld.seqDone (hk : DevHeld s₀ s) (c : Nat) : DevHeld s₀ (s.seqDone c) := by
  unfold State.seqDone
  grind [DevHeld.fields, DevHeld.others, DevHeld.seqDoneAt]

theorem DevHeld.setScalar (hk : DevHeld s₀ s) (c n v : Nat) : DevHeld s₀ (s.setScalar c n v) := by
  unfold State.setScalar
  grind [DevHeld.fields, DevHeld.others, DevHeld.setRg64]

theorem DevHeld.closeClaim (hk : DevHeld s₀ s) (x : Claim) : DevHeld s₀ (s.closeClaim x) := by
  unfold State.closeClaim
  grind [DevHeld.fields, DevHeld.others]

theorem DevHeld.dropSums (hk : DevHeld s₀ s) (d : Nat) : DevHeld s₀ (s.dropSums d) := by
  unfold State.dropSums
  grind [DevHeld.fields, DevHeld.others]

theorem DevHeld.dropHub (hk : DevHeld s₀ s) (d : Nat) : DevHeld s₀ (s.dropHub d) := by
  unfold State.dropHub
  grind [DevHeld.fields, DevHeld.others]

theorem DevHeld.clearHub (hk : DevHeld s₀ s) (d : Nat) : DevHeld s₀ (s.clearHub d) := by
  unfold State.clearHub
  grind [DevHeld.fields, DevHeld.others]

theorem DevHeld.settle (hk : DevHeld s₀ s) (d : Nat) : DevHeld s₀ (s.settle d) := by
  unfold State.settle
  grind [DevHeld.fields, DevHeld.others, DevHeld.modDisp]

theorem DevHeld.answerClaim (hk : DevHeld s₀ s) (c h : Nat) (r : CRec) : DevHeld s₀ (s.answerClaim c h r) := by
  unfold State.answerClaim
  grind [DevHeld.fields, DevHeld.others, DevHeld.spadWrite, DevHeld.setScalar, DevHeld.modCore, DevHeld.modTile, DevHeld.seqDone]

theorem DevHeld.abortHeld (hk : DevHeld s₀ s) (d : Nat) (p : ClaimReq → Bool) : DevHeld s₀ (s.abortHeld d p) := by
  unfold State.abortHeld
  grind [DevHeld.fields, DevHeld.others, DevHeld.modDisp, DevHeld.each, DevHeld.answerClaim]

theorem DevHeld.disarmDisp (hk : DevHeld s₀ s) (d : Nat) : DevHeld s₀ (s.disarmDisp d) := by
  unfold State.disarmDisp
  grind [DevHeld.fields, DevHeld.others, DevHeld.abortHeld, DevHeld.dropSums, DevHeld.dropHub, DevHeld.modDisp]

theorem DevHeld.endClaim (hk : DevHeld s₀ s) (c d tile epoch : Nat) : DevHeld s₀ (s.endClaim c d tile epoch) := by
  unfold State.endClaim
  grind [DevHeld.fields, DevHeld.others, DevHeld.closeClaim, DevHeld.settle]

theorem DevHeld.flagTile (hk : DevHeld s₀ s) (c h : Nat) (l : List Nat) : DevHeld s₀ (s.flagTile c h l) := by
  unfold State.flagTile
  grind [DevHeld.fields, DevHeld.others, DevHeld.modTile]

theorem DevHeld.unstall (hk : DevHeld s₀ s) (c : Nat) (p : StallBy → Bool) : DevHeld s₀ (s.unstall c p) := by
  unfold State.unstall
  grind [DevHeld.fields, DevHeld.others, DevHeld.modCore]

theorem DevHeld.chanHalt (hk : DevHeld s₀ s) (c ch err : Nat) : DevHeld s₀ (s.chanHalt c ch err) := by
  unfold State.chanHalt
  grind [DevHeld.fields, DevHeld.others, DevHeld.modChan, DevHeld.unstall, DevHeld.count]

theorem DevHeld.arrKick (hk : DevHeld s₀ s) (c : Nat) : DevHeld s₀ (s.arrKick c) := by
  unfold State.arrKick
  grind [DevHeld.fields, DevHeld.others, DevHeld.modTile]

theorem DevHeld.arrLeave (hk : DevHeld s₀ s) (c : Nat) : DevHeld s₀ (s.arrLeave c) := by
  unfold State.arrLeave
  grind [DevHeld.fields, DevHeld.others, DevHeld.modArr, DevHeld.arrKick]

theorem DevHeld.arrDrop (hk : DevHeld s₀ s) (c h : Nat) : DevHeld s₀ (s.arrDrop c h) := by
  unfold State.arrDrop
  grind [DevHeld.fields, DevHeld.others, DevHeld.modArr, DevHeld.arrLeave]

theorem DevHeld.dropWork (hk : DevHeld s₀ s) (c h : Nat) : DevHeld s₀ (s.dropWork c h) := by
  unfold State.dropWork
  grind [DevHeld.fields, DevHeld.others, DevHeld.modCore, DevHeld.arrDrop]

theorem DevHeld.releaseSlots (hk : DevHeld s₀ s) (c h : Nat) : DevHeld s₀ (s.releaseSlots c h) := by
  unfold State.releaseSlots
  exact (hk.each _ _ fun t n h => h.slotRelease _ _ _).each _ _ fun t n h => h.slotRelease _ _ _

theorem DevHeld.abortChans (hk : DevHeld s₀ s) (c h : Nat) : DevHeld s₀ (s.abortChans c h) := by
  unfold State.abortChans
  grind [DevHeld.fields, DevHeld.others, DevHeld.each, DevHeld.store, DevHeld.chanHalt]

theorem DevHeld.freeTile (hk : DevHeld s₀ s) (c h : Nat) : DevHeld s₀ (s.freeTile c h) := by
  unfold State.freeTile
  grind [DevHeld.fields, DevHeld.others, DevHeld.dropWork, DevHeld.unstall, DevHeld.modTile, DevHeld.modSeq]

theorem DevHeld.abortWait (hk : DevHeld s₀ s) (c h : Nat) (tsw : W32) : DevHeld s₀ (s.abortWait c h tsw) := by
  unfold State.abortWait
  grind [DevHeld.fields, DevHeld.others, DevHeld.setScalar, DevHeld.seqDone]

theorem DevHeld.abortTile (hk : DevHeld s₀ s) (c h : Nat) : DevHeld s₀ (s.abortTile c h) := by
  unfold State.abortTile
  grind (gen := 40) (ematch := 40) [DevHeld.fields, DevHeld.others, DevHeld.flagTile, DevHeld.releaseSlots, DevHeld.abortChans,
    DevHeld.abortWait, DevHeld.freeTile]

theorem DevHeld.endTile (hk : DevHeld s₀ s) (c h : Nat) : DevHeld s₀ (s.endTile c h) := by
  unfold State.endTile
  grind [DevHeld.fields, DevHeld.others, DevHeld.endClaim, DevHeld.abortTile]

theorem DevHeld.groupEvent (hk : DevHeld s₀ s) (g code cls detail tile : Nat)
    : DevHeld s₀ (s.groupEvent g code cls detail tile) := by
  unfold State.groupEvent
  grind [DevHeld.fields, DevHeld.others, DevHeld.log]

theorem DevHeld.endRounds (hk : DevHeld s₀ s) (g cause : Nat) (doubt : Bool) : DevHeld s₀ (s.endRounds g cause doubt) := by
  unfold State.endRounds
  grind [DevHeld.fields, DevHeld.others, DevHeld.endTile, DevHeld.groupEvent, DevHeld.modGroup, DevHeld.foldl]

theorem DevHeld.sendAbort (hk : DevHeld s₀ s) (g cause : Nat) : DevHeld s₀ (s.sendAbort g cause) := by
  unfold State.sendAbort
  grind [DevHeld.fields, DevHeld.others, DevHeld.toKids, DevHeld.toParent]

theorem DevHeld.abortGroup (hk : DevHeld s₀ s) (g cause : Nat) (doubt : Bool) : DevHeld s₀ (s.abortGroup g cause doubt) := by
  unfold State.abortGroup
  grind [DevHeld.fields, DevHeld.others, DevHeld.sendAbort, DevHeld.endRounds]

theorem DevHeld.resetGroup (hk : DevHeld s₀ s) (g : Nat) : DevHeld s₀ (s.resetGroup g) := by
  unfold State.resetGroup
  grind [DevHeld.fields, DevHeld.others, DevHeld.abortGroup]

theorem DevHeld.linkGroup (hk : DevHeld s₀ s) (g p : Nat) : DevHeld s₀ (s.linkGroup g p) := by
  unfold State.linkGroup
  grind [DevHeld.fields, DevHeld.others, DevHeld.abortGroup]

theorem DevHeld.egressStart (hk : DevHeld s₀ s) (p : Nat) : DevHeld s₀ (s.egressStart p) := by
  unfold State.egressStart
  grind [DevHeld.fields, DevHeld.others, DevHeld.modEth]

theorem DevHeld.egress (hk : DevHeld s₀ s) (p : Nat) (f : EFrame) : DevHeld s₀ (s.egress p f) := by
  unfold State.egress
  grind [DevHeld.fields, DevHeld.others, DevHeld.modEth, DevHeld.egressStart]

theorem DevHeld.sendFrame (hk : DevHeld s₀ s) (n : Nat) (f : HxtFrame) : DevHeld s₀ (s.sendFrame n f) := by
  unfold State.sendFrame
  grind [DevHeld.fields, DevHeld.others, DevHeld.modSess, DevHeld.egress, DevHeld.send]

theorem DevHeld.sendMsg (hk : DevHeld s₀ s) (n : Nat) (m : OutMsg) (tx : Nat) : DevHeld s₀ (s.sendMsg n m tx) := by
  unfold State.sendMsg
  grind [DevHeld.fields, DevHeld.others, DevHeld.each, DevHeld.sendFrame]

theorem DevHeld.flushOut (hk : DevHeld s₀ s) (n : Nat) : DevHeld s₀ (s.flushOut n) := by
  unfold State.flushOut
  grind [DevHeld.fields, DevHeld.others, DevHeld.modSess, DevHeld.each, DevHeld.sendMsg]

theorem DevHeld.post (hk : DevHeld s₀ s) (n typ : Nat) (resp : Bool) (pl : List Byte) (src : Option (Nat × Nat) := none)
    : DevHeld s₀ (s.post n typ resp pl src) := by
  unfold State.post
  grind [DevHeld.fields, DevHeld.others, DevHeld.modSess, DevHeld.flushOut, DevHeld.log]

theorem DevHeld.respond (hk : DevHeld s₀ s) (n typ code detail : Nat) : DevHeld s₀ (s.respond n typ code detail) := by
  unfold State.respond
  grind [DevHeld.fields, DevHeld.others, DevHeld.post]

theorem DevHeld.endMsg (hk : DevHeld s₀ s) (n : Nat) (m : InMsg) (code detail : Nat)
    : DevHeld s₀ (s.endMsg n m code detail) := by
  unfold State.endMsg
  grind [DevHeld.fields, DevHeld.others, DevHeld.modSess, DevHeld.respond]

theorem DevHeld.attest (hk : DevHeld s₀ s) (kind : Nat) (part : Option Nat) : DevHeld s₀ (s.attest kind part) := by
  unfold State.attest
  exact hk.setSec rfl

theorem DevHeld.newKey (hk : DevHeld s₀ s) (k : Nat) (st : KeySt) (bound : Option Nat) : DevHeld s₀ (s.newKey k st bound) := by
  unfold State.newKey
  grind [DevHeld.fields, DevHeld.others, DevHeld.setKslot]

theorem DevHeld.queueFill (hk : DevHeld s₀ s) (r : Region) : DevHeld s₀ (s.queueFill r) := by
  unfold State.queueFill
  grind [DevHeld.fields, DevHeld.others]

theorem DevHeld.destroyKey (hk : DevHeld s₀ s) (r : Region) : DevHeld s₀ (s.destroyKey r) := by
  unfold State.destroyKey
  grind [DevHeld.fields, DevHeld.others, DevHeld.newKey, DevHeld.setKslot, DevHeld.queueFill]

theorem DevHeld.closeWindows (hk : DevHeld s₀ s) (n : Nat) : DevHeld s₀ (s.closeWindows n) := by
  unfold State.closeWindows
  grind [DevHeld.fields, DevHeld.others]

theorem DevHeld.closeDebug (hk : DevHeld s₀ s) : DevHeld s₀ (s.closeDebug) := by
  unfold State.closeDebug
  grind [DevHeld.fields, DevHeld.others, DevHeld.attest]

theorem DevHeld.dropSession (hk : DevHeld s₀ s) (n : Nat) : DevHeld s₀ (s.dropSession n) := by
  unfold State.dropSession
  grind [DevHeld.fields, DevHeld.others, DevHeld.closeWindows, DevHeld.each, DevHeld.destroyKey, DevHeld.closeDebug, DevHeld.modCore,
    DevHeld.modSess]

theorem DevHeld.dropStalls (hk : DevHeld s₀ s) (n : Nat) : DevHeld s₀ (s.dropStalls n) := by
  unfold State.dropStalls
  grind [DevHeld.fields, DevHeld.others, DevHeld.each, DevHeld.unstall]

theorem DevHeld.dropFrames (hk : DevHeld s₀ s) (n : Nat) : DevHeld s₀ (s.dropFrames n) := by
  unfold State.dropFrames
  grind [DevHeld.fields, DevHeld.others]

theorem DevHeld.freeCtx (hk : DevHeld s₀ s) (n : Nat) : DevHeld s₀ (s.freeCtx n) := by
  unfold State.freeCtx
  grind [DevHeld.fields, DevHeld.others, DevHeld.dropFrames, DevHeld.modSess]

theorem DevHeld.killSession (hk : DevHeld s₀ s) (n : Nat) : DevHeld s₀ (s.killSession n) := by
  unfold State.killSession
  grind [DevHeld.fields, DevHeld.others, DevHeld.endMsg, DevHeld.dropStalls, DevHeld.dropSession, DevHeld.freeCtx, DevHeld.foldl]

theorem DevHeld.dropLines (hk : DevHeld s₀ s) (p : Nat → Bool) : DevHeld s₀ (s.dropLines p) := by
  unfold State.dropLines
  grind [DevHeld.fields, DevHeld.others]

theorem DevHeld.wipeCore (hk : DevHeld s₀ s) (c : Nat) : DevHeld s₀ (s.wipeCore c) := by
  unfold State.wipeCore
  grind [DevHeld.fields, DevHeld.others, DevHeld.setCore, DevHeld.act, DevHeld.zeroRange]

theorem DevHeld.resetGroups (hk : DevHeld s₀ s) (p : Nat) : DevHeld s₀ (s.resetGroups p) := by
  unfold State.resetGroups
  grind [DevHeld.fields, DevHeld.others, DevHeld.each, DevHeld.resetGroup]

theorem DevHeld.beginScrub (hk : DevHeld s₀ s) (p : Nat) (kill : Bool) : DevHeld s₀ (s.beginScrub p kill) := by
  unfold State.beginScrub
  extract_lets ds t1 t2 t3 t4 t5 t6 gs t7
  have h1 : DevHeld s₀ t1 := hk.each _ _ fun t d ht => ht.abortHeld d _
  have h3 : DevHeld s₀ t3 := (h1.resetGroups p).each _ _ fun t r ht => ht.destroyKey r
  have h4 : DevHeld s₀ t4 := by
    simp only [t4]
    split
    · exact h3.each _ _ fun t n ht => ht.killSession n
    · exact h3
  have h5 : DevHeld s₀ t5 := h4.each _ _ fun t d ht => ((ht.disarmDisp d).clearHub d).modDisp d _
  have h7 : DevHeld s₀ t7 := (h5.each _ _ fun t c ht => ht.wipeCore c).dropLines _
  exact h7.fields ⟨rfl, rfl, rfl, rfl⟩

theorem DevHeld.failLoad (hk : DevHeld s₀ s) (err : Nat) : DevHeld s₀ (s.failLoad err) := by
  unfold State.failLoad
  grind [DevHeld.fields, DevHeld.others, DevHeld.each, DevHeld.modDisp, DevHeld.devEvent]

theorem DevHeld.loadReset (hk : DevHeld s₀ s) (p cause : Nat) (kill : Bool) : DevHeld s₀ (s.loadReset p cause kill) := by
  unfold State.loadReset
  split
  · exact hk.failLoad 10
  · split
    · exact hk.fields ⟨rfl, rfl, rfl, rfl⟩
    · exact hk

theorem DevHeld.resetRaised (hk : DevHeld s₀ s) (p cause : Nat) (kill : Bool) : DevHeld s₀ (s.resetRaised p cause kill) := by
  unfold State.resetRaised
  split
  · exact hk.attest _ _
  · exact hk.partEvent _ _ _ _

theorem DevHeld.resetPart (hk : DevHeld s₀ s) (p cause : Nat) (kill : Bool) : DevHeld s₀ (s.resetPart p cause kill) := by
  by_cases hs : s.scrubbing p = true
  · cases kill with
    | false => rwa [State.resetPart_again hs]
    | true =>
      obtain ⟨x, hx⟩ := Option.isSome_iff_exists.mp (State.scrubbing_eq ▸ hs)
      have h := hk.each (s.sessionsOf p) (fun t n => t.killSession n) fun t n ht => ht.killSession n
      rw [State.resetPart, hx]
      dsimp only
      generalize s.each (s.sessionsOf p) (fun t n => t.killSession n) = w at *
      split
      · have hw : DevHeld s₀ { w with sec := { w.sec with scrubs := w.sec.scrubs.map (fun (y : Scrub) =>
            if y.part = p then { y with kill := true } else y) } } := h.fields ⟨rfl, rfl, rfl, rfl⟩
        generalize State.mk .. = v at *
        exact hw.attest attKILL (some p)
      · exact hk
  · by_cases ha : s.applying p = true
    · rw [State.resetPart_applying (Bool.eq_false_iff.mpr hs) ha]
      exact hk.fields ⟨rfl, rfl, rfl, rfl⟩
    · rw [State.resetPart_new (Bool.eq_false_iff.mpr hs) (Bool.eq_false_iff.mpr ha)]
      split
      · exact hk.loadReset p cause kill
      · exact ((hk.loadReset p cause kill).resetRaised p cause kill).beginScrub p kill

theorem DevHeld.portDown (hk : DevHeld s₀ s) (p err : Nat) (tout : PortSt) : DevHeld s₀ (s.portDown p err tout) := by
  unfold State.portDown
  grind [DevHeld.fields, DevHeld.others, DevHeld.modPort, DevHeld.count, DevHeld.log, DevHeld.each, DevHeld.linkGroup]

theorem DevHeld.ethDown (hk : DevHeld s₀ s) : DevHeld s₀ (s.ethDown) := by
  unfold State.ethDown
  grind [DevHeld.fields, DevHeld.others, DevHeld.each, DevHeld.modEth]

end Sys2Proof.Machine
end

section
set_option Elab.async false
/-! What the end of a reset and the beginning of a load leave of the boot. -/

namespace Sys2Proof.Machine
open Sys2Proof
variable {s₀ s t u : State}

/-- The running firmware, the boot's state and the warm reset stay. -/
def BootHeld (s t : State) : Prop :=
  t.sec.hubRb = s.sec.hubRb ∧ t.sec.hubHash = s.sec.hubHash ∧ t.sec.boot = s.sec.boot ∧ t.sec.bootCode = s.sec.bootCode ∧ t.evt.warm = s.evt.warm

theorem BootHeld.refl (s : State) : BootHeld s s := ⟨rfl, rfl, rfl, rfl, rfl⟩

theorem BootHeld.of_eq (hk : BootHeld s₀ s) (e1 : t.sec = s.sec) (e2 : t.evt = s.evt) : BootHeld s₀ t := by
  rwa [BootHeld, e1, e2]

theorem BootHeld.fields (hk : BootHeld s₀ s) {a1 a2 a3 a4 a5 a6 a7 a8 a9 a10 a11 a12 a13 a14 a15 a16 a17 a18 a19 a20 a21}
    (e : a15.hubRb = s.sec.hubRb ∧ a15.hubHash = s.sec.hubHash ∧ a15.boot = s.sec.boot ∧ a15.bootCode = s.sec.bootCode ∧ a21.warm = s.evt.warm) :
    BootHeld s₀ (State.mk a1 a2 a3 a4 a5 a6 a7 a8 a9 a10 a11 a12 a13 a14 a15 a16 a17 a18 a19 a20 a21) := by
  unfold BootHeld at *
  simp only [e]
  exact hk

theorem BootHeld.others (hk : BootHeld s₀ s) {a1 a2 a3 a4 a5 a6 a7 a8 a9 a10 a11 a12 a13 a14 a16 a17 a18 a19 a20} :
    BootHeld s₀ (State.mk a1 a2 a3 a4 a5 a6 a7 a8 a9 a10 a11 a12 a13 a14 s.sec a16 a17 a18 a19 a20 s.evt) := hk.of_eq rfl rfl

theorem BootHeld.each {α : Type} (hk : BootHeld s₀ s) (l : List α) (f : State → α → State)
    (hf : ∀ t x, BootHeld s₀ t → BootHeld s₀ (f t x)) : BootHeld s₀ (s.each l f) := State.each_inv s (BootHeld s₀) l f hf hk

theorem BootHeld.foldl {α : Type} (hk : BootHeld s₀ s) (l : List α) (f : State → α → State)
    (hf : ∀ t x, BootHeld s₀ t → BootHeld s₀ (f t x)) : BootHeld s₀ (l.foldl f s) := hk.each l f hf

theorem BootHeld.log (hk : BootHeld s₀ s) (e : Event) : BootHeld s₀ (s.log e) := by
  unfold BootHeld at *
  rw [State.log_sec, State.log_evt]
  exact hk

theorem BootHeld.setBytes (hk : BootHeld s₀ s) (a : Nat) (bs : List Byte) : BootHeld s₀ (s.setBytes a bs) := by
  unfold BootHeld at *
  rw [State.setBytes_sec, State.setBytes_evt]
  exact hk

theorem BootHeld.setRg (hk : BootHeld s₀ s) (n : RegName) (c i j : Nat) (v : W32) : BootHeld s₀ (s.setRg n c i j v) := by
  unfold State.setRg
  grind [BootHeld.fields, BootHeld.others]

theorem BootHeld.setRgHi (hk : BootHeld s₀ s) (n : RegName) (c i j : Nat) (v : W32) : BootHeld s₀ (s.setRgHi n c i j v) := by
  unfold State.setRgHi
  grind [BootHeld.fields, BootHeld.others]

theorem BootHeld.setRg64 (hk : BootHeld s₀ s) (n : RegName) (c i j v : Nat) : BootHeld s₀ (s.setRg64 n c i j v) := by
  unfold State.setRg64
  grind [BootHeld.fields, BootHeld.others, BootHeld.setRg, BootHeld.setRgHi]

theorem BootHeld.count (hk : BootHeld s₀ s) (n : RegName) (c i k : Nat) : BootHeld s₀ (s.count n c i k) := by
  unfold State.count
  grind [BootHeld.fields, BootHeld.others, BootHeld.setRg]

theorem BootHeld.setCore (hk : BootHeld s₀ s) (c : Nat) (x : Core) : BootHeld s₀ (s.setCore c x) := by
  unfold State.setCore
  grind [BootHeld.fields, BootHeld.others]

theorem BootHeld.modCore (hk : BootHeld s₀ s) (c : Nat) (f : Core → Core) : BootHeld s₀ (s.modCore c f) := by
  unfold State.modCore
  grind [BootHeld.fields, BootHeld.others, BootHeld.setCore]

theorem BootHeld.modTile (hk : BootHeld s₀ s) (c h : Nat) (f : Tile → Tile) : BootHeld s₀ (s.modTile c h f) := by
  unfold State.modTile
  grind [BootHeld.fields, BootHeld.others, BootHeld.modCore]

theorem BootHeld.modSeq (hk : BootHeld s₀ s) (c : Nat) (f : Seq → Seq) : BootHeld s₀ (s.modSeq c f) := by
  unfold State.modSeq
  grind [BootHeld.fields, BootHeld.others, BootHeld.modCore]

theorem BootHeld.modArr (hk : BootHeld s₀ s) (c : Nat) (f : Arr → Arr) : BootHeld s₀ (s.modArr c f) := by
  unfold State.modArr
  grind [BootHeld.fields, BootHeld.others, BootHeld.modCore]

theorem BootHeld.modChan (hk : BootHeld s₀ s) (c ch : Nat) (f : Chan → Chan) : BootHeld s₀ (s.modChan c ch f) := by
  unfold State.modChan
  grind [BootHeld.fields, BootHeld.others, BootHeld.modCore]

theorem BootHeld.setSlot (hk : BootHeld s₀ s) (c n : Nat) (x : Slot) : BootHeld s₀ (s.setSlot c n x) := by
  unfold State.setSlot
  grind [BootHeld.fields, BootHeld.others, BootHeld.modCore]

theorem BootHeld.modDisp (hk : BootHeld s₀ s) (d : Nat) (f : Disp → Disp) : BootHeld s₀ (s.modDisp d f) := by
  unfold State.modDisp
  grind [BootHeld.fields, BootHeld.others]

theorem BootHeld.modPort (hk : BootHeld s₀ s) (p : Nat) (f : Port → Port) : BootHeld s₀ (s.modPort p f) := by
  unfold State.modPort
  grind [BootHeld.fields, BootHeld.others]

theorem BootHeld.modGroup (hk : BootHeld s₀ s) (g : Nat) (f : Group → Group) : BootHeld s₀ (s.modGroup g f) := by
  unfold State.modGroup
  grind [BootHeld.fields, BootHeld.others]

theorem BootHeld.modEth (hk : BootHeld s₀ s) (p : Nat) (f : Eth → Eth) : BootHeld s₀ (s.modEth p f) := by
  unfold State.modEth
  grind [BootHeld.fields, BootHeld.others]

theorem BootHeld.setSec (hk : BootHeld s₀ s) {x : Sec} (h1 : x.hubRb = s.sec.hubRb) (h2 : x.hubHash = s.sec.hubHash)
    (h3 : x.boot = s.sec.boot) (h4 : x.bootCode = s.sec.bootCode) : BootHeld s₀ (s.setSec x) := by
  unfold State.setSec
  exact hk.fields ⟨h1, h2, h3, h4, rfl⟩

theorem BootHeld.send (hk : BootHeld s₀ s) (o : Out) : BootHeld s₀ (s.send o) := by
  unfold State.send
  grind [BootHeld.fields, BootHeld.others]

theorem BootHeld.devEvent (hk : BootHeld s₀ s) (code cls detail : Nat) : BootHeld s₀ (s.devEvent code cls detail) := by
  unfold State.devEvent
  grind [BootHeld.fields, BootHeld.others, BootHeld.log]

theorem BootHeld.setSpad (hk : BootHeld s₀ s) (c off : Nat) (bs : List Byte) : BootHeld s₀ (s.setSpad c off bs) := by
  unfold State.setSpad
  grind [BootHeld.fields, BootHeld.others, BootHeld.setBytes]

theorem BootHeld.sendPacket (hk : BootHeld s₀ s) (p : Nat) (k : Packet) : BootHeld s₀ (s.sendPacket p k) := by
  unfold State.sendPacket
  grind [BootHeld.fields, BootHeld.others, BootHeld.modPort, BootHeld.each, BootHeld.send]

theorem BootHeld.groupAct (hk : BootHeld s₀ s) (g j n : Nat) : BootHeld s₀ (s.groupAct g j n) := by
  unfold State.groupAct
  grind [BootHeld.fields, BootHeld.others]

theorem BootHeld.groupSend (hk : BootHeld s₀ s) (g p : Nat) (k : Packet) : BootHeld s₀ (s.groupSend g p k) := by
  unfold State.groupSend
  grind [BootHeld.fields, BootHeld.others, BootHeld.groupAct, BootHeld.sendPacket]

theorem BootHeld.toParent (hk : BootHeld s₀ s) (g : Nat) (k : Packet) : BootHeld s₀ (s.toParent g k) := by
  unfold State.toParent
  grind [BootHeld.fields, BootHeld.others, BootHeld.groupSend]

theorem BootHeld.toKids (hk : BootHeld s₀ s) (g : Nat) (k : Packet) : BootHeld s₀ (s.toKids g k) := by
  unfold State.toKids
  grind [BootHeld.fields, BootHeld.others, BootHeld.each, BootHeld.groupSend]

theorem BootHeld.slotRelease (hk : BootHeld s₀ s) (c n cls : Nat) : BootHeld s₀ (s.slotRelease c n cls) := by
  unfold State.slotRelease
  grind [BootHeld.fields, BootHeld.others, BootHeld.setSlot]

theorem BootHeld.writeRd (hk : BootHeld s₀ s) (c : Nat) : BootHeld s₀ (s.writeRd c) := by
  unfold State.writeRd
  grind [BootHeld.fields, BootHeld.others, BootHeld.setSpad]

theorem BootHeld.setRd (hk : BootHeld s₀ s) (c i : Nat) : BootHeld s₀ (s.setRd c i) := by
  unfold State.setRd
  grind [BootHeld.fields, BootHeld.others, BootHeld.modSeq, BootHeld.writeRd]

theorem BootHeld.seqDoneAt (hk : BootHeld s₀ s) (c i : Nat) : BootHeld s₀ (s.seqDoneAt c i) := by
  unfold State.seqDoneAt
  grind [BootHeld.fields, BootHeld.others, BootHeld.setRd, BootHeld.modSeq]

theorem BootHeld.seqDone (hk : BootHeld s₀ s) (c : Nat) : BootHeld s₀ (s.seqDone c) := by
  unfold State.seqDone
  grind [BootHeld.fields, BootHeld.others, BootHeld.seqDoneAt]

theorem BootHeld.setScalar (hk : BootHeld s₀ s) (c n v : Nat) : BootHeld s₀ (s.setScalar c n v) := by
  unfold State.setScalar
  grind [BootHeld.fields, BootHeld.others, BootHeld.setRg64]

theorem BootHeld.closeClaim (hk : BootHeld s₀ s) (x : Claim) : BootHeld s₀ (s.closeClaim x) := by
  unfold State.closeClaim
  grind [BootHeld.fields, BootHeld.others]

theorem BootHeld.settle (hk : BootHeld s₀ s) (d : Nat) : BootHeld s₀ (s.settle d) := by
  unfold State.settle
  grind [BootHeld.fields, BootHeld.others, BootHeld.modDisp]

theorem BootHeld.endClaim (hk : BootHeld s₀ s) (c d tile epoch : Nat) : BootHeld s₀ (s.endClaim c d tile epoch) := by
  unfold State.endClaim
  grind [BootHeld.fields, BootHeld.others, BootHeld.closeClaim, BootHeld.settle]

theorem BootHeld.flagTile (hk : BootHeld s₀ s) (c h : Nat) (l : List Nat) : BootHeld s₀ (s.flagTile c h l) := by
  unfold State.flagTile
  grind [BootHeld.fields, BootHeld.others, BootHeld.modTile]

theorem BootHeld.unstall (hk : BootHeld s₀ s) (c : Nat) (p : StallBy → Bool) : BootHeld s₀ (s.unstall c p) := by
  unfold State.unstall
  grind [BootHeld.fields, BootHeld.others, BootHeld.modCore]

theorem BootHeld.chanHalt (hk : BootHeld s₀ s) (c ch err : Nat) : BootHeld s₀ (s.chanHalt c ch err) := by
  unfold State.chanHalt
  grind [BootHeld.fields, BootHeld.others, BootHeld.modChan, BootHeld.unstall, BootHeld.count]

theorem BootHeld.arrKick (hk : BootHeld s₀ s) (c : Nat) : BootHeld s₀ (s.arrKick c) := by
  unfold State.arrKick
  grind [BootHeld.fields, BootHeld.others, BootHeld.modTile]

theorem BootHeld.arrLeave (hk : BootHeld s₀ s) (c : Nat) : BootHeld s₀ (s.arrLeave c) := by
  unfold State.arrLeave
  grind [BootHeld.fields, BootHeld.others, BootHeld.modArr, BootHeld.arrKick]

theorem BootHeld.arrDrop (hk : BootHeld s₀ s) (c h : Nat) : BootHeld s₀ (s.arrDrop c h) := by
  unfold State.arrDrop
  grind [BootHeld.fields, BootHeld.others, BootHeld.modArr, BootHeld.arrLeave]

theorem BootHeld.dropWork (hk : BootHeld s₀ s) (c h : Nat) : BootHeld s₀ (s.dropWork c h) := by
  unfold State.dropWork
  grind [BootHeld.fields, BootHeld.others, BootHeld.modCore, BootHeld.arrDrop]

theorem BootHeld.releaseSlots (hk : BootHeld s₀ s) (c h : Nat) : BootHeld s₀ (s.releaseSlots c h) := by
  unfold State.releaseSlots
  exact (hk.each _ _ fun t n h => h.slotRelease _ _ _).each _ _ fun t n h => h.slotRelease _ _ _

theorem BootHeld.abortChans (hk : BootHeld s₀ s) (c h : Nat) : BootHeld s₀ (s.abortChans c h) := by
  unfold State.abortChans
  grind [BootHeld.fields, BootHeld.others, BootHeld.each, BootHeld.chanHalt]

theorem BootHeld.freeTile (hk : BootHeld s₀ s) (c h : Nat) : BootHeld s₀ (s.freeTile c h) := by
  unfold State.freeTile
  grind [BootHeld.fields, BootHeld.others, BootHeld.dropWork, BootHeld.unstall, BootHeld.modTile, BootHeld.modSeq]

theorem BootHeld.abortWait (hk : BootHeld s₀ s) (c h : Nat) (tsw : W32) : BootHeld s₀ (s.abortWait c h tsw) := by
  unfold State.abortWait
  grind [BootHeld.fields, BootHeld.others, BootHeld.setScalar, BootHeld.seqDone]

theorem BootHeld.abortTile (hk : BootHeld s₀ s) (c h : Nat) : BootHeld s₀ (s.abortTile c h) := by
  unfold State.abortTile
  grind (gen := 40) (ematch := 40) [BootHeld.fields, BootHeld.others, BootHeld.flagTile, BootHeld.releaseSlots, BootHeld.abortChans,
    BootHeld.abortWait, BootHeld.freeTile]

theorem BootHeld.endTile (hk : BootHeld s₀ s) (c h : Nat) : BootHeld s₀ (s.endTile c h) := by
  unfold State.endTile
  grind [BootHeld.fields, BootHeld.others, BootHeld.endClaim, BootHeld.abortTile]

theorem BootHeld.groupEvent (hk : BootHeld s₀ s) (g code cls detail tile : Nat)
    : BootHeld s₀ (s.groupEvent g code cls detail tile) := by
  unfold State.groupEvent
  grind [BootHeld.fields, BootHeld.others, BootHeld.log]

theorem BootHeld.endRounds (hk : BootHeld s₀ s) (g cause : Nat) (doubt : Bool) : BootHeld s₀ (s.endRounds g cause doubt) := by
  unfold State.endRounds
  grind [BootHeld.fields, BootHeld.others, BootHeld.endTile, BootHeld.groupEvent, BootHeld.modGroup, BootHeld.foldl]

theorem BootHeld.sendAbort (hk : BootHeld s₀ s) (g cause : Nat) : BootHeld s₀ (s.sendAbort g cause) := by
  unfold State.sendAbort
  grind [BootHeld.fields, BootHeld.others, BootHeld.toKids, BootHeld.toParent]

theorem BootHeld.abortGroup (hk : BootHeld s₀ s) (g cause : Nat) (doubt : Bool) : BootHeld s₀ (s.abortGroup g cause doubt) := by
  unfold State.abortGroup
  grind [BootHeld.fields, BootHeld.others, BootHeld.sendAbort, BootHeld.endRounds]

theorem BootHeld.linkGroup (hk : BootHeld s₀ s) (g p : Nat) : BootHeld s₀ (s.linkGroup g p) := by
  unfold State.linkGroup
  grind [BootHeld.fields, BootHeld.others, BootHeld.abortGroup]

theorem BootHeld.attest (hk : BootHeld s₀ s) (kind : Nat) (part : Option Nat) : BootHeld s₀ (s.attest kind part) := by
  unfold State.attest
  exact hk.setSec rfl rfl rfl rfl

theorem BootHeld.failLoad (hk : BootHeld s₀ s) (err : Nat) : BootHeld s₀ (s.failLoad err) := by
  unfold State.failLoad
  grind [BootHeld.fields, BootHeld.others, BootHeld.each, BootHeld.modDisp, BootHeld.devEvent]

theorem BootHeld.portDown (hk : BootHeld s₀ s) (p err : Nat) (tout : PortSt) : BootHeld s₀ (s.portDown p err tout) := by
  unfold State.portDown
  grind [BootHeld.fields, BootHeld.others, BootHeld.modPort, BootHeld.count, BootHeld.log, BootHeld.each, BootHeld.linkGroup]

theorem BootHeld.portTrain (hk : BootHeld s₀ s) (p : Nat) : BootHeld s₀ (s.portTrain p) := by
  unfold State.portTrain
  grind [BootHeld.fields, BootHeld.others, BootHeld.portDown, BootHeld.modPort]

theorem BootHeld.writeCoreImg (hk : BootHeld s₀ s) (g : Cfg) (c : Nat) : BootHeld s₀ (s.writeCoreImg g c) := by
  unfold State.writeCoreImg
  grind [BootHeld.fields, BootHeld.others, BootHeld.setRg]

theorem BootHeld.writeBudget (hk : BootHeld s₀ s) (g : Cfg) (p : Nat) : BootHeld s₀ (s.writeBudget g p) := by
  unfold State.writeBudget
  grind [BootHeld.fields, BootHeld.others, BootHeld.setRg64, BootHeld.setRg]

theorem BootHeld.writeFence (hk : BootHeld s₀ s) (g : Cfg) : BootHeld s₀ (s.writeFence g) := by
  unfold State.writeFence
  grind [BootHeld.fields, BootHeld.others, BootHeld.each, BootHeld.setRg]

theorem BootHeld.writeHubImg (hk : BootHeld s₀ s) (g : Cfg) : BootHeld s₀ (s.writeHubImg g) := by
  unfold State.writeHubImg
  grind (gen := 40) (ematch := 40) [BootHeld.fields, BootHeld.others, BootHeld.each, BootHeld.setRg, BootHeld.writeFence]

theorem BootHeld.writeImg (hk : BootHeld s₀ s) (g : Cfg) : BootHeld s₀ (s.writeImg g) := by
  unfold State.writeImg
  grind [BootHeld.fields, BootHeld.others, BootHeld.writeHubImg, BootHeld.each, BootHeld.writeCoreImg, BootHeld.writeBudget]

theorem BootHeld.bumpAll (hk : BootHeld s₀ s) : BootHeld s₀ (s.bumpAll) := by
  unfold State.bumpAll
  grind [BootHeld.fields, BootHeld.others, BootHeld.each, BootHeld.modDisp]

theorem BootHeld.writeEth (hk : BootHeld s₀ s) (g : Cfg) : BootHeld s₀ (s.writeEth g) := by
  unfold State.writeEth
  grind [BootHeld.fields, BootHeld.others, BootHeld.each, BootHeld.modEth]

theorem BootHeld.beginLoad (hk : BootHeld s₀ s) (flash : Bool) (src : Nat) : BootHeld s₀ (s.beginLoad flash src) := by
  unfold State.beginLoad
  grind [BootHeld.fields, BootHeld.others, BootHeld.failLoad]

theorem BootHeld.startPorts (hk : BootHeld s₀ s) : BootHeld s₀ (s.startPorts) := by
  unfold State.startPorts
  grind [BootHeld.fields, BootHeld.others, BootHeld.each, BootHeld.portTrain, BootHeld.writeEth]

theorem BootHeld.keepWindows (hk : BootHeld s₀ s) (t0 : Sparse Nat) : BootHeld s₀ (s.keepWindows t0) := by
  unfold State.keepWindows
  grind [BootHeld.fields, BootHeld.others]

end Sys2Proof.Machine
end

section
set_option Elab.async false
/-! The boot chain, the cold reset and the rails (R487 to R490, R552, R566 to R568). -/

namespace Sys2Proof.Machine
open Sys2Proof
variable {s t u : State} {k : Nat} {a b : List Byte}

/-! ### Cold reset -/

/-- A cold reset keeps the DRAM's bytes alone. -/
theorem State.byte_coldBase (boot : Boot) (x : Nat) : (s.coldBase boot).byte x = if x < 2 ^ 40 then s.byte x else 0 := by
  have h := Sparse.get_filter_key 0 s.mem (fun k => decide (k < 2 ^ 40)) x
  simp only [decide_eq_true_eq] at h
  exact h

/-! ### Firmware -/

/-- The state after some measurements: the attestation log alone has changed. -/
def State.measured (s : State) (l : List Attest) (n : Nat) (d : BitVec 512) : State :=
  { s with sec := { s.sec with log := l, logCnt := n, digest := d } }

theorem State.attest_measured (kind : Nat) (part : Option Nat) : ∃ l n d, s.attest kind part = s.measured l n d := State.attest_eq ..

/-- The copy of a firmware stage that starts, the first where it verifies, is measured. -/
theorem State.fwStage_ok {kind ctr : Nat} (h : s.fwOk kind ctr a = true ∨ s.fwOk kind ctr b = true) :
    ∃ l n d, s.fwStage kind ctr a b = (some (if s.fwOk kind ctr a then (a, false) else (b, true)), s.measured l n d) := by
  obtain ⟨l, n, d, h1⟩ := State.attest_measured (s := s) attSTAGE none
  obtain ⟨l', n', d', h2⟩ := State.attest_measured (s := s.measured l n d) attSTAGE none
  rw [State.fwStage, h1]
  dsimp only
  split
  · next ha => exact ⟨l, n, d, rfl⟩
  · next ha =>
    rw [if_pos (h.resolve_left ha), h2]
    exact ⟨l', n', d', rfl⟩

theorem State.fwStage_none {kind ctr : Nat} (ha : s.fwOk kind ctr a = false) (hb : s.fwOk kind ctr b = false) :
    ∃ t, s.fwStage kind ctr a b = (none, t) ∧ only [.sec] s t := by
  unfold State.fwStage
  extract_lets t u
  refine ⟨u, by simp [ha, hb], ?_⟩
  exact ((only.refl [.sec] s).attest (by simp) _ _).attest (by simp) _ _

/-! ### The stages of the boot -/

/-- The Porch's firmware starts: the rails rise, from the first. -/
theorem State.porchStarts_spec : (s.porchStarts true).sec.boot = .rails ∧
    (s.porchStarts true).sec.porchRb = s.sec.porchRb ∧ (s.porchStarts true).sec.bootCode = s.sec.bootCode ∧
    (s.porchStarts true).sec.idkey = true ∧ (s.porchStarts true).prc.raising = some 4 := by
  unfold State.porchStarts
  rw [if_neg (by decide)]
  extract_lets sec t
  have hon : only [.prc, .outbox] t (((t.railsOff [0, 1, 2, 3, 4, 5, 6, 7, 8]).keeper).raise 4 (railMv 4)) :=
    (((only.refl _ t).railsOff (by simp) (by simp) _).keeper (by simp) (by simp)).raise (by simp) (by simp) _ _
  have hsec := (hon .sec).resolve_left (by simp)
  change State.sec _ = _ at hsec
  rw [hsec]
  exact ⟨rfl, rfl, rfl, rfl, rfl⟩

/-- A load that begins keeps its kind. -/
theorem State.boot_beginLoad (flash : Bool) (src : Nat) : (s.beginLoad flash src).trl.boot = s.trl.boot := by
  unfold State.beginLoad
  extract_lets x t
  split
  · rfl
  · unfold State.failLoad
    extract_lets y v u
    have hu : only [.sdt] v u := (only.refl _ v).each _ _ fun w d hw => hw.modDisp (by simp) _ _
    rw [State.devEvent, State.log_trl, (hu .trl).resolve_left (by simp)]

/-- The boot's load begins. -/
theorem State.bootImage_spec : s.bootImage.sec.hubRb = s.sec.hubRb ∧ s.bootImage.sec.hubHash = s.sec.hubHash ∧
    s.bootImage.sec.boot = .image ∧ s.bootImage.sec.bootCode = s.sec.bootCode ∧ s.bootImage.trl.boot = true := by
  unfold State.bootImage
  obtain ⟨h1, h2, h3, h4, -⟩ :=
    (BootHeld.refl { s with sec := { s.sec with boot := .image }, trl := { boot := true } }).beginLoad true imageA
  exact ⟨h1, h2, h3, h4, State.boot_beginLoad ..⟩

/-- A warm reset that ends leaves the boot as RAN. -/
theorem State.warmStarts_spec : s.warmStarts.sec.hubRb = s.sec.hubRb ∧ s.warmStarts.sec.hubHash = s.sec.hubHash ∧
    s.warmStarts.sec.boot = .ran ∧ s.warmStarts.evt.warm = none := by
  unfold State.warmStarts
  extract_lets code bare evt sec t0 g t1 tch clr t2 t3
  have h0 : t0.sec.hubRb = s.sec.hubRb ∧ t0.sec.hubHash = s.sec.hubHash ∧ t0.sec.boot = .ran ∧ t0.evt.warm = none :=
    ⟨rfl, rfl, rfl, rfl⟩
  have h1 : BootHeld t0 t1 :=
    (((BootHeld.refl t0).writeImg g).bumpAll.each _ _ fun t c ht => ht.modCore c _).keepWindows _
  have h2 : BootHeld t0 t2 := by
    simp only [t2]
    split
    · exact BootHeld.attest (h1.fields ⟨rfl, rfl, rfl, rfl, rfl⟩) _ _
    · exact h1
  clear_value t2 t0
  have h3 : BootHeld t0 t3 := (h2.devEvent _ _ _).startPorts
  clear_value t3
  obtain ⟨r1, r2, r3, r4⟩ := h0
  split
  · have hw : BootHeld t0 { t3 with trl := { fallback := true } } := h3.fields ⟨rfl, rfl, rfl, rfl, rfl⟩
    obtain ⟨e1, e2, e3, -, e5⟩ := hw.beginLoad true (t3.rf .evtRstcfg 0 0 1 15 * 65536)
    exact ⟨e1.trans r1, e2.trans r2, e3.trans r3, e5.trans r4⟩
  · obtain ⟨e1, e2, e3, -, e5⟩ := h3
    exact ⟨e1.trans r1, e2.trans r2, e3.trans r3, e5.trans r4⟩

/-- A wake ends with the Cellar out of self-refresh. -/
theorem State.wakeStarts_spec : s.wakeStarts.sec.hubRb = s.sec.hubRb ∧ s.wakeStarts.sec.hubHash = s.sec.hubHash ∧
    s.wakeStarts.clr.sref = false := by
  have h := (BootHeld.refl s).writeImg s.retained
  unfold State.wakeStarts
  generalize s.writeImg s.retained = t at *
  obtain ⟨h1, h2, -⟩ := h
  exact ⟨h1, h2, rfl⟩

/-! ### The rails -/

/-- A rail that is turned off is off, and none comes on. -/
theorem State.rails_railsOff (ks : List Nat) : (s.railsOff ks).prc.raising = s.prc.raising ∧
    ∀ j, j ∈ (s.railsOff ks).prc.rails → j ∈ s.prc.rails ∧ j ∉ ks := by
  unfold State.railsOff
  induction ks generalizing s with
  | nil => exact ⟨rfl, fun j hj => ⟨hj, List.not_mem_nil⟩⟩
  | cons k ks ih =>
    obtain ⟨h1, h2⟩ := ih (s := s.railOff k)
    refine ⟨h1, fun j hj => ?_⟩
    obtain ⟨hin, hout⟩ := h2 j hj
    have hne : j ∈ s.prc.rails.filter (fun x => decide (x ≠ k)) := hin
    rw [List.mem_filter, decide_eq_true_eq] at hne
    exact ⟨hne.1, fun h => (List.mem_cons.mp h).elim hne.2 hout⟩

/-- A device fault is recorded, and leaves the boot and the Porch. -/
theorem State.dEvent_held (code detail : Nat) : (s.dEvent code detail).sec.boot = s.sec.boot ∧ (s.dEvent code detail).prc = s.prc ∧
    (s.dEvent code detail).evt.dfault = true ∧ (s.dEvent code detail).evt.warm = s.evt.warm := by
  unfold State.dEvent
  extract_lets u t x
  have hu : DevHeld s u := (DevHeld.refl s).devEvent _ _ _
  have ht : DevHeld s t := by
    simp only [t]
    split
    · exact hu.failLoad 10
    · exact hu
  clear_value t
  have hreset (w : State) : DevHeld w (w.each s.parts (fun u p => u.resetPart p prDEVICE false)) :=
    (DevHeld.refl w).each _ _ fun v p hv => hv.resetPart p _ _
  obtain ⟨h1, h2, -, h4⟩ := ht
  obtain ⟨e1, e2, e3, e4⟩ := hreset { t with evt := { t.evt with dfault := true } }
  exact ⟨e1.trans h1, e2.trans h2, e3, e4.trans h4⟩

/-- The first copy of the Porch's firmware that verifies starts. -/
theorem execPorchFirmwareLoaded_starts (puf : Bool) (hb : s.sec.boot = .rom) (ho : s.sec.owned = true)
    (h : s.fwOk 1 0 a = true ∨ s.fwOk 1 0 b = true) : ∃ t : State, exec (.porchFirmwareLoaded a b puf) s = .next (t.porchStarts puf) ∧
      t.sec.porchRb = some (leAt (if s.fwOk 1 0 a then a else b) 8 4) ∧ t.sec.bootCode = (if s.fwOk 1 0 a then 0 else 5) ∧
      only [.sec] s t := by
  obtain ⟨l, n, d, hstage⟩ := State.fwStage_ok h
  have hon : only [.sec] s (s.measured l n d) := only_sec _
  rw [exec, execPorchFirmwareLoaded, if_neg (by simp [hb, ho]), hstage]
  by_cases ha : s.fwOk 1 0 a = true
  · simp only [ha, if_true]
    exact ⟨_, rfl, rfl, rfl, hon.trans (only_sec _)⟩
  · simp only [ha]
    exact ⟨_, rfl, rfl, rfl, hon.trans (only_sec _)⟩

/-- The first copy of the hub's firmware that verifies starts. -/
theorem execHubFirmwareLoaded_starts (hw : s.awaitsHub = true) (h : s.fwOk 2 1 a = true ∨ s.fwOk 2 1 b = true) :
    ∃ t : State, exec (.hubFirmwareLoaded a b) s = .next t.hubStarts ∧ t.sec.hubRb = some (leAt (if s.fwOk 2 1 a then a else b) 8 4) ∧
      t.sec.hubHash = digestOf (fwSigned (if s.fwOk 2 1 a then a else b)) ∧
      t.sec.bootCode = (if s.fwOk 2 1 a then s.sec.bootCode else 5) ∧ t.sec.boot = s.sec.boot ∧ t.evt = s.evt := by
  obtain ⟨l, n, d, hstage⟩ := State.fwStage_ok h
  rw [exec, execHubFirmwareLoaded, if_neg (by simp [hw]), hstage]
  by_cases ha : s.fwOk 2 1 a = true
  · simp only [ha, if_true]
    exact ⟨_, rfl, rfl, rfl, rfl, rfl, rfl⟩
  · simp only [ha]
    exact ⟨_, rfl, rfl, rfl, rfl, rfl, rfl⟩

/-- The state as a rail that does not come up stops the boot. -/
def State.railStops (s : State) : State := { s with prc := { s.prc with raising := none }, sec := { s.sec with boot := .stopped } }

/-- A rail that does not come up in time stops the boot and is turned off. -/
theorem execRailSequenceTimeout_raising {k : Fin 10} (hk : s.prc.raising = some k.val) : ∃ t,
    exec (.railSequenceTimeout k) s = .next t ∧ t.sec.boot = .stopped ∧ t.prc.raising = none ∧ k.val ∉ t.prc.rails ∧
      t.evt.dfault = true := by
  have ht : exec (.railSequenceTimeout k) s = .next (State.dEvent (s.railStops.railsOff
      ([3, 2, 1, 0, 9, 8, 7, 6, 5, 4].filter (fun j => j = k.val || s.prc.rails.contains j))) 0x0B06 (railMonitor k.val)) := by
    rw [exec, execRailSequenceTimeout]
    simp only [hk, if_true]
    rfl
  have hmem : k.val ∈ [3, 2, 1, 0, 9, 8, 7, 6, 5, 4].filter (fun j => j = k.val || s.prc.rails.contains j) := by
    have hlt := k.isLt
    rw [List.mem_filter]
    refine ⟨?_, by simp⟩
    simp only [List.mem_cons, List.not_mem_nil, or_false]
    omega
  generalize [3, 2, 1, 0, 9, 8, 7, 6, 5, 4].filter (fun j => decide (j = k.val) || s.prc.rails.contains j) = ks at *
  obtain ⟨hraise, hrails⟩ := State.rails_railsOff (s := s.railStops) ks
  have hsec := ((only.refl [.outbox, .prc] s.railStops).railsOff (by simp) (by simp) ks .sec).resolve_left (by simp)
  change State.sec _ = _ at hsec
  generalize s.railStops.railsOff ks = w at *
  obtain ⟨e1, e2, e3, -⟩ := State.dEvent_held (s := w) 0x0B06 (railMonitor k.val)
  rw [hsec] at e1
  refine ⟨_, ht, e1, ?_, ?_, e3⟩
  · rw [e2, hraise]
    rfl
  · rw [e2]
    exact fun h => (hrails _ h).2 hmem

/-- Settles O50, by the stage of the boot. -/
theorem bootAndColdReset : Obligations.BootAndColdReset := by
  unfold Obligations.BootAndColdReset
  refine ⟨?_, ?_, ?_, ?_, ?_⟩
  · intro s cold
    have hcold (boot : Boot) : cold (s.coldBase boot) :=
      ⟨rfl, rfl, rfl, rfl, rfl, rfl, rfl, rfl, rfl, rfl, rfl, rfl, rfl, rfl, rfl, rfl, rfl, fun x => State.byte_coldBase boot x, rfl⟩
    exact ⟨fun mods => ⟨_, rfl, hcold .rom, rfl, rfl, rfl, rfl⟩, ⟨_, rfl, hcold .held, rfl, rfl, rfl⟩,
      ⟨_, rfl, hcold .held, rfl, rfl, rfl, rfl⟩⟩
  · intro a b puf s img hb ho
    refine ⟨fun h hp => ?_, fun h hp => ?_, fun ha hb' => ?_⟩
    · obtain ⟨t, he, h1, h2, -⟩ := execPorchFirmwareLoaded_starts puf hb ho h
      obtain ⟨p1, p2, p3, p4, p5⟩ := State.porchStarts_spec (s := t)
      subst hp
      exact ⟨_, he, p1, p2.trans h1, p3.trans h2, p4, p5⟩
    · obtain ⟨t, he, -, -, hon⟩ := execPorchFirmwareLoaded_starts puf hb ho h
      subst hp
      rw [show t.porchStarts false = t.bootStop 4 from if_pos rfl] at he
      exact ⟨t.bootStop 4, he, rfl, rfl, hon.trans (only_sec _)⟩
    · obtain ⟨t, hstage, hon⟩ := State.fwStage_none ha hb'
      refine ⟨t.bootStop 1, ?_, rfl, rfl, hon.trans (only_sec _)⟩
      rw [exec, execPorchFirmwareLoaded, if_neg (by simp [hb, ho]), hstage]
  · intro a b s img hw
    refine ⟨fun h => ?_, fun ha hb => ?_⟩
    · obtain ⟨t, he, h1, h2, h3, h4, h5⟩ := execHubFirmwareLoaded_starts hw h
      unfold State.hubStarts at he
      rw [h4, h5] at he
      by_cases hb : s.sec.boot = .hubfw
      · rw [if_pos hb] at he
        obtain ⟨b1, b2, b3, b4, b5⟩ := State.bootImage_spec (s := t)
        exact ⟨_, he, b1.trans h1, b2.trans h2, fun _ => ⟨b3, b5, b4.trans h3⟩, fun hn => absurd hb hn, fun hn => absurd hb hn⟩
      · rw [if_neg hb] at he
        by_cases hwarm : s.evt.warm.isSome = true
        · rw [if_pos hwarm] at he
          obtain ⟨w1, w2, w3, w4⟩ := State.warmStarts_spec (s := t)
          refine ⟨_, he, w1.trans h1, w2.trans h2, fun hh => absurd hh hb, fun _ _ => ⟨w4, w3⟩, fun _ hn => ?_⟩
          rw [hn] at hwarm
          cases hwarm
        · rw [if_neg hwarm] at he
          obtain ⟨w1, w2, w3⟩ := State.wakeStarts_spec (s := t)
          exact ⟨_, he, w1.trans h1, w2.trans h2, fun hh => absurd hh hb, fun _ hh => absurd hh hwarm, fun _ _ => w3⟩
    · obtain ⟨t, hstage, hon⟩ := State.fwStage_none ha hb
      refine ⟨t.bootStop 2, ?_, rfl, rfl, hon.trans (only_sec _)⟩
      rw [exec, execHubFirmwareLoaded, if_neg (by simp [hw]), hstage]
  · intro s hb
    exact ⟨_, by rw [exec, execSramZeroFillDone, if_pos hb], rfl, only_sec _⟩
  · intro k s hk
    have he : exec (.railInTolerance k) s =
        .next (State.railNext { s with prc := { s.prc with rails := insertAsc k.val s.prc.rails } } k.val) := by
      rw [exec, execRailInTolerance]
      simp only [hk, if_true]
    have hin : k.val ∈ insertAsc k.val s.prc.rails := (mem_insertAsc _ _ _).2 (.inl rfl)
    refine ⟨fun h3 h9 => ?_, fun h3 => ?_, ?_⟩
    · rw [State.railNext, if_neg h9, if_neg h3] at he
      have hon : only [.prc, .outbox] s (State.raise { s with prc := { s.prc with rails := insertAsc k.val s.prc.rails, raising := none } }
          (k.val + 1) (railMv (k.val + 1))) :=
        ((only.refl _ s).withPrc (by simp) _).raise (by simp) (by simp) _ _
      exact ⟨_, he, hin, rfl, rfl, hon⟩
    · rw [State.railNext, if_neg (by omega), if_pos h3] at he
      have hon := ((only.refl [.prc, .sec] s).withPrc (by simp) { s.prc with rails := insertAsc k.val s.prc.rails, raising := none }).setSec
        (by simp) { s.sec with boot := .zero }
      exact ⟨_, he, h3 ▸ hin, rfl, rfl, hon⟩
    · obtain ⟨w, ht, e1, e2, e3, e4⟩ := execRailSequenceTimeout_raising hk
      exact ⟨w, ht, e1, e2, e3, e4⟩

end Sys2Proof.Machine
end

section
set_option Elab.async false
/-! Quadrants and rails (R506 to R510, R563, R564). -/

namespace Sys2Proof.Machine
open Sys2Proof
variable {s t u : State} {q : Nat}

theorem only_prc (x : Prc) : only [.prc] s { s with prc := x } := (only.refl [.prc] s).withPrc (by simp) x

theorem State.quad_of_prc_eq (h : t.prc = s.prc) (k : Nat) : t.quad k = s.quad k := by
  rw [State.quad, h, State.quad]

/-- A core's image is held in registers alone. -/
theorem State.only_writeCoreImg (g : Cfg) (c : Nat) : only [.regs] s (s.writeCoreImg g c) := by
  unfold State.writeCoreImg
  extract_lets r w v t1 t2
  have h1 : only [.regs] s t1 := (only.refl _ s).setRg (by simp) _ _ _ _ _
  have h2 : only [.regs] s t2 := (h1.setRg (by simp) _ _ _ _ _).setRg (by simp) _ _ _ _ _
  exact ((h2.setRg (by simp) _ _ _ _ _).setRg (by simp) _ _ _ _ _).setRg (by simp) _ _ _ _ _

/-- A quadrant that is powered off loses its cores' memories, and its rail is off. -/
theorem State.quadOff_spec (q : Nat) : (s.quadOff q).quad q = .off ∧ q ∉ (s.quadOff q).prc.rails ∧
    (∀ c ∈ quadCores q, ∀ o, o < 0x80000 → (s.quadOff q).byte (spadBase c + o) = 0) ∧ ∀ k, k ≠ q → (s.quadOff q).quad k = s.quad k := by
  have hzero : ∀ c ∈ quadCores q, ∀ o, o < 0x80000 → (s.each (quadCores q) (fun t c => t.wipeCore c)).byte (spadBase c + o) = 0 :=
    fun c hc o ho => State.byte_wiped _ _ (.inr ⟨c, hc, by omega, by omega⟩)
  have hw : only [.regs, .latches, .mem, .cores, .sdt, .tch] s (s.each (quadCores q) (fun t c => t.wipeCore c)) :=
    (only.refl _ s).each _ _ fun t c ht => ht.wipeCore (by simp) (by simp) (by simp) (by simp) (by simp) (by simp) c
  have hprc := (hw .prc).resolve_left (by simp)
  change State.prc _ = _ at hprc
  unfold State.quadOff
  extract_lets owners t
  have ht : t.quad q = .off ∧ q ∉ t.prc.rails ∧ (∀ c ∈ quadCores q, ∀ o, o < 0x80000 → t.byte (spadBase c + o) = 0) ∧
      ∀ k, k ≠ q → t.quad k = s.quad k := by
    simp only [t]
    generalize s.each (quadCores q) (fun t c => t.wipeCore c) = w at *
    refine ⟨State.quad_setQuad_self w q .off, fun h => ?_, hzero, fun k hk => ?_⟩
    · have hin : q ∈ w.prc.rails.filter (fun j => decide (j ≠ q)) := h
      rw [List.mem_filter, decide_eq_true_eq] at hin
      exact hin.2 rfl
    · have hq : ((w.setQuad q .off).railOff q).quad k = w.quad k := State.quad_setQuad_ne w .off hk
      exact hq.trans (State.quad_of_prc_eq hprc k)
  clear_value t
  have hlog (l : List Nat) : only [.regs, .ses, .evt] t
      (t.each l (fun u n => u.log { code := 0x0B01, cls := 0, part := some (u.sess n).part, session := some n, detail := q })) :=
    (only.refl _ t).each _ _ fun u n hu => hu.log (by simp) (by simp) (by simp) _
  have hl := hlog owners
  generalize State.each t owners _ = v at *
  have hvprc := (hl .prc).resolve_left (by simp)
  obtain ⟨h1, h2, h3, h4⟩ := ht
  refine ⟨(State.quad_of_prc_eq hvprc q).trans h1, hvprc ▸ h2, fun c hc o ho => ?_, fun k hk => (State.quad_of_prc_eq hvprc k).trans (h4 k hk)⟩
  rw [State.byte_of_mem_eq (State.mem_of_only hl (by simp))]
  exact h3 c hc o ho

/-- A setpoint that is set is read. -/
theorem State.setpoint_set {v : Nat} (hv : v ≠ 0) (a : Sparse Nat) :
    ({ s with prc := { s.prc with sets := Sparse.put 0 s.prc.sets q v, avsAt := a } } : State).setpoint q = v := by
  have hget : Sparse.get 0 (Sparse.put 0 s.prc.sets q v) q = v := Sparse.get_put_self 0 s.prc.sets q v
  rw [State.setpoint]
  dsimp only
  rw [hget, if_neg hv]

/-- A setpoint whose rail is on and that is not held moves toward its target. -/
theorem execAvsUpdate_moves {q : QuadId} {mv new : Nat} (hr : s.prc.rails.contains q.val = true)
    (ha : s.prc.avsAt.find? (fun x => decide (x.1 = q.val)) = none) (h0 : new ≠ 0) (hne : new ≠ s.setpoint q.val)
    (hnew : (if s.setpoint q.val < max 550 (min 800 mv) / 5 * 5 then min (max 550 (min 800 mv) / 5 * 5) (s.setpoint q.val + 10)
      else max (max 550 (min 800 mv) / 5 * 5) (s.setpoint q.val - 10)) = new) :
    ∃ t, exec (.avsUpdate q mv) s = .next t ∧ t.setpoint q.val = new ∧ only [.prc, .outbox] s t := by
  refine ⟨({ s with prc := { s.prc with sets := Sparse.put 0 s.prc.sets q.val new, avsAt := Sparse.ins q.val s.prc.time s.prc.avsAt } } :
    State).send (.pmbus q.val true new), ?_, State.setpoint_set h0 _, ((only_prc _).mono (by simp)).send (by simp) _⟩
  rw [exec, execAvsUpdate]
  simp only [hr, ha, hnew]
  rw [if_pos (by simpa using hne)]

/-- An alert of rails that are on is a device fault. -/
theorem State.dfault_alerts {l : List Nat} (hl : l ≠ []) :
    (s.each l (fun t k => t.dEvent 0x0B06 (railMonitor k))).evt.dfault = true := by
  cases l with
  | nil => exact absurd rfl hl
  | cons k ks =>
    exact State.each_inv (s.dEvent 0x0B06 (railMonitor k)) (fun t => t.evt.dfault = true) ks _
      (fun t j _ => (State.dEvent_held 0x0B06 (railMonitor j)).2.2.1) (State.dEvent_held 0x0B06 (railMonitor k)).2.2.1

/-- Settles O51, by the state of the quadrant and of its rail. -/
theorem quadrantsAndRails : Obligations.QuadrantsAndRails := by
  unfold Obligations.QuadrantsAndRails
  refine ⟨?_, ?_, ?_, ?_, ?_, ?_⟩
  · intro q s hon hw hidle hd
    refine ⟨s.setQuad q.val .gated, ?_, State.quad_setQuad_self .., fun k hk => State.quad_setQuad_ne _ _ hk, only_prc _⟩
    rw [exec, execQuadGate, if_pos (by simp [hon, hw, hidle, hd])]
  · intro q s hg
    refine ⟨s.setQuad q.val .on, ?_, State.quad_setQuad_self .., fun k hk => State.quad_setQuad_ne _ _ hk, only_prc _⟩
    rw [exec, execQuadUngate, if_pos hg]
  · intro r q s hr
    have hoff (both : Bool) : exec (.qoff r q both) s = .next (s.qoffAct r q.val both) := by
      rw [exec, execQoff, State.atReg_may _ _ _ _ _ _ hr]
    have hon (both : Bool) : exec (.qon r q both) s = .next (s.qonAct r q.val both) := by
      rw [exec, execQon, State.atReg_may _ _ _ _ _ _ hr]
    refine ⟨fun hmay => ?_, hoff true, fun hq hd ht => ?_, hon true⟩
    · have hne : s.quad q.val ≠ .off := by
        intro h
        rw [State.mayOff, h] at hmay
        cases hmay
      have he := hoff false
      rw [State.qoffAct, if_neg (by decide), if_neg hne, if_pos hmay] at he
      exact ⟨_, he, State.quadOff_spec q.val⟩
    · have he := hon false
      rw [State.qonAct, if_neg (by decide), if_pos (by simp [hq, hd, ht])] at he
      exact ⟨_, he, State.quad_setQuad_self s q.val .powering, rfl, ((only_prc _).mono (by simp)).railOn (by simp) (by simp) _ _⟩
  · intro q s hq hr
    have he : exec (.quadPowerOnDone q) s = .next (((s.each (quadCores q.val) (fun t c => (t.wipeCore c).writeCoreImg t.retained c)).setQuad
        q.val .on).devEvent 0x0B02 0 q.val) := by
      rw [exec, execQuadPowerOnDone, if_pos (by simp [hq] at hr ⊢; exact hr)]
    have hw : only [.regs, .latches, .mem, .cores, .sdt, .tch] s
        (s.each (quadCores q.val) (fun t c => (t.wipeCore c).writeCoreImg t.retained c)) :=
      (only.refl _ s).each _ _ fun t c ht =>
        (ht.wipeCore (by simp) (by simp) (by simp) (by simp) (by simp) (by simp) c).trans ((State.only_writeCoreImg _ c).mono (by simp))
    generalize s.each (quadCores q.val) (fun t c => (t.wipeCore c).writeCoreImg t.retained c) = w at *
    have hprc := (hw .prc).resolve_left (by simp)
    have hevt := (hw .evt).resolve_left (by simp)
    have hdev : ((w.setQuad q.val .on).devEvent 0x0B02 0 q.val).prc = (w.setQuad q.val .on).prc := State.log_prc ..
    refine ⟨_, he, ?_, fun k hk => ?_, ?_⟩
    · exact (State.quad_of_prc_eq hdev _).trans (State.quad_setQuad_self ..)
    · exact ((State.quad_of_prc_eq hdev k).trans (State.quad_setQuad_ne w _ hk)).trans (State.quad_of_prc_eq hprc k)
    · obtain ⟨hcnt, hat⟩ := logged_log (w.setQuad q.val .on) { code := 0x0B02, cls := 0, detail := q.val }
      have hwevt : (w.setQuad q.val .on).evt = s.evt := hevt
      have htime : w.prc.time = s.prc.time := congrArg Prc.time (show w.prc = s.prc from hprc)
      replace htime : (w.setQuad q.val .on).prc.time = s.prc.time := htime
      rw [hwevt] at hcnt hat
      rw [htime] at hat
      exact ⟨hcnt, hat⟩
  · intro q mv s tout hr ha
    refine ⟨fun hlt => ?_, fun hgt => ?_⟩
    · exact execAvsUpdate_moves hr ha (by omega) (by omega) (if_pos hlt)
    · exact execAvsUpdate_moves hr ha (by omega) (by omega) (if_neg (by omega))
  · intro pclk k s hp hk
    refine ⟨_, by rw [exec, execPmbusAlert, if_neg (by omega)], State.dfault_alerts fun hnil => ?_⟩
    have hmem : k.val ∈ (upTo 10).filter (fun j => [k].any (fun x => decide (x.val = j)) && s.prc.rails.contains j) := by
      rw [List.mem_filter]
      exact ⟨List.mem_range.mpr k.isLt, by simpa using hk⟩
    rw [hnil] at hmem
    cases hmem

end Sys2Proof.Machine
end

section
set_option Elab.async false
/-! What shared operations leave unchanged. -/

namespace Sys2Proof
open Sys2Proof.Machine
variable {ps : List Part} {s₀ s t u : State} {c cc : Nat}

theorem only.groupEvent (hk : only ps s₀ s) (m1 : Part.regs ∈ ps) (m2 : Part.ses ∈ ps) (m3 : Part.evt ∈ ps)
    (g code cls detail tile : Nat) : only ps s₀ (s.groupEvent g code cls detail tile) := by
  unfold State.groupEvent
  grind [only.fields, only.log]

theorem only.endRounds (hk : only ps s₀ s) (m1 : Part.regs ∈ ps) (m2 : Part.mem ∈ ps) (m3 : Part.cores ∈ ps)
    (m4 : Part.sdt ∈ ps) (m5 : Part.tch ∈ ps) (m6 : Part.ses ∈ ps) (m7 : Part.evt ∈ ps) (g cause : Nat) (doubt : Bool)
      : only ps s₀ (s.endRounds g cause doubt) := by
  unfold State.endRounds
  grind [only.fields, only.endTile, only.groupEvent, only.modGroup, only.foldl]

theorem only.sendAbort (hk : only ps s₀ s) (m1 : Part.outbox ∈ ps) (m2 : Part.tch ∈ ps) (m3 : Part.mtr ∈ ps)
    (g cause : Nat) : only ps s₀ (s.sendAbort g cause) := by
  unfold State.sendAbort
  grind [only.fields, only.toKids, only.toParent]

theorem only.abortGroup (hk : only ps s₀ s) (m1 : Part.outbox ∈ ps) (m2 : Part.regs ∈ ps) (m3 : Part.mem ∈ ps)
    (m4 : Part.cores ∈ ps) (m5 : Part.sdt ∈ ps) (m6 : Part.tch ∈ ps) (m7 : Part.ses ∈ ps) (m8 : Part.mtr ∈ ps)
      (m9 : Part.evt ∈ ps) (g cause : Nat) (doubt : Bool) : only ps s₀ (s.abortGroup g cause doubt) := by
  unfold State.abortGroup
  grind [only.fields, only.sendAbort, only.endRounds]

theorem only.linkGroup (hk : only ps s₀ s) (m1 : Part.outbox ∈ ps) (m2 : Part.regs ∈ ps) (m3 : Part.mem ∈ ps)
    (m4 : Part.cores ∈ ps) (m5 : Part.sdt ∈ ps) (m6 : Part.tch ∈ ps) (m7 : Part.ses ∈ ps) (m8 : Part.mtr ∈ ps)
      (m9 : Part.evt ∈ ps) (g p : Nat) : only ps s₀ (s.linkGroup g p) := by
  unfold State.linkGroup
  grind [only.fields, only.abortGroup]

theorem only.portDown (hk : only ps s₀ s) (m1 : Part.outbox ∈ ps) (m2 : Part.regs ∈ ps) (m3 : Part.mem ∈ ps)
    (m4 : Part.cores ∈ ps) (m5 : Part.sdt ∈ ps) (m6 : Part.tch ∈ ps) (m7 : Part.ses ∈ ps) (m8 : Part.mtr ∈ ps)
      (m9 : Part.evt ∈ ps) (p err : Nat) (tout : PortSt) : only ps s₀ (s.portDown p err tout) := by
  unfold State.portDown
  grind [only.fields, only.modPort, only.count, only.log, only.each, only.linkGroup]

theorem only.portTrain (hk : only ps s₀ s) (m1 : Part.outbox ∈ ps) (m2 : Part.regs ∈ ps) (m3 : Part.mem ∈ ps)
    (m4 : Part.cores ∈ ps) (m5 : Part.sdt ∈ ps) (m6 : Part.tch ∈ ps) (m7 : Part.ses ∈ ps) (m8 : Part.mtr ∈ ps)
      (m9 : Part.evt ∈ ps) (p : Nat) : only ps s₀ (s.portTrain p) := by
  unfold State.portTrain
  grind [only.fields, only.portDown, only.modPort]

theorem only.writeEth (hk : only ps s₀ s) (m1 : Part.eth ∈ ps) (g : Cfg) : only ps s₀ (s.writeEth g) := by
  unfold State.writeEth
  grind [only.fields, only.each, only.modEth]

theorem only.ethDown (hk : only ps s₀ s) (m1 : Part.eth ∈ ps) : only ps s₀ (s.ethDown) := by
  unfold State.ethDown
  grind [only.fields, only.each, only.modEth]

theorem only.resetHubRegs (hk : only ps s₀ s) (m1 : Part.regs ∈ ps) (m2 : Part.latches ∈ ps) : only ps s₀ (s.resetHubRegs) := by
  unfold State.resetHubRegs
  grind [only.fields]

theorem only.endHubWork (hk : only ps s₀ s) (m1 : Part.pnt ∈ ps) (m2 : Part.clr ∈ ps) (m3 : Part.tch ∈ ps)
    (m4 : Part.ses ∈ ps) (m5 : Part.sec ∈ ps) (m6 : Part.trl ∈ ps) : only ps s₀ (s.endHubWork) := by
  unfold State.endHubWork
  grind [only.fields]

theorem only.startPorts (hk : only ps s₀ s) (m1 : Part.outbox ∈ ps) (m2 : Part.regs ∈ ps) (m3 : Part.mem ∈ ps)
    (m4 : Part.cores ∈ ps) (m5 : Part.sdt ∈ ps) (m6 : Part.tch ∈ ps) (m7 : Part.eth ∈ ps) (m8 : Part.ses ∈ ps)
      (m9 : Part.mtr ∈ ps) (m10 : Part.evt ∈ ps) : only ps s₀ (s.startPorts) := by
  unfold State.startPorts
  grind [only.fields, only.each, only.portTrain, only.writeEth]

end Sys2Proof
end

section
set_option Elab.async false
/-! D3 (R511, R512). -/

namespace Sys2Proof.Machine
open Sys2Proof
variable {s t u : State}

theorem State.wakeSeen_rails (ks : List Nat) : (s.railsOff ks).keeper.prc.wakeSeen = s.prc.wakeSeen := by
  have hoff : (s.railsOff ks).prc.wakeSeen = s.prc.wakeSeen :=
    State.each_inv s (fun t => t.prc.wakeSeen = s.prc.wakeSeen) ks _ (fun t k ht => by exact ht) rfl
  generalize s.railsOff ks = t at *
  unfold State.keeper
  split
  · exact hoff
  · exact hoff

theorem State.loseHub_spec : s.loseHub.sdt = {} ∧ s.loseHub.prc.wakeSeen = s.prc.wakeSeen ∧ s.loseHub.cfg = s.cfg ∧
    s.loseHub.retained = s.retained := by
  unfold State.loseHub
  extract_lets t u
  have hu : only [.regs, .latches, .pnt, .clr, .tch, .eth, .ses, .sec, .trl] s u :=
    ((((only.refl _ s).endHubWork (by simp) (by simp) (by simp) (by simp) (by simp) (by simp)).resetHubRegs (by simp) (by simp)).ethDown
      (by simp)).each _ _ fun v p hv => hv.modPort (by simp) _ _
  have hprc : u.prc = s.prc := (hu .prc).resolve_left (by simp)
  have hcfg : u.cfg = s.cfg := (hu .cfg).resolve_left (by simp)
  have hret : u.retained = s.retained := (hu .retained).resolve_left (by simp)
  have hseen := congrArg Prc.wakeSeen hprc
  clear_value u
  exact ⟨rfl, hseen, hcfg, hret⟩

theorem Prc.inD3_spec (p : Prc) (sel : Nat) : (p.inD3 sel).d3 = .asleep ∧ (p.inD3 sel).wakeSeen = p.wakeSeen := by
  unfold Prc.inD3
  split <;> exact ⟨rfl, rfl⟩

/-- Entry into D3 loses the Seed Tray and keeps the configuration; what has woken the device stays noted. -/
theorem State.enterD3_spec : s.enterD3.prc.d3 = .asleep ∧ s.enterD3.prc.wakeSeen = s.prc.wakeSeen ∧ s.enterD3.clr.sref = true ∧
    s.enterD3.sdt = {} ∧ s.enterD3.cfg = s.cfg ∧ s.enterD3.retained = s.retained := by
  have hdown : only [.outbox, .regs, .mem, .cores, .sdt, .tch, .ses, .mtr, .evt] s (s.each (upTo 6) (fun t p => t.portDown p 0 .down)) :=
    (only.refl _ s).each _ _ fun t p ht =>
      ht.portDown (by simp) (by simp) (by simp) (by simp) (by simp) (by simp) (by simp) (by simp) (by simp) _ _ _
  unfold State.enterD3
  generalize s.each (upTo 6) (fun t p => t.portDown p 0 .down) = w at *
  extract_lets t1 t2 t3
  have h1 : only [.sec] w (w.attest attD3 none) := (only.refl _ w).attest (by simp) _ _
  have hprc := (h1 .prc).resolve_left (by simp)
  have h2 : only [.outbox, .prc, .sec] w t2 := ((h1.mono (by simp)).railsOff (by simp) (by simp) _).keeper (by simp) (by simp)
  have hw2 : t2.prc.wakeSeen = s.prc.wakeSeen := by
    have hrails : t2.prc.wakeSeen = (w.attest attD3 none).prc.wakeSeen := State.wakeSeen_rails _
    have hwprc : w.prc = s.prc := (hdown .prc).resolve_left (by simp)
    rw [hrails, show (w.attest attD3 none).prc = w.prc from hprc, hwprc]
  clear_value t2
  have hlose : t3.sdt = {} ∧ t3.prc.wakeSeen = t2.prc.wakeSeen ∧ t3.cfg = t2.cfg ∧ t3.retained = t2.retained := State.loseHub_spec
  clear_value t3
  obtain ⟨l1, l2, l3, l4⟩ := hlose
  have hcfg : t2.cfg = s.cfg := ((h2 .cfg).resolve_left (by simp)).trans ((hdown .cfg).resolve_left (by simp))
  have hret : t2.retained = s.retained := ((h2 .retained).resolve_left (by simp)).trans ((hdown .retained).resolve_left (by simp))
  obtain ⟨p1, p2⟩ := t3.prc.inD3_spec (s.rf .ethPtpsel 0 0 0 3)
  exact ⟨p1, p2.trans (l2.trans hw2), rfl, l1, l3.trans hcfg, l4.trans hret⟩

/-- The state as the wake ends. -/
def State.awake (s : State) : State := { s with prc := { s.prc with d3 := .none } }

/-- Settles O52, by the state of the device. -/
theorem sleepAndWake : Obligations.SleepAndWake := by
  unfold Obligations.SleepAndWake
  refine ⟨?_, ?_, ?_, ?_⟩
  · intro r s hr hmay
    have he : exec (.d3Request r) s = .next (s.d3Act r) := by rw [exec, execD3Request, State.atReg_may _ _ _ _ _ _ hr]
    rw [State.d3Act, if_pos hmay] at he
    exact ⟨_, he, rfl, rfl, rfl, only_prc _⟩
  · intro s hd hops hseen
    obtain ⟨h1, h2, h3, h4, h5, h6⟩ := State.enterD3_spec (s := s)
    have he : exec .d3EntryDone s = .next s.enterD3 := by
      rw [exec, execD3EntryDone, if_pos (by simp [hd, hops])]
      simp only [h2, hseen, if_true]
    exact ⟨_, he, h1, h3, h4, h5, h6⟩
  · intro f pclk s hd ht woken
    have hwake (en code : Nat) (hen : (s.rg .prcWakecfg).toNat.testBit en = true) : s.wake en code = s.beginWake code := by
      rw [State.wake, if_neg (by simp [hen, ht]), hd]
    have hwoken (code : Nat) : woken code (s.beginWake code) :=
      ⟨rfl, rfl, rfl, rfl, (only.refl _ s).beginWake (by simp) (by simp) _⟩
    refine ⟨fun h0 hf => ?_, fun h1 hp => ?_, fun h2 htime => ?_⟩
    · exact ⟨_, by rw [exec, execWakeMgmtFrame, hf, if_neg (by decide), hwake 0 1 h0], hwoken 1⟩
    · exact ⟨_, by rw [exec, execWakePin, if_pos hp, hwake 1 2 h1], hwoken 2⟩
    · exact ⟨_, by rw [exec, execWakeTimer, if_pos htime, hwake 2 3 h2], hwoken 3⟩
  · intro s hd hs
    have he : exec .d3WakeDone s = .next (s.awake.devEvent 0x0B03 0 s.prc.last).startPorts := by
      rw [exec, execD3WakeDone, if_pos (by simp [hd, hs])]
      rfl
    have hon : only [.outbox, .regs, .mem, .cores, .sdt, .tch, .eth, .ses, .mtr, .evt] s.awake
        (s.awake.devEvent 0x0B03 0 s.prc.last).startPorts :=
      ((only.refl _ s.awake).devEvent (by simp) (by simp) (by simp) _ _ _).startPorts (by simp) (by simp) (by simp) (by simp) (by simp)
        (by simp) (by simp) (by simp) (by simp) (by simp)
    have hprc := (hon .prc).resolve_left (by simp)
    change State.prc _ = _ at hprc
    refine ⟨_, he, ?_, ?_⟩
    · rw [hprc]
      rfl
    · rw [hprc]
      rfl

end Sys2Proof.Machine
end

section
set_option Elab.async false
/-! What the work that a sample brings leaves of the Porch. -/

namespace Sys2Proof.Machine
open Sys2Proof
variable {s₀ s t u : State}

/-- The sample's count, the trip and the filtered temperatures stay. -/
def PorchHeld (s t : State) : Prop :=
  t.prc.periods = s.prc.periods ∧ t.prc.tripped = s.prc.tripped ∧ t.prc.temp = s.prc.temp

theorem PorchHeld.refl (s : State) : PorchHeld s s := ⟨rfl, rfl, rfl⟩

theorem PorchHeld.of_eq (hk : PorchHeld s₀ s) (e1 : t.prc = s.prc) : PorchHeld s₀ t := by
  rwa [PorchHeld, e1]

theorem PorchHeld.fields (hk : PorchHeld s₀ s) {a1 a2 a3 a4 a5 a6 a7 a8 a9 a10 a11 a12 a13 a14 a15 a16 a17 a18 a19 a20 a21}
    (e : a19.periods = s.prc.periods ∧ a19.tripped = s.prc.tripped ∧ a19.temp = s.prc.temp) :
    PorchHeld s₀ (State.mk a1 a2 a3 a4 a5 a6 a7 a8 a9 a10 a11 a12 a13 a14 a15 a16 a17 a18 a19 a20 a21) := by
  unfold PorchHeld at *
  simp only [e]
  exact hk

theorem PorchHeld.others (hk : PorchHeld s₀ s) {a1 a2 a3 a4 a5 a6 a7 a8 a9 a10 a11 a12 a13 a14 a15 a16 a17 a18 a20 a21} :
    PorchHeld s₀ (State.mk a1 a2 a3 a4 a5 a6 a7 a8 a9 a10 a11 a12 a13 a14 a15 a16 a17 a18 s.prc a20 a21) := hk.of_eq rfl

theorem PorchHeld.each {α : Type} (hk : PorchHeld s₀ s) (l : List α) (f : State → α → State)
    (hf : ∀ t x, PorchHeld s₀ t → PorchHeld s₀ (f t x)) : PorchHeld s₀ (s.each l f) := State.each_inv s (PorchHeld s₀) l f hf hk

theorem PorchHeld.log (hk : PorchHeld s₀ s) (e : Event) : PorchHeld s₀ (s.log e) := by
  unfold PorchHeld at *
  rw [State.log_prc]
  exact hk

theorem PorchHeld.setBytes (hk : PorchHeld s₀ s) (a : Nat) (bs : List Byte) : PorchHeld s₀ (s.setBytes a bs) := by
  unfold PorchHeld at *
  rw [State.setBytes_prc]
  exact hk

theorem PorchHeld.setRg (hk : PorchHeld s₀ s) (n : RegName) (c i j : Nat) (v : W32) : PorchHeld s₀ (s.setRg n c i j v) := by
  unfold State.setRg
  grind [PorchHeld.fields, PorchHeld.others]

theorem PorchHeld.setRgHi (hk : PorchHeld s₀ s) (n : RegName) (c i j : Nat) (v : W32) : PorchHeld s₀ (s.setRgHi n c i j v) := by
  unfold State.setRgHi
  grind [PorchHeld.fields, PorchHeld.others]

theorem PorchHeld.setRg64 (hk : PorchHeld s₀ s) (n : RegName) (c i j v : Nat) : PorchHeld s₀ (s.setRg64 n c i j v) := by
  unfold State.setRg64
  grind [PorchHeld.fields, PorchHeld.others, PorchHeld.setRg, PorchHeld.setRgHi]

theorem PorchHeld.setCore (hk : PorchHeld s₀ s) (c : Nat) (x : Core) : PorchHeld s₀ (s.setCore c x) := by
  unfold State.setCore
  grind [PorchHeld.fields, PorchHeld.others]

theorem PorchHeld.modCore (hk : PorchHeld s₀ s) (c : Nat) (f : Core → Core) : PorchHeld s₀ (s.modCore c f) := by
  unfold State.modCore
  grind [PorchHeld.fields, PorchHeld.others, PorchHeld.setCore]

theorem PorchHeld.modTile (hk : PorchHeld s₀ s) (c h : Nat) (f : Tile → Tile) : PorchHeld s₀ (s.modTile c h f) := by
  unfold State.modTile
  grind [PorchHeld.fields, PorchHeld.others, PorchHeld.modCore]

theorem PorchHeld.modSeq (hk : PorchHeld s₀ s) (c : Nat) (f : Seq → Seq) : PorchHeld s₀ (s.modSeq c f) := by
  unfold State.modSeq
  grind [PorchHeld.fields, PorchHeld.others, PorchHeld.modCore]

theorem PorchHeld.modArr (hk : PorchHeld s₀ s) (c : Nat) (f : Arr → Arr) : PorchHeld s₀ (s.modArr c f) := by
  unfold State.modArr
  grind [PorchHeld.fields, PorchHeld.others, PorchHeld.modCore]

theorem PorchHeld.modChan (hk : PorchHeld s₀ s) (c ch : Nat) (f : Chan → Chan) : PorchHeld s₀ (s.modChan c ch f) := by
  unfold State.modChan
  grind [PorchHeld.fields, PorchHeld.others, PorchHeld.modCore]

theorem PorchHeld.setSlot (hk : PorchHeld s₀ s) (c n : Nat) (x : Slot) : PorchHeld s₀ (s.setSlot c n x) := by
  unfold State.setSlot
  grind [PorchHeld.fields, PorchHeld.others, PorchHeld.modCore]

theorem PorchHeld.modDisp (hk : PorchHeld s₀ s) (d : Nat) (f : Disp → Disp) : PorchHeld s₀ (s.modDisp d f) := by
  unfold State.modDisp
  grind [PorchHeld.fields, PorchHeld.others]

theorem PorchHeld.modSess (hk : PorchHeld s₀ s) (n : Nat) (f : Session → Session) : PorchHeld s₀ (s.modSess n f) := by
  unfold State.modSess
  grind [PorchHeld.fields, PorchHeld.others]

theorem PorchHeld.act (hk : PorchHeld s₀ s) (c j n : Nat) : PorchHeld s₀ (s.act c j n) := by
  unfold State.act
  grind [PorchHeld.fields, PorchHeld.others, PorchHeld.modCore]

theorem PorchHeld.mesh (hk : PorchHeld s₀ s) (c : Nat) (d : Option Nat) (n : Nat) : PorchHeld s₀ (s.mesh c d n) := by
  unfold State.mesh
  grind [PorchHeld.fields, PorchHeld.others, PorchHeld.act]

theorem PorchHeld.coreEvent (hk : PorchHeld s₀ s) (c code cls detail : Nat) : PorchHeld s₀ (s.coreEvent c code cls detail) := by
  unfold State.coreEvent
  grind [PorchHeld.fields, PorchHeld.others, PorchHeld.log]

theorem PorchHeld.devEvent (hk : PorchHeld s₀ s) (code cls detail : Nat) : PorchHeld s₀ (s.devEvent code cls detail) := by
  unfold State.devEvent
  grind [PorchHeld.fields, PorchHeld.others, PorchHeld.log]

theorem PorchHeld.setSpad (hk : PorchHeld s₀ s) (c off : Nat) (bs : List Byte) : PorchHeld s₀ (s.setSpad c off bs) := by
  unfold State.setSpad
  grind [PorchHeld.fields, PorchHeld.others, PorchHeld.setBytes]

theorem PorchHeld.spdErr (hk : PorchHeld s₀ s) (c kind num : Nat) (nowin : Bool := false)
    : PorchHeld s₀ (s.spdErr c kind num nowin) := by
  unfold State.spdErr
  grind [PorchHeld.fields, PorchHeld.others, PorchHeld.setRg]

theorem PorchHeld.slotTouch (hk : PorchHeld s₀ s) (c off len : Nat) (wr : Bool) : PorchHeld s₀ (s.slotTouch c off len wr) := by
  unfold State.slotTouch
  grind [PorchHeld.fields, PorchHeld.others, PorchHeld.each, PorchHeld.setSlot]

theorem PorchHeld.slotClass (hk : PorchHeld s₀ s) (c n : Nat) (r : Option Req) (wr : Bool) (cls : Nat)
    : PorchHeld s₀ (s.slotClass c n r wr cls) := by
  unfold State.slotClass
  grind [PorchHeld.fields, PorchHeld.others, PorchHeld.spdErr, PorchHeld.log, PorchHeld.coreEvent]

theorem PorchHeld.wordAct (hk : PorchHeld s₀ s) (c off len : Nat) : PorchHeld s₀ (s.wordAct c off len) := by
  unfold State.wordAct
  grind [PorchHeld.fields, PorchHeld.others, PorchHeld.act]

theorem PorchHeld.ringHook (hk : PorchHeld s₀ s) (c off : Nat) (bs : List Byte) : PorchHeld s₀ (s.ringHook c off bs) := by
  unfold State.ringHook
  grind [PorchHeld.fields, PorchHeld.others, PorchHeld.modSeq]

theorem PorchHeld.store (hk : PorchHeld s₀ s) (c off : Nat) (bs : List Byte) : PorchHeld s₀ (s.store c off bs) := by
  unfold State.store
  grind [PorchHeld.fields, PorchHeld.others, PorchHeld.setSpad, PorchHeld.ringHook, PorchHeld.wordAct]

theorem PorchHeld.spadWrite (hk : PorchHeld s₀ s) (c off : Nat) (bs : List Byte) (cls : Nat)
    : PorchHeld s₀ (s.spadWrite c off bs cls).2 := by
  unfold State.spadWrite
  grind [PorchHeld.fields, PorchHeld.others, PorchHeld.slotClass, PorchHeld.slotTouch, PorchHeld.store]

theorem PorchHeld.writeRd (hk : PorchHeld s₀ s) (c : Nat) : PorchHeld s₀ (s.writeRd c) := by
  unfold State.writeRd
  grind [PorchHeld.fields, PorchHeld.others, PorchHeld.setSpad]

theorem PorchHeld.setRd (hk : PorchHeld s₀ s) (c i : Nat) : PorchHeld s₀ (s.setRd c i) := by
  unfold State.setRd
  grind [PorchHeld.fields, PorchHeld.others, PorchHeld.modSeq, PorchHeld.writeRd]

theorem PorchHeld.seqDoneAt (hk : PorchHeld s₀ s) (c i : Nat) : PorchHeld s₀ (s.seqDoneAt c i) := by
  unfold State.seqDoneAt
  grind [PorchHeld.fields, PorchHeld.others, PorchHeld.setRd, PorchHeld.modSeq]

theorem PorchHeld.seqDone (hk : PorchHeld s₀ s) (c : Nat) : PorchHeld s₀ (s.seqDone c) := by
  unfold State.seqDone
  grind [PorchHeld.fields, PorchHeld.others, PorchHeld.seqDoneAt]

theorem PorchHeld.setScalar (hk : PorchHeld s₀ s) (c n v : Nat) : PorchHeld s₀ (s.setScalar c n v) := by
  unfold State.setScalar
  grind [PorchHeld.fields, PorchHeld.others, PorchHeld.setRg64]

theorem PorchHeld.settle (hk : PorchHeld s₀ s) (d : Nat) : PorchHeld s₀ (s.settle d) := by
  unfold State.settle
  grind [PorchHeld.fields, PorchHeld.others, PorchHeld.modDisp]

theorem PorchHeld.answerClaim (hk : PorchHeld s₀ s) (c h : Nat) (r : CRec) : PorchHeld s₀ (s.answerClaim c h r) := by
  unfold State.answerClaim
  grind [PorchHeld.fields, PorchHeld.others, PorchHeld.spadWrite, PorchHeld.setScalar, PorchHeld.modCore, PorchHeld.modTile, PorchHeld.seqDone]

theorem PorchHeld.unstall (hk : PorchHeld s₀ s) (c : Nat) (p : StallBy → Bool) : PorchHeld s₀ (s.unstall c p) := by
  unfold State.unstall
  grind [PorchHeld.fields, PorchHeld.others, PorchHeld.modCore]

theorem PorchHeld.fetchStart (hk : PorchHeld s₀ s) (c ch h : Nat) (weight : Bool)
    : PorchHeld s₀ (s.fetchStart c ch h weight) := by
  unfold State.fetchStart
  grind [PorchHeld.fields, PorchHeld.others, PorchHeld.modChan]

theorem PorchHeld.spendOn (hk : PorchHeld s₀ s) (c e : Nat) : PorchHeld s₀ (s.spendOn c e) := by
  unfold State.spendOn
  grind [PorchHeld.fields, PorchHeld.others, PorchHeld.modSess]

theorem PorchHeld.arrKick (hk : PorchHeld s₀ s) (c : Nat) : PorchHeld s₀ (s.arrKick c) := by
  unfold State.arrKick
  grind [PorchHeld.fields, PorchHeld.others, PorchHeld.modTile]

theorem PorchHeld.arrEnter (hk : PorchHeld s₀ s) (c h : Nat) (first : Bool) : PorchHeld s₀ (s.arrEnter c h first) := by
  unfold State.arrEnter
  grind [PorchHeld.fields, PorchHeld.others, PorchHeld.modArr, PorchHeld.arrKick]

theorem PorchHeld.refetch (hk : PorchHeld s₀ s) (c h : Nat) : PorchHeld s₀ (s.refetch c h) := by
  unfold State.refetch
  grind [PorchHeld.fields, PorchHeld.others, PorchHeld.each, PorchHeld.unstall, PorchHeld.fetchStart]

theorem PorchHeld.latch (hk : PorchHeld s₀ s) (c h : Nat) : PorchHeld s₀ (s.latch c h) := by
  unfold State.latch
  grind [PorchHeld.fields, PorchHeld.others, PorchHeld.modTile]

theorem PorchHeld.guardNow (hk : PorchHeld s₀ s) (c h : Nat) : PorchHeld s₀ (s.guardNow c h) := by
  unfold State.guardNow
  grind [PorchHeld.fields, PorchHeld.others, PorchHeld.modTile]

theorem PorchHeld.sampleDue (hk : PorchHeld s₀ s) (c h : Nat) : PorchHeld s₀ (s.sampleDue c h) := by
  unfold State.sampleDue
  grind [PorchHeld.fields, PorchHeld.others, PorchHeld.modTile, PorchHeld.modCore]

theorem PorchHeld.fillSum (hk : PorchHeld s₀ s) (c h : Nat) (reran more : Bool) : PorchHeld s₀ (s.fillSum c h reran more) := by
  unfold State.fillSum
  grind [PorchHeld.fields, PorchHeld.others, PorchHeld.mesh, PorchHeld.modTile]

theorem PorchHeld.scoutEnds (hk : PorchHeld s₀ s) (c h : Nat) : PorchHeld s₀ (s.scoutEnds c h) := by
  unfold State.scoutEnds
  grind [PorchHeld.fields, PorchHeld.others, PorchHeld.setScalar, PorchHeld.seqDone]

theorem PorchHeld.openAttempt (hk : PorchHeld s₀ s) (c h rung : Nat) (reran more : Bool)
    : PorchHeld s₀ (s.openAttempt c h rung reran more) := by
  unfold State.openAttempt
  grind [PorchHeld.fields, PorchHeld.others, PorchHeld.latch, PorchHeld.guardNow, PorchHeld.fillSum, PorchHeld.refetch, PorchHeld.sampleDue,
    PorchHeld.modTile, PorchHeld.arrEnter, PorchHeld.scoutEnds]

theorem PorchHeld.reopen (hk : PorchHeld s₀ s) (c h rung : Nat) (reran : Bool) : PorchHeld s₀ (s.reopen c h rung reran) := by
  unfold State.reopen
  grind [PorchHeld.fields, PorchHeld.others, PorchHeld.openAttempt, PorchHeld.modTile]

theorem PorchHeld.takeItem (hk : PorchHeld s₀ s) (d c h : Nat) (q : QItem) : PorchHeld s₀ (s.takeItem d c h q) := by
  unfold State.takeItem
  grind [PorchHeld.fields, PorchHeld.others, PorchHeld.modDisp, PorchHeld.settle]

theorem PorchHeld.dropClaim (hk : PorchHeld s₀ s) (d : Nat) (r : ClaimReq) : PorchHeld s₀ (s.dropClaim d r) := by
  unfold State.dropClaim
  grind [PorchHeld.fields, PorchHeld.others, PorchHeld.modDisp]

theorem PorchHeld.serveClaim (hk : PorchHeld s₀ s) (d : Nat) (r : ClaimReq) : PorchHeld s₀ (s.serveClaim d r) := by
  unfold State.serveClaim
  grind [PorchHeld.fields, PorchHeld.others, PorchHeld.dropClaim, PorchHeld.answerClaim, PorchHeld.spendOn, PorchHeld.takeItem, PorchHeld.modDisp]

theorem PorchHeld.presentOne (hk : PorchHeld s₀ s) (x : HeldItem) : PorchHeld s₀ (s.presentOne x) := by
  obtain ⟨n, _ | d, c, h⟩ := x <;> unfold State.presentOne <;> grind [PorchHeld.modDisp, PorchHeld.serveClaim,
    PorchHeld.spendOn, PorchHeld.modTile, PorchHeld.reopen]

theorem PorchHeld.presentAll (hk : PorchHeld s₀ s) (l : List HeldItem) :
    PorchHeld s₀ (s.presentAll l) := by
  induction l generalizing s with
  | nil => simpa [State.presentAll] using hk
  | cons x l ih =>
    unfold State.presentAll
    grind [PorchHeld.presentOne]

theorem PorchHeld.present_ (hk : PorchHeld s₀ s) (sel : Nat → Bool) : PorchHeld s₀ (s.present_ sel) := by
  unfold State.present_
  grind [PorchHeld.fields, PorchHeld.others, PorchHeld.presentAll]

end Sys2Proof.Machine
end

section
set_option Elab.async false
/-! The Porch's inputs (R513, R515 to R520). -/

namespace Sys2Proof.Machine
open Sys2Proof
variable {s t u : State}

/-- A table whose first entries are each updated once. -/
theorem Sparse.get_foldl_put {α : Type} [DecidableEq α] (d : α) (f : Nat → α → α) (k : Nat) (m : Sparse α) (j : Nat) :
    Sparse.get d ((upTo k).foldl (fun m n => Sparse.put d m n (f n (Sparse.get d m n))) m) j =
      if j < k then f j (Sparse.get d m j) else Sparse.get d m j := by
  induction k with
  | zero => rfl
  | succ k ih =>
    rw [upTo, List.range_succ, List.foldl_append, List.foldl_cons, List.foldl_nil]
    change Sparse.get d (Sparse.put d ((upTo k).foldl _ m) k (f k (Sparse.get d ((upTo k).foldl _ m) k))) j = _
    rw [Sparse.get_put]
    by_cases hj : j = k
    · subst hj
      rw [if_pos rfl, ih, if_neg (Nat.lt_irrefl _), if_pos (Nat.lt_succ_self _)]
    · rw [if_neg hj, ih]
      exact ite_congr (propext (by omega)) (fun _ => rfl) (fun _ => rfl)

/-! ### Samples -/

/-- A sample filters every temperature. -/
theorem State.filterAll_temp (x : Readings) {n : Nat} (hn : n < 64) : Sparse.get 0 (s.filterAll x).prc.temp n =
      filterStep (Sparse.get 0 s.prc.temp n) (max (-320) (min 1200 (x.temp.getD n 0))) (s.filtK 0) ∧
    Sparse.get 0 (s.filterAll x).prc.rawT n = max (-320) (min 1200 (x.temp.getD n 0)) := by
  have e1 : (s.filterAll x).prc.temp = (upTo 64).foldl (fun m n => Sparse.put 0 m n (filterStep (Sparse.get 0 m n)
      (max (-320) (min 1200 (x.temp.getD n 0))) (s.filtK 0))) s.prc.temp := by
    simp only [State.filterAll]
  have e2 : (s.filterAll x).prc.rawT = (upTo 64).foldl (fun m n => Sparse.put 0 m n (max (-320) (min 1200 (x.temp.getD n 0)))) s.prc.rawT := rfl
  have h1 := Sparse.get_foldl_put 0 (fun n y => filterStep y (max (-320) (min 1200 (x.temp.getD n 0))) (s.filtK 0)) 64 s.prc.temp n
  have h2 := Sparse.get_foldl_put 0 (fun n _ => max (-320) (min 1200 (x.temp.getD n 0))) 64 s.prc.rawT n
  rw [if_pos hn] at h1 h2
  rw [e1, e2]
  exact ⟨h1, h2⟩

theorem PorchHeld.dEvent (hk : PorchHeld u s) (code detail : Nat) : PorchHeld u (s.dEvent code detail) :=
  hk.of_eq (State.dEvent_held code detail).2.1

theorem PorchHeld.withPrc (hk : PorchHeld u s) {x : Prc} (h1 : x.periods = s.prc.periods) (h2 : x.tripped = s.prc.tripped)
    (h3 : x.temp = s.prc.temp) : PorchHeld u { s with prc := x } := hk.fields ⟨h1, h2, h3⟩

theorem PorchHeld.railFaultOn (hk : PorchHeld u s) (m : Nat) : PorchHeld u (s.railFaultOn m) := by
  have h := hk.withPrc (x := { s.prc with railFault := insertAsc m s.prc.railFault }) rfl rfl rfl
  unfold State.railFaultOn
  split
  · exact hk
  · exact h.dEvent _ _

theorem PorchHeld.railCheck (hk : PorchHeld u s) : PorchHeld u s.railCheck := by
  have h := hk.withPrc (x := { s.prc with badV := s.badNow, railFault := s.prc.railFault.filter (s.badNow.contains ·) }) rfl rfl rfl
  unfold State.railCheck
  exact State.each_inv _ (PorchHeld u) _ _ (fun v m hv => hv.railFaultOn m) h

theorem PorchHeld.fillCredit (hk : PorchHeld u s) : PorchHeld u s.fillCredit := by
  unfold State.fillCredit
  split
  · exact hk.withPrc rfl rfl rfl
  · exact hk

theorem PorchHeld.creditStep (hk : PorchHeld u s) : PorchHeld u s.creditStep := by
  unfold State.creditStep
  extract_lets c x
  exact hk.withPrc rfl rfl rfl

theorem PorchHeld.packageStep (hk : PorchHeld u s) : PorchHeld u s.packageStep := by
  unfold State.packageStep
  extract_lets p k new x
  exact hk.withPrc rfl rfl rfl

theorem PorchHeld.holdStep (hk : PorchHeld u s) : PorchHeld u s.holdStep := by
  have h (b : Bool) := hk.withPrc (x := { s.prc with pkhold := b }) rfl rfl rfl
  unfold State.holdStep
  split
  · exact (h true).devEvent _ _ _
  · split
    · exact (h false).present_ _
    · exact hk

theorem PorchHeld.capStep (hk : PorchHeld u s) : PorchHeld u s.capStep := by
  unfold State.capStep
  extract_lets t
  have ht : PorchHeld u t := hk.fillCredit
  clear_value t
  split
  · exact ht
  · exact ht.creditStep.packageStep.holdStep

/-- The Porch once a sample has been filtered and the package's power is known. -/
def State.withPower (s : State) (x : Readings) : State :=
  let t := s.filterAll x
  { t with prc := { t.prc with power := t.prc.packagePower } }

/-- The Porch once it has noted which diodes are hot in a sample. -/
def State.sampled (s : State) (x : Readings) : State :=
  let t := s.withPower x
  { t with prc := { t.prc with hotT := t.prc.hotNow } }

theorem State.sampled_spec (x : Readings) : (s.sampled x).prc.periods = s.prc.periods + 1 ∧ (s.sampled x).prc.tripped = s.prc.tripped ∧
    (s.sampled x).prc.temp = (s.filterAll x).prc.temp := by
  simp only [State.sampled, State.withPower, State.filterAll, and_self]

theorem State.hotNow_withPower (x : Readings) (n : Nat) :
    n ∈ (s.withPower x).prc.hotNow ↔ n < 64 ∧ 880 ≤ max (-320) (min 1200 (x.temp.getD n 0)) := by
  have hraw : (s.withPower x).prc.rawT = (s.filterAll x).prc.rawT := by simp only [State.withPower]
  rw [Prc.hotNow, hraw, List.mem_filter, decide_eq_true_eq]
  refine ⟨fun ⟨hn, h⟩ => ?_, fun ⟨hn, h⟩ => ?_⟩
  · have hlt : n < 64 := List.mem_range.mp hn
    exact ⟨hlt, (State.filterAll_temp x hlt).2 ▸ h⟩
  · exact ⟨List.mem_range.mpr hn, (State.filterAll_temp x hn).2 ▸ h⟩

section
variable {x : Readings} (h1 : x.temp.length = 64) (h2 : x.cur.length = 16) (h3 : x.volt.length = 24) (hp : s.prc.porst = false)
  (ht : s.prc.tripped = false)
include h1 h2 h3 hp ht

/-- A sample without a diode that is hot for the second time. -/
theorem execSensorSample_cool (hcool : (s.withPower x).prc.hotNow.find? (fun n => s.prc.hotT.contains n) = none) :
    exec (.sensorSample x) s = .next (s.sampled x).railCheck.capStep := by
  rw [exec, execSensorSample, if_neg (by simp [h1, h2, h3]), if_neg (by simp [hp, ht])]
  extract_lets t0 p1 t1 hot
  have hhot : hot.find? (fun n => s.prc.hotT.contains n) = none := hcool
  rw [hhot]
  rfl

/-- A sample with a diode that is hot for the second time trips the device. -/
theorem execSensorSample_hot {n : Nat} (hhot : (s.withPower x).prc.hotNow.find? (fun n => s.prc.hotT.contains n) = some n) :
    exec (.sensorSample x) s = .next ((s.sampled x).trip n) := by
  rw [exec, execSensorSample, if_neg (by simp [h1, h2, h3]), if_neg (by simp [hp, ht])]
  extract_lets t0 p1 t1 hot
  have h : hot.find? (fun n => s.prc.hotT.contains n) = some n := hhot
  rw [h]
  rfl

end

/-- A device that trips stops. -/
theorem State.trip_spec (n : Nat) : (s.trip n).prc.tripped = true ∧ (s.trip n).prc.thermtrip = true ∧ (s.trip n).sec.boot = .stopped := by
  unfold State.trip
  extract_lets t0 t1 t2
  clear_value t2
  exact ⟨rfl, rfl, rfl⟩

/-! ### Thermal steps -/

/-- The thermal steps of the dies after a tick. -/
def State.thermalKt (s : State) : Sparse Nat := (upTo 5).foldl (fun m d => Sparse.put 0 m d (s.thermalNext d)) s.prc.kt

theorem State.thermalKt_get {d : Nat} (hd : d < 5) : Sparse.get 0 s.thermalKt d = s.thermalNext d := by
  have h := Sparse.get_foldl_put 0 (fun d _ => s.thermalNext d) 5 s.prc.kt d
  rw [if_pos hd] at h
  exact h

theorem State.thermalKt_any : (upTo 5).any (fun d => Sparse.get 0 s.thermalKt d ≠ 0) = (upTo 5).any (fun d => s.thermalNext d ≠ 0) := by
  rw [Bool.eq_iff_iff, List.any_eq_true, List.any_eq_true]
  refine exists_congr fun d => and_congr_right fun hd => ?_
  rw [State.thermalKt_get (List.mem_range.mp hd)]

/-- The Porch after a tick. -/
def State.ticked (s : State) : State :=
  let now : Bool := (upTo 5).any (fun d => Sparse.get 0 s.thermalKt d ≠ 0)
  { s with prc := { s.prc with kt := s.thermalKt, throttling := now, exthot := if now then s.prc.exthot else s.prc.extProchot } }

theorem execThermalStepTick_ticks (hp : s.prc.porst = false) (ht : s.prc.tripped = false) :
    ∃ t, exec .thermalStepTick s = .next t ∧ t.prc = s.ticked.prc := by
  rw [exec, execThermalStepTick, if_neg (by simp [hp, ht])]
  extract_lets kt now t
  split
  · refine ⟨_, rfl, ?_⟩
    split
    · rfl
    · exact (State.log_prc ..).trans rfl
  · exact ⟨_, rfl, rfl⟩

/-- Settles O53, one input after another. -/
theorem porchInputs : Obligations.PorchInputs := by
  unfold Obligations.PorchInputs
  refine ⟨?_, ?_, ?_, ?_, ?_, ?_, ?_⟩
  · intro x s h1 h2 h3 hp ht
    refine ⟨fun hcool => ?_, fun n hn hhot hold => ?_⟩
    · have hnone : (s.withPower x).prc.hotNow.find? (fun n => s.prc.hotT.contains n) = none := by
        refine List.find?_eq_none.mpr fun n hn => absurd ?_ (Int.not_lt.mpr (State.hotNow_withPower x n |>.mp hn).2)
        have hlt : x.temp.getD n 0 < 880 := by
          by_cases hlt : n < x.temp.length
          · rw [List.getD_eq_getElem?_getD, List.getElem?_eq_getElem hlt, Option.getD_some]
            exact hcool _ (List.getElem_mem hlt)
          · rw [List.getD_eq_getElem?_getD, List.getElem?_eq_none (by omega), Option.getD_none]
            decide
        omega
      have hh := (PorchHeld.refl (s.sampled x)).railCheck.capStep
      obtain ⟨e1, e2, e3⟩ := hh
      obtain ⟨p1, p2, p3⟩ := State.sampled_spec (s := s) x
      refine ⟨_, execSensorSample_cool h1 h2 h3 hp ht hnone, e1.trans p1, e2.trans (p2.trans ht), fun n hn => ?_⟩
      rw [e3, p3]
      exact (State.filterAll_temp x hn).1
    · have hin : n ∈ (s.withPower x).prc.hotNow := (State.hotNow_withPower x n).mpr ⟨hn, by omega⟩
      obtain ⟨m, hm⟩ : ∃ m, (s.withPower x).prc.hotNow.find? (fun n => s.prc.hotT.contains n) = some m :=
        Option.isSome_iff_exists.mp (List.find?_isSome.mpr ⟨n, hin, by simpa using hold⟩)
      exact ⟨_, execSensorSample_hot h1 h2 h3 hp ht hm, State.trip_spec m⟩
  · intro s hp ht
    obtain ⟨t, he, hprc⟩ := execThermalStepTick_ticks hp ht
    refine ⟨t, he, fun d hd => ?_, ?_⟩
    · rw [hprc]
      exact State.thermalKt_get hd
    · rw [hprc]
      exact State.thermalKt_any
  · intro pclk s
    refine ⟨fun hp => ⟨_, by rw [exec, execProchotIn, if_neg (by omega)], rfl, only_prc _⟩, fun hp => ?_, ⟨_, rfl, rfl, only_prc _⟩⟩
    rw [exec, execProchotIn, if_pos hp]
  · intro x s hport hd hp
    have hgo : ¬ (decide (x.port.val ≠ s.rf .ethPtpsel 0 0 0 3) || (decide (s.prc.d3 = .asleep) && decide (x.port.val ≠ 4)) || s.prc.porst) =
        true := by simp [hport, hd, hp]
    refine ⟨_, by rw [exec, execPtpSync, if_neg hgo], rfl, rfl, fun hlt => if_pos hlt, fun hge => if_neg (Int.not_lt.mpr hge), fun ho hg => ?_, only_prc _⟩
    have hgood : (if x.offset.natAbs ≤ 100 then min 8 (s.prc.good + 1) else 0) = 8 := by
      rw [if_pos ho]
      omega
    simp [hgood]
  · intro s
    exact ⟨_, rfl, rfl, only_prc _⟩
  · intro off bs v u s hup
    refine ⟨fun h4 hlt hread => ?_, ⟨_, rfl, rfl, (only.refl _ s).send (by simp) _⟩⟩
    have hbytes : s.i3cBytes off.toNat 4 = (toLe 4 v.toNat, u) := by
      have hone : (off.toNat % 4 + 4 + 3) / 4 = 1 := by omega
      have hoff : off.toNat / 4 * 4 = off.toNat := by omega
      have hup1 : upTo 1 = [0] := rfl
      rw [State.i3cBytes, hone, hup1, List.foldl_cons, List.foldl_nil]
      simp only [hoff, Nat.mul_zero, Nat.add_zero, if_pos hlt, hread, List.nil_append]
    have hlen : (toLe 4 v.toNat).length = 4 := by simp [toLe]
    rw [exec, execI3cRead, if_pos hup, hbytes]
    dsimp only
    rw [h4, List.drop_zero, List.take_of_length_le (by omega)]
  · intro st dyn s hs hp
    refine ⟨_, ?_, rfl, only_prc _⟩
    rw [exec, execI3cAddressAssign, if_pos (by simp [hs, hp])]

end Sys2Proof.Machine
end

section
set_option Elab.async false
/-! Charges, CALSCALE, budget windows and session budgets of the Meter (R521, R523 to R526, R534). -/

namespace Sys2Proof.Machine
open Sys2Proof
variable {s t u : State} {n p : Nat}

/-! ### Charges -/

theorem State.charge_kept (core part session : Option Nat) (n : Nat) : (s.charge core part session n).cores = s.cores ∧
    (s.charge core part session n).mtr.calscale = s.mtr.calscale := by
  have hon := (only.refl [.ses, .mtr] s).charge (by simp) (by simp) core part session n
  refine ⟨(hon .cores).resolve_left (by simp), ?_⟩
  unfold State.charge
  extract_lets m t
  have ht : t.mtr.calscale = s.mtr.calscale := rfl
  clear_value t
  split
  · split
    · exact ht
    · rw [(((only.refl [.ses] t).modSess (by simp) _ _) .mtr).resolve_left (by simp)]
      exact ht
  · exact ht

/-- A core's charge takes its activity and no other core's. -/
theorem State.chargeCore_spec (c : Nat) : ((s.chargeCore c).core c).act = [] ∧
    (∀ d, d ≠ c → (s.chargeCore c).core d = s.core d) ∧ (s.chargeCore c).mtr.calscale = s.mtr.calscale := by
  unfold State.chargeCore
  extract_lets q n t
  obtain ⟨hcores, hcal⟩ : t.cores = s.cores ∧ t.mtr.calscale = s.mtr.calscale := State.charge_kept ..
  clear_value t
  refine ⟨?_, fun d hd => ?_, hcal⟩
  · rw [State.core_modCore_self]
  · rw [State.core_modCore_ne _ _ hd]
    exact State.core_of_cores_eq hcores

/-- Cores charged one after another have no activity left. -/
theorem State.act_charged (l : List Nat) : (∀ c, (c ∈ l ∨ (s.core c).act = []) → ((s.each l (fun t c => t.chargeCore c)).core c).act = []) ∧
    (s.each l (fun t c => t.chargeCore c)).mtr.calscale = s.mtr.calscale := by
  induction l generalizing s with
  | nil => exact ⟨fun c h => h.resolve_left List.not_mem_nil, rfl⟩
  | cons c l ih =>
    obtain ⟨h1, h2, h3⟩ := State.chargeCore_spec (s := s) c
    obtain ⟨hact, hcal⟩ := ih (s := s.chargeCore c)
    refine ⟨fun d hd => hact d ?_, hcal.trans h3⟩
    by_cases hdc : d = c
    · exact .inr (hdc ▸ h1)
    · refine hd.imp (fun h => (List.mem_cons.mp h).resolve_left hdc) fun h => ?_
      rw [h2 d hdc]
      exact h

/-! ### Windows -/

/-- Work that no core holds is not presented. -/
theorem State.present_none {sel : Nat → Bool} (h : s.heldWork sel = []) : s.present_ sel = s := by
  rw [State.present_, h, State.presentAll]

/-- What the sessions hold does not bear on the work that is held. -/
theorem State.heldWork_modSess (n : Nat) (f : Session → Session) (sel : Nat → Bool) : (s.modSess n f).heldWork sel = s.heldWork sel := by
  obtain ⟨x, hx⟩ := State.modSess_eq (s := s) n f
  rw [hx]
  rfl

/-- A session's budget window that is restarted counts from now. -/
theorem State.restartWindow_spec (h : s.heldWork (fun c => (s.core c).owner = some n) = []) :
    s.restartWindow n = s.modSess n (fun x => { x with t0 := s.prc.time, spend := 0 }) := by
  rw [State.restartWindow]
  exact State.present_none ((State.heldWork_modSess ..).trans h)

/-- Settles O54, by the core, partition and session charged. -/
theorem meterCommands : Obligations.MeterCommands := by
  unfold Obligations.MeterCommands
  refine ⟨?_, ?_, ?_, ?_, ?_⟩
  · intro s hh
    rw [exec, execMeterCharge, if_neg (by simp [hh])]
    extract_lets t1 t2 t3
    obtain ⟨hact, hcal⟩ : (∀ c, (c ∈ upTo 256 ∨ (s.core c).act = []) → (t1.core c).act = []) ∧ t1.mtr.calscale = s.mtr.calscale :=
      State.act_charged _
    have h1 : only [.cores, .mtr, .ses] s t1 := (only.refl _ s).each _ _ fun t c ht => ht.chargeCore (by simp) (by simp) (by simp) c
    clear_value t1
    have h2 : t2.cores = t1.cores ∧ t2.mtr.calscale = t1.mtr.calscale :=
      State.each_inv t1 (fun t => t.cores = t1.cores ∧ t.mtr.calscale = t1.mtr.calscale) _ _
        (fun t x ht => ⟨(State.charge_kept ..).1.trans ht.1, (State.charge_kept ..).2.trans ht.2⟩) ⟨rfl, rfl⟩
    have h2o : only [.cores, .mtr, .ses] s t2 := h1.each _ _ fun t x ht => ht.charge (by simp) (by simp) _ _ _ _
    clear_value t2
    have h3 : t3.cores = t2.cores ∧ t3.mtr.calscale = t2.mtr.calscale :=
      State.each_inv t2 (fun t => t.cores = t2.cores ∧ t.mtr.calscale = t2.mtr.calscale) _ _
        (fun t x ht => ⟨(State.charge_kept ..).1.trans ht.1, (State.charge_kept ..).2.trans ht.2⟩) ⟨rfl, rfl⟩
    have h3o : only [.cores, .mtr, .ses] s t3 := h2o.each _ _ fun t x ht => ht.charge (by simp) (by simp) _ _ _ _
    clear_value t3
    refine ⟨_, rfl, fun c hc => ?_, rfl, rfl, h3.2.trans (h2.2.trans hcal), h3o.withMtr (by simp) _⟩
    have hcore : t3.core c = t1.core c := State.core_of_cores_eq (h3.1.trans h2.1)
    exact (congrArg Core.act hcore).trans (hact c (.inl (List.mem_range.mpr hc)))
  · intro a b s hh hq
    refine ⟨_, by rw [exec, execCalscaleUpdate, if_neg (by simp [hh])], if_neg hq, rfl, rfl, rfl, ?_⟩
    exact (only.refl _ s).withMtr (by simp) _
  · intro p s hr hb hheld
    have hrec : ¬ ((s.partRec p).isNone || decide (s.partBudget p = 0)) = true := by
      simp [Option.isSome_iff_ne_none.mp hr, hb]
    refine ⟨{ s with mtr := { s.mtr with spend := Sparse.put 0 s.mtr.spend p (s.partSpend p - s.partBudget p) } }, ?_,
      Sparse.get_put_self 0 s.mtr.spend p _, fun q hq => Sparse.get_put_ne 0 0 s.mtr.spend _ hq, (only.refl _ s).withMtr (by simp) _⟩
    rw [exec, execBudgetWindowBoundary, if_neg (by decide), State.partBoundary, if_neg hrec]
    exact congrArg Host.Outcome.next (State.present_none hheld)
  · intro n s hn hst hb hheld
    have he : exec (.budgetWindowBoundary true n) s = .next (s.modSess n (fun x => { x with spend := x.spend - x.budget })) := by
      rw [exec, execBudgetWindowBoundary, if_pos rfl, State.sessBoundary]
      rw [if_neg (by simp [hst, hb]), State.present_none ((State.heldWork_modSess ..).trans hheld)]
    exact ⟨_, he, State.sess_modSess_self .., fun k hk => State.sess_modSess_ne _ _ hk, (only.refl _ s).modSess (by simp) _ _⟩
  · intro r v s n hr hres hst hheld
    have hheld' : ((s.modSess n (fun x => { x with swin := v &&& 0x7FFF })).heldWork
        (fun c => ((s.modSess n (fun x => { x with swin := v &&& 0x7FFF })).core c).owner = some n)) = [] := by
      simp only [State.heldWork_modSess, State.core_modSess]
      exact hheld
    have he : exec (.sessionBudgetWrite r false v) s = .next ((s.modSess n (fun x => { x with swin := v &&& 0x7FFF })).modSess n
        (fun x => { x with t0 := (s.modSess n (fun x => { x with swin := v &&& 0x7FFF })).prc.time, spend := 0 })) := by
      rw [exec, execSessionBudgetWrite, if_neg (by decide), State.atReg_may _ _ _ _ _ _ hr, State.setSessBudget]
      dsimp only
      rw [if_neg (by decide), hres, if_neg (by decide), if_neg hst, State.restartWindow_spec hheld']
    have htime : (s.modSess n (fun x => { x with swin := v &&& 0x7FFF })).prc.time = s.prc.time :=
      congrArg Prc.time (((only.refl [.ses] s).modSess (by simp) _ _ .prc).resolve_left (by simp))
    rw [htime] at he
    refine ⟨_, he, ?_, fun k hk => (State.sess_modSess_ne _ _ hk).trans (State.sess_modSess_ne _ _ hk), ?_⟩
    · rw [State.sess_modSess_self, State.sess_modSess_self]
    · exact ((only.refl _ s).modSess (by simp) _ _).modSess (by simp) _ _

end Sys2Proof.Machine
end

section
set_option Elab.async false
/-! Warm resets, partition resets and the log's read index (R487, R541, R545 to R547, R561). -/

namespace Sys2Proof.Machine
open Sys2Proof
variable {s t u : State} {code : Nat}

theorem only_evt (x : Evt) : only [.evt] s { s with evt := x } := by
  refine (only.refl _ s).fields ?_ ?_ ?_ ?_ ?_ ?_ ?_ ?_ ?_ ?_ ?_ ?_ ?_ ?_ ?_ ?_ ?_ ?_ ?_ ?_ ?_
  all_goals simp

/-! ### Warm resets -/

theorem DevHeld.warmCore (hk : DevHeld u s) (c : Nat) : DevHeld u (s.warmCore c) := by
  unfold State.warmCore
  exact (hk.wipeCore c).modCore c _

theorem DevHeld.warmGoesOn (hk : DevHeld u s) : DevHeld u s.warmGoesOn := by
  unfold State.warmGoesOn
  split
  · exact (hk.each _ _ fun t p ht => ht.portDown p _ _).ethDown
  · exact hk

/-- A warm reset that goes on leaves the loader. -/
theorem State.trl_warmGoesOn : s.warmGoesOn.trl = s.trl := by
  have hdown : only [.outbox, .regs, .mem, .cores, .sdt, .tch, .ses, .mtr, .evt, .eth] s
      (s.each (upTo 6) (fun t p => t.portDown p 0 .down)).ethDown :=
    ((only.refl _ s).each _ _ fun t p ht =>
      ht.portDown (by simp) (by simp) (by simp) (by simp) (by simp) (by simp) (by simp) (by simp) (by simp) _ _ _).ethDown (by simp)
  unfold State.warmGoesOn
  split
  · exact (hdown .trl).resolve_left (by simp)
  · rfl

/-- A warm reset begins with its cause, without DFAULT and with the loader IDLE. -/
theorem State.beginWarm_spec (code : Nat) : (s.beginWarm code).evt.warm = some code ∧ (s.beginWarm code).evt.dfault = false ∧
    (s.beginWarm code).trl = {} := by
  unfold State.beginWarm
  extract_lets bare evt t0 t1 t2 t3 t4 t5 t6 mtr t7
  have h0 : t0.evt.warm = some code ∧ t0.evt.dfault = false := ⟨rfl, rfl⟩
  clear_value t0
  have h1 : DevHeld t0 t1 := by
    simp only [t1]
    split
    · exact (DevHeld.refl t0).closeDebug
    · exact DevHeld.refl t0
  have h2 : DevHeld t0 t2 := h1.each _ _ fun t n ht => ht.killSession n
  have h3 : DevHeld t0 t3 := h2.each _ _ fun t p ht => ht.resetPart p _ _
  have h4 : DevHeld t0 t4 := h3.each _ _ fun t r ht => ht.destroyKey r
  have h5 : DevHeld t0 t5 := h4.each _ _ fun t c ht => ht.warmCore c
  clear_value t5
  have hsame : DevHeld t0 t5.endHubWork.resetHubRegs := h5.fields ⟨rfl, rfl, rfl, rfl⟩
  have h6 : DevHeld t0 t6 := hsame.each _ _ fun t d ht => ht.modDisp d _
  have htrl : t6.trl = {} :=
    (((only.refl [.sdt] t5.endHubWork.resetHubRegs).each (upTo 64) _ fun t d ht => ht.modDisp (by simp) d _) .trl).resolve_left (by simp)
  clear_value t6
  have h7 : DevHeld t0 t7 := h6.fields ⟨rfl, rfl, rfl, rfl⟩
  have htrl7 : t7.trl = {} := htrl
  clear_value t7
  obtain ⟨-, -, e3, e4⟩ := h7.warmGoesOn
  exact ⟨e4.trans h0.1, e3.trans h0.2, State.trl_warmGoesOn.trans htrl7⟩

/-- A warm-reset trigger begins a warm reset of a device that has booted. -/
theorem State.warmReset_begins (hw : s.evt.warm = none) (hd : s.prc.d3 = .none) (ht : s.prc.tripped = false) (hp : s.prc.porst = false)
    (hb : s.sec.boot ≠ .stopped) (code : Nat) : s.warmReset code = s.beginWarm code := by
  rw [State.warmReset, if_neg (by simp [hw, hd, ht, hp]), if_neg hb]

/-- A warm-reset trigger restarts a stopped boot at the stage that stopped it. -/
theorem State.warmReset_restarts (hw : s.evt.warm = none) (hd : s.prc.d3 = .none) (ht : s.prc.tripped = false) (hp : s.prc.porst = false)
    (hb : s.sec.boot = .stopped) (code : Nat) :
    (s.warmReset code).sec.boot = (if s.sec.bootCode = 1 then .rom else if s.sec.bootCode = 2 ∨ s.sec.bootCode = 3 then .hubfw else .stopped) ∧
      (s.warmReset code).evt.warm = none ∧ only [.sec, .evt, .trl] s (s.warmReset code) := by
  have hsec (x : Sec) (y : Evt) : only [.sec, .evt, .trl] s { s with sec := x, evt := y } :=
    ((only_sec (s := s) x).mono (by simp)).trans ((only_evt (s := { s with sec := x }) y).mono (by simp))
  have htrl (x : Sec) (y : Evt) (z : Trl) : only [.sec, .evt, .trl] s { s with sec := x, evt := y, trl := z } :=
    (hsec x y).trans ((only_trl (s := { s with sec := x, evt := y }) z).mono (by simp))
  rw [State.warmReset, if_neg (by simp [hw, hd, ht, hp]), if_pos hb]
  split
  · next h => exact ⟨by rw [h]; rfl, hw, hsec _ _⟩
  · next h => exact ⟨by rw [h]; rfl, hw, htrl _ _ _⟩
  · next h => exact ⟨by rw [h]; rfl, hw, htrl _ _ _⟩
  · next h1 h2 h3 => exact ⟨by rw [if_neg h1, if_neg (not_or.mpr ⟨h2, h3⟩), hb], hw, only.refl _ s⟩

/-- Settles O55, by the state of the boot and of the scrubs. -/
theorem resetsAndLog : Obligations.ResetsAndLog := by
  unfold Obligations.ResetsAndLog
  refine ⟨?_, ?_, ?_, ?_, ?_⟩
  · intro r v s hr
    exact ⟨s.setRdidx v, by rw [exec, execEvtRdidxWrite, State.atReg_may _ _ _ _ _ _ hr], rfl, only_evt _⟩
  · intro r pclk s hw hd ht hp stage
    refine ⟨fun hb => ⟨fun hr => ?_, fun hpc => ?_, ?_⟩, fun hb hpc => ?_⟩
    · obtain ⟨h1, h2, h3⟩ := State.beginWarm_spec (s := s) rstWARM
      refine ⟨_, ?_, h1, h2, h3⟩
      rw [exec, execWarmReset, State.atReg_may _ _ _ _ _ _ hr, if_neg (by decide), State.warmReset_begins hw hd ht hp hb]
    · obtain ⟨h1, h2, -⟩ := State.beginWarm_spec (s := s) rstWRST
      exact ⟨_, by rw [exec, execWrstPin, if_pos hpc, State.warmReset_begins hw hd ht hp hb], h1, h2⟩
    · obtain ⟨e1, e2, -, e4⟩ := State.dEvent_held (s := s) 0x0009 0
      have he : exec .hubWatchdog s = .next ((s.dEvent 0x0009 0).warmReset rstWATCHDOG) := by
        rw [exec, execHubWatchdog, if_neg (by simp [hw, hd, ht, hp])]
      generalize s.dEvent 0x0009 0 = w at *
      rw [State.warmReset_begins (e4.trans hw) (by rw [e2]; exact hd) (by rw [e2]; exact ht) (by rw [e2]; exact hp) (by rw [e1]; exact hb)] at he
      obtain ⟨h1, h2, -⟩ := State.beginWarm_spec (s := w) rstWATCHDOG
      exact ⟨_, he, h1, h2⟩
    · exact ⟨_, by rw [exec, execWrstPin, if_pos hpc], State.warmReset_restarts hw hd ht hp hb 1⟩
  · intro r s hr
    rw [exec, execWarmReset, State.atReg_may _ _ _ _ _ _ hr, if_pos rfl]
  · intro pclk s hlt
    rw [exec, execWrstPin, if_neg (by omega)]
  · intro r p s hr
    have he : exec (.partitionReset r p) s = .next (s.resetPart p.val 2 false) := by
      rw [exec, execPartitionReset, State.atReg_may _ _ _ _ _ _ hr]
    refine ⟨fun hs ha hrec => ?_, fun hs => ?_, fun hs ha => ?_⟩
    · obtain ⟨⟨gs, h1⟩, h2, h3⟩ := State.resetPart_scrubs hs ha hrec 2 false
      exact ⟨_, he, ⟨_, h1 ▸ List.mem_append_right _ (List.mem_singleton_self _), rfl, rfl⟩, h2, h3⟩
    · rw [he, State.resetPart_again hs]
    · rw [he, State.resetPart_applying hs ha]

end Sys2Proof.Machine
end

section
set_option Elab.async false
/-! What the abort of another tile leaves of a tile. -/

namespace Sys2Proof.Machine
open Sys2Proof
variable {s₀ s t u : State} {c cc hh : Nat}

/-- The tile's state stays. -/
def StHeld (c h : Nat) (s t : State) : Prop := (t.tile c h).st = (s.tile c h).st

theorem StHeld.refl (c h : Nat) (s : State) : StHeld c h s s := rfl

theorem StHeld.of_tile_eq (hk : StHeld cc hh s₀ s) (e : t.tile cc hh = s.tile cc hh) : StHeld cc hh s₀ t := by
  rwa [StHeld, e]

theorem StHeld.of_cores_eq (hk : StHeld cc hh s₀ s) (e : t.cores = s.cores) : StHeld cc hh s₀ t :=
  hk.of_tile_eq (by rw [State.tile, State.tile, State.core, State.core, e])

theorem StHeld.fields (hk : StHeld cc hh s₀ s) {a1 a2 a3 a4 a5 a6 a7 a9 a10 a11 a12 a13 a14 a15 a16 a17 a18 a19 a20 a21} :
    StHeld cc hh s₀ (State.mk a1 a2 a3 a4 a5 a6 a7 s.cores a9 a10 a11 a12 a13 a14 a15 a16 a17 a18 a19 a20 a21) := hk.of_cores_eq rfl

theorem StHeld.modCore (hk : StHeld cc hh s₀ s) (c : Nat) (f : Core → Core) (hf : ∀ k, (f k).tiles = k.tiles) : StHeld cc hh s₀ (s.modCore c f) :=
  hk.of_tile_eq (by
    by_cases hc : cc = c
    · subst hc
      exact State.tile_modCore cc f hh hf
    · rw [State.tile, State.core_modCore_ne s f hc]
      rfl)

theorem StHeld.modTile (hk : StHeld cc hh s₀ s) (c h : Nat) (f : Tile → Tile) (hf : ∀ t, (f t).st = t.st) :
    StHeld cc hh s₀ (s.modTile c h f) := by
  by_cases hc : cc = c
  · subst hc
    by_cases hh' : hh = h
    · subst hh'
      have e := hf (s.tile cc hh)
      unfold StHeld at *
      rw [State.tile_modTile_self]
      simp only [e]
      exact hk
    · exact hk.of_tile_eq (State.tile_modTile_ne s f hh')
  · exact hk.of_tile_eq (by rw [State.tile, State.modTile, State.core_modCore_ne s _ hc]; rfl)

theorem StHeld.each {α : Type} (hk : StHeld cc hh s₀ s) (l : List α) (f : State → α → State)
    (hf : ∀ t x, StHeld cc hh s₀ t → StHeld cc hh s₀ (f t x)) : StHeld cc hh s₀ (s.each l f) := State.each_inv s (StHeld cc hh s₀) l f hf hk

theorem StHeld.log (hk : StHeld cc hh s₀ s) (e : Event) : StHeld cc hh s₀ (s.log e) := hk.of_cores_eq (State.log_cores s e)

theorem StHeld.setBytes (hk : StHeld cc hh s₀ s) (a : Nat) (bs : List Byte) : StHeld cc hh s₀ (s.setBytes a bs) :=
  hk.of_cores_eq (State.setBytes_cores s a bs)

theorem StHeld.setRg (hk : StHeld cc hh s₀ s) (n : RegName) (c i j : Nat) (v : W32) : StHeld cc hh s₀ (s.setRg n c i j v) := by
  unfold State.setRg
  grind [StHeld.fields]

theorem StHeld.setRgHi (hk : StHeld cc hh s₀ s) (n : RegName) (c i j : Nat) (v : W32)
    : StHeld cc hh s₀ (s.setRgHi n c i j v) := by
  unfold State.setRgHi
  grind [StHeld.fields]

theorem StHeld.setRg64 (hk : StHeld cc hh s₀ s) (n : RegName) (c i j v : Nat) : StHeld cc hh s₀ (s.setRg64 n c i j v) := by
  unfold State.setRg64
  grind [StHeld.fields, StHeld.setRg, StHeld.setRgHi]

theorem StHeld.count (hk : StHeld cc hh s₀ s) (n : RegName) (c i k : Nat) : StHeld cc hh s₀ (s.count n c i k) := by
  unfold State.count
  grind [StHeld.fields, StHeld.setRg]

theorem StHeld.modSeq (hk : StHeld cc hh s₀ s) (c : Nat) (f : Seq → Seq) : StHeld cc hh s₀ (s.modSeq c f) := by
  unfold State.modSeq
  grind [StHeld.fields, StHeld.modCore]

theorem StHeld.modArr (hk : StHeld cc hh s₀ s) (c : Nat) (f : Arr → Arr) : StHeld cc hh s₀ (s.modArr c f) := by
  unfold State.modArr
  grind [StHeld.fields, StHeld.modCore]

theorem StHeld.modChan (hk : StHeld cc hh s₀ s) (c ch : Nat) (f : Chan → Chan) : StHeld cc hh s₀ (s.modChan c ch f) := by
  unfold State.modChan
  grind [StHeld.fields, StHeld.modCore]

theorem StHeld.setSlot (hk : StHeld cc hh s₀ s) (c n : Nat) (x : Slot) : StHeld cc hh s₀ (s.setSlot c n x) := by
  unfold State.setSlot
  grind [StHeld.fields, StHeld.modCore]

theorem StHeld.modDisp (hk : StHeld cc hh s₀ s) (d : Nat) (f : Disp → Disp) : StHeld cc hh s₀ (s.modDisp d f) := by
  unfold State.modDisp
  grind [StHeld.fields]

theorem StHeld.setSpad (hk : StHeld cc hh s₀ s) (c off : Nat) (bs : List Byte) : StHeld cc hh s₀ (s.setSpad c off bs) := by
  unfold State.setSpad
  grind [StHeld.fields, StHeld.setBytes]

theorem StHeld.slotRelease (hk : StHeld cc hh s₀ s) (c n cls : Nat) : StHeld cc hh s₀ (s.slotRelease c n cls) := by
  unfold State.slotRelease
  grind [StHeld.fields, StHeld.setSlot]

theorem StHeld.writeRd (hk : StHeld cc hh s₀ s) (c : Nat) : StHeld cc hh s₀ (s.writeRd c) := by
  unfold State.writeRd
  grind [StHeld.fields, StHeld.setSpad]

theorem StHeld.setRd (hk : StHeld cc hh s₀ s) (c i : Nat) : StHeld cc hh s₀ (s.setRd c i) := by
  unfold State.setRd
  grind [StHeld.fields, StHeld.modSeq, StHeld.writeRd]

theorem StHeld.seqDoneAt (hk : StHeld cc hh s₀ s) (c i : Nat) : StHeld cc hh s₀ (s.seqDoneAt c i) := by
  unfold State.seqDoneAt
  grind [StHeld.fields, StHeld.setRd, StHeld.modSeq]

theorem StHeld.seqDone (hk : StHeld cc hh s₀ s) (c : Nat) : StHeld cc hh s₀ (s.seqDone c) := by
  unfold State.seqDone
  grind [StHeld.fields, StHeld.seqDoneAt]

theorem StHeld.setScalar (hk : StHeld cc hh s₀ s) (c n v : Nat) : StHeld cc hh s₀ (s.setScalar c n v) := by
  unfold State.setScalar
  grind [StHeld.fields, StHeld.setRg64]

theorem StHeld.closeClaim (hk : StHeld cc hh s₀ s) (x : Claim) : StHeld cc hh s₀ (s.closeClaim x) := by
  unfold State.closeClaim
  grind [StHeld.fields]

theorem StHeld.settle (hk : StHeld cc hh s₀ s) (d : Nat) : StHeld cc hh s₀ (s.settle d) := by
  unfold State.settle
  grind [StHeld.fields, StHeld.modDisp]

theorem StHeld.returnClaim (hk : StHeld cc hh s₀ s) (c d tile epoch : Nat)
    : StHeld cc hh s₀ (s.returnClaim c d tile epoch) := by
  unfold State.returnClaim
  grind [StHeld.fields, StHeld.closeClaim, StHeld.modDisp, StHeld.settle]

theorem StHeld.flagTile (hk : StHeld cc hh s₀ s) (c h : Nat) (l : List Nat) : StHeld cc hh s₀ (s.flagTile c h l) := by
  unfold State.flagTile
  grind [StHeld.fields, StHeld.modTile]

theorem StHeld.tileEvent (hk : StHeld cc hh s₀ s) (c h code cls detail : Nat)
    : StHeld cc hh s₀ (s.tileEvent c h code cls detail) := by
  unfold State.tileEvent
  grind [StHeld.fields, StHeld.log]

theorem StHeld.unstall (hk : StHeld cc hh s₀ s) (c : Nat) (p : StallBy → Bool) : StHeld cc hh s₀ (s.unstall c p) := by
  unfold State.unstall
  grind [StHeld.fields, StHeld.modCore]

theorem StHeld.chanHalt (hk : StHeld cc hh s₀ s) (c ch err : Nat) : StHeld cc hh s₀ (s.chanHalt c ch err) := by
  unfold State.chanHalt
  grind [StHeld.fields, StHeld.modChan, StHeld.unstall, StHeld.count]

theorem StHeld.arrKick (hk : StHeld cc hh s₀ s) (c : Nat) : StHeld cc hh s₀ (s.arrKick c) := by
  unfold State.arrKick
  grind [StHeld.fields, StHeld.modTile]

theorem StHeld.arrLeave (hk : StHeld cc hh s₀ s) (c : Nat) : StHeld cc hh s₀ (s.arrLeave c) := by
  unfold State.arrLeave
  grind [StHeld.fields, StHeld.modArr, StHeld.arrKick]

theorem StHeld.arrDrop (hk : StHeld cc hh s₀ s) (c h : Nat) : StHeld cc hh s₀ (s.arrDrop c h) := by
  unfold State.arrDrop
  grind [StHeld.fields, StHeld.modArr, StHeld.arrLeave]

theorem StHeld.dropWork (hk : StHeld cc hh s₀ s) (c h : Nat) : StHeld cc hh s₀ (s.dropWork c h) := by
  unfold State.dropWork
  grind [StHeld.fields, StHeld.modCore, StHeld.arrDrop]

theorem StHeld.releaseSlots (hk : StHeld cc hh s₀ s) (c h : Nat) : StHeld cc hh s₀ (s.releaseSlots c h) := by
  unfold State.releaseSlots
  exact (hk.each _ _ fun t n h => h.slotRelease _ _ _).each _ _ fun t n h => h.slotRelease _ _ _

theorem StHeld.abortChans (hk : StHeld cc hh s₀ s) (c h : Nat) : StHeld cc hh s₀ (s.abortChans c h) := by
  unfold State.abortChans
  grind [StHeld.fields, StHeld.each, StHeld.chanHalt]

theorem StHeld.abortWait (hk : StHeld cc hh s₀ s) (c h : Nat) (tsw : W32) : StHeld cc hh s₀ (s.abortWait c h tsw) := by
  unfold State.abortWait
  grind [StHeld.fields, StHeld.setScalar, StHeld.seqDone]

end Sys2Proof.Machine
end

section
set_option Elab.async false
/-! What the abort of its tiles and claims leaves of a core. -/

namespace Sys2Proof.Machine
open Sys2Proof
variable {s₀ s t u : State} {c cc : Nat}

/-- The core's state stays. -/
def CstHeld (c : Nat) (s t : State) : Prop := (t.core c).cst = (s.core c).cst

theorem CstHeld.refl (c : Nat) (s : State) : CstHeld c s s := rfl

theorem CstHeld.of_core_eq (hk : CstHeld cc s₀ s) (e : t.core cc = s.core cc) : CstHeld cc s₀ t := by
  rwa [CstHeld, e]

theorem CstHeld.of_cores_eq (hk : CstHeld cc s₀ s) (e : t.cores = s.cores) : CstHeld cc s₀ t :=
  hk.of_core_eq (by rw [State.core, State.core, e])

theorem CstHeld.fields (hk : CstHeld cc s₀ s) {a1 a2 a3 a4 a5 a6 a7 a9 a10 a11 a12 a13 a14 a15 a16 a17 a18 a19 a20 a21} :
    CstHeld cc s₀ (State.mk a1 a2 a3 a4 a5 a6 a7 s.cores a9 a10 a11 a12 a13 a14 a15 a16 a17 a18 a19 a20 a21) := hk.of_cores_eq rfl

theorem CstHeld.modCore (hk : CstHeld cc s₀ s) (c : Nat) (f : Core → Core) (hf : ∀ k, (f k).cst = k.cst) : CstHeld cc s₀ (s.modCore c f) := by
  by_cases hc : cc = c
  · subst hc
    have e := hf (s.core cc)
    unfold CstHeld at *
    rw [State.core_modCore_self]
    simp only [e]
    exact hk
  · exact hk.of_core_eq (State.core_modCore_ne s f hc)

theorem CstHeld.modTile (hk : CstHeld cc s₀ s) (c h : Nat) (f : Tile → Tile) : CstHeld cc s₀ (s.modTile c h f) :=
  hk.modCore c _ fun _ => rfl

theorem CstHeld.each {α : Type} (hk : CstHeld cc s₀ s) (l : List α) (f : State → α → State)
    (hf : ∀ t x, CstHeld cc s₀ t → CstHeld cc s₀ (f t x)) : CstHeld cc s₀ (s.each l f) := State.each_inv s (CstHeld cc s₀) l f hf hk

theorem CstHeld.foldl {α : Type} (hk : CstHeld cc s₀ s) (l : List α) (f : State → α → State)
    (hf : ∀ t x, CstHeld cc s₀ t → CstHeld cc s₀ (f t x)) : CstHeld cc s₀ (l.foldl f s) := hk.each l f hf

theorem CstHeld.log (hk : CstHeld cc s₀ s) (e : Event) : CstHeld cc s₀ (s.log e) := hk.of_cores_eq (State.log_cores s e)

theorem CstHeld.setBytes (hk : CstHeld cc s₀ s) (a : Nat) (bs : List Byte) : CstHeld cc s₀ (s.setBytes a bs) :=
  hk.of_cores_eq (State.setBytes_cores s a bs)

theorem CstHeld.setRg (hk : CstHeld cc s₀ s) (n : RegName) (c i j : Nat) (v : W32) : CstHeld cc s₀ (s.setRg n c i j v) := by
  unfold State.setRg
  grind [CstHeld.fields]

theorem CstHeld.setRgHi (hk : CstHeld cc s₀ s) (n : RegName) (c i j : Nat) (v : W32) : CstHeld cc s₀ (s.setRgHi n c i j v) := by
  unfold State.setRgHi
  grind [CstHeld.fields]

theorem CstHeld.setRg64 (hk : CstHeld cc s₀ s) (n : RegName) (c i j v : Nat) : CstHeld cc s₀ (s.setRg64 n c i j v) := by
  unfold State.setRg64
  grind [CstHeld.fields, CstHeld.setRg, CstHeld.setRgHi]

theorem CstHeld.count (hk : CstHeld cc s₀ s) (n : RegName) (c i k : Nat) : CstHeld cc s₀ (s.count n c i k) := by
  unfold State.count
  grind [CstHeld.fields, CstHeld.setRg]

theorem CstHeld.modSeq (hk : CstHeld cc s₀ s) (c : Nat) (f : Seq → Seq) : CstHeld cc s₀ (s.modSeq c f) := by
  unfold State.modSeq
  grind [CstHeld.fields, CstHeld.modCore]

theorem CstHeld.modArr (hk : CstHeld cc s₀ s) (c : Nat) (f : Arr → Arr) : CstHeld cc s₀ (s.modArr c f) := by
  unfold State.modArr
  grind [CstHeld.fields, CstHeld.modCore]

theorem CstHeld.modChan (hk : CstHeld cc s₀ s) (c ch : Nat) (f : Chan → Chan) : CstHeld cc s₀ (s.modChan c ch f) := by
  unfold State.modChan
  grind [CstHeld.fields, CstHeld.modCore]

theorem CstHeld.setSlot (hk : CstHeld cc s₀ s) (c n : Nat) (x : Slot) : CstHeld cc s₀ (s.setSlot c n x) := by
  unfold State.setSlot
  grind [CstHeld.fields, CstHeld.modCore]

theorem CstHeld.modDisp (hk : CstHeld cc s₀ s) (d : Nat) (f : Disp → Disp) : CstHeld cc s₀ (s.modDisp d f) := by
  unfold State.modDisp
  grind [CstHeld.fields]

theorem CstHeld.modPort (hk : CstHeld cc s₀ s) (p : Nat) (f : Port → Port) : CstHeld cc s₀ (s.modPort p f) := by
  unfold State.modPort
  grind [CstHeld.fields]

theorem CstHeld.modGroup (hk : CstHeld cc s₀ s) (g : Nat) (f : Group → Group) : CstHeld cc s₀ (s.modGroup g f) := by
  unfold State.modGroup
  grind [CstHeld.fields]

theorem CstHeld.send (hk : CstHeld cc s₀ s) (o : Out) : CstHeld cc s₀ (s.send o) := by
  unfold State.send
  grind [CstHeld.fields]

theorem CstHeld.act (hk : CstHeld cc s₀ s) (c j n : Nat) : CstHeld cc s₀ (s.act c j n) := by
  unfold State.act
  grind [CstHeld.fields, CstHeld.modCore]

theorem CstHeld.coreEvent (hk : CstHeld cc s₀ s) (c code cls detail : Nat) : CstHeld cc s₀ (s.coreEvent c code cls detail) := by
  unfold State.coreEvent
  grind [CstHeld.fields, CstHeld.log]

theorem CstHeld.setSpad (hk : CstHeld cc s₀ s) (c off : Nat) (bs : List Byte) : CstHeld cc s₀ (s.setSpad c off bs) := by
  unfold State.setSpad
  grind [CstHeld.fields, CstHeld.setBytes]

theorem CstHeld.sendPacket (hk : CstHeld cc s₀ s) (p : Nat) (k : Packet) : CstHeld cc s₀ (s.sendPacket p k) := by
  unfold State.sendPacket
  grind [CstHeld.fields, CstHeld.modPort, CstHeld.each, CstHeld.send]

theorem CstHeld.groupAct (hk : CstHeld cc s₀ s) (g j n : Nat) : CstHeld cc s₀ (s.groupAct g j n) := by
  unfold State.groupAct
  grind [CstHeld.fields]

theorem CstHeld.groupSend (hk : CstHeld cc s₀ s) (g p : Nat) (k : Packet) : CstHeld cc s₀ (s.groupSend g p k) := by
  unfold State.groupSend
  grind [CstHeld.fields, CstHeld.groupAct, CstHeld.sendPacket]

theorem CstHeld.toParent (hk : CstHeld cc s₀ s) (g : Nat) (k : Packet) : CstHeld cc s₀ (s.toParent g k) := by
  unfold State.toParent
  grind [CstHeld.fields, CstHeld.groupSend]

theorem CstHeld.toKids (hk : CstHeld cc s₀ s) (g : Nat) (k : Packet) : CstHeld cc s₀ (s.toKids g k) := by
  unfold State.toKids
  grind [CstHeld.fields, CstHeld.each, CstHeld.groupSend]

theorem CstHeld.spdErr (hk : CstHeld cc s₀ s) (c kind num : Nat) (nowin : Bool := false)
    : CstHeld cc s₀ (s.spdErr c kind num nowin) := by
  unfold State.spdErr
  grind [CstHeld.fields, CstHeld.setRg]

theorem CstHeld.slotTouch (hk : CstHeld cc s₀ s) (c off len : Nat) (wr : Bool) : CstHeld cc s₀ (s.slotTouch c off len wr) := by
  unfold State.slotTouch
  grind [CstHeld.fields, CstHeld.each, CstHeld.setSlot]

theorem CstHeld.slotClass (hk : CstHeld cc s₀ s) (c n : Nat) (r : Option Req) (wr : Bool) (cls : Nat)
    : CstHeld cc s₀ (s.slotClass c n r wr cls) := by
  unfold State.slotClass
  grind [CstHeld.fields, CstHeld.spdErr, CstHeld.log, CstHeld.coreEvent]

theorem CstHeld.slotRelease (hk : CstHeld cc s₀ s) (c n cls : Nat) : CstHeld cc s₀ (s.slotRelease c n cls) := by
  unfold State.slotRelease
  grind [CstHeld.fields, CstHeld.setSlot]

theorem CstHeld.wordAct (hk : CstHeld cc s₀ s) (c off len : Nat) : CstHeld cc s₀ (s.wordAct c off len) := by
  unfold State.wordAct
  grind [CstHeld.fields, CstHeld.act]

theorem CstHeld.ringHook (hk : CstHeld cc s₀ s) (c off : Nat) (bs : List Byte) : CstHeld cc s₀ (s.ringHook c off bs) := by
  unfold State.ringHook
  grind [CstHeld.fields, CstHeld.modSeq]

theorem CstHeld.store (hk : CstHeld cc s₀ s) (c off : Nat) (bs : List Byte) : CstHeld cc s₀ (s.store c off bs) := by
  unfold State.store
  grind [CstHeld.fields, CstHeld.setSpad, CstHeld.ringHook, CstHeld.wordAct]

theorem CstHeld.spadWrite (hk : CstHeld cc s₀ s) (c off : Nat) (bs : List Byte) (cls : Nat)
    : CstHeld cc s₀ (s.spadWrite c off bs cls).2 := by
  unfold State.spadWrite
  grind [CstHeld.fields, CstHeld.slotClass, CstHeld.slotTouch, CstHeld.store]

theorem CstHeld.writeRd (hk : CstHeld cc s₀ s) (c : Nat) : CstHeld cc s₀ (s.writeRd c) := by
  unfold State.writeRd
  grind [CstHeld.fields, CstHeld.setSpad]

theorem CstHeld.setRd (hk : CstHeld cc s₀ s) (c i : Nat) : CstHeld cc s₀ (s.setRd c i) := by
  unfold State.setRd
  grind [CstHeld.fields, CstHeld.modSeq, CstHeld.writeRd]

theorem CstHeld.seqDoneAt (hk : CstHeld cc s₀ s) (c i : Nat) : CstHeld cc s₀ (s.seqDoneAt c i) := by
  unfold State.seqDoneAt
  grind [CstHeld.fields, CstHeld.setRd, CstHeld.modSeq]

theorem CstHeld.seqDone (hk : CstHeld cc s₀ s) (c : Nat) : CstHeld cc s₀ (s.seqDone c) := by
  unfold State.seqDone
  grind [CstHeld.fields, CstHeld.seqDoneAt]

theorem CstHeld.setScalar (hk : CstHeld cc s₀ s) (c n v : Nat) : CstHeld cc s₀ (s.setScalar c n v) := by
  unfold State.setScalar
  grind [CstHeld.fields, CstHeld.setRg64]

theorem CstHeld.closeClaim (hk : CstHeld cc s₀ s) (x : Claim) : CstHeld cc s₀ (s.closeClaim x) := by
  unfold State.closeClaim
  grind [CstHeld.fields]

theorem CstHeld.settle (hk : CstHeld cc s₀ s) (d : Nat) : CstHeld cc s₀ (s.settle d) := by
  unfold State.settle
  grind [CstHeld.fields, CstHeld.modDisp]

theorem CstHeld.answerClaim (hk : CstHeld cc s₀ s) (c h : Nat) (r : CRec) : CstHeld cc s₀ (s.answerClaim c h r) := by
  unfold State.answerClaim
  grind [CstHeld.fields, CstHeld.spadWrite, CstHeld.setScalar, CstHeld.modCore, CstHeld.modTile, CstHeld.seqDone]

theorem CstHeld.abortHeld (hk : CstHeld cc s₀ s) (d : Nat) (p : ClaimReq → Bool) : CstHeld cc s₀ (s.abortHeld d p) := by
  unfold State.abortHeld
  grind [CstHeld.fields, CstHeld.modDisp, CstHeld.each, CstHeld.answerClaim]

theorem CstHeld.returnClaim (hk : CstHeld cc s₀ s) (c d tile epoch : Nat) : CstHeld cc s₀ (s.returnClaim c d tile epoch) := by
  unfold State.returnClaim
  grind [CstHeld.fields, CstHeld.closeClaim, CstHeld.modDisp, CstHeld.settle]

theorem CstHeld.endClaim (hk : CstHeld cc s₀ s) (c d tile epoch : Nat) : CstHeld cc s₀ (s.endClaim c d tile epoch) := by
  unfold State.endClaim
  grind [CstHeld.fields, CstHeld.closeClaim, CstHeld.settle]

theorem CstHeld.flagTile (hk : CstHeld cc s₀ s) (c h : Nat) (l : List Nat) : CstHeld cc s₀ (s.flagTile c h l) := by
  unfold State.flagTile
  grind [CstHeld.fields, CstHeld.modTile]

theorem CstHeld.tileEvent (hk : CstHeld cc s₀ s) (c h code cls detail : Nat)
    : CstHeld cc s₀ (s.tileEvent c h code cls detail) := by
  unfold State.tileEvent
  grind [CstHeld.fields, CstHeld.log]

theorem CstHeld.unstall (hk : CstHeld cc s₀ s) (c : Nat) (p : StallBy → Bool) : CstHeld cc s₀ (s.unstall c p) := by
  unfold State.unstall
  grind [CstHeld.fields, CstHeld.modCore]

theorem CstHeld.chanHalt (hk : CstHeld cc s₀ s) (c ch err : Nat) : CstHeld cc s₀ (s.chanHalt c ch err) := by
  unfold State.chanHalt
  grind [CstHeld.fields, CstHeld.modChan, CstHeld.unstall, CstHeld.count]

theorem CstHeld.arrKick (hk : CstHeld cc s₀ s) (c : Nat) : CstHeld cc s₀ (s.arrKick c) := by
  unfold State.arrKick
  grind [CstHeld.fields, CstHeld.modTile]

theorem CstHeld.arrLeave (hk : CstHeld cc s₀ s) (c : Nat) : CstHeld cc s₀ (s.arrLeave c) := by
  unfold State.arrLeave
  grind [CstHeld.fields, CstHeld.modArr, CstHeld.arrKick]

theorem CstHeld.arrDrop (hk : CstHeld cc s₀ s) (c h : Nat) : CstHeld cc s₀ (s.arrDrop c h) := by
  unfold State.arrDrop
  grind [CstHeld.fields, CstHeld.modArr, CstHeld.arrLeave]

theorem CstHeld.dropWork (hk : CstHeld cc s₀ s) (c h : Nat) : CstHeld cc s₀ (s.dropWork c h) := by
  unfold State.dropWork
  grind [CstHeld.fields, CstHeld.modCore, CstHeld.arrDrop]

theorem CstHeld.releaseSlots (hk : CstHeld cc s₀ s) (c h : Nat) : CstHeld cc s₀ (s.releaseSlots c h) := by
  unfold State.releaseSlots
  exact (hk.each _ _ fun t n h => h.slotRelease _ _ _).each _ _ fun t n h => h.slotRelease _ _ _

theorem CstHeld.abortChans (hk : CstHeld cc s₀ s) (c h : Nat) : CstHeld cc s₀ (s.abortChans c h) := by
  unfold State.abortChans
  grind [CstHeld.fields, CstHeld.each, CstHeld.store, CstHeld.chanHalt]

theorem CstHeld.freeTile (hk : CstHeld cc s₀ s) (c h : Nat) : CstHeld cc s₀ (s.freeTile c h) := by
  unfold State.freeTile
  grind [CstHeld.fields, CstHeld.dropWork, CstHeld.unstall, CstHeld.modTile, CstHeld.modSeq]

theorem CstHeld.abortWait (hk : CstHeld cc s₀ s) (c h : Nat) (tsw : W32) : CstHeld cc s₀ (s.abortWait c h tsw) := by
  unfold State.abortWait
  grind [CstHeld.fields, CstHeld.setScalar, CstHeld.seqDone]

theorem CstHeld.abortTile (hk : CstHeld cc s₀ s) (c h : Nat) : CstHeld cc s₀ (s.abortTile c h) := by
  unfold State.abortTile
  grind (gen := 40) (ematch := 40) [CstHeld.fields, CstHeld.flagTile, CstHeld.releaseSlots, CstHeld.abortChans,
    CstHeld.abortWait, CstHeld.freeTile]

theorem CstHeld.forceTile (hk : CstHeld cc s₀ s) (c h : Nat) : CstHeld cc s₀ (s.forceTile c h) := by
  unfold State.forceTile
  grind [CstHeld.fields, CstHeld.flagTile, CstHeld.tileEvent, CstHeld.returnClaim, CstHeld.abortTile]

theorem CstHeld.endTile (hk : CstHeld cc s₀ s) (c h : Nat) : CstHeld cc s₀ (s.endTile c h) := by
  unfold State.endTile
  grind [CstHeld.fields, CstHeld.endClaim, CstHeld.abortTile]

theorem CstHeld.groupEvent (hk : CstHeld cc s₀ s) (g code cls detail tile : Nat)
    : CstHeld cc s₀ (s.groupEvent g code cls detail tile) := by
  unfold State.groupEvent
  grind [CstHeld.fields, CstHeld.log]

theorem CstHeld.endRounds (hk : CstHeld cc s₀ s) (g cause : Nat) (doubt : Bool)
    : CstHeld cc s₀ (s.endRounds g cause doubt) := by
  unfold State.endRounds
  grind [CstHeld.fields, CstHeld.endTile, CstHeld.groupEvent, CstHeld.modGroup, CstHeld.foldl]

theorem CstHeld.sendAbort (hk : CstHeld cc s₀ s) (g cause : Nat) : CstHeld cc s₀ (s.sendAbort g cause) := by
  unfold State.sendAbort
  grind [CstHeld.fields, CstHeld.toKids, CstHeld.toParent]

theorem CstHeld.abortGroup (hk : CstHeld cc s₀ s) (g cause : Nat) (doubt : Bool)
    : CstHeld cc s₀ (s.abortGroup g cause doubt) := by
  unfold State.abortGroup
  grind [CstHeld.fields, CstHeld.sendAbort, CstHeld.endRounds]

theorem CstHeld.resetGroup (hk : CstHeld cc s₀ s) (g : Nat) : CstHeld cc s₀ (s.resetGroup g) := by
  unfold State.resetGroup
  grind [CstHeld.fields, CstHeld.abortGroup]

theorem CstHeld.abortClaims (hk : CstHeld cc s₀ s) (c : Nat) : CstHeld cc s₀ (s.abortClaims c) := by
  unfold State.abortClaims
  grind [CstHeld.fields, CstHeld.each, CstHeld.abortHeld]

theorem CstHeld.forceQuiesce (hk : CstHeld cc s₀ s) (c : Nat) : CstHeld cc s₀ (s.forceQuiesce c) := by
  unfold State.forceQuiesce
  grind [CstHeld.fields, CstHeld.each, CstHeld.resetGroup, CstHeld.forceTile]

end Sys2Proof.Machine
end

section
set_option Elab.async false
/-! Core quiesce, scrub, enable and forced tiles (R548, R549, R556, R561). -/

namespace Sys2Proof.Machine
open Sys2Proof
variable {s t u : State} {c h : Nat}

/-! ### Tiles forced free -/

/-- A tile that is freed is FREE, and the others keep their state. -/
theorem State.st_freeTile (c h : Nat) : ((s.freeTile c h).tile c h).st = .free ∧
    ∀ k, k ≠ h → StHeld c k s (s.freeTile c h) := by
  refine ⟨?_, fun k hk => ?_⟩
  · unfold State.freeTile
    rw [State.tile_modSeq, State.tile_modTile_self]
  · unfold State.freeTile
    refine StHeld.modSeq ?_ c _
    have hd : StHeld c k s ((s.dropWork c h).unstall c (StallBy.ofTile h)) := ((StHeld.refl c k s).dropWork c h).unstall c _
    generalize (s.dropWork c h).unstall c (StallBy.ofTile h) = t at *
    exact hd.of_tile_eq (State.tile_modTile_ne t (fun _ => {}) hk)

/-- The state from which an abort frees its tile. -/
def State.abortReady (s : State) (c h : Nat) : State :=
  let t1 := s.flagTile c h [fABORT]
  let w := t1.tileTsw c h
  let t2 := ((t1.releaseSlots c h).abortChans c h).abortWait c h w
  let d := Desc.disp (s.tileDesc c h)
  let r := (s.tile c h).rec_
  { t2 with sdt := { t2.sdt with
      commits := t2.sdt.commits.filter (· ≠ (c, h))
      partSums := t2.sdt.partSums.filter (fun y => !(y.disp = d && y.tile = CRec.tile r && y.epoch = CRec.epoch r)) } }

theorem State.abortTile_eq (c h : Nat) : s.abortTile c h = (s.abortReady c h).freeTile c h := rfl

theorem StHeld.abortReady {s₀ : State} {k : Nat} (hk : StHeld c k s₀ s) (h : Nat) : StHeld c k s₀ (s.abortReady c h) := by
  unfold State.abortReady
  extract_lets t1 w t2 d r
  have h1 : StHeld c k s₀ t1 := hk.flagTile c h _
  clear_value t1
  have h2 : StHeld c k s₀ ((t1.releaseSlots c h).abortChans c h) := (h1.releaseSlots c h).abortChans c h
  have h3 : StHeld c k s₀ t2 := h2.abortWait c h w
  clear_value t2
  exact h3.of_cores_eq rfl

/-- A tile that is aborted is FREE, and the others keep their state. -/
theorem State.st_abortTile (c h : Nat) : ((s.abortTile c h).tile c h).st = .free ∧
    ∀ k, k ≠ h → StHeld c k s (s.abortTile c h) := by
  have hr (k : Nat) := (StHeld.refl c k s).abortReady h
  rw [State.abortTile_eq]
  generalize s.abortReady c h = t at *
  obtain ⟨hfree, hother⟩ := State.st_freeTile (s := t) c h
  exact ⟨hfree, fun k hk => (hother k hk).trans (hr k)⟩

/-- A tile that is forced is FREE, and the others keep their state. -/
theorem State.st_forceTile (c h : Nat) : ((s.forceTile c h).tile c h).st = .free ∧
    ∀ k, k ≠ h → StHeld c k s (s.forceTile c h) := by
  unfold State.forceTile
  extract_lets t d w u
  have hu (k : Nat) : StHeld c k s u := ((StHeld.refl c k s).tileEvent _ _ _ _ _).returnClaim _ _ _ _
  clear_value u
  obtain ⟨hfree, hother⟩ := State.st_abortTile (s := u) c h
  exact ⟨hfree, fun k hk => (hother k hk).trans (hu k)⟩

/-- Tiles forced one after another are all FREE. -/
theorem State.st_forced (l : List Nat) (hf : h ∈ l ∨ (s.tile c h).st = .free) :
    ((s.each l (fun t h => t.forceTile c h)).tile c h).st = .free := by
  induction l generalizing s with
  | nil => exact hf.resolve_left List.not_mem_nil
  | cons k l ih =>
    obtain ⟨h1, h2⟩ := State.st_forceTile (s := s) c k
    rw [State.each_cons]
    generalize s.forceTile c k = w at *
    refine ih ?_
    by_cases hk : h = k
    · exact .inr (hk ▸ h1)
    · exact hf.imp (fun hm => (List.mem_cons.mp hm).resolve_left hk) fun hfree => (h2 h hk).trans hfree

/-! ### The scrub of a core -/

/-- The state without the claims that a core has waiting. -/
def State.claimsDropped (s : State) (c : Nat) : State :=
  s.each (upTo 64) (fun t d => t.modDisp d (fun x => { x with
    claims := x.claims.filter (·.core ≠ c), waiting := x.waiting.filter (· ≠ c) }))

theorem State.claimsDropped_spec (c : Nat) : (∀ k, (s.claimsDropped c).core k = s.core k) ∧ ∀ a, (s.claimsDropped c).byte a = s.byte a := by
  have hon : only [.sdt] s (s.claimsDropped c) := (only.refl _ s).each _ _ fun t d ht => ht.modDisp (by simp) d _
  exact ⟨fun k => State.core_of_cores_eq ((hon .cores).resolve_left (by simp)), fun a => State.byte_of_mem_eq (State.mem_of_only hon (by simp)) ..⟩

/-- A core that is wiped keeps its state, and the other cores stay. -/
theorem State.core_wipeCore (c : Nat) : ((s.wipeCore c).core c).cst = (s.core c).cst ∧ ∀ k, k ≠ c → (s.wipeCore c).core k = s.core k := by
  unfold State.wipeCore
  extract_lets x t sdt tch u
  have hself : (t.core c).cst = (s.core c).cst := by
    simp only [t, State.core_setCore_self]
    rfl
  have hother : ∀ k, k ≠ c → t.core k = s.core k := fun k hk => State.core_setCore_ne _ _ hk
  clear_value t
  exact ⟨hself, hother⟩

theorem exec_coreQuiesceScrub {c : CoreId} (hq : (s.core c.val).quiescing = true) (hs : (s.core c.val).scrub = false) (hd : s.quiesced c.val = true) :
    exec (.coreQuiesceScrub c) s = .next (((s.claimsDropped c.val).wipeCore c.val).modCore c.val (fun k => { k with scrub := true })) := by
  rw [exec, execCoreQuiesceScrub, if_pos (by simp [hq, hs, hd]), State.claimsDropped]

/-- Settles O56, by the state of the core. -/
theorem coreQuiesce : Obligations.CoreQuiesce := by
  unfold Obligations.CoreQuiesce
  refine ⟨?_, ?_, ?_, ?_, ?_⟩
  · intro r c s hr
    refine ⟨fun hst => ?_, fun l hst => ?_, fun hst => ?_⟩
    · have he : exec (.coreQuiesce r c false false) s = .next ((s.modCore c.val (fun k => { k with cst := .quiescing false false })).abortClaims c.val) := by
        rw [exec, execCoreQuiesce, State.atReg_may _ _ _ _ _ _ hr, if_neg (by decide), State.quiesceCore, hst]
        rfl
      refine ⟨_, he, ((CstHeld.refl c.val _).abortClaims c.val).trans ?_⟩
      rw [State.core_modCore_self]
    · have hq : (s.core c.val).quiescing = true := by rw [Core.quiescing, hst]
      have he : exec (.coreQuiesceForce r c) s = .next ((s.modCore c.val (fun k => { k with cst := .quiescing true l })).forceQuiesce c.val) := by
        rw [exec, execCoreQuiesceForce, State.atReg_may _ _ _ _ _ _ hr, if_pos hq, State.quiesceCore, hst]
        rfl
      refine ⟨_, he, ((CstHeld.refl c.val _).forceQuiesce c.val).trans ?_⟩
      rw [State.core_modCore_self]
    · have he : exec (.coreEnable r c) s = .next (s.modCore c.val (fun k => { k with cst := .active })) := by
        rw [exec, execCoreEnable, State.atReg_may _ _ _ _ _ _ hr, State.enableCore, if_pos hst]
      exact ⟨_, he, State.core_modCore_self .., onlyCore.modCore (onlyCore.refl c.val s) _, (only.refl _ s).modCore (by simp) _ _⟩
  · intro c s hq hs hd
    have he := exec_coreQuiesceScrub hq hs hd
    obtain ⟨hcore, hbyte⟩ := State.claimsDropped_spec (s := s) c.val
    have hw := State.core_wipeCore (s := s.claimsDropped c.val) c.val
    have hmem (a : Nat) := State.byte_wipeCore (s := s.claimsDropped c.val) c.val a
    generalize s.claimsDropped c.val = t at *
    generalize t.wipeCore c.val = w at *
    refine ⟨_, he, ?_, ?_, fun o ho => ?_, fun a ha => ?_, fun k hk => ?_⟩
    · rw [State.core_modCore_self]
    · rw [State.core_modCore_self]
      exact hw.1.trans (congrArg Core.cst (hcore c.val))
    · exact (hmem _).trans (if_pos ⟨by omega, by omega⟩)
    · exact (hmem a).trans ((if_neg (by omega)).trans (hbyte a))
    · rw [State.core_modCore_ne _ _ hk]
      exact (hw.2 k hk).trans (hcore k)
  · intro c f s hs hst
    have he : exec (.coreScrubDone c) s = .next (s.modCore c.val (fun k => { k with cst := .disabled, scrub := false })) := by
      rw [exec, execCoreScrubDone]
      simp only [hs, hst]
      rfl
    exact ⟨_, he, State.core_modCore_self .., onlyCore.modCore (onlyCore.refl c.val s) _, (only.refl _ s).modCore (by simp) _ _⟩
  · intro r c s hr
    refine ⟨s.forceCore c.val, by rw [exec, execTileForce, State.atReg_may _ _ _ _ _ _ hr], fun h hh hforce => ?_⟩
    exact State.st_forced _ (.inl (List.mem_filter.mpr ⟨List.mem_range.mpr hh, hforce⟩))
  · intro r c s hr
    refine ⟨_, by rw [exec, execSuspectClear, State.atReg_may _ _ _ _ _ _ hr], State.rg_setRg_self .., ?_, (only.refl _ s).setRg (by simp) _ _ _ _ _⟩
    exact (onlyRegs.refl _ s).setRg _ _ _ _ _ (List.mem_singleton_self _)

end Sys2Proof.Machine
end
